-- ==== Sys2Proof/Word.lean ====
section
/-! DEFINITION. The word types of the model and their plainest names (R3: registers are 32-bit words,
byte strings are big-endian on the wire unless a chapter states otherwise). -/
namespace Sys2Proof

/-- One byte. -/
abbrev Byte := BitVec 8

/-- A byte string, first byte first. -/
abbrev Bytes := List (BitVec 8)

/-- A 32-bit register word (R3), also one binary32 bit pattern (R142). -/
abbrev Word := BitVec 32

/-- A 64-bit word: tick numbers (R29), register pairs (R414). -/
abbrev DWord := BitVec 64

/-- One side of the module (R13). -/
inductive SideId where
  | A
  | B
  deriving DecidableEq, Repr

/-- The other side. -/
def SideId.other : SideId → SideId
  | .A => .B
  | .B => .A

/-- The SIDE code of a side: 0 side A, 1 side B (R393, SIDE_SELF). -/
def SideId.code : SideId → Nat
  | .A => 0
  | .B => 1

/-- The four roles of a side (R216). -/
inductive Role where
  | out
  | joining
  | standby
  | active
  deriving DecidableEq, Repr

/-- ROLE_CLAIM[1:0] of a role (R19). -/
def Role.code : Role → Nat
  | .out => 0
  | .joining => 1
  | .standby => 2
  | .active => 3

end Sys2Proof
end

