-- ==== Sys2Proof/Syntax.lean ====
section
/-! DEFINITION. The commands of the module: one constructor of `Instr` per row of spec/opcode_table.json,
with the operands each row takes from outside. A command of an opcode table of the spec takes its header and
its parameter bytes; an event takes what the environment fixes (which side, which part, what was measured,
when); an instruction of Hyrra Scan Code takes the core it runs on and its encoded fields (R145). An operand `ns` counts
from T0 of the tick where a rule places the event in its tick (a bell, a pulse, a notice), and is an instant of TAI in
PF_WARN_ASSERT, GOOSE_FRAME_CHECK, FRAME_RECEIVE and FRAME_TRANSMIT, as `ingress` is; in CAN_FRAME_RECEIVE it is the
nanoseconds of one. -/

namespace Sys2Proof

/-- The addresses and UDP ports of a datagram (R390, R391). An IPv4 address stands as its IPv4-mapped IPv6 address (R396). -/
structure UdpAddr where
  src : BitVec 128
  srcPort : BitVec 16
  dst : BitVec 128
  dstPort : BitVec 16
  deriving DecidableEq, Repr

/-- How a command reached the module (R390): a datagram between two addresses; a mailbox ring, as the n-th packet that its
side's Porter has read; `bar0` is a register access of the host link (R378), `internal` the module itself (origin 0, R321). -/
inductive Transport where
  | udp (addr : UdpAddr)
  | mailbox (n : Nat)
  | console
  | bar0
  | internal
  deriving DecidableEq, Repr

/-- The header fields of a command that its execution needs (R393). `ring` is the mailbox ring it came through (R385),
0 on the other transports. -/
structure CmdHdr where
  side : SideId
  transport : Transport
  origin : Word
  seq : Word
  stall : BitVec 8
  applyTick : DWord
  replyMax : BitVec 16
  ring : Fin 64
  deriving DecidableEq, Repr

/-- A scan core of one side, by its logical number 0 to 79 (R114). -/
structure CoreRef where
  side : SideId
  core : Fin 80
  deriving DecidableEq, Repr

/-- The four segments of a task (R143), in the order of their codes (R145). -/
inductive SegCode where
  | inp
  | out
  | ret
  | loc
  deriving DecidableEq, Repr

/-- A predicate field: a flag and its negation (R145 format B). -/
structure PredRef where
  neg : Bool
  flag : BitVec 3
  deriving DecidableEq, Repr

/-- One entry of an SV dataset: INT32 value and quality word (R64). -/
structure SvEntry where
  value : Word
  quality : Word
  deriving DecidableEq, Repr

/-- One ASDU of an SV frame (R64). `width` is the octets of smpCnt, `whole` says that the dataset is a whole number
of 8-byte entries. -/
structure SvAsdu where
  svId : Bytes
  smpCnt : Word
  width : Nat
  confRev : Word
  smpSynch : Byte
  smpRate : Option Nat
  gmId : Option DWord
  entries : List SvEntry
  whole : Bool
  deriving DecidableEq, Repr

/-- An SV frame as the Stream Intake sees it (R64, R68): `wellFormed` is the BER check, `tag` the IEC 62351-6
extension (key slot named, tag correct). -/
structure SvFrame where
  length : Nat
  dst : BitVec 48
  src : BitVec 48
  appId : BitVec 16
  redundancy : Option (BitVec 16)
  wellFormed : Bool
  sim : Bool
  noAsdu : Nat
  tag : Option (BitVec 8 × Bool)
  asdus : List SvAsdu
  deriving DecidableEq, Repr

/-- One member of a GOOSE dataset as received: TYPE of R201 and its content octets as on the wire, right-aligned: one octet of
a BOOLEAN, the two of a Quality and the one of a Dbpos without the octet that gives the unused bits, four of a number, the
eight of a Timestamp. -/
structure GooseVal where
  ty : Byte
  val : DWord
  deriving DecidableEq, Repr

/-- A GOOSE frame as the checks of R208 see it. `t` is the frame's t field as seconds, 24-bit fraction, quality. -/
structure GooseFrame where
  etherOk : Bool
  length : Nat
  dst : BitVec 48
  src : BitVec 48
  appId : BitVec 16
  redundancy : Option (BitVec 16)
  wellFormed : Bool
  gocbRef : Bytes
  sim : Bool
  test : Bool
  ndsCom : Bool
  tag : Option (BitVec 8 × Bool)
  confRev : Word
  stNum : Word
  sqNum : Word
  talMs : Nat
  t : DWord
  members : List GooseVal
  deriving DecidableEq, Repr

/-- A safety telegram as received: its destination and its payload bytes (R353). -/
structure TeleFrame where
  dst : BitVec 48
  payload : Bytes
  deriving DecidableEq, Repr

/-- A frame at a port as the switch classifies it (R253, R268). `tci` is the 802.1Q tag; `length` counts its bytes, FCS
included; `appId` the APPID of SV and GOOSE, the SAFETY_ID of 0x88B5; `ip` the bytes of items 3 and 4 of the flow hash;
`hsr` the HSR sequence number; `ptpEvent` marks a PTP event message; `head` all its bytes without FCS. -/
structure EthFrame where
  dst : BitVec 48
  src : BitVec 48
  tci : Option (BitVec 16)
  etherType : BitVec 16
  length : Nat
  fcsOk : Bool
  appId : BitVec 16
  ip : Bytes
  hsr : Option (BitVec 16)
  pause : Bool
  ptpEvent : Bool
  head : Bytes
  deriving DecidableEq, Repr

/-- An Announce message at a port: its domain, the dataset that the best master clock algorithm compares (`sender` is the
source port identity), what R292 reads of it, the TLVs of R280 and the grandmaster time inaccuracy read from them. -/
structure Announce where
  side : SideId
  port : Fin 11
  domain : Byte
  gmIdentity : DWord
  priority1 : Byte
  clockClass : Byte
  accuracy : Byte
  variance : BitVec 16
  priority2 : Byte
  steps : BitVec 16
  sender : BitVec 80
  utcOffset : BitVec 16
  utcValid : Bool
  leap59 : Bool
  leap61 : Bool
  inaccuracy : Option Word
  tlvs : Bytes
  deriving DecidableEq, Repr

/-- A CAN frame on a controller's bus (R365, R370). -/
structure CanFrame where
  ide : Bool
  fdf : Bool
  brs : Bool
  esi : Bool
  rtr : Bool
  id : BitVec 29
  data : Bytes
  deriving DecidableEq, Repr

/-- A descriptor of a Porter ring as the host wrote it (R382), with the bytes its buffer holds. -/
structure Descriptor where
  addr : DWord
  len : Nat
  irq : Bool
  buffer : Bytes
  deriving DecidableEq, Repr

/-- What the host reads of a side's function: an offset in BAR0 or in BAR2 (R378), or in its configuration space (R377). -/
inductive HostRead where
  | bar0 (offset : Word)
  | bar2 (offset : Word)
  | config (offset : BitVec 12)
  deriving DecidableEq, Repr

/-- A large send handed to the switch (R275): one set of headers, Ethernet to TCP or UDP, the segment size, the payload;
whether it answers a request addressed to its side's own station (R199), and the instant of the hand-over in ns of TAI. -/
structure BigSend where
  headers : Bytes
  segSize : Nat
  payload : Bytes
  reply : Bool
  ns : Nat
  deriving DecidableEq, Repr

/-- The fault a drill's test found on a side: none, a part, or a side fault (R59). -/
inductive DrillFault where
  | none
  | part (address : Word)
  | sideFault (address : Word)
  deriving DecidableEq, Repr

/-- A cross-link lane (R16). -/
inductive Lane where
  | path (n : Fin 8)
  | bell
  | spare (n : Fin 2)
  deriving DecidableEq, Repr

/-- What a side's loader reports (R475): LOADER_MS; `rootOk`: generation and programming of the native root pass, where it
must be made (R442); `pufOk`: the PUF root is reconstructed (R443); `trusted`: at the link training each side finds the
other's certificate and signature good (R444). -/
structure LoaderReport where
  ms : BitVec 16
  rootOk : Bool
  pufOk : Bool
  trusted : Bool
  deriving DecidableEq, Repr

/-- When a bell arrives, in ns after T0, and, for one that comes over the side's Smirnel path, the bytes the partner sent
and the T0 offset that their arrival shows (R239). -/
structure BellArrival where
  ns : Nat
  smirnel : Option (Bytes × Int)
  deriving DecidableEq, Repr

/-- The commands the module takes: one constructor per row of spec/opcode_table.json. -/
inductive Instr where
  /-- POWER_GOOD (R475). The converter asserts power-good; the Arbiter and both sides start the boot timeline. -/
  | powerGood (holdupOk : Bool) (rtcA rtcB : Option (BitVec 48 × Word))
  /-- LOADER_VERIFY (R475). A side's loader finishes verifying its stored image, or requests a peer restore. -/
  | loaderVerify (side : SideId) (verified : Bool) (report : LoaderReport)
  /-- SELFTEST_COMPLETE (R476). A side completes its start-up self-test and claims Active or starts Joining. -/
  | selftestComplete (side : SideId) (pass : Bool) (ms : BitVec 16) (retired : List Word)
  /-- START_ROLE_TIMEOUT (R476). At 3,000 ms after power-good a Black side claims Active when the White side does not. -/
  | startRoleTimeout
  /-- SERVICE_GATE_OPEN (R478). The service gate opens and the active side lists origin-0 STALL_START for stalls that were Running. -/
  | serviceGateOpen (ms : Word)
  /-- GATE_WAIT (R478). 60 s after power-good with the gate still closed, the Crier reports GATE_WAIT once. -/
  | gateWait
  /-- PF_WARN_ASSERT (R482). The power-fail warning asserts and the active side chooses the stop tick. -/
  | pfWarnAssert (ns : Nat)
  /-- POWER_DIP (R482). PF_WARN clears before the stop tick; nothing stops and a dip is counted and recorded. -/
  | powerDip
  /-- POWER_HALT (R483). Module-created command listed first in the bell of the stop tick; both sides enter Orderly stop. -/
  | powerHalt (stopTick : DWord)
  /-- ORDERLY_STOP_END (R484). The orderly stop completes and the module goes Off, Parked or boots. -/
  | orderlyStopEnd (inputPresent : Bool)
  /-- INPUT_RETURN_IN_STOP (R485). The input returns during an orderly stop; the stop completes and the module boots with cause 9. -/
  | inputReturnInStop
  /-- PARKED_INPUT_LOSS (R474). The input fails while Parked or Booting before service; staging queues are committed and the module goes Off. -/
  | parkedInputLoss
  /-- RESET_REQ (R481). RESET_REQ_N is released after 10 ms to 5 s low, causing an orderly stop and module restart. -/
  | resetReq
  /-- RESET_REQ_LONG (R481). RESET_REQ_N held low beyond 5 s resets module and Arbiter at once with outputs off. -/
  | resetReqLong
  /-- WAKE_REQ (R474). WAKE_REQ_N held low for 1 ms wakes a Parked module. -/
  | wakeReq
  /-- WAKE_PATTERN (R276). A Parked wake detector receives a frame carrying the wake pattern and wakes the module. -/
  | wakePattern (side : SideId) (id : BitVec 48) (code : Word)
  /-- WAKE_LOCKOUT (R277). Eight patterns with a wrong code within 60 s lock the detector out and set LOCKED. -/
  | wakeLockout (side : SideId)
  /-- WAKE_LOCKOUT_END (R277). The 60 s wake lockout ends and patterns are heeded again. -/
  | wakeLockoutEnd (side : SideId)
  /-- AUX_OVERCURRENT (R491). AUX_3V3 current-limits for 10 ms, switches off and sets AUX_OVERCURRENT. -/
  | auxOvercurrent
  /-- AUX_RETRY (R491). One second after an overcurrent shutdown AUX_3V3 retries. -/
  | auxRetry
  /-- JUNCTION_TEMP_WARN (R495). A junction exceeds 110 °C and TEMP_WARN is set. -/
  | junctionTempWarn (side : SideId) (temp : BitVec 16)
  /-- RAIL_FAULT (R218). A rail stays outside ±3 % for 2 µs; the side demotes in hardware. -/
  | railFault (side : SideId) (rail : Fin 8) (milliVolts dev : BitVec 16)
  /-- CLOCK_FAULT (R218). OCXO output loss or PLL unlock; the side demotes in hardware. -/
  | clockFault (side : SideId)
  /-- DIE_OVERTEMP (R218). Junction above 115 °C; the side demotes in hardware. -/
  | dieOvertemp (side : SideId) (temp : BitVec 16)
  /-- ARB_LINK_LOSS (R218). The side's IN_DATA line has been down for 2 ticks; the side demotes at the next T0. -/
  | arbLinkLoss (side : SideId)
  /-- WATCHDOG_EXPIRY (R218). The management watchdog is not served for 4,800 ticks; the side demotes and reboots. -/
  | watchdogExpiry (side : SideId)
  /-- PEER_DEMOTION_LEARNED (R221). The standby side receives a demotion notice or PEER_DEMOTED and seals and promotes. -/
  | peerDemotionLearned (side : SideId) (ns : Nat)
  /-- ROLE_CLAIM_CHANGE (R226). The Arbiter sees a change of a side's ROLE_CLAIM or DEMOTE and forwards it in the peer word. -/
  | roleClaimChange (side : SideId)
  /-- ARB_TICK_PULSE (R24). The Arbiter receives a TICK_PULSE, applies the output image, freezes the input image and checks skew. -/
  | arbTickPulse (side : SideId) (ns : Nat)
  /-- ARB_SIDE_SILENT (R21). A side's TICK_PULSE or ALIVE shows no activity for 2 ticks; the Arbiter clears PEER_SEEN. -/
  | arbSideSilent (side : SideId)
  /-- NO_IMAGE_TIMEOUT (R229). No output image applied for 48 ticks; every field output is switched off and NO_IMAGE set. -/
  | noImageTimeout
  /-- FIELD_EDGE_ACCEPT (R338). An input's debounce count completes and the Arbiter accepts a change of level with its time tag. -/
  | fieldEdgeAccept (ch : Fin 32) (level : Bool) (tagTick : DWord) (tagUs : BitVec 8)
  /-- DISCREPANCY_TIMEOUT (R348). The matching edge of a pair does not arrive within DISCREPANCY; the instance latches. -/
  | discrepancyTimeout (inst : Fin 32)
  /-- FEEDBACK_TIMEOUT (R349). SF4 feedback fails to follow the output in time; the instance latches. -/
  | feedbackTimeout (inst : Fin 32)
  /-- PERMIT_DISAGREE_TIMEOUT (R350). Hard-wired and processor permits differ for 100 ms; the instance latches with CAUSE 4. -/
  | permitDisagreeTimeout (inst : Fin 32)
  /-- OUTPUT_SHORT (R344). An output overcurrent switches it off within 5 µs and shows RETRYING or latches SHORT. -/
  | outputShort (ch : Fin 32)
  /-- SHORT_RETRY (R344). 100 ms after a short, a still-commanded output is retried. -/
  | shortRetry (ch : Fin 32)
  /-- SHORT_RETRY_CLEAR (R344). A retry runs 100 ms without a short and clears the retry count. -/
  | shortRetryClear (ch : Fin 32)
  /-- OPEN_LOAD_DETECT (R345). An on output delivers under 5 mA for 50 ms and reports OPEN_LOAD. -/
  | openLoadDetect (ch : Fin 32)
  /-- OPEN_LOAD_CLEAR (R345). OPEN_LOAD clears after 50 ms at 5 mA or more. -/
  | openLoadClear (ch : Fin 32)
  /-- WIRE_BREAK_DECLARE (R341). Input current classifies as broken for 20 ms and BROKEN is declared. -/
  | wireBreakDeclare (ch : Fin 32)
  /-- WIRE_BREAK_CLEAR (R341). Input current classifies intact for 20 ms and BROKEN clears. -/
  | wireBreakClear (ch : Fin 32)
  /-- FIELD_SUPPLY_CHANGE (R342). The filtered field supply crosses a threshold and the supply state changes. -/
  | fieldSupplyChange (centiVolts : BitVec 16)
  /-- TICK_START (R36). T0 of a work tick: the tick runs its Bell, Condition, Scan, Collect and Guard phases. -/
  | tickStart (w : DWord)
  /-- COMPARATOR_PICKUP (R95). A comparator's pickup condition holds for P ticks and it picks up with an event. -/
  | comparatorPickup (side : SideId) (chan : Fin 8192) (comp : Fin 4)
  /-- COMPARATOR_DROPOUT (R95). A comparator's hold condition fails for Q ticks and it drops out with an event. -/
  | comparatorDropout (side : SideId) (chan : Fin 8192) (comp : Fin 4)
  /-- CHAIN_SETTLED (R102). A Starting chain reaches N + S_rate samples and becomes Running. -/
  | chainSettled (side : SideId) (chan : Fin 8192)
  /-- SETTLING_END (R101). The fine window becomes clean after a step; SETTLING and COARSE clear. -/
  | settlingEnd (side : SideId) (chan : Fin 8192)
  /-- STREAM_ABSENT (R78). A stream misses its M-th consecutive sample tick and becomes ABSENT. -/
  | streamAbsent (side : SideId) (slot : Fin 1024)
  /-- ACTIVATION_START (R117). A released activation starts on its core and copies its input image. -/
  | activationStart (core : CoreRef)
  /-- BELL_RECEIVE (R51). An adopting side receives a bell, checks it and adopts it. -/
  | bellReceive (side : SideId) (intact : Bool) (arrival : BellArrival)
  /-- BELL_DEADLINE (R52). No bell adopted by 3.0 µs after T0; the standby side is unsealed and claims Joining. -/
  | bellDeadline (side : SideId)
  /-- BELL_LOSS (R53). No bell adopted in 3 consecutive ticks; the loss is reported and the split rules apply. -/
  | bellLoss (side : SideId)
  /-- DIGEST_ECHO (R56). The standby side's digest echo arrives and both sides compare digests. -/
  | digestEcho
  /-- DRILL_VERDICT (R59). Drill verdicts are exchanged and the outcome takes effect at the bell of tick w + 3. -/
  | drillVerdict (faultA faultB : DrillFault)
  /-- MIGRATION_NOTICE (R57). A migration notice names stalls whose frames the standby withholds and resynchronises. -/
  | migrationNotice (side : SideId)
  /-- TALLY_LIMIT (R128). A stall's abort tally reaches ABORT_LIMIT and a stall-reset notice is listed. -/
  | tallyLimit (stall : Fin 64)
  /-- WINDOW_ABORT (R125). An activation still running at 195.0 µs is aborted and its core treated as faulty. -/
  | windowAbort (core : CoreRef)
  /-- CORE_FAILURE (R127). A scan core fails; its activations are discarded and the spare core takes over. -/
  | coreFailure (core : CoreRef)
  /-- CLUSTER_FAILURE (R127). A scan cluster fails; its activations are discarded and a cluster migration follows. -/
  | clusterFailure (side : SideId) (cluster : Fin 10) (uncorrectable : Bool)
  /-- FORCE_EXPIRY (R133). A force reaches its expiry and is cleared at the bell. -/
  | forceExpiry (handle : BitVec 8)
  /-- GOOSE_REPEAT (R203). A control block's repeat falls due and its frame is sent again with sqNum raised. -/
  | gooseRepeat (side : SideId) (index : Fin 512)
  /-- GOOSE_SUB_EXPIRY (R209). A subscription's time allowed to live runs out and it becomes EXPIRED. -/
  | gooseSubExpiry (index : Fin 2048)
  /-- GOOSE_FRAME_CHECK (R208). A received GOOSE frame is checked and accepted as a change or repeat, or discarded. -/
  | gooseFrameCheck (side : SideId) (f : GooseFrame) (ns : Nat)
  /-- TELEGRAM_RECEIVE (R355). A safety telegram copy is received and weighed by the scales. -/
  | telegramReceive (side : SideId) (lan : SideId) (f : TeleFrame)
  /-- TELEGRAM_WATCHDOG (R356). No COUNTER accepted within WATCHDOG; the telegram subscription becomes EXPIRED. -/
  | telegramWatchdog (tele : Fin 64)
  /-- SV_FRAME_INTAKE (R68). The Stream Intake validates an SV frame and files its samples. -/
  | svFrameIntake (side : SideId) (port : SideId) (f : SvFrame) (ingress : Nat)
  /-- SV_FAILURE_RUN (R70). A failure run reaches 48 ticks; STREAM_STATE flag set and one Crier notification sent. -/
  | svFailureRun (side : SideId) (slot : Fin 1024) (reason : BitVec 4)
  /-- DUP_ENTRY_EXPIRY (R74). A duplicate-filter entry is forgotten after 400 ms. -/
  | dupEntryExpiry (side : SideId) (src : BitVec 48) (seqNo : BitVec 16)
  /-- FRAME_RECEIVE (R253). The switch receives a frame on an external port, classifies it and forwards it. -/
  | frameReceive (side : SideId) (port : Fin 11) (f : EthFrame) (ns : Nat)
  /-- FRAME_TRANSMIT (R266). A queued frame starts on its port when its gate is open long enough. -/
  | frameTransmit (side : SideId) (port : Fin 16) (ns : Nat)
  /-- PRP_SUPERVISION (R270). Every 2,000 ms supervision frames are sent for PUB_MAC and station MACs. -/
  | prpSupervision (side : SideId)
  /-- PRP_NODE_EXPIRY (R270). A node is forgotten after 60 s without a frame. -/
  | prpNodeExpiry (side : SideId) (mac : BitVec 48)
  /-- XLINK_LANE_FAIL (R18). A cross-link lane fails; a spare is mapped or the path or bell is moved. -/
  | xlinkLaneFail (lane : Lane)
  /-- PATH_RESTORE (R269). A recovered switch path comes up at a tick boundary and flows return to it. -/
  | pathRestore (upper : Bool)
  /-- CROSSLINK_RECOVER (R237). The cross-link recovers and a side Out by split rejoins automatically. -/
  | crosslinkRecover
  /-- HSR_RING_OPEN (R272). Ring frames can no longer pass; HSR_OPEN is set and reported. -/
  | hsrRingOpen (side : SideId)
  /-- PORT_LINK_CHANGE (R252). A port's link goes up or down. -/
  | portLinkChange (side : SideId) (port : Fin 16) (up localFault remoteFault : Bool)
  /-- PRBS_LANE_ERRORS (R456). A spare lane shows more than 10 bit errors in 1 s and stops counting as a spare. -/
  | prbsLaneErrors (side : SideId) (lane : Fin 2) (errors : BitVec 16)
  /-- SEGMENT_SEND (R275). The management complex hands the switch a large TCP or UDP send to segment. -/
  | segmentSend (side : SideId) (port : Fin 16) (send : BigSend)
  /-- SERVO_UPDATE (R287). A new offset updates the PI servo and the timebase state. -/
  | servoUpdate (theta : Int)
  /-- ANNOUNCE_RECEIVE (R292). An Announce message is received; master selection and UTC offset are updated. -/
  | announceReceive (m : Announce)
  /-- HOLDOVER_ENTRY (R288). Sync or Announce times out in LOCKED and the timebase enters HOLDOVER. -/
  | holdoverEntry
  /-- HOLD_LONG (R293). After 2 h in HOLDOVER, HOLD_LONG is set and reported. -/
  | holdLong
  /-- TIME_STEP_APPLY (R290). At the second boundary both sides load the staged time. -/
  | timeStepApply
  /-- PPS_INPUT_EDGE (R296). A rising edge on PPS_IN gives the servo an offset under source EXT. -/
  | ppsInputEdge (theta : Int)
  /-- TIME_GUARD_RETRY (R246). A joiner refused by the time guard retries after stepping or slewing. -/
  | timeGuardRetry (side : SideId) (offset : Int)
  /-- T0_DRIFT_LIMIT (R247). T0 offset beyond its limit for 16 ticks; the standby or following module leaves step. -/
  | t0DriftLimit (betweenModules : Bool)
  /-- SMIRNEL_LOSS (R242). No Smirnel bell for 3 ticks; FOLLOW becomes ISOLATED and LEAD becomes SOLO. -/
  | smirnelLoss
  /-- PAIR_DEMOTION_NOTICE (R241). The leading module's last side sends a pair demotion notice and the follower promotes. -/
  | pairDemotionNotice
  /-- EGRESS_FAULT_STOP (R245). All process ports down or remote-faulted for 2 ticks; the module stops publishing. -/
  | egressFaultStop
  /-- RESYNC_BULK_DONE (R232). The bulk copy of resynchronisation completes and dirty passes begin. -/
  | resyncBulkDone (side : SideId)
  /-- RESYNC_ATTEMPT_FAIL (R233). A resynchronisation attempt runs out of time and the joiner goes back Out. -/
  | resyncAttemptFail (side : SideId)
  /-- RESYNC_RETRY (R233). 4,800 ticks after a failed attempt the module retries resynchronisation. -/
  | resyncRetry (side : SideId)
  /-- WAVEFRONT_EDGE (R302). A wavefront input edge is timed by the TDC and queued. -/
  | wavefrontEdge (side : SideId) (input : Fin 8) (rising : Bool) (t64 : Nat)
  /-- DEST_OVERFLOW (R309). A destination cannot accept a record within 4 ticks; channels write OVERFLOW and stop. -/
  | destOverflow (side : SideId) (dram : Bool) (dest : Fin 64)
  /-- CAN_FRAME_RECEIVE (R366). A controller accepts a frame, files it and forwards it to the other side. -/
  | canFrameReceive (side : SideId) (f : CanFrame) (ns : Word)
  /-- CAN_BUS_OFF (R364). The controller goes bus-off and abandons pending transmissions. -/
  | canBusOff (side : SideId)
  /-- CAN_BUS_OFF_RECOVERY (R364). After 128 sequences of 11 recessive bits the controller recovers. -/
  | canBusOffRecovery (side : SideId)
  /-- CAN_BUS_REJOIN (R363). After a timing change the controller rejoins the bus after 11 recessive bits. -/
  | canBusRejoin (side : SideId)
  /-- CAN_ARBITRATION_LOSS (R373). A frame loses arbitration or meets an error and is retried or abandoned. -/
  | canArbitrationLoss (side : SideId) (error : Bool)
  /-- CAN_TX_DONE (R374). A frame on the bus completes and the next pending frame may follow. -/
  | canTxDone (side : SideId)
  /-- DOORBELL_WRITE (R382). The host writes TAIL in a ring's doorbell page. -/
  | doorbellWrite (side : SideId) (ring : Fin 64) (tail : Word) (filled : List Descriptor)
  /-- MAILBOX_COMMAND (R385). The Porter reads a command packet from a mailbox descriptor and writes the reply over it. -/
  | mailboxCommand (side : SideId) (ring : Fin 64)
  /-- TO_HOST_TIMEOUT (R383). One tick after its first record a TO_HOST descriptor is completed. -/
  | toHostTimeout (side : SideId) (ring : Fin 64)
  /-- DMA_ERROR (R384). A ring's DMA request fails or its doorbell is invalid; the ring stops with ERR. -/
  | dmaError (side : SideId) (ring : Fin 64)
  /-- MSIX_HOLDOFF_END (R380). A ring's holdoff ends and pending completions are signalled in one message. -/
  | msixHoldoffEnd (side : SideId) (ring : Fin 64)
  /-- RING_RESET_DONE (R386). Every DMA request of a reset ring has finished and RESET_DONE sets. -/
  | ringResetDone (side : SideId) (ring : Fin 64)
  /-- FUNCTION_LEVEL_RESET (R386). A PCIe function-level reset resets every ring of the side. -/
  | functionLevelReset (side : SideId)
  /-- PCIE_LINK_UP (R387). The side's PCIe link comes back after a reboot and must be enumerated again. -/
  | pcieLinkUp (side : SideId) (gen width : BitVec 3) (busMaster : Bool)
  /-- COMMAND_PACKET (R400). A command packet arrives and is checked in order. -/
  | commandPacket (side : SideId) (transport : Transport) (port : Fin 16) (fragment : Bool) (packet : Bytes)
  /-- COMMAND_APPLY (R403). A validated command with a later apply tick executes at that bell. -/
  | commandApply (side : SideId)
  /-- CONSOLE_GAP_TIMEOUT (R392). A console packet with a gap over 10 ms is discarded. -/
  | consoleGapTimeout (side : SideId)
  /-- CORRECTED_ERROR (R458). A memory access corrects an error and rewrites the word. -/
  | correctedError (side : SideId) (part word : Word) (bits : BitVec 3)
  /-- UNCORRECTABLE_ERROR (R458). An uncorrectable memory error escalates to the containing part. -/
  | uncorrectableError (side : SideId) (part word : Word)
  /-- SLOT_TAG_FAIL (R447). A key slot fails its tag check and becomes BAD. -/
  | slotTagFail (side : SideId) (slot : Fin 64)
  /-- MGMT_CORE_FAIL (R459). A management core fails and the fifth core takes over within 50 ms. -/
  | mgmtCoreFail (side : SideId)
  /-- DEEP_TEST_DONE (R466). A deep test ends; the side rejoins on a pass or stays Out on failure. -/
  | deepTestDone (side : SideId) (pass : Bool)
  /-- VALIDATION_DONE (R422). Validation of a shadow scope ends and its final status follows. -/
  | validationDone (stall : Fin 64)
  /-- CFG_RING_IMAGE_HELD (R421). Both sides hold a ring-loaded set image and the command is listed. -/
  | cfgRingImageHeld (image : Bytes)
  /-- PEER_RESTORE (R433). A side boots the other side's PROVEN image over the cross-link. -/
  | peerRestore (side : SideId)
  /-- NOR_RESTORE_DONE (R433). The restored image has been written to NOR in the background. -/
  | norRestoreDone (side : SideId)
  /-- UPDATE_ACTIVATION (R434). At tick S the first side reboots into the new image after any hand-over. -/
  | updateActivation
  /-- GAMBIT_CONFIRM (R435). The gambit passes self-test, resynchronisation and 48,000 trial ticks and confirms. -/
  | gambitConfirm
  /-- GAMBIT_WINDOW_EXPIRY (R435). The gambit window ends without confirmation and the side falls back. -/
  | gambitWindowExpiry
  /-- SECOND_SIDE_COPY_DONE (R438). The new image has been copied into the second side's NOR. -/
  | secondSideCopyDone
  /-- SECOND_SIDE_REBOOT (R438). At the first TAI second after SECOND_DELAY the second side reboots. -/
  | secondSideReboot
  /-- SAFE_UNLOCK_EXPIRY (R360). A safety unlock reaches 15 min and ends. -/
  | safeUnlockExpiry (origin : Word)
  /-- SAFE_LOCKOUT_END (R360). The 10 min unlock lockout ends. -/
  | safeLockoutEnd
  /-- MASK_REFRESH (R453). Fresh masks are drawn for every cached key. -/
  | maskRefresh (side : SideId)
  /-- TIME_NS_READ (R291). A 32-bit read of TIME_NS latches seconds and fraction into the shadow. -/
  | timeNsRead (side : SideId) (bar0 : Bool) (sec : BitVec 48) (ns : Word) (frac : BitVec 16)
  /-- TXTS_ENTRY_READ (R286). A read of TXTS_ENTRY pops the oldest transmit timestamp. -/
  | txtsEntryRead (side : SideId) (port : Fin 11)
  /-- RXQ_HEAD_READ (R366). A read of RXQ_HEAD pops the oldest frame of the receive queue. -/
  | rxqHeadRead (side : SideId) (queue : Fin 2)
  /-- TIME_SET_GO (R290). Writing GO stages TIME_SET_SEC and TIME_SET_NS for the next second boundary. -/
  | timeSetGo (side : SideId)
  /-- TIME_SET_CANCEL (R290). Writing CANCEL withdraws the staged time. -/
  | timeSetCancel (side : SideId)
  /-- RING_CFG_RESET (R386). Writing RESET in RING_CFG resets the ring. -/
  | ringCfgReset (side : SideId) (ring : Fin 64)
  /-- WAKE_ID_WRITE (R277). A write of WAKE_ID stores the wake identifier. -/
  | wakeIdWrite (side : SideId) (id : BitVec 48)
  /-- WAKE_CODE_WRITE (R277). A write of WAKE_CODE stores the wake code. -/
  | wakeCodeWrite (side : SideId) (code : Word)
  /-- REGISTER_WRITE (R414). A write to a register without its own row, by command or BAR0. -/
  | registerWrite (h : CmdHdr) (addr : Word) (width : BitVec 4) (value : DWord)
  /-- IDENTIFY (R412). Returns identity and versions of both sides. -/
  | identify (h : CmdHdr) (p : Bytes)
  /-- ECHO (R412). Returns the bytes sent. -/
  | echo (h : CmdHdr) (p : Bytes)
  /-- CMD_OUTCOME (R406). Returns the final status and apply tick of a recent command. -/
  | cmdOutcome (h : CmdHdr) (p : Bytes)
  /-- ORIGIN_SET (R396). Creates or changes a principal record. -/
  | originSet (h : CmdHdr) (p : Bytes)
  /-- ORIGIN_DELETE (R396). Deletes a principal record. -/
  | originDelete (h : CmdHdr) (p : Bytes)
  /-- ORIGIN_READ (R412). Returns principal records. -/
  | originRead (h : CmdHdr) (p : Bytes)
  /-- CMD_STATUS (R412). Returns command counters of both sides. -/
  | cmdStatus (h : CmdHdr) (p : Bytes)
  /-- CRIER_NOTE (R408). The Crier sends an unsolicited notification to a principal. -/
  | crierNote (h : CmdHdr) (code : BitVec 16) (ledgerSeq : DWord) (body : Bytes)
  /-- REG_READ (R414). Reads registers by command. -/
  | regRead (h : CmdHdr) (p : Bytes)
  /-- REG_WRITE (R414). Writes registers by command. -/
  | regWrite (h : CmdHdr) (p : Bytes)
  /-- REG_MODIFY (R412). Read-modify-writes a 32-bit register at one bell. -/
  | regModify (h : CmdHdr) (p : Bytes)
  /-- CFG_STATUS (R441). Returns configuration state and shadow digests. -/
  | cfgStatus (h : CmdHdr) (p : Bytes)
  /-- CFG_LOAD_BLOCK (R421). Writes a block of a shadow scope in chunks. -/
  | cfgLoadBlock (h : CmdHdr) (p : Bytes)
  /-- CFG_LOAD_RING (R421). Loads a whole set image from a FROM_HOST ring. -/
  | cfgLoadRing (h : CmdHdr) (p : Bytes)
  /-- CFG_COPY (R421). Replaces a shadow scope with a copy of its active scope. -/
  | cfgCopy (h : CmdHdr) (p : Bytes)
  /-- CFG_VALIDATE (R422). Starts validation of a shadow scope. -/
  | cfgValidate (h : CmdHdr) (p : Bytes)
  /-- CASTLE (R424). Swaps the active and shadow copies of a scope at a bell. -/
  | castle (h : CmdHdr) (p : Bytes)
  /-- CFG_READ (R441). Returns bytes of a canonical set image. -/
  | cfgRead (h : CmdHdr) (p : Bytes)
  /-- STALL_CREATE (R176). Creates a stall and takes its grant from the pools. -/
  | stallCreate (h : CmdHdr) (p : Bytes)
  /-- STALL_DELETE (R183). Deletes a stall and returns its grants. -/
  | stallDelete (h : CmdHdr) (p : Bytes)
  /-- STALL_RESIZE (R177). Writes a stall's shadow grant. -/
  | stallResize (h : CmdHdr) (p : Bytes)
  /-- STALL_DROP_SHADOW (R174). Sets the shadow grant equal to the active grant and frees the difference. -/
  | stallDropShadow (h : CmdHdr) (p : Bytes)
  /-- STALL_START (R179). Starts a Loaded stall. -/
  | stallStart (h : CmdHdr) (p : Bytes)
  /-- STALL_STOP (R179). Stops a Running or Faulted stall to Loaded. -/
  | stallStop (h : CmdHdr) (p : Bytes)
  /-- STALL_RESET (R180). Resets a Running or Faulted stall. -/
  | stallReset (h : CmdHdr) (p : Bytes)
  /-- STALL_READ (R193). Returns a stall record. -/
  | stallRead (h : CmdHdr) (p : Bytes)
  /-- STALL_STATUS (R193). Returns a stall's state, grant and demand. -/
  | stallStatus (h : CmdHdr) (p : Bytes)
  /-- STALL_POOL (R193). Returns the pool registers. -/
  | stallPool (h : CmdHdr) (p : Bytes)
  /-- STALL_MAP_PASID (R190). Maps a PASID to a stall on the receiving side. -/
  | stallMapPasid (h : CmdHdr) (p : Bytes)
  /-- STALL_UNMAP_PASID (R191). Removes a PASID mapping. -/
  | stallUnmapPasid (h : CmdHdr) (p : Bytes)
  /-- SV_SUBSCRIBE (R83). Writes a subscription record into the shadow set. -/
  | svSubscribe (h : CmdHdr) (p : Bytes)
  /-- SV_UNSUBSCRIBE (R83). Removes a subscription slot from the shadow set. -/
  | svUnsubscribe (h : CmdHdr) (p : Bytes)
  /-- SV_READ_SUB (R83). Returns a subscription record. -/
  | svReadSub (h : CmdHdr) (p : Bytes)
  /-- SV_STREAM_STATUS (R83). Returns stream states and miss counts. -/
  | svStreamStatus (h : CmdHdr) (p : Bytes)
  /-- SV_READ_SAMPLES (R83). Returns a stream's filed samples for a sample tick. -/
  | svReadSamples (h : CmdHdr) (p : Bytes)
  /-- SV_REANCHOR (R83). Requests a new anchor for a free-running stream. -/
  | svReanchor (h : CmdHdr) (p : Bytes)
  /-- SV_ANCHOR (R72). Module-created bell record that anchors a free-running stream. -/
  | svAnchor (h : CmdHdr) (p : Bytes)
  /-- COND_SET_CHAIN (R104). Writes a chain record to the active or shadow set. -/
  | condSetChain (h : CmdHdr) (p : Bytes)
  /-- COND_SET_TAPS (R110). Writes a tap-set header and taps. -/
  | condSetTaps (h : CmdHdr) (p : Bytes)
  /-- COND_SET_GROUP (R113). Writes a group record. -/
  | condSetGroup (h : CmdHdr) (p : Bytes)
  /-- COND_STOP (R103). Stops a range of chains. -/
  | condStop (h : CmdHdr) (p : Bytes)
  /-- COND_START (R103). Starts a range of command-stopped chains. -/
  | condStart (h : CmdHdr) (p : Bytes)
  /-- COND_READ_CHAIN (R113). Returns a chain record. -/
  | condReadChain (h : CmdHdr) (p : Bytes)
  /-- COND_READ_OUTPUT (R113). Returns a chain's output record. -/
  | condReadOutput (h : CmdHdr) (p : Bytes)
  /-- COND_READ_GROUP (R113). Returns a group record of a sample tick. -/
  | condReadGroup (h : CmdHdr) (p : Bytes)
  /-- COND_SET_NOMINAL (R86). Writes f0 into the shadow set. -/
  | condSetNominal (h : CmdHdr) (p : Bytes)
  /-- COND_DEMAND (R112). Returns the conditioning demand of a set. -/
  | condDemand (h : CmdHdr) (p : Bytes)
  /-- SCAN_READ_TASK (R135). Returns a task's record and declarations. -/
  | scanReadTask (h : CmdHdr) (p : Bytes)
  /-- SCAN_TASK_STATUS (R135). Returns and clears a stall's task status. -/
  | scanTaskStatus (h : CmdHdr) (p : Bytes)
  /-- SCAN_CORE_LOAD (R135). Returns a core's load and placements. -/
  | scanCoreLoad (h : CmdHdr) (p : Bytes)
  /-- FORCE_SET (R131). Sets or replaces a force. -/
  | forceSet (h : CmdHdr) (p : Bytes)
  /-- FORCE_CLEAR (R131). Clears one or all forces. -/
  | forceClear (h : CmdHdr) (p : Bytes)
  /-- FORCE_LIST (R135). Lists active forces. -/
  | forceList (h : CmdHdr) (p : Bytes)
  /-- SCAN_SET_FORCE_MAX (R133). Sets the longest force duration. -/
  | scanSetForceMax (h : CmdHdr) (p : Bytes)
  /-- GOOSE_PUB_SET (R200). Writes a GOOSE publication record. -/
  | goosePubSet (h : CmdHdr) (p : Bytes)
  /-- GOOSE_PUB_READ (R215). Returns a publication record. -/
  | goosePubRead (h : CmdHdr) (p : Bytes)
  /-- GOOSE_SUB_SET (R207). Writes a GOOSE subscription record. -/
  | gooseSubSet (h : CmdHdr) (p : Bytes)
  /-- GOOSE_SUB_READ (R215). Returns a subscription record. -/
  | gooseSubRead (h : CmdHdr) (p : Bytes)
  /-- GOOSE_STATUS (R215). Returns GOOSE publication or subscription states. -/
  | gooseStatus (h : CmdHdr) (p : Bytes)
  /-- SVPUB_SET (R211). Writes a derived SV stream record. -/
  | svpubSet (h : CmdHdr) (p : Bytes)
  /-- SVPUB_READ (R215). Returns a derived stream record. -/
  | svpubRead (h : CmdHdr) (p : Bytes)
  /-- PUB_SET_MAC (R215). Writes PUB_MAC into the shadow set. -/
  | pubSetMac (h : CmdHdr) (p : Bytes)
  /-- SIDE_STATUS (R248). Returns side role and resync state of both sides. -/
  | sideStatus (h : CmdHdr) (p : Bytes)
  /-- SIDE_HANDOVER (R230). Moves the Active role to the standby side. -/
  | sideHandover (h : CmdHdr) (p : Bytes)
  /-- SIDE_JOIN (R231). Starts an Out side rejoining. -/
  | sideJoin (h : CmdHdr) (p : Bytes)
  /-- SIDE_OUT (R248). Takes the Standby or Joining side Out. -/
  | sideOut (h : CmdHdr) (p : Bytes)
  /-- SIDE_SET_COLOUR (R217). Stores the White side for the next boot. -/
  | sideSetColour (h : CmdHdr) (p : Bytes)
  /-- PAIR_SET (R239). Writes pair mode, colour and witnesses into the shadow set. -/
  | pairSet (h : CmdHdr) (p : Bytes)
  /-- PAIR_STATUS (R248). Returns pair status of both sides. -/
  | pairStatus (h : CmdHdr) (p : Bytes)
  /-- PAIR_HANDOVER (R248). Makes the FOLLOW module LEAD. -/
  | pairHandover (h : CmdHdr) (p : Bytes)
  /-- ARB_SET_HANDOVER (R227). Sets the hand-over rules of the field outputs. -/
  | arbSetHandover (h : CmdHdr) (p : Bytes)
  /-- SW_PORT_STATUS (R279). Returns port status and counters. -/
  | swPortStatus (h : CmdHdr) (p : Bytes)
  /-- SW_SET_PORT (R252). Writes a port record. -/
  | swSetPort (h : CmdHdr) (p : Bytes)
  /-- SW_SET_FDB (R254). Writes forwarding entries. -/
  | swSetFdb (h : CmdHdr) (p : Bytes)
  /-- SW_SET_GATES (R265). Writes a port's gate list. -/
  | swSetGates (h : CmdHdr) (p : Bytes)
  /-- SW_SET_QUEUE (R262). Writes a queue record. -/
  | swSetQueue (h : CmdHdr) (p : Bytes)
  /-- SW_READ_CONFIG (R279). Returns switch configuration records. -/
  | swReadConfig (h : CmdHdr) (p : Bytes)
  /-- SW_MIRROR_SET (R273). Creates or replaces a mirror session. -/
  | swMirrorSet (h : CmdHdr) (p : Bytes)
  /-- SW_MIRROR_CLEAR (R279). Clears mirror sessions. -/
  | swMirrorClear (h : CmdHdr) (p : Bytes)
  /-- SW_PORT_ADMIN (R279). Holds a port down or lets it up. -/
  | swPortAdmin (h : CmdHdr) (p : Bytes)
  /-- SW_SET_WAKE (R277). Writes and stores WAKE_ID and WAKE_CODE. -/
  | swSetWake (h : CmdHdr) (p : Bytes)
  /-- TIME_READ (R298). Returns an atomic time snapshot. -/
  | timeRead (h : CmdHdr) (p : Bytes)
  /-- TIME_SET (R290). Stages a time write for the next second boundary. -/
  | timeSet (h : CmdHdr) (p : Bytes)
  /-- TIME_CANCEL_SET (R290). Withdraws a staged time write. -/
  | timeCancelSet (h : CmdHdr) (p : Bytes)
  /-- TIME_SET_PARAMS (R297). Writes the PTP time parameters. -/
  | timeSetParams (h : CmdHdr) (p : Bytes)
  /-- TIME_SET_PORT (R282). Writes a time-port record. -/
  | timeSetPort (h : CmdHdr) (p : Bytes)
  /-- TIME_PORT_STATUS (R298). Returns a PTP port's state and delays. -/
  | timePortStatus (h : CmdHdr) (p : Bytes)
  /-- TIME_READ_TXTS (R286). Returns and removes transmit timestamps. -/
  | timeReadTxts (h : CmdHdr) (p : Bytes)
  /-- TIME_UTC (R292). Module-created bell record that changes the UTC offset. -/
  | timeUtc (h : CmdHdr) (p : Bytes)
  /-- READ_TICK (R63). Returns the current tick snapshot. -/
  | readTick (h : CmdHdr) (p : Bytes)
  /-- READ_BELL (R63). Returns a recent bell. -/
  | readBell (h : CmdHdr) (p : Bytes)
  /-- READ_DIGESTS (R63). Returns both sides' digests of a recent tick. -/
  | readDigests (h : CmdHdr) (p : Bytes)
  /-- SET_SEAL_DELAY (R35). Writes D into the shadow set. -/
  | setSealDelay (h : CmdHdr) (p : Bytes)
  /-- ACQ_SET_LINE (R299). Writes a trigger-line record. -/
  | acqSetLine (h : CmdHdr) (p : Bytes)
  /-- ACQ_SET_CHANNEL (R305). Writes a capture record. -/
  | acqSetChannel (h : CmdHdr) (p : Bytes)
  /-- ACQ_SET_WAVEFRONT (R304). Writes a wavefront input record. -/
  | acqSetWavefront (h : CmdHdr) (p : Bytes)
  /-- ACQ_SET_DRAM (R308). Writes a DRAM ring record. -/
  | acqSetDram (h : CmdHdr) (p : Bytes)
  /-- ACQ_START (R311). Starts capture channels. -/
  | acqStart (h : CmdHdr) (p : Bytes)
  /-- ACQ_STOP (R311). Stops capture channels. -/
  | acqStop (h : CmdHdr) (p : Bytes)
  /-- ACQ_TRIGGER (R300). Places command trigger marks on lines. -/
  | acqTrigger (h : CmdHdr) (p : Bytes)
  /-- ACQ_CHANNEL_STATUS (R314). Returns capture channel states. -/
  | acqChannelStatus (h : CmdHdr) (p : Bytes)
  /-- ACQ_READ_DRAM (R314). Returns and frees records of a DRAM ring. -/
  | acqReadDram (h : CmdHdr) (p : Bytes)
  /-- LEDGER_STATUS (R334). Returns Ledger counters of both sides. -/
  | ledgerStatus (h : CmdHdr) (p : Bytes)
  /-- READ_RECORDS (R332). Returns whole Ledger records from a SEQ. -/
  | readRecords (h : CmdHdr) (p : Bytes)
  /-- LEDGER_SET_RATE (R326). Writes rate table entries. -/
  | ledgerSetRate (h : CmdHdr) (p : Bytes)
  /-- LEDGER_SET_SNAPSHOT (R319). Writes a snapshot set. -/
  | ledgerSetSnapshot (h : CmdHdr) (p : Bytes)
  /-- LEDGER_EXPORT (R334). Streams Ledger records to a Porter ring. -/
  | ledgerExport (h : CmdHdr) (p : Bytes)
  /-- LEDGER_NOTE (R323). Module-created bell record that writes a side event into the module Ledger. -/
  | ledgerNote (h : CmdHdr) (p : Bytes)
  /-- LEDGER_CODES (R334). Returns code names, rates and drop counts. -/
  | ledgerCodes (h : CmdHdr) (p : Bytes)
  /-- FIO_SET_CHANNEL (R335). Writes a field channel record. -/
  | fioSetChannel (h : CmdHdr) (p : Bytes)
  /-- FIO_READ_CHANNEL (R362). Returns a channel record. -/
  | fioReadChannel (h : CmdHdr) (p : Bytes)
  /-- FIO_STATUS (R362). Returns field supply and channel status. -/
  | fioStatus (h : CmdHdr) (p : Bytes)
  /-- FIO_CLEAR_FAULT (R344). Releases latched SHORT and clears retry counts. -/
  | fioClearFault (h : CmdHdr) (p : Bytes)
  /-- FIO_READ_IMAGE (R362). Returns a recent field-input image. -/
  | fioReadImage (h : CmdHdr) (p : Bytes)
  /-- TELE_STATUS (R362). Returns telegram sealed state and errors. -/
  | teleStatus (h : CmdHdr) (p : Bytes)
  /-- SAFE_CHALLENGE (R360). Returns a one-use unlock nonce. -/
  | safeChallenge (h : CmdHdr) (p : Bytes)
  /-- SAFE_UNLOCK (R360). Verifies a proof and unlocks the sending origin. -/
  | safeUnlock (h : CmdHdr) (p : Bytes)
  /-- SAFE_LOCK (R360). Ends the sending origin's unlock. -/
  | safeLock (h : CmdHdr) (p : Bytes)
  /-- SAFE_SET_PASSWORD (R360). Sets the safety password verifier. -/
  | safeSetPassword (h : CmdHdr) (p : Bytes)
  /-- SAFE_LOAD (R361). Writes a chunk of the shadow safety table. -/
  | safeLoad (h : CmdHdr) (p : Bytes)
  /-- SAFE_CASTLE (R361). Swaps the active and shadow safety tables at a bell. -/
  | safeCastle (h : CmdHdr) (p : Bytes)
  /-- SAFE_RESET (R351). Resets latched instances that are ready. -/
  | safeReset (h : CmdHdr) (p : Bytes)
  /-- SAFE_STATUS (R362). Returns safety status and instance states. -/
  | safeStatus (h : CmdHdr) (p : Bytes)
  /-- SAFE_READ_TABLE (R362). Returns bytes of a safety table. -/
  | safeReadTable (h : CmdHdr) (p : Bytes)
  /-- CAN_SET_TIMING (R363). Writes a controller's bit timing. -/
  | canSetTiming (h : CmdHdr) (p : Bytes)
  /-- CAN_SET_FILTER (R365). Writes a filter record. -/
  | canSetFilter (h : CmdHdr) (p : Bytes)
  /-- CAN_SET_BUFFER (R371). Writes a message buffer record. -/
  | canSetBuffer (h : CmdHdr) (p : Bytes)
  /-- CAN_STATUS (R376). Returns CAN status of both sides. -/
  | canStatus (h : CmdHdr) (p : Bytes)
  /-- CAN_READ_QUEUE (R376). Returns and removes receive queue records. -/
  | canReadQueue (h : CmdHdr) (p : Bytes)
  /-- CAN_SEND (R375). Sends a frame through a command-driven transmit buffer. -/
  | canSend (h : CmdHdr) (p : Bytes)
  /-- HL_RING_SET (R381). Defines or enables a Porter ring. -/
  | hlRingSet (h : CmdHdr) (p : Bytes)
  /-- HL_RING_RESET (R386). Resets one or all rings. -/
  | hlRingReset (h : CmdHdr) (p : Bytes)
  /-- HL_STATUS (R389). Returns host-link and ring status. -/
  | hlStatus (h : CmdHdr) (p : Bytes)
  /-- KEY_STATUS (R455). Returns key status and slots of both sides. -/
  | keyStatus (h : CmdHdr) (p : Bytes)
  /-- KEY_IMPORT (R449). Imports a wrapped key into a slot. -/
  | keyImport (h : CmdHdr) (p : Bytes)
  /-- KEY_ERASE (R450). Clears a key slot on both sides. -/
  | keyErase (h : CmdHdr) (p : Bytes)
  /-- KEY_DEVICE_CERT (R455). Returns a side's device public key and certificate. -/
  | keyDeviceCert (h : CmdHdr) (p : Bytes)
  /-- KEY_REVOKE_SIGNER (R454). Blows a signing key's revocation fuse. -/
  | keyRevokeSigner (h : CmdHdr) (p : Bytes)
  /-- UPD_STATUS (R441). Returns update state of both sides. -/
  | updStatus (h : CmdHdr) (p : Bytes)
  /-- UPD_BEGIN (R432). Starts an update of the first side's stored image. -/
  | updBegin (h : CmdHdr) (p : Bytes)
  /-- UPD_WRITE (R432). Writes a CRC-checked block of the new image. -/
  | updWrite (h : CmdHdr) (p : Bytes)
  /-- UPD_WRITE_RING (R432). Writes image blocks from a Porter ring. -/
  | updWriteRing (h : CmdHdr) (p : Bytes)
  /-- UPD_SCHEDULE (R434). Schedules the first side's reboot and forward-seals keys. -/
  | updSchedule (h : CmdHdr) (p : Bytes)
  /-- UPD_AUTHORISE_OUTAGE (R439). Authorises a scheduled outage update. -/
  | updAuthoriseOutage (h : CmdHdr) (p : Bytes)
  /-- UPD_CANCEL (R433). Cancels the update and restores the first side's NOR. -/
  | updCancel (h : CmdHdr) (p : Bytes)
  /-- HEALTH_REPORT (R471). Returns spares and faults per level. -/
  | healthReport (h : CmdHdr) (p : Bytes)
  /-- HEALTH_FAULTS (R471). Returns fault log entries. -/
  | healthFaults (h : CmdHdr) (p : Bytes)
  /-- HEALTH_DEEP_TEST (R466). Takes the standby side Out for a deep test. -/
  | healthDeepTest (h : CmdHdr) (p : Bytes)
  /-- HEALTH_TEST_UNIT (R465). Returns a part's last test result. -/
  | healthTestUnit (h : CmdHdr) (p : Bytes)
  /-- MAINT_LEASES (R471). Returns the lease table. -/
  | maintLeases (h : CmdHdr) (p : Bytes)
  /-- POWER_STATUS (R498). Returns power registers of both sides. -/
  | powerStatus (h : CmdHdr) (p : Bytes)
  /-- POWER_RESTART (R498). Restarts the module or one side. -/
  | powerRestart (h : CmdHdr) (p : Bytes)
  /-- POWER_PARK (R498). Makes an orderly stop into Parked. -/
  | powerPark (h : CmdHdr) (p : Bytes)
  /-- SERVICE_GO (R478). Opens the service gate. -/
  | serviceGo (h : CmdHdr) (p : Bytes)
  /-- NOP (R147). Does nothing for one cycle. -/
  | nop (core : CoreRef)
  /-- HALT (R162). Ends the activation and commits pending lines and held requests. -/
  | halt (core : CoreRef)
  /-- MFS (R147). Copies a special register to a general register. -/
  | mfs (core : CoreRef) (d sp : BitVec 5)
  /-- ADD (R147). Integer add. -/
  | add (core : CoreRef) (d a b : BitVec 5)
  /-- SUB (R147). Integer subtract. -/
  | sub (core : CoreRef) (d a b : BitVec 5)
  /-- AND (R147). Bitwise and. -/
  | and (core : CoreRef) (d a b : BitVec 5)
  /-- OR (R147). Bitwise or. -/
  | or (core : CoreRef) (d a b : BitVec 5)
  /-- XOR (R147). Bitwise exclusive or. -/
  | xor (core : CoreRef) (d a b : BitVec 5)
  /-- SHL (R147). Shift left by register. -/
  | shl (core : CoreRef) (d a b : BitVec 5)
  /-- SHR (R147). Logical shift right by register. -/
  | shr (core : CoreRef) (d a b : BitVec 5)
  /-- SRA (R147). Arithmetic shift right by register. -/
  | sra (core : CoreRef) (d a b : BitVec 5)
  /-- MUL (R147). Low 32 bits of a product. -/
  | mul (core : CoreRef) (d a b : BitVec 5)
  /-- MULH (R147). High 32 bits of a signed product. -/
  | mulh (core : CoreRef) (d a b : BitVec 5)
  /-- MULHU (R147). High 32 bits of an unsigned product. -/
  | mulhu (core : CoreRef) (d a b : BitVec 5)
  /-- DIV (R147). Signed division. -/
  | div (core : CoreRef) (d a b : BitVec 5)
  /-- DIVU (R147). Unsigned division. -/
  | divu (core : CoreRef) (d a b : BitVec 5)
  /-- REM (R147). Signed remainder. -/
  | rem (core : CoreRef) (d a b : BitVec 5)
  /-- REMU (R147). Unsigned remainder. -/
  | remu (core : CoreRef) (d a b : BitVec 5)
  /-- MIN (R147). Signed minimum. -/
  | min (core : CoreRef) (d a b : BitVec 5)
  /-- MAX (R147). Signed maximum. -/
  | max (core : CoreRef) (d a b : BitVec 5)
  /-- MINU (R147). Unsigned minimum. -/
  | minu (core : CoreRef) (d a b : BitVec 5)
  /-- MAXU (R147). Unsigned maximum. -/
  | maxu (core : CoreRef) (d a b : BitVec 5)
  /-- ADDI (R147). Add sign-extended immediate. -/
  | addi (core : CoreRef) (d a : BitVec 5) (imm : BitVec 11)
  /-- ANDI (R147). Bitwise and with immediate. -/
  | andi (core : CoreRef) (d a : BitVec 5) (imm : BitVec 11)
  /-- ORI (R147). Bitwise or with immediate. -/
  | ori (core : CoreRef) (d a : BitVec 5) (imm : BitVec 11)
  /-- XORI (R147). Bitwise exclusive or with immediate. -/
  | xori (core : CoreRef) (d a : BitVec 5) (imm : BitVec 11)
  /-- SHLI (R147). Shift left by immediate. -/
  | shli (core : CoreRef) (d a : BitVec 5) (imm : BitVec 11)
  /-- SHRI (R147). Logical shift right by immediate. -/
  | shri (core : CoreRef) (d a : BitVec 5) (imm : BitVec 11)
  /-- SRAI (R147). Arithmetic shift right by immediate. -/
  | srai (core : CoreRef) (d a : BitVec 5) (imm : BitVec 11)
  /-- LI (R147). Loads the extension word into a register. -/
  | li (core : CoreRef) (d : BitVec 5) (x : Word)
  /-- FADD (R148). Binary32 add. -/
  | fadd (core : CoreRef) (d a b : BitVec 5)
  /-- FSUB (R148). Binary32 subtract. -/
  | fsub (core : CoreRef) (d a b : BitVec 5)
  /-- FMUL (R148). Binary32 multiply. -/
  | fmul (core : CoreRef) (d a b : BitVec 5)
  /-- FDIV (R148). Binary32 divide. -/
  | fdiv (core : CoreRef) (d a b : BitVec 5)
  /-- FSQRT (R148). Binary32 square root. -/
  | fsqrt (core : CoreRef) (d a : BitVec 5)
  /-- FABS (R148). Binary32 absolute value. -/
  | fabs (core : CoreRef) (d a : BitVec 5)
  /-- FNEG (R148). Binary32 negation. -/
  | fneg (core : CoreRef) (d a : BitVec 5)
  /-- FMIN (R148). Binary32 minimum. -/
  | fmin (core : CoreRef) (d a b : BitVec 5)
  /-- FMAX (R148). Binary32 maximum. -/
  | fmax (core : CoreRef) (d a b : BitVec 5)
  /-- FMA (R148). Fused multiply-add. -/
  | fma (core : CoreRef) (d a b : BitVec 5)
  /-- FNMS (R148). Fused negative multiply-subtract. -/
  | fnms (core : CoreRef) (d a b : BitVec 5)
  /-- ITOF (R148). Converts int32 to binary32. -/
  | itof (core : CoreRef) (d a : BitVec 5)
  /-- UTOF (R148). Converts uint32 to binary32. -/
  | utof (core : CoreRef) (d a : BitVec 5)
  /-- FTOI (R148). Converts binary32 to int32 toward zero. -/
  | ftoi (core : CoreRef) (d a : BitVec 5)
  /-- FTOIN (R148). Converts binary32 to int32 to nearest even. -/
  | ftoin (core : CoreRef) (d a : BitVec 5)
  /-- CADD (R150). Complex add. -/
  | cadd (core : CoreRef) (d a b : BitVec 4)
  /-- CSUB (R150). Complex subtract. -/
  | csub (core : CoreRef) (d a b : BitVec 4)
  /-- CMUL (R150). Complex multiply by fused steps. -/
  | cmul (core : CoreRef) (d a b : BitVec 4)
  /-- CCONJ (R150). Complex conjugate. -/
  | cconj (core : CoreRef) (d a : BitVec 4)
  /-- CMAG (R150). Complex magnitude. -/
  | cmag (core : CoreRef) (d : BitVec 5) (a : BitVec 4)
  /-- CARG (R150). Complex argument. -/
  | carg (core : CoreRef) (d : BitVec 5) (a : BitVec 4)
  /-- CSCALE (R150). Scales a complex value by a real. -/
  | cscale (core : CoreRef) (d a : BitVec 4) (b : BitVec 5)
  /-- CMAKE (R150). Builds a complex value from two registers. -/
  | cmake (core : CoreRef) (d : BitVec 4) (a b : BitVec 5)
  /-- CRE (R150). Extracts the real part. -/
  | cre (core : CoreRef) (d : BitVec 5) (a : BitVec 4)
  /-- CIM (R150). Extracts the imaginary part. -/
  | cim (core : CoreRef) (d : BitVec 5) (a : BitVec 4)
  /-- CMOV (R150). Copies a complex register. -/
  | cmov (core : CoreRef) (d a : BitVec 4)
  /-- EQ (R151). Sets a flag on signed equality. -/
  | eq (core : CoreRef) (d : BitVec 3) (a b : BitVec 5)
  /-- NE (R151). Sets a flag on inequality. -/
  | ne (core : CoreRef) (d : BitVec 3) (a b : BitVec 5)
  /-- LT (R151). Sets a flag on signed less-than. -/
  | lt (core : CoreRef) (d : BitVec 3) (a b : BitVec 5)
  /-- LE (R151). Sets a flag on signed less-or-equal. -/
  | le (core : CoreRef) (d : BitVec 3) (a b : BitVec 5)
  /-- ULT (R151). Sets a flag on unsigned less-than. -/
  | ult (core : CoreRef) (d : BitVec 3) (a b : BitVec 5)
  /-- ULE (R151). Sets a flag on unsigned less-or-equal. -/
  | ule (core : CoreRef) (d : BitVec 3) (a b : BitVec 5)
  /-- FEQ (R151). Sets a flag on binary32 equality. -/
  | feq (core : CoreRef) (d : BitVec 3) (a b : BitVec 5)
  /-- FLT (R151). Sets a flag on binary32 less-than. -/
  | flt (core : CoreRef) (d : BitVec 3) (a b : BitVec 5)
  /-- FLE (R151). Sets a flag on binary32 less-or-equal. -/
  | fle (core : CoreRef) (d : BitVec 3) (a b : BitVec 5)
  /-- FUN (R151). Sets a flag when either operand is a NaN. -/
  | fun (core : CoreRef) (d : BitVec 3) (a b : BitVec 5)
  /-- PAND (R151). Predicate and. -/
  | pand (core : CoreRef) (d a b : BitVec 3)
  /-- POR (R151). Predicate or. -/
  | por (core : CoreRef) (d a b : BitVec 3)
  /-- PXOR (R151). Predicate exclusive or. -/
  | pxor (core : CoreRef) (d a b : BitVec 3)
  /-- PANDN (R151). Predicate and-not. -/
  | pandn (core : CoreRef) (d a b : BitVec 3)
  /-- PNOT (R151). Predicate not. -/
  | pnot (core : CoreRef) (d a : BitVec 3)
  /-- PSET (R151). Sets a flag from a register being non-zero. -/
  | pset (core : CoreRef) (d : BitVec 3) (a : BitVec 5)
  /-- PGET (R151). Copies a flag to a register. -/
  | pget (core : CoreRef) (d : BitVec 5) (a : BitVec 3)
  /-- SEL (R151). Selects a general register on a flag. -/
  | sel (core : CoreRef) (d : BitVec 5) (p : BitVec 3) (a b : BitVec 5)
  /-- CSEL (R151). Selects a complex register on a flag. -/
  | csel (core : CoreRef) (d : BitVec 4) (p : BitVec 3) (a b : BitVec 4)
  /-- BR (R152). Branches on a predicate. -/
  | br (core : CoreRef) (pred : PredRef) (off : BitVec 16)
  /-- LOOP (R153). Runs a counted loop body with a charged back edge. -/
  | loop (core : CoreRef) (r : BitVec 5) (body : BitVec 16) (ext : Word)
  /-- LD (R155). Loads from a segment at the selected width. -/
  | ld (core : CoreRef) (width : BitVec 3) (d base : BitVec 5) (seg : SegCode) (off : BitVec 11)
  /-- ST (R155). Stores to a segment at the selected width. -/
  | st (core : CoreRef) (width : BitVec 3) (d base : BitVec 5) (seg : SegCode) (off : BitVec 11)
  /-- VCOPY (R156). Copies words element by element. -/
  | vcopy (core : CoreRef) (src dst : SegCode) (d a b : BitVec 5)
  /-- VSUM (R156). Sums a vector of the selected type. -/
  | vsum (core : CoreRef) (seg : SegCode) (ty : BitVec 3) (d a b : BitVec 5)
  /-- VMAX (R156). Finds the largest element and its index. -/
  | vmax (core : CoreRef) (seg : SegCode) (ty : BitVec 3) (d a b : BitVec 5)
  /-- TRIG (R159). Requests an acquisition trigger mark, released at commit. -/
  | trig (core : CoreRef) (a : BitVec 5) (line : BitVec 4)
  /-- LOG (R160). Requests a stall message record, released at commit. -/
  | log (core : CoreRef) (seg : SegCode) (msg : BitVec 9) (a b : BitVec 5)
  /-- TON (R165). On-delay timer block call. -/
  | ton (core : CoreRef) (inst : BitVec 16)
  /-- TOF (R165). Off-delay timer block call. -/
  | tof (core : CoreRef) (inst : BitVec 16)
  /-- TP (R165). Pulse timer block call. -/
  | tp (core : CoreRef) (inst : BitVec 16)
  /-- CTU (R166). Up counter block call. -/
  | ctu (core : CoreRef) (inst : BitVec 16)
  /-- CTD (R166). Down counter block call. -/
  | ctd (core : CoreRef) (inst : BitVec 16)
  /-- CTUD (R166). Up/down counter block call. -/
  | ctud (core : CoreRef) (inst : BitVec 16)
  /-- R_TRIG (R166). Rising edge block call. -/
  | rTrig (core : CoreRef) (inst : BitVec 16)
  /-- F_TRIG (R166). Falling edge block call. -/
  | fTrig (core : CoreRef) (inst : BitVec 16)
  /-- HYST (R167). Hysteresis comparator block call. -/
  | hyst (core : CoreRef) (inst : BitVec 16)
  /-- SEQ (R168). Sequence components block call. -/
  | seq (core : CoreRef)
  /-- IMP (R168). Impedance from phasors block call. -/
  | imp (core : CoreRef)
  /-- ROC (R168). Rate of change block call. -/
  | roc (core : CoreRef) (inst : BitVec 16)
  /-- UNIT_FAULT (R9). A hardware fault is found in a side unit that has no level-4 spare, such as the switch core, a compute path port, the Porter or a PHY, or by a standby test slice, and is escalated to a side fault. -/
  | unitFault (side : SideId) (part : Word)
  /-- REGISTER_READ (R414). A BAR0 read of a register with an RC field clears it, and a refused BAR0 read returns all ones and records HL_ERR. -/
  | registerRead (side : SideId) (src : HostRead) (width : BitVec 4)
  /-- BAR2_WRITE (R378). A host write to BAR2 is discarded and recorded in HL_ERR, raising MSI-X vector 64. -/
  | bar2Write (side : SideId) (offset : Word)
  /-- TEMP_DIFF_WARN (R247). The die temperatures of the two sides differ by more than 25 K, and WARN is set in REGION_STATUS and recorded. -/
  | tempDiffWarn (kelvin : BitVec 8)
  /-- PTP_INTERVAL_SEND (R282). At each configured Sync, Announce or delay request interval a PTP port sends its message under the active side's port states. -/
  | ptpIntervalSend (side : SideId) (port : Fin 11) (kind : Fin 3)
  deriving DecidableEq, Repr

end Sys2Proof
end

