-- ==== Sys2Proof/Machine/Bytes.lean ====
section
/-! DEFINITION. Byte strings, bit fields and sparse tables: the helpers every chapter uses. Multi-byte fields are
big-endian unless a chapter states otherwise (R3); bits are numbered from the least significant (R3). -/

namespace Sys2Proof.Machine

/-- The bits hi down to lo of a number. -/
def bits (v hi lo : Nat) : Nat := v / 2 ^ lo % 2 ^ (hi - lo + 1)

/-- One bit of a number. -/
def bit (v i : Nat) : Bool := v / 2 ^ i % 2 == 1

/-- A Bool as the number 0 or 1. -/
def b2n (b : Bool) : Nat := if b then 1 else 0

/-- `n` put into the bits from `lo` up. -/
def at_ (n lo : Nat) : Nat := n * 2 ^ lo

/-- Replace the bits hi down to lo of `v` by `x` (cut to the field). -/
def setBits (v hi lo x : Nat) : Nat :=
  v / 2 ^ (hi + 1) * 2 ^ (hi + 1) + x % 2 ^ (hi - lo + 1) * 2 ^ lo + v % 2 ^ lo

/-- `n` bytes holding `v`, most significant first. -/
def beBytes : Nat → Nat → Bytes
  | 0, _ => []
  | n + 1, v => BitVec.ofNat 8 (v / 2 ^ (8 * n)) :: beBytes n v

/-- `n` bytes holding `v`, least significant first (R413). -/
def leBytes (n v : Nat) : Bytes := (beBytes n v).reverse

/-- The number a byte string spells, most significant byte first. -/
def beNat (b : Bytes) : Nat := b.foldl (fun a x => a * 256 + x.toNat) 0

/-- The number a byte string spells, least significant byte first. -/
def leNat (b : Bytes) : Nat := beNat b.reverse

/-- `len` bytes from offset `off`; bytes past the end read as 0. -/
def sub (b : Bytes) (off len : Nat) : Bytes :=
  let c := (b.drop off).take len
  c ++ List.replicate (len - c.length) 0

def u8 (b : Bytes) (off : Nat) : Nat := beNat (sub b off 1)
def u16 (b : Bytes) (off : Nat) : Nat := beNat (sub b off 2)
def u24 (b : Bytes) (off : Nat) : Nat := beNat (sub b off 3)
def u32 (b : Bytes) (off : Nat) : Nat := beNat (sub b off 4)
def u48 (b : Bytes) (off : Nat) : Nat := beNat (sub b off 6)
def u64 (b : Bytes) (off : Nat) : Nat := beNat (sub b off 8)

/-- A byte string with `new` written over it at `off` (never longer than before). -/
def patch (b : Bytes) (off : Nat) (new : Bytes) : Bytes :=
  (b.take off ++ new ++ b.drop (off + new.length)).take b.length

/-- Zeros. -/
def zeros (n : Nat) : Bytes := List.replicate n 0

/-- A byte string padded with zeros to `n` bytes, or cut to `n`. -/
def fit (n : Nat) (b : Bytes) : Bytes := sub b 0 n

/-- A byte string padded with zeros to a multiple of `n` (R317, R379). -/
def padTo (n : Nat) (b : Bytes) : Bytes := b ++ zeros ((n - b.length % n) % n)

/-- Whether every byte is 0. -/
def allZero (b : Bytes) : Bool := b.all (· == 0)

/-- ceil (a / b). -/
def ceilDiv (a b : Nat) : Nat := (a + b - 1) / b

/-- The signed reading of a `w`-bit number. -/
def toSigned (w v : Nat) : Int := if v % 2 ^ w < 2 ^ (w - 1) then (v % 2 ^ w : Nat) else (v % 2 ^ w : Nat) - (2 ^ w : Nat)

/-- The `w`-bit two's complement pattern of a number. -/
def ofSigned (w : Nat) (v : Int) : Nat := (v % (2 ^ w : Nat)).toNat

/-- A number saturated to a signed field of `w` bits. -/
def satSigned (w : Nat) (v : Int) : Int := max (-(2 ^ (w - 1) : Nat)) (min v ((2 ^ (w - 1) : Nat) - 1))

/-- A count that saturates at the largest value of a field of `w` bits. -/
def satAdd (w a b : Nat) : Nat := min (a + b) (2 ^ w - 1)

/-- The bytes split into pieces of `n` (the last may be shorter); `fuel` bounds the pieces. -/
def piecesAux : Nat → Nat → Bytes → List Bytes
  | 0, _, _ => []
  | _ + 1, _, [] => []
  | k + 1, n, b => b.take n :: piecesAux k n (b.drop n)

def pieces (n : Nat) (b : Bytes) : List Bytes := piecesAux (b.length + 1) n b

/-- 0, 1, …, n − 1. -/
def upto (n : Nat) : List Nat := List.range n

/-- A table: key and value pairs with keys rising. -/
abbrev Tbl (α : Type) := List (Nat × α)

/-- The value at a key. -/
def Tbl.find {α : Type} (t : Tbl α) (k : Nat) : Option α :=
  match t with
  | [] => none
  | (j, v) :: rest => if j = k then some v else Tbl.find rest k

/-- The value at a key, or a default. -/
def Tbl.getD {α : Type} (t : Tbl α) (k : Nat) (d : α) : α := (Tbl.find t k).getD d

/-- Whether a key has a value. -/
def Tbl.has {α : Type} (t : Tbl α) (k : Nat) : Bool := (Tbl.find t k).isSome

/-- Set the value at a key, keeping the keys rising. -/
def Tbl.put {α : Type} (t : Tbl α) (k : Nat) (v : α) : Tbl α :=
  match t with
  | [] => [(k, v)]
  | (j, w) :: rest =>
    if k < j then (k, v) :: (j, w) :: rest
    else if k = j then (k, v) :: rest
    else (j, w) :: Tbl.put rest k v

/-- Remove a key. -/
def Tbl.del {α : Type} (t : Tbl α) (k : Nat) : Tbl α := t.filter (fun e => e.1 != k)

/-- Set or remove. -/
def Tbl.set {α : Type} (t : Tbl α) (k : Nat) (v : Option α) : Tbl α :=
  match v with
  | none => Tbl.del t k
  | some v => Tbl.put t k v

/-- Apply a function to the value at a key, if it has one. -/
def Tbl.upd {α : Type} (t : Tbl α) (k : Nat) (f : α → α) : Tbl α := t.map (fun e => if e.1 = k then (e.1, f e.2) else e)

/-- The keys of a table, rising. -/
def Tbl.keys {α : Type} (t : Tbl α) : List Nat := t.map (·.1)

/-- The values of a table, in key order. -/
def Tbl.vals {α : Type} (t : Tbl α) : List α := t.map (·.2)

/-- Whether the keys rise strictly. -/
def Tbl.wf {α : Type} : Tbl α → Bool
  | [] => true
  | [_] => true
  | a :: b :: rest => decide (a.1 < b.1) && Tbl.wf (b :: rest)

/-- The largest number of a list, 0 for none. -/
def listMax (l : List Nat) : Nat := l.foldl max 0

/-- The sum of a list. -/
def listSum (l : List Nat) : Nat := l.foldl (· + ·) 0

end Sys2Proof.Machine
end

