-- ==== Sys2Proof/Machine/Mem.lean ====
section
/-! DEFINITION. A segment of a task in its cluster's memory (R143): byte cells in one canonical form. A byte no
write has touched reads as 0 (R140 for LOC, R136 for an INIT of 0). -/

namespace Sys2Proof.Machine

/-- The bytes of a segment that are not 0, addresses rising strictly. -/
abbrev Mem := List Host.Cell

/-- The canonical form: addresses strictly rising from `lo`, no byte 0. -/
def memWfFrom (lo : Nat) : Mem → Bool
  | [] => true
  | (a, b) :: rest => decide (lo ≤ a) && b != 0 && memWfFrom (a + 1) rest

/-- The canonical form of a segment. -/
def memWf (m : Mem) : Bool := memWfFrom 0 m

/-- The byte at an address. -/
def memRead (m : Mem) (a : Nat) : Byte :=
  match m with
  | [] => 0
  | (k, b) :: rest => if k = a then b else memRead rest a

/-- Put a byte at an address. Writing 0 removes the cell. -/
def memWrite (m : Mem) (a : Nat) (v : Byte) : Mem :=
  match m with
  | [] => if v = 0 then [] else [(a, v)]
  | (k, b) :: rest =>
    if a < k then (if v = 0 then (k, b) :: rest else (a, v) :: (k, b) :: rest)
    else if a = k then (if v = 0 then rest else (a, v) :: rest)
    else (k, b) :: memWrite rest a v

/-- Bytes written one after another from an address. -/
def memWriteBytes (m : Mem) (a : Nat) : Bytes → Mem
  | [] => m
  | b :: bs => memWriteBytes (memWrite m a b) (a + 1) bs

/-- `n` bytes read from an address. -/
def memReadBytes (m : Mem) (a : Nat) : Nat → Bytes
  | 0 => []
  | n + 1 => memRead m a :: memReadBytes m (a + 1) n

/-- A big-endian value of `n` bytes (R143). -/
def memNat (m : Mem) (a n : Nat) : Nat := beNat (memReadBytes m a n)

/-- Store `v` big-endian in `n` bytes (R143). -/
def memStore (m : Mem) (a n v : Nat) : Mem := memWriteBytes m a (beBytes n v)

/-- A segment holding a byte string from address 0, in canonical form. -/
def memOfFrom (a : Nat) : Bytes → Mem
  | [] => []
  | b :: bs => if b = 0 then memOfFrom (a + 1) bs else (a, b) :: memOfFrom (a + 1) bs

def memOf (b : Bytes) : Mem := memOfFrom 0 b

end Sys2Proof.Machine
end

