-- ==== Sys2Proof/Machine/Float.lean ====
section
/-! DEFINITION. IEEE 754 binary32 and binary64 arithmetic (R149, R84): every operation is computed exactly on
integers and rounded once, to nearest, ties to even. A result carries the flags of R141 it raises. -/

namespace Sys2Proof.Machine

/-- A binary format: bits of precision, bits of the exponent field, exponent of the smallest subnormal. -/
structure FpFmt where
  prec : Nat
  ebits : Nat
  emin : Int
  deriving DecidableEq, Repr

def fmt32 : FpFmt := ⟨24, 8, -149⟩
def fmt64 : FpFmt := ⟨53, 11, -1074⟩

/-- A decoded floating-point number: a finite number is `(-1)^neg * mant * 2^exp`. -/
inductive FpVal where
  | nan (signalling : Bool)
  | inf (neg : Bool)
  | fin (neg : Bool) (mant : Nat) (exp : Int)
  deriving DecidableEq, Repr

/-- The exceptions a floating-point step raises (R141). -/
structure FpFlags where
  nv : Bool := false
  fdz : Bool := false
  ovf : Bool := false
  unf : Bool := false
  deriving DecidableEq, Repr

def noFlags : FpFlags := {}

/-- Both sets of exceptions. -/
def FpFlags.join (a b : FpFlags) : FpFlags := ⟨a.nv || b.nv, a.fdz || b.fdz, a.ovf || b.ovf, a.unf || b.unf⟩

/-- The FLG bits of a set of exceptions (R141): NV 1, FDZ 2, OF 3, UF 4. -/
def FpFlags.word (f : FpFlags) : Word :=
  BitVec.ofNat 32 (b2n f.nv * 2 + b2n f.fdz * 4 + b2n f.ovf * 8 + b2n f.unf * 16)

/-- The width of the mantissa field. -/
def FpFmt.mbits (f : FpFmt) : Nat := f.prec - 1

/-- The bit pattern of infinity without its sign. -/
def FpFmt.infPat (f : FpFmt) : Nat := (2 ^ f.ebits - 1) * 2 ^ f.mbits

/-- The place of the sign. -/
def FpFmt.signBit (f : FpFmt) : Nat := 2 ^ (f.ebits + f.mbits)

/-- The one NaN pattern of results (R149: 0x7FC0_0000 for binary32). -/
def FpFmt.nanPat (f : FpFmt) : Nat := f.infPat + 2 ^ (f.mbits - 1)

/-- Read a bit pattern. -/
def fpUnpack (f : FpFmt) (v : Nat) : FpVal :=
  let neg := v / f.signBit % 2 == 1
  let e := v / 2 ^ f.mbits % 2 ^ f.ebits
  let m := v % 2 ^ f.mbits
  if e = 2 ^ f.ebits - 1 then
    if m = 0 then .inf neg else .nan (m < 2 ^ (f.mbits - 1))
  else if e = 0 then .fin neg m f.emin
  else .fin neg (m + 2 ^ f.mbits) (f.emin + (e : Int) - 1)

/-- The number of bits of a number. -/
def bitLen (n : Nat) : Nat := if n = 0 then 0 else Nat.log2 n + 1

/-- `m / 2^k` rounded to nearest, ties to even. -/
def rne (m k : Nat) : Nat :=
  let q := m / 2 ^ k
  let r := m % 2 ^ k
  if 2 * r > 2 ^ k then q + 1
  else if 2 * r = 2 ^ k ∧ k ≠ 0 ∧ q % 2 = 1 then q + 1
  else q

/-- `m * 2^e` rounded to `prec` bits with no last place below `2^lsb`: the rounded mantissa and its exponent. -/
def roundAt (prec : Nat) (lsb : Int) (m : Nat) (e : Int) : Nat × Int :=
  let q := max (e + (bitLen m : Int) - (prec : Int)) lsb
  if q ≤ e then (m * 2 ^ (e - q).toNat, q) else (rne m (q - e).toNat, q)

/-- Round `(-1)^neg * m * 2^e` into the format (R149). -/
def fpRound (f : FpFmt) (neg : Bool) (m : Nat) (e : Int) : Nat × FpFlags :=
  let s := if neg then f.signBit else 0
  if m = 0 then (s, noFlags)
  else
    let (r, q) := roundAt f.prec f.emin m e
    let pat := (q - f.emin).toNat * 2 ^ f.mbits + r
    if pat ≥ f.infPat then (s + f.infPat, { ovf := true })
    else
      let exact := decide (if q ≤ e then true else m % 2 ^ (q - e).toNat = 0)
      -- tiny after rounding: below the smallest normal number with the exponent range left open
      let (r', q') := roundAt f.prec (e - 4096 - (f.prec : Int)) m e
      let tiny := decide ((bitLen r' : Int) + q' ≤ f.emin + (f.prec : Int) - 1)
      (s + pat, { unf := tiny && !exact })

/-- The NaN result, with NV when an operand signals or the operation is invalid. -/
def fpNan (f : FpFmt) (nv : Bool) : Nat × FpFlags := (f.nanPat, { nv := nv })

def FpVal.isNan : FpVal → Bool
  | .nan _ => true
  | _ => false

def FpVal.isSnan : FpVal → Bool
  | .nan s => s
  | _ => false

def FpVal.isInf : FpVal → Bool
  | .inf _ => true
  | _ => false

def FpVal.isZero : FpVal → Bool
  | .fin _ m _ => m == 0
  | _ => false

def FpVal.neg : FpVal → Bool
  | .nan _ => false
  | .inf n => n
  | .fin n _ _ => n

/-- The signed integer mantissa of a finite number brought to exponent `q` (at or below its own). -/
def scaled (neg : Bool) (m : Nat) (e q : Int) : Int :=
  let v : Int := (m * 2 ^ (e - q).toNat : Nat)
  if neg then -v else v

/-- An exact sum rounded. A zero sum is +0 unless both terms are negative (IEEE 754, to nearest). -/
def fpSum (f : FpFmt) (n1 : Bool) (m1 : Nat) (e1 : Int) (n2 : Bool) (m2 : Nat) (e2 : Int) : Nat × FpFlags :=
  let q := min e1 e2
  let v := scaled n1 m1 e1 q + scaled n2 m2 e2 q
  if v = 0 then fpRound f (if m1 = 0 ∧ m2 = 0 then n1 && n2 else false) 0 q
  else fpRound f (decide (v < 0)) v.natAbs q

def fpAdd (f : FpFmt) (a b : Nat) : Nat × FpFlags :=
  let x := fpUnpack f a
  let y := fpUnpack f b
  match x, y with
  | .nan s, y => fpNan f (s || y.isSnan)
  | _, .nan s => fpNan f s
  | .inf n, .inf n' => if n = n' then (a, noFlags) else fpNan f true
  | .inf _, _ => (a, noFlags)
  | _, .inf _ => (b, noFlags)
  | .fin n m e, .fin n' m' e' => fpSum f n m e n' m' e'

/-- Flip the sign of a bit pattern. -/
def fpFlip (f : FpFmt) (a : Nat) : Nat := if a / f.signBit % 2 = 1 then a - f.signBit else a + f.signBit

def fpSub (f : FpFmt) (a b : Nat) : Nat × FpFlags :=
  match fpUnpack f b with
  | .nan _ => fpAdd f a b
  | _ => fpAdd f a (fpFlip f b)

def fpMul (f : FpFmt) (a b : Nat) : Nat × FpFlags :=
  let x := fpUnpack f a
  let y := fpUnpack f b
  match x, y with
  | .nan s, y => fpNan f (s || y.isSnan)
  | _, .nan s => fpNan f s
  | .fin n m e, .fin n' m' e' => fpRound f (n != n') (m * m') (e + e')
  | x, y =>
    if x.isZero || y.isZero then fpNan f true
    else ((if x.neg != y.neg then f.signBit else 0) + f.infPat, noFlags)

def fpDiv (f : FpFmt) (a b : Nat) : Nat × FpFlags :=
  let x := fpUnpack f a
  let y := fpUnpack f b
  let s := if x.neg != y.neg then f.signBit else 0
  match x, y with
  | .nan s, y => fpNan f (s || y.isSnan)
  | _, .nan s => fpNan f s
  | .inf _, .inf _ => fpNan f true
  | .inf _, _ => (s + f.infPat, noFlags)
  | _, .inf _ => (s, noFlags)
  | .fin n m e, .fin n' m' e' =>
    if m' = 0 then (if m = 0 then fpNan f true else (s + f.infPat, { fdz := true }))
    else if m = 0 then (s, noFlags)
    else
      let k := f.prec + 2 + bitLen m'
      let num := m * 2 ^ k
      let q := num / m'
      let sticky := if num % m' = 0 then 0 else 1
      fpRound f (n != n') (2 * q + sticky) (e - e' - (k : Int) - 1)

/-- The integer square root, bit by bit from bit `k`. -/
def isqrtFrom : Nat → Nat → Nat → Nat
  | 0, _, r => r
  | k + 1, n, r =>
    let c := r + 2 ^ k
    if c * c ≤ n then isqrtFrom k n c else isqrtFrom k n r

def isqrt (n : Nat) : Nat := isqrtFrom (bitLen n / 2 + 1) n 0

def fpSqrt (f : FpFmt) (a : Nat) : Nat × FpFlags :=
  match fpUnpack f a with
  | .nan s => fpNan f s
  | .inf false => (a, noFlags)
  | .inf true => fpNan f true
  | .fin n m e =>
    if m = 0 then (a, noFlags)
    else if n then fpNan f true
    else
      -- an even exponent, and enough bits below
      let k := 2 * f.prec + 4 + (if (e - (2 * f.prec + 4 : Nat)) % 2 = 0 then 0 else 1)
      let v := m * 2 ^ k
      let r := isqrt v
      let sticky := if r * r = v then 0 else 1
      fpRound f false (2 * r + sticky) ((e - (k : Int)) / 2 - 1)

/-- a × b + c with one rounding. A zero times an infinity is invalid whatever the addend (R149). -/
def fpFma (f : FpFmt) (a b c : Nat) : Nat × FpFlags :=
  let x := fpUnpack f a
  let y := fpUnpack f b
  let z := fpUnpack f c
  let bad := (x.isZero && y.isInf) || (x.isInf && y.isZero)
  if bad then fpNan f true
  else if x.isNan || y.isNan || z.isNan then fpNan f (x.isSnan || y.isSnan || z.isSnan)
  else
    match x, y, z with
    | .fin n m e, .fin n' m' e', .fin n'' m'' e'' => fpSum f (n != n') (m * m') (e + e') n'' m'' e''
    | .fin .., .fin .., _ => (c, noFlags)
    | x, y, .inf n => if (x.neg != y.neg) = n then (c, noFlags) else fpNan f true
    | x, y, _ => ((if x.neg != y.neg then f.signBit else 0) + f.infPat, noFlags)

/-- |a|: the sign bit alone changes; a NaN gives the NaN pattern (R149). -/
def fpAbs (f : FpFmt) (a : Nat) : Nat × FpFlags :=
  match fpUnpack f a with
  | .nan s => fpNan f s
  | _ => (a % f.signBit, noFlags)

def fpNeg (f : FpFmt) (a : Nat) : Nat × FpFlags :=
  match fpUnpack f a with
  | .nan s => fpNan f s
  | _ => (fpFlip f a, noFlags)

/-- A key that orders non-NaN patterns, −0 below +0. -/
def fpKey (f : FpFmt) (a : Nat) : Int :=
  if a / f.signBit % 2 = 1 then -((a % f.signBit : Nat) : Int) - 1 else ((a % f.signBit : Nat) : Int)

/-- FMIN and FMAX of R149. -/
def fpPick (f : FpFmt) (wantMax : Bool) (a b : Nat) : Nat × FpFlags :=
  let x := fpUnpack f a
  let y := fpUnpack f b
  let fl : FpFlags := { nv := x.isSnan || y.isSnan }
  if x.isNan && y.isNan then (f.nanPat, fl)
  else if x.isNan then (b, fl)
  else if y.isNan then (a, fl)
  else if wantMax then ((if fpKey f a < fpKey f b then b else a), fl)
  else ((if fpKey f b < fpKey f a then b else a), fl)

/-- a < b; false when either is a NaN, −0 equals +0 (R151). -/
def fpLt (f : FpFmt) (a b : Nat) : Bool :=
  let x := fpUnpack f a
  let y := fpUnpack f b
  if x.isNan || y.isNan then false
  else if x.isZero && y.isZero then false
  else decide (fpKey f a < fpKey f b)

def fpEq (f : FpFmt) (a b : Nat) : Bool :=
  let x := fpUnpack f a
  let y := fpUnpack f b
  if x.isNan || y.isNan then false
  else (x.isZero && y.isZero) || a == b

def fpLe (f : FpFmt) (a b : Nat) : Bool := fpLt f a b || fpEq f a b

def fpIsNan (f : FpFmt) (a : Nat) : Bool := (fpUnpack f a).isNan

/-- Whether a pattern is neither a NaN nor an infinity. -/
def fpFinite (f : FpFmt) (a : Nat) : Bool := !((fpUnpack f a).isNan || (fpUnpack f a).isInf)

/-- An integer rounded into the format. -/
def fpOfInt (f : FpFmt) (v : Int) : Nat := (fpRound f (decide (v < 0)) v.natAbs 0).1

/-- The exact integer part of a finite number, toward zero or to nearest even. -/
def fpToIntExact (nearest neg : Bool) (m : Nat) (e : Int) : Int :=
  let v : Nat := if 0 ≤ e then m * 2 ^ e.toNat else if nearest then rne m (-e).toNat else m / 2 ^ (-e).toNat
  if neg then -(v : Int) else v

/-- Conversion to a signed 32-bit integer, saturating, 0 for a NaN, NV in those cases (R149). -/
def fpToInt32 (f : FpFmt) (nearest : Bool) (a : Nat) : Nat × FpFlags :=
  match fpUnpack f a with
  | .nan _ => (0, { nv := true })
  | .inf n => (if n then 0x80000000 else 0x7FFFFFFF, { nv := true })
  | .fin n m e =>
    let v := fpToIntExact nearest n m e
    if v < -2147483648 then (0x80000000, { nv := true })
    else if v > 2147483647 then (0x7FFFFFFF, { nv := true })
    else (ofSigned 32 v, noFlags)

/-- Conversion between formats with one rounding. -/
def fpConv (src dst : FpFmt) (a : Nat) : Nat :=
  match fpUnpack src a with
  | .nan _ => dst.nanPat
  | .inf n => (if n then dst.signBit else 0) + dst.infPat
  | .fin n m e => (fpRound dst n m e).1

/-- A finite number as an exact fraction: numerator over 2^k. NaN and infinities give 0. -/
def fpFrac (f : FpFmt) (a : Nat) : Int × Nat :=
  match fpUnpack f a with
  | .fin n m e => (scaled n m (max e 0) 0 , if e < 0 then 2 ^ (-e).toNat else 1)
  | _ => (0, 1)

/-- A fraction num / den rounded into the format. -/
def fpOfFrac (f : FpFmt) (num : Int) (den : Nat) : Nat :=
  if num = 0 then 0
  else
    let k := f.prec + 2 + bitLen den
    let n := num.natAbs * 2 ^ k
    let sticky := if n % den = 0 then 0 else 1
    (fpRound f (decide (num < 0)) (2 * (n / den) + sticky) (-(k : Int) - 1)).1

/-! ### binary32 on register words -/

/-- A binary32 operation on register words. -/
def w32 (r : Nat × FpFlags) : Word × FpFlags := (BitVec.ofNat 32 r.1, r.2)

def fAdd (a b : Word) : Word × FpFlags := w32 (fpAdd fmt32 a.toNat b.toNat)
def fSub (a b : Word) : Word × FpFlags := w32 (fpSub fmt32 a.toNat b.toNat)
def fMul (a b : Word) : Word × FpFlags := w32 (fpMul fmt32 a.toNat b.toNat)
def fDiv (a b : Word) : Word × FpFlags := w32 (fpDiv fmt32 a.toNat b.toNat)
def fSqrt (a : Word) : Word × FpFlags := w32 (fpSqrt fmt32 a.toNat)
def fFma (a b c : Word) : Word × FpFlags := w32 (fpFma fmt32 a.toNat b.toNat c.toNat)
def fAbs (a : Word) : Word × FpFlags := w32 (fpAbs fmt32 a.toNat)
def fNeg (a : Word) : Word × FpFlags := w32 (fpNeg fmt32 a.toNat)
def fMin (a b : Word) : Word × FpFlags := w32 (fpPick fmt32 false a.toNat b.toNat)
def fMax (a b : Word) : Word × FpFlags := w32 (fpPick fmt32 true a.toNat b.toNat)
/-- The exact negation of a rounded value (R150, "−t"): the sign flips, a NaN stays. -/
def fFlip (a : Word) : Word := BitVec.ofNat 32 (match fpUnpack fmt32 a.toNat with | .nan _ => a.toNat | _ => fpFlip fmt32 a.toNat)
/-- Gd − Ga × Gb, one rounding. -/
def fNms (a b c : Word) : Word × FpFlags := fFma (fFlip a) b c

end Sys2Proof.Machine
end

