-- ==== Sys2Proof/Machine/Trig.lean ====
section
/-! DEFINITION. Correctly rounded arctangent, sine and cosine (R150, R84): fixed-point values with far more bits
than the format, rounded once. -/

namespace Sys2Proof.Machine

/-- Bits of the fixed-point work. -/
def trigBits : Nat := 512

/-- Euler's series for arctan: `term` is the next term, `y` is t²/(1 + t²), all times 2^trigBits. -/
def atanSum : Nat → Nat → Nat → Nat → Nat → Nat
  | 0, _, _, _, acc => acc
  | fuel + 1, n, y, term, acc =>
    if term = 0 then acc
    else atanSum fuel (n + 1) y (term * y / 2 ^ trigBits * (2 * n + 2) / (2 * n + 3)) (acc + term)

/-- arctan (num / den) for 0 ≤ num ≤ den, times 2^trigBits, with an error of a few hundred units at most. -/
def atanFix (num den : Nat) : Nat :=
  let s := num * num + den * den
  let t0 := num * den * 2 ^ trigBits / s
  let y := num * num * 2 ^ trigBits / s
  atanSum 600 0 y t0 0

/-- π times 2^trigBits (Machin's formula). -/
def piFix : Nat := 16 * atanFix 1 5 - 4 * atanFix 1 239

/-- arctan (num / den) of a positive fraction in binary32 or binary64, added to `base` or taken from it.
Small quotients are kept relative: arctan t lies just below t. -/
def atanRound (f : FpFmt) (neg : Bool) (num den : Nat) (quadrant2 : Bool) : Nat × FpFlags :=
  let w := trigBits
  if quadrant2 then
    -- π − arctan
    let a := if num ≤ den then atanFix num den else piFix / 2 - atanFix den num
    fpRound f neg (2 * (piFix - a) + 1) (-(w : Int) - 1)
  else if num ≤ den then
    if num * 2 ^ 60 < den then
      let k := bitLen den + 320
      let q := num * 2 ^ k / den
      let exact := num * 2 ^ k % den == 0
      fpRound f neg (if exact then 2 * q - 1 else 2 * q + 1) (-(k : Int) - 1)
    else fpRound f neg (2 * atanFix num den + 1) (-(w : Int) - 1)
  else fpRound f neg (2 * (piFix / 2 - atanFix den num) + 1) (-(w : Int) - 1)

/-- A multiple of π/4 as a result: ±π, ±π/2, ±π/4, ±3π/4. -/
def piQuarters (f : FpFmt) (neg : Bool) (n : Nat) : Nat × FpFlags :=
  fpRound f neg (2 * (piFix * n / 4) + 1) (-(trigBits : Int) - 1)

/-- IEEE 754 atan2 (y, x), correctly rounded (R150). -/
def fpAtan2 (f : FpFmt) (y x : Nat) : Nat × FpFlags :=
  let a := fpUnpack f y
  let b := fpUnpack f x
  let s := if a.neg then f.signBit else 0
  match a, b with
  | .nan q, b => fpNan f (q || b.isSnan)
  | _, .nan q => fpNan f q
  | .inf n, .inf m => piQuarters f n (if m then 3 else 1)
  | .inf n, _ => piQuarters f n 2
  | .fin n _ _, .inf m => if m then piQuarters f n 4 else (s, noFlags)
  | .fin n m e, .fin n' m' e' =>
    if m = 0 then (if n' then piQuarters f n 4 else (s, noFlags))
    else if m' = 0 then piQuarters f n 2
    else
      let num := m * 2 ^ (e - e').toNat
      let den := m' * 2 ^ (e' - e).toNat
      atanRound f n num den n'

/-- Taylor terms of sine and cosine: `term` is x^k/k!, both sums run at once with alternating signs. -/
def sinCosSum : Nat → Nat → Nat → Nat → Int → Int → Int × Int
  | 0, _, _, _, s, c => (s, c)
  | fuel + 1, k, x, term, s, c =>
    if term = 0 then (s, c)
    else
      let t : Int := if k / 2 % 2 = 0 then (term : Int) else -(term : Int)
      sinCosSum fuel (k + 1) x (term * x / 2 ^ trigBits / (k + 1)) (if k % 2 = 1 then s + t else s) (if k % 2 = 0 then c + t else c)

/-- (sin, cos) of 2π × num / den, times 2^trigBits. The angle is brought into the first eighth first. -/
def sinCosTurn (num den : Nat) : Int × Int :=
  let n := num % den
  -- eighths of a turn
  let o := n * 8 / den
  let half := (o + 1) / 2              -- quarters taken off, 0 to 4
  let r : Int := (n : Int) * 4 - (half * den : Nat)   -- in quarters of a turn times den, from −den/2 to den/2
  let x := piFix * r.natAbs / (2 * den)
  let (s0, c) := sinCosSum 200 0 x (2 ^ trigBits) 0 0
  let s := if r < 0 then -s0 else s0
  match half % 4 with
  | 0 => (s, c)
  | 1 => (c, -s)
  | 2 => (-s, -c)
  | _ => (-c, s)

/-- cos (2π num / den), correctly rounded: 0 and ±1 are exact. -/
def cosTurn (f : FpFmt) (num den : Nat) : Nat :=
  let n := num % den
  if n = 0 then fpOfInt f 1
  else if 2 * n = den then fpOfInt f (-1)
  else if 4 * n = den ∨ 4 * n = 3 * den then 0
  else if 6 * n = den ∨ 6 * n = 5 * den then fpOfFrac f 1 2
  else if 3 * n = den ∨ 3 * n = 2 * den then fpOfFrac f (-1) 2
  else
    let c := (sinCosTurn n den).2
    (fpRound f (decide (c < 0)) (2 * c.natAbs + 1) (-(trigBits : Int) - 1)).1

/-- sin (2π num / den), correctly rounded. -/
def sinTurn (f : FpFmt) (num den : Nat) : Nat := cosTurn f (num * 4 + 3 * den) (den * 4)

end Sys2Proof.Machine
end

