-- ==== Sys2Proof/Machine/Act.lean ====
section
/-! DEFINITION. An activation of a task on a scan core (R117, R139, R143): its registers, its segments with the
pending bank of R123 as its own copies of OUT and RET, its loops and held requests, and what an instruction may do
to them. Nothing here sees anything outside the activation (R115, R139). -/

namespace Sys2Proof.Machine

/-- A complex register: real part and imaginary part, binary32 each (R139). -/
structure Cplx where
  re : Word
  im : Word
  deriving DecidableEq, Repr

/-- A LOOP in progress: first and last + 1 byte offsets of its body, iterations left (R153). -/
structure LoopRec where
  start : Nat
  stop : Nat
  left : Nat
  deriving DecidableEq, Repr

/-- A request held until commit, in issue order (R161). -/
inductive HeldReq where
  | trig (line : Nat) (arg : Word)
  | log (msg : Nat) (payload : Bytes)
  deriving DecidableEq, Repr

/-- Why an activation aborted (R125). -/
inductive AbortReason where
  | budget
  | access
  | window
  | discard
  deriving DecidableEq, Repr

/-- LAST_ABORT code of TASK_STATE. -/
def abortCode : AbortReason → Nat
  | .budget => 1
  | .access => 2
  | .window => 3
  | .discard => 4

/-- Where an activation stands. -/
inductive ActStatus where
  | running
  | halted
  | aborted (r : AbortReason)
  deriving DecidableEq, Repr

/-- A task's row of its stall's slice table on its cluster (R144): base and size of the code area and of the segments, the
bytes of the stall's pitches. A base counts from the first of them. -/
structure Slice where
  code : Nat × Nat
  inp : Nat × Nat
  out : Nat × Nat
  ret : Nat × Nat
  loc : Nat × Nat
  limit : Nat
  deriving DecidableEq, Repr

/-- The row of a task that no castling has placed. -/
def Slice.whole : Slice := ⟨(0, 2 ^ 33), (0, 0), (0, 0), (0, 0), (0, 0), 2 ^ 33⟩

/-- An activation: what R139 to R144 give it. `inp`, `out`, `ret`, `loc` are its segments, `out` and `ret` seen
through its pending bank (R123); `slice` its row of the slice table, `memFault` an access that only a corrupt row refused. -/
structure Act where
  stall : Nat
  task : Nat
  tick : Nat
  per : Nat
  budget : Nat
  cIn : Nat
  bud : Nat
  pc : Nat
  g : Vector Word 32
  p : Vector Cplx 16
  f : Vector Bool 8
  flg : Word
  inSize : Nat
  outSize : Nat
  retSize : Nat
  locSize : Nat
  slice : Slice
  memFault : Bool
  inp : Mem
  out : Mem
  ret : Mem
  loc : Mem
  loops : List LoopRec
  held : List HeldReq
  status : ActStatus
  deriving DecidableEq, Repr

/-- FLG bits (R141). -/
def flgIDZ : Word := 1
def flgCLAMP : Word := 32
def flgQFULL : Word := 64

/-- A register file of one activation as R140 leaves it. -/
def actZero : Act :=
  { stall := 0, task := 0, tick := 0, per := 1, budget := 0, cIn := 40, bud := 0, pc := 0
    g := Vector.replicate 32 0, p := Vector.replicate 16 ⟨0, 0⟩, f := Vector.replicate 8 false, flg := 0
    inSize := 0, outSize := 0, retSize := 0, locSize := 0, slice := Slice.whole, memFault := false, inp := [], out := [], ret := [], loc := []
    loops := [], held := [], status := .running }

/-- Read a general register: G0 reads 0 (R139). -/
def Act.rg (a : Act) (r : BitVec 5) : Word := if r = 0 then 0 else a.g[r.toNat]'(by have := r.isLt; omega)

/-- Write a general register: a write of G0 is discarded (R139). -/
def Act.wg (a : Act) (r : BitVec 5) (v : Word) : Act :=
  if r = 0 then a else { a with g := a.g.set r.toNat v (by have := r.isLt; omega) }

/-- Read a complex register. -/
def Act.rp (a : Act) (r : BitVec 4) : Cplx := a.p[r.toNat]'(by have := r.isLt; omega)

/-- Write a complex register. -/
def Act.wp (a : Act) (r : BitVec 4) (v : Cplx) : Act :=
  { a with p := a.p.set r.toNat v (by have := r.isLt; omega) }

/-- Read a predicate flag: F0 reads 1 (R139). -/
def Act.rf (a : Act) (r : BitVec 3) : Bool := if r = 0 then true else a.f[r.toNat]'(by have := r.isLt; omega)

/-- Write a predicate flag: a write of F0 is discarded (R139). -/
def Act.wf (a : Act) (r : BitVec 3) (v : Bool) : Act :=
  if r = 0 then a else { a with f := a.f.set r.toNat v (by have := r.isLt; omega) }

/-- Set sticky bits of FLG (R141). -/
def Act.orFlg (a : Act) (w : Word) : Act := { a with flg := a.flg ||| w }

/-- The activation aborts (R125): nothing it wrote will be seen (R123). -/
def Act.abort (a : Act) (r : AbortReason) : Act := { a with status := .aborted r }

/-- The back edges at the end of an iteration (R153, R154): innermost first, each charged 1 cycle. DESIGN CHOICE:
a LOOP that is the last instruction of another's body keeps that one's back edge from being taken (log entry 274). -/
def loopEnds : List LoopRec → Act → Act
  | [], a => { a with loops := [] }
  | l :: rest, a =>
    if a.pc = l.stop then
      if a.bud = 0 then { a with loops := l :: rest }.abort .budget
      else if 1 < l.left then
        { a with bud := a.bud - 1, pc := l.start, loops := { l with left := l.left - 1 } :: rest }
      else loopEnds rest { a with bud := a.bud - 1 }
    else { a with loops := l :: rest }

/-- Issue an instruction of `words` words (R124): its cost is compared with BUD, then BUD falls by it and the
instruction executes, `pc` already past it. -/
def Act.issue (a : Act) (cost words : Nat) (f : Act → Act) : Act :=
  if a.bud < cost then a.abort .budget
  else f { a with bud := a.bud - cost, pc := a.pc + 4 * words }

/-- The end of an instruction that is no taken branch: loops whose body ends here take their back edge. -/
def Act.settle (a : Act) : Act :=
  match a.status with
  | .running => loopEnds a.loops a
  | _ => a

/-- An instruction of one word that only computes. -/
def Act.simple (a : Act) (cost : Nat) (f : Act → Act) : Act := (a.issue cost 1 f).settle

/-- The size of a segment (R143). -/
def Act.segSize (a : Act) : SegCode → Nat
  | .inp => a.inSize
  | .out => a.outSize
  | .ret => a.retSize
  | .loc => a.locSize

/-- The bytes of a segment, the activation's own pending writes included (R123). -/
def Act.segMem (a : Act) : SegCode → Mem
  | .inp => a.inp
  | .out => a.out
  | .ret => a.ret
  | .loc => a.loc

/-- Put a segment's bytes back. IN is read-only. -/
def Act.withSeg (a : Act) (s : SegCode) (m : Mem) : Act :=
  match s with
  | .inp => a
  | .out => { a with out := m }
  | .ret => { a with ret := m }
  | .loc => { a with loc := m }

/-- The base of a segment in the stall's pitches. -/
def Act.segBase (a : Act) : SegCode → Nat
  | .inp => a.slice.inp.1
  | .out => a.slice.out.1
  | .ret => a.slice.ret.1
  | .loc => a.slice.loc.1

/-- The checks of R144 on an access of `width` bytes at effective address `ea`, but for the last one. -/
def Act.inSegment (a : Act) (s : SegCode) (ea width align : Nat) (store : Bool) : Bool :=
  decide (ea + width ≤ a.segSize s) && ea % align == 0 && !(store && s == .inp)

/-- Every check of R144: the resolved address lies in the stall's pitches too. -/
def Act.accessOk (a : Act) (s : SegCode) (ea width align : Nat) (store : Bool) : Bool :=
  a.inSegment s ea width align store && decide (a.segBase s + ea + width ≤ a.slice.limit)

/-- An access that is refused aborts with ACCESS; where only the last check fails, the cluster's memory is at fault. -/
def Act.denied (a : Act) (s : SegCode) (ea width align : Nat) (store : Bool) : Act :=
  { a with memFault := a.memFault || a.inSegment s ea width align store }.abort .access

/-- The effective address: G[base] + offset × scale in 32-bit unsigned arithmetic (R143). -/
def effAddr (base : Word) (off : BitVec 11) (scale : Nat) : Nat :=
  (base + off.signExtend 32 * BitVec.ofNat 32 scale).toNat

/-- Read `width` bytes at an effective address, or abort with ACCESS. -/
def Act.load (a : Act) (s : SegCode) (ea width align : Nat) (k : Nat → Act → Act) : Act :=
  if a.accessOk s ea width align false then k (memNat (a.segMem s) ea width) a else a.denied s ea width align false

/-- Store `width` bytes, or abort with ACCESS. -/
def Act.store (a : Act) (s : SegCode) (ea width align v : Nat) : Act :=
  if a.accessOk s ea width align true then a.withSeg s (memStore (a.segMem s) ea width v) else a.denied s ea width align true

/-- Whether an activation still runs. -/
def Act.isRunning (a : Act) : Bool := a.status == .running

end Sys2Proof.Machine
end

