-- ==== Sys2Proof/Machine/HyrraOps.lean ====
section
/-! DEFINITION. Hyrra Scan Code, opcodes 0x00 to 0x19: what each instruction does to its activation (R147 to R154). -/

namespace Sys2Proof.Machine

/-- Gd := f (Ga, Gb). -/
def actGG (cost : Nat) (f : Word → Word → Word) (d a b : BitVec 5) (x : Act) : Act :=
  x.simple cost fun x => x.wg d (f (x.rg a) (x.rg b))

/-- Gd := f (Ga, imm11). -/
def actGI (f : Word → BitVec 11 → Word) (d a : BitVec 5) (imm : BitVec 11) (x : Act) : Act :=
  x.simple 1 fun x => x.wg d (f (x.rg a) imm)

/-! ### R147: system and integer -/

def actNop (x : Act) : Act := x.simple 1 id

/-- HALT ends the activation; the commit follows (R123, R162). -/
def actHalt (x : Act) : Act := x.issue 1 1 fun x => { x with status := .halted }

/-- The special registers of MFS: 0 TCK, 1 PER, 2 BUD, 3 FLG. -/
def specialReg (x : Act) (s : BitVec 5) : Option Word :=
  match s.toNat with
  | 0 => some (BitVec.ofNat 32 x.tick)
  | 1 => some (BitVec.ofNat 32 x.per)
  | 2 => some (BitVec.ofNat 32 x.bud)
  | 3 => some x.flg
  | _ => none

def actMfs (d s : BitVec 5) (x : Act) : Act := x.simple 1 fun x => x.wg d ((specialReg x s).getD 0)

def actAdd := actGG 1 (· + ·)
def actSub := actGG 1 (· - ·)
def actAnd := actGG 1 (· &&& ·)
def actOr := actGG 1 (· ||| ·)
def actXor := actGG 1 (· ^^^ ·)

/-- Shift counts use the low 5 bits (R147). -/
def shCount (b : Word) : Nat := b.toNat % 32

def actShl := actGG 1 fun a b => a <<< shCount b
def actShr := actGG 1 fun a b => a >>> shCount b
def actSra := actGG 1 fun a b => a.sshiftRight (shCount b)
def actMul := actGG 2 (· * ·)

/-- The high 32 bits of the signed product. -/
def mulHigh (a b : Word) : Word := BitVec.ofInt 32 (a.toInt * b.toInt / 4294967296)
/-- The high 32 bits of the unsigned product. -/
def mulHighU (a b : Word) : Word := BitVec.ofNat 32 (a.toNat * b.toNat / 4294967296)

def actMulh := actGG 2 mulHigh
def actMulhu := actGG 2 mulHighU

/-- A division or remainder: divisor 0 gives 0 and sets IDZ (R147). -/
def actDivide (f : Word → Word → Word) (d a b : BitVec 5) (x : Act) : Act :=
  x.simple 12 fun x => if x.rg b = 0 then (x.orFlg flgIDZ).wg d 0 else x.wg d (f (x.rg a) (x.rg b))

def actDiv := actDivide fun a b => BitVec.ofInt 32 (a.toInt.tdiv b.toInt)
def actDivu := actDivide fun a b => a / b
def actRem := actDivide fun a b => BitVec.ofInt 32 (a.toInt.tmod b.toInt)
def actRemu := actDivide fun a b => a % b

def actMin := actGG 1 fun a b => if a.slt b then a else b
def actMax := actGG 1 fun a b => if a.slt b then b else a
def actMinu := actGG 1 fun a b => if a.ult b then a else b
def actMaxu := actGG 1 fun a b => if a.ult b then b else a

def actAddi := actGI fun a i => a + i.signExtend 32
def actAndi := actGI fun a i => a &&& i.zeroExtend 32
def actOri := actGI fun a i => a ||| i.zeroExtend 32
def actXori := actGI fun a i => a ^^^ i.zeroExtend 32
def actShli := actGI fun a i => a <<< (i.toNat % 32)
def actShri := actGI fun a i => a >>> (i.toNat % 32)
def actSrai := actGI fun a i => a.sshiftRight (i.toNat % 32)

/-- LI: the extension word (R147). -/
def actLi (d : BitVec 5) (w : Word) (x : Act) : Act := (x.issue 2 2 fun x => x.wg d w).settle

/-! ### R148, R149: binary32 -/

/-- Gd := a binary32 result, its exceptions put into FLG. -/
def Act.wfl (x : Act) (d : BitVec 5) (r : Word × FpFlags) : Act := (x.orFlg r.2.word).wg d r.1

def actFF (cost : Nat) (f : Word → Word → Word × FpFlags) (d a b : BitVec 5) (x : Act) : Act :=
  x.simple cost fun x => x.wfl d (f (x.rg a) (x.rg b))

def actF1 (cost : Nat) (f : Word → Word × FpFlags) (d a : BitVec 5) (x : Act) : Act :=
  x.simple cost fun x => x.wfl d (f (x.rg a))

def actFadd := actFF 2 fAdd
def actFsub := actFF 2 fSub
def actFmul := actFF 2 fMul
def actFdiv := actFF 12 fDiv
def actFsqrt := actF1 12 fSqrt
def actFabs := actF1 1 fAbs
def actFneg := actF1 1 fNeg
def actFmin := actFF 1 fMin
def actFmax := actFF 1 fMax

/-- Gd := Ga × Gb + Gd, one rounding. -/
def actFma (d a b : BitVec 5) (x : Act) : Act := x.simple 3 fun x => x.wfl d (fFma (x.rg a) (x.rg b) (x.rg d))
/-- Gd := Gd − Ga × Gb, one rounding. -/
def actFnms (d a b : BitVec 5) (x : Act) : Act := x.simple 3 fun x => x.wfl d (fNms (x.rg a) (x.rg b) (x.rg d))

def actItof := actF1 2 fun a => (BitVec.ofNat 32 (fpOfInt fmt32 a.toInt), noFlags)
def actUtof := actF1 2 fun a => (BitVec.ofNat 32 (fpOfInt fmt32 a.toNat), noFlags)
def actFtoi := actF1 2 fun a => w32 (fpToInt32 fmt32 false a.toNat)
def actFtoin := actF1 2 fun a => w32 (fpToInt32 fmt32 true a.toNat)

/-! ### R150: complex -/

/-- A complex result with the exceptions of its steps. -/
structure CRes where
  v : Cplx
  fl : FpFlags
  deriving DecidableEq, Repr

def cAdd (a b : Cplx) : CRes :=
  let r := fAdd a.re b.re
  let i := fAdd a.im b.im
  ⟨⟨r.1, i.1⟩, r.2.join i.2⟩

def cSub (a b : Cplx) : CRes :=
  let r := fSub a.re b.re
  let i := fSub a.im b.im
  ⟨⟨r.1, i.1⟩, r.2.join i.2⟩

/-- CMUL by its two fused steps. -/
def cMul (a b : Cplx) : CRes :=
  let t := fMul a.im b.im
  let r := fFma a.re b.re (fFlip t.1)
  let u := fMul a.im b.re
  let i := fFma a.re b.im u.1
  ⟨⟨r.1, i.1⟩, (t.2.join r.2).join (u.2.join i.2)⟩

def cConj (a : Cplx) : CRes :=
  let i := fNeg a.im
  ⟨⟨a.re, i.1⟩, i.2⟩

/-- √fma(re, re, im × im). -/
def cMag (a : Cplx) : Word × FpFlags :=
  let t := fMul a.im a.im
  let m := fFma a.re a.re t.1
  let r := fSqrt m.1
  (r.1, (t.2.join m.2).join r.2)

def cArg (a : Cplx) : Word × FpFlags := w32 (fpAtan2 fmt32 a.im.toNat a.re.toNat)

def cScale (a : Cplx) (k : Word) : CRes :=
  let r := fMul a.re k
  let i := fMul a.im k
  ⟨⟨r.1, i.1⟩, r.2.join i.2⟩

/-- Pd := a complex result. -/
def Act.wcr (x : Act) (d : BitVec 4) (r : CRes) : Act := (x.orFlg r.fl.word).wp d r.v

def actCC (cost : Nat) (f : Cplx → Cplx → CRes) (d a b : BitVec 4) (x : Act) : Act :=
  x.simple cost fun x => x.wcr d (f (x.rp a) (x.rp b))

def actCadd := actCC 2 cAdd
def actCsub := actCC 2 cSub
def actCmul := actCC 4 cMul
def actCconj (d a : BitVec 4) (x : Act) : Act := x.simple 1 fun x => x.wcr d (cConj (x.rp a))
def actCmag (d : BitVec 5) (a : BitVec 4) (x : Act) : Act := x.simple 14 fun x => x.wfl d (cMag (x.rp a))
def actCarg (d : BitVec 5) (a : BitVec 4) (x : Act) : Act := x.simple 20 fun x => x.wfl d (cArg (x.rp a))
def actCscale (d a : BitVec 4) (b : BitVec 5) (x : Act) : Act := x.simple 2 fun x => x.wcr d (cScale (x.rp a) (x.rg b))
def actCmake (d : BitVec 4) (a b : BitVec 5) (x : Act) : Act := x.simple 1 fun x => x.wp d ⟨x.rg a, x.rg b⟩
def actCre (d : BitVec 5) (a : BitVec 4) (x : Act) : Act := x.simple 1 fun x => x.wg d (x.rp a).re
def actCim (d : BitVec 5) (a : BitVec 4) (x : Act) : Act := x.simple 1 fun x => x.wg d (x.rp a).im
def actCmov (d a : BitVec 4) (x : Act) : Act := x.simple 1 fun x => x.wp d (x.rp a)

/-! ### R151: compare, predicates, select -/

def actCmp (f : Word → Word → Bool) (d : BitVec 3) (a b : BitVec 5) (x : Act) : Act :=
  x.simple 1 fun x => x.wf d (f (x.rg a) (x.rg b))

def actEq := actCmp fun a b => a == b
def actNe := actCmp fun a b => a != b
def actLt := actCmp fun a b => a.slt b
def actLe := actCmp fun a b => a.sle b
def actUlt := actCmp fun a b => a.ult b
def actUle := actCmp fun a b => a.ule b
def actFeq := actCmp fun a b => fpEq fmt32 a.toNat b.toNat
def actFlt := actCmp fun a b => fpLt fmt32 a.toNat b.toNat
def actFle := actCmp fun a b => fpLe fmt32 a.toNat b.toNat
def actFun := actCmp fun a b => fpIsNan fmt32 a.toNat || fpIsNan fmt32 b.toNat

def actPP (f : Bool → Bool → Bool) (d a b : BitVec 3) (x : Act) : Act :=
  x.simple 1 fun x => x.wf d (f (x.rf a) (x.rf b))

def actPand := actPP (· && ·)
def actPor := actPP (· || ·)
def actPxor := actPP (· != ·)
def actPandn := actPP fun a b => a && !b
def actPnot (d a : BitVec 3) (x : Act) : Act := x.simple 1 fun x => x.wf d (!x.rf a)
def actPset (d : BitVec 3) (a : BitVec 5) (x : Act) : Act := x.simple 1 fun x => x.wf d (x.rg a != 0)
def actPget (d : BitVec 5) (a : BitVec 3) (x : Act) : Act := x.simple 1 fun x => x.wg d (if x.rf a then 1 else 0)
def actSel (d : BitVec 5) (p : BitVec 3) (a b : BitVec 5) (x : Act) : Act :=
  x.simple 1 fun x => x.wg d (if x.rf p then x.rg a else x.rg b)
def actCsel (d : BitVec 4) (p : BitVec 3) (a b : BitVec 4) (x : Act) : Act :=
  x.simple 1 fun x => x.wp d (if x.rf p then x.rp a else x.rp b)

/-! ### R152 to R154: branches and loops -/

/-- The loops a branch to `target` leaves running: it ends every loop whose body does not hold the target, and the
loops nested inside it (R154). The list is innermost first. -/
def loopsAt (target : Nat) : List LoopRec → List LoopRec
  | [] => []
  | l :: rest => if l.start ≤ target ∧ target < l.stop then l :: rest else loopsAt target rest

/-- BR: taken when F[predicate] XOR NEG; its target is the word after it plus offset16 words (R152). -/
def actBr (pr : PredRef) (off : BitVec 16) (x : Act) : Act :=
  let y := x.issue 2 1 id
  match y.status with
  | .running =>
    if x.rf pr.flag != pr.neg then
      let target := (BitVec.ofNat 32 y.pc + off.signExtend 32 * 4).toNat
      { y with pc := target, loops := loopsAt target y.loops }
    else y.settle
  | _ => y

/-- LOOP: the count from the register or the extension word, clamped to 65,535 (R153). -/
def actLoop (r : BitVec 5) (body : BitVec 16) (ext : Word) (x : Act) : Act :=
  let words := if r = 0 then 2 else 1
  (x.issue 2 words fun y =>
    let raw := if r = 0 then ext.toNat % 65536 else (y.rg r).toNat
    let n := min raw 65535
    let y := if raw > 65535 then y.orFlg flgCLAMP else y
    let stop := y.pc + 4 * body.toNat
    if n = 0 then { y with pc := stop }
    else { y with loops := ⟨y.pc, stop, n⟩ :: y.loops }).settle

end Sys2Proof.Machine
end

