-- ==== Sys2Proof/Machine/HyrraMem.lean ====
section
/-! DEFINITION. Hyrra Scan Code, loads, stores, long vector operations, trigger and log (R155 to R161). -/

namespace Sys2Proof.Machine

/-- Sign-extend a number of `w` bits to a register. -/
def sext (w v : Nat) : Word := BitVec.ofNat 32 (ofSigned 32 (toSigned w v))

/-- The complex register a 5-bit field names: its low 4 bits (R145). -/
def lowP (d : BitVec 5) : BitVec 4 := d.truncate 4

/-- LD by width code (R155). Width 7 is reserved. -/
def actLd (width : BitVec 3) (d base : BitVec 5) (seg : SegCode) (off : BitVec 11) (x : Act) : Act :=
  x.simple 2 fun x =>
    let ea := effAddr (x.rg base) off
    match width.toNat with
    | 0 => x.load seg (ea 4) 4 4 fun v x => x.wg d (BitVec.ofNat 32 v)
    | 1 => x.load seg (ea 1) 1 1 fun v x => x.wg d (BitVec.ofNat 32 v)
    | 2 => x.load seg (ea 1) 1 1 fun v x => x.wg d (sext 8 v)
    | 3 => x.load seg (ea 2) 2 2 fun v x => x.wg d (BitVec.ofNat 32 v)
    | 4 => x.load seg (ea 2) 2 2 fun v x => x.wg d (sext 16 v)
    | 5 => x.load seg (ea 4) 8 4 fun v x => (x.wg d (BitVec.ofNat 32 (v / 4294967296))).wg (d + 1) (BitVec.ofNat 32 v)
    | 6 => x.load seg (ea 4) 8 4 fun v x => x.wp (lowP d) ⟨BitVec.ofNat 32 (v / 4294967296), BitVec.ofNat 32 v⟩
    | _ => x.abort .access

/-- ST by width code (R155). Widths 2, 4 and 7 are reserved. -/
def actSt (width : BitVec 3) (d base : BitVec 5) (seg : SegCode) (off : BitVec 11) (x : Act) : Act :=
  x.simple 1 fun x =>
    let ea := effAddr (x.rg base) off
    let v := (x.rg d).toNat
    match width.toNat with
    | 0 => x.store seg (ea 4) 4 4 v
    | 1 => x.store seg (ea 1) 1 1 (v % 256)
    | 3 => x.store seg (ea 2) 2 2 (v % 65536)
    | 5 => x.store seg (ea 4) 8 4 (v * 4294967296 + (x.rg (d + 1)).toNat)
    | 6 => x.store seg (ea 4) 8 4 ((x.rp (lowP d)).re.toNat * 4294967296 + (x.rp (lowP d)).im.toNat)
    | _ => x.abort .access

/-- Charge one element of a vector operation (R124, R158). -/
def Act.pay (x : Act) (n : Nat) (k : Act → Act) : Act :=
  if x.bud < n then x.abort .budget else k { x with bud := x.bud - n }

/-- The count of a vector operation, clamped to 4,096 (R156). -/
def vecCount (w : Word) (x : Act) : Nat × Act :=
  if w.toNat > 4096 then (4096, x.orFlg flgCLAMP) else (w.toNat, x)

/-- VCOPY, element by element in ascending order: read, checked, charged, written (R157). -/
def vcopyFrom : Nat → SegCode → SegCode → Word → Word → Act → Act
  | 0, _, _, _, _, x => x
  | n + 1, src, dst, sa, da, x =>
    x.load src sa.toNat 4 4 fun v x =>
      if x.accessOk dst da.toNat 4 4 true then
        x.pay 1 fun x =>
          vcopyFrom n src dst (sa + 4) (da + 4) (x.withSeg dst (memStore (x.segMem dst) da.toNat 4 v))
      else x.denied dst da.toNat 4 4 true

def actVcopy (src dst : SegCode) (d a b : BitVec 5) (x : Act) : Act :=
  x.simple 8 fun x =>
    let c := vecCount (x.rg b) x
    vcopyFrom c.1 src dst (x.rg a) (x.rg d) c.2

/-- VSUM of 4-byte elements: `acc` is the running sum (types 0, 1, 2). -/
def vsumFrom : Nat → SegCode → Nat → Word → Word → (Word → Act → Act) → Act → Act
  | 0, _, _, _, acc, k, x => k acc x
  | n + 1, seg, ty, ad, acc, k, x =>
    x.load seg ad.toNat 4 4 fun v x => x.pay 1 fun x =>
      let e := BitVec.ofNat 32 v
      let r := match ty with
        | 0 => (acc + e, noFlags)
        | 1 => fAdd acc e
        | _ => fFma e e acc
      vsumFrom n seg ty (ad + 4) r.1 k (x.orFlg r.2.word)

/-- VSUM of complex elements (type 3). -/
def vsumCFrom : Nat → SegCode → Word → Cplx → (Cplx → Act → Act) → Act → Act
  | 0, _, _, acc, k, x => k acc x
  | n + 1, seg, ad, acc, k, x =>
    x.load seg ad.toNat 8 4 fun v x => x.pay 2 fun x =>
      let r := cAdd acc ⟨BitVec.ofNat 32 (v / 4294967296), BitVec.ofNat 32 v⟩
      vsumCFrom n seg (ad + 8) r.v k (x.orFlg r.fl.word)

def actVsum (seg : SegCode) (ty : BitVec 3) (d a b : BitVec 5) (x : Act) : Act :=
  x.simple 8 fun x =>
    let c := vecCount (x.rg b) x
    if ty.toNat = 3 then vsumCFrom c.1 seg (x.rg a) ⟨0, 0⟩ (fun r x => x.wp (lowP d) r) c.2
    else vsumFrom c.1 seg ty.toNat (x.rg a) 0 (fun r x => x.wg d r) c.2

/-- Whether element `e` takes the place of the best so far (R156): strictly larger. -/
def vmaxBeats (ty : Nat) (e best : Word) : Bool :=
  match ty with
  | 0 => best.slt e
  | 4 => best.ult e
  | 1 => decide (fpKey fmt32 best.toNat < fpKey fmt32 e.toNat)
  | _ => decide (best.toNat % 2147483648 < e.toNat % 2147483648)

/-- The element types that skip NaN. -/
def vmaxSkips (ty : Nat) (e : Word) : Bool := (ty == 1 || ty == 5) && fpIsNan fmt32 e.toNat

def vmaxFrom : Nat → SegCode → Nat → Word → Nat → Option (Word × Nat) → (Option (Word × Nat) → Act → Act) → Act → Act
  | 0, _, _, _, _, best, k, x => k best x
  | n + 1, seg, ty, ad, i, best, k, x =>
    x.load seg ad.toNat 4 4 fun v x => x.pay 1 fun x =>
      let e := BitVec.ofNat 32 v
      let best' :=
        if vmaxSkips ty e then best
        else match best with
          | none => some (e, i)
          | some (w, j) => if vmaxBeats ty e w then some (e, i) else some (w, j)
      vmaxFrom n seg ty (ad + 4) (i + 1) best' k x

/-- The result with no element: R157. -/
def vmaxNone (ty : Nat) : Word :=
  match ty with
  | 0 => 0x80000000
  | 4 => 0
  | _ => 0xFF800000

def actVmax (seg : SegCode) (ty : BitVec 3) (d a b : BitVec 5) (x : Act) : Act :=
  x.simple 8 fun x =>
    let c := vecCount (x.rg b) x
    vmaxFrom c.1 seg ty.toNat (x.rg a) 0 none
      (fun r x => match r with
        | some (w, i) => (x.wg d w).wg (d + 1) (BitVec.ofNat 32 i)
        | none => (x.wg d (vmaxNone ty.toNat)).wg (d + 1) 0xFFFFFFFF) c.2

/-- How many TRIG requests are held. -/
def trigCount (l : List HeldReq) : Nat := (l.filter fun | .trig .. => true | _ => false).length
/-- How many LOG requests are held. -/
def logCount (l : List HeldReq) : Nat := (l.filter fun | .log .. => true | _ => false).length

/-- TRIG (R159): held until commit, dropped with QFULL beyond 4 (R161). -/
def actTrig (a : BitVec 5) (line : BitVec 4) (x : Act) : Act :=
  x.simple 4 fun x =>
    if trigCount x.held ≥ 4 then x.orFlg flgQFULL
    else { x with held := x.held ++ [.trig line.toNat (x.rg a)] }

/-- LOG (R160): the payload is read and checked when LOG issues, whatever the state of the queue (R161). -/
def actLog (seg : SegCode) (msg : BitVec 9) (a b : BitVec 5) (x : Act) : Act :=
  let len := min (x.rg b).toNat 256
  x.simple (8 + ceilDiv len 16) fun y =>
    let y := if (y.rg b).toNat > 256 then y.orFlg flgCLAMP else y
    if y.accessOk seg (y.rg a).toNat len 1 false then
      if logCount y.held ≥ 8 then y.orFlg flgQFULL
      else { y with held := y.held ++ [.log msg.toNat (memReadBytes (y.segMem seg) (y.rg a).toNat len)] }
    else y.denied seg (y.rg a).toNat len 1 false

end Sys2Proof.Machine
end

