-- ==== Sys2Proof/Machine/HyrraBlocks.lean ====
section
/-! DEFINITION. The block library (R163 to R168): state in RET at 16 × instance, laid out as R501. -/

namespace Sys2Proof.Machine

/-- A stateful block of `slots` 16-byte slots: its state bytes in, its new state bytes out; ACCESS when the range
exceeds RET_SIZE (R163) or fails another check of R144. The block writes every byte of its slots not named as 0 (R501). -/
def blockCall (cost slots : Nat) (inst : BitVec 16) (f : Bytes → Act → Bytes × Act) (x : Act) : Act :=
  x.simple cost fun x =>
    let at0 := 16 * inst.toNat
    if x.accessOk .ret at0 (16 * slots) 4 true then
      let r := f (memReadBytes x.ret at0 (16 * slots)) x
      { r.2 with ret := memWriteBytes r.2.ret at0 (fit (16 * slots) r.1) }
    else x.denied .ret at0 (16 * slots) 4 true

/-- A bool input or field: non-zero is true (R142). -/
def wTrue (w : Word) : Bool := w != 0
/-- A bool result. -/
def boolW (b : Bool) : Word := if b then 1 else 0
/-- A bool as the byte of a state. -/
def boolB (b : Bool) : Byte := if b then 1 else 0
/-- A state byte read as a bool. -/
def stBool (b : Bytes) (off : Nat) : Bool := u8 b off != 0

/-- The state of TON, TOF and TP. -/
structure TimerSt where
  et : Nat
  prev : Bool
  run : Bool
  deriving DecidableEq, Repr

def timerIn (b : Bytes) : TimerSt := ⟨u32 b 0, stBool b 4, stBool b 5⟩
def timerOut (t : TimerSt) : Bytes := beBytes 4 t.et ++ [boolB t.prev, boolB t.run]

/-- uint32 addition of 1. -/
def inc32 (n : Nat) : Nat := (n + 1) % 4294967296

/-- TON (R165): the new state and Q. -/
def tonStep (i : Bool) (pt : Nat) (t : TimerSt) : TimerSt × Bool :=
  let et := if i && t.prev then min (inc32 t.et) pt else 0
  (⟨et, i, false⟩, i && decide (pt ≤ et))

/-- TOF (R165). DESIGN CHOICE: ET wraps (log entry 208). -/
def tofStep (i : Bool) (pt : Nat) (t : TimerSt) : TimerSt × Bool :=
  let t1 : TimerSt :=
    if i then { t with run := false, et := 0 }
    else if t.prev then { t with run := true, et := 0 }
    else if t.run then { t with et := inc32 t.et }
    else t
  let t2 := if t1.run && decide (pt ≤ t1.et) then { t1 with run := false } else t1
  ({ t2 with prev := i }, i || t2.run)

/-- TP (R165). DESIGN CHOICE: ET wraps (log entry 208). -/
def tpStep (i : Bool) (pt : Nat) (t : TimerSt) : TimerSt × Bool :=
  let t1 : TimerSt :=
    if t.run then
      let et := inc32 t.et
      { t with et := et, run := !decide (pt ≤ et) }
    else if i && !t.prev && decide (0 < pt) then { t with run := true, et := 0 }
    else if !i then { t with et := 0 }
    else t
  ({ t1 with prev := i }, t1.run)

/-- A timer call: G1 IN, G2 PT in; G1 Q, G2 ET out. -/
def actTimer (step : Bool → Nat → TimerSt → TimerSt × Bool) (inst : BitVec 16) : Act → Act :=
  blockCall 6 1 inst fun b x =>
    let r := step (wTrue (x.rg 1)) (x.rg 2).toNat (timerIn b)
    (timerOut r.1, (x.wg 1 (boolW r.2)).wg 2 (BitVec.ofNat 32 r.1.et))

def actTon := actTimer tonStep
def actTof := actTimer tofStep
def actTp := actTimer tpStep

/-- CV of a counter. -/
def cvIn (b : Bytes) : Int := toSigned 32 (u32 b 0)
/-- The state bytes of a counter. -/
def counterOut (cv : Int) (prevs : Bytes) : Bytes := beBytes 4 (ofSigned 32 cv) ++ prevs
def intW (v : Int) : Word := BitVec.ofInt 32 v

/-- CTU (R166). -/
def actCtu (inst : BitVec 16) : Act → Act :=
  blockCall 5 1 inst fun b x =>
    let cu := wTrue (x.rg 1)
    let cv := cvIn b
    let cv' := if wTrue (x.rg 2) then 0 else if cu && !stBool b 4 then min (cv + 1) 2147483647 else cv
    (counterOut cv' [boolB cu], (x.wg 1 (boolW (decide ((x.rg 3).toInt ≤ cv')))).wg 2 (intW cv'))

/-- CTD (R166). -/
def actCtd (inst : BitVec 16) : Act → Act :=
  blockCall 5 1 inst fun b x =>
    let cd := wTrue (x.rg 1)
    let cv := cvIn b
    let cv' := if wTrue (x.rg 2) then (x.rg 3).toInt else if cd && !stBool b 4 then max (cv - 1) (-2147483648) else cv
    (counterOut cv' [boolB cd], (x.wg 1 (boolW (decide (cv' ≤ 0)))).wg 2 (intW cv'))

/-- CTUD (R166). Each edge saturates as in CTU and CTD. -/
def actCtud (inst : BitVec 16) : Act → Act :=
  blockCall 7 1 inst fun b x =>
    let cu := wTrue (x.rg 1)
    let cd := wTrue (x.rg 2)
    let pv := (x.rg 5).toInt
    let cv := cvIn b
    let up := cu && !stBool b 4
    let down := cd && !stBool b 5
    let cv' :=
      if wTrue (x.rg 3) then 0
      else if wTrue (x.rg 4) then pv
      else if up && !down then min (cv + 1) 2147483647
      else if down && !up then max (cv - 1) (-2147483648)
      else cv
    (counterOut cv' [boolB cu, boolB cd],
      ((x.wg 1 (boolW (decide (pv ≤ cv')))).wg 2 (boolW (decide (cv' ≤ 0)))).wg 3 (intW cv'))

/-- R_TRIG and F_TRIG (R166): Q from CLK and PREV. -/
def actEdge (q : Bool → Bool → Bool) (inst : BitVec 16) : Act → Act :=
  blockCall 4 1 inst fun b x =>
    let clk := wTrue (x.rg 1)
    (zeros 4 ++ [boolB clk], x.wg 1 (boolW (q clk (stBool b 4))))

def actRTrig := actEdge fun clk prev => clk && !prev
def actFTrig := actEdge fun clk prev => prev && !clk

/-- HYST (R167). -/
def actHyst (inst : BitVec 16) : Act → Act :=
  blockCall 5 1 inst fun b x =>
    let v := (x.rg 1).toNat
    let q :=
      if fpLt fmt32 (x.rg 2).toNat v then true
      else if fpLt fmt32 v (x.rg 3).toNat then false
      else stBool b 4
    (zeros 4 ++ [boolB q], x.wg 1 (boolW q))

/-- The constants of SEQ (R168). -/
def seqAlpha : Cplx := ⟨0xBF000000, 0x3F5DB3D7⟩
def seqAlpha2 : Cplx := ⟨0xBF000000, 0xBF5DB3D7⟩
def seqThird : Word := 0x3EAAAAAB

/-- One output of SEQ: CSCALE(CADD(CADD(A, u), w), k). -/
def seqSum (a : Cplx) (u w : CRes) : CRes :=
  let s := cAdd a u.v
  let t := cAdd s.v w.v
  let r := cScale t.v seqThird
  ⟨r.v, ((u.fl.join w.fl).join (s.fl.join t.fl)).join r.fl⟩

/-- SEQ (R168): zero, positive and negative sequence. -/
def actSeq (x : Act) : Act :=
  x.simple 18 fun x =>
    let a := x.rp 1
    let b := x.rp 2
    let c := x.rp 3
    let zero := seqSum a ⟨b, noFlags⟩ ⟨c, noFlags⟩
    let pos := seqSum a (cMul seqAlpha b) (cMul seqAlpha2 c)
    let neg := seqSum a (cMul seqAlpha2 b) (cMul seqAlpha c)
    let x := x.wcr 1 zero
    if wTrue (x.rg 1) then (x.wcr 2 neg).wcr 3 pos else (x.wcr 2 pos).wcr 3 neg

/-- IMP (R168): impedance from phasors. -/
def actImp (x : Act) : Act :=
  x.simple 30 fun x =>
    let m := cMul (x.rp 4) (x.rp 3)
    let l := cAdd (x.rp 2) m.v
    let t := fMul l.v.im l.v.im
    let d := fFma l.v.re l.v.re t.1
    let x := x.orFlg (((m.fl.join l.fl).join (t.2.join d.2)).word)
    if fpLt fmt32 (x.rg 1).toNat d.1.toNat then
      let cj := cConj l.v
      let vm := cMul (x.rp 1) cj.v
      let inv := fDiv 0x3F800000 d.1
      let z := cScale vm.v inv.1
      ((x.orFlg ((cj.fl.join vm.fl).join (inv.2)).word).wcr 1 z).wg 1 1
    else (x.wp 1 ⟨0, 0⟩).wg 1 0

/-- ROC (R168): rate of change over the last W calls. -/
def actRoc (inst : BitVec 16) : Act → Act :=
  blockCall 12 17 inst fun b x =>
    let v := x.rg 1
    let wRaw := (x.rg 2).toNat
    let w := if wRaw < 1 then 1 else if wRaw > 64 then 64 else wRaw
    let x := if wRaw < 1 ∨ wRaw > 64 then x.orFlg flgCLAMP else x
    let fill := if u32 b 260 = w then min (u32 b 256) 64 else 0
    let head := u32 b 264 % 64
    let old := BitVec.ofNat 32 (u32 b (4 * ((head + 64 - w) % 64)))
    let st := patch (patch b (4 * head) (beBytes 4 v.toNat)) 256
      (beBytes 4 (min (fill + 1) 64) ++ beBytes 4 w ++ beBytes 4 ((head + 1) % 64) ++ zeros 4)
    if w ≤ fill then
      let d := fSub v old
      let q := fDiv 0x45960000 (BitVec.ofNat 32 (fpOfInt fmt32 (w * x.per : Nat)))
      let r := fMul d.1 q.1
      (st, ((x.orFlg ((d.2.join q.2).join r.2).word).wg 1 r.1).wg 2 1)
    else (st, (x.wg 1 0).wg 2 0)

/-- CALL by block type (R164); none for a type or an instance number that is not defined. -/
def actCall (ty : Nat) (inst : BitVec 16) : Option (Act → Act) :=
  match ty with
  | 0x01 => some (actTon inst)
  | 0x02 => some (actTof inst)
  | 0x03 => some (actTp inst)
  | 0x10 => some (actCtu inst)
  | 0x11 => some (actCtd inst)
  | 0x12 => some (actCtud inst)
  | 0x20 => some (actRTrig inst)
  | 0x21 => some (actFTrig inst)
  | 0x28 => some (actHyst inst)
  | 0x30 => if inst = 0 then some actSeq else none
  | 0x31 => if inst = 0 then some actImp else none
  | 0x38 => some (actRoc inst)
  | _ => none

end Sys2Proof.Machine
end

