-- ==== Sys2Proof/Machine/Hash.lean ====
section
/-! DEFINITION. Check words and cryptography the module computes: the reflected CRCs of R55, R51 and R353,
SHA-256 (R419), SHA-384 and HKDF (R444), HMAC-SHA-256 (R395) and the AES-256 key wrap of R445 and R449. Their algorithms are the published
standards the rules name. -/

namespace Sys2Proof.Machine

/-! ### CRCs -/

/-- One bit of a reflected CRC with the reflected polynomial `poly`. -/
def crcBits : Nat → Nat → Nat → Nat
  | 0, _, r => r
  | k + 1, poly, r => crcBits k poly (if r % 2 = 1 then r / 2 ^^^ poly else r / 2)

def crcRun (poly : Nat) (b : Bytes) (init : Nat) : Nat := b.foldl (fun r x => crcBits 8 poly (r ^^^ x.toNat)) init

/-- CRC-32C (reflected polynomial 0x82F6_3B78, initial value and final exclusive-or all ones). -/
def crc32c (b : Bytes) : Nat := crcRun 0x82F63B78 b 0xFFFFFFFF ^^^ 0xFFFFFFFF

/-- The CRC-64 of R55: 0x42F0_E1EB_A9EA_3693 reflected. -/
def crc64 (b : Bytes) : Nat := crcRun 0xC96C5795D7870F42 b 0xFFFFFFFFFFFFFFFF ^^^ 0xFFFFFFFFFFFFFFFF

/-- The SCRC of R353: polynomial 0xF4AC_FB13 reflected, initial value SEED. -/
def scrc (seed : Nat) (b : Bytes) : Nat := crcRun 0xC8DF352F b seed ^^^ 0xFFFFFFFF

/-! ### The Secure Hash Standard -/

/-- The first 64 bits of the fractional parts of the cube roots of the first 80 primes, entry i in bits 64i+63 to 64i. -/
def cubeRoots : Nat :=
  0xe9b5dba58189dbbcb5c0fbcfec4d3b2f7137449123ef65cd428a2f98d728ae22
    + 2 ^ 256 * 0xab1c5ed5da6d8118923f82a4af194f9b59f111f1b605d0193956c25bf348b538
    + 2 ^ 512 * 0x550c7dc3d5ffb4e2243185be4ee4b28c12835b0145706fbed807aa98a3030242
    + 2 ^ 768 * 0xc19bf174cf6926949bdc06a725c7123580deb1fe3b1696b172be5d74f27b896f
    + 2 ^ 1024 * 0x240ca1cc77ac9c650fc19dc68b8cd5b5efbe4786384f25e3e49b69c19ef14ad2
    + 2 ^ 1280 * 0x76f988da831153b55cb0a9dcbd41fbd44a7484aa6ea6e4832de92c6f592b0275
    + 2 ^ 1536 * 0xbf597fc7beef0ee4b00327c898fb213fa831c66d2db43210983e5152ee66dfab
    + 2 ^ 1792 * 0x142929670a0e6e7006ca6351e003826fd5a79147930aa725c6e00bf33da88fc2
    + 2 ^ 2048 * 0x53380d139d95b3df4d2c6dfc5ac42aed2e1b21385c26c92627b70a8546d22ffc
    + 2 ^ 2304 * 0x92722c851482353b81c2c92e47edaee6766a0abb3c77b2a8650a73548baf63de
    + 2 ^ 2560 * 0xc76c51a30654be30c24b8b70d0f89791a81a664bbc423001a2bfe8a14cf10364
    + 2 ^ 2816 * 0x106aa07032bbd1b8f40e35855771202ad69906245565a910d192e819d6ef5218
    + 2 ^ 3072 * 0x34b0bcb5e19b48a82748774cdf8eeb991e376c085141ab5319a4c116b8d2d0c8
    + 2 ^ 3328 * 0x682e6ff3d6b2b8a35b9cca4f7763e3734ed8aa4ae3418acb391c0cb3c5c95a63
    + 2 ^ 3584 * 0x8cc702081a6439ec84c87814a1f0ab7278a5636f43172f60748f82ee5defb2fc
    + 2 ^ 3840 * 0xc67178f2e372532bbef9a3f7b2c67915a4506cebde82bde990befffa23631e28
    + 2 ^ 4096 * 0xf57d4f7fee6ed178eada7dd6cde0eb1ed186b8c721c0c207ca273eceea26619c
    + 2 ^ 4352 * 0x1b710b35131c471b113f9804bef90dae0a637dc5a2c898a606f067aa72176fba
    + 2 ^ 4608 * 0x431d67c49c100d4c3c9ebe0a15c9bebc32caab7b40c7249328db77f523047d84
    + 2 ^ 4864 * 0x6c44198c4a4758175fcb6fab3ad6faec597f299cfc657e2a4cc5d4becb3e42b6

/-- The same of the square roots of the first 16 primes. -/
def squareRoots : Nat :=
  0xa54ff53a5f1d36f13c6ef372fe94f82bbb67ae8584caa73b6a09e667f3bcc908
    + 2 ^ 256 * 0x5be0cd19137e21791f83d9abfb41bd6b9b05688c2b3e6c1f510e527fade682d1
    + 2 ^ 512 * 0x152fecd8f70e59399159015a3070dd17629a292a367cd507cbbb9d5dc1059ed8
    + 2 ^ 768 * 0x47b5481dbefa4fa4db0c2e0d64f98fa78eb44a876858151167332667ffc00b31

/-- A hash of the family: its word size, its rounds, and the rotations of its four mixing functions (the last number of
`sched0` and `sched1` is a shift). -/
structure ShaKind where
  bits : Nat
  rounds : Nat
  mix0 : Nat × Nat × Nat
  mix1 : Nat × Nat × Nat
  sched0 : Nat × Nat × Nat
  sched1 : Nat × Nat × Nat
  deriving DecidableEq, Repr

/-- Hashes of 32-bit words. -/
def sha32 : ShaKind := ⟨32, 64, (2, 13, 22), (6, 11, 25), (7, 18, 3), (17, 19, 10)⟩
/-- Hashes of 64-bit words. -/
def sha64 : ShaKind := ⟨64, 80, (28, 34, 39), (14, 18, 41), (1, 8, 7), (19, 61, 6)⟩

/-- The leading bits, as many as a word has, of entry i of a table of roots. -/
def ShaKind.root (f : ShaKind) (table i : Nat) : Nat := table / 2 ^ (64 * i + (64 - f.bits)) % 2 ^ f.bits

/-- A word turned right by n places. -/
def ShaKind.turn (f : ShaKind) (x n : Nat) : Nat := x % 2 ^ n * 2 ^ (f.bits - n) + x / 2 ^ n

/-- Mixing a word into itself by three rotations, or two and a shift. -/
def ShaKind.spin (f : ShaKind) (shift : Bool) (r : Nat × Nat × Nat) (x : Nat) : Nat :=
  f.turn x r.1 ^^^ f.turn x r.2.1 ^^^ (if shift then x / 2 ^ r.2.2 else f.turn x r.2.2)

/-- Each bit of x chooses between those of y and z. -/
def choiceOf (x y z : Nat) : Nat := z ^^^ (x &&& (y ^^^ z))

/-- Each bit as most of x, y and z have it. -/
def majorityOf (x y z : Nat) : Nat := (x &&& (y ||| z)) ||| (y &&& z)

/-- Round i: `win` holds the next 16 words of the message schedule, the oldest first. -/
def ShaKind.round (f : ShaKind) (i : Nat) (x : List Nat × List Nat) : List Nat × List Nat :=
  match x with
  | ([a, b, c, d, e, p, q, r], w :: win) =>
    let t := r + f.spin false f.mix1 e + choiceOf e p q + f.root cubeRoots i + w
    let fresh := w + f.spin true f.sched0 (win.getD 0 0) + win.getD 8 0 + f.spin true f.sched1 (win.getD 13 0)
    ([(t + f.spin false f.mix0 a + majorityOf a b c) % 2 ^ f.bits, a, b, c, (d + t) % 2 ^ f.bits, e, p, q], win ++ [fresh % 2 ^ f.bits])
  | _ => x

/-- A block of 16 words goes into the chaining value. -/
def ShaKind.absorb (f : ShaKind) (chain : List Nat) (block : Bytes) : List Nat :=
  let words := (pieces (f.bits / 8) block).map beNat
  List.zipWith (fun x y => (x + y) % 2 ^ f.bits) chain ((upto f.rounds).foldl (fun x i => f.round i x) (chain, words)).1

/-- The hash from an initial chaining value, the words that it ends with as bytes. -/
def ShaKind.hash (f : ShaKind) (first : List Nat) (m : Bytes) : Bytes :=
  let block := 2 * f.bits
  let fill := (2 * block - 1 - f.bits / 4 - m.length % block) % block
  ((pieces block (m ++ [0x80] ++ zeros fill ++ beBytes (f.bits / 4) (8 * m.length))).foldl f.absorb first).flatMap (beBytes (f.bits / 8))

/-- SHA-256: it starts from the square roots of the first 8 primes. -/
def sha256 (m : Bytes) : Bytes := sha32.hash ((upto 8).map (sha32.root squareRoots)) m

/-- SHA-384: it starts from the square roots of the next 8 primes and drops the last 16 bytes. -/
def sha384 (m : Bytes) : Bytes := (sha64.hash ((upto 8).map fun i => sha64.root squareRoots (i + 8)) m).take 48

/-- HMAC over a hash of some block size. -/
def hmac (hash : Bytes → Bytes) (block : Nat) (key msg : Bytes) : Bytes :=
  let k := fit block (if key.length > block then hash key else key)
  hash (k.map (· ^^^ 0x5c) ++ hash (k.map (· ^^^ 0x36) ++ msg))

def hmacSha256 (key msg : Bytes) : Bytes := hmac sha256 64 key msg
def hmacSha384 (key msg : Bytes) : Bytes := hmac sha384 128 key msg

/-- Block after block of HKDF's output, each keyed by the one before. -/
def hkdfBlocks (prk info : Bytes) : Nat → Nat → Bytes → Bytes
  | 0, _, _ => []
  | n + 1, i, last => let t := hmacSha384 prk (last ++ info ++ beBytes 1 i); t ++ hkdfBlocks prk info n (i + 1) t

/-- hkdf_expand with SHA-384 (R444). -/
def hkdfExpand (prk info : Bytes) (length : Nat) : Bytes := (hkdfBlocks prk info (ceilDiv length 48) 1 []).take length

/-- A key derived from a root (R444). -/
def deriveKey (salt root label context : Bytes) (length : Nat) : Bytes :=
  hkdfExpand (hmacSha384 salt root) (label ++ [0] ++ context) length

/-! ### AES-256 and the key wrap with padding (RFC 5649) -/

/-- Multiply by x in the field of AES. -/
def gfDouble (x : Nat) : Nat := if x ≥ 128 then (x * 2) % 256 ^^^ 0x1b else x * 2

/-- The S-box of AES, entry x in bits 8x+7 to 8x, as the standard tabulates it. -/
def aesBox : Nat :=
  0xc072a49cafa2d4adf04759fa7dc982ca76abd7fe2b670130c56f6bf27b777c63
    + 2 ^ 256 * 0x75b227ebe28012079a059618c323c7041531d871f1e5a534ccf73f362693fdb7
    + 2 ^ 512 * 0xcf584c4a39becb6a5bb1fc20ed00d153842fe329b3d63b52a05a6e1b1a2c8309
    + 2 ^ 768 * 0xd2f3ff1021dab6bcf5389d928f40a351a89f3c507f02f94585334d43fbaaefd0
    + 2 ^ 1024 * 0xdb0b5ede14b8ee4688902a22dc4f816073195d643d7ea7c41744975fec130ccd
    + 2 ^ 1280 * 0x08ae7a65eaf4566ca94ed58d6d37c8e779e4959162acd3c25c2406490a3a32e0
    + 2 ^ 1536 * 0x9e1dc186b95735610ef6034866b53e708a8bbd4b1f74dde8c6b4a61c2e2578ba
    + 2 ^ 1792 * 0x16bb54b00f2d99416842e6bf0d89a18cdf2855cee9871e9b948ed9691198f8e1

/-- The inverse S-box. -/
def aesInvBox : Nat :=
  0xcbe9dec444438e3487ff2f9b8239e37cfbd7f3819ea340bf38a53630d56a0952
    + 2 ^ 256 * 0x25d18b6d49a25b76b224d92866a12e084ec3fa420b954cee3d23c2a632947b54
    + 2 ^ 512 * 0x849d8da75746155edab9edfd5048706c92b6655dcc5ca4d41698688664f6f872
    + 2 ^ 768 * 0x6b8a130103bdafc1020f3fca8f1e2cd00645b3b80558e4f70ad3bc8c00abd890
    + 2 ^ 1024 * 0x6edf751ce837f9e28535ade72274ac9673e6b4f0cecff297eadc674f4111913a
    + 2 ^ 1280 * 0xf45acd78fec0db9a2079d2c64b3e56fc1bbe18aa0e62b76f89c5291d711af147
    + 2 ^ 1536 * 0xef9cc9939f7ae52d0d4ab519a97f51605fec8027591012b131c7078833a8dd1f
    + 2 ^ 1792 * 0x7d0c2155631469e126d677ba7e042b17619953833cbbebc8b0f52aae4d3be0a0

def aesSub (x : Nat) : Nat := aesBox / 2 ^ (8 * x) % 256

def aesInvSub (y : Nat) : Nat := aesInvBox / 2 ^ (8 * y) % 256

/-- The key schedule of AES-256: words of 4 bytes, newest first. -/
def aesExpand : Nat → Nat → Nat → List (List Nat) → List (List Nat)
  | 0, _, _, ws => ws
  | n + 1, i, rcon, ws =>
    let prev := ws.getD 0 []
    let t :=
      if i % 8 = 0 then
        let r := (prev.drop 1 ++ prev.take 1).map aesSub
        (r.getD 0 0 ^^^ rcon) :: r.drop 1
      else if i % 8 = 4 then prev.map aesSub
      else prev
    let w := (t.zip (ws.getD 7 [])).map fun p => p.1 ^^^ p.2
    aesExpand n (i + 1) (if i % 8 = 0 then gfDouble rcon else rcon) (w :: ws)

/-- The 15 round keys of a 32-byte key, 16 bytes each. -/
def aesKeys (key : Bytes) : List (List Nat) :=
  let w0 := (pieces 4 key).map (fun p => p.map (·.toNat))
  let ws := (aesExpand 52 8 1 w0.reverse).reverse
  (upto 15).map fun r => ((ws.drop (4 * r)).take 4).flatten

def xorL (a b : List Nat) : List Nat := (a.zip b).map fun p => p.1 ^^^ p.2

/-- Inverse ShiftRows: byte 4c + r comes from column c − r. -/
def invShift (s : List Nat) : List Nat := (upto 16).map fun i => s.getD ((i + 16 - 4 * (i % 4)) % 16) 0

/-- A byte of Inverse MixColumns: 14a + 11b + 13c + 9d in the field. -/
def invMixByte (a b c d : Nat) : Nat :=
  gfDouble (gfDouble (gfDouble (a ^^^ b ^^^ c ^^^ d) ^^^ a ^^^ c) ^^^ a ^^^ b) ^^^ b ^^^ c ^^^ d

/-- Inverse MixColumns. -/
def invMix (s : List Nat) : List Nat :=
  (upto 16).map fun i =>
    let c := 4 * (i / 4)
    invMixByte (s.getD (c + i % 4) 0) (s.getD (c + (i + 1) % 4) 0) (s.getD (c + (i + 2) % 4) 0) (s.getD (c + (i + 3) % 4) 0)

/-- MixColumns: done four times over it is the identity, so that three inverses make it. -/
def mixCol (s : List Nat) : List Nat := invMix (invMix (invMix s))

/-- ShiftRows: byte 4c + r comes from column c + r. -/
def shiftRows (s : List Nat) : List Nat := (upto 16).map fun i => s.getD ((i + 4 * (i % 4)) % 16) 0

/-- AES-256 encryption of one block. -/
def aesEncrypt (keys : List (List Nat)) (b : List Nat) : List Nat :=
  let s := (upto 13).foldl (fun s i => xorL (mixCol (shiftRows (s.map aesSub))) (keys.getD (i + 1) [])) (xorL b (keys.getD 0 []))
  xorL (shiftRows (s.map aesSub)) (keys.getD 14 [])

/-- AES-256 decryption of one block. -/
def aesDecrypt (keys : List (List Nat)) (b : List Nat) : List Nat :=
  let s0 := xorL b (keys.getD 14 [])
  let s := (upto 13).foldl (fun s i => invMix (xorL ((invShift s).map aesInvSub) (keys.getD (13 - i) []))) s0
  xorL ((invShift s).map aesInvSub) (keys.getD 0 [])

/-- One step of the unwrap: t from 6n down to 1. -/
def unwrapSteps : Nat → Nat → List (List Nat) → List Nat → List (List Nat) → List Nat × List (List Nat)
  | 0, _, _, a, rs => (a, rs)
  | t + 1, n, keys, a, rs =>
    let i := t % n
    let tb := (beBytes 8 (t + 1)).map (·.toNat)
    let p := aesDecrypt keys (xorL a tb ++ rs.getD i [])
    unwrapSteps t n keys (p.take 8) (rs.set i (p.drop 8))

/-- One step of the wrap: `left` steps to go of 6n, t = 6n - left. -/
def wrapSteps : Nat → Nat → List (List Nat) → List Nat → List (List Nat) → List Nat
  | 0, _, _, a, rs => a ++ rs.flatten
  | left + 1, n, keys, a, rs =>
    let t := 6 * n - (left + 1)
    let p := aesEncrypt keys (a ++ rs.getD (t % n) [])
    wrapSteps left n keys (xorL (p.take 8) ((beBytes 8 (t + 1)).map (·.toNat))) (rs.set (t % n) (p.drop 8))

/-- AES key wrap with padding (RFC 5649). -/
def aesWrapPad (kek key : Bytes) : Bytes :=
  let keys := aesKeys kek
  let n := ceilDiv key.length 8
  let av := (beBytes 4 0xA65959A6 ++ beBytes 4 key.length).map (·.toNat)
  let body := (fit (8 * n) key).map (·.toNat)
  (if n = 1 then aesEncrypt keys (av ++ body) else wrapSteps (6 * n) n keys av ((upto n).map fun i => (body.drop (8 * i)).take 8)).map
    (BitVec.ofNat 8)

/-- AES key unwrap with padding (RFC 5649): the key inside, none when its integrity check fails. -/
def aesUnwrapPad (kek wrapped : Bytes) : Option Bytes :=
  let keys := aesKeys kek
  let n := wrapped.length / 8 - 1
  if wrapped.length % 8 ≠ 0 ∨ wrapped.length < 16 then none
  else
    let w := wrapped.map (·.toNat)
    let (a, rs) :=
      if n = 1 then
        let p := aesDecrypt keys w
        (p.take 8, [p.drop 8])
      else unwrapSteps (6 * n) n keys (w.take 8) ((upto n).map fun i => (w.drop (8 * (i + 1))).take 8)
    let body : Bytes := rs.flatten.map (BitVec.ofNat 8)
    let av : Bytes := a.map (BitVec.ofNat 8)
    let len := u32 av 4
    if u32 av 0 = 0xA65959A6 ∧ 8 * (n - 1) < len ∧ len ≤ 8 * n ∧ allZero (body.drop len) then some (body.take len) else none

end Sys2Proof.Machine
end

