-- ==== Sys2Proof/Config.lean ====
section
/-! DEFINITION. What one unit, one firmware image or the world outside fixes (R5) and the free values of the spec: each
is a constant without a body, so no proof can lean on its value. -/

namespace Sys2Proof

/-- MODULE_SERIAL: programmed at manufacture (R5). -/
opaque Config.serial : DWord
/-- HW_REV: programmed at manufacture (R5). -/
opaque Config.hwRev : Byte
/-- PUB_MAC at first start: programmed at manufacture (R5, R215). -/
opaque Config.pubMac : BitVec 48
/-- The station MAC address of each side: programmed at manufacture (R418). -/
opaque Config.stationMac : SideId → BitVec 48
/-- The internal delays of R284 in ps, by side, port (0 for port 1), SPEED and FEC: programmed at manufacture. -/
opaque Config.txInternal : SideId → Nat → Nat → Nat → Word
opaque Config.rxInternal : SideId → Nat → Nat → Nat → Word
/-- From T0 of a tick to the arrival of its bell at a side in step with the active one, in 2^-8 ns: the instant the bell is
sent and the link delay measured at link training (R294). -/
opaque Config.bellLag : SideId → Nat → Word
/-- y of a side in SLAVED at a tick, in 2^-32: what its fixed internal gains make it (R294). -/
opaque Config.slaveFreq : SideId → Nat → Word
/-- The setup key of R448. -/
opaque Config.setupKey : Bytes
/-- The root that a side's SRAM fingerprint gives with its helper data (R443). -/
opaque Config.pufRoot : SideId → Bytes → Bytes
/-- The loader area of a side and the microcode of an image, which the boot measurement covers (R444). -/
opaque Config.loaderArea : SideId → Bytes
opaque Config.microcode : Bytes → Bytes
/-- The device public key that comes of a seed of KV-DEVICE (R444). -/
opaque Config.devicePublic : Bytes → Bytes
/-- The ephemeral public key a side forms for a link training, and the secret two of them agree (R444, ECDH on P-384). -/
opaque Config.ephemeralKey : SideId → Word → Bytes
opaque Config.ecdhSecret : Bytes → Bytes → Bytes
/-- Whether signing key 0 to 3 is present in antifuse memory (R454). -/
opaque Config.signerPresent : SideId → Nat → Bool
/-- Uhlewald's certificate of a side's device key (R455). -/
opaque Config.deviceCert : SideId → Bytes
/-- The image each side runs at first start; it begins with its 128-byte header (R430). -/
opaque Config.imageHeader : Bytes
/-- The Ledger code of an event the spec gives no number (R322), by the model's own numbering of events. -/
opaque Config.eventCode : Nat → BitVec 12
/-- The name of a code that the spec does not name (R322). -/
opaque Config.eventName : Nat → List (BitVec 8)
/-- BUILD_ID of the image with a given header (R40). -/
opaque Config.buildId : Bytes → DWord
/-- The current the Arbiter measures on a channel (0 for FIO1) in a tick, as FIO_CH shows it: the world outside. -/
opaque Config.fioCurrent : Nat → Nat → BitVec 12
/-- The mean path or peer delay a PTP port measures in a tick, in 2^-16 ns: the world outside (R298). -/
opaque Config.pathDelay : SideId → Nat → Nat → BitVec 48
/-- The maximum length, FCS included, of the frames of a publication record: its encoding lies in a standard (R197). -/
opaque Config.pubFrameLength : Bytes → BitVec 11
/-- The row and the column of an SRAM macro that hold the word at an offset, and the spare rows and columns a macro (by its
part address) has beyond the two of R9: the construction of the unit (R458, R462). -/
opaque Config.macroRow : Nat → Nat
opaque Config.macroColumn : Nat → Nat
opaque Config.moreSpareRows : Nat → Nat
opaque Config.moreSpareColumns : Nat → Nat
/-- Where the store of a side keeps a key slot, and which 4 KiB of the side area, in order, a sector of it holds: the
construction of the unit (R458). -/
opaque Config.keySector : SideId → Nat → Nat
opaque Config.sideSector : SideId → Nat → Option Nat
/-- Side A's reference clock less side B's in a tick, in 0.1 ppm: the world outside (R247). -/
opaque Config.refDiff : Nat → Int
/-- A value the spec leaves open, one for each use (see the assumption log). -/
opaque Config.freeWord : Nat → Word
opaque Config.freeByte : Nat → Byte

end Sys2Proof
end

