-- ==== Sys2Proof/Machine/Parts.lean ====
section
/-! DEFINITION. The pieces of State, chapter by chapter: plain data, each docstring naming the rule that gives it. -/

namespace Sys2Proof.Machine

/-! ### Commands (spec/17_command_packets.md) -/

/-- The statuses of R410. -/
inductive Status where
  | ok
  | acceptedPending
  | badLength
  | badVersion
  | badAuth
  | replay
  | noRight
  | unknownOpcode
  | range
  | misaligned
  | width
  | readOnly
  | sideEffect
  | state
  | chainRunning
  | noResource
  | conflict
  | busyTest
  | order
  | notRunning
  | late
  | incompatible
  | safetyLocked
  | safetyPassword
  | internal
  deriving DecidableEq, Repr

/-- The code of a status (R410). -/
def Status.code : Status → Nat
  | .ok => 0x0000
  | .acceptedPending => 0x0001
  | .badLength => 0x0101
  | .badVersion => 0x0102
  | .badAuth => 0x0103
  | .replay => 0x0104
  | .noRight => 0x0105
  | .unknownOpcode => 0x0106
  | .range => 0x0201
  | .misaligned => 0x0202
  | .width => 0x0203
  | .readOnly => 0x0204
  | .sideEffect => 0x0205
  | .state => 0x0301
  | .chainRunning => 0x0302
  | .noResource => 0x0303
  | .conflict => 0x0304
  | .busyTest => 0x0305
  | .order => 0x0306
  | .notRunning => 0x0307
  | .late => 0x0308
  | .incompatible => 0x0309
  | .safetyLocked => 0x0401
  | .safetyPassword => 0x0402
  | .internal => 0x0501

/-- A principal: its 32-byte record (R396) and its replay window: highest number H, the map of H − 63 to H, bit i
for H − i (R401), and the H kept in the configuration store with the numbers accepted since (R402). -/
structure Principal where
  record : Bytes
  high : Nat
  map : Nat
  kept : Nat
  taken : Nat
  deriving DecidableEq, Repr

/-- A validated command waiting for its bell (R403); apply tick 0 means the next bell. `answered`: it has been answered
ACCEPTED_PENDING (R406); `listed`: the bell lists it (R43). -/
structure WaitCmd where
  hdr : CmdHdr
  op : Nat
  params : Bytes
  tick : Nat
  answered : Bool
  listed : Bool
  deriving DecidableEq, Repr

/-- The outcome of an accepted sequence number (R406). -/
structure CmdResult where
  seq : Nat
  status : Status
  tick : Nat
  deriving DecidableEq, Repr

/-! ### What leaves the module -/

/-- The redundancy of a frame that the module sends (R194, R199): the PRP trailer with its number and LAN, or the HSR tag
with the same number and the side's path. -/
inductive Redundancy where
  | none
  | rct (number : Nat) (lan : SideId)
  | hsr (number : Nat) (path : SideId)
  deriving DecidableEq, Repr

/-- What a publication's record and PUB_MAC give its frame (R194, R200, R211): addresses, tag, APPID, confRev, `name` the
gocbRef or svID, datSet, goID, smpRate of a derived stream. -/
structure PubHead where
  dst : Nat
  src : Nat
  vlan : Option Nat
  appId : Nat
  confRev : Nat
  name : Bytes
  datSet : Bytes
  goId : Bytes
  smpRate : Nat
  deriving DecidableEq, Repr

/-- The grandmaster that an Announce message of the module names (R281), with the UTC offset and leap flags in force. -/
structure PtpGrand where
  identity : Nat
  priority1 : Nat
  clockClass : Nat
  accuracy : Nat
  variance : Nat
  priority2 : Nat
  steps : Nat
  utc : Nat
  leap59 : Bool
  leap61 : Bool
  tlvs : Bytes
  deriving DecidableEq, Repr

/-- A PTP message of the module (R281): messageType (0 Sync, 1 Delay_Req, 2 Pdelay_Req, 3 Pdelay_Resp, 8 Follow_Up,
9 Delay_Resp, 10 Pdelay_Resp_Follow_Up, 11 Announce), domain, sequenceId, clockIdentity, two-step, the timestamp it
carries in 2^−16 ns, the port identity it answers, what an Announce message names. -/
structure PtpOut where
  msg : Nat
  domain : Nat
  seq : Nat
  clock : Nat
  twoStep : Bool
  time : Option Nat
  answers : Bytes
  grand : Option PtpGrand
  deriving DecidableEq, Repr

/-- How a packet that is not replicated leaves (R199): the station MAC address of its side, its number in that side's RCT
counter, and whether the other LAN carries a copy through the cross-link. -/
structure NetTx where
  src : Nat
  number : Nat
  otherLan : Bool
  deriving DecidableEq, Repr

/-- How a command reply or a notification leaves as a datagram (R391, R408): as a packet that is not replicated, in the
management VLAN of its side's station (0 untagged), between two addresses. -/
structure UdpTx where
  net : NetTx
  vlan : Nat
  addr : UdpAddr
  deriving DecidableEq, Repr

/-- Everything that leaves the module's boundary (R1), in order. `frame` carries a whole Ethernet frame without FCS; the
other constructors name what the spec fixes of a message whose encoding lies in a standard. `correction` is what a
transparent clock adds to the correctionField, in 2^−16 ns (R283); a residence time may be negative. -/
inductive Output where
  | reply (side : SideId) (transport : Transport) (packet : Bytes) (net : Option UdpTx)
  | note (side : SideId) (toRing : Bool) (packet : Bytes) (net : Option UdpTx)
  | frame (side : SideId) (port : Nat) (bytes : Bytes)
  | goose (side : SideId) (ports : Nat) (red : Redundancy) (head : PubHead) (index stNum sqNum : Nat) (sim test nds : Bool)
      (talMs : Nat) (time : DWord) (members : List Bytes) (key : Option Nat)
  | svOut (side : SideId) (ports : Nat) (red : Redundancy) (head : PubHead) (index : Nat) (sim : Bool) (asdus : List Bytes)
      (key : Option Nat)
  | telegram (side : SideId) (ports : Nat) (bytes : Bytes)
  | forward (side : SideId) (port : Nat) (f : EthFrame) (stomped : Bool) (correction : Option Int)
  | ptp (side : SideId) (port : Nat) (m : PtpOut)
  | prpSupervision (side lan : SideId) (mac : Nat) (net : NetTx)
  | sendRefused (side : SideId) (port : Nat)
  | can (side : SideId) (frame : CanFrame)
  | msix (side : SideId) (vector : Nat)
  | hostWrite (side : SideId) (ring : Nat) (pasid : Nat) (addr : Nat) (bytes : Bytes)
  | barRead (side : SideId) (value : DWord)
  | bell (bytes : Bytes)
  | smirnelBell (side : SideId) (bytes : Bytes)
  | fieldOutput (image : BitVec 32)
  | pairNotice (side : SideId)
  | pps (side : SideId) (second : Nat)
  deriving DecidableEq, Repr

end Sys2Proof.Machine

namespace Sys2Proof

/-- The bytes on the wire, FCS included, of a frame that the module builds: the encodings lie in the standards the spec
names. Both sides build the same frame from the same content (R194). A free value. -/
opaque Config.frameBytes : Machine.Output → List (BitVec 8)

end Sys2Proof

namespace Sys2Proof.Machine

/-! ### Configuration (spec/18_configuration_and_update.md) -/

/-- A scope of configuration (R416): records by type and index (key type × 2^32 + index), blocks being loaded in chunks
by type (R421), VALID and the digest of the shadow (R422). -/
structure Scope where
  recs : Tbl Bytes
  loading : Tbl Bytes
  valid : Bool
  digest : Bytes
  deriving DecidableEq, Repr

def Scope.empty : Scope := ⟨[], [], false, []⟩

/-- A root record of a configuration store (R428): its generation, the scopes whose active copy lies in the second slot of
their pair, those whose shadow is VALID. -/
structure RootRec where
  gen : Nat
  odd : List Nat
  valid : List Nat
  deriving DecidableEq, Repr

/-- What a configuration store keeps of the configuration in force (R428): both copies of each scope and of the safety
table, the scopes whose active copy lies in the second slot, the principal table, the safety password's salt and
verifier. -/
structure CfgStore where
  modActive : Scope
  modShadow : Scope
  stallActive : Tbl Scope
  stallShadow : Tbl Scope
  safeActive : Bytes
  safeShadow : Bytes
  odd : List Nat
  principals : Tbl Principal
  safePw : Option (Bytes × Bytes)
  deriving DecidableEq, Repr

/-- A running validation (R422): the command to answer, its bell, whether a write to the scope has broken it. -/
structure Validation where
  hdr : CmdHdr
  start : Nat
  broken : Bool
  deriving DecidableEq, Repr

/-- A ring load in progress (R421, R432): its command, where image bytes go, how many there are, those read so far. -/
structure RingLoad where
  hdr : CmdHdr
  update : Bool
  ring : Nat
  offset : Nat
  length : Nat
  got : Bytes
  deriving DecidableEq, Repr

/-- A firmware update (R431 to R439): its phase as UPD_STATE codes it, the first side X, the image's length and the
blocks written so far by offset, the schedule, whether an outage is scheduled and authorised or a pair update made, the
tick the gambit window ends, ticks counted towards confirmation, the tick the second side's copy was complete, whether
the second side has failed once. -/
structure UpdSt where
  phase : Nat
  first : SideId
  length : Nat
  blocks : Tbl Bytes
  atSecond : Nat
  window : Nat
  delay : Nat
  outage : Bool
  authorised : Bool
  pair : Bool
  windowEnd : Option Nat
  trial : Nat
  copied : Option Nat
  failedOnce : Bool
  deriving DecidableEq, Repr

def UpdSt.reset : UpdSt := ⟨0, .A, 0, [], 0, 0, 0, false, false, false, none, 0, none, false⟩

/-! ### Power (spec/21_power_and_connectors.md) -/

/-- The power states of R474. -/
inductive PowerMode where
  | off
  | parked
  | booting
  | service
  | stopping
  deriving DecidableEq, Repr

/-- What an orderly stop leads to (R481, R483): Off with the input gone, Parked, or a boot with a cause. -/
inductive StopEnd where
  | off
  | parked
  | boot (cause : Nat)
  deriving DecidableEq, Repr

/-- Power and start-up: the state; the stop tick chosen for a power failure (R482) or an ordered stop, and what it leads
to; the input back during a stop (R485); the run-state map (R477); whether the stored configuration is still to be
installed at the first bell; whether the gate's stalls are still to be listed, and GATE_WAIT reported (R478); the times
the sides stored at the last orderly stop, in ns of TAI (R479); a wake detector ignoring all patterns (R277). -/
structure PowSt where
  mode : PowerMode
  stopAt : Option Nat
  after : StopEnd
  inputBack : Bool
  runMap : Tbl Nat
  fresh : Bool
  startDue : Bool
  gateWaited : Bool
  clockA : Nat
  clockB : Nat
  deafA : Bool
  deafB : Bool
  deriving DecidableEq, Repr

def PowSt.reset : PowSt := ⟨.booting, none, .off, false, [], true, false, false, 0, 0, false, false⟩

/-! ### The Ledger (spec/13_ledger.md) -/

/-- A record (R318): `cls` 1 snapshot, 2 variable, 3 pad; `time` in units of 4 ns. -/
structure LRec where
  sideArea : Bool
  cls : Nat
  stall : Nat
  code : Nat
  time : Nat
  seq : Nat
  tick : Nat
  origin : Nat
  body : Bytes
  deriving DecidableEq, Repr

/-- A segment (R316): its place in its area, its EPOCH and FIRST_SEQ, its records, the bytes used of 65,504. -/
structure LSeg where
  place : Nat
  epoch : Nat
  firstSeq : Nat
  recs : List LRec
  used : Nat
  deriving DecidableEq, Repr

/-- A region (R317): its segments, oldest first, how many it may hold, the places and EPOCHs of the empty segments that
follow the newest, and the place from which empty ones that have never been used go on after those. -/
structure LRegion where
  segs : List LSeg
  cap : Nat
  spare : List (Nat × Nat)
  next : Nat
  deriving DecidableEq, Repr

/-- A module-area record waiting for the admission of R325: its class of order (0 notices and commands, 1 LOG,
2 snapshots, 3 other events), whether it is a change record and whether the Crier reports it with its SEQ (R408). The record
of a notice has its precedence, from 1, as `task`. -/
structure LPend where
  cls : Nat
  stall : Nat
  task : Nat
  code : Nat
  origin : Nat
  body : Bytes
  change : Bool
  report : Bool
  deriving DecidableEq, Repr

/-- A flood summary waiting (R329): count dropped, QUEUE part, the second. -/
structure Flood where
  code : Nat
  stall : Nat
  dropped : Nat
  queuePart : Nat
  second : Nat
  deriving DecidableEq, Repr

/-! ### The bell (spec/02_tick_and_bell.md) -/

/-- A notice of R41: TYPE, stall, ARGUMENT, the tick at which its effect applies; `auto`: a stall reset that R128 asks for
(R181). -/
structure Notice where
  ty : Nat
  stall : Nat
  arg : Nat
  tick : Nat
  auto : Bool
  deriving DecidableEq, Repr

/-! ### Scan (spec/05_scan_engines.md) -/

/-- A task on one side (R123, R121): committed OUT and RET, HELD, whether it has yet to be released since the stall entered
Running, the tick of its last release, what its latched entries have gathered: by channel, EVT, DIR, FRAC words and FIRST ages of each comparator. -/
structure TaskSt where
  out : Mem
  ret : Mem
  held : Bool
  fresh : Bool
  last : Nat
  gather : Tbl Bytes
  deriving DecidableEq, Repr

def TaskSt.empty : TaskSt := ⟨[], [], false, true, 0, []⟩

/-- A logical core on one side in the current tick (R117): the released activations still to run as (stall, task), the
time used in ns after T0, the activation in progress, those committed in this tick with what their task was before. -/
structure CoreSt where
  queue : List (Nat × Nat)
  time : Nat
  cur : Option Act
  failed : Bool
  done : List (Nat × Nat × TaskSt)
  deriving DecidableEq, Repr

def CoreSt.idle : CoreSt := ⟨[], 35000, none, false, []⟩

/-- A force (R130, R135). -/
structure Force where
  kind : Nat
  stall : Nat
  task : Nat
  width : Nat
  offset : Nat
  qual : Nat
  validity : Nat
  value : Nat
  origin : Nat
  apply : Nat
  expiry : Nat
  deriving DecidableEq, Repr

/-! ### Stream Intake (spec/03_stream_intake.md) -/

/-- One sampling instant of a stream as filed (R76): its smpCnt, its sample tick (0 while a free-running sample is not
mapped), the ingress timestamp in ns of TAI, whether it was filed after its seal (R50), the UNSYNC and SIM bits of its
intake status, the smpSynch-forced validity of R81, and the selected entries in CHANNELS order, as received. -/
structure Filed where
  cnt : Nat
  tick : Nat
  arr : Nat
  late : Bool
  status : Nat
  entries : List SvEntry
  deriving DecidableEq, Repr

/-- An entry as delivered to conditioning after the seal (R77): value, quality, intake status. -/
structure Delivered where
  value : Word
  quality : Word
  status : Nat
  deriving DecidableEq, Repr

/-- One sampling instant as delivered: its sample number (R88, R306), its smpCnt, the entries in CHANNELS order. -/
structure SealedSample where
  num : Nat
  cnt : Nat
  entries : List Delivered
  deriving DecidableEq, Repr

/-- A sealed sample tick of a stream: presence and its samples in order. -/
structure SealedTick where
  tick : Nat
  present : Bool
  samples : List SealedSample
  deriving DecidableEq, Repr

/-- A sealed anchor (R72): smpCnt c, the anchor instant e in ns of TAI, the tick of the bell that carried it. -/
structure Anchor where
  cnt : Nat
  at_ : Nat
  bell : Nat
  deriving DecidableEq, Repr

/-- A stream on one side: filed samples and sealed ticks of the last 64 sample ticks (R76), sample ticks withdrawn by a
CONFLICT and samples so withdrawn before an anchor gave them a tick (R75), the held value of each entry (R79), the open failure runs by reason index with their start and whether
they were notified (R70), presence at the last sample tick (R48), a wanted anchor (R72, SV_REANCHOR), the last 16
deviations of a free-running stream in units of 1/f ns (R73), and the anchor under which it was last sealed. -/
structure StreamSt where
  filed : List Filed
  sealed_ : List SealedTick
  withdrawn : List Nat
  clashed : List Filed
  held : List (Option SvEntry)
  runs : Tbl (Nat × Bool)
  wasPresent : Bool
  wantAnchor : Bool
  devs : List Int
  sealedBy : Option Anchor
  deriving DecidableEq, Repr

def StreamSt.empty : StreamSt := ⟨[], [], [], [], [], [], false, true, [], none⟩

/-! ### Conditioning (spec/04_conditioning_chain.md) -/

/-- A comparator (R95): picked up, the length of its run, its latest values since the restart, newest first (R96). -/
structure CompSt where
  picked : Bool
  run : Nat
  hist : List Word
  deriving DecidableEq, Repr

def CompSt.empty : CompSt := ⟨false, 0, []⟩

/-- A conditioning chain on one side (R103): state (0 Stopped, 1 Starting, 2 Running), stopped by command, stopped for
one tick by a castling (2: in this tick, 1: it starts in the next), waiting for a present sample tick (R35, R225),
restarted after a tick no side computed (R225); samples since the restart m and in the blitz count m_b, the m at which SETTLING clears (R101, R102), COARSE and FINE_MAG
of the last record; rate-stage grid, CIC integrators and combs (R88), averages (R89), windows of z and q with their
SUBST marks (R91, R98, R100), COARSE (R99), window flags with their last tick (R107), comparators and the dropouts they
owe (R97), the preferred phasor, FINE and the last status word. -/
structure ChainSt where
  state : Nat
  cmdStop : Bool
  resume : Nat
  needPresent : Bool
  gap : Bool
  m : Nat
  mb : Nat
  clean : Nat
  prevCoarse : Bool
  fmag : Word
  grid : Tbl (Word × Bool)
  integ : List Nat
  comb : List Nat
  ma1 : List (BitVec 64)
  ma2 : List (BitVec 64)
  acc1 : BitVec 64
  acc2 : BitVec 64
  zs : List Word
  qs : List Word
  qsub : List Bool
  coarse : Cplx
  holds : Tbl Nat
  comps : List CompSt
  drop : Nat
  pref : Cplx
  fine : Cplx
  status : Nat
  deriving DecidableEq, Repr

/-- A group on one side (R93, R94): ticks in a row in which every member was Running without SETTLING, the latest
X1F, newest first, the fresh estimates by sample tick, frequency, ROCOF, whether the frequency is held, and what it is held
at. -/
structure GroupSt where
  okRun : Nat
  x1s : List Cplx
  fs : Tbl Word
  freq : Word
  rocof : Word
  hold : Bool
  keep : Word
  deriving DecidableEq, Repr

/-! ### Acquisition (spec/12_acquisition.md) -/

/-- A trigger mark to be written (R300): its SOURCE, stall, line and SOURCE_INDEX, its instant in units of 1/65,536 ns of
TAI, the work tick that writes it, its FLAGS. -/
structure Mark where
  source : Nat
  stall : Nat
  line : Nat
  index : Nat
  t : Nat
  work : Nat
  flags : Nat
  deriving DecidableEq, Repr

/-- A block of M samples being reduced (R307): its first sample number, how many have entered, sums of values and of
squares in binary64, minimum and maximum patterns, status bits. -/
structure CaptBlock where
  first : Nat
  count : Nat
  sum : BitVec 64
  squares : BitVec 64
  lo : Word
  hi : Word
  status : Nat
  deriving DecidableEq, Repr

/-- A capture channel on one side: SEQ of its next record, its block in progress. -/
structure CaptSt where
  next : Nat
  block : Option CaptBlock
  deriving DecidableEq, Repr

def CaptSt.fresh : CaptSt := ⟨0, none⟩

/-- A record that its destination has not accepted yet (R309): channel, the work tick that produced it, its bytes. -/
structure CaptWait where
  chan : Nat
  work : Nat
  bytes : Bytes
  deriving DecidableEq, Repr

/-- A measured edge in a wavefront input's queue (R303): its instant in 1/64 ns, its polarity, edges absorbed. -/
structure WfEdge where
  t64 : Nat
  rising : Bool
  merged : Nat
  deriving DecidableEq, Repr

/-! ### Publication (spec/08_publication.md) -/

/-- A GOOSE control block as last built on a side (R202, R203, R205): stNum, sqNum, the members as encoded without
TYPE 7, the t field, the interval to the next repeat and the publish tick in which it falls due. -/
structure GoosePubSt where
  stNum : Nat
  sqNum : Nat
  enc : List Bytes
  time : Nat
  interval : Nat
  due : Nat
  deriving DecidableEq, Repr

/-- What a side has accepted for a GOOSE subscription (R208, R209): the numbers last accepted, the frames accepted since
the last seal, ingress in ns of TAI, time allowed to live in ms, TEST, SIMULATION, the t field of the last change, the values, a change not yet sealed. -/
structure GooseAcc where
  stNum : Nat
  sqNum : Nat
  frames : List (Nat × Nat)
  ingress : Nat
  talMs : Nat
  test : Bool
  sim : Bool
  time : DWord
  values : List GooseVal
  fresh : Bool
  deriving DecidableEq, Repr

/-- The sealed state of a GOOSE subscription (R210): `bell` is the tick of the bell that sealed the last change. -/
structure GooseSub where
  stNum : Nat
  sqNum : Nat
  expired : Bool
  test : Bool
  sim : Bool
  bell : Nat
  values : List GooseVal
  deriving DecidableEq, Repr

/-- A frame built in the Collect phase and released at the next T0 (R196): the stall it speaks for, its ports, itself. -/
structure QFrame where
  stall : Nat
  ports : Nat
  out : Output
  deriving DecidableEq, Repr

/-! ### The Arbiter (spec/01_architecture.md, spec/09_sides_and_failover.md, spec/14_field_io_and_interlocks.md) -/

/-- A field channel at the Arbiter (R338 to R345): the accepted input level; edges since the last image with the time
tag of the first; whether an applied image commands the output on and whether it is switched on; diagnostics. -/
structure ArbCh where
  level : Bool
  changed : Bool
  multi : Bool
  tagTick : Nat
  tagUs : Nat
  cmd : Bool
  on : Bool
  broken : Bool
  openLoad : Bool
  short : Bool
  retrying : Bool
  retries : Nat
  discrepant : Bool
  feedback : Bool
  deriving DecidableEq, Repr

def ArbCh.idle : ArbCh := ⟨false, false, false, 0, 0, false, false, false, false, false, false, 0, false, false⟩

/-- A safety instance at the Arbiter (R346 to R352): latched and why; its processor permit as applied; latched by a
discrepancy, and whether both channels have been in the safe position since (R348); the instant, in µs of TAI, at which
its reset input rose, and whether a valid operation has completed since the last image (R351); edges of its pair whose
matching edge has not come, oldest first, as channel and level (R348). -/
structure ArbInst where
  latched : Bool
  cause : Nat
  proc : Bool
  disc : Bool
  safeSeen : Bool
  resetAt : Option Nat
  resetSeen : Bool
  edges : List (Nat × Bool)
  deriving DecidableEq, Repr

def ArbInst.fresh : ArbInst := ⟨false, 0, false, false, false, none, false, []⟩

/-- The Arbiter (R19 to R24, R226 to R229): channels and instances, the last 16 frozen images, what it has seen of each
side's ROLE_CLAIM and DEMOTE, the side it follows, whether the other side's claim to be Active has had its window, the
pulses a hand-over window still covers and the side it followed before it, ticks without an applied image and whether
outputs are off for it (R229), the last pulse of each side as tick and ns, each side's ALIVE line as its level and the
tick of its last change, whether each side counts as silent (R21), and whether an image has been applied in the
tick in progress. -/
structure ArbSt where
  chans : Tbl ArbCh
  insts : Tbl ArbInst
  images : List (Nat × Bytes)
  seenA : Role
  seenB : Role
  demA : Bool
  demB : Bool
  follow : Option SideId
  rival : Bool
  window : Nat
  before : Option SideId
  without : Nat
  noImage : Bool
  pulseA : Nat × Nat
  pulseB : Nat × Nat
  aliveA : Bool × Nat
  aliveB : Bool × Nat
  silentA : Bool
  silentB : Bool
  applied : Bool
  deriving DecidableEq, Repr

def ArbSt.reset : ArbSt :=
  ⟨[], [], [], .out, .out, false, false, none, false, 0, none, 0, false, (0, 0), (0, 0), (false, 0), (false, 0), false, false, false⟩

/-- OUT_DATA of a side (R19, R24): the work tick of the image, the outputs it commands on, the processor permits; the
outputs, and whether the permits, are withheld because their stall mismatches (R58). -/
structure OutData where
  tick : Nat
  cmds : Nat
  permits : Nat
  heldCmds : Nat
  heldPermits : Bool
  deriving DecidableEq, Repr

/-! ### Sides and pairs (spec/09_sides_and_failover.md) -/

/-- The digests of a tick on a side (R55): tick, valid stalls, 64 values. -/
structure DigestSet where
  tick : Nat
  valid : Nat
  values : List Nat
  deriving DecidableEq, Repr

/-- The joining of a side (R231 to R233, R246): the tick it started, the tick j of its final copy, the command to answer,
the tick of the next retry, the tick in which the time guard first held it back, whether it rejoins for trial step only
(R436), whether a rejoin waits until it may start (R468, R476). -/
structure ResyncSt where
  start : Nat
  final : Option Nat
  hdr : Option CmdHdr
  retryAt : Option Nat
  guarded : Option Nat
  trial : Bool
  waits : Bool
  deriving DecidableEq, Repr

def ResyncSt.idle : ResyncSt := ⟨0, none, none, none, none, false, false⟩

/-- What a side holds of roles and of the bell: its DEMOTE line, the last tick it sealed or adopted, the last 16 bells and
digests, the tick it seals itself and the tick it becomes Active (R221, R222), whether it went Out only because of a split
(R237), a demotion due at a T0 with its LAST_CAUSE, its joining, its T0 less the active side's in ns, its self-test
passed, its last migrations with their ticks and the stalls they name (R57), whether its conditioning must restart
(R225) and the last tick counted as uncomputed, whether the loss of the bell has been dealt with (R53), the last tick
whose bell counted as missing (R52), ticks in a row in which none was heard, whether it left step through missing bells alone (R224), the digest echo it last
returned (R56), whether its IN_DATA line is down (R218, R26): it works again from the side's next boot. -/
structure DutySt where
  demote : Bool
  computed : Nat
  bells : List (Nat × Bytes)
  digests : List DigestSet
  sealAt : Option Nat
  promoteAt : Option Nat
  splitOut : Bool
  leaveAt : Option (Nat × Nat)
  resync : ResyncSt
  t0Off : Int
  tested : Bool
  migrated : List (Nat × List Nat)
  gap : Bool
  lostUpto : Nat
  lost : Bool
  missed : Option Nat
  unheard : Nat
  byLoss : Bool
  echo : Bytes
  inDown : Bool
  deriving DecidableEq, Repr

def DutySt.reset : DutySt := ⟨false, 0, [], [], none, none, false, none, ResyncSt.idle, 0, false, [], false, 0, false, none, 0, false, [], false⟩

/-- A mismatch drill in progress (R59): the tick whose digests mismatched, the stalls, the verdicts of sides A and B once
they are exchanged. -/
structure DrillSt where
  tick : Nat
  stalls : Nat
  verdict : Option (DrillFault × DrillFault)
  deriving DecidableEq, Repr

/-- A module's joining of a leading module over the Smirnel Link (R240, R231 to R233, R246): phase as in RESYNC_STATUS,
the tick it started, dirty passes, failed attempts, the tick of the final copy and of the next retry, the tick in which
the time guard first held it back, its T0 less the leading module's in ns, whether the partner's last bell carried this
module's BELL_VER and BUILD_ID (R231). -/
structure PairJoin where
  phase : Nat
  start : Nat
  pass : Nat
  attempt : Nat
  final : Option Nat
  retryAt : Option Nat
  guarded : Option Nat
  t0Off : Int
  fits : Bool
  deriving DecidableEq, Repr

def PairJoin.idle : PairJoin := ⟨0, 0, 0, 0, none, none, none, 0, false⟩

/-- The pair (R240 to R245): role (0 SOLO, 1 LEAD, 2 FOLLOW, 3 ISOLATED, 4 JOINING), ticks since a partner publication,
ticks in a row with fewer than half the witnesses and with a partner publication, ticks in a row with every process port
bad, stopped for it, the tick of the last Announce from the grandmaster witness, the tick of a pair hand-over, whether it
is ISOLATED only by its drift (R247), its joining, the tick of the last bell it adopted over the Smirnel Link. -/
structure PairSt where
  role : Nat
  quiet : Nat
  low : Nat
  seen : Nat
  portsBad : Nat
  egressStop : Bool
  gmHeard : Option Nat
  handoverAt : Option Nat
  drifted : Bool
  join : PairJoin
  bellTick : Nat
  deriving DecidableEq, Repr

def PairSt.reset : PairSt := ⟨0, 0, 0, 0, 0, false, none, none, false, PairJoin.idle, 0⟩

/-! ### Safety telegrams (R353 to R356) -/

/-- What a side had accepted at T0 of the tick in progress (R221): its GOOSE subscriptions, its telegrams. -/
structure HeldAtT0 where
  goose : Tbl GooseAcc
  tele : Tbl (Nat × Bytes)
  deriving DecidableEq, Repr

/-- A copy of a subscribed telegram: its LAN, COUNTER, payload, arrival tick. -/
structure TeleCopy where
  lan : SideId
  counter : Nat
  payload : Bytes
  arrival : Nat
  deriving DecidableEq, Repr

/-- A telegram subscription as sealed: last COUNTER (none before the first since castling), the tick its WATCHDOG
counts from, EXPIRED, the data words. -/
structure TeleSub where
  counter : Option Nat
  start : Nat
  expired : Bool
  data : Bytes
  deriving DecidableEq, Repr

/-! ### CAN (spec/15_can_fd.md) -/

/-- An accepted frame that a side holds for the next bell (R368): its controller, receive time, itself. -/
structure CanHeld where
  ctrl : Nat
  ns : Nat
  frame : CanFrame
  deriving DecidableEq, Repr

/-- A frame as a bell sealed it (R368, R369). -/
structure CanSealed where
  ctrl : Nat
  bell : Nat
  ns : Nat
  frame : CanFrame
  deriving DecidableEq, Repr

/-- A transmission asked of a buffer (R372 to R374): its frame, the retries left. -/
structure CanTx where
  frame : CanFrame
  left : Nat
  deriving DecidableEq, Repr

/-- The controller of a side: its two receive queues and the frame last popped from each (R366), the accepted frames of
either controller not yet listed (R368), SERIAL of each buffer's last image (R372), pending buffers, requests behind a
frame on the bus, the buffer on the bus (R373, R374), requests of this Collect phase, the last frame of each buffer. -/
structure CanSt where
  queues : Tbl (List Bytes)
  heads : Tbl Bytes
  held : List CanHeld
  serials : Tbl Nat
  pend : Tbl CanTx
  next : Tbl CanTx
  bus : Option Nat
  asked : Tbl CanTx
  frames : Tbl Bytes
  deriving DecidableEq, Repr

def CanSt.reset : CanSt := ⟨[], [], [], [], [], [], none, [], []⟩

/-! ### The switch core (spec/10_switch_core.md) -/

/-- A frame in the shared buffer (R261): as the switch sees it, what leaves when the module built it, its ingress port
and the crossbar input it came through (ports from 0), the port it goes to once it has crossed the cross-link (none: the
compute path), its ingress timestamp in 2^−16 ns, the instant in ns at which it reached its egress queue (0 while it
waits at its input), the cells charged and those still to cross, whether it is cut through
and damaged, already counted as deferred (R266), a ring frame on its way to the other side's ring port (R271), a mirror
copy as its session and bytes (R273). -/
structure SwFrame where
  f : EthFrame
  own : Option Output
  inPort : Nat
  via : Nat
  dest : Option Nat
  stamp : Nat
  ready : Nat
  cells : Nat
  left : Nat
  stomped : Bool
  deferred : Bool
  ring : Bool
  mirror : Option (Nat × Bytes)
  deriving DecidableEq, Repr

/-- The switch core of a side: its virtual output queues by (16 × input + output) × 8 + class and the round-robin pointers
of outputs and inputs (R257), the instant up to which the crossbar has run in fifths of a ns, its egress queues by
8 × port + class (ports from 0), the instant at which each port ends its frame in progress, nodes with the instant last
heard and the tick supervision frames last left (R270), ring frames forwarded by MAC and sequence number with their
instant (R271), mirror sessions as SW_MIRROR_SET gave them and their counters (R273), the tick of the last report of R255,
the gate lists in force (R267), the next RCT number of R199, classes whose flows stay on the other path of the cross-link
though their own is back, as path port, class and output port, compute paths that are down and those that come up at the next tick
boundary (R269). -/
structure SwSt where
  voq : Tbl (List SwFrame)
  granted : Tbl Nat
  accepted : Tbl Nat
  crossAt : Nat
  queues : Tbl (List SwFrame)
  busy : Tbl Nat
  nodes : Tbl Nat
  supervised : Option Nat
  ringSeen : Tbl Nat
  mirrors : Tbl Bytes
  mirrorCount : Tbl Nat
  clash : Option Nat
  gates : Tbl Bytes
  rct : Nat
  stay : List (Nat × Nat × Nat)
  down : List Nat
  rising : List Nat
  deriving DecidableEq, Repr

def SwSt.reset : SwSt := ⟨[], [], [], 0, [], [], [], none, [], [], [], none, [], 0, [], [], []⟩

/-- A key slot as the non-volatile store holds it beside its metadata (R445): the wrapped key and the integrity tag. -/
structure SealedKey where
  wrapped : Bytes
  tag : Bytes
  deriving DecidableEq, Repr

/-- The roots of a side (R442, R443): the native root in antifuse memory, the helper data of the PUF root in NOR, the PUF
root once reconstructed; the measurement under which the slots are sealed (R444). -/
structure RootSt where
  native : Option Bytes
  helper : Option Bytes
  puf : Option Bytes
  salt : Bytes
  deriving DecidableEq, Repr

def RootSt.reset : RootSt := ⟨none, none, none, []⟩

/-- The cross-link (R16, R18): lanes that have failed and paths that have recovered (true for port 13), dealt with at the
next tick boundary, spares that do not count as such, lanes that failed with no spare left (coded as XS0_FOR), the link key
agreed at the last training and whether each side found the other's certificate and signature good (R444), whether the
sides' clocks have lost lock (R247). -/
structure XlinkSt where
  failing : List Lane
  restoring : List Bool
  badSpares : List Nat
  lost : List Nat
  link : Option Bytes
  trusted : Bool
  unlocked : Bool
  deriving DecidableEq, Repr

def XlinkSt.reset : XlinkSt := ⟨[], [], [], [], none, false, false⟩

/-! ### Time (spec/11_network_time.md) -/

/-- The servo of a side (R287, R288, R293): its state (0 FREERUN, 1 ACQUIRING, 2 LOCKED, 3 HOLDOVER), integrator,
frequency word, last offset, p clamped in the last update, updates in a row within and beyond 1,000 ns, outliers
discarded in a row, i over the last 64 updates in LOCKED, the tick in which HOLDOVER began. -/
structure ServoSt where
  mode : Nat
  i : Int
  y : Int
  theta : Int
  slewing : Bool
  ok : Nat
  bad : Nat
  out : Nat
  is : List Int
  holdAt : Nat
  syncAt : Nat
  deriving DecidableEq, Repr

def ServoSt.free : ServoSt := ⟨0, 0, 0, 0, false, 0, 0, 0, [], 0, 0⟩

/-- What a side holds of time: its servo, transmit timestamp queues and the entries last popped (R286, 16 bytes each, by
port from 0), sequence numbers of its PTP messages by port and kind, the time shadows (R291; 0 interpreter, 1 PCIe) as
seconds and fraction, the last offset seen on each port (R298), and the residence times kept for the follow-up messages
that a two-step transparent clock forwards (R283): port from 0, the message's key, the time in 2^−16 ns, oldest first;
two-step messages sent whose timestamp the protocol engine has yet to read: port from 0, entry, the message that follows
(R286). -/
structure TimeSt where
  servo : ServoSt
  txts : Tbl (List Bytes)
  txtsHead : Tbl Bytes
  ptpSeq : Tbl Nat
  shadows : Tbl (Nat × Nat)
  portTheta : Tbl Int
  resid : List (Nat × Bytes × Int)
  awaiting : List (Nat × Bytes × PtpOut)
  deriving DecidableEq, Repr

def TimeSt.reset : TimeSt := ⟨ServoSt.free, [], [], [], [], [], [], []⟩

/-- A staged time write (R290): seconds, nanoseconds, the tick number of the second boundary that applies it. -/
structure Staged where
  sec : Nat
  ns : Nat
  boundary : Nat
  deriving DecidableEq, Repr

/-! ### Host link (spec/16_host_link.md) -/

/-- A Porter ring on one side (R382): the descriptors handed over by the host, oldest first; bytes used and the tick of
the first record of the one in progress; completions since it was enabled; an interrupt kept back by the holdoff and
whether the holdoff runs; a Ledger export in progress as area, stall and next SEQ; on a mailbox ring the packets read
and not yet completed, oldest first, as the number their side's Porter gave them and their reply once there is one (R385). -/
structure RingSt where
  descs : List Descriptor
  used : Nat
  first : Nat
  seq : Nat
  irqWaits : Bool
  holdoff : Bool
  export_ : Option (Nat × Nat × Nat)
  flight : List (Nat × Option Bytes)
  deriving DecidableEq, Repr

def RingSt.empty : RingSt := ⟨[], 0, 0, 0, false, false, none, []⟩

/-- The MSI-X structures of a side's function (R377, R378, R380): the table's 32-bit words, four for each vector, and the
vectors whose message waits behind their mask bit. -/
structure MsixSt where
  table : Tbl Nat
  waits : List Nat
  deriving DecidableEq, Repr

/-! ### Health (spec/20_health_and_maintenance.md) -/

/-- Faults and repair on a side: the ticks of corrected errors by page, row or column (R458), the repair log by macro, as
the rows (even) and columns (odd) it replaces (R462), faults found since boot by level 1 to 7 (R464), clusters whose
migration the next Guard phases hold, with an uncorrectable word met (R460, R461), stalls to be resynchronised from the
active side (R57, R59), the tick of the boot, physical clusters retired, the core position already gone of a spare
cluster, the units whose faults were side faults (R238), whether the boot found a part bad that has no spare. -/
structure HealthSt where
  corrected : Tbl (List Nat)
  repair : Tbl (List Nat)
  found : List Nat
  migrating : List (Nat × Bool)
  stale : List Nat
  boot : Nat
  retired : List Nat
  spareIdle : Tbl Nat
  failed : List Nat
  unfit : Bool
  deriving DecidableEq, Repr

def HealthSt.reset : HealthSt := ⟨[], [], [0, 0, 0, 0, 0, 0, 0], [], [], 0, [], [], [], false⟩

/-- A lease (R467): kind, side code, origin, start tick, end of its term if it has one. -/
structure Lease where
  kind : Nat
  side : Nat
  origin : Nat
  start : Nat
  deriving DecidableEq, Repr

end Sys2Proof.Machine
end

