-- ==== Sys2Proof/Machine/RegMap.lean ====
section
/-! DEFINITION. The register space (R5, R413): every register of the spec with its address, its reset value and its
fields. A register is named by its address, with 0x8000_0000 added for a side-local register of side B (R8). Indices
count from 0: element i is the one at base + stride × i. The reset values "image" and "cause" are 0 here and are read
from the side's own fields (R5). -/

namespace Sys2Proof.Machine

/-- One register of the space: where it is kept and what it holds at reset. -/
structure Reg where
  key : Nat
  reset : Nat
  deriving DecidableEq, Repr

/-- A field: its most and least significant bit. -/
structure Fld where
  hi : Nat
  lo : Nat
  deriving DecidableEq, Repr

/-- The access codes of R6. -/
inductive Access where
  | rw
  | ro
  | wo
  | w1c
  | rc
  | ws
  deriving DecidableEq, Repr

/-- A register or an array of registers: base address on side A, stride, count, width in bits, whether mirrored, fields
as (msb, lsb, access). -/
structure RegDesc where
  base : Nat
  stride : Nat
  count : Nat
  width : Nat
  mirrored : Bool
  fields : List (Nat × Nat × Access)
  reset : SideId → Nat → Nat

/-- Address bit 31 selects the side (R8). -/
def sideBase : SideId → Nat
  | .A => 0
  | .B => 0x80000000

namespace Rg
/-! ### spec/01_architecture.md -/
/-- SIDE_SELF, 32 bits, side-local. -/
def sideSelf (sd : SideId) : Reg := ⟨sideBase sd + 0x00000010, sd.code * 2 ^ 2 + sd.code⟩
/-- ARB_TICK_SKEW, 32 bits, mirrored. -/
def arbTickSkew : Reg := ⟨0x000D0008, 0⟩
/-! ### spec/02_tick_and_bell.md -/
/-- TICK_NOW, 64 bits, side-local. -/
def tickNow (sd : SideId) : Reg := ⟨sideBase sd + 0x00010000, 0⟩
/-- TICK_CFG, 32 bits, mirrored. -/
def tickCfg : Reg := ⟨0x00010008, 3 * 2 ^ 16 + 3⟩
/-- BELL_STATUS, 32 bits, side-local. -/
def bellStatus (sd : SideId) : Reg := ⟨sideBase sd + 0x00010010, 0⟩
/-- BELL_ERRS, 32 bits, side-local. -/
def bellErrs (sd : SideId) : Reg := ⟨sideBase sd + 0x00010014, 0⟩
/-- LATE_COUNT, 32 bits, side-local. -/
def lateCount (sd : SideId) : Reg := ⟨sideBase sd + 0x00010018, 0⟩
/-- BELL_DEFER, 32 bits, side-local. -/
def bellDefer (sd : SideId) : Reg := ⟨sideBase sd + 0x0001001C, 0⟩
/-- PHASE_HW, 32 bits, side-local. -/
def phaseHw (sd : SideId) : Reg := ⟨sideBase sd + 0x00010020, 0⟩
/-- PHASE_HW2, 32 bits, side-local. -/
def phaseHw2 (sd : SideId) : Reg := ⟨sideBase sd + 0x00010024, 0⟩
/-- MISMATCH_MAP, 64 bits, side-local. -/
def mismatchMap (sd : SideId) : Reg := ⟨sideBase sd + 0x00010028, 0⟩
/-- DRILL_STATUS, 32 bits, side-local. -/
def drillStatus (sd : SideId) : Reg := ⟨sideBase sd + 0x00010030, 0⟩
/-! ### spec/03_stream_intake.md -/
/-- SV_SUMMARY, 32 bits, side-local. -/
def svSummary (sd : SideId) : Reg := ⟨sideBase sd + 0x00020000, 0⟩
/-- SV_BUDGET, 32 bits, mirrored. -/
def svBudget : Reg := ⟨0x00020004, 0⟩
/-- SV_DISCARD, 32 bits, side-local. -/
def svDiscard (sd : SideId) (i : Nat) : Reg := ⟨sideBase sd + 0x00020040 + 4 * i, 0⟩
/-- STREAM_STATE, 32 bits, side-local. -/
def streamState (sd : SideId) (i : Nat) : Reg := ⟨sideBase sd + 0x00021000 + 16 * i, 0⟩
/-- STREAM_MISS, 32 bits, side-local. -/
def streamMiss (sd : SideId) (i : Nat) : Reg := ⟨sideBase sd + 0x00021004 + 16 * i, 0⟩
/-- STREAM_LATE, 32 bits, side-local. -/
def streamLate (sd : SideId) (i : Nat) : Reg := ⟨sideBase sd + 0x00021008 + 16 * i, 0⟩
/-- STREAM_ERR, 32 bits, side-local. -/
def streamErr (sd : SideId) (i : Nat) : Reg := ⟨sideBase sd + 0x0002100C + 16 * i, 0⟩
/-! ### spec/04_conditioning_chain.md -/
/-- COND_CFG, 32 bits, mirrored. -/
def condCfg : Reg := ⟨0x00030000, 96 * 2 ^ 8⟩
/-- COND_DEMAND, 32 bits, mirrored. -/
def condDemand : Reg := ⟨0x00030004, 0⟩
/-- COND_DEMAND_SH, 32 bits, mirrored. -/
def condDemandSh : Reg := ⟨0x00030008, 0⟩
/-- COND_COUNTS, 32 bits, side-local. -/
def condCounts (sd : SideId) : Reg := ⟨sideBase sd + 0x00030010, 0⟩
/-- COND_STOPPED, 32 bits, side-local. -/
def condStopped (sd : SideId) : Reg := ⟨sideBase sd + 0x00030014, 0⟩
/-- COND_STEPS, 32 bits, side-local. -/
def condSteps (sd : SideId) : Reg := ⟨sideBase sd + 0x00030018, 0⟩
/-- COND_NONFINITE, 32 bits, side-local. -/
def condNonfinite (sd : SideId) : Reg := ⟨sideBase sd + 0x0003001C, 0⟩
/-- CHAIN_STATE, 32 bits, side-local. -/
def chainState (sd : SideId) (i : Nat) : Reg := ⟨sideBase sd + 0x00031000 + 4 * i, 0⟩
/-- GROUP_STATE, 32 bits, side-local. -/
def groupState (sd : SideId) (i : Nat) : Reg := ⟨sideBase sd + 0x00039000 + 4 * i, 1 * 2 ^ 4 + 1⟩
/-! ### spec/05_scan_engines.md -/
/-- SCAN_STATUS, 32 bits, side-local. -/
def scanStatus (sd : SideId) : Reg := ⟨sideBase sd + 0x00040000, 0⟩
/-- SCAN_CFG, 32 bits, mirrored. -/
def scanCfg : Reg := ⟨0x00040004, 480⟩
/-- SCAN_ABORTS, 32 bits, side-local. -/
def scanAborts (sd : SideId) : Reg := ⟨sideBase sd + 0x00040008, 0⟩
/-- SCAN_DISCARDS, 32 bits, side-local. -/
def scanDiscards (sd : SideId) : Reg := ⟨sideBase sd + 0x0004000C, 0⟩
/-- CLUSTER_MAP, 32 bits, side-local. -/
def clusterMap (sd : SideId) (i : Nat) : Reg := ⟨sideBase sd + 0x00040020 + 4 * i, 8 * 2 ^ 4 + i⟩
/-- CORE_LOAD, 32 bits, mirrored. -/
def coreLoad (i : Nat) : Reg := ⟨0x00040100 + 4 * i, 0⟩
/-- CORE_END, 32 bits, side-local. -/
def coreEnd (sd : SideId) (i : Nat) : Reg := ⟨sideBase sd + 0x00040300 + 4 * i, 0⟩
/-- TASK_STATE, 32 bits, side-local. -/
def taskState (sd : SideId) (i : Nat) : Reg := ⟨sideBase sd + 0x00041000 + 16 * i, 0⟩
/-- TASK_USED, 32 bits, side-local. -/
def taskUsed (sd : SideId) (i : Nat) : Reg := ⟨sideBase sd + 0x00041004 + 16 * i, 0⟩
/-- TASK_TALLY, 32 bits, side-local. -/
def taskTally (sd : SideId) (i : Nat) : Reg := ⟨sideBase sd + 0x00041008 + 16 * i, 0⟩
/-! ### spec/07_stalls.md -/
/-- STALL_POOL, 32 bits, mirrored. -/
def stallPool : Reg := ⟨0x00050000, 304 * 2 ^ 16 + 12000⟩
/-- STALL_POOL2, 32 bits, mirrored. -/
def stallPool2 : Reg := ⟨0x00050004, 256 * 2 ^ 17 + 64 * 2 ^ 10 + 512⟩
/-- STALL_POOL3, 32 bits, mirrored. -/
def stallPool3 : Reg := ⟨0x00050008, 60 * 2 ^ 26 + 8192 * 2 ^ 12 + 2048⟩
/-- PASID_REFUSED, 32 bits, side-local. -/
def pasidRefused (sd : SideId) : Reg := ⟨sideBase sd + 0x00050020, 0⟩
/-- CLUSTER_MEM, 32 bits, mirrored. -/
def clusterMem (i : Nat) : Reg := ⟨0x00050040 + 4 * i, 31⟩
/-- STALL_STATE, 32 bits, mirrored. -/
def stallState (i : Nat) : Reg := ⟨0x00050100 + 4 * i, (if i = 0 ∨ i = 63 then 1 else 0)⟩
/-- STALL_GRANT, 32 bits, mirrored. -/
def stallGrant (i : Nat) : Reg := ⟨0x00050200 + 4 * i, 0⟩
/-- STALL_DEMAND, 32 bits, mirrored. -/
def stallDemand (i : Nat) : Reg := ⟨0x00050300 + 4 * i, 0⟩
/-- PASID_MAP, 32 bits, side-local. -/
def pasidMap (sd : SideId) (i : Nat) : Reg := ⟨sideBase sd + 0x00051000 + 4 * i, 0⟩
/-! ### spec/08_publication.md -/
/-- PUB_MAC, 64 bits, mirrored. -/
def pubMac : Reg := ⟨0x00060000, Config.pubMac.toNat⟩
/-- PUB_SEQ, 32 bits, side-local. -/
def pubSeq (sd : SideId) : Reg := ⟨sideBase sd + 0x00060008, 0⟩
/-- PUB_LOAD, 32 bits, mirrored. -/
def pubLoad : Reg := ⟨0x0006000C, 65535⟩
/-- TOLL_DROP, 32 bits, side-local. -/
def tollDrop (sd : SideId) : Reg := ⟨sideBase sd + 0x00060010, 0⟩
/-- GOOSE_DISCARD, 32 bits, side-local. -/
def gooseDiscard (sd : SideId) (i : Nat) : Reg := ⟨sideBase sd + 0x00060040 + 4 * i, 0⟩
/-- GOOSE_PUB_STATE, 64 bits, mirrored. -/
def goosePubState (i : Nat) : Reg := ⟨0x00061000 + 8 * i, 0⟩
/-- GOOSE_SUB_STATE, 64 bits, mirrored. -/
def gooseSubState (i : Nat) : Reg := ⟨0x00062000 + 8 * i, 1 * 2 ^ 3⟩
/-! ### spec/09_sides_and_failover.md -/
/-- SIDE_ROLES, 32 bits, side-local. -/
def sideRoles (sd : SideId) : Reg := ⟨sideBase sd + 0x00070000, 0⟩
/-- SIDE_CFG, 32 bits, mirrored. -/
def sideCfg : Reg := ⟨0x00070004, 0⟩
/-- FAILOVER_COUNTS, 32 bits, side-local. -/
def failoverCounts (sd : SideId) : Reg := ⟨sideBase sd + 0x00070008, 0⟩
/-- RESYNC_STATUS, 32 bits, side-local. -/
def resyncStatus (sd : SideId) : Reg := ⟨sideBase sd + 0x00070010, 0⟩
/-- RESYNC_TIME, 32 bits, side-local. -/
def resyncTime (sd : SideId) : Reg := ⟨sideBase sd + 0x00070014, 0⟩
/-- PAIR_STATUS, 32 bits, side-local. -/
def pairStatus (sd : SideId) : Reg := ⟨sideBase sd + 0x00070020, 0⟩
/-- WITNESS_SEEN, 32 bits, side-local. -/
def witnessSeen (sd : SideId) : Reg := ⟨sideBase sd + 0x00070024, 0⟩
/-- REGION_STATUS, 32 bits, side-local. -/
def regionStatus (sd : SideId) : Reg := ⟨sideBase sd + 0x00070028, 0⟩
/-- REGION_PPM, 32 bits, side-local. -/
def regionPpm (sd : SideId) : Reg := ⟨sideBase sd + 0x0007002C, 0⟩
/-- WITNESS, 32 bits, mirrored. -/
def witness (i : Nat) : Reg := ⟨0x00070040 + 4 * i, 0⟩
/-- PAIR_GM_ID, 64 bits, mirrored. -/
def pairGmId : Reg := ⟨0x00070080, 0⟩
/-- ARB_HANDOVER, 64 bits, mirrored. -/
def arbHandover : Reg := ⟨0x000D0020, 12297829382473034410⟩
/-- ARB_WINDOW, 32 bits, mirrored. -/
def arbWindow : Reg := ⟨0x000D0028, 0⟩
/-! ### spec/10_switch_core.md -/
/-- SW_STATUS, 32 bits, side-local. -/
def swStatus (sd : SideId) : Reg := ⟨sideBase sd + 0x00080000, 0⟩
/-- SW_BUF, 32 bits, side-local. -/
def swBuf (sd : SideId) : Reg := ⟨sideBase sd + 0x00080004, 0⟩
/-- SW_BUF_HW, 32 bits, side-local. -/
def swBufHw (sd : SideId) : Reg := ⟨sideBase sd + 0x00080008, 0⟩
/-- SW_MIN, 32 bits, side-local. -/
def swMin (sd : SideId) : Reg := ⟨sideBase sd + 0x0008000C, 0⟩
/-- XLINK_LANES, 32 bits, side-local. -/
def xlinkLanes (sd : SideId) : Reg := ⟨sideBase sd + 0x00080010, 15 * 2 ^ 8 + 15 * 2 ^ 4⟩
/-- WAKE_ID, 64 bits, side-local. -/
def wakeId (sd : SideId) : Reg := ⟨sideBase sd + 0x00080020, (Config.stationMac sd).toNat⟩
/-- WAKE_CODE, 32 bits, side-local. -/
def wakeCode (sd : SideId) : Reg := ⟨sideBase sd + 0x00080028, 0⟩
/-- WAKE_STATUS, 32 bits, side-local. -/
def wakeStatus (sd : SideId) : Reg := ⟨sideBase sd + 0x0008002C, 0⟩
/-- PORT_STATUS, 32 bits, side-local. -/
def portStatus (sd : SideId) (i : Nat) : Reg := ⟨sideBase sd + 0x00080100 + 4 * i, 0⟩
/-- GATE_STATUS, 32 bits, side-local. -/
def gateStatus (sd : SideId) (i : Nat) : Reg := ⟨sideBase sd + 0x00080180 + 4 * i, 0⟩
/-- MIRROR_STATE, 32 bits, side-local. -/
def mirrorState (sd : SideId) (i : Nat) : Reg := ⟨sideBase sd + 0x000801C0 + 4 * i, 0⟩
/-- PORT_CNT, 64 bits, side-local. -/
def portCnt (sd : SideId) (i : Nat) : Reg := ⟨sideBase sd + 0x00081000 + 8 * i, 0⟩
/-- QUEUE_DROP, 32 bits, side-local. -/
def queueDrop (sd : SideId) (i : Nat) : Reg := ⟨sideBase sd + 0x00082000 + 4 * i, 0⟩
/-! ### spec/11_network_time.md -/
/-- TIME_NS, 32 bits, side-local. -/
def timeNs (sd : SideId) : Reg := ⟨sideBase sd + 0x00090000, 0⟩
/-- TIME_SEC_LO, 32 bits, side-local. -/
def timeSecLo (sd : SideId) : Reg := ⟨sideBase sd + 0x00090004, 0⟩
/-- TIME_SEC_HI, 32 bits, side-local. -/
def timeSecHi (sd : SideId) : Reg := ⟨sideBase sd + 0x00090008, 0⟩
/-- TIME_SET_SEC, 64 bits, mirrored. -/
def timeSetSec : Reg := ⟨0x00090010, 0⟩
/-- TIME_SET_NS, 32 bits, mirrored. -/
def timeSetNs : Reg := ⟨0x00090018, 0⟩
/-- TIME_SET_CTRL, 32 bits, mirrored. -/
def timeSetCtrl : Reg := ⟨0x0009001C, 0⟩
/-- TIME_STATUS, 32 bits, side-local. -/
def timeStatus (sd : SideId) : Reg := ⟨sideBase sd + 0x00090020, 0⟩
/-- TIME_OFFSET, 32 bits, side-local. -/
def timeOffset (sd : SideId) : Reg := ⟨sideBase sd + 0x00090024, 0⟩
/-- TIME_FREQ, 32 bits, side-local. -/
def timeFreq (sd : SideId) : Reg := ⟨sideBase sd + 0x00090028, 0⟩
/-- TIME_UTC, 32 bits, mirrored. -/
def timeUtc : Reg := ⟨0x0009002C, 37⟩
/-- PORT_ASYM, 128 bits, side-local. -/
def portAsym (sd : SideId) (i : Nat) : Reg := ⟨sideBase sd + 0x00090100 + 16 * i, (Config.txInternal sd i 0 0).toNat * 2 ^ 32 + (Config.rxInternal sd i 0 0).toNat⟩
/-- TXTS_STATUS, 32 bits, side-local. -/
def txtsStatus (sd : SideId) (i : Nat) : Reg := ⟨sideBase sd + 0x00090200 + 4 * i, 0⟩
/-- TXTS_ENTRY, 128 bits, side-local. -/
def txtsEntry (sd : SideId) (i : Nat) : Reg := ⟨sideBase sd + 0x00090300 + 16 * i, 0⟩
/-! ### spec/12_acquisition.md -/
/-- ACQ_STATUS, 32 bits, side-local. -/
def acqStatus (sd : SideId) : Reg := ⟨sideBase sd + 0x000A0000, 0⟩
/-- ACQ_DRAM, 32 bits, mirrored. -/
def acqDram : Reg := ⟨0x000A0004, 0⟩
/-- WF_STATUS, 32 bits, side-local. -/
def wfStatus (sd : SideId) (i : Nat) : Reg := ⟨sideBase sd + 0x000A0040 + 4 * i, 0⟩
/-- CAPT_STATE, 32 bits, side-local. -/
def captState (sd : SideId) (i : Nat) : Reg := ⟨sideBase sd + 0x000A1000 + 8 * i, 0⟩
/-- CAPT_SEQ, 32 bits, side-local. -/
def captSeq (sd : SideId) (i : Nat) : Reg := ⟨sideBase sd + 0x000A1004 + 8 * i, 0⟩
/-! ### spec/13_ledger.md -/
/-- LEDGER_SEQ, 64 bits, mirrored. -/
def ledgerSeq : Reg := ⟨0x000B0000, 1⟩
/-- LEDGER_OLDEST, 64 bits, mirrored. -/
def ledgerOldest : Reg := ⟨0x000B0008, 1⟩
/-- LEDGER_SIDE_SEQ, 64 bits, side-local. -/
def ledgerSideSeq (sd : SideId) : Reg := ⟨sideBase sd + 0x000B0010, 1⟩
/-- LEDGER_QUEUE, 32 bits, side-local. -/
def ledgerQueue (sd : SideId) : Reg := ⟨sideBase sd + 0x000B0018, 0⟩
/-- LEDGER_DROPS, 32 bits, side-local. -/
def ledgerDrops (sd : SideId) : Reg := ⟨sideBase sd + 0x000B001C, 0⟩
/-- LEDGER_DROPS2, 32 bits, side-local. -/
def ledgerDrops2 (sd : SideId) : Reg := ⟨sideBase sd + 0x000B0020, 0⟩
/-- LEDGER_REGION, 32 bits, mirrored. -/
def ledgerRegion (i : Nat) : Reg := ⟨0x000B1000 + 4 * i, (if i = 0 then 896 else if i = 63 then 128 else 0)⟩
/-- LEDGER_CODE_DROP, 32 bits, side-local. -/
def ledgerCodeDrop (sd : SideId) (i : Nat) : Reg := ⟨sideBase sd + 0x000B4000 + 4 * i, 0⟩
/-! ### spec/14_field_io_and_interlocks.md -/
/-- FIO_SUPPLY, 32 bits, mirrored. -/
def fioSupply : Reg := ⟨0x000C0000, 0⟩
/-- FIO_LEVEL, 32 bits, mirrored. -/
def fioLevel : Reg := ⟨0x000C0004, 0⟩
/-- FIO_FAULT, 32 bits, mirrored. -/
def fioFault : Reg := ⟨0x000C0008, 0⟩
/-- FIO_CH, 32 bits, mirrored. -/
def fioCh (i : Nat) : Reg := ⟨0x000C0100 + 4 * i, 0⟩
/-- TELE_SEALED, 64 bits, mirrored. -/
def teleSealed (i : Nat) : Reg := ⟨0x000C1000 + 8 * i, 1 * 2 ^ 1⟩
/-- TELE_ERRS, 32 bits, side-local. -/
def teleErrs (sd : SideId) (i : Nat) : Reg := ⟨sideBase sd + 0x000C1400 + 4 * i, 0⟩
/-- SAFE_STATUS, 32 bits, mirrored. -/
def safeStatus : Reg := ⟨0x000D0100, 0⟩
/-- SAFE_CRC, 64 bits, mirrored. -/
def safeCrc : Reg := ⟨0x000D0108, 0⟩
/-- SF_STATE, 32 bits, mirrored. -/
def sfState (i : Nat) : Reg := ⟨0x000D0200 + 4 * i, 0⟩
/-! ### spec/15_can_fd.md -/
/-- CAN_STATUS, 32 bits, side-local. -/
def canStatus (sd : SideId) : Reg := ⟨sideBase sd + 0x000E0000, 3 * 2 ^ 30⟩
/-- CAN_BITTIME, 64 bits, side-local. -/
def canBittime (sd : SideId) : Reg := ⟨sideBase sd + 0x000E0008, 0⟩
/-- CAN_RXQ, 32 bits, side-local. -/
def canRxq (sd : SideId) : Reg := ⟨sideBase sd + 0x000E0010, 0⟩
/-- RXQ_HEAD, 640 bits, side-local. -/
def rxqHead (sd : SideId) (i : Nat) : Reg := ⟨sideBase sd + 0x000E0100 + 128 * i, 0⟩
/-- MB_STATUS, 32 bits, side-local. -/
def mbStatus (sd : SideId) (i : Nat) : Reg := ⟨sideBase sd + 0x000E1000 + 4 * i, 0⟩
/-- MB_FRAME, 640 bits, side-local. -/
def mbFrame (sd : SideId) (i : Nat) : Reg := ⟨sideBase sd + 0x000E2000 + 128 * i, 0⟩
/-! ### spec/16_host_link.md -/
/-- HL_STATUS, 32 bits, side-local. -/
def hlStatus (sd : SideId) : Reg := ⟨sideBase sd + 0x000F0000, 0⟩
/-- HL_ERR, 32 bits, side-local. -/
def hlErr (sd : SideId) : Reg := ⟨sideBase sd + 0x000F0004, 0⟩
/-- HL_ERR_ADDR, 32 bits, side-local. -/
def hlErrAddr (sd : SideId) : Reg := ⟨sideBase sd + 0x000F0008, 0⟩
/-- HL_CTRL, 32 bits, side-local. -/
def hlCtrl (sd : SideId) : Reg := ⟨sideBase sd + 0x000F000C, 0⟩
/-- HL_BYTES, 64 bits, side-local. -/
def hlBytes (sd : SideId) : Reg := ⟨sideBase sd + 0x000F0010, 0⟩
/-- RING_BASE, 64 bits, side-local. -/
def ringBase (sd : SideId) (i : Nat) : Reg := ⟨sideBase sd + 0x000F1000 + 32 * i, 0⟩
/-- RING_CFG, 32 bits, side-local. -/
def ringCfg (sd : SideId) (i : Nat) : Reg := ⟨sideBase sd + 0x000F1008 + 32 * i, 1 * 2 ^ 27⟩
/-- RING_PASID, 32 bits, side-local. -/
def ringPasid (sd : SideId) (i : Nat) : Reg := ⟨sideBase sd + 0x000F100C + 32 * i, 0⟩
/-- RING_PTR, 32 bits, side-local. -/
def ringPtr (sd : SideId) (i : Nat) : Reg := ⟨sideBase sd + 0x000F1010 + 32 * i, 0⟩
/-- RING_DONE, 32 bits, side-local. -/
def ringDone (sd : SideId) (i : Nat) : Reg := ⟨sideBase sd + 0x000F1014 + 32 * i, 0⟩
/-! ### spec/17_command_packets.md -/
/-- MODULE_IDENT, 32 bits, mirrored. -/
def moduleIdent : Reg := ⟨0x00000000, 38416 * 2 ^ 16 + Config.hwRev.toNat * 2 ^ 8⟩
/-- FW_VERSION, 32 bits, side-local. -/
def fwVersion (sd : SideId) : Reg := ⟨sideBase sd + 0x00000004, 0⟩
/-- MODULE_SERIAL, 64 bits, mirrored. -/
def moduleSerial : Reg := ⟨0x00000008, Config.serial.toNat⟩
/-- PROTO_VERSION, 32 bits, side-local. -/
def protoVersion (sd : SideId) : Reg := ⟨sideBase sd + 0x00000014, 1 * 2 ^ 16⟩
/-- CMD_COUNTS, 32 bits, side-local. -/
def cmdCounts (sd : SideId) : Reg := ⟨sideBase sd + 0x00000018, 0⟩
/-- CMD_DROP, 32 bits, side-local. -/
def cmdDrop (sd : SideId) : Reg := ⟨sideBase sd + 0x0000001C, 0⟩
/-- CRIER_STATS, 32 bits, side-local. -/
def crierStats (sd : SideId) : Reg := ⟨sideBase sd + 0x00000020, 0⟩
/-- CMD_PENDING, 32 bits, side-local. -/
def cmdPending (sd : SideId) : Reg := ⟨sideBase sd + 0x00000024, 0⟩
/-! ### spec/18_configuration_and_update.md -/
/-- CFG_STATE, 32 bits, mirrored. -/
def cfgState : Reg := ⟨0x00000040, 0⟩
/-- CFG_STALL_VALID, 64 bits, mirrored. -/
def cfgStallValid : Reg := ⟨0x00000048, 0⟩
/-- CFG_DIGEST, 64 bits, mirrored. -/
def cfgDigest : Reg := ⟨0x00000050, 0⟩
/-- CFG_FAIL, 64 bits, mirrored. -/
def cfgFail : Reg := ⟨0x00000058, 0⟩
/-- UPD_STATE, 32 bits, mirrored. -/
def updState : Reg := ⟨0x00110000, 0⟩
/-- UPD_TIME, 64 bits, mirrored. -/
def updTime : Reg := ⟨0x00110008, 0⟩
/-- NOR_STATE, 32 bits, side-local. -/
def norState (sd : SideId) : Reg := ⟨sideBase sd + 0x00110010, 0⟩
/-- STORED_VER, 32 bits, side-local. -/
def storedVer (sd : SideId) : Reg := ⟨sideBase sd + 0x00110014, 0⟩
/-- UPD_PROGRESS, 32 bits, side-local. -/
def updProgress (sd : SideId) : Reg := ⟨sideBase sd + 0x00110018, 0⟩
/-! ### spec/19_keys.md -/
/-- KEY_STATUS, 32 bits, side-local. -/
def keyStatus (sd : SideId) : Reg := ⟨sideBase sd + 0x00100000, 1 * 2 ^ 27 + 1 * 2 ^ 26⟩
/-- KEY_SIGNER, 32 bits, side-local. -/
def keySigner (sd : SideId) (i : Nat) : Reg := ⟨sideBase sd + 0x00100010 + 4 * i, 0⟩
/-- KEY_SLOT, 64 bits, side-local. -/
def keySlot (sd : SideId) (i : Nat) : Reg := ⟨sideBase sd + 0x00100100 + 16 * i, 0⟩
/-- KEY_STALLS, 64 bits, side-local. -/
def keyStalls (sd : SideId) (i : Nat) : Reg := ⟨sideBase sd + 0x00100108 + 16 * i, 0⟩
/-! ### spec/20_health_and_maintenance.md -/
/-- HEALTH_SPARES, 32 bits, side-local. -/
def healthSpares (sd : SideId) : Reg := ⟨sideBase sd + 0x00120000, 2 * 2 ^ 30 + 10 * 2 ^ 26 + 1 * 2 ^ 25 + 2 * 2 ^ 23 + 1 * 2 ^ 22 + 1024 * 2 ^ 11⟩
/-- HEALTH_FAULTS, 32 bits, side-local. -/
def healthFaults (sd : SideId) : Reg := ⟨sideBase sd + 0x00120004, 0⟩
/-- HEALTH_CORRECTED, 32 bits, side-local. -/
def healthCorrected (sd : SideId) : Reg := ⟨sideBase sd + 0x00120008, 0⟩
/-- HEALTH_TEST, 32 bits, side-local. -/
def healthTest (sd : SideId) : Reg := ⟨sideBase sd + 0x00120010, 1 * 2 ^ 30⟩
/-- FAULT_HEAD, 32 bits, side-local. -/
def faultHead (sd : SideId) : Reg := ⟨sideBase sd + 0x00120014, 0⟩
/-- FAULT_LOG, 64 bits, side-local. -/
def faultLog (sd : SideId) (i : Nat) : Reg := ⟨sideBase sd + 0x00120100 + 8 * i, 0⟩
/-- LEASE, 64 bits, mirrored. -/
def lease (i : Nat) : Reg := ⟨0x00120400 + 8 * i, 0⟩
/-! ### spec/21_power_and_connectors.md -/
/-- POWER_STATUS, 32 bits, side-local. -/
def powerStatus (sd : SideId) : Reg := ⟨sideBase sd + 0x00130000, 2 * 2 ^ 29⟩
/-- POWER_INPUT, 32 bits, side-local. -/
def powerInput (sd : SideId) : Reg := ⟨sideBase sd + 0x00130004, 0⟩
/-- POWER_INPUT2, 32 bits, side-local. -/
def powerInput2 (sd : SideId) : Reg := ⟨sideBase sd + 0x00130008, 0⟩
/-- POWER_EVENTS, 32 bits, side-local. -/
def powerEvents (sd : SideId) : Reg := ⟨sideBase sd + 0x0013000C, 0⟩
/-- RESET_CAUSE, 32 bits, side-local. -/
def resetCause (sd : SideId) : Reg := ⟨sideBase sd + 0x00130010, 0⟩
/-- START_TIMES, 32 bits, side-local. -/
def startTimes (sd : SideId) : Reg := ⟨sideBase sd + 0x00130014, 0⟩
/-- GATE_TIME, 32 bits, side-local. -/
def gateTime (sd : SideId) : Reg := ⟨sideBase sd + 0x00130018, 0⟩
/-- POWER_TEMP, 32 bits, side-local. -/
def powerTemp (sd : SideId) : Reg := ⟨sideBase sd + 0x00130020, 0⟩
/-- AUX_STATUS, 32 bits, side-local. -/
def auxStatus (sd : SideId) : Reg := ⟨sideBase sd + 0x00130024, 0⟩
/-- LED_STATE, 32 bits, side-local. -/
def ledState (sd : SideId) : Reg := ⟨sideBase sd + 0x00130028, 3 * 2 ^ 24⟩
/-- RAIL, 32 bits, side-local. -/
def rail (sd : SideId) (i : Nat) : Reg := ⟨sideBase sd + 0x00130040 + 4 * i, 0⟩

end Rg

namespace Fd

/-! ### spec/01_architecture.md -/
def sideSelfBellSpared : Fld := ⟨11, 11⟩
def sideSelfXlinkUp : Fld := ⟨10, 10⟩
def sideSelfPeerSeen : Fld := ⟨9, 9⟩
def sideSelfArbSeen : Fld := ⟨8, 8⟩
def sideSelfRole : Fld := ⟨5, 3⟩
def sideSelfColour : Fld := ⟨2, 2⟩
def sideSelfSide : Fld := ⟨1, 0⟩
def arbTickSkewSkewFlag : Fld := ⟨16, 16⟩
def arbTickSkewSkew : Fld := ⟨15, 0⟩
/-! ### spec/02_tick_and_bell.md -/
def tickNowTick : Fld := ⟨63, 0⟩
def tickCfgDShadow : Fld := ⟨20, 16⟩
def tickCfgSealDelay : Fld := ⟨4, 0⟩
def bellStatusUnsealed : Fld := ⟨31, 31⟩
def bellStatusDrill : Fld := ⟨30, 30⟩
def bellStatusMissRun : Fld := ⟨29, 28⟩
def bellStatusBellLen : Fld := ⟨27, 14⟩
def bellStatusBellAt : Fld := ⟨13, 0⟩
def bellErrsMissed : Fld := ⟨31, 16⟩
def bellErrsUnsealedTicks : Fld := ⟨15, 0⟩
def lateCountLateSamples : Fld := ⟨31, 0⟩
def bellDeferDeferred : Fld := ⟨31, 16⟩
def bellDeferLateRefused : Fld := ⟨15, 0⟩
def phaseHwCollectEndMax : Fld := ⟨31, 16⟩
def phaseHwCondEndMax : Fld := ⟨15, 0⟩
def phaseHw2ScanEndMax : Fld := ⟨15, 0⟩
def mismatchMapStalls : Fld := ⟨63, 0⟩
def drillStatusActive : Fld := ⟨31, 31⟩
def drillStatusVerdict : Fld := ⟨30, 28⟩
def drillStatusStall : Fld := ⟨27, 22⟩
def drillStatusTickLow : Fld := ⟨21, 0⟩
/-! ### spec/03_stream_intake.md -/
def svSummaryNAbsent : Fld := ⟨26, 16⟩
def svSummaryNPresent : Fld := ⟨10, 0⟩
def svBudgetEqShadow : Fld := ⟨29, 16⟩
def svBudgetEqActive : Fld := ⟨13, 0⟩
def svDiscardCount : Fld := ⟨31, 0⟩
def streamStateMissRun : Fld := ⟨31, 24⟩
def streamStateAnchored : Fld := ⟨19, 19⟩
def streamStateConflictSeen : Fld := ⟨18, 18⟩
def streamStateAuthBad : Fld := ⟨17, 17⟩
def streamStateIdBad : Fld := ⟨16, 16⟩
def streamStateSmpsynch : Fld := ⟨15, 8⟩
def streamStateSync : Fld := ⟨3, 2⟩
def streamStateState : Fld := ⟨1, 0⟩
def streamMissMissed : Fld := ⟨31, 0⟩
def streamLateLate : Fld := ⟨31, 0⟩
def streamErrDiscarded : Fld := ⟨31, 0⟩
/-! ### spec/04_conditioning_chain.md -/
def condCfgNomShadow : Fld := ⟨16, 16⟩
def condCfgN : Fld := ⟨15, 8⟩
def condCfgNominal : Fld := ⟨0, 0⟩
def condDemandActive : Fld := ⟨22, 0⟩
def condDemandShShadow : Fld := ⟨22, 0⟩
def condCountsNRunning : Fld := ⟨29, 16⟩
def condCountsNStarting : Fld := ⟨13, 0⟩
def condStoppedNStopped : Fld := ⟨13, 0⟩
def condStepsSteps : Fld := ⟨31, 0⟩
def condNonfiniteCount : Fld := ⟨31, 0⟩
def chainStateState : Fld := ⟨31, 30⟩
def chainStateCmdStop : Fld := ⟨29, 29⟩
def chainStateCoarse : Fld := ⟨28, 28⟩
def chainStateSettling : Fld := ⟨27, 27⟩
def chainStateFreqClamp : Fld := ⟨26, 26⟩
def chainStateFreqHold : Fld := ⟨25, 25⟩
def chainStateWaiting : Fld := ⟨24, 24⟩
def chainStateFill : Fld := ⟨23, 12⟩
def chainStatePicked : Fld := ⟨11, 8⟩
def chainStateStepTally : Fld := ⟨7, 0⟩
def groupStateFreqClamp : Fld := ⟨5, 5⟩
def groupStateFreqHold : Fld := ⟨4, 4⟩
def groupStateSettling : Fld := ⟨3, 3⟩
def groupStateCoarse : Fld := ⟨2, 2⟩
def groupStateValidity : Fld := ⟨1, 0⟩
/-! ### spec/05_scan_engines.md -/
def scanStatusForceActive : Fld := ⟨31, 31⟩
def scanStatusNForces : Fld := ⟨30, 22⟩
def scanStatusCores : Fld := ⟨21, 15⟩
def scanStatusSpareCores : Fld := ⟨14, 11⟩
def scanStatusClusters : Fld := ⟨10, 7⟩
def scanStatusSpareClusters : Fld := ⟨6, 5⟩
def scanCfgForceMax : Fld := ⟨10, 0⟩
def scanAbortsBudget : Fld := ⟨31, 16⟩
def scanAbortsAccess : Fld := ⟨15, 0⟩
def scanDiscardsWindow : Fld := ⟨31, 16⟩
def scanDiscardsDiscard : Fld := ⟨15, 0⟩
def clusterMapMigrated : Fld := ⟨9, 9⟩
def clusterMapSpareUsed : Fld := ⟨8, 8⟩
def clusterMapIdlePos : Fld := ⟨7, 4⟩
def clusterMapPhys : Fld := ⟨3, 0⟩
def coreLoadDeclMax : Fld := ⟨17, 0⟩
def coreEndEndMax : Fld := ⟨15, 0⟩
def taskStateState : Fld := ⟨31, 30⟩
def taskStateLastAbort : Fld := ⟨29, 27⟩
def taskStateSecTally : Fld := ⟨26, 19⟩
def taskUsedUsedMax : Fld := ⟨17, 0⟩
def taskTallyAborts : Fld := ⟨31, 0⟩
/-! ### spec/07_stalls.md -/
def stallPoolMemFree : Fld := ⟨24, 16⟩
def stallPoolCycFree : Fld := ⟨13, 0⟩
def stallPool2CaptFree : Fld := ⟨25, 17⟩
def stallPool2SvFree : Fld := ⟨16, 10⟩
def stallPool2GooseFree : Fld := ⟨9, 0⟩
def stallPool3RingsFree : Fld := ⟨31, 26⟩
def stallPool3EqFree : Fld := ⟨25, 12⟩
def stallPool3LedgerFree : Fld := ⟨11, 0⟩
def pasidRefusedCount : Fld := ⟨31, 0⟩
def clusterMemReserveUsed : Fld := ⟨12, 8⟩
def clusterMemFree : Fld := ⟨4, 0⟩
def stallStateAutoResets : Fld := ⟨31, 24⟩
def stallStateFaultLimit : Fld := ⟨23, 16⟩
def stallStateShadowDiff : Fld := ⟨7, 7⟩
def stallStateState : Fld := ⟨2, 0⟩
def stallGrantMem : Fld := ⟨24, 16⟩
def stallGrantCycles : Fld := ⟨13, 0⟩
def stallDemandDemand : Fld := ⟨23, 0⟩
def pasidMapValid : Fld := ⟨31, 31⟩
def pasidMapStall : Fld := ⟨25, 20⟩
def pasidMapPasid : Fld := ⟨19, 0⟩
/-! ### spec/08_publication.md -/
def pubMacMac : Fld := ⟨47, 0⟩
def pubSeqNext : Fld := ⟨15, 0⟩
def pubLoadMaxFrames : Fld := ⟨31, 16⟩
def pubLoadReuseTicks : Fld := ⟨15, 0⟩
def tollDropCount : Fld := ⟨31, 0⟩
def gooseDiscardCount : Fld := ⟨31, 0⟩
def goosePubStateStnum : Fld := ⟨63, 32⟩
def goosePubStateSqnum : Fld := ⟨31, 0⟩
def gooseSubStateStnum : Fld := ⟨63, 32⟩
def gooseSubStateNone : Fld := ⟨3, 3⟩
def gooseSubStateSim : Fld := ⟨2, 2⟩
def gooseSubStateTest : Fld := ⟨1, 1⟩
def gooseSubStateExpired : Fld := ⟨0, 0⟩
/-! ### spec/09_sides_and_failover.md -/
def sideRolesLastCause : Fld := ⟨11, 8⟩
def sideRolesSelfSealed : Fld := ⟨7, 7⟩
def sideRolesHeld : Fld := ⟨6, 6⟩
def sideRolesRoleB : Fld := ⟨3, 2⟩
def sideRolesRoleA : Fld := ⟨1, 0⟩
def sideCfgColourNext : Fld := ⟨8, 8⟩
def sideCfgPairMode : Fld := ⟨5, 4⟩
def sideCfgModuleColour : Fld := ⟨3, 3⟩
def failoverCountsPromotions : Fld := ⟨31, 24⟩
def failoverCountsDemotions : Fld := ⟨23, 16⟩
def failoverCountsResyncs : Fld := ⟨15, 8⟩
def failoverCountsUncomputed : Fld := ⟨7, 0⟩
def resyncStatusPhase : Fld := ⟨31, 30⟩
def resyncStatusAttempt : Fld := ⟨29, 28⟩
def resyncStatusPass : Fld := ⟨27, 23⟩
def resyncStatusDirtyKib : Fld := ⟨22, 0⟩
def resyncTimeLastTicks : Fld := ⟨15, 0⟩
def pairStatusWConf : Fld := ⟨31, 28⟩
def pairStatusWSeen : Fld := ⟨27, 24⟩
def pairStatusQuiet : Fld := ⟨23, 16⟩
def pairStatusSmirnelA : Fld := ⟨7, 7⟩
def pairStatusSmirnelB : Fld := ⟨6, 6⟩
def pairStatusEgressOk : Fld := ⟨5, 5⟩
def pairStatusPairRole : Fld := ⟨2, 0⟩
def witnessSeenSeen : Fld := ⟨14, 0⟩
def regionStatusWarn : Fld := ⟨31, 31⟩
def regionStatusTempDiff : Fld := ⟨23, 16⟩
def regionStatusRailDev : Fld := ⟨15, 8⟩
def regionStatusSlaveErr : Fld := ⟨7, 0⟩
def regionPpmPpm : Fld := ⟨15, 0⟩
def witnessValid : Fld := ⟨31, 31⟩
def witnessKind : Fld := ⟨30, 30⟩
def witnessSlot : Fld := ⟨9, 0⟩
def pairGmIdClockId : Fld := ⟨63, 0⟩
def arbHandoverRules : Fld := ⟨63, 0⟩
def arbWindowOpen : Fld := ⟨31, 31⟩
def arbWindowNoImage : Fld := ⟨30, 30⟩
def arbWindowHoldB : Fld := ⟨17, 17⟩
def arbWindowHoldA : Fld := ⟨16, 16⟩
def arbWindowWindows : Fld := ⟨15, 0⟩
/-! ### spec/10_switch_core.md -/
def swStatusLinkMap : Fld := ⟨31, 16⟩
def swStatusPrpOn : Fld := ⟨15, 15⟩
def swStatusHsrOn : Fld := ⟨14, 14⟩
def swStatusHsrOpen : Fld := ⟨13, 13⟩
def swStatusPubMacClash : Fld := ⟨12, 12⟩
def swBufCellsUsed : Fld := ⟨17, 0⟩
def swBufHwHighWater : Fld := ⟨17, 0⟩
def swMinMinSum : Fld := ⟨17, 0⟩
def xlinkLanesPrbsErrs : Fld := ⟨31, 16⟩
def xlinkLanesXs1For : Fld := ⟨11, 8⟩
def xlinkLanesXs0For : Fld := ⟨7, 4⟩
def xlinkLanesBellOn13 : Fld := ⟨3, 3⟩
def xlinkLanesBellOn12 : Fld := ⟨2, 2⟩
def xlinkLanesPath13Up : Fld := ⟨1, 1⟩
def xlinkLanesPath12Up : Fld := ⟨0, 0⟩
def wakeIdId : Fld := ⟨47, 0⟩
def wakeCodeCode : Fld := ⟨31, 0⟩
def wakeStatusLocked : Fld := ⟨31, 31⟩
def wakeStatusBadCodes : Fld := ⟨15, 8⟩
def wakeStatusWokeHere : Fld := ⟨0, 0⟩
def portStatusLink : Fld := ⟨31, 31⟩
def portStatusLocalFault : Fld := ⟨30, 30⟩
def portStatusRemoteFault : Fld := ⟨29, 29⟩
def portStatusPcsLock : Fld := ⟨28, 28⟩
def portStatusFecLock : Fld := ⟨27, 27⟩
def portStatusAdminDown : Fld := ⟨26, 26⟩
def portStatusSpeed : Fld := ⟨25, 23⟩
def gateStatusEntry : Fld := ⟨31, 26⟩
def gateStatusLast : Fld := ⟨25, 20⟩
def gateStatusGateDeferred : Fld := ⟨15, 0⟩
def mirrorStateActive : Fld := ⟨31, 31⟩
def mirrorStateToStall : Fld := ⟨30, 30⟩
def mirrorStateStall : Fld := ⟨29, 24⟩
def mirrorStateRing : Fld := ⟨23, 18⟩
def mirrorStateDir : Fld := ⟨17, 16⟩
def portCntCount : Fld := ⟨63, 0⟩
def queueDropCount : Fld := ⟨31, 0⟩
/-! ### spec/11_network_time.md -/
def timeNsNs : Fld := ⟨31, 0⟩
def timeSecLoSecLo : Fld := ⟨31, 0⟩
def timeSecHiFrac : Fld := ⟨31, 16⟩
def timeSecHiSecHi : Fld := ⟨15, 0⟩
def timeSetSecSec : Fld := ⟨47, 0⟩
def timeSetNsNs : Fld := ⟨29, 0⟩
def timeSetCtrlRefused : Fld := ⟨3, 3⟩
def timeSetCtrlCancel : Fld := ⟨2, 2⟩
def timeSetCtrlPending : Fld := ⟨1, 1⟩
def timeSetCtrlGo : Fld := ⟨0, 0⟩
def timeStatusOutliers : Fld := ⟨31, 16⟩
def timeStatusSlavePort : Fld := ⟨10, 6⟩
def timeStatusHoldLong : Fld := ⟨5, 5⟩
def timeStatusSlewing : Fld := ⟨4, 4⟩
def timeStatusState : Fld := ⟨2, 0⟩
def timeOffsetTheta : Fld := ⟨31, 0⟩
def timeFreqY : Fld := ⟨31, 0⟩
def timeUtcLeap61 : Fld := ⟨9, 9⟩
def timeUtcLeap59 : Fld := ⟨8, 8⟩
def timeUtcOffset : Fld := ⟨7, 0⟩
def portAsymTxExt : Fld := ⟨127, 96⟩
def portAsymRxExt : Fld := ⟨95, 64⟩
def portAsymTxInt : Fld := ⟨63, 32⟩
def portAsymRxInt : Fld := ⟨31, 0⟩
def txtsStatusOverflow : Fld := ⟨31, 31⟩
def txtsStatusDropped : Fld := ⟨15, 5⟩
def txtsStatusCount : Fld := ⟨4, 0⟩
def txtsEntryNs : Fld := ⟨127, 96⟩
def txtsEntryFrac : Fld := ⟨95, 80⟩
def txtsEntrySecHi : Fld := ⟨79, 64⟩
def txtsEntrySecLo : Fld := ⟨63, 32⟩
def txtsEntrySeqId : Fld := ⟨31, 16⟩
def txtsEntryValid : Fld := ⟨15, 15⟩
def txtsEntryMsgType : Fld := ⟨11, 8⟩
def txtsEntryDomain : Fld := ⟨7, 0⟩
/-! ### spec/12_acquisition.md -/
def acqStatusNOverflowed : Fld := ⟨24, 16⟩
def acqStatusNRunning : Fld := ⟨8, 0⟩
def acqDramMib : Fld := ⟨14, 0⟩
def wfStatusLost : Fld := ⟨31, 16⟩
def wfStatusMerged : Fld := ⟨15, 0⟩
def captStateState : Fld := ⟨31, 29⟩
def captSeqSeq : Fld := ⟨31, 0⟩
/-! ### spec/13_ledger.md -/
def ledgerSeqNext : Fld := ⟨63, 0⟩
def ledgerOldestOldest : Fld := ⟨63, 0⟩
def ledgerSideSeqNext : Fld := ⟨63, 0⟩
def ledgerQueueSideOcc : Fld := ⟨31, 22⟩
def ledgerQueueHighWater : Fld := ⟨21, 12⟩
def ledgerQueueModOcc : Fld := ⟨9, 0⟩
def ledgerDropsRate : Fld := ⟨31, 16⟩
def ledgerDropsQueue : Fld := ⟨15, 0⟩
def ledgerDrops2Quota : Fld := ⟨31, 16⟩
def ledgerDrops2SideDrop : Fld := ⟨15, 0⟩
def ledgerRegionWrapped : Fld := ⟨31, 31⟩
def ledgerRegionSegments : Fld := ⟨11, 0⟩
def ledgerCodeDropRate : Fld := ⟨31, 16⟩
def ledgerCodeDropOther : Fld := ⟨15, 0⟩
/-! ### spec/14_field_io_and_interlocks.md -/
def fioSupplyVoltage : Fld := ⟨31, 16⟩
def fioSupplyState : Fld := ⟨1, 0⟩
def fioLevelLevel : Fld := ⟨31, 0⟩
def fioFaultFault : Fld := ⟨31, 0⟩
def fioChMode : Fld := ⟨31, 29⟩
def fioChSafety : Fld := ⟨28, 28⟩
def fioChLevel : Fld := ⟨27, 27⟩
def fioChBroken : Fld := ⟨26, 26⟩
def fioChOpenLoad : Fld := ⟨25, 25⟩
def fioChShort : Fld := ⟨24, 24⟩
def fioChRetries : Fld := ⟨23, 22⟩
def fioChDiscrepant : Fld := ⟨21, 21⟩
def fioChFeedback : Fld := ⟨20, 20⟩
def fioChCurrent : Fld := ⟨19, 8⟩
def teleSealedCounter : Fld := ⟨63, 32⟩
def teleSealedNone : Fld := ⟨1, 1⟩
def teleSealedExpired : Fld := ⟨0, 0⟩
def teleErrsMissing : Fld := ⟨31, 16⟩
def teleErrsMismatch : Fld := ⟨15, 8⟩
def teleErrsOld : Fld := ⟨7, 0⟩
def safeStatusUnlocked : Fld := ⟨31, 31⟩
def safeStatusPwSet : Fld := ⟨30, 30⟩
def safeStatusLockout : Fld := ⟨29, 29⟩
def safeStatusFails : Fld := ⟨23, 16⟩
def safeStatusNSafe : Fld := ⟨5, 0⟩
def safeCrcShadow : Fld := ⟨63, 32⟩
def safeCrcActive : Fld := ⟨31, 0⟩
def sfStateFunc : Fld := ⟨31, 29⟩
def sfStateHwPermit : Fld := ⟨28, 28⟩
def sfStateProcPermit : Fld := ⟨27, 27⟩
def sfStateLatched : Fld := ⟨26, 26⟩
def sfStateResetReady : Fld := ⟨25, 25⟩
def sfStateCause : Fld := ⟨24, 21⟩
/-! ### spec/15_can_fd.md -/
def canStatusState : Fld := ⟨31, 30⟩
def canStatusBusOffSeen : Fld := ⟨29, 29⟩
def canStatusRec : Fld := ⟨23, 16⟩
def canStatusTec : Fld := ⟨15, 8⟩
def canBittimeTdcOn : Fld := ⟨63, 63⟩
def canBittimeTdcOffset : Fld := ⟨56, 50⟩
def canBittimeDBrp : Fld := ⟨49, 45⟩
def canBittimeDSjw : Fld := ⟨44, 41⟩
def canBittimeDTseg2 : Fld := ⟨40, 37⟩
def canBittimeDTseg1 : Fld := ⟨36, 32⟩
def canBittimeNBrp : Fld := ⟨30, 22⟩
def canBittimeNSjw : Fld := ⟨21, 15⟩
def canBittimeNTseg2 : Fld := ⟨14, 8⟩
def canBittimeNTseg1 : Fld := ⟨7, 0⟩
def canRxqQ0Occ : Fld := ⟨31, 25⟩
def canRxqQ1Occ : Fld := ⟨24, 19⟩
def canRxqQ0Ovf : Fld := ⟨18, 18⟩
def canRxqQ1Ovf : Fld := ⟨17, 17⟩
def canRxqNoMatch : Fld := ⟨15, 0⟩
def rxqHeadRecord : Fld := ⟨639, 0⟩
def mbStatusMode : Fld := ⟨31, 30⟩
def mbStatusNd : Fld := ⟨29, 29⟩
def mbStatusPending : Fld := ⟨28, 28⟩
def mbStatusAbandoned : Fld := ⟨27, 27⟩
def mbStatusRetry : Fld := ⟨26, 23⟩
def mbStatusOwner : Fld := ⟨21, 16⟩
def mbStatusTally : Fld := ⟨15, 8⟩
def mbStatusAbandons : Fld := ⟨7, 0⟩
def mbFrameRecord : Fld := ⟨639, 0⟩
/-! ### spec/16_host_link.md -/
def hlStatusLinkUp : Fld := ⟨31, 31⟩
def hlStatusGen : Fld := ⟨30, 28⟩
def hlStatusWidth : Fld := ⟨27, 25⟩
def hlStatusBusMaster : Fld := ⟨24, 24⟩
def hlStatusFlrCount : Fld := ⟨23, 16⟩
def hlErrValid : Fld := ⟨31, 31⟩
def hlErrStatus : Fld := ⟨15, 0⟩
def hlErrAddrOffset : Fld := ⟨31, 0⟩
def hlCtrlCrierOn : Fld := ⟨2, 2⟩
def hlCtrlCrierRing : Fld := ⟨1, 0⟩
def hlBytesBytes : Fld := ⟨63, 0⟩
def ringBaseBase : Fld := ⟨63, 0⟩
def ringCfgEnabled : Fld := ⟨31, 31⟩
def ringCfgErr : Fld := ⟨30, 30⟩
def ringCfgErrCause : Fld := ⟨29, 28⟩
def ringCfgResetDone : Fld := ⟨27, 27⟩
def ringCfgReset : Fld := ⟨26, 26⟩
def ringCfgKind : Fld := ⟨25, 24⟩
def ringCfgOwner : Fld := ⟨23, 18⟩
def ringCfgSizeLog2 : Fld := ⟨17, 13⟩
def ringCfgHoldoff : Fld := ⟨9, 0⟩
def ringPasidPasid : Fld := ⟨19, 0⟩
def ringPtrHead : Fld := ⟨31, 16⟩
def ringPtrTail : Fld := ⟨15, 0⟩
def ringDoneCount : Fld := ⟨31, 0⟩
/-! ### spec/17_command_packets.md -/
def moduleIdentProduct : Fld := ⟨31, 16⟩
def moduleIdentHwRev : Fld := ⟨15, 8⟩
def fwVersionMajor : Fld := ⟨31, 24⟩
def fwVersionMinor : Fld := ⟨23, 16⟩
def fwVersionPatch : Fld := ⟨15, 8⟩
def moduleSerialSerial : Fld := ⟨63, 0⟩
def protoVersionCmdVer : Fld := ⟨23, 16⟩
def protoVersionBellVer : Fld := ⟨15, 8⟩
def protoVersionStateFmt : Fld := ⟨7, 0⟩
def cmdCountsAccepted : Fld := ⟨31, 16⟩
def cmdCountsRefused : Fld := ⟨15, 0⟩
def cmdDropDiscarded : Fld := ⟨31, 16⟩
def cmdDropQueueFull : Fld := ⟨15, 0⟩
def crierStatsSent : Fld := ⟨31, 16⟩
def crierStatsDropped : Fld := ⟨15, 0⟩
def cmdPendingPending : Fld := ⟨8, 0⟩
/-! ### spec/18_configuration_and_update.md -/
def cfgStateModuleValid : Fld := ⟨31, 31⟩
def cfgStateValidating : Fld := ⟨30, 30⟩
def cfgStatePending : Fld := ⟨29, 29⟩
def cfgStateCfgFmt : Fld := ⟨23, 16⟩
def cfgStateCastlings : Fld := ⟨15, 0⟩
def cfgStallValidValid : Fld := ⟨63, 0⟩
def cfgDigestActive : Fld := ⟨63, 0⟩
def cfgFailStatus : Fld := ⟨63, 48⟩
def cfgFailType : Fld := ⟨47, 40⟩
def cfgFailStall : Fld := ⟨39, 32⟩
def cfgFailOffset : Fld := ⟨31, 0⟩
def updStatePhase : Fld := ⟨31, 28⟩
def updStateFirstSide : Fld := ⟨27, 27⟩
def updStateOutage : Fld := ⟨26, 26⟩
def updStateOutageOk : Fld := ⟨25, 25⟩
def updStatePair : Fld := ⟨24, 24⟩
def updStateWindowLeft : Fld := ⟨15, 0⟩
def updTimeSecondDelay : Fld := ⟨63, 48⟩
def updTimeS : Fld := ⟨47, 0⟩
def norStateState : Fld := ⟨31, 29⟩
def norStateCrcErrs : Fld := ⟨15, 0⟩
def storedVerVersion : Fld := ⟨31, 8⟩
def storedVerBellVer : Fld := ⟨7, 0⟩
def updProgressKibWritten : Fld := ⟨31, 16⟩
def updProgressTrialKticks : Fld := ⟨15, 0⟩
/-! ### spec/19_keys.md -/
def keyStatusRoot : Fld := ⟨31, 30⟩
def keyStatusPuf : Fld := ⟨29, 28⟩
def keyStatusSetupKey : Fld := ⟨27, 27⟩
def keyStatusMasking : Fld := ⟨26, 26⟩
def keyStatusForward : Fld := ⟨25, 25⟩
def keyStatusBad : Fld := ⟨14, 8⟩
def keyStatusUsed : Fld := ⟨6, 0⟩
def keySignerPresent : Fld := ⟨31, 31⟩
def keySignerRevoked : Fld := ⟨30, 30⟩
def keySignerRunning : Fld := ⟨29, 29⟩
def keySlotValid : Fld := ⟨63, 63⟩
def keySlotBad : Fld := ⟨62, 62⟩
def keySlotForward : Fld := ⟨61, 61⟩
def keySlotRootSel : Fld := ⟨60, 60⟩
def keySlotPurpose : Fld := ⟨59, 56⟩
def keySlotOps : Fld := ⟨55, 48⟩
def keySlotLength : Fld := ⟨47, 40⟩
def keySlotGeneration : Fld := ⟨31, 0⟩
def keyStallsStalls : Fld := ⟨63, 0⟩
/-! ### spec/20_health_and_maintenance.md -/
def healthSparesSpareClusters : Fld := ⟨31, 30⟩
def healthSparesSpareCores : Fld := ⟨29, 26⟩
def healthSparesSpareLaneGroup : Fld := ⟨25, 25⟩
def healthSparesSpareXlanes : Fld := ⟨24, 23⟩
def healthSparesSpareMgmt : Fld := ⟨22, 22⟩
def healthSparesSpareSectors : Fld := ⟨21, 11⟩
def healthSparesMacrosExhausted : Fld := ⟨10, 0⟩
def healthFaultsLevel2 : Fld := ⟨31, 24⟩
def healthFaultsLevel3 : Fld := ⟨23, 16⟩
def healthFaultsLevel4 : Fld := ⟨15, 8⟩
def healthFaultsUncorrectable : Fld := ⟨7, 0⟩
def healthCorrectedCount : Fld := ⟨31, 0⟩
def healthTestDeepTest : Fld := ⟨31, 31⟩
def healthTestRotationOn : Fld := ⟨30, 30⟩
def healthTestLaneGroup : Fld := ⟨29, 24⟩
def healthTestPatrolPct : Fld := ⟨23, 16⟩
def healthTestSparePasses : Fld := ⟨15, 0⟩
def faultHeadTotal : Fld := ⟨31, 16⟩
def faultHeadNewest : Fld := ⟨5, 0⟩
def faultLogPart : Fld := ⟨63, 32⟩
def faultLogWord : Fld := ⟨31, 0⟩
def leaseOrigin : Fld := ⟨63, 32⟩
def leaseKind : Fld := ⟨31, 28⟩
def leaseSide : Fld := ⟨27, 26⟩
def leaseStartLow : Fld := ⟨25, 0⟩
/-! ### spec/21_power_and_connectors.md -/
def powerStatusState : Fld := ⟨31, 29⟩
def powerStatusPfWarn : Fld := ⟨28, 28⟩
def powerStatusHoldupOk : Fld := ⟨27, 27⟩
def powerStatusHoldupLow : Fld := ⟨26, 26⟩
def powerStatusGateOpen : Fld := ⟨25, 25⟩
def powerStatusGateManual : Fld := ⟨24, 24⟩
def powerStatusRtcLost : Fld := ⟨23, 23⟩
def powerStatusAuxOn : Fld := ⟨22, 22⟩
def powerStatusAuxOvercurrent : Fld := ⟨21, 21⟩
def powerStatusTempWarn : Fld := ⟨20, 20⟩
def powerInputVoltage : Fld := ⟨31, 16⟩
def powerInputCurrent : Fld := ⟨15, 0⟩
def powerInput2HoldupMj : Fld := ⟨31, 16⟩
def powerInput2Power : Fld := ⟨15, 0⟩
def powerEventsDips : Fld := ⟨31, 16⟩
def powerEventsStops : Fld := ⟨15, 0⟩
def resetCauseBootCount : Fld := ⟨31, 16⟩
def resetCauseCause : Fld := ⟨3, 0⟩
def startTimesLoaderMs : Fld := ⟨31, 16⟩
def startTimesSelftestMs : Fld := ⟨15, 0⟩
def gateTimeGateMs : Fld := ⟨31, 0⟩
def powerTempDie : Fld := ⟨31, 16⟩
def powerTempPlate : Fld := ⟨15, 0⟩
def auxStatusCurrent : Fld := ⟨15, 0⟩
def ledStateRun : Fld := ⟨27, 24⟩
def ledStateSideA : Fld := ⟨23, 20⟩
def ledStateSideB : Fld := ⟨19, 16⟩
def ledStateSync : Fld := ⟨15, 12⟩
def ledStateForced : Fld := ⟨11, 8⟩
def ledStateSafe : Fld := ⟨7, 4⟩
def ledStateFault : Fld := ⟨3, 0⟩
def railVoltage : Fld := ⟨31, 16⟩
def railDev : Fld := ⟨15, 0⟩

end Fd

/-- The registers of spec/01_architecture.md. -/
def regs01 : List RegDesc :=
  [
    ⟨0x00000010, 4, 1, 32, false, [(31, 12, .ro), (11, 11, .ro), (10, 10, .ro), (9, 9, .ro), (8, 8, .ro), (7, 6, .ro), (5, 3, .ro), (2, 2, .ro), (1, 0, .ro)],
      fun sd _ => (Rg.sideSelf sd).reset⟩,
    ⟨0x000D0008, 4, 1, 32, true, [(31, 17, .ro), (16, 16, .w1c), (15, 0, .ro)],
      fun _ _ => (Rg.arbTickSkew).reset⟩
  ]

/-- The registers of spec/02_tick_and_bell.md. -/
def regs02 : List RegDesc :=
  [
    ⟨0x00010000, 8, 1, 64, false, [(63, 0, .ro)],
      fun sd _ => (Rg.tickNow sd).reset⟩,
    ⟨0x00010008, 4, 1, 32, true, [(31, 21, .ro), (20, 16, .ro), (15, 5, .ro), (4, 0, .ro)],
      fun _ _ => (Rg.tickCfg).reset⟩,
    ⟨0x00010010, 4, 1, 32, false, [(31, 31, .ro), (30, 30, .ro), (29, 28, .ro), (27, 14, .ro), (13, 0, .ro)],
      fun sd _ => (Rg.bellStatus sd).reset⟩,
    ⟨0x00010014, 4, 1, 32, false, [(31, 16, .rc), (15, 0, .rc)],
      fun sd _ => (Rg.bellErrs sd).reset⟩,
    ⟨0x00010018, 4, 1, 32, false, [(31, 0, .rc)],
      fun sd _ => (Rg.lateCount sd).reset⟩,
    ⟨0x0001001C, 4, 1, 32, false, [(31, 16, .rc), (15, 0, .rc)],
      fun sd _ => (Rg.bellDefer sd).reset⟩,
    ⟨0x00010020, 4, 1, 32, false, [(31, 16, .rc), (15, 0, .rc)],
      fun sd _ => (Rg.phaseHw sd).reset⟩,
    ⟨0x00010024, 4, 1, 32, false, [(31, 16, .ro), (15, 0, .rc)],
      fun sd _ => (Rg.phaseHw2 sd).reset⟩,
    ⟨0x00010028, 8, 1, 64, false, [(63, 0, .w1c)],
      fun sd _ => (Rg.mismatchMap sd).reset⟩,
    ⟨0x00010030, 4, 1, 32, false, [(31, 31, .ro), (30, 28, .ro), (27, 22, .ro), (21, 0, .ro)],
      fun sd _ => (Rg.drillStatus sd).reset⟩
  ]

/-- The registers of spec/03_stream_intake.md. -/
def regs03 : List RegDesc :=
  [
    ⟨0x00020000, 4, 1, 32, false, [(31, 27, .ro), (26, 16, .ro), (15, 11, .ro), (10, 0, .ro)],
      fun sd _ => (Rg.svSummary sd).reset⟩,
    ⟨0x00020004, 4, 1, 32, true, [(31, 30, .ro), (29, 16, .ro), (15, 14, .ro), (13, 0, .ro)],
      fun _ _ => (Rg.svBudget).reset⟩,
    ⟨0x00020040, 4, 15, 32, false, [(31, 0, .rc)],
      fun sd i => (Rg.svDiscard sd i).reset⟩,
    ⟨0x00021000, 16, 1024, 32, false, [(31, 24, .ro), (23, 20, .ro), (19, 19, .ro), (18, 18, .w1c), (17, 17, .w1c), (16, 16, .w1c), (15, 8, .ro), (7, 4, .ro), (3, 2, .ro), (1, 0, .ro)],
      fun sd i => (Rg.streamState sd i).reset⟩,
    ⟨0x00021004, 16, 1024, 32, false, [(31, 0, .rc)],
      fun sd i => (Rg.streamMiss sd i).reset⟩,
    ⟨0x00021008, 16, 1024, 32, false, [(31, 0, .rc)],
      fun sd i => (Rg.streamLate sd i).reset⟩,
    ⟨0x0002100C, 16, 1024, 32, false, [(31, 0, .rc)],
      fun sd i => (Rg.streamErr sd i).reset⟩
  ]

/-- The registers of spec/04_conditioning_chain.md. -/
def regs04 : List RegDesc :=
  [
    ⟨0x00030000, 4, 1, 32, true, [(31, 17, .ro), (16, 16, .ro), (15, 8, .ro), (7, 1, .ro), (0, 0, .ro)],
      fun _ _ => (Rg.condCfg).reset⟩,
    ⟨0x00030004, 4, 1, 32, true, [(31, 23, .ro), (22, 0, .ro)],
      fun _ _ => (Rg.condDemand).reset⟩,
    ⟨0x00030008, 4, 1, 32, true, [(31, 23, .ro), (22, 0, .ro)],
      fun _ _ => (Rg.condDemandSh).reset⟩,
    ⟨0x00030010, 4, 1, 32, false, [(31, 30, .ro), (29, 16, .ro), (15, 14, .ro), (13, 0, .ro)],
      fun sd _ => (Rg.condCounts sd).reset⟩,
    ⟨0x00030014, 4, 1, 32, false, [(31, 14, .ro), (13, 0, .ro)],
      fun sd _ => (Rg.condStopped sd).reset⟩,
    ⟨0x00030018, 4, 1, 32, false, [(31, 0, .rc)],
      fun sd _ => (Rg.condSteps sd).reset⟩,
    ⟨0x0003001C, 4, 1, 32, false, [(31, 0, .rc)],
      fun sd _ => (Rg.condNonfinite sd).reset⟩,
    ⟨0x00031000, 4, 8192, 32, false, [(31, 30, .ro), (29, 29, .ro), (28, 28, .ro), (27, 27, .ro), (26, 26, .ro), (25, 25, .ro), (24, 24, .ro), (23, 12, .ro), (11, 8, .ro), (7, 0, .rc)],
      fun sd i => (Rg.chainState sd i).reset⟩,
    ⟨0x00039000, 4, 1024, 32, false, [(31, 6, .ro), (5, 5, .ro), (4, 4, .ro), (3, 3, .ro), (2, 2, .ro), (1, 0, .ro)],
      fun sd i => (Rg.groupState sd i).reset⟩
  ]

/-- The registers of spec/05_scan_engines.md. -/
def regs05 : List RegDesc :=
  [
    ⟨0x00040000, 4, 1, 32, false, [(31, 31, .ro), (30, 22, .ro), (21, 15, .ro), (14, 11, .ro), (10, 7, .ro), (6, 5, .ro), (4, 0, .ro)],
      fun sd _ => (Rg.scanStatus sd).reset⟩,
    ⟨0x00040004, 4, 1, 32, true, [(31, 11, .ro), (10, 0, .ro)],
      fun _ _ => (Rg.scanCfg).reset⟩,
    ⟨0x00040008, 4, 1, 32, false, [(31, 16, .rc), (15, 0, .rc)],
      fun sd _ => (Rg.scanAborts sd).reset⟩,
    ⟨0x0004000C, 4, 1, 32, false, [(31, 16, .rc), (15, 0, .rc)],
      fun sd _ => (Rg.scanDiscards sd).reset⟩,
    ⟨0x00040020, 4, 10, 32, false, [(31, 10, .ro), (9, 9, .ro), (8, 8, .ro), (7, 4, .ro), (3, 0, .ro)],
      fun sd i => (Rg.clusterMap sd i).reset⟩,
    ⟨0x00040100, 4, 80, 32, true, [(31, 18, .ro), (17, 0, .ro)],
      fun _ i => (Rg.coreLoad i).reset⟩,
    ⟨0x00040300, 4, 80, 32, false, [(31, 16, .ro), (15, 0, .rc)],
      fun sd i => (Rg.coreEnd sd i).reset⟩,
    ⟨0x00041000, 16, 1024, 32, false, [(31, 30, .ro), (29, 27, .ro), (26, 19, .ro), (18, 0, .ro)],
      fun sd i => (Rg.taskState sd i).reset⟩,
    ⟨0x00041004, 16, 1024, 32, false, [(31, 18, .ro), (17, 0, .rc)],
      fun sd i => (Rg.taskUsed sd i).reset⟩,
    ⟨0x00041008, 16, 1024, 32, false, [(31, 0, .rc)],
      fun sd i => (Rg.taskTally sd i).reset⟩
  ]

/-- The registers of spec/07_stalls.md. -/
def regs07 : List RegDesc :=
  [
    ⟨0x00050000, 4, 1, 32, true, [(31, 25, .ro), (24, 16, .ro), (15, 14, .ro), (13, 0, .ro)],
      fun _ _ => (Rg.stallPool).reset⟩,
    ⟨0x00050004, 4, 1, 32, true, [(31, 26, .ro), (25, 17, .ro), (16, 10, .ro), (9, 0, .ro)],
      fun _ _ => (Rg.stallPool2).reset⟩,
    ⟨0x00050008, 4, 1, 32, true, [(31, 26, .ro), (25, 12, .ro), (11, 0, .ro)],
      fun _ _ => (Rg.stallPool3).reset⟩,
    ⟨0x00050020, 4, 1, 32, false, [(31, 0, .rc)],
      fun sd _ => (Rg.pasidRefused sd).reset⟩,
    ⟨0x00050040, 4, 10, 32, true, [(31, 13, .ro), (12, 8, .ro), (7, 5, .ro), (4, 0, .ro)],
      fun _ i => (Rg.clusterMem i).reset⟩,
    ⟨0x00050100, 4, 64, 32, true, [(31, 24, .ro), (23, 16, .ro), (15, 8, .ro), (7, 7, .ro), (6, 3, .ro), (2, 0, .ro)],
      fun _ i => (Rg.stallState i).reset⟩,
    ⟨0x00050200, 4, 64, 32, true, [(31, 25, .ro), (24, 16, .ro), (15, 14, .ro), (13, 0, .ro)],
      fun _ i => (Rg.stallGrant i).reset⟩,
    ⟨0x00050300, 4, 64, 32, true, [(31, 24, .ro), (23, 0, .ro)],
      fun _ i => (Rg.stallDemand i).reset⟩,
    ⟨0x00051000, 4, 256, 32, false, [(31, 31, .ro), (30, 26, .ro), (25, 20, .ro), (19, 0, .ro)],
      fun sd i => (Rg.pasidMap sd i).reset⟩
  ]

/-- The registers of spec/08_publication.md. -/
def regs08 : List RegDesc :=
  [
    ⟨0x00060000, 8, 1, 64, true, [(63, 48, .ro), (47, 0, .ro)],
      fun _ _ => (Rg.pubMac).reset⟩,
    ⟨0x00060008, 4, 1, 32, false, [(31, 16, .ro), (15, 0, .ro)],
      fun sd _ => (Rg.pubSeq sd).reset⟩,
    ⟨0x0006000C, 4, 1, 32, true, [(31, 16, .ro), (15, 0, .ro)],
      fun _ _ => (Rg.pubLoad).reset⟩,
    ⟨0x00060010, 4, 1, 32, false, [(31, 0, .rc)],
      fun sd _ => (Rg.tollDrop sd).reset⟩,
    ⟨0x00060040, 4, 9, 32, false, [(31, 0, .rc)],
      fun sd i => (Rg.gooseDiscard sd i).reset⟩,
    ⟨0x00061000, 8, 512, 64, true, [(63, 32, .ro), (31, 0, .ro)],
      fun _ i => (Rg.goosePubState i).reset⟩,
    ⟨0x00062000, 8, 2048, 64, true, [(63, 32, .ro), (31, 4, .ro), (3, 3, .ro), (2, 2, .ro), (1, 1, .ro), (0, 0, .ro)],
      fun _ i => (Rg.gooseSubState i).reset⟩
  ]

/-- The registers of spec/09_sides_and_failover.md. -/
def regs09 : List RegDesc :=
  [
    ⟨0x00070000, 4, 1, 32, false, [(31, 12, .ro), (11, 8, .ro), (7, 7, .rc), (6, 6, .ro), (5, 4, .ro), (3, 2, .ro), (1, 0, .ro)],
      fun sd _ => (Rg.sideRoles sd).reset⟩,
    ⟨0x00070004, 4, 1, 32, true, [(31, 9, .ro), (8, 8, .ro), (7, 6, .ro), (5, 4, .ro), (3, 3, .ro), (2, 0, .ro)],
      fun _ _ => (Rg.sideCfg).reset⟩,
    ⟨0x00070008, 4, 1, 32, false, [(31, 24, .rc), (23, 16, .rc), (15, 8, .rc), (7, 0, .rc)],
      fun sd _ => (Rg.failoverCounts sd).reset⟩,
    ⟨0x00070010, 4, 1, 32, false, [(31, 30, .ro), (29, 28, .ro), (27, 23, .ro), (22, 0, .ro)],
      fun sd _ => (Rg.resyncStatus sd).reset⟩,
    ⟨0x00070014, 4, 1, 32, false, [(31, 16, .ro), (15, 0, .ro)],
      fun sd _ => (Rg.resyncTime sd).reset⟩,
    ⟨0x00070020, 4, 1, 32, false, [(31, 28, .ro), (27, 24, .ro), (23, 16, .ro), (15, 8, .ro), (7, 7, .ro), (6, 6, .ro), (5, 5, .ro), (4, 3, .ro), (2, 0, .ro)],
      fun sd _ => (Rg.pairStatus sd).reset⟩,
    ⟨0x00070024, 4, 1, 32, false, [(31, 15, .ro), (14, 0, .ro)],
      fun sd _ => (Rg.witnessSeen sd).reset⟩,
    ⟨0x00070028, 4, 1, 32, false, [(31, 31, .w1c), (30, 24, .ro), (23, 16, .ro), (15, 8, .ro), (7, 0, .ro)],
      fun sd _ => (Rg.regionStatus sd).reset⟩,
    ⟨0x0007002C, 4, 1, 32, false, [(31, 16, .ro), (15, 0, .ro)],
      fun sd _ => (Rg.regionPpm sd).reset⟩,
    ⟨0x00070040, 4, 15, 32, true, [(31, 31, .ro), (30, 30, .ro), (29, 10, .ro), (9, 0, .ro)],
      fun _ i => (Rg.witness i).reset⟩,
    ⟨0x00070080, 8, 1, 64, true, [(63, 0, .ro)],
      fun _ _ => (Rg.pairGmId).reset⟩,
    ⟨0x000D0020, 8, 1, 64, true, [(63, 0, .ro)],
      fun _ _ => (Rg.arbHandover).reset⟩,
    ⟨0x000D0028, 4, 1, 32, true, [(31, 31, .ro), (30, 30, .w1c), (29, 18, .ro), (17, 17, .ro), (16, 16, .ro), (15, 0, .ro)],
      fun _ _ => (Rg.arbWindow).reset⟩
  ]

/-- The registers of spec/10_switch_core.md. -/
def regs10 : List RegDesc :=
  [
    ⟨0x00080000, 4, 1, 32, false, [(31, 16, .ro), (15, 15, .ro), (14, 14, .ro), (13, 13, .ro), (12, 12, .w1c), (11, 0, .ro)],
      fun sd _ => (Rg.swStatus sd).reset⟩,
    ⟨0x00080004, 4, 1, 32, false, [(31, 18, .ro), (17, 0, .ro)],
      fun sd _ => (Rg.swBuf sd).reset⟩,
    ⟨0x00080008, 4, 1, 32, false, [(31, 18, .ro), (17, 0, .rc)],
      fun sd _ => (Rg.swBufHw sd).reset⟩,
    ⟨0x0008000C, 4, 1, 32, false, [(31, 18, .ro), (17, 0, .ro)],
      fun sd _ => (Rg.swMin sd).reset⟩,
    ⟨0x00080010, 4, 1, 32, false, [(31, 16, .rc), (15, 12, .ro), (11, 8, .ro), (7, 4, .ro), (3, 3, .ro), (2, 2, .ro), (1, 1, .ro), (0, 0, .ro)],
      fun sd _ => (Rg.xlinkLanes sd).reset⟩,
    ⟨0x00080020, 8, 1, 64, false, [(63, 48, .ro), (47, 0, .rw)],
      fun sd _ => (Rg.wakeId sd).reset⟩,
    ⟨0x00080028, 4, 1, 32, false, [(31, 0, .wo)],
      fun sd _ => (Rg.wakeCode sd).reset⟩,
    ⟨0x0008002C, 4, 1, 32, false, [(31, 31, .ro), (30, 16, .ro), (15, 8, .ro), (7, 1, .ro), (0, 0, .ro)],
      fun sd _ => (Rg.wakeStatus sd).reset⟩,
    ⟨0x00080100, 4, 16, 32, false, [(31, 31, .ro), (30, 30, .ro), (29, 29, .ro), (28, 28, .ro), (27, 27, .ro), (26, 26, .ro), (25, 23, .ro), (22, 0, .ro)],
      fun sd i => (Rg.portStatus sd i).reset⟩,
    ⟨0x00080180, 4, 6, 32, false, [(31, 26, .ro), (25, 20, .ro), (19, 16, .ro), (15, 0, .rc)],
      fun sd i => (Rg.gateStatus sd i).reset⟩,
    ⟨0x000801C0, 4, 4, 32, false, [(31, 31, .ro), (30, 30, .ro), (29, 24, .ro), (23, 18, .ro), (17, 16, .ro), (15, 0, .ro)],
      fun sd i => (Rg.mirrorState sd i).reset⟩,
    ⟨0x00081000, 8, 256, 64, false, [(63, 0, .rc)],
      fun sd i => (Rg.portCnt sd i).reset⟩,
    ⟨0x00082000, 4, 128, 32, false, [(31, 0, .rc)],
      fun sd i => (Rg.queueDrop sd i).reset⟩
  ]

/-- The registers of spec/11_network_time.md. -/
def regs11 : List RegDesc :=
  [
    ⟨0x00090000, 4, 1, 32, false, [(31, 0, .ro)],
      fun sd _ => (Rg.timeNs sd).reset⟩,
    ⟨0x00090004, 4, 1, 32, false, [(31, 0, .ro)],
      fun sd _ => (Rg.timeSecLo sd).reset⟩,
    ⟨0x00090008, 4, 1, 32, false, [(31, 16, .ro), (15, 0, .ro)],
      fun sd _ => (Rg.timeSecHi sd).reset⟩,
    ⟨0x00090010, 8, 1, 64, true, [(63, 48, .ro), (47, 0, .rw)],
      fun _ _ => (Rg.timeSetSec).reset⟩,
    ⟨0x00090018, 4, 1, 32, true, [(31, 30, .ro), (29, 0, .rw)],
      fun _ _ => (Rg.timeSetNs).reset⟩,
    ⟨0x0009001C, 4, 1, 32, true, [(31, 4, .ro), (3, 3, .w1c), (2, 2, .ws), (1, 1, .ro), (0, 0, .ws)],
      fun _ _ => (Rg.timeSetCtrl).reset⟩,
    ⟨0x00090020, 4, 1, 32, false, [(31, 16, .rc), (15, 11, .ro), (10, 6, .ro), (5, 5, .ro), (4, 4, .ro), (3, 3, .ro), (2, 0, .ro)],
      fun sd _ => (Rg.timeStatus sd).reset⟩,
    ⟨0x00090024, 4, 1, 32, false, [(31, 0, .ro)],
      fun sd _ => (Rg.timeOffset sd).reset⟩,
    ⟨0x00090028, 4, 1, 32, false, [(31, 0, .ro)],
      fun sd _ => (Rg.timeFreq sd).reset⟩,
    ⟨0x0009002C, 4, 1, 32, true, [(31, 10, .ro), (9, 9, .ro), (8, 8, .ro), (7, 0, .ro)],
      fun _ _ => (Rg.timeUtc).reset⟩,
    ⟨0x00090100, 16, 11, 128, false, [(127, 96, .ro), (95, 64, .ro), (63, 32, .ro), (31, 0, .ro)],
      fun sd i => (Rg.portAsym sd i).reset⟩,
    ⟨0x00090200, 4, 11, 32, false, [(31, 31, .w1c), (30, 16, .ro), (15, 5, .rc), (4, 0, .ro)],
      fun sd i => (Rg.txtsStatus sd i).reset⟩,
    ⟨0x00090300, 16, 11, 128, false, [(127, 96, .ro), (95, 80, .ro), (79, 64, .ro), (63, 32, .ro), (31, 16, .ro), (15, 15, .ro), (14, 12, .ro), (11, 8, .ro), (7, 0, .ro)],
      fun sd i => (Rg.txtsEntry sd i).reset⟩
  ]

/-- The registers of spec/12_acquisition.md. -/
def regs12 : List RegDesc :=
  [
    ⟨0x000A0000, 4, 1, 32, false, [(31, 25, .ro), (24, 16, .ro), (15, 9, .ro), (8, 0, .ro)],
      fun sd _ => (Rg.acqStatus sd).reset⟩,
    ⟨0x000A0004, 4, 1, 32, true, [(31, 15, .ro), (14, 0, .ro)],
      fun _ _ => (Rg.acqDram).reset⟩,
    ⟨0x000A0040, 4, 8, 32, false, [(31, 16, .rc), (15, 0, .rc)],
      fun sd i => (Rg.wfStatus sd i).reset⟩,
    ⟨0x000A1000, 8, 256, 32, false, [(31, 29, .ro), (28, 0, .ro)],
      fun sd i => (Rg.captState sd i).reset⟩,
    ⟨0x000A1004, 8, 256, 32, false, [(31, 0, .ro)],
      fun sd i => (Rg.captSeq sd i).reset⟩
  ]

/-- The registers of spec/13_ledger.md. -/
def regs13 : List RegDesc :=
  [
    ⟨0x000B0000, 8, 1, 64, true, [(63, 0, .ro)],
      fun _ _ => (Rg.ledgerSeq).reset⟩,
    ⟨0x000B0008, 8, 1, 64, true, [(63, 0, .ro)],
      fun _ _ => (Rg.ledgerOldest).reset⟩,
    ⟨0x000B0010, 8, 1, 64, false, [(63, 0, .ro)],
      fun sd _ => (Rg.ledgerSideSeq sd).reset⟩,
    ⟨0x000B0018, 4, 1, 32, false, [(31, 22, .ro), (21, 12, .rc), (11, 10, .ro), (9, 0, .ro)],
      fun sd _ => (Rg.ledgerQueue sd).reset⟩,
    ⟨0x000B001C, 4, 1, 32, false, [(31, 16, .rc), (15, 0, .rc)],
      fun sd _ => (Rg.ledgerDrops sd).reset⟩,
    ⟨0x000B0020, 4, 1, 32, false, [(31, 16, .rc), (15, 0, .rc)],
      fun sd _ => (Rg.ledgerDrops2 sd).reset⟩,
    ⟨0x000B1000, 4, 64, 32, true, [(31, 31, .ro), (30, 12, .ro), (11, 0, .ro)],
      fun _ i => (Rg.ledgerRegion i).reset⟩,
    ⟨0x000B4000, 4, 4096, 32, false, [(31, 16, .rc), (15, 0, .rc)],
      fun sd i => (Rg.ledgerCodeDrop sd i).reset⟩
  ]

/-- The registers of spec/14_field_io_and_interlocks.md. -/
def regs14 : List RegDesc :=
  [
    ⟨0x000C0000, 4, 1, 32, true, [(31, 16, .ro), (15, 2, .ro), (1, 0, .ro)],
      fun _ _ => (Rg.fioSupply).reset⟩,
    ⟨0x000C0004, 4, 1, 32, true, [(31, 0, .ro)],
      fun _ _ => (Rg.fioLevel).reset⟩,
    ⟨0x000C0008, 4, 1, 32, true, [(31, 0, .w1c)],
      fun _ _ => (Rg.fioFault).reset⟩,
    ⟨0x000C0100, 4, 32, 32, true, [(31, 29, .ro), (28, 28, .ro), (27, 27, .ro), (26, 26, .ro), (25, 25, .ro), (24, 24, .ro), (23, 22, .ro), (21, 21, .ro), (20, 20, .ro), (19, 8, .ro), (7, 0, .ro)],
      fun _ i => (Rg.fioCh i).reset⟩,
    ⟨0x000C1000, 8, 64, 64, true, [(63, 32, .ro), (31, 2, .ro), (1, 1, .ro), (0, 0, .ro)],
      fun _ i => (Rg.teleSealed i).reset⟩,
    ⟨0x000C1400, 4, 64, 32, false, [(31, 16, .rc), (15, 8, .rc), (7, 0, .rc)],
      fun sd i => (Rg.teleErrs sd i).reset⟩,
    ⟨0x000D0100, 4, 1, 32, true, [(31, 31, .ro), (30, 30, .ro), (29, 29, .ro), (28, 24, .ro), (23, 16, .ro), (15, 6, .ro), (5, 0, .ro)],
      fun _ _ => (Rg.safeStatus).reset⟩,
    ⟨0x000D0108, 8, 1, 64, true, [(63, 32, .ro), (31, 0, .ro)],
      fun _ _ => (Rg.safeCrc).reset⟩,
    ⟨0x000D0200, 4, 32, 32, true, [(31, 29, .ro), (28, 28, .ro), (27, 27, .ro), (26, 26, .ro), (25, 25, .ro), (24, 21, .ro), (20, 0, .ro)],
      fun _ i => (Rg.sfState i).reset⟩
  ]

/-- The registers of spec/15_can_fd.md. -/
def regs15 : List RegDesc :=
  [
    ⟨0x000E0000, 4, 1, 32, false, [(31, 30, .ro), (29, 29, .w1c), (28, 24, .ro), (23, 16, .ro), (15, 8, .ro), (7, 0, .ro)],
      fun sd _ => (Rg.canStatus sd).reset⟩,
    ⟨0x000E0008, 8, 1, 64, false, [(63, 63, .ro), (62, 57, .ro), (56, 50, .ro), (49, 45, .ro), (44, 41, .ro), (40, 37, .ro), (36, 32, .ro), (31, 31, .ro), (30, 22, .ro), (21, 15, .ro), (14, 8, .ro), (7, 0, .ro)],
      fun sd _ => (Rg.canBittime sd).reset⟩,
    ⟨0x000E0010, 4, 1, 32, false, [(31, 25, .ro), (24, 19, .ro), (18, 18, .w1c), (17, 17, .w1c), (16, 16, .ro), (15, 0, .rc)],
      fun sd _ => (Rg.canRxq sd).reset⟩,
    ⟨0x000E0100, 128, 2, 640, false, [(639, 0, .ro)],
      fun sd i => (Rg.rxqHead sd i).reset⟩,
    ⟨0x000E1000, 4, 64, 32, false, [(31, 30, .ro), (29, 29, .ro), (28, 28, .ro), (27, 27, .w1c), (26, 23, .ro), (22, 22, .ro), (21, 16, .ro), (15, 8, .rc), (7, 0, .rc)],
      fun sd i => (Rg.mbStatus sd i).reset⟩,
    ⟨0x000E2000, 128, 64, 640, false, [(639, 0, .ro)],
      fun sd i => (Rg.mbFrame sd i).reset⟩
  ]

/-- The registers of spec/16_host_link.md. -/
def regs16 : List RegDesc :=
  [
    ⟨0x000F0000, 4, 1, 32, false, [(31, 31, .ro), (30, 28, .ro), (27, 25, .ro), (24, 24, .ro), (23, 16, .ro), (15, 0, .ro)],
      fun sd _ => (Rg.hlStatus sd).reset⟩,
    ⟨0x000F0004, 4, 1, 32, false, [(31, 31, .w1c), (30, 16, .ro), (15, 0, .ro)],
      fun sd _ => (Rg.hlErr sd).reset⟩,
    ⟨0x000F0008, 4, 1, 32, false, [(31, 0, .ro)],
      fun sd _ => (Rg.hlErrAddr sd).reset⟩,
    ⟨0x000F000C, 4, 1, 32, false, [(31, 3, .ro), (2, 2, .rw), (1, 0, .rw)],
      fun sd _ => (Rg.hlCtrl sd).reset⟩,
    ⟨0x000F0010, 8, 1, 64, false, [(63, 0, .rc)],
      fun sd _ => (Rg.hlBytes sd).reset⟩,
    ⟨0x000F1000, 32, 64, 64, false, [(63, 0, .ro)],
      fun sd i => (Rg.ringBase sd i).reset⟩,
    ⟨0x000F1008, 32, 64, 32, false, [(31, 31, .ro), (30, 30, .ro), (29, 28, .ro), (27, 27, .ro), (26, 26, .ws), (25, 24, .ro), (23, 18, .ro), (17, 13, .ro), (12, 10, .ro), (9, 0, .ro)],
      fun sd i => (Rg.ringCfg sd i).reset⟩,
    ⟨0x000F100C, 32, 64, 32, false, [(31, 20, .ro), (19, 0, .ro)],
      fun sd i => (Rg.ringPasid sd i).reset⟩,
    ⟨0x000F1010, 32, 64, 32, false, [(31, 16, .ro), (15, 0, .ro)],
      fun sd i => (Rg.ringPtr sd i).reset⟩,
    ⟨0x000F1014, 32, 64, 32, false, [(31, 0, .rc)],
      fun sd i => (Rg.ringDone sd i).reset⟩
  ]

/-- The registers of spec/17_command_packets.md. -/
def regs17 : List RegDesc :=
  [
    ⟨0x00000000, 4, 1, 32, true, [(31, 16, .ro), (15, 8, .ro), (7, 0, .ro)],
      fun _ _ => (Rg.moduleIdent).reset⟩,
    ⟨0x00000004, 4, 1, 32, false, [(31, 24, .ro), (23, 16, .ro), (15, 8, .ro), (7, 0, .ro)],
      fun sd _ => (Rg.fwVersion sd).reset⟩,
    ⟨0x00000008, 8, 1, 64, true, [(63, 0, .ro)],
      fun _ _ => (Rg.moduleSerial).reset⟩,
    ⟨0x00000014, 4, 1, 32, false, [(31, 24, .ro), (23, 16, .ro), (15, 8, .ro), (7, 0, .ro)],
      fun sd _ => (Rg.protoVersion sd).reset⟩,
    ⟨0x00000018, 4, 1, 32, false, [(31, 16, .rc), (15, 0, .rc)],
      fun sd _ => (Rg.cmdCounts sd).reset⟩,
    ⟨0x0000001C, 4, 1, 32, false, [(31, 16, .rc), (15, 0, .rc)],
      fun sd _ => (Rg.cmdDrop sd).reset⟩,
    ⟨0x00000020, 4, 1, 32, false, [(31, 16, .rc), (15, 0, .rc)],
      fun sd _ => (Rg.crierStats sd).reset⟩,
    ⟨0x00000024, 4, 1, 32, false, [(31, 9, .ro), (8, 0, .ro)],
      fun sd _ => (Rg.cmdPending sd).reset⟩
  ]

/-- The registers of spec/18_configuration_and_update.md. -/
def regs18 : List RegDesc :=
  [
    ⟨0x00000040, 4, 1, 32, true, [(31, 31, .ro), (30, 30, .ro), (29, 29, .ro), (28, 24, .ro), (23, 16, .ro), (15, 0, .ro)],
      fun _ _ => (Rg.cfgState).reset⟩,
    ⟨0x00000048, 8, 1, 64, true, [(63, 0, .ro)],
      fun _ _ => (Rg.cfgStallValid).reset⟩,
    ⟨0x00000050, 8, 1, 64, true, [(63, 0, .ro)],
      fun _ _ => (Rg.cfgDigest).reset⟩,
    ⟨0x00000058, 8, 1, 64, true, [(63, 48, .ro), (47, 40, .ro), (39, 32, .ro), (31, 0, .ro)],
      fun _ _ => (Rg.cfgFail).reset⟩,
    ⟨0x00110000, 4, 1, 32, true, [(31, 28, .ro), (27, 27, .ro), (26, 26, .ro), (25, 25, .ro), (24, 24, .ro), (23, 16, .ro), (15, 0, .ro)],
      fun _ _ => (Rg.updState).reset⟩,
    ⟨0x00110008, 8, 1, 64, true, [(63, 48, .ro), (47, 0, .ro)],
      fun _ _ => (Rg.updTime).reset⟩,
    ⟨0x00110010, 4, 1, 32, false, [(31, 29, .ro), (28, 16, .ro), (15, 0, .rc)],
      fun sd _ => (Rg.norState sd).reset⟩,
    ⟨0x00110014, 4, 1, 32, false, [(31, 8, .ro), (7, 0, .ro)],
      fun sd _ => (Rg.storedVer sd).reset⟩,
    ⟨0x00110018, 4, 1, 32, false, [(31, 16, .ro), (15, 0, .ro)],
      fun sd _ => (Rg.updProgress sd).reset⟩
  ]

/-- The registers of spec/19_keys.md. -/
def regs19 : List RegDesc :=
  [
    ⟨0x00100000, 4, 1, 32, false, [(31, 30, .ro), (29, 28, .ro), (27, 27, .ro), (26, 26, .ro), (25, 25, .ro), (24, 15, .ro), (14, 8, .ro), (7, 7, .ro), (6, 0, .ro)],
      fun sd _ => (Rg.keyStatus sd).reset⟩,
    ⟨0x00100010, 4, 4, 32, false, [(31, 31, .ro), (30, 30, .ro), (29, 29, .ro), (28, 0, .ro)],
      fun sd i => (Rg.keySigner sd i).reset⟩,
    ⟨0x00100100, 16, 64, 64, false, [(63, 63, .ro), (62, 62, .ro), (61, 61, .ro), (60, 60, .ro), (59, 56, .ro), (55, 48, .ro), (47, 40, .ro), (39, 32, .ro), (31, 0, .ro)],
      fun sd i => (Rg.keySlot sd i).reset⟩,
    ⟨0x00100108, 16, 64, 64, false, [(63, 0, .ro)],
      fun sd i => (Rg.keyStalls sd i).reset⟩
  ]

/-- The registers of spec/20_health_and_maintenance.md. -/
def regs20 : List RegDesc :=
  [
    ⟨0x00120000, 4, 1, 32, false, [(31, 30, .ro), (29, 26, .ro), (25, 25, .ro), (24, 23, .ro), (22, 22, .ro), (21, 11, .ro), (10, 0, .ro)],
      fun sd _ => (Rg.healthSpares sd).reset⟩,
    ⟨0x00120004, 4, 1, 32, false, [(31, 24, .ro), (23, 16, .ro), (15, 8, .ro), (7, 0, .ro)],
      fun sd _ => (Rg.healthFaults sd).reset⟩,
    ⟨0x00120008, 4, 1, 32, false, [(31, 0, .rc)],
      fun sd _ => (Rg.healthCorrected sd).reset⟩,
    ⟨0x00120010, 4, 1, 32, false, [(31, 31, .ro), (30, 30, .ro), (29, 24, .ro), (23, 16, .ro), (15, 0, .ro)],
      fun sd _ => (Rg.healthTest sd).reset⟩,
    ⟨0x00120014, 4, 1, 32, false, [(31, 16, .ro), (15, 6, .ro), (5, 0, .ro)],
      fun sd _ => (Rg.faultHead sd).reset⟩,
    ⟨0x00120100, 8, 64, 64, false, [(63, 32, .ro), (31, 0, .ro)],
      fun sd i => (Rg.faultLog sd i).reset⟩,
    ⟨0x00120400, 8, 4, 64, true, [(63, 32, .ro), (31, 28, .ro), (27, 26, .ro), (25, 0, .ro)],
      fun _ i => (Rg.lease i).reset⟩
  ]

/-- The registers of spec/21_power_and_connectors.md. -/
def regs21 : List RegDesc :=
  [
    ⟨0x00130000, 4, 1, 32, false, [(31, 29, .ro), (28, 28, .ro), (27, 27, .ro), (26, 26, .w1c), (25, 25, .ro), (24, 24, .ro), (23, 23, .ro), (22, 22, .ro), (21, 21, .w1c), (20, 20, .w1c), (19, 0, .ro)],
      fun sd _ => (Rg.powerStatus sd).reset⟩,
    ⟨0x00130004, 4, 1, 32, false, [(31, 16, .ro), (15, 0, .ro)],
      fun sd _ => (Rg.powerInput sd).reset⟩,
    ⟨0x00130008, 4, 1, 32, false, [(31, 16, .ro), (15, 0, .ro)],
      fun sd _ => (Rg.powerInput2 sd).reset⟩,
    ⟨0x0013000C, 4, 1, 32, false, [(31, 16, .rc), (15, 0, .ro)],
      fun sd _ => (Rg.powerEvents sd).reset⟩,
    ⟨0x00130010, 4, 1, 32, false, [(31, 16, .ro), (15, 4, .ro), (3, 0, .ro)],
      fun sd _ => (Rg.resetCause sd).reset⟩,
    ⟨0x00130014, 4, 1, 32, false, [(31, 16, .ro), (15, 0, .ro)],
      fun sd _ => (Rg.startTimes sd).reset⟩,
    ⟨0x00130018, 4, 1, 32, false, [(31, 0, .ro)],
      fun sd _ => (Rg.gateTime sd).reset⟩,
    ⟨0x00130020, 4, 1, 32, false, [(31, 16, .ro), (15, 0, .ro)],
      fun sd _ => (Rg.powerTemp sd).reset⟩,
    ⟨0x00130024, 4, 1, 32, false, [(31, 16, .ro), (15, 0, .ro)],
      fun sd _ => (Rg.auxStatus sd).reset⟩,
    ⟨0x00130028, 4, 1, 32, false, [(31, 28, .ro), (27, 24, .ro), (23, 20, .ro), (19, 16, .ro), (15, 12, .ro), (11, 8, .ro), (7, 4, .ro), (3, 0, .ro)],
      fun sd _ => (Rg.ledState sd).reset⟩,
    ⟨0x00130040, 4, 8, 32, false, [(31, 16, .ro), (15, 0, .ro)],
      fun sd i => (Rg.rail sd i).reset⟩
  ]

/-- Every register of the spec. -/
def regTable : List RegDesc :=
  regs01 ++ regs02 ++ regs03 ++ regs04 ++ regs05 ++ regs07 ++ regs08 ++ regs09 ++ regs10 ++ regs11 ++ regs12 ++ regs13 ++ regs14 ++ regs15 ++ regs16 ++ regs17 ++ regs18 ++ regs19 ++ regs20 ++ regs21

end Sys2Proof.Machine
end

