-- ==== Sys2Proof/Machine/State.lean ====
section
/-! DEFINITION. The state of the module (R1): everything the spec gives it, as plain data, and its value after reset.
Registers live in `regs`, one 64-bit word for each register that has been written since reset; a register not
listed holds its reset value (RegMap). Registers that only show other state are read from it (Regs). -/

namespace Sys2Proof.Machine

/-- One side of the module (R13): what each side holds of its own. -/
structure Side where
  /- sides and fail-over (09) -/
  role : Role
  peerRole : Role
  duty : DutySt
  /- stream intake (03) -/
  streams : Tbl StreamSt
  dups : Tbl (List (Nat × Nat))
  dupSources : List Nat
  /- conditioning (04) -/
  chains : Tbl ChainSt
  groups : Tbl GroupSt
  condStore : List (Nat × Tbl Bytes)
  /- scan (05) -/
  tasks : Tbl TaskSt
  cores : Tbl CoreSt
  slices : Tbl Slice
  /- acquisition (12) -/
  marks : List Mark
  capts : Tbl CaptSt
  captWait : Tbl (List CaptWait)
  dram : Tbl (List Bytes)
  wavefront : Tbl (List WfEdge)
  wfLast : Tbl Nat
  /- publication (08) -/
  presented : Tbl Bytes
  goosePubs : Tbl GoosePubSt
  gooseAcc : Tbl GooseAcc
  heldAtT0 : HeldAtT0
  svAsdus : Tbl (List (Nat × Bytes))
  pubQueue : List QFrame
  withheld : List Nat
  /- field I/O (14) -/
  outData : Option OutData
  teleCount : Tbl Nat
  teleCopies : Tbl (List TeleCopy)
  teleAcc : Tbl (Nat × Bytes)
  /- switch (10) -/
  sw : SwSt
  /- time (11) -/
  time : TimeSt
  /- CAN (15) -/
  can : CanSt
  /- Ledger (13) -/
  sideArea : LRegion
  sideBuckets : Tbl Nat
  sideDrops : Tbl (Nat × Nat)
  sideFloods : List Flood
  sideQueue : Nat
  /- host link (16) -/
  rings : Tbl RingSt
  msix : MsixSt
  /- commands (17) -/
  crierSeq : Tbl Nat
  crierSent : Nat
  unsignedSent : Nat
  rxQueue : List (CmdHdr × Bytes)
  mailSeq : Nat
  console : Bytes
  /- keys (19) -/
  keys : Tbl Bytes
  sealedKeys : Tbl SealedKey
  forward : Tbl SealedKey
  roots : RootSt
  cache : Tbl (Bytes × Bytes)
  till : Bytes
  /- health (20) -/
  health : HealthSt
  /- images (18) -/
  image : Bytes
  stored : Bytes
  cfgRoots : List RootRec
  lag : Option CfgStore
  spareFmt : Option Nat
  deriving DecidableEq, Repr

/-- The module. -/
structure State where
  pending : List Instr
  out : List Output
  freeCount : Nat
  now : Nat
  open_ : Bool
  regs : Tbl (BitVec 64)
  sideA : Side
  sideB : Side
  /- commands (17) -/
  principals : Tbl Principal
  waiting : List WaitCmd
  outcomes : Tbl (List CmdResult)
  cmdBudget : Nat
  /- configuration (18) -/
  modActive : Scope
  modShadow : Scope
  stallActive : Tbl Scope
  stallShadow : Tbl Scope
  safeActive : Bytes
  safeShadow : Bytes
  validations : Tbl Validation
  ringLoads : List RingLoad
  oddScopes : List Nat
  moduleCastled : Option Nat
  update : UpdSt
  /- power (21) -/
  power : PowSt
  /- stream intake (03) -/
  anchors : Tbl (List Anchor)
  sealedUpto : Option Nat
  /- the bell (02) -/
  sampleTick : Option Nat
  noSeal : Nat
  skipped : Nat
  deferred : Bool
  notices : List Notice
  /- publication (08) -/
  gooseSubs : Tbl GooseSub
  holdover : Bool
  /- field I/O and interlocks (14) -/
  arb : ArbSt
  teleSubs : Tbl TeleSub
  safePw : Option (Bytes × Bytes)
  nonces : Tbl (Bytes × Nat)
  unlocks : Tbl Nat
  safeFails : List Nat
  safeLockout : Option Nat
  /- switch and cross-link (10, 01) -/
  xlink : XlinkSt
  partnerSeen : Bool
  /- time (11) -/
  gm : Option DWord
  masters : Tbl (Announce × Nat)
  slavePort : Option (SideId × Nat)
  staged : Option Staged
  /- CAN (15) -/
  canSealed : List CanSealed
  /- sides and pairs (09, 02) -/
  white : SideId
  handoverAt : Option Nat
  drill : Option DrillSt
  pair : PairSt
  /- Ledger (13) -/
  regions : Tbl LRegion
  freed : List LSeg
  ledgerFresh : Nat
  ledgerPend : List LPend
  ledgerQueue : List Nat
  buckets : Tbl Nat
  floodCounts : Tbl (Nat × Nat)
  floods : List Flood
  /- scan (05), stalls (07) -/
  forces : Tbl Force
  tally : Tbl Nat
  aborted : List Nat
  abortedSec : List Nat
  noticeReset : List Nat
  /- maintenance (20) -/
  leases : List Lease
  deriving DecidableEq, Repr

/-- Why a run stops with a fault. -/
inductive Fault where
  /-- Raised by a Hyrra command whose fields make a word that R138 calls no defined instruction (a reserved width of ST
  or LD, a reserved element type). Safe: the model stops where the spec gives no effect. -/
  | undefinedInstruction
  deriving DecidableEq, Repr

/-- Why a command is refused by the model. -/
inductive Refusal where
  /-- A command without a meaning yet, by its mnemonic. Safe. -/
  | notModelled (mnemonic : String)
  deriving DecidableEq, Repr

/-- A side as it stands at reset. -/
def Side.reset : Side :=
  { role := .out, peerRole := .out, duty := DutySt.reset
    streams := [], dups := [], dupSources := []
    chains := [], groups := [], condStore := []
    tasks := [], cores := [], slices := [], marks := []
    capts := [], captWait := [], dram := [], wavefront := [], wfLast := []
    presented := [], goosePubs := [], gooseAcc := [], heldAtT0 := ⟨[], []⟩, svAsdus := [], pubQueue := [], withheld := []
    outData := none, teleCount := [], teleCopies := [], teleAcc := []
    sw := SwSt.reset, time := TimeSt.reset, can := CanSt.reset
    sideArea := ⟨[], 512, [], 0⟩, sideBuckets := [], sideDrops := [], sideFloods := [], sideQueue := 0
    rings := [], msix := ⟨[], []⟩
    crierSeq := [], crierSent := 0, unsignedSent := 0, rxQueue := [], mailSeq := 0, console := []
    keys := [(0, Config.setupKey)], sealedKeys := [], forward := [], roots := RootSt.reset, cache := [], till := []
    health := HealthSt.reset, image := Config.imageHeader, stored := Config.imageHeader, cfgRoots := [], lag := none, spareFmt := none }

/-- Slot 0 holding the setup key (R448): VALID, PURPOSE SETUP, OPS TAG and UNWRAP, 32 bytes, GENERATION 0. -/
def setupSlot : Nat := 2 ^ 63 + 4 * 2 ^ 56 + 5 * 2 ^ 48 + 32 * 2 ^ 40

/-- The principal a module has at first start (R397): origin 1, Manager, SCOPE 0xFF, KEY_SLOT 0, over the console. -/
def firstPrincipal : Principal := ⟨beBytes 4 1 ++ [4, 0xFF, 0, 4] ++ zeros 24, 0, 0, 0, 0⟩

/-- The registers of the two setup-key slots (R448). -/
def resetRegs : Tbl (BitVec 64) :=
  [((Rg.keySlot .A 0).key, BitVec.ofNat 64 setupSlot), ((Rg.keyStalls .A 0).key, 1#64),
    ((Rg.keySlot .B 0).key, BitVec.ofNat 64 setupSlot), ((Rg.keyStalls .B 0).key, 1#64)]

/-- The module at reset. -/
def State.reset : State :=
  { pending := [], out := [], freeCount := 0, now := 0, open_ := false, regs := resetRegs
    sideA := Side.reset, sideB := Side.reset
    principals := [(1, firstPrincipal)], waiting := [], outcomes := []
    modActive := Scope.empty, modShadow := Scope.empty, stallActive := [], stallShadow := []
    safeActive := [], safeShadow := [], validations := [], ringLoads := [], oddScopes := [], moduleCastled := none, update := UpdSt.reset, power := PowSt.reset
    anchors := [], sealedUpto := none, sampleTick := none, noSeal := 0, skipped := 0, deferred := false, notices := [], gooseSubs := [], holdover := false
    arb := ArbSt.reset, teleSubs := [], safePw := none, nonces := [], unlocks := [], safeFails := [], safeLockout := none
    xlink := XlinkSt.reset, partnerSeen := false
    gm := none, masters := [], slavePort := none, staged := none, canSealed := [], white := .A, handoverAt := none, drill := none, pair := PairSt.reset
    regions := [], freed := [], ledgerFresh := 0, ledgerPend := [], ledgerQueue := [], buckets := [], floodCounts := [], floods := []
    forces := [], tally := [], aborted := [], abortedSec := [], noticeReset := []
    cmdBudget := 10, leases := [] }

/-- A side of the module. -/
def State.side (s : State) : SideId → Side
  | .A => s.sideA
  | .B => s.sideB

/-- Change a side of the module. -/
def State.modSide (s : State) (sd : SideId) (f : Side → Side) : State :=
  match sd with
  | .A => { s with sideA := f s.sideA }
  | .B => { s with sideB := f s.sideB }

end Sys2Proof.Machine
end

