-- ==== Sys2Proof/Machine/Ops.lean ====
section
/-! DEFINITION. The operations every chapter shares: register fields, outputs, free values, the active side,
configuration records, Ledger records and Crier notifications, packets. -/

namespace Sys2Proof.Machine

/-! ### Registers -/

/-- The stored word of a register: its reset value when it has never been written. -/
def State.regWord (s : State) (r : Reg) : Nat := match Tbl.find s.regs r.key with
  | some v => v.toNat
  | none => r.reset

/-- Store a register's word. -/
def State.putReg (s : State) (r : Reg) (v : Nat) : State := { s with regs := Tbl.put s.regs r.key (BitVec.ofNat 64 v) }

/-- Read a field of a register's stored word. -/
def State.rd (s : State) (r : Reg) (f : Fld) : Nat := bits (s.regWord r) f.hi f.lo

/-- Write a field of a register. -/
def State.wr (s : State) (r : Reg) (f : Fld) (v : Nat) : State := s.putReg r (setBits (s.regWord r) f.hi f.lo v)

/-- A one-bit field as a Bool. -/
def State.flag (s : State) (r : Reg) (f : Fld) : Bool := s.rd r f != 0

/-- Set or clear a one-bit field. -/
def State.setFlag (s : State) (r : Reg) (f : Fld) (b : Bool) : State := s.wr r f (b2n b)

/-- Add to a counter field, saturating at its largest value. -/
def State.count (s : State) (r : Reg) (f : Fld) (n : Nat) : State :=
  s.wr r f (min (s.rd r f + n) (2 ^ (f.hi - f.lo + 1) - 1))

/-- Count one. -/
def State.tick1 (s : State) (r : Reg) (f : Fld) : State := s.count r f 1

/-- Keep the larger value in a high-water field. -/
def State.raise (s : State) (r : Reg) (f : Fld) (v : Nat) : State :=
  s.wr r f (max (s.rd r f) (min v (2 ^ (f.hi - f.lo + 1) - 1)))

/-! ### Outputs and free values -/

/-- Something leaves the module. -/
def State.emit (s : State) (o : Output) : State := { s with out := s.out ++ [o] }

def State.emitAll (s : State) (os : List Output) : State := { s with out := s.out ++ os }

/-- A value the spec leaves open: the next free word. -/
def State.free (s : State) : Word × State := (Config.freeWord s.freeCount, { s with freeCount := s.freeCount + 1 })

/-! ### Sides -/

/-- The side that holds the Active role (R216); the first when both claim it. -/
def State.active (s : State) : Option SideId :=
  if s.sideA.role = .active then some .A else if s.sideB.role = .active then some .B else none

/-- The side that speaks for the module: the active side, or side A when none is. -/
def State.speaker (s : State) : SideId := (s.active).getD .A

/-- The side whose computation of the tick stands for the module's: the active one, or, with none Active, the one that has
sealed the tick itself or completes it before it becomes Active (R221, R222). -/
def State.leads (s : State) (sd : SideId) : Bool := match s.active with
  | some a => a == sd
  | none => (s.side sd).role != .out && (s.side sd).duty.computed == s.now

/-- HOLD_PUBLISH to a side (R236, R242): it claims Joining or Out, or is Black while both claim Active, or its module is
ISOLATED or updated out of its pair (R440). -/
def State.holdPublish (s : State) (sd : SideId) : Bool :=
  s.pair.role == 3 || s.pair.role == 4 || match (s.side sd).role with
  | .standby => false
  | .active => s.sideA.role == .active && s.sideB.role == .active && s.white != sd
  | _ => true

/-- HOLD_PUBLISH as its lines show it: not before the Arbiter has run a tick. -/
def State.holdShown (s : State) (sd : SideId) : Bool := !s.arb.images.isEmpty && s.holdPublish sd

/-- The tick index of a tick number (R4). -/
def tickIndex (w : Nat) : Nat := w % 4800

/-- Both sides. -/
def bothSides : List SideId := [.A, .B]

/-- Do something for both sides, A first. -/
def State.forSides (s : State) (f : SideId → State → State) : State := f .B (f .A s)

/-! ### Configuration records -/

/-- The block types of R417. -/
def recKey (ty idx : Nat) : Nat := ty * 4294967296 + idx

/-- A record of a scope. -/
def Scope.get (c : Scope) (ty idx : Nat) : Option Bytes := Tbl.find c.recs (recKey ty idx)

/-- The record indices of a block, rising. -/
def Scope.indices (c : Scope) (ty : Nat) : List Nat :=
  (c.recs.filter fun e => e.1 / 4294967296 == ty).map fun e => e.1 % 4294967296

/-- The records of a block with their indices. -/
def Scope.block (c : Scope) (ty : Nat) : List (Nat × Bytes) :=
  (c.recs.filter fun e => e.1 / 4294967296 == ty).map fun e => (e.1 % 4294967296, e.2)

/-- Write a record: any write to a shadow clears its VALID (R422), and the digest recorded with it. -/
def Scope.putRec (c : Scope) (ty idx : Nat) (r : Bytes) : Scope :=
  { c with recs := Tbl.put c.recs (recKey ty idx) r, valid := false, digest := [] }

def Scope.delRec (c : Scope) (ty idx : Nat) : Scope := { c with recs := Tbl.del c.recs (recKey ty idx), valid := false, digest := [] }

/-- Remove a whole block. -/
def Scope.clearBlock (c : Scope) (ty : Nat) : Scope :=
  { c with recs := c.recs.filter (fun e => e.1 / 4294967296 != ty), valid := false, digest := [] }

/-- The scope that holds the stall-scoped blocks of a stall: the module scope for stall 0 (R416). -/
def State.stallScope (s : State) (stall : Nat) : Scope := if stall = 0 then s.modActive else Tbl.getD s.stallActive stall Scope.empty

def State.stallShadowScope (s : State) (stall : Nat) : Scope := if stall = 0 then s.modShadow else Tbl.getD s.stallShadow stall Scope.empty

/-- A validation that runs while its scope is written is broken (R422). -/
def State.breakValidation (s : State) (scope : Nat) : State :=
  { s with validations := Tbl.upd s.validations scope fun v => { v with broken := true } }

/-! ### The configuration stores of the sides (R427 to R429) -/

/-- What a configuration store holds of the configuration in force. -/
def State.cfgStore (s : State) : CfgStore :=
  ⟨s.modActive, s.modShadow, s.stallActive, s.stallShadow, s.safeActive, s.safeShadow, s.oddScopes, s.principals, s.safePw⟩

/-- A side's own copy, apart from the module's from now on. -/
def Side.ownCopy (x : Side) (c : CfgStore) : Side := { x with lag := some (x.lag.getD c) }

def State.keepCopy (s : State) (sd : SideId) : State := s.modSide sd fun x => x.ownCopy s.cfgStore

/-- Every side keeps the configuration of the state before: a castling has changed it, and no root record says so yet. -/
def State.keptFrom (s old : State) : State := s.forSides fun sd t => t.modSide sd fun x => x.ownCopy old.cfgStore

/-- The principals of a store, their replay windows as they stand (R402). -/
def State.principalsOf (s : State) (c : CfgStore) : Tbl Principal :=
  c.principals.map fun (e : Nat × Principal) => (e.1, match Tbl.find s.principals e.1 with
    | some p => { p with record := e.2.record }
    | none => e.2)

/-- A side's own copy becomes the configuration in force. -/
def State.adoptStore (s : State) (sd : SideId) : State :=
  match (s.side sd).lag with
  | none => s
  | some c =>
    let t := s.modSide sd fun x => { x with lag := none }
    { t with modActive := c.modActive, modShadow := c.modShadow, stallActive := c.stallActive, stallShadow := c.stallShadow
             safeActive := c.safeActive, safeShadow := c.safeShadow, oddScopes := c.odd, principals := s.principalsOf c, safePw := c.safePw }

/-- The scopes whose shadow is VALID: 0 the module's. -/
def State.validScopes (s : State) : List Nat :=
  (if s.modShadow.valid then [0] else []) ++ (s.stallShadow.filter fun e => e.2.valid).map (·.1)

/-- A root record for the configuration in force goes into the copy not used last, its generation raised by 1 (R429). -/
def State.writeNewRoot (s : State) (sd : SideId) : State :=
  s.modSide sd fun x =>
    let gen := match x.cfgRoots with | r :: _ => r.gen + 1 | [] => 1
    { x with cfgRoots := ⟨gen, s.oddScopes, s.validScopes⟩ :: x.cfgRoots.take 1, lag := none }

/-- The root record of a castling, where one is due. -/
def State.writeRoot (s : State) (sd : SideId) : State := if (s.side sd).lag.isSome then s.writeNewRoot sd else s

/-- The set slot of a scope's copy: of each pair of slots the second where the root record says so (R428). -/
def RootRec.slot (r : RootRec) (fmt stall : Nat) (shadow : Bool) : Nat := 2 * (fmt % 2) + b2n (r.odd.contains stall != shadow)

/-- A write to the module scope's shadow. -/
def State.modifyModShadow (s : State) (f : Scope → Scope) : State := ({ s with modShadow := f s.modShadow }).breakValidation 0

/-- A write to a stall scope's shadow; stall 0 stands for the module scope (R416). -/
def State.modifyStallShadow (s : State) (stall : Nat) (f : Scope → Scope) : State :=
  if stall = 0 then s.modifyModShadow f
  else ({ s with stallShadow := Tbl.put s.stallShadow stall (f (Tbl.getD s.stallShadow stall Scope.empty)) }).breakValidation stall

/-! ### The Ledger: records waiting for admission (R325) -/

/-- A module-area record, admitted at the end of the Collect phase (R325). -/
def State.ledger (s : State) (r : LPend) : State := { s with ledgerPend := s.ledgerPend ++ [r] }

/-- Codes the spec names (R322). -/
def lcChange : Nat := 0x0010
def lcRefusedAtBell : Nat := 0x0011
def lcNote : Nat := 0x0012
def lcSideChange : Nat := 0x0410
def lcRefusedPrincipal : Nat := 0x0412
def lcFlood : Nat := 0x0FFF

/-- A module event (class 4 of R325) with its body. -/
def State.moduleEvent (s : State) (code stall : Nat) (body : Bytes) : State :=
  s.ledger ⟨3, stall, 0, code, 0, body, false, false⟩

/-- The body of a CHANGE, REFUSED_AT_BELL or SIDE_CHANGE record (R324). -/
def changeBody (op status seq : Nat) (params : Bytes) : Bytes :=
  beBytes 2 op ++ beBytes 2 status ++ beBytes 4 seq ++ beBytes 2 params.length ++ zeros 6 ++ params

/-- A body padded as R319 asks: at least 16 bytes, a multiple of 8. -/
def recBody (b : Bytes) : Bytes := padTo 8 (if b.length < 16 then fit 16 b else b)

/-- The length of a record with its header (R318). -/
def LRec.length (r : LRec) : Nat := 32 + r.body.length

/-- The code as it stands in a record: events without a number in the spec carry one of the module's range, or, numbered
0x2000 and up by the model, one of the side's (R322). -/
def codeNumber (code : Nat) : Nat :=
  if code < 0x1000 then code
  else if code < 0x2000 then (Config.eventCode (code - 0x1000)).toNat % 0x400
  else 0x400 + (Config.eventCode (code - 0x1000)).toNat % 0x400

/-- The bytes of a record, COMMIT set (R318, R330). -/
def LRec.bytes (r : LRec) : Bytes :=
  let head (ctl crc : Nat) : Bytes :=
    beBytes 1 ctl ++ beBytes 1 r.stall ++ beBytes 2 (codeNumber r.code) ++ beBytes 2 r.length ++ beBytes 2 r.time
      ++ beBytes 8 r.seq ++ beBytes 8 r.tick ++ beBytes 4 r.origin ++ beBytes 4 crc
  head (128 + b2n r.sideArea * 64 + r.cls) (crc32c (head 0 0 ++ r.body)) ++ r.body

/-- Take `n` bytes off the front of a region by removing its oldest segments until at most `cap` are left. -/
def trimSegs (cap : Nat) (segs : List LSeg) : List LSeg := segs.drop (segs.length - cap)

/-- The next segment that a region opens, with its EPOCH, and the region without it: a full region's oldest, raised by one;
else an empty one. -/
def LRegion.opens (g : LRegion) : (Nat × Nat) × LRegion :=
  match decide (g.cap ≤ g.segs.length), g.segs, g.spare with
  | true, o :: rest, _ => ((o.place, o.epoch + 1), { g with segs := rest })
  | _, _, e :: rest => (e, { g with spare := rest })
  | _, _, [] => ((g.next, 0), { g with next := g.next + 1 })

/-- A pad that fills the rest of a segment (R316). -/
def LSeg.padded (x : LSeg) (sideArea : Bool) (stall seq tick : Nat) : LSeg :=
  let pad : LRec := ⟨sideArea, 3, stall, 0, 0, seq, tick, 0, zeros (65504 - x.used - 32)⟩
  { x with recs := if x.used + 32 ≤ 65504 then x.recs ++ [pad] else x.recs, used := 65504 }

/-- A record opens the next segment of its region. -/
def LRegion.openWith (g : LRegion) (r : LRec) : LRegion :=
  let o := g.opens
  { o.2 with segs := o.2.segs ++ [⟨o.1.1, o.1.2, r.seq, [r], r.length⟩] }

/-- Write a record to a region (R316, R317): a pad fills a segment too full for it; a full region reuses its oldest
segment with EPOCH raised. The Bool says that a segment was reused. -/
def LRegion.write (g : LRegion) (r : LRec) : LRegion × Bool :=
  match g.segs.getLast? with
  | some last =>
    if last.used + r.length ≤ 65504 then
      ({ g with segs := g.segs.dropLast ++ [{ last with recs := last.recs ++ [r], used := last.used + r.length }] }, false)
    else (({ g with segs := g.segs.dropLast ++ [last.padded r.sideArea r.stall r.seq r.tick] } : LRegion).openWith r, decide (g.cap ≤ g.segs.length))
  | none => (g.openWith r, false)

/-- The records of a region that are no pads, oldest first. -/
def LRegion.records (g : LRegion) : List LRec := (g.segs.flatMap (·.recs)).filter (·.cls != 3)

/-- The owner of a record: its stall for LOG and snapshots, else stall 0, which owns every module event (R328). -/
def recOwner (code stall : Nat) : Nat := if 0x0800 ≤ code ∧ code ≤ 0x0A0F then stall else 0

/-- The bucket of a record: codes 0x0800 to 0x0A0F keep one for each stall (R326). -/
def bucketKey (code stall : Nat) : Nat := code * 64 + recOwner code stall

/-- One more record dropped of a code, and whether its staging queue refused it (R329). -/
def floodAdd (counts : Tbl (Nat × Nat)) (code stall : Nat) (queue : Bool) : Tbl (Nat × Nat) :=
  let old := Tbl.getD counts (bucketKey code stall) (0, 0)
  Tbl.put counts (bucketKey code stall) (old.1 + 1, old.2 + b2n queue)

/-- A record written to the side area of a side, `time` units of 4 ns after T0: it takes the side's next SEQ (R320) and an
entry of its queue. -/
def State.sideWrite (s : State) (sd : SideId) (cls code stall origin time : Nat) (body : Bytes) : State :=
  let seq := s.regWord (Rg.ledgerSideSeq sd)
  let r : LRec := ⟨true, cls, stall, code, time, seq, s.now, origin, recBody body⟩
  (s.modSide sd fun x => { x with sideArea := (x.sideArea.write r).1, sideQueue := x.sideQueue + 1 }).putReg
    (Rg.ledgerSideSeq sd) (seq + 1)

/-- Rate and burst of a code (R326): its entry in the rate table (block 0x10) of the active set; without one 4,800 and 255,
but for CORRECTED, whose default R464 gives. -/
def State.codeRate (s : State) (code : Nat) : Nat × Nat := match s.modActive.get 0x10 code with
  | some r => (u16 r 0, u8 r 2)
  | none => if code = 0x0422 then (10, 20) else (4800, 255)

/-- A full bucket, in units of 1/4,800 of a token. -/
def State.bucketMax (s : State) (code : Nat) : Nat := 4800 * (s.codeRate code).2

/-- What a code's bucket in a table holds: one that is not listed is full. -/
def State.bucketIn (s : State) (b : Tbl Nat) (code stall : Nat) : Nat := Tbl.getD b (bucketKey code stall) (s.bucketMax code)

/-- Whether a bucket holds a token; rate 0 drops every record of the code. -/
def State.holdsToken (s : State) (b : Tbl Nat) (code stall : Nat) : Bool :=
  (s.codeRate code).1 != 0 && decide (4800 ≤ s.bucketIn b code stall)

/-- A table of buckets with one token spent. -/
def State.spendToken (s : State) (b : Tbl Nat) (code stall : Nat) : Tbl Nat :=
  Tbl.put b (bucketKey code stall) (s.bucketIn b code stall - 4800)

/-- Every bucket that is not full gains its rate. -/
def State.refilled (s : State) (b : Tbl Nat) : Tbl Nat :=
  (b.map fun e => (e.1, min (e.2 + (s.codeRate (e.1 / 64)).1) (s.bucketMax (e.1 / 64)))).filter fun e => e.2 != s.bucketMax (e.1 / 64)

/-- Count a record that a side area does not take, for RATE or for its queue, and towards its flood summary. -/
def State.sideDropped (s : State) (sd : SideId) (code stall : Nat) (rate : Bool) : State :=
  ((s.tick1 (Rg.ledgerDrops2 sd) Fd.ledgerDrops2SideDrop).tick1 (Rg.ledgerCodeDrop sd code)
    (if rate then Fd.ledgerCodeDropRate else Fd.ledgerCodeDropOther)).modSide sd fun x => { x with sideDrops := floodAdd x.sideDrops code stall (!rate) }

/-- A record for the side area (R315): it spends a token of its code's bucket, a change record none (R324, R326); its queue
of 512 is admitted by actual occupancy (R327). -/
def State.sideRecord (s : State) (sd : SideId) (cls code stall origin time : Nat) (body : Bytes) : State :=
  let c := codeNumber code
  let b := (s.side sd).sideBuckets
  if c ≠ lcSideChange ∧ !s.holdsToken b c stall then s.sideDropped sd c stall true
  else
    let s1 := if c = lcSideChange then s else s.modSide sd fun x => { x with sideBuckets := s.spendToken b c stall }
    if (s.side sd).sideQueue < 512 then s1.sideWrite sd cls code stall origin time body else s1.sideDropped sd c stall false

/-- A side event. The side measures its offset from T0 (R318): the model leaves the measurement free, within the tick. -/
def State.sideEvent (s : State) (sd : SideId) (code stall origin : Nat) (body : Bytes) : State :=
  s.free.2.sideRecord sd 2 code stall origin (s.free.1.toNat % 52084) body

end Sys2Proof.Machine
end

