-- ==== Sys2Proof/Machine/Leases.lean ====
section
/-! DEFINITION. Maintenance leases (R467 to R469). -/

namespace Sys2Proof.Machine

def lkUpdate : Nat := 1
def lkPairUpdate : Nat := 2
def lkRestart : Nat := 3
def lkDeepTest : Nat := 4
def lkHandover : Nat := 5
def lkCastle : Nat := 6
def lkSafetyCastle : Nat := 7
def lkTimeStep : Nat := 8

/-- The table of R468: whether a request of one kind conflicts with a held lease of another. -/
def leaseClash (want held : Nat) : Bool :=
  match want with
  | 1 | 2 => held != 8
  | 3 | 4 | 5 => decide (1 ≤ held ∧ held ≤ 5)
  | 6 | 7 => held == 1 || held == 2
  | _ => false

/-- Whether a lease request is refused with CONFLICT (R468). -/
def State.leaseConflict (s : State) (kind : Nat) : Bool := s.leases.any fun l => leaseClash kind l.kind

def State.leaseHeld (s : State) (kind : Nat) : Bool := s.leases.any fun l => l.kind == kind

/-- Grant a lease; side 2 stands for the module. -/
def State.takeLease (s : State) (kind side origin : Nat) : State :=
  { s with leases := s.leases ++ [{ kind := kind, side := side, origin := origin, start := s.now }] }

/-- End a lease of a kind. -/
def State.endLease (s : State) (kind : Nat) : State := { s with leases := s.leases.filter fun l => l.kind != kind }

/-- End a lease of a kind that a side holds. -/
def State.endLeaseOf (s : State) (kind side : Nat) : State :=
  { s with leases := s.leases.filter fun l => !(l.kind == kind && l.side == side) }

/-- LEASE[i] (R471). -/
def State.leaseWord (s : State) (i : Nat) : Nat :=
  match s.leases[i]? with
  | some l => l.origin * 2 ^ 32 + l.kind * 2 ^ 28 + l.side * 2 ^ 26 + l.start % 2 ^ 26
  | none => 0

end Sys2Proof.Machine
end

