-- ==== Sys2Proof/Machine/Paths.lean ====
section
/-! DEFINITION. Whether the cross-link carries bells and frames, and whether the other side's switch core forwards (R18,
R235, R238). -/

namespace Sys2Proof.Machine

def State.pathUp (s : State) (sd : SideId) (upper : Bool) : Bool :=
  s.flag (Rg.xlinkLanes sd) (if upper then Fd.xlinkLanesPath13Up else Fd.xlinkLanesPath12Up)

/-- The bell is carried: on its own lane, a spare, or a path. -/
def State.bellCarried (s : State) (sd : SideId) : Bool := (!s.xlink.unlocked && !s.xlink.lost.contains 8) || s.pathUp sd false || s.pathUp sd true

/-- SIDE_SELF.XLINK_UP. -/
def State.xlinkUp (s : State) (sd : SideId) : Bool := (s.pathUp sd false || s.pathUp sd true) && s.bellCarried sd

/-- Every side fault of a side since its boot lies in its scan clusters, conditioning or management units: its rails, clock,
switch core, SerDes and the rest are healthy (R238). -/
def State.confinedFault (s : State) (sd : SideId) : Bool :=
  let l := (s.side sd).health.failed
  !l.isEmpty && l.all fun u => u == 0x00 || decide (2 ≤ u ∧ u ≤ 0x0E)

/-- The switch core of a side forwards, whether or not the side publishes (R238). -/
def State.forwards (s : State) (sd : SideId) : Bool :=
  s.power.mode == .service && s.xlinkUp sd.other && (!(s.side sd).duty.demote || s.confinedFault sd)

/-- How the next packet of a side leaves on the network, its number taken (R199): the active side's on both LANs. -/
def State.netTx (s : State) (sd : SideId) : NetTx × State :=
  let n := (s.side sd).sw.rct
  (⟨(Config.stationMac sd).toNat, n, (s.side sd).role == .active && s.forwards sd.other⟩,
    s.modSide sd fun x => { x with sw := { x.sw with rct := (n + 1) % 65536 } })

/-! ### The station of a side (R418) -/

def State.station (s : State) (sd : SideId) : Option Bytes := s.modActive.get 0x03 sd.code

/-- The UDP command port (R390, R418). -/
def State.cmdPort (s : State) (sd : SideId) : Nat := match s.station sd with
  | some r => u16 r 2
  | none => 49410

/-- The management VLAN, 0 for untagged. -/
def State.mgmtVlan (s : State) (sd : SideId) : Nat := match s.station sd with
  | some r => u16 r 10 % 4096
  | none => 0

/-- The IPv4-mapped IPv6 address of an IPv4 address. -/
def mapped4 (a : Nat) : Nat := 0xFFFF00000000 + a

/-- Whether an address is an IPv4-mapped one. -/
def isMapped4 (a : Nat) : Bool := a / 2 ^ 32 == 0xFFFF

/-- The address of a station in a family, where that family is on. -/
def stationAddr (r : Bytes) (four : Bool) : Option Nat :=
  if four then (if bit (u8 r 1) 0 then some (mapped4 (u32 r 4)) else none)
  else if bit (u8 r 1) 1 then some (beNat (sub r 16 16)) else none

/-- Whether a datagram is addressed to the command port of a side's station. Before a station record is castled in the
spec gives a side no address: any is taken as its own. -/
def State.forStation (s : State) (sd : SideId) (a : UdpAddr) : Bool :=
  a.dstPort.toNat == s.cmdPort sd && (match s.station sd with
    | some r => stationAddr r (isMapped4 a.dst.toNat) == some a.dst.toNat
    | none => true)

/-- A reply's addresses: from the station's address and command port to where the request came from (R391). -/
def replyAddr (a : UdpAddr) : UdpAddr := ⟨a.dst, a.dstPort, a.src, a.srcPort⟩

end Sys2Proof.Machine
end

