-- ==== Sys2Proof/Machine/Rings.lean ====
section
/-! DEFINITION. The Porter's rings (R379 to R387): completions, records written to the host, doorbells, resets, and the
record of refused accesses in HL_ERR. -/

namespace Sys2Proof.Machine

def State.ring (s : State) (sd : SideId) (r : Nat) : RingSt := Tbl.getD (s.side sd).rings r RingSt.empty

def State.putRing (s : State) (sd : SideId) (r : Nat) (x : RingSt) : State :=
  s.modSide sd fun y => { y with rings := Tbl.put y.rings r x }

/-- The word k of an MSI-X table entry: address, upper address, data, vector control, whose mask bit PCIe resets to 1. -/
def State.msixWord (s : State) (sd : SideId) (v k : Nat) : Nat := Tbl.getD (s.side sd).msix.table (4 * v + k) (b2n (k == 3))

/-- An MSI-X vector is raised; behind its mask bit its message waits, shown in the pending bits. -/
def State.raiseMsix (s : State) (sd : SideId) (v : Nat) : State :=
  if !bit (s.msixWord sd v 3) 0 then s.emit (.msix sd v)
  else if (s.side sd).msix.waits.contains v then s
  else s.modSide sd fun y => { y with msix := { y.msix with waits := y.msix.waits ++ [v] } }

/-- The host writes a word of the MSI-X table: a message that waits leaves once its vector is not masked. -/
def State.msixWrite (s : State) (sd : SideId) (i v : Nat) : State :=
  let vector := i / 4
  let s1 := s.modSide sd fun y => { y with msix := { y.msix with table := Tbl.put y.msix.table i v } }
  if (s.side sd).msix.waits.contains vector && !bit (s1.msixWord sd vector 3) 0 then
    (s1.modSide sd fun y => { y with msix := { y.msix with waits := y.msix.waits.filter (· != vector) } }).emit (.msix sd vector)
  else s1

/-- A word of the pending-bit array. -/
def State.pendingWord (s : State) (sd : SideId) (i : Nat) : Nat :=
  listSum ((s.side sd).msix.waits.map fun v => if v / 32 = i then 2 ^ (v % 32) else 0)

/-- A ring's own vector, at most once in every HOLDOFF (R380). -/
def State.ringIrq (s : State) (sd : SideId) (r : Nat) : State :=
  let x := s.ring sd r
  if x.holdoff then s.putRing sd r { x with irqWaits := true }
  else if s.rd (Rg.ringCfg sd r) Fd.ringCfgHoldoff = 0 then s.raiseMsix sd r
  else (s.putRing sd r { x with holdoff := true }).raiseMsix sd r

/-- The end of a holdoff: what waited is signalled by one message (R380). -/
def State.holdoffEnd (s : State) (sd : SideId) (r : Nat) : State :=
  let x := s.ring sd r
  if x.holdoff then
    if x.irqWaits then (s.putRing sd r { x with irqWaits := false }).raiseMsix sd r
    else s.putRing sd r { x with holdoff := false }
  else s

/-- A refused access through the endpoint: HL_ERR keeps the first since VALID was cleared; vector 64 (R378, R380). -/
def State.hlError (s : State) (sd : SideId) (offset : Nat) (st : Status) : State :=
  if s.flag (Rg.hlErr sd) Fd.hlErrValid then s
  else
    (((s.setFlag (Rg.hlErr sd) Fd.hlErrValid true).wr (Rg.hlErr sd) Fd.hlErrStatus st.code).putReg
      (Rg.hlErrAddr sd) offset).raiseMsix sd 64

/-- The number of descriptors of a ring. -/
def State.ringSize (s : State) (sd : SideId) (r : Nat) : Nat := 2 ^ s.rd (Rg.ringCfg sd r) Fd.ringCfgSizeLog2

/-- A ring is enabled and has not stopped. -/
def State.ringRuns (s : State) (sd : SideId) (r : Nat) : Bool :=
  s.flag (Rg.ringCfg sd r) Fd.ringCfgEnabled && !s.flag (Rg.ringCfg sd r) Fd.ringCfgErr

/-- A Porter transaction for a ring: it carries the ring's PASID (R191). -/
def State.hostWrite (s : State) (sd : SideId) (r addr : Nat) (bytes : Bytes) : State :=
  s.emit (.hostWrite sd r (s.rd (Rg.ringPasid sd r) Fd.ringPasidPasid) addr bytes)

/-- HL_BYTES counts the payload bytes that the Porter moves (R388). -/
def State.movedBytes (s : State) (sd : SideId) (n : Nat) : State := s.putReg (Rg.hlBytes sd) (s.regWord (Rg.hlBytes sd) + n)

/-- The Porter completes the descriptor at HEAD (R383): USED and SEQ first, STATUS with DONE last, then the
interrupt. `code`: 0 OK, 1 SHORT_BUF, 2 FAULT. -/
def State.completeHead (s : State) (sd : SideId) (r used code : Nat) : State :=
  let x := s.ring sd r
  match x.descs with
  | [] => s
  | d :: rest =>
    let head := s.rd (Rg.ringPtr sd r) Fd.ringPtrHead
    let at0 := s.regWord (Rg.ringBase sd r) + 32 * head
    let s1 := (s.hostWrite sd r (at0 + 16) (leBytes 4 used)).hostWrite sd r (at0 + 24) (leBytes 8 x.seq)
    let s2 := s1.hostWrite sd r (at0 + 14) (leBytes 2 (0x8000 + code))
    let s3 := s2.putRing sd r { x with descs := rest, used := 0, seq := x.seq + 1 }
    let s4 := (s3.wr (Rg.ringPtr sd r) Fd.ringPtrHead ((head + 1) % s.ringSize sd r)).tick1 (Rg.ringDone sd r) Fd.ringDoneCount
    if d.irq then s4.ringIrq sd r else s4

/-- Descriptors too short for a TO_HOST record complete at once (R383). -/
def State.skipShort (s : State) (sd : SideId) (r limit : Nat) : Nat → State
  | 0 => s
  | n + 1 =>
    match (s.ring sd r).descs with
    | d :: _ => if d.len < limit then (s.completeHead sd r 0 1).skipShort sd r limit n else s
    | [] => s

/-- Descriptors that are too short for their ring's kind complete at once with SHORT_BUF (R383, R385). -/
def State.settleRing (s : State) (sd : SideId) (r : Nat) : State :=
  let x := s.ring sd r
  if s.ringRuns sd r then
    let kind := s.rd (Rg.ringCfg sd r) Fd.ringCfgKind
    if kind = 1 && x.used == 0 then s.skipShort sd r 8192 x.descs.length
    else if kind = 3 && x.flight.isEmpty then s.skipShort sd r 9216 x.descs.length
    else s
  else s

/-- A whole record into a TO_HOST ring (R383): a record that does not fit completes the buffer in progress first, whether or
not another descriptor can take it; the Bool says that one has. -/
def State.ringPut (s : State) (sd : SideId) (r : Nat) (rec : Bytes) : State × Bool :=
  if s.ringRuns sd r && s.rd (Rg.ringCfg sd r) Fd.ringCfgKind == 1 then
    let s0 := s.skipShort sd r 8192 (s.ring sd r).descs.length
    let s1 :=
      match (s0.ring sd r).descs with
      | d :: _ =>
        if (s0.ring sd r).used ≠ 0 ∧ d.len < (s0.ring sd r).used + rec.length then
          let t := s0.completeHead sd r (s0.ring sd r).used 0
          t.skipShort sd r 8192 (t.ring sd r).descs.length
        else s0
      | [] => s0
    let x := s1.ring sd r
    match x.descs with
    | [] => (s1, false)
    | d :: _ =>
      if d.len < rec.length then (s1, false)
      else
        let s2 := s1.hostWrite sd r (d.addr.toNat + x.used) rec
        let s3 := s2.putRing sd r { x with used := x.used + rec.length, first := if x.used = 0 then s.now else x.first }
        (s3.movedBytes sd rec.length, true)
  else (s, false)

/-- One tick after its first record a TO_HOST buffer is completed (R383). -/
def State.ringTimeout (s : State) (sd : SideId) (r : Nat) : State :=
  let x := s.ring sd r
  if s.ringRuns sd r && s.rd (Rg.ringCfg sd r) Fd.ringCfgKind == 1 && x.used != 0 && decide (x.first < s.now) then
    (s.completeHead sd r x.used 0).settleRing sd r
  else s

/-- A ring stops with ERR and raises its vector (R384): cause 1 doorbell, 2 DMA refused. What was in progress is abandoned. -/
def State.ringStop (s : State) (sd : SideId) (r cause : Nat) : State :=
  ((((s.setFlag (Rg.ringCfg sd r) Fd.ringCfgErr true).wr (Rg.ringCfg sd r) Fd.ringCfgErrCause cause)).putRing sd r
    { s.ring sd r with used := 0, flight := [] }).ringIrq sd r

/-- The host's doorbell (R382, R384): TAIL moves forward over descriptors the host has filled. -/
def State.doorbell (s : State) (sd : SideId) (r tail : Nat) (filled : List Descriptor) : State :=
  if s.ringRuns sd r then
    let n := s.ringSize sd r
    let head := s.rd (Rg.ringPtr sd r) Fd.ringPtrHead
    let old := s.rd (Rg.ringPtr sd r) Fd.ringPtrTail
    let owned := (old + n - head) % n
    let add := (tail + n - old) % n
    if n ≤ tail ∨ n ≤ owned + add then s.ringStop sd r 1
    else
      let x := s.ring sd r
      let new := (upto add).map fun i => filled.getD i ⟨0, 0, false, []⟩
      ((s.wr (Rg.ringPtr sd r) Fd.ringPtrTail tail).putRing sd r { x with descs := x.descs ++ new }).settleRing sd r
  else s

/-- The reset of a ring itself (R386): it stops, everything not DONE is abandoned, HEAD and TAIL return to 0. -/
def State.ringClear (s : State) (sd : SideId) (r : Nat) : State :=
  let s1 := (s.setFlag (Rg.ringCfg sd r) Fd.ringCfgEnabled false).setFlag (Rg.ringCfg sd r) Fd.ringCfgErr false
  let s2 := (s1.wr (Rg.ringCfg sd r) Fd.ringCfgErrCause 0).setFlag (Rg.ringCfg sd r) Fd.ringCfgResetDone false
  (s2.putReg (Rg.ringPtr sd r) 0).putRing sd r RingSt.empty

/-- RESET_DONE sets once every DMA request of the ring has finished (R386). -/
def State.ringResetDone (s : State) (sd : SideId) (r : Nat) : State := s.setFlag (Rg.ringCfg sd r) Fd.ringCfgResetDone true

/-- The stall a ring's PASID maps to on its side (R190, R192). -/
def State.pasidStall (s : State) (sd : SideId) (pasid : Nat) : Option Nat :=
  ((upto 256).find? fun i => s.flag (Rg.pasidMap sd i) Fd.pasidMapValid && s.rd (Rg.pasidMap sd i) Fd.pasidMapPasid == pasid).map
    fun i => s.rd (Rg.pasidMap sd i) Fd.pasidMapStall

/-- Mailbox descriptors complete strictly in index order (R383): every reply whose predecessors have theirs. -/
def State.drainFlight (s : State) (sd : SideId) (r : Nat) : Nat → State
  | 0 => s
  | n + 1 =>
    let x := s.ring sd r
    match x.flight, x.descs with
    | (_, some packet) :: rest, d :: _ =>
      let s1 := ((s.putRing sd r { x with flight := rest }).hostWrite sd r d.addr.toNat packet).movedBytes sd packet.length
      (s1.completeHead sd r packet.length 0).drainFlight sd r n
    | _, _ => s

/-- Note the reply of a command in flight. -/
def noteFlight (n : Nat) (packet : Bytes) (l : List (Nat × Option Bytes)) : List (Nat × Option Bytes) :=
  l.map fun e => if e.1 = n then (e.1, some packet) else e

/-- A packet read from a mailbox ring still has its descriptor: the ring has neither stopped nor been reset since (R384,
R386). -/
def State.inFlight (s : State) (sd : SideId) (r n : Nat) : Bool := s.ringRuns sd r && (s.ring sd r).flight.any fun e => e.1 == n

/-- The reply to a mailbox command is written over the command's buffer and the descriptor completes (R385). -/
def State.mailboxReply (s : State) (sd : SideId) (r n : Nat) (packet : Bytes) : State :=
  let x := s.ring sd r
  let s1 := s.putRing sd r { x with flight := noteFlight n packet x.flight }
  (s1.drainFlight sd r x.flight.length).settleRing sd r

end Sys2Proof.Machine
end

