-- ==== Sys2Proof/Machine/Packet.lean ====
section
/-! DEFINITION. Packets, replies and Crier notifications (R393 to R395, R406 to R409). -/

namespace Sys2Proof.Machine

/-! ### Packets (R393, R394) -/

/-- The tag of a packet: HMAC-SHA-256 under the principal's key (R394). -/
def tagOf (key body : Bytes) : Bytes := (hmacSha256 key body).take 16

/-- The header of R393 with the parameters, before the tag. -/
def packetBody (flags len stall side origin seq op status apply : Nat) (params : Bytes) : Bytes :=
  beBytes 2 0x4B56 ++ beBytes 1 1 ++ beBytes 1 flags ++ beBytes 2 len ++ beBytes 1 stall ++ beBytes 1 side
    ++ beBytes 4 origin ++ beBytes 4 seq ++ beBytes 2 op ++ beBytes 2 status ++ beBytes 8 apply ++ zeros 4 ++ params

/-- A signed packet. -/
def signedPacket (key : Bytes) (flags stall side origin seq op status apply : Nat) (params : Bytes) : Bytes :=
  let body := packetBody flags (48 + params.length) stall side origin seq op status apply params
  body ++ tagOf key body

/-- Whether a slot may carry command tags (R446): VALID, not BAD, PURPOSE CMD or SETUP, TAG, bit 0 of STALLS. -/
def State.cmdSlot (s : State) (sd : SideId) (k : Nat) : Bool :=
  let r := Rg.keySlot sd k
  s.flag r Fd.keySlotValid && !s.flag r Fd.keySlotBad && (s.rd r Fd.keySlotPurpose == 1 || s.rd r Fd.keySlotPurpose == 4)
    && bit (s.rd r Fd.keySlotOps) 0 && bit (s.regWord (Rg.keyStalls sd k)) 0

/-- The key of a principal on a side: none when its slot is not usable there (R394, R446). -/
def State.principalKey (s : State) (sd : SideId) (origin : Nat) : Option Bytes :=
  match Tbl.find s.principals origin with
  | none => none
  | some p => if s.cmdSlot sd (u8 p.record 6) then Tbl.find (s.side sd).keys (u8 p.record 6) else none

/-- The largest reply a request accepts (R390). -/
def replyLimit (h : CmdHdr) : Nat :=
  if h.replyMax ≠ 0 then h.replyMax.toNat
  else match h.transport with
    | .udp _ => 1472
    | _ => 9216

/-- A packet to the requester, over the transport of the request and through the side that received it (R390, R391).
Commands the module makes itself and BAR0 accesses get none; neither does a mailbox command whose ring has been reset or
has stopped since (R384, R386). -/
def State.answerWith (s : State) (h : CmdHdr) (packet : Bytes) : State :=
  match h.transport with
  | .internal => s
  | .bar0 => s
  | .mailbox n => if s.inFlight h.side h.ring.val n then (s.emit (.reply h.side h.transport packet none)).mailboxReply h.side h.ring.val n packet else s
  | .udp a =>
    let n := s.netTx h.side
    n.2.emit (.reply h.side h.transport packet (some ⟨n.1, s.mgmtVlan h.side, replyAddr a⟩))
  | .console => s.emit (.reply h.side h.transport packet none)

/-- The reply to a command (R393, R395), tagged with a key, or unsigned. A reply that does not fit returns BAD_LENGTH without
parameters. -/
def State.replyKey (s : State) (key : Option Bytes) (h : CmdHdr) (op : Nat) (st : Status) (apply : Nat) (params : Bytes) : State :=
  let fits := decide (48 + params.length ≤ replyLimit h)
  let params := if fits then params else []
  let code := if fits then st.code else Status.badLength.code
  s.answerWith h (match key with
    | some key => signedPacket key 1 h.stall.toNat h.side.code h.origin.toNat h.seq.toNat op code apply params
    | none => packetBody 5 48 h.stall.toNat h.side.code h.origin.toNat h.seq.toNat op code 0 [] ++ zeros 16)

/-- A reply tagged with the principal's present key. -/
def State.reply (s : State) (h : CmdHdr) (op : Nat) (st : Status) (apply : Nat) (params : Bytes) : State :=
  s.replyKey (s.principalKey h.side h.origin.toNat) h op st apply params

/-- Whether the Crier notifies a principal of an event of a stall (R408). -/
def crierCovers (p : Principal) (stall : Nat) : Bool :=
  bit (u8 p.record 8) 0 && (u8 p.record 5 == 0xFF || u8 p.record 5 == stall)

/-- The body of a notification (R408). -/
def noteBody (code area boots seq cmdSeq status : Nat) (body : Bytes) : Bytes :=
  beBytes 2 code ++ beBytes 1 area ++ beBytes 1 boots ++ beBytes 8 seq ++ beBytes 4 cmdSeq ++ beBytes 2 status
    ++ beBytes 2 (padTo 4 body).length ++ padTo 4 body

/-- The addresses of a notification by UDP: from the side's station to CRIER_ADDR and CRIER_PORT of the principal (R396,
R408), where the station speaks that family. -/
def State.crierAddr (s : State) (sd : SideId) (p : Principal) : Option UdpAddr :=
  let dst := beNat (sub p.record 12 16)
  let out (src : Nat) : UdpAddr := ⟨BitVec.ofNat 128 src, BitVec.ofNat 16 (s.cmdPort sd), BitVec.ofNat 128 dst, BitVec.ofNat 16 (u16 p.record 10)⟩
  match s.station sd with
  | some r => (stationAddr r (isMapped4 dst)).map out
  | none => some (out 0)

/-- Whether a side may send a notification by UDP: while the other is active, only one that answers a request it received
(R199). -/
def State.maySendNote (s : State) (sd : SideId) (answers : Bool) : Bool :=
  answers || (s.side sd).role == .active || s.active.isNone

/-- A notification goes out, by UDP or to the Crier ring as CRIER bit 1 of the principal states; none when it cannot. -/
def State.sendNote (s : State) (sd : SideId) (p : Principal) (answers : Bool) (packet : Bytes) : Option State :=
  if bit (u8 p.record 8) 1 then
    let r := s.ringPut sd (s.rd (Rg.hlCtrl sd) Fd.hlCtrlCrierRing) packet
    if s.flag (Rg.hlCtrl sd) Fd.hlCtrlCrierOn && r.2 then some ((r.1.emit (.note sd true packet none)).raiseMsix sd 65) else none
  else match s.crierAddr sd p with
    | some a =>
      let net := s.netTx sd
      if s.maySendNote sd answers then some (net.2.emit (.note sd false packet (some ⟨net.1, s.mgmtVlan sd, a⟩))) else none
    | none => none

/-- One notification to one recipient (R409): numbered from 1, at most 1,000 a second for each side; one that cannot go out
is dropped. A recipient whose key the side cannot use gets none. -/
def State.notifyOne (s : State) (sd : SideId) (origin stall : Nat) (p : Principal) (answers : Bool) (body : Bytes) : State :=
  match s.principalKey sd origin with
  | none => s
  | some key =>
    let n := Tbl.getD (s.side sd).crierSeq origin 0 + 1
    let packet := signedPacket key 2 stall sd.code origin n 0x0020 0 s.now body
    match if (s.side sd).crierSent < 1000 then s.sendNote sd p answers packet else none with
    | some t => (t.modSide sd fun x => { x with crierSeq := Tbl.put x.crierSeq origin n, crierSent := x.crierSent + 1 }).tick1
        (Rg.crierStats sd) Fd.crierStatsSent
    | none => s.tick1 (Rg.crierStats sd) Fd.crierStatsDropped

/-- The Crier reports an event (R408) to every principal it concerns, in ascending origin. -/
def State.crier (s : State) (sd : SideId) (code area seq stall : Nat) (body : Bytes) : State :=
  let boots := s.rd (Rg.resetCause sd) Fd.resetCauseBootCount % 256
  s.principals.foldl (fun t e => if crierCovers e.2 stall then
    t.notifyOne sd e.1 stall e.2 false (noteBody (codeNumber code) area boots seq 0 0 (body.take 256)) else t) s

/-- The Crier carries a final status to the principal of a command (R406). -/
def State.crierFinal (s : State) (sd : SideId) (h : CmdHdr) (st : Status) (body : Bytes) : State :=
  let boots := s.rd (Rg.resetCause sd) Fd.resetCauseBootCount % 256
  match Tbl.find s.principals h.origin.toNat with
  | some p =>
    if bit (u8 p.record 8) 0 then
      s.notifyOne sd h.origin.toNat h.stall.toNat p (h.side == sd) (noteBody 0 0xFF boots 0 h.seq.toNat st.code (body.take 256))
    else s
  | none => s

/-- A module event that the Crier reports too (R408): once its record has taken its SEQ. -/
def State.moduleReport (s : State) (code stall : Nat) (body : Bytes) : State :=
  s.ledger ⟨3, stall, 0, code, 0, body, false, true⟩

/-- A side event that the Crier of that side reports, with the SEQ of its record, or 0 where it was dropped (R408). -/
def State.sideReport (s : State) (sd : SideId) (code : Nat) (body : Bytes) : State :=
  let seq := s.regWord (Rg.ledgerSideSeq sd)
  let t := s.sideEvent sd code 0 0 body
  t.crier sd code 1 (if t.regWord (Rg.ledgerSideSeq sd) = seq then 0 else seq) 0 body

end Sys2Proof.Machine
end

