-- ==== Sys2Proof/Machine/Views.lean ====
section
/-! DEFINITION. Typed views of configuration records: the safety table (R357), program images and their tasks (R136,
R116, R119), stall grants (R175), time parameters (R417), and what a stall may reach (R173, R502). -/

namespace Sys2Proof.Machine

/-! ### Time parameters (block 0x01) -/

/-- The PTP record without one in the set: the defaults of R280, R287 to R289; UTC_DEFAULT as TIME_UTC resets. -/
def defaultPtp : Bytes :=
  zeros 8 ++ beBytes 4 0x00030000 ++ beBytes 4 0x00004CCD ++ beBytes 4 1000000 ++ beBytes 4 10000 ++ beBytes 2 37 ++ zeros 6

/-- The record of block 0x01: D, f0, 6 reserved bytes, the PTP record; D is 3 and f0 is 50 Hz without one. -/
def Scope.timeRec (c : Scope) : Bytes := (c.get 0x01 0).getD ([3, 50] ++ zeros 6 ++ defaultPtp)

/-- The seal delay D in force (R35). -/
def State.sealDelay (s : State) : Nat := u8 s.modActive.timeRec 0

/-! ### The safety table (R357) -/

structure SafeHead where
  nInst : Nat
  nTele : Nat
  nChan : Nat
  length : Nat
  pairs : Nat
  safeCh : Nat
  deriving DecidableEq, Repr

def safeHead (t : Bytes) : SafeHead :=
  ⟨u8 t 3, u8 t 4, u8 t 5, u32 t 12, u32 t 16, u32 t 20⟩

/-- Whether a table is there at all. -/
def safePresent (t : Bytes) : Bool := u16 t 0 == 0x4B53

/-- The channel records, 16 bytes each (R335). -/
def safeChannels (t : Bytes) : List Bytes := (upto (safeHead t).nChan).map fun k => sub t (32 + 16 * k) 16

/-- The instance records, 32 bytes each (R358). -/
def safeInstances (t : Bytes) : List Bytes :=
  let h := safeHead t
  (upto h.nInst).map fun k => sub t (32 + 16 * h.nChan + 32 * k) 32

/-- The telegram records, 32 bytes each (R358). -/
def safeTelegrams (t : Bytes) : List Bytes :=
  let h := safeHead t
  (upto h.nTele).map fun k => sub t (32 + 16 * h.nChan + 32 * h.nInst + 32 * k) 32

def safeGrantAt (t : Bytes) : Nat := let h := safeHead t; 32 + 16 * h.nChan + 32 * h.nInst + 32 * h.nTele

/-- Stall 63's record (R175). -/
def safeGrant (t : Bytes) : Option Bytes := if safePresent t then some (sub t (safeGrantAt t) 128) else none

/-- Stall 63's program image. -/
def safeProgram (t : Bytes) : Option Bytes :=
  let at0 := safeGrantAt t + 128
  if safePresent t && decide (at0 + 64 ≤ t.length) then some (t.drop at0) else none

/-- The field channels assigned to safety functions (SAFE_CH). -/
def State.safeChannelMask (s : State) : Nat := if safePresent s.safeActive then (safeHead s.safeActive).safeCh else 0

def State.isSafeChannel (s : State) (fio : Nat) : Bool := bit s.safeChannelMask (fio - 1)

/-! ### Grants (R175) -/

/-- The active grant record of a stall. -/
def State.grant (s : State) (stall : Nat) : Option Bytes :=
  if stall = 63 then safeGrant s.safeActive else (s.stallScope stall).get 0x20 0

/-- The shadow grant record of a stall. -/
def State.shadowGrant (s : State) (stall : Nat) : Option Bytes :=
  if stall = 63 then safeGrant s.safeShadow else (s.stallShadowScope stall).get 0x20 0

/-- Whether a number lies in one of `n` ranges (first, count: 2 bytes each) of a grant record from `off`. -/
def inRanges (g : Bytes) (off n v : Nat) : Bool :=
  (upto n).any fun k => decide (u16 g (off + 4 * k) ≤ v ∧ v < u16 g (off + 4 * k) + u16 g (off + 4 * k + 2))

/-- The state of a stall (R178): 0 Empty, 1 Created, 2 Loaded, 3 Running, 4 Faulted, 5 Resetting. -/
def State.stallState (s : State) (stall : Nat) : Nat := s.rd (Rg.stallState stall) Fd.stallStateState

def State.setStallState (s : State) (stall v : Nat) : State := s.wr (Rg.stallState stall) Fd.stallStateState v

def stEmpty : Nat := 0
def stCreated : Nat := 1
def stLoaded : Nat := 2
def stRunning : Nat := 3
def stFaulted : Nat := 4
def stResetting : Nat := 5

/-- OWNER of an SV subscription record (R67). -/
def subOwner (r : Bytes) : Nat := u8 r 169

/-- Whether a stall may read a channel: a granted range, or a channel of a subscription it owns (R173, R502).
`owned` says whether a channel belongs to a subscription of a stall. -/
def State.mayReadChannel (s : State) (stall c : Nat) (owned : Nat → Nat → Bool) : Bool :=
  stall == 0 || (match s.grant stall with | some g => inRanges g 48 8 c | none => false) || owned stall c

def State.mayReadGroup (s : State) (stall g : Nat) : Bool :=
  stall == 0 || (match s.grant stall with | some r => inRanges r 80 4 g | none => false)

def State.mayReadGoose (s : State) (stall j : Nat) : Bool :=
  stall == 0 || (match s.grant stall with | some r => inRanges r 96 4 j | none => false)

/-- Whether a field channel belongs to a stall: its FIELD grant; SAFE_CH for stall 63 (R173, R189, R502). -/
def State.fieldOwner (s : State) (stall fio : Nat) : Bool :=
  if stall = 63 then s.isSafeChannel fio
  else match s.grant stall with
    | some g => bit (u32 g 24) (fio - 1)
    | none => false

/-- The right of a stall to a key slot (R173, R502). -/
def State.keyRight (s : State) (stall k : Nat) : Bool :=
  stall == 0 || (match s.grant stall with | some g => bit (u64 g 32) k | none => false)

/-- Whether slot k of a side may be used on behalf of a stall, for one of `purposes` and the operation bit `op` (0 TAG,
1 VERIFY, 2 UNWRAP) (R446). -/
def State.slotAllows (s : State) (sd : SideId) (k stall : Nat) (purposes : List Nat) (op : Nat) : Bool :=
  s.flag (Rg.keySlot sd k) Fd.keySlotValid && !s.flag (Rg.keySlot sd k) Fd.keySlotBad
    && purposes.contains (s.rd (Rg.keySlot sd k) Fd.keySlotPurpose) && bit (s.rd (Rg.keySlot sd k) Fd.keySlotOps) op
    && s.keyRight stall k && bit (s.regWord (Rg.keyStalls sd k)) stall

/-! ### Instants of ticks (R29, R30) -/

/-- Start of a tick in ns of TAI since the PTP epoch. -/
def tickStart (w : Nat) : Nat := w / 4800 * 1000000000 + w % 4800 * 625000 / 3

/-- The tick that holds an instant given in ns of TAI: index k with floor(k × 625,000 / 3) ≤ ns < that of k + 1. -/
def tickOfNs (t : Nat) : Nat :=
  let k := (t % 1000000000 * 3 + 2) / 625000
  t / 1000000000 * 4800 + k

/-! ### Program images (R136) and tasks (R116) -/

/-- The program image of a stall in its active scope. -/
def State.program (s : State) (stall : Nat) : Option Bytes :=
  if stall = 63 then safeProgram s.safeActive else (s.stallScope stall).get 0x21 0

def imgCode (img : Bytes) : Bytes := sub img (u32 img 8) (u32 img 12)
def imgTasks (img : Bytes) : Nat := u8 img 64
def imgAbortLimit (img : Bytes) : Nat := u8 img 65
def imgTaskRec (img : Bytes) (k : Nat) : Bytes := sub img (80 + 64 * k) 64

/-- A task record (R116) read into its fields. -/
structure Task where
  task : Nat
  enabled : Bool
  period : Nat
  phase : Nat
  cluster : Nat
  core : Nat
  order : Nat
  nInputs : Nat
  wDecl : Nat
  entry : Nat
  inSize : Nat
  outSize : Nat
  retSize : Nat
  locSize : Nat
  init : Nat
  failsafe : Nat
  qualMap : Nat
  deriving DecidableEq, Repr

def readTask (r : Bytes) : Task :=
  { task := u8 r 0, enabled := bit (u8 r 1) 0, period := u16 r 2, phase := u16 r 4, cluster := u8 r 6, core := u8 r 7
    order := u8 r 8, nInputs := u16 r 10, wDecl := u32 r 12, entry := u32 r 16, inSize := u32 r 20, outSize := u32 r 24
    retSize := u32 r 28, locSize := u32 r 32, init := u32 r 36, failsafe := u32 r 40, qualMap := u32 r 44 }

/-- The tasks of an image, in ascending order of their records. -/
def tasksOf (img : Bytes) : List Task := (upto (imgTasks img)).map fun k => readTask (imgTaskRec img k)

/-- The logical core of a task (R114). -/
def Task.coreNo (t : Task) : Nat := 8 * t.cluster + t.core

/-- C_in (R120). -/
def Task.cIn (t : Task) : Nat := 40 + ceilDiv t.inSize 16

/-- A task of a stall's active image. -/
def State.task (s : State) (stall task : Nat) : Option Task :=
  match s.program stall with
  | none => none
  | some img => (tasksOf img).find? fun t => t.task == task

/-- The tasks of a stall's active image. -/
def State.tasks (s : State) (stall : Nat) : List Task := match s.program stall with
  | none => []
  | some img => tasksOf img

/-- An input declaration (R119). -/
structure InputDecl where
  kind : Nat
  latch : Bool
  count : Nat
  source : Nat
  deriving DecidableEq, Repr

def readDecl (b : Bytes) : InputDecl := ⟨u8 b 0, bit (u8 b 1) 0, u16 b 2, u16 b 4⟩

/-- How many declarations come before those of a task. -/
def declsBefore (img : Bytes) (task : Nat) : Nat :=
  listSum (((tasksOf img).takeWhile fun t => t.task != task).map (·.nInputs))

/-- The input declarations of a task of an image, in listed order. -/
def declsOf (img : Bytes) (t : Task) : List InputDecl :=
  let at0 := 80 + 64 * imgTasks img + 8 * declsBefore img t.task
  (upto t.nInputs).map fun k => readDecl (sub img (at0 + 8 * k) 8)

/-- A task's initial retained state: INIT 0 means all zeros (R136). -/
def initOf (img : Bytes) (t : Task) : Mem := if t.init = 0 then [] else memOf (sub img t.init t.retSize)

/-- A task's fail-safe output image. -/
def failsafeOf (img : Bytes) (t : Task) : Mem := if t.outSize = 0 then [] else memOf (sub img t.failsafe t.outSize)

/-- Whether QUAL_MAP marks output word n as a quality word (R136). -/
def qualMarked (img : Bytes) (t : Task) (n : Nat) : Bool := bit (u8 img (t.qualMap + n / 8)) (n % 8)

/-- A size in whole 64-byte lines. -/
def round64 (n : Nat) : Nat := ceilDiv n 64 * 64

/-- The key of a task in tables: 16 × stall + task. -/
def taskKey (stall task : Nat) : Nat := 16 * stall + task

/-- The state of a task on a side. -/
def State.taskSt (s : State) (sd : SideId) (stall task : Nat) : TaskSt :=
  Tbl.getD (s.side sd).tasks (taskKey stall task) TaskSt.empty

def State.putTaskSt (s : State) (sd : SideId) (stall task : Nat) (t : TaskSt) : State :=
  s.modSide sd fun x => { x with tasks := Tbl.put x.tasks (taskKey stall task) t }

/-- A core of a side. -/
def State.coreSt (s : State) (sd : SideId) (n : Nat) : CoreSt := Tbl.getD (s.side sd).cores n CoreSt.idle

def State.putCore (s : State) (sd : SideId) (n : Nat) (c : CoreSt) : State :=
  s.modSide sd fun x => { x with cores := Tbl.put x.cores n c }

/-- All stalls. -/
def allStalls : List Nat := upto 64

end Sys2Proof.Machine
end

