-- ==== Sys2Proof/Machine/Cmd.lean ====
section
/-! DEFINITION. How a command is admitted and executed (R398 to R406): rights, parameter length, apply tick, its effect,
its reply, its change record and its outcome. Each command of the opcode tables is a `CmdSpec`. -/

namespace Sys2Proof.Machine

/-- The roles of R396, and the least roles of R398. -/
inductive CmdRole where
  | observer
  | operator
  | engineer
  | safetyEngineer
  | manager
  | updater
  deriving DecidableEq, Repr

/-- ROLE of a principal record (R396). -/
def roleOf (n : Nat) : Option CmdRole :=
  match n with
  | 0 => some .observer
  | 1 => some .operator
  | 2 => some .engineer
  | 3 => some .safetyEngineer
  | 4 => some .manager
  | 5 => some .updater
  | _ => none

/-- The least roles a role meets (R398). -/
def meets (r least : CmdRole) : Bool :=
  match r with
  | .observer => least == .observer
  | .operator => least == .observer || least == .operator
  | .engineer => least == .observer || least == .operator || least == .engineer
  | .manager => least == .observer || least == .operator || least == .engineer || least == .manager
  | .safetyEngineer => least == .observer || least == .operator || least == .safetyEngineer
  | .updater => least == .observer || least == .updater

/-- What the execution of a command answers: the new state, its status, its reply parameters. -/
structure CmdOut where
  s : State
  status : Status
  body : Bytes

/-- One opcode: its least role (none: created only by the module), whether it is listed in the bell, whether a parameter
length is right, whether it must name STALL 0, whether its subject belongs to a stall (R399), whether it changes
side-local state (R324), and its effect. -/
structure CmdSpec where
  op : Nat
  role : Bytes → Option CmdRole
  listed : Bytes → Bool
  lenOk : Bytes → Bool
  stall0 : Bool
  owns : State → Bytes → Nat → Bool
  changes : Bool
  run : CmdHdr → Bytes → State → CmdOut

/-- A refusal leaves the state alone. -/
def refuse (s : State) (st : Status) : CmdOut := ⟨s, st, []⟩
def refuseWith (s : State) (st : Status) (body : Bytes) : CmdOut := ⟨s, st, body⟩
/-- Executed as requested. -/
def done (s : State) (body : Bytes) : CmdOut := ⟨s, .ok, body⟩

/-- The role of a command that does not depend on its parameters. -/
def always (r : CmdRole) : Bytes → Option CmdRole := fun _ => some r

/-- Whether a principal may send the command (R398, R399); the command's own parameter length comes next (R400). -/
def State.barred (s : State) (c : CmdSpec) (h : CmdHdr) (p : Bytes) : Option Status :=
  match h.transport with
  | .internal => none
  | .bar0 => none
  | _ =>
    match Tbl.find s.principals h.origin.toNat with
    | none => some .badAuth
    | some pr =>
      match roleOf (u8 pr.record 4), c.role p with
      | some r, some least =>
        let scope := u8 pr.record 5
        let st := h.stall.toNat
        if !meets r least then some .noRight
        else if scope != 0xFF && scope != st then some .noRight
        else if c.stall0 && st != 0 then some .noRight
        else if st != 0 && !c.owns s p st then some .noRight
        else if !c.lenOk p then some .badLength
        else none
      | _, _ => some .noRight

/-- The record of a refused principal (R322, R400). -/
def State.refusedPrincipal (s : State) (h : CmdHdr) (st : Status) : State :=
  if st = .badAuth ∨ st = .noRight ∨ st = .replay then
    s.sideEvent h.side lcRefusedPrincipal h.stall.toNat h.origin.toNat (beBytes 4 h.origin.toNat ++ beBytes 2 st.code ++ zeros 10)
  else s

/-- Keep the outcome of a sequence number: the last 64 of each principal (R406). -/
def State.noteOutcome (s : State) (h : CmdHdr) (st : Status) (tick : Nat) : State :=
  let k := h.origin.toNat
  let old := (Tbl.getD s.outcomes k []).filter fun o => o.seq != h.seq.toNat
  let new := old ++ [({ seq := h.seq.toNat, status := st, tick := tick } : CmdResult)]
  { s with outcomes := Tbl.put s.outcomes k (new.drop (new.length - 64)) }

/-- A command whose sequence number was accepted, and which is refused when it arrives: its outcome and its reply. -/
def State.turnAway (s : State) (h : CmdHdr) (op : Nat) (st : Status) (body : Bytes) : State :=
  (s.noteOutcome h st 0).reply h op st 0 body

/-- Whether a status says that the command took effect. -/
def Status.good (st : Status) : Bool := st == .ok || st == .acceptedPending

/-- The body of a command's change record (R324): a BAR0 write gives its register address and the value written. -/
def commandChange (op : Nat) (st : Status) (h : CmdHdr) (p : Bytes) : Bytes :=
  match h.transport with
  | .bar0 => changeBody 0xFFFF st.code (u32 p 0) (p.drop 8)
  | _ => changeBody op st.code h.seq.toNat p

/-- Whether a command executed: it did what was asked, or it answers with what it read and STATE for a side that is Out
(R393). -/
def CmdOut.executed (r : CmdOut) : Bool := r.status.good || (r.status == .state && !r.body.isEmpty)

/-- A refusal that the bell lists and both sides make there: a SAFE_UNLOCK with its outcome (R360), a SAFE_RESET that finds
RESET_READY clear (R351). -/
def listsRefusal (op : Nat) (st : Status) : Bool := (op == 0x0D01 && st == .safetyPassword) || (op == 0x0D06 && st == .state)

/-- The change record of an executed command (R324); a LEDGER_NOTE is a record itself (R323), and an applied SAFE_CASTLE
makes its own, with both CRCs (R361). `queued` says that it was validated before this bell. -/
def State.changeRecord (s : State) (c : CmdSpec) (h : CmdHdr) (p : Bytes) (st : Status) (queued : Bool) : State :=
  if c.op = 0x0B05 || (c.op == 0x0D05 && st.good) then s
  else if c.listed p then
    if st.good then s.ledger ⟨0, h.stall.toNat, 0, lcChange, h.origin.toNat, recBody (commandChange c.op st h p), true, false⟩
    else if queued || listsRefusal c.op st then
      s.ledger ⟨0, h.stall.toNat, 0, lcRefusedAtBell, h.origin.toNat, recBody (commandChange c.op st h p), true, false⟩
    else s
  else if c.changes && st.good then
    s.sideEvent h.side lcSideChange h.stall.toNat h.origin.toNat (commandChange c.op st h p)
  else s

/-- The lease that a castling command holds while it waits for its bell (R467). -/
def castleLease (op : Nat) : Nat := if op = 0x0205 then lkCastle else if op = 0x0D05 then lkSafetyCastle else 0

/-- A castling command that begins to wait holds its lease. -/
def State.holdCastle (s : State) (op origin : Nat) : State :=
  if castleLease op = 0 then s else s.takeLease (castleLease op) 2 origin

/-- Drop the first element that satisfies a test. -/
def dropFirst {α : Type} (p : α → Bool) : List α → List α
  | [] => []
  | x :: xs => if p x then xs else x :: dropFirst p xs

/-- The bell that applies it ends the lease. -/
def State.freeCastle (s : State) (op origin : Nat) : State :=
  if castleLease op = 0 then s
  else { s with leases := dropFirst (fun l => l.kind == castleLease op && l.origin == origin) s.leases }

/-- Validations broken by a write are abandoned with CONFLICT (R422). -/
def State.abandonValidations (s : State) : State :=
  s.validations.foldl (fun t e =>
    if e.2.broken then
      (({ t with validations := Tbl.del t.validations e.1 }).noteOutcome e.2.hdr .conflict t.now).crierFinal e.2.hdr.side e.2.hdr .conflict []
    else t) s

/-- A command executes at this bell (R404): effect, change record, outcome, reply. The reply is tagged with the key
the principal had before the command (R449). -/
def State.execute (s : State) (c : CmdSpec) (h : CmdHdr) (p : Bytes) : State :=
  let r := c.run h p s
  let t := (r.s.abandonValidations.changeRecord c h p r.status false).noteOutcome h r.status s.now
  t.replyKey (s.principalKey h.side h.origin.toNat) h c.op r.status (if r.executed then s.now else 0) r.body

/-- A queued command executes at its bell: one that was answered ACCEPTED_PENDING has its final status carried by the
Crier (R406). -/
def State.executeQueued (s : State) (c : CmdSpec) (w : WaitCmd) : State :=
  let r := c.run w.hdr w.params (s.freeCastle c.op w.hdr.origin.toNat)
  let t := (r.s.abandonValidations.changeRecord c w.hdr w.params r.status true).noteOutcome w.hdr r.status s.now
  if !w.answered then t.replyKey (s.principalKey w.hdr.side w.hdr.origin.toNat) w.hdr c.op r.status (if r.executed then s.now else 0) r.body
  else t.crierFinal w.hdr.side w.hdr r.status r.body

/-- The checks of an apply tick (R403): none when it is in order. -/
def applyTickCheck (now apply : Nat) : Option Status :=
  if apply = 0 then none
  else if apply ≤ now then some .late
  else if apply > now + 414720000 then some .range
  else none

/-- The validated commands of a side that wait for a later apply tick (R403). -/
def State.waitingOn (s : State) (sd : SideId) : List WaitCmd := s.waiting.filter fun w => w.hdr.side == sd && w.tick != 0

/-- A command is refused with LATE (R46): the active side counts the listed ones. -/
def State.lateRefused (s : State) (c : CmdSpec) (p : Bytes) (st : Status) : State :=
  if st == .late && c.listed p then s.tick1 (Rg.bellDefer s.speaker) Fd.bellDeferLateRefused else s

/-- A validated command waits for its bell; with a tick later than the next bell's it is answered ACCEPTED_PENDING. -/
def State.enqueue (s : State) (c : CmdSpec) (h : CmdHdr) (p : Bytes) : State :=
  let tick := h.applyTick.toNat
  let later := tick != 0 && tick != s.now + 1
  let w : WaitCmd := { hdr := h, op := c.op, params := p, tick := tick, answered := later, listed := c.listed p }
  let t := ({ s.holdCastle c.op h.origin.toNat with waiting := s.waiting ++ [w] }).noteOutcome h .acceptedPending 0
  if later then t.reply h c.op .acceptedPending 0 [] else t

/-- A command's own checks when it arrives (R400, R403): it passes against the present state or against `foreseen`, the
state that the commands already waiting will leave (R405; DEDUCED); the bell checks it again (R177). -/
def State.passes (s : State) (foreseen : State → State) (c : CmdSpec) (h : CmdHdr) (p : Bytes) : Bool :=
  (c.run h p s).executed || (c.run h p (foreseen s)).executed || listsRefusal c.op (c.run h p s).status

/-- The bytes of a command record of the bell (R41). -/
def cmdSize (p : Bytes) : Nat := 16 + (p.length + 7) / 8 * 8

/-- Whether the commands that wait for the bell of tick t leave no room in it for one more (R44, R46). -/
def State.bellFull (s : State) (t : Nat) (p : Bytes) : Bool :=
  let in_ := s.waiting.filter fun w => w.listed && (w.tick == t || (w.tick == 0 && t == s.now + 1))
  decide (32 ≤ in_.length) || decide (2048 < (in_.map fun w => cmdSize w.params).sum + cmdSize p)

/-- A command that will wait for its bell (R403): a listed one, and any with a later apply tick, is validated when it arrives;
a side holds at most 256 for a later apply tick. -/
def State.hold (s : State) (foreseen : State → State) (c : CmdSpec) (h : CmdHdr) (p : Bytes) : State :=
  if (c.listed p || h.applyTick != 0) && !s.passes foreseen c h p then s.turnAway h c.op (c.run h p s).status (c.run h p s).body
  else if c.listed p && h.applyTick != 0 && s.bellFull h.applyTick.toNat p then (s.lateRefused c p .late).turnAway h c.op .late []
  else if h.applyTick ≠ 0 ∧ 256 ≤ (s.waitingOn h.side).length then s.turnAway h c.op .noResource []
  else s.enqueue c h p

/-- The side is in deep self-test: everything through it is refused with BUSY_TEST, retry tick 0 (R466). -/
def State.deepTest (s : State) (sd : SideId) : Bool := s.flag (Rg.healthTest sd) Fd.healthTestDeepTest

/-- Whether a command comes from outside, through its side. -/
def isOutside (h : CmdHdr) : Bool := h.transport != .internal

/-- What is done with a command that its side takes: the checks 7 and 8 of R400, a deep self-test of the side (R466),
the apply tick (R403); `go` is what becomes of one that passes them. -/
def State.take (s : State) (c : CmdSpec) (h : CmdHdr) (p : Bytes) (go : State) : State :=
  match s.barred c h p with
  | some st => (s.refusedPrincipal h st).turnAway h c.op st []
  | none =>
    if isOutside h && s.deepTest h.side then s.turnAway h c.op .busyTest (zeros 8)
    else match applyTickCheck s.now h.applyTick.toNat with
      | some st => (s.lateRefused c p st).turnAway h c.op st []
      | none => go

/-- A command row: with apply tick 0 it executes at this bell. -/
def State.submit (s : State) (c : CmdSpec) (h : CmdHdr) (p : Bytes) : State :=
  s.take c h p (if h.applyTick = 0 then s.execute c h p else s.hold id c h p)

/-- A command row's meaning. -/
def runCmd (c : CmdSpec) (h : CmdHdr) (p : Bytes) (s : State) : Host.Outcome State Fault Refusal := .next (s.submit c h p)

/-- The subject is the stall named in the first parameter byte. -/
def ownsFirst : State → Bytes → Nat → Bool := fun _ p st => u8 p 0 == st
/-- Any stall may issue the command. -/
def ownsAny : State → Bytes → Nat → Bool := fun _ _ _ => true
/-- No tenant may. -/
def ownsNone : State → Bytes → Nat → Bool := fun _ _ _ => false

/-- Exactly n parameter bytes. -/
def lenIs (n : Nat) : Bytes → Bool := fun p => p.length == n

/-- Whole items of a list that fit in a reply beside `used` bytes (R395). -/
def fitItems (h : CmdHdr) (used : Nat) : List Bytes → List Bytes
  | [] => []
  | i :: rest => if 48 + used + i.length ≤ replyLimit h then i :: fitItems h (used + i.length) rest else []

end Sys2Proof.Machine
end

