-- ==== Sys2Proof/Machine/Pools.lean ====
section
/-! DEFINITION. Pitches and pools (R170 to R176, R502): what the grants hold, what is free, the checks of a stall
record, cycle demand (R170) and core sums (R118). -/

namespace Sys2Proof.Machine

/-- Channel equivalents of one selected entry, by RATE code (R66). -/
def rateEq (rate : Nat) : Nat :=
  match rate with
  | 0 => 1
  | 1 => 3
  | 2 => 20
  | 3 => 1
  | 4 => 3
  | _ => 4

/-- Channel equivalents of a subscription record (R66). -/
def subEq (r : Bytes) : Nat := u8 r 14 * rateEq (u8 r 12)

/-- The SV subscriptions of a scope. -/
def svSubs (c : Scope) : List Bytes := (c.block 0x04).map (·.2)

/-- Channel equivalents of a scope's subscriptions made under a stall (R173). -/
def eqUnder (c : Scope) (stall : Nat) : Nat := listSum (((svSubs c).filter fun r => subOwner r == stall).map subEq)

/-- Channel equivalents of a whole configuration set (R66). -/
def eqTotal (c : Scope) : Nat := listSum ((svSubs c).map subEq)

/-- A number of a grant record, 0 without one. -/
def gNum (g : Option Bytes) (f : Bytes → Nat) : Nat := match g with
  | some b => f b
  | none => 0

def gCycles (b : Bytes) : Nat := u16 b 2
def gMem (l : Nat) (b : Bytes) : Nat := u8 b (4 + l)
def gEq (b : Bytes) : Nat := u16 b 14
def gGoose (b : Bytes) : Nat := u16 b 16
def gCapture (b : Bytes) : Nat := u16 b 18
def gSv (b : Bytes) : Nat := u8 b 20
def gRings (b : Bytes) : Nat := u8 b 21
def gLedger (b : Bytes) : Nat := u16 b 22
def gField (b : Bytes) : Nat := u32 b 24
/-- All memory pitches of a record. -/
def gMemAll (b : Bytes) : Nat := listSum ((upto 10).map fun l => gMem l b)

/-- What a stall holds of a resource: the larger of its active and its shadow grant (R174). -/
def State.held (s : State) (f : Bytes → Nat) (stall : Nat) : Nat := max (gNum (s.grant stall) f) (gNum (s.shadowGrant stall) f)

/-- The same over a list of stalls, without one of them. -/
def State.heldSum (s : State) (f : Bytes → Nat) (stalls : List Nat) : Nat := listSum (stalls.map (s.held f))

/-- The tenant stalls. -/
def tenants : List Nat := (upto 62).map (· + 1)

/-- Memory pitches held by a stall, cluster by cluster (R174). -/
def State.heldMem (s : State) (stall : Nat) : Nat := listSum ((upto 10).map fun l => s.held (gMem l) stall)

def State.cycFree (s : State) : Nat := 12000 - s.heldSum gCycles tenants
def State.memFree (s : State) : Nat := 304 - listSum (tenants.map s.heldMem)
def State.captFree (s : State) : Nat := 256 - s.heldSum gCapture (0 :: tenants)
def State.svFree (s : State) : Nat := 64 - s.heldSum gSv (0 :: tenants)
def State.gooseFree (s : State) : Nat := 512 - s.heldSum gGoose (0 :: 63 :: tenants)
def State.ringsFree (s : State) : Nat := 60 - s.heldSum gRings tenants
def State.ledgerFree (s : State) : Nat := 2048 - s.heldSum gLedger tenants
def State.eqFree (s : State) : Nat :=
  8192 - (s.heldSum gEq (63 :: tenants) + max (eqUnder s.modActive 0) (eqUnder s.modShadow 0))
/-- Pitches free on a cluster (R172). -/
def State.clusterFree (s : State) (l : Nat) : Nat := 31 - s.heldSum (gMem l) allStalls
def State.reserveUsed (s : State) (l : Nat) : Nat := s.heldSum (gMem l) [0, 63]

/-! ### The checks of R176 -/

/-- A record of stall 0 or 63 without the fields that are ignored there (R502): LEDGER and RINGS; of stall 0 also STREAM_EQ,
KEYS, CAN1, CAN2 and the ranges; of stall 63 also FIELD. -/
def grantInForce (stall : Nat) (g : Bytes) : Bytes :=
  if stall = 0 then patch (patch (patch g 14 (zeros 2)) 21 (zeros 3)) 32 (zeros 80)
  else if stall = 63 then patch g 21 (zeros 7)
  else g

/-- Check 1: every field within its range; a range with COUNT 0 is unused (R175). -/
def grantRange (g : Bytes) : Bool :=
  g.length == 128 && decide (gCycles g ≤ 12000) && (upto 10).all (fun l => decide (gMem l g ≤ 31))
    && decide (gEq g ≤ 8192) && decide (gGoose g ≤ 512) && decide (gCapture g ≤ 256) && decide (gSv g ≤ 64)
    && decide (gRings g ≤ 60) && decide (gLedger g ≤ 2048) && allZero (sub g 28 4) && allZero (sub g 112 16)
    && [40, 44].all (fun o => decide (u8 g (o + 1) ≤ 64 ∧ u8 g (o + 3) ≤ 32 ∧ (u8 g (o + 1) = 0 ∨ u8 g o + u8 g (o + 1) ≤ 64)
        ∧ (u8 g (o + 3) = 0 ∨ u8 g (o + 2) + u8 g (o + 3) ≤ 32)))
    && (upto 8).all (fun k => u16 g (50 + 4 * k) == 0 || decide (u16 g (48 + 4 * k) + u16 g (50 + 4 * k) ≤ 8192))
    && (upto 4).all (fun k => u16 g (82 + 4 * k) == 0 || decide (u16 g (80 + 4 * k) + u16 g (82 + 4 * k) ≤ 1024))
    && (upto 4).all (fun k => u16 g (98 + 4 * k) == 0 || decide (u16 g (96 + 4 * k) + u16 g (98 + 4 * k) ≤ 2048))

/-- Whether two ranges share a number. -/
def rangesMeet (a n b m : Nat) : Bool := decide (n ≠ 0 ∧ m ≠ 0 ∧ a < b + m ∧ b < a + n)

/-- Whether two records share an exclusive grant: field channels, CAN buffers or filters (R173). -/
def grantsOverlap (g o : Bytes) : Bool :=
  (gField g &&& gField o) != 0 || [40, 42, 44, 46].any fun k => rangesMeet (u8 g k) (u8 g (k + 1)) (u8 o k) (u8 o (k + 1))

/-- Check 3: no exclusive grant overlaps another stall's, or a channel of the safety functions. -/
def State.grantConflict (s : State) (stall : Nat) (g : Bytes) : Bool :=
  let mine := grantInForce stall g
  let meets (o : Nat) (r : Option Bytes) : Bool := match r with
    | some r => grantsOverlap mine (grantInForce o r)
    | none => false
  (gField mine &&& s.safeChannelMask) != 0 ||
    (allStalls.filter fun o => o != stall).any fun o => meets o (s.grant o) || meets o (s.shadowGrant o)

/-- One pool check: the record's field, what a stall may take in all (free with its own holding given back). -/
def poolFails (want free : Nat) : Bool := decide (free < want)

/-- The free amount of a resource for a stall whose shadow is replaced: the pool without the stall, less its active
grant's claim under R174. `want` is the larger of the active grant and the new record. -/
def State.poolCheck (s : State) (stall : Nat) (f : Bytes → Nat) (limit : Nat) (others : List Nat) (extra : Nat) (g : Bytes) :
    Option Nat :=
  let used := s.heldSum f (others.filter fun o => o != stall) + extra
  let want := max (gNum (s.grant stall) f) (f g)
  if used + want > limit then some (limit - (used + s.held f stall)) else none

/-- What a stall claims of a cluster with a new record, under R174. -/
def State.memClaim (s : State) (stall : Nat) (g : Bytes) (l : Nat) : Nat := max (gNum (s.grant stall) (gMem l)) (gMem l g)

/-- The memory check of R176, cluster by cluster: the first byte that fails and the amount free. `claimed`: what the stall
claims of the clusters before this one; `bytes`: the sum of their MEM bytes. -/
def State.memCheckFrom (s : State) (stall : Nat) (g : Bytes) : List Nat → Nat → Nat → Option (Nat × Nat)
  | [], _, _ => none
  | l :: rest, claimed, bytes =>
    let claim := s.memClaim stall g l
    let others := listSum ((tenants.filter (· != stall)).map s.heldMem)
    if s.clusterFree l + s.held (gMem l) stall < claim then some (4 + l, s.clusterFree l)
    else if 304 < others + claimed + claim then some (4 + l, s.memFree - bytes)
    else s.memCheckFrom stall g rest (claimed + claim) (bytes + gMem l g)

/-- Check 4: every pool and every cluster; the offset of the first failing field and the amount free (R176). -/
def State.poolsCheck (s : State) (stall : Nat) (g : Bytes) : Option (Nat × Nat) :=
  let eq0 := max (eqUnder s.modActive 0) (eqUnder s.modShadow 0)
  match s.poolCheck stall gCycles 12000 tenants 0 g with
  | some a => some (2, a)
  | none =>
  match s.memCheckFrom stall g (upto 10) 0 0 with
  | some r => some r
  | none =>
  match s.poolCheck stall gEq 8192 (63 :: tenants) eq0 g with
  | some a => some (14, a)
  | none =>
  match s.poolCheck stall gGoose 512 (0 :: 63 :: tenants) 0 g with
  | some a => some (16, a)
  | none =>
  match s.poolCheck stall gCapture 256 (0 :: tenants) 0 g with
  | some a => some (18, a)
  | none =>
  match s.poolCheck stall gSv 64 (0 :: tenants) 0 g with
  | some a => some (20, a)
  | none =>
  match s.poolCheck stall gRings 60 tenants 0 g with
  | some a => some (21, a)
  | none =>
  match s.poolCheck stall gLedger 2048 tenants 0 g with
  | some a => some (22, a)
  | none => none

/-! ### Cycle demand -/

/-- Whether a task is released at a tick index (R117). -/
def Task.selects (t : Task) (i : Nat) : Bool := t.period != 0 && i % t.period == t.phase

/-- The tick indices that can carry a largest sum: every index up to the largest period suffices when all periods
divide 4,800, so all 4,800 are looked at. -/
def demandAt (ts : List Task) (i : Nat) : Nat := listSum ((ts.filter fun t => t.selects i).map (·.wDecl))

/-- The cycle demand of a program (R170). -/
def cycleDemand (ts : List Task) : Nat := if ts.isEmpty then 0 else listMax ((upto 4800).map (demandAt ts))

/-- All tasks placed by a set of images, with their stalls. -/
def State.allTasks (s : State) : List (Nat × Task) := allStalls.flatMap fun st => (s.tasks st).map fun t => (st, t)

/-- The sums of R118 on a core: the largest. -/
def State.coreLoad (s : State) (n : Nat) : Nat := cycleDemand ((s.allTasks.filter fun e => e.2.coreNo == n).map (·.2))

end Sys2Proof.Machine
end

