-- ==== Sys2Proof/Machine/Intake.lean ====
section
/-! DEFINITION. Sampled-value intake (R64 to R83): the checks of a frame, filing, anchors, presence at the seal, and
what each stream delivers to conditioning. -/

namespace Sys2Proof.Machine

/-! ### Subscription records (R67) -/

/-- Samples per second of a RATE code. -/
def rateOf (code : Nat) : Nat :=
  match code with
  | 0 => 4800
  | 1 => 14400
  | 2 => 96000
  | 3 => 4000
  | 4 => 12800
  | _ => 15360

def subSlot (r : Bytes) : Nat := u16 r 0
def subFlag (r : Bytes) (i : Nat) : Bool := bit (u16 r 2) i
def subFreeRun (r : Bytes) : Bool := subFlag r 0
def subRate (r : Bytes) : Nat := rateOf (u8 r 12)
def subNChan (r : Bytes) : Nat := u8 r 14
def subSvid (r : Bytes) : Bytes := sub r 40 (u8 r 23)
/-- The wrap value of smpCnt (R68 check 11). -/
def subWrap (r : Bytes) : Nat := if subFreeRun r then (if u32 r 28 = 0 then subRate r else u32 r 28) else subRate r
def subLat (r : Bytes) : Nat := u32 r 24
/-- The channel entries. -/
def subChans (r : Bytes) : List Bytes := (upto (subNChan r)).map fun k => sub r (176 + 12 * k) 12
def chanIndex (e : Bytes) : Nat := u8 e 0
def chanKind (e : Bytes) : Nat := u8 e 1
def chanNumber (e : Bytes) : Nat := u16 e 2
def chanLimit (e : Bytes) : Nat := u32 e 4

/-- The ranges of R64 and R67. -/
def subRangeOk (r : Bytes) : Bool :=
  r.length == 176 + 12 * subNChan r
    && decide (subSlot r ≤ 1023 ∧ u16 r 2 < 64 ∧ u8 r 12 ≤ 5 ∧ 1 ≤ u8 r 13 ∧ u8 r 13 ≤ 8 ∧ 1 ≤ subNChan r ∧ subNChan r ≤ 24
      ∧ 1 ≤ u8 r 15 ∧ u8 r 15 ≤ 48 ∧ u8 r 20 ≤ 2 ∧ u8 r 21 ≤ 63 ∧ (u8 r 22 ≤ 63 ∨ u8 r 22 = 255)
      ∧ 1 ≤ u8 r 23 ∧ u8 r 23 ≤ 129 ∧ u32 r 24 ≤ 5000000 ∧ (u8 r 12 = 2 ∨ u32 r 28 ≤ 65536) ∧ u8 r 169 ≤ 63)
    && allZero (sub r (40 + u8 r 23) (129 - u8 r 23)) && allZero (sub r 170 6)
    && (subChans r).all fun e => decide (chanIndex e ≤ 23 ∧ chanKind e ≤ 2 ∧ chanNumber e ≤ 8191
        ∧ 1 ≤ chanLimit e ∧ chanLimit e ≤ 2147483647) && allZero (sub e 8 4)

/-- The key of a subscription: destination, APPID, svID (R65). -/
def subKey (r : Bytes) : Bytes := sub r 4 8 ++ subSvid r

/-- Whether a list repeats an element. -/
def hasDup {α : Type} [BEq α] : List α → Bool
  | [] => false
  | x :: xs => xs.contains x || hasDup xs

/-- The conflicts of R65 over a set. -/
def subsConflict (rs : List Bytes) : Bool :=
  hasDup (rs.map subKey) || hasDup (rs.flatMap fun r => (subChans r).map chanNumber)

/-- STREAM_EQ of a stall as the pools count it: the larger of its grants (R173, R174). -/
def State.streamEqBudget (s : State) (stall : Nat) : Nat := s.held gEq stall

/-- The active subscriptions, ascending by slot. -/
def State.subs (s : State) : List (Nat × Bytes) := s.modActive.block 0x04

/-! ### Streams of a side -/

def State.stream (s : State) (sd : SideId) (slot : Nat) : StreamSt := Tbl.getD (s.side sd).streams slot StreamSt.empty

def State.putStream (s : State) (sd : SideId) (slot : Nat) (x : StreamSt) : State :=
  s.modSide sd fun y => { y with streams := Tbl.put y.streams slot x }

/-- Intake status bits (R76). -/
def isMissing : Nat := 1
def isSubst : Nat := 2
def isAbsent : Nat := 4
def isRange : Nat := 8
def isUnsync : Nat := 16
def isFreeRun : Nat := 32
def isSlip : Nat := 64
def isTest : Nat := 128
def isSim : Nat := 256
def isSrcInvalid : Nat := 512
def isSrcQuest : Nat := 1024
def isRestart : Nat := 2048

/-- smpCnt values of a synchronised stream in a tick index (R33), rising. -/
def cntsOfIndex (f k : Nat) : List Nat :=
  let lo := ceilDiv (k * f) 4800
  (upto (ceilDiv ((k + 1) * f) 4800 - lo)).map (· + lo)

/-! ### Anchors (R72, R73) -/

/-- The anchor in force for the seal of a bell: the latest carried by an earlier bell. -/
def anchorFor (as : List Anchor) (w : Nat) : Option Anchor := (as.filter fun a => decide (a.bell < w)).getLast?

/-- The numbers j, counted from an anchor, of the samples whose mapped instants lie in sample tick `st`. -/
def anchorSpan (a : Anchor) (f st : Nat) : List Int :=
  let lo := -((-(((tickStart st : Int) - a.at_) * f)) / 1000000000)
  let hi := -((-(((tickStart (st + 1) : Int) - a.at_) * f)) / 1000000000)
  (upto (hi - lo).toNat).map fun k => lo + Int.ofNat k

/-- smpCnt of the sample numbered j from an anchor. -/
def anchorCnt (a : Anchor) (wrap : Nat) (j : Int) : Nat := (((a.cnt : Int) + j) % wrap).toNat

/-- The deviation of an arrival from the mapped instant of sample j, in 1/f ns. -/
def anchorDev (a : Anchor) (f lat arr : Nat) (j : Int) : Int :=
  ((arr : Int) - lat - a.at_) * f - j * 1000000000

/-- Whether an arrival belongs to sample j and not to the same smpCnt of another wrap: the nearest is taken. -/
def nearWrap (wrap : Nat) (dev : Int) : Bool := decide (2 * dev.natAbs < wrap * 1000000000)

/-- The number of the sample with a given smpCnt nearest to its arrival. -/
def anchorNum (a : Anchor) (f wrap lat cnt arr : Nat) : Int :=
  let j0 : Int := ((cnt : Int) - a.cnt) % wrap
  let half : Int := (wrap : Int) * 500000000
  let turns := (anchorDev a f lat arr j0 + half) / ((wrap : Int) * 1000000000)
  j0 + turns * wrap

/-- The instant of sample j in whole ns of TAI. -/
def anchorInstant (a : Anchor) (f : Nat) (j : Int) : Nat := ((a.at_ : Int) + j * 1000000000 / f).toNat

/-- Whether a new anchor moves the mapping to later instants (R73). -/
def anchorLater (old new : Anchor) (f wrap : Nat) : Bool :=
  let d := ((new.at_ : Int) - old.at_) * f - (((new.cnt : Int) - old.cnt) % wrap) * 1000000000
  let m : Int := (wrap : Int) * 1000000000
  let c := (d + m / 2) % m - m / 2
  decide (0 < c)

/-! ### The mapping of a received sample -/

/-- The sample tick of a synchronised sample by R71 and R33. -/
def syncTick (f cnt arr : Nat) : Nat :=
  let sec := (((arr : Int) + 100000) * f - (cnt : Int) * 1000000000) / ((f : Int) * 1000000000)
  sec.toNat * 4800 + cnt * 4800 / f

/-- Whether a sample tick was sealed before now (R50). -/
def State.sealedAlready (s : State) (st : Nat) : Bool := match s.sealedUpto with
  | some u => decide (st ≤ u)
  | none => false

/-- The sample tick of a free-running sample under the anchor that the next seal uses, once there is one. -/
def State.freeTick (s : State) (slot : Nat) (r : Bytes) (cnt arr : Nat) : Option Nat :=
  (anchorFor (Tbl.getD s.anchors slot []) (s.now + 1)).map fun a =>
    tickOfNs (anchorInstant a (subRate r) (anchorNum a (subRate r) (subWrap r) (subLat r) cnt arr))

/-- A sample as it would be filed: its sample tick, whether it is late. -/
def State.fileAsdu (s : State) (slot : Nat) (r : Bytes) (f : SvFrame) (arr : Nat) (a : SvAsdu) : Filed :=
  let cnt := a.smpCnt.toNat
  let sync := a.smpSynch.toNat
  let ok := subFreeRun r || sync == 2 || (subFlag r 1 && (sync == 1 || decide (5 ≤ sync ∧ sync ≤ 254)))
  let status := (if f.sim then isSim else 0) + (if ok then 0 else isUnsync) + (if subFreeRun r then isFreeRun else 0)
  let tick := if subFreeRun r then (s.freeTick slot r cnt arr).getD 0 else syncTick (subRate r) cnt arr
  let late := (if subFreeRun r then (s.freeTick slot r cnt arr).isSome else true) && s.sealedAlready tick
  { cnt := cnt, tick := tick, arr := arr, late := late, status := status
    entries := (subChans r).map fun e => a.entries.getD (chanIndex e) ⟨0, 0⟩ }

/-- Whether two filed samples are the same sampling instant. -/
def sameSample (r : Bytes) (a b : Filed) : Bool :=
  a.cnt == b.cnt &&
    (if subFreeRun r then decide (2 * ((a.arr : Int) - b.arr).natAbs * subRate r < subWrap r * 1000000000) else a.tick == b.tick)

/-! ### Validation (R68) -/

/-- The reasons of R68 with their indices. -/
inductive SvReason where
  | format
  | length
  | svid
  | noasdu
  | dataset
  | confrev
  | smpcnt
  | smprate
  | sim
  | auth
  | dupPrp
  | dupSmpcnt
  | conflict
  | gmid
  deriving DecidableEq, Repr

def SvReason.index : SvReason → Nat
  | .format => 0
  | .length => 1
  | .svid => 2
  | .noasdu => 3
  | .dataset => 4
  | .confrev => 5
  | .smpcnt => 6
  | .smprate => 7
  | .sim => 8
  | .auth => 9
  | .dupPrp => 10
  | .dupSmpcnt => 11
  | .conflict => 12
  | .gmid => 14

/-- Whether a redundancy sequence number was accepted before (R74): entries are (number, tick of acceptance). -/
def State.dupSeen (s : State) (sd : SideId) (src seqNo : Nat) : Bool :=
  (Tbl.getD (s.side sd).dups src []).any fun e => e.1 == seqNo

/-- Record an accepted redundancy sequence number (R74): 1,024 numbers of each of 2,048 sources; the source whose last
acceptance is the oldest makes room. -/
def State.dupRecord (s : State) (sd : SideId) (src seqNo : Nat) : State :=
  let t := (s.side sd).dups
  let t1 :=
    if Tbl.has t src ∨ t.length < 2048 then t
    else match (s.side sd).dupSources.find? fun x => Tbl.has t x with
      | some b => Tbl.del t b
      | none => t
  let l := (Tbl.getD t1 src []).filter (fun e => e.1 != seqNo) ++ [(seqNo, s.now)]
  s.modSide sd fun x => { x with
    dups := Tbl.put t1 src (l.drop (l.length - 1024))
    dupSources := x.dupSources.filter (fun y => y != src && Tbl.has t1 y) ++ [src] }

/-- Each smpCnt is one more than the one before, modulo the wrap value. -/
def cntsRun (wrap : Nat) : List Nat → Bool
  | a :: b :: rest => b == (a + 1) % wrap && cntsRun wrap (b :: rest)
  | _ => true

/-- Checks 3 to 11 of R68, for the frame's stream. -/
def State.svCheck (s : State) (sd : SideId) (r : Bytes) (f : SvFrame) : Option SvReason :=
  let width := if subRate r = 96000 then 4 else 2
  let need := listMax ((subChans r).map chanIndex) + 1
  let sizes := f.asdus.map fun a => a.entries.length
  if !f.wellFormed || f.asdus.any (fun a => a.width != width) || f.asdus.isEmpty then some .format
  else if f.noAsdu ≠ u8 r 13 ∨ f.asdus.length ≠ f.noAsdu then some .noasdu
  else if f.asdus.any fun a => a.svId != subSvid r then some .svid
  else if f.sim != subFlag r 4 then some .sim
  else if subFlag r 3 && !(match f.tag with
      | some (k, good) => (k.toNat == u8 r 21 || (u8 r 22 != 255 && k.toNat == u8 r 22)) && good
          && s.slotAllows sd k.toNat (subOwner r) [2] 1
      | none => false) then some .auth
  else if f.asdus.any fun a => a.confRev.toNat != u32 r 16 then some .confrev
  else if f.asdus.any (fun a => match a.smpRate with | some n => n != subRate r | none => false) then some .smprate
  else if subFlag r 5 && f.asdus.any (fun a => a.gmId.map (·.toNat) != some (u64 r 32)) then some .gmid
  else if f.asdus.any (fun a => !a.whole) || sizes.any (fun n => n != sizes.headD 0 || decide (n < need ∨ 24 < n)) then some .dataset
  else if f.asdus.any (fun a => decide (subWrap r ≤ a.smpCnt.toNat)) || !cntsRun (subWrap r) (f.asdus.map (·.smpCnt.toNat)) then
    some .smpcnt
  else none

/-- The subscription a frame is taken for (R68): the only one with its destination and APPID, else the one that the first
ASDU's svID names. The Bool says whether any matches at all. -/
def State.svStream (s : State) (f : SvFrame) : Bool × Option (Nat × Bytes) :=
  let c := s.subs.filter fun e => u48 e.2 4 == f.dst.toNat && u16 e.2 10 == f.appId.toNat
  match c with
  | [] => (false, none)
  | [one] => (true, some one)
  | many => (true, match f.asdus.head? with
      | some a => many.find? fun e => subSvid e.2 == a.svId
      | none => none)

/-- A discard (R68) and, for CONFREV, SVID and AUTH, the start of a failure run (R70). -/
def State.svDiscardFor (s : State) (sd : SideId) (slot : Option Nat) (r : SvReason) : State :=
  let s1 := s.tick1 (Rg.svDiscard sd r.index) Fd.svDiscardCount
  match slot with
  | none => s1
  | some k =>
    let s2 := s1.tick1 (Rg.streamErr sd k) Fd.streamErrDiscarded
    if r = .confrev ∨ r = .svid ∨ r = .auth then
      let x := s2.stream sd k
      if Tbl.has x.runs r.index then s2 else s2.putStream sd k { x with runs := Tbl.put x.runs r.index (s.now, false) }
    else s2

/-- The bell record of an anchor, made by the active side (R72): it waits for the first bell that has room. -/
def anchorCmd (sd : SideId) (slot c : Nat) (e : Nat) : WaitCmd :=
  let tick := tickOfNs e
  { hdr := { side := sd, transport := .internal, origin := 0, seq := 0, stall := 0, applyTick := 0, replyMax := 0, ring := 0 }
    op := 0x0406, tick := 0, answered := false, listed := true
    params := beBytes 2 slot ++ zeros 2 ++ beBytes 4 c ++ beBytes 8 tick ++ beBytes 4 (e - tickStart tick) ++ zeros 4 }

/-- A command of the module itself is listed in the first bell that has room. -/
def State.listOwn (s : State) (w : WaitCmd) : State := { s with waiting := s.waiting ++ [w] }

/-- Whether an anchor of a stream waits to be listed. -/
def State.anchorWaits (s : State) (slot : Nat) : Bool :=
  s.waiting.any fun w => w.op == 0x0406 && u16 w.params 0 == slot

/-- What the active side does with a valid frame of a free-running stream (R72, R73); a FOLLOW module takes its anchors from
the leading module's bells (R240). -/
def State.trackAnchor (s : State) (sd : SideId) (slot : Nat) (r : Bytes) (last : Filed) : State :=
  if subFreeRun r && s.active == some sd && s.pair.role != 2 then
    let x := s.stream sd slot
    let f := subRate r
    match (Tbl.getD s.anchors slot []).getLast? with
    | none =>
      if s.anchorWaits slot then s
      else (s.putStream sd slot { x with wantAnchor := false, devs := [] }).listOwn (anchorCmd sd slot last.cnt (last.arr - subLat r))
    | some a =>
      if x.wantAnchor then
        (s.putStream sd slot { x with wantAnchor := false, devs := [] }).listOwn (anchorCmd sd slot last.cnt (last.arr - subLat r))
      else if s.anchorWaits slot then s
      else
        let j := anchorNum a f (subWrap r) (subLat r) last.cnt last.arr
        let all := x.devs ++ [anchorDev a f (subLat r) last.arr j]
        let devs := all.drop (all.length - 16)
        let total := devs.foldl (· + ·) 0
        if devs.length = 16 ∧ 16 * 1000000000 < 2 * total.natAbs then
          let c : Int := if 0 < total then (a.cnt : Int) - 1 else a.cnt + 1
          (s.putStream sd slot { x with devs := [] }).listOwn (anchorCmd sd slot (c % subWrap r).toNat a.at_)
        else s.putStream sd slot { x with devs := devs }
  else s

/-- File the samples of a frame that has passed checks 1 to 11 (R68 check 12, R75, R50). -/
def State.svFile (s : State) (sd : SideId) (slot : Nat) (r : Bytes) (f : SvFrame) (arr : Nat) : State :=
  let x := s.stream sd slot
  let new := f.asdus.map (s.fileAsdu slot r f arr)
  let old (a : Filed) := x.filed.find? (sameSample r a)
  let clash := new.filter fun a => match old a with | some b => b.entries != a.entries | none => false
  if !clash.isEmpty then
    let ticks := (clash.filter fun a => !a.late).map (·.tick)
    let lost := if subFreeRun r then x.clashed ++ clash else x.clashed
    (((s.putStream sd slot { x with withdrawn := x.withdrawn ++ (if subFreeRun r then [] else ticks), clashed := lost }).setFlag (Rg.streamState sd slot) Fd.streamStateConflictSeen true)).svDiscardFor
      sd (some slot) .conflict
  else
    let fresh := new.filter fun a => (old a).isNone
    if fresh.isEmpty then s.svDiscardFor sd (some slot) .dupSmpcnt
    else
      let s1 := s.putStream sd slot { x with filed := x.filed ++ fresh, runs := [] }
      let lates := (fresh.filter (·.late)).length
      let s2 := (s1.count (Rg.lateCount sd) Fd.lateCountLateSamples lates).count (Rg.streamLate sd slot) Fd.streamLateLate lates
      let s3 := match f.redundancy with
        | some q => s2.dupRecord sd f.src.toNat q.toNat
        | none => s2
      match f.asdus.getLast?, new.getLast? with
      | some a, some n =>
        let sync := if subFreeRun r then 2 else if bit n.status 4 then 1 else 0
        ((s3.wr (Rg.streamState sd slot) Fd.streamStateSmpsynch a.smpSynch.toNat).wr (Rg.streamState sd slot) Fd.streamStateSync sync).trackAnchor
          sd slot r n
      | _, _ => s3

/-- SV_FRAME_INTAKE: a frame as the switch hands it to a side's Stream Intake (R68). -/
def State.svIntake (s : State) (sd : SideId) (f : SvFrame) (arr : Nat) : State :=
  match s.svStream f with
  | (false, _) => s
  | (true, st) =>
    let slot := st.map (·.1)
    if 2048 < f.length then s.svDiscardFor sd slot .length
    else if (match f.redundancy with | some q => s.dupSeen sd f.src.toNat q.toNat | none => false) then s.svDiscardFor sd slot .dupPrp
    else
      match st with
      | none => s.svDiscardFor sd none (if f.wellFormed && !f.asdus.isEmpty then .svid else .format)
      | some (k, r) =>
        match s.svCheck sd r f with
        | some why => s.svDiscardFor sd (some k) why
        | none => s.svFile sd k r f arr

/-! ### Failure runs (R70) -/

/-- Symbolic code of the failure-run notification. -/
def evSvFailure : Nat := 0x2005

/-- A run that has lasted 48 ticks: the flag in STREAM_STATE and one Crier notification. DESIGN CHOICE: its
body, area 1 and SEQ 0 (log entry 269). -/
def State.svFailureRun (s : State) (sd : SideId) (slot reason : Nat) : State :=
  let x := s.stream sd slot
  match Tbl.find x.runs reason with
  | some (start, false) =>
    if start + 47 ≤ s.now then
      let fd := if reason = 9 then Fd.streamStateAuthBad else Fd.streamStateIdBad
      let s1 := (s.putStream sd slot { x with runs := Tbl.put x.runs reason (start, true) }).setFlag (Rg.streamState sd slot) fd true
      s1.crier sd evSvFailure 1 0 0 (beBytes 2 slot ++ beBytes 1 reason ++ zeros 13)
    else s
  | _ => s

/-- Every run of a side at T0 of this tick. -/
def State.svFailureRuns (s : State) (sd : SideId) : State :=
  (s.side sd).streams.foldl (fun t e => e.2.runs.foldl (fun u q => u.svFailureRun sd e.1 q.1) t) s

/-! ### The seal (R48, R77 to R81) -/

/-- The smpCnt values a stream should hold for a sample tick, in order, with the anchor in force. None while a
free-running stream has no anchor. -/
def State.expected (s : State) (w slot : Nat) (r : Bytes) (st : Nat) : Option (List (Nat × Option (Anchor × Int))) :=
  if subFreeRun r then
    (anchorFor (Tbl.getD s.anchors slot []) w).map fun a =>
      (anchorSpan a (subRate r) st).map fun j => (anchorCnt a (subWrap r) j, some (a, j))
  else some ((cntsOfIndex (subRate r) (tickIndex st)).map fun n => (n, none))

/-- Whether a sample received is an expected one of sample tick `st`. -/
def isSample (r : Bytes) (st : Nat) (e : Nat × Option (Anchor × Int)) (a : Filed) : Bool :=
  a.cnt == e.1 &&
    (match e.2 with
      | some (an, j) => nearWrap (subWrap r) (anchorDev an (subRate r) (subLat r) a.arr j)
      | none => a.tick == st)

/-- The filed sample for an expected one. -/
def findSample (r : Bytes) (st : Nat) (x : StreamSt) (e : Nat × Option (Anchor × Int)) : Option Filed :=
  x.filed.find? fun a => isSample r st e a && !a.late

/-- Whether a re-anchor takes effect at the seal of bell w, the first sample tick sealed under the new anchor that has a
place for a sample (R73): SLIP, and whether it moves to later instants. -/
def State.slipAt (s : State) (sd : SideId) (w slot : Nat) (r : Bytes) : Bool × Bool :=
  match (s.stream sd slot).sealedBy, anchorFor (Tbl.getD s.anchors slot []) w with
  | some o, some n => (decide (o ≠ n), decide (o ≠ n) && anchorLater o n (subRate r) (subWrap r))
  | _, _ => (false, false)

/-- The samples a side holds for a sample tick of a stream, when it holds them all (R48). -/
def State.heldSamples (s : State) (sd : SideId) (w slot : Nat) (r : Bytes) (st : Nat) : Option (List Filed) :=
  let x := s.stream sd slot
  if x.withdrawn.contains st || (s.slipAt sd w slot r).2 then none
  else match s.expected w slot r st with
    | none => none
    | some es => if es.any (fun e => x.clashed.any (isSample r st e)) then none else es.mapM (findSample r st x)

/-- Whether any sample is assigned to a sample tick. -/
def State.assigns (s : State) (w slot : Nat) (r : Bytes) (st : Nat) : Bool :=
  match s.expected w slot r st with
  | some [] => false
  | _ => true

/-- Presence of a stream for a sample tick on a side (R48). -/
def State.presentOn (s : State) (sd : SideId) (w slot : Nat) (r : Bytes) (st : Nat) : Bool :=
  if s.assigns w slot r st then (s.heldSamples sd w slot r st).isSome else (s.stream sd slot).wasPresent

/-- The slots present for a sample tick, ascending (the PRESENCE map of the bell). -/
def State.presence (s : State) (sd : SideId) (w st : Nat) : List Nat :=
  (s.subs.filter fun e => s.presentOn sd w e.1 e.2 st).map (·.1)

/-- The per-stream check word (R40). -/
def State.checkWord (s : State) (sd : SideId) (w slot : Nat) (r : Bytes) (st : Nat) : Nat :=
  match s.heldSamples sd w slot r st with
  | some l => crc32c (l.flatMap fun a => a.entries.flatMap fun e => beBytes 4 e.value.toNat ++ beBytes 4 e.quality.toNat)
  | none => 0

/-- INTAKE_DIGEST over the present streams (R40). -/
def State.intakeDigest (s : State) (sd : SideId) (w st : Nat) (present : List Nat) : Nat :=
  crc64 ((s.subs.filter fun e => present.contains e.1).flatMap fun e =>
    beBytes 4 (if s.assigns w e.1 e.2 st then s.checkWord sd w e.1 e.2 st else 0))

/-- Set the validity bits of a quality word. -/
def withValidity (q : Word) (v : Nat) : Word := (q &&& ~~~3#32) ||| BitVec.ofNat 32 v

/-- The substitution policies of R79. -/
def substValue (policy : Nat) (held : Option SvEntry) : SvEntry :=
  match policy, held with
  | 0, some h => ⟨h.value, withValidity h.quality 3 ||| 0x80⟩
  | 1, _ => ⟨0, 3⟩
  | _, _ => ⟨0, 1⟩

/-- TEST and the source validity of a delivered quality word (R76). -/
def qualityBits (q : Word) : Nat :=
  (if q.getLsbD 11 then isTest else 0) + (if q &&& 3 = 1 then isSrcInvalid else 0) + (if q &&& 3 = 3 then isSrcQuest else 0)

/-- One entry of one sample: received, held value, what is delivered (R78 to R81). The state is that after the tick's own
transition. -/
def deliver (r : Bytes) (limit : Nat) (absent : Bool) (extra : Nat) (got : Option (Nat × SvEntry)) (held : Option SvEntry) : Delivered :=
  if absent then ⟨0, 1, (isMissing + isSubst + isAbsent + isSrcInvalid) ||| extra⟩
  else
    match got with
    | none =>
      let v := substValue (u8 r 20) held
      ⟨v.value, v.quality, (isMissing + isSubst + qualityBits v.quality) ||| extra⟩
    | some (st, e) =>
      let isOver := decide (limit < e.value.toInt.natAbs)
      let v := if isOver then substValue (u8 r 20) held else e
      let q := if bit st 4 && subFlag r 2 then withValidity v.quality 1 else v.quality
      ⟨v.value, q, (st + (if isOver then isRange + isSubst else 0) + qualityBits q) ||| extra⟩

/-- The entries of one sample, in CHANNELS order, with the held values moving on. -/
def deliverEntries (r : Bytes) (absent : Bool) (extra : Nat) (got : Option Filed) :
    List Bytes → Nat → List (Option SvEntry) → List (Delivered × Option SvEntry)
  | [], _, _ => []
  | c :: cs, i, held =>
    let h := held.headD none
    let d := deliver r (chanLimit c) absent extra (got.map fun g => (g.status, g.entries.getD i ⟨0, 0⟩)) h
    (d, if absent then none else some ⟨d.value, d.quality⟩) :: deliverEntries r absent extra got cs (i + 1) held.tail

/-- The sample number of an expected sample of sample tick `st` (R88, R306): floor (f × its instant). -/
def sampleNum (r : Bytes) (st : Nat) (e : Nat × Option (Anchor × Int)) : Nat :=
  match e.2 with
  | some (a, j) => (((a.at_ * subRate r / 1000000000 : Nat) : Int) + j).toNat
  | none => st / 4800 * subRate r + e.1

/-- The samples of a sample tick, in smpCnt order. -/
def deliverSamples (r : Bytes) (absent : Bool) (extra : Nat) :
    List (Nat × Nat × Option Filed) → List (Option SvEntry) → List SealedSample × List (Option SvEntry)
  | [], held => ([], held)
  | (num, cnt, got) :: rest, held =>
    let ds := deliverEntries r absent extra got (subChans r) 0 held
    let more := deliverSamples r absent extra rest (ds.map (·.2))
    (⟨num, cnt, ds.map (·.1)⟩ :: more.1, more.2)

/-- STATE of STREAM_STATE. -/
def stUnconfigured : Nat := 0
def stWaiting : Nat := 1
def stPresent : Nat := 2
def stAbsent : Nat := 3

def State.streamState (s : State) (sd : SideId) (slot : Nat) : Nat := s.rd (Rg.streamState sd slot) Fd.streamStateState

/-- A PRESENT stream that has missed its M-th consecutive sample tick becomes ABSENT and forgets what it held (R78,
R79). -/
def State.streamAbsent (s : State) (sd : SideId) (slot : Nat) : State :=
  match s.modActive.get 0x04 slot with
  | some r =>
    if s.streamState sd slot = stPresent ∧ u8 r 15 ≤ s.rd (Rg.streamState sd slot) Fd.streamStateMissRun then
      (s.wr (Rg.streamState sd slot) Fd.streamStateState stAbsent).putStream sd slot { s.stream sd slot with held := [] }
    else s
  | none => s

/-- The seal of one stream on one side for sample tick `st` (R77 to R81). -/
def State.sealStream (s : State) (sd : SideId) (w st : Nat) (present : List Nat) (e : Nat × Bytes) : State :=
  let slot := e.1
  let r := e.2
  let pres := present.contains slot
  let some_ := s.assigns w slot r st
  let before := s.streamState sd slot
  let restart := pres && some_ && (before == stWaiting || before == stAbsent)
  let s1 :=
    if pres then
      (s.wr (Rg.streamState sd slot) Fd.streamStateMissRun 0).wr (Rg.streamState sd slot) Fd.streamStateState
        (if restart then stPresent else before)
    else
      ((s.tick1 (Rg.streamState sd slot) Fd.streamStateMissRun).tick1 (Rg.streamMiss sd slot) Fd.streamMissMissed).streamAbsent sd slot
  let s2 := s1.setFlag (Rg.streamState sd slot) Fd.streamStateAnchored (subFreeRun r && (anchorFor (Tbl.getD s.anchors slot []) w).isSome)
  let x := s2.stream sd slot
  let absent := s2.streamState sd slot != stPresent
  let extra := (if restart then isRestart else 0) ||| (if (s.slipAt sd w slot r).1 then isSlip else 0)
    ||| (if subFreeRun r then isFreeRun else 0)
  let exp := (s.expected w slot r st).getD ((cntsOfIndex (subRate r) (tickIndex st)).map fun n => (n, none))
  let got := exp.map fun q => (sampleNum r st q, q.1, if pres then findSample r st x q else none)
  let d := deliverSamples r absent extra got x.held
  let rec_ : SealedTick := ⟨st, pres, d.1⟩
  let hist := (x.sealed_.filter fun q => decide (st < q.tick + 64)) ++ [rec_]
  s2.putStream sd slot { x with
    sealed_ := hist
    filed := x.filed.filter fun a => decide (tickStart st < a.arr + 64 * 208334)
    withdrawn := x.withdrawn.filter fun t => decide (st < t + 64)
    clashed := x.clashed.filter fun a => decide (tickStart st < a.arr + 64 * 208334)
    sealedBy := if !subFreeRun r then none else if some_ then anchorFor (Tbl.getD s.anchors slot []) w else x.sealedBy
    held := d.2
    wasPresent := pres }

/-- The seal of every stream of a side, and SV_SUMMARY. -/
def State.sealStreams (s : State) (sd : SideId) (w st : Nat) (present : List Nat) : State :=
  let s1 := s.subs.foldl (fun t e => t.sealStream sd w st present e) s
  let absent := (s.subs.filter fun e => s1.streamState sd e.1 == stWaiting || s1.streamState sd e.1 == stAbsent).length
  (s1.wr (Rg.svSummary sd) Fd.svSummaryNPresent (s.subs.filter fun e => present.contains e.1).length).wr
    (Rg.svSummary sd) Fd.svSummaryNAbsent absent

/-- A castling of the module scope: streams added or changed are WAITING, removed ones UNCONFIGURED (R78). DESIGN
CHOICE: the other fields of STREAM_STATE are cleared (log entry 270). -/
def State.castledStreams (s : State) (old : Scope) : State :=
  let slots := (old.indices 0x04 ++ s.modActive.indices 0x04).eraseDups
  slots.foldl (fun t k =>
    if old.get 0x04 k = t.modActive.get 0x04 k then t
    else
      let st := if (t.modActive.get 0x04 k).isSome then stWaiting else stUnconfigured
      let u := { t with anchors := Tbl.del t.anchors k, waiting := t.waiting.filter fun w => !(w.op == 0x0406 && u16 w.params 0 == k) }
      u.forSides fun sd v =>
        (v.modSide sd fun y => { y with streams := Tbl.del y.streams k }).putReg (Rg.streamState sd k) st) s

/-! ### Commands (R83) -/

def okRange (first count maxCount top : Nat) : Bool := decide (1 ≤ count ∧ count ≤ maxCount ∧ first + count ≤ top + 1)

/-- SV_SUBSCRIBE (R83, R64 to R66, R173). A slot that holds another subscription is not free for a second one (R65); the same
one is written anew. -/
def cmdSvSubscribe (h : CmdHdr) (p : Bytes) (s : State) : CmdOut :=
  let owner := h.stall.toNat
  let r := patch p 169 [h.stall]
  if !subRangeOk r then refuse s .range
  else
    let c := s.modShadow.putRec 0x04 (subSlot r) r
    let rs := svSubs c
    let taken := match s.modShadow.get 0x04 (subSlot r) with
      | some o => subKey o != subKey r
      | none => false
    if taken || subsConflict rs then refuse s .conflict
    else if 8192 < eqTotal c then refuse s .noResource
    else if owner ≠ 0 ∧ s.streamEqBudget owner < eqUnder c owner then refuse s .noResource
    else done (s.modifyModShadow fun _ => c) []

/-- SV_UNSUBSCRIBE. -/
def cmdSvUnsubscribe (_ : CmdHdr) (p : Bytes) (s : State) : CmdOut :=
  if 1023 < u16 p 0 then refuse s .range
  else if (s.modShadow.get 0x04 (u16 p 0)).isNone then refuse s .state
  else done (s.modifyModShadow fun c => c.delRec 0x04 (u16 p 0)) []

/-- The scope a "set" parameter names: 0 active, 1 shadow. -/
def State.setScope (s : State) (n : Nat) : Scope := if n = 0 then s.modActive else s.modShadow

/-- A record of a set, STATE when it holds none. -/
def readRecord (s : State) (idxOk : Bool) (set ty idx : Nat) : CmdOut :=
  if !idxOk || decide (1 < set) then refuse s .range
  else match (s.setScope set).get ty idx with
    | some r => done s r
    | none => refuse s .state

/-- SV_READ_SUB. -/
def cmdSvReadSub (_ : CmdHdr) (p : Bytes) (s : State) : CmdOut := readRecord s (decide (u16 p 0 ≤ 1023)) (u8 p 2) 0x04 (u16 p 0)

/-- SV_STREAM_STATUS: STREAM_STATE and STREAM_MISS of each slot on the answering side. -/
def cmdSvStreamStatus (h : CmdHdr) (p : Bytes) (s : State) : CmdOut :=
  if !okRange (u16 p 0) (u16 p 2) 64 1023 then refuse s .range
  else done s ((fitItems h 0 ((upto (u16 p 2)).map fun i =>
    beBytes 4 (s.regWord (Rg.streamState h.side (u16 p 0 + i))) ++ beBytes 4 (s.regWord (Rg.streamMiss h.side (u16 p 0 + i))))).flatten)

/-- A sample store entry (R76). -/
def storeEntry (cnt : Nat) (d : Delivered) : Bytes :=
  beBytes 4 d.value.toNat ++ beBytes 4 d.quality.toNat ++ beBytes 4 cnt ++ beBytes 2 d.status ++ zeros 2

/-- SV_READ_SAMPLES (R83, R499). -/
def cmdSvReadSamples (h : CmdHdr) (p : Bytes) (s : State) : CmdOut :=
  let slot := u16 p 0
  let st := u64 p 2
  if 1023 < slot then refuse s .range
  else if !s.sealedAlready st then refuse s .state
  else if decide (st + 64 < s.now) then refuse s .range
  else
    match (s.stream h.side slot).sealed_.find? fun q => q.tick == st with
    | none => done s (beBytes 2 slot ++ zeros 2 ++ beBytes 8 st ++ zeros 4)
    | some q =>
      let items := fitItems h 16 (q.samples.flatMap fun e => e.entries.map (storeEntry e.cnt))
      done s (beBytes 2 slot ++ beBytes 2 items.length ++ beBytes 8 st ++ beBytes 1 (b2n q.present) ++ zeros 3 ++ items.flatten)

/-- SV_REANCHOR: the active side forms a new anchor at the stream's next valid frame. -/
def cmdSvReanchor (_ : CmdHdr) (p : Bytes) (s : State) : CmdOut :=
  let slot := u16 p 0
  if 1023 < slot then refuse s .range
  else match s.modActive.get 0x04 slot with
    | some r =>
      if subFreeRun r then
        done (s.forSides fun sd t => t.putStream sd slot { t.stream sd slot with wantAnchor := true }) []
      else refuse s .state
    | none => refuse s .state

/-- SV_ANCHOR: the bell record of an anchor (R72), taken up by both sides. The side that formed it wanted none any more
when it did; the other wants none now. -/
def cmdSvAnchor (h : CmdHdr) (p : Bytes) (s : State) : CmdOut :=
  let slot := u16 p 0
  match s.modActive.get 0x04 slot with
  | some _ =>
    let a : Anchor := ⟨u32 p 4, tickStart (u64 p 8) + u32 p 16, s.now⟩
    let l := Tbl.getD s.anchors slot [] ++ [a]
    let s1 := { s with anchors := Tbl.put s.anchors slot (l.drop (l.length - 2)) }
    done (s1.forSides fun sd t =>
      if h.side = sd ∧ t.pair.role ≠ 2 then t else t.putStream sd slot { t.stream sd slot with wantAnchor := false, devs := [] }) []
  | none => done s []

/-- Whether a stream slot of a set is one of a stall's own subscriptions. -/
def ownsSlot (s : State) (p : Bytes) (st : Nat) : Bool :=
  match s.modActive.get 0x04 (u16 p 0), s.modShadow.get 0x04 (u16 p 0) with
  | some r, _ => subOwner r == st
  | none, some r => subOwner r == st
  | none, none => false

def specSvSubscribe : CmdSpec :=
  ⟨0x0400, always .engineer, fun _ => true, fun p => decide (176 ≤ p.length) && p.length == 176 + 12 * u8 p 14, false,
    fun s p st => match s.modShadow.get 0x04 (u16 p 0) with | some r => subOwner r == st | none => true, true, cmdSvSubscribe⟩
def specSvUnsubscribe : CmdSpec := ⟨0x0401, always .engineer, fun _ => true, lenIs 2, false, ownsSlot, true, cmdSvUnsubscribe⟩
def specSvReadSub : CmdSpec := ⟨0x0402, always .observer, fun _ => false, lenIs 3, false, ownsSlot, false, cmdSvReadSub⟩
def specSvStreamStatus : CmdSpec :=
  ⟨0x0403, always .observer, fun _ => false, lenIs 4, false,
    fun s p st => (upto (u16 p 2)).all fun i => ownsSlot s (beBytes 2 (u16 p 0 + i)) st, false, cmdSvStreamStatus⟩
def specSvReadSamples : CmdSpec := ⟨0x0404, always .observer, fun _ => false, lenIs 10, false, ownsSlot, false, cmdSvReadSamples⟩
def specSvReanchor : CmdSpec := ⟨0x0405, always .engineer, fun _ => true, lenIs 2, false, ownsSlot, true, cmdSvReanchor⟩
def specSvAnchor : CmdSpec := ⟨0x0406, fun _ => none, fun _ => true, lenIs 24, true, ownsNone, true, cmdSvAnchor⟩

def execSvSubscribe (h : CmdHdr) (p : Bytes) (s : State) : Host.Outcome State Fault Refusal := runCmd specSvSubscribe h p s
def execSvUnsubscribe (h : CmdHdr) (p : Bytes) (s : State) : Host.Outcome State Fault Refusal := runCmd specSvUnsubscribe h p s
def execSvReadSub (h : CmdHdr) (p : Bytes) (s : State) : Host.Outcome State Fault Refusal := runCmd specSvReadSub h p s
def execSvStreamStatus (h : CmdHdr) (p : Bytes) (s : State) : Host.Outcome State Fault Refusal := runCmd specSvStreamStatus h p s
def execSvReadSamples (h : CmdHdr) (p : Bytes) (s : State) : Host.Outcome State Fault Refusal := runCmd specSvReadSamples h p s
def execSvReanchor (h : CmdHdr) (p : Bytes) (s : State) : Host.Outcome State Fault Refusal := runCmd specSvReanchor h p s
/-- SV_ANCHOR: created only by the active side; a received one is refused with NO_RIGHT (R83). -/
def execSvAnchor (h : CmdHdr) (p : Bytes) (s : State) : Host.Outcome State Fault Refusal := runCmd specSvAnchor h p s

/-! ### Events -/

/-- SV_FRAME_INTAKE (R68): `ingress` is the timestamp of the copy at the port where it entered the module. -/
def execSvFrameIntake (side port : SideId) (f : SvFrame) (ingress : Nat) (s : State) : Host.Outcome State Fault Refusal :=
  let _ := port
  .next (s.svIntake side f ingress)

/-- SV_FAILURE_RUN (R70). -/
def execSvFailureRun (side : SideId) (slot : Fin 1024) (reason : BitVec 4) (s : State) : Host.Outcome State Fault Refusal :=
  .next (s.svFailureRun side slot.val reason.toNat)

/-- DUP_ENTRY_EXPIRY (R74): an entry is forgotten 400 ms after its acceptance; a source without entries is removed. -/
def execDupEntryExpiry (side : SideId) (src : BitVec 48) (seqNo : BitVec 16) (s : State) : Host.Outcome State Fault Refusal :=
  let l := Tbl.getD (s.side side).dups src.toNat []
  let kept := l.filter fun e => !(e.1 == seqNo.toNat && decide (e.2 + 1920 ≤ s.now))
  .next (s.modSide side fun x => { x with dups := Tbl.set x.dups src.toNat (if kept.isEmpty then none else some kept) })

/-- STREAM_ABSENT (R78). -/
def execStreamAbsent (side : SideId) (slot : Fin 1024) (s : State) : Host.Outcome State Fault Refusal :=
  .next (s.streamAbsent side slot.val)

end Sys2Proof.Machine
end

