-- ==== Sys2Proof/Machine/CondDsp.lean ====
section
/-! DEFINITION. The signal path of a conditioning chain (R85 to R102, R500): intake scaling, rate stages, moving
averages, the fine phasor, the blitz path, the step detector and the comparators. -/

namespace Sys2Proof.Machine

/-! ### Chain records (R109), tap sets (R110), groups (R111) -/

def chFlag (r : Bytes) (i : Nat) : Bool := bit (u16 r 2) i
def chMaOn (r : Bytes) (i : Nat) : Bool := chFlag r i
def chMaSq (r : Bytes) (i : Nat) : Bool := chFlag r (2 + i)
def chOffset (r : Bytes) : Bool := chFlag r 4
def chStepOn (r : Bytes) : Bool := chFlag r 5
def chMaLen (r : Bytes) (i : Nat) : Nat := u16 r (8 + 2 * i)
def chFreqSrc (r : Bytes) : Nat := u16 r 12
def chTapset (r : Bytes) : Nat := u8 r 14
def chComp (r : Bytes) (i : Nat) : Bytes := sub r (24 + 16 * i) 16
def wordAt (b : Bytes) (off : Nat) : Word := BitVec.ofNat 32 (u32 b off)

/-- Up-factor L, down-factor M and tap limit of a RATE code (R88). -/
def rateShape (code : Nat) : Nat × Nat × Nat :=
  match code with
  | 0 => (1, 1, 0)
  | 1 => (1, 3, 96)
  | 2 => (1, 4, 96)
  | 3 => (6, 5, 576)
  | 4 => (3, 8, 288)
  | _ => (5, 16, 480)

/-- S_rate (R88). -/
def settleTicks (code taps : Nat) : Nat :=
  match code with
  | 0 => 0
  | 2 => ceilDiv (5 * taps + 11) 20
  | _ => ceilDiv (taps - 1) (rateShape code).2.1

/-- MAC cost of the rate stage (R88). -/
def rateCost (code taps : Nat) : Nat :=
  match code with
  | 0 => 0
  | 1 => taps
  | 2 => 96 + taps
  | _ => ceilDiv taps (rateShape code).1 + 2

/-- Whether a rate uses a polyphase stage. -/
def isPoly (code : Nat) : Bool := decide (3 ≤ code)

/-- What a chain's signal path is computed with. -/
structure ChainCfg where
  chan : Nat
  rec_ : Bytes
  rate : Nat
  kind : Nat
  taps : List Word
  tau : Word
  f0 : Nat
  deriving DecidableEq, Repr

def ChainCfg.win (c : ChainCfg) : Nat := 4800 / c.f0
def ChainCfg.settle (c : ChainCfg) : Nat := settleTicks c.rate c.taps.length

/-! ### Constants (R500) -/

def fxOne : Nat := 2 ^ trigBits
def sqrt2Fix : Nat := isqrt (2 * fxOne * fxOne)
/-- A fixed-point value rounded to binary32. -/
def fxRound (v : Int) : Word := BitVec.ofNat 32 (fpRound fmt32 (decide (v < 0)) (2 * v.natAbs + 1) (-(trigBits : Int) - 1)).1
def kSqrt2 : Word := fxRound sqrt2Fix
def kSqrt2Over (m : Nat) : Word := fxRound (sqrt2Fix / m : Nat)
def k2Pi : Word := fxRound (2 * piFix : Nat)
/-- cos and sin of θn as binary32, θ one Nth of a turn. -/
def cis (n win : Nat) : Cplx := ⟨BitVec.ofNat 32 (cosTurn fmt32 n win), BitVec.ofNat 32 (sinTurn fmt32 n win)⟩
/-- e^(−jθn). -/
def cisNeg (n win : Nat) : Cplx := cis ((win - n % win) % win) win
def k2Cos (win : Nat) : Word := BitVec.ofNat 32 (fpMul fmt32 (fpOfInt fmt32 2) (cosTurn fmt32 1 win)).1
/-- A sum of turns, m terms of e^(j·turns(n)) over m, in fixed point. -/
def meanTurns (m : Nat) (turn : Nat → Nat) (den : Nat) : Int × Int :=
  let t := (upto m).foldl (fun (acc : Int × Int) n =>
    let sc := sinCosTurn (turn n) den
    (acc.1 + sc.2, acc.2 + sc.1)) (0, 0)
  (t.1 / (m : Int), t.2 / (m : Int))
/-- b_m of R99 exactly, in fixed point. -/
def bmFix (m win : Nat) : Int × Int := meanTurns m (fun n => 2 * n) win
def bmW (m win : Nat) : Cplx := let b := bmFix m win; ⟨fxRound b.1, fxRound b.2⟩
def denW (m win : Nat) : Word :=
  let b := bmFix m win
  fxRound ((fxOne : Int) - (b.1 * b.1 + b.2 * b.2) / fxOne)

/-- e^(j·x) for a binary32 argument x of 0 or more, in radians; exactly 1 + j0 at 0. -/
def cisRad (x : Word) : Cplx :=
  match fpUnpack fmt32 x.toNat with
  | .fin _ m e =>
    if m = 0 then ⟨0x3F800000, 0⟩
    else
      let v := if 0 ≤ e then m * 2 ^ (trigBits + e.toNat) else m * 2 ^ trigBits / 2 ^ (-e).toNat
      let sc := sinCosSum 220 0 v fxOne 0 0
      ⟨fxRound sc.2, fxRound sc.1⟩
  | _ => ⟨0x7FC00000, 0x7FC00000⟩

/-- The factor e^(j2π·f·τ) (R500). -/
def delayFactor (f tau : Word) : Cplx := cisRad (fMul (fMul k2Pi f).1 tau).1

/-! ### Intake and rate stage (R87, R88) -/

/-- s = fl (GAIN × u). -/
def ChainCfg.scale (c : ChainCfg) : Word :=
  let g := fpFrac fmt32 (u32 c.rec_ 4)
  BitVec.ofNat 32 (fpOfFrac fmt32 g.1 (g.2 * (match c.kind with | 0 => 1000 | 1 => 100 | _ => 1)))

/-- fl (c) of an integer. -/
def intF (v : Int) : Word := BitVec.ofNat 32 (fpOfInt fmt32 v)

/-- One sample into the CIC: 64-bit two's-complement integrators; at sample numbers that are multiples of 5 the combs. -/
def cicIntegrate : List Nat → Nat → List Nat
  | [], _ => []
  | i :: is, v => let t := (i + v) % 2 ^ 64; t :: cicIntegrate is t

def cicComb : List Nat → Nat → List Nat × Nat
  | [], v => ([], v)
  | c :: cs, v =>
    let r := cicComb cs ((v + 2 ^ 64 - c) % 2 ^ 64)
    (v :: r.1, r.2)

/-- What a chain takes of a sample: its number, its value, its SUBST bit. -/
structure ChSample where
  num : Nat
  value : Int
  subst : Bool
  deriving DecidableEq, Repr

/-- Samples enter the rate stage. -/
def ChainCfg.feed (c : ChainCfg) (st : ChainSt) (x : ChSample) : ChainSt :=
  if c.rate = 2 then
    let i := cicIntegrate st.integ (ofSigned 64 x.value)
    if x.num % 5 = 0 then
      let r := cicComb st.comb (i.getLastD 0)
      { st with integ := i, comb := r.1
                grid := Tbl.put st.grid (x.num / 5) ((fMul (intF (toSigned 64 r.2)) (fDiv c.scale 0x441C4000).1).1, x.subst) }
    else { st with integ := i }
  else { st with grid := Tbl.put st.grid ((rateShape c.rate).1 * x.num) ((fMul (intF x.value) c.scale).1, x.subst) }

/-- The FIR or polyphase sum for sample tick k: ascending i from +0 (R85, R88). -/
def firSum (grid : Tbl (Word × Bool)) (top : Nat) : List Word → Nat → Word → Word
  | [], _, acc => acc
  | h :: hs, i, acc =>
    let g : Word := if i ≤ top then ((Tbl.find grid (top - i)).map (·.1)).getD 0 else 0
    firSum grid top hs (i + 1) (fFma h g acc).1

/-- The rate stage of one tick: the state, y, the blitz input before OFFSET, its SUBST mark. -/
def ChainCfg.rateStage (c : ChainCfg) (k : Nat) (xs : List ChSample) (st : ChainSt) : ChainSt × Word × Word × Bool :=
  if c.rate = 0 then
    match xs with
    | x :: _ => let v := (fMul (intF x.value) c.scale).1; (st, v, v, x.subst)
    | [] => (st, 0, 0, true)
  else
    let st1 := xs.foldl c.feed st
    let top := (rateShape c.rate).2.1 * k
    let y := firSum st1.grid top c.taps 0 0
    let t := c.taps.length
    let st2 := { st1 with grid := st1.grid.filter fun e => decide (top < e.1 + t) }
    if isPoly c.rate then
      let sub := st1.grid.any fun e => decide (top < e.1 + t ∧ e.1 ≤ top) && e.2.2
      (st2, y, y, sub)
    else
      match xs.find? fun x => x.num * 4800 == k * rateOf c.rate with
      | some x => (st2, y, (fMul (intF x.value) c.scale).1, x.subst)
      | none => (st2, y, 0, true)

/-! ### Averages (R89, R90) -/

def f64Add (a b : BitVec 64) : BitVec 64 := BitVec.ofNat 64 (fpAdd fmt64 a.toNat b.toNat).1
def f64Sub (a b : BitVec 64) : BitVec 64 := BitVec.ofNat 64 (fpSub fmt64 a.toNat b.toNat).1
def f64Mul (a b : BitVec 64) : BitVec 64 := BitVec.ofNat 64 (fpMul fmt64 a.toNat b.toNat).1
def f64Div (a b : BitVec 64) : BitVec 64 := BitVec.ofNat 64 (fpDiv fmt64 a.toNat b.toNat).1
def f64Sqrt (a : BitVec 64) : BitVec 64 := BitVec.ofNat 64 (fpSqrt fmt64 a.toNat).1
def toF64 (a : Word) : BitVec 64 := BitVec.ofNat 64 (fpConv fmt32 fmt64 a.toNat)
def toF32 (a : BitVec 64) : Word := BitVec.ofNat 32 (fpConv fmt64 fmt32 a.toNat)

/-- One average: its last min (m, L) inputs newest first, its accumulator; the new ones and MA. -/
def maStep (resum : Bool) (len m : Nat) (v : BitVec 64) (win : List (BitVec 64)) (acc : BitVec 64) :
    List (BitVec 64) × BitVec 64 × Word :=
  let old := if win.length = len then win.getLastD 0 else 0
  let win1 := (v :: win).take len
  let a := if resum then win1.reverse.foldl f64Add 0 else f64Sub (f64Add acc v) old
  (win1, a, toF32 (f64Div a (BitVec.ofNat 64 (fpOfInt fmt64 (min m len : Nat)))))

/-! ### Phasors (R91, R99) -/

/-- A DFT sum: both parts, ascending n, newest sample first. -/
def dftSum (win : Nat) : List Word → Nat → Cplx → Cplx
  | [], _, acc => acc
  | z :: zs, n, acc =>
    let e := cis n win
    dftSum win zs (n + 1) ⟨(fFma z e.re acc.re).1, (fFma z e.im acc.im).1⟩

def scaleBoth (a : Cplx) (k : Word) : Cplx := (cScale a k).v

/-- Table point i of a and b of R91, frequency 45 + 20 i / 1,024 Hz, correctly rounded. -/
def corrPoint (f0 i : Nat) : Cplx × Cplx :=
  let win := 4800 / f0
  -- turns per tick × 4,800 × 1,024, modulo one turn
  let den := 4800 * 1024
  let f := 45 * 1024 + 20 * i
  let a := meanTurns win (fun n => (n * (f0 * 1024 + den - f)) % den) den
  let b := meanTurns win (fun n => (n * (f0 * 1024 + f)) % den) den
  (⟨fxRound a.1, fxRound a.2⟩, ⟨fxRound b.1, fxRound b.2⟩)

/-- Linear interpolation of one part: fma (t, q − p, p). -/
def lerp (t p q : Word) : Word := (fFma t (fSub q p).1 p).1
def lerpC (t : Word) (p q : Cplx) : Cplx := ⟨lerp t p.re q.re, lerp t p.im q.im⟩

/-- a and b at a frequency from 45 to 65 Hz: the table of R91 with linear interpolation in binary32; the place between
two points is taken from fl (fl (f − 45) × 51.2). -/
def corrAt (f0 : Nat) (f : Word) : Cplx × Cplx :=
  let x := (fMul (fSub f 0x42340000).1 0x424CCCCD).1
  let q := fpFrac fmt32 x.toNat
  let i := min (q.1.toNat / q.2) 1023
  let t := (fSub x (intF i)).1
  let p0 := corrPoint f0 i
  let p1 := corrPoint f0 (i + 1)
  (lerpC t p0.1 p1.1, lerpC t p0.2 p1.2)

/-- |x|² as R500 forms it. -/
def sqMag (x : Cplx) : Word := (fFma x.re x.re (fMul x.im x.im).1).1

/-- FINE of R91 for sample tick k, window newest first, frequency f̂. -/
def fineAt (c : ChainCfg) (k : Nat) (zs : List Word) (fhat : Word) : Cplx :=
  let win := c.win
  let x := scaleBoth (dftSum win zs 0 ⟨0, 0⟩) (kSqrt2Over win)
  let p :=
    if fhat = intF c.f0 then x
    else
      let ab := corrAt c.f0 fhat
      let num := (cSub (cMul x (cConj ab.1).v).v (cMul (cConj x).v ab.2).v).v
      let den := (fSub (sqMag ab.1) (sqMag ab.2)).1
      ⟨(fDiv num.re den).1, (fDiv num.im den).1⟩
  (cMul (cMul p (delayFactor fhat c.tau)).v (cisNeg (k % win) win)).v

/-- COARSE of R99 with m ≥ 2 samples of q, newest first. -/
def coarseAt (c : ChainCfg) (k m : Nat) (qs : List Word) : Cplx :=
  let win := c.win
  let x := scaleBoth (dftSum win (qs.take m) 0 ⟨0, 0⟩) (kSqrt2Over m)
  let num := (cSub x (cMul (cConj x).v (bmW m win)).v).v
  let d := denW m win
  let v : Cplx := ⟨(fDiv num.re d).1, (fDiv num.im d).1⟩
  let taub : Word := if isPoly c.rate then c.tau else 0
  (cMul (cMul v (delayFactor (intF c.f0) taub)).v (cisNeg (k % win) win)).v

/-- The step detector of R100: the latest two q values, FINE_MAG of the tick before. -/
def stepSeen (c : ChainCfg) (q q1 q2 fmag : Word) : Bool :=
  let p := (fFma (k2Cos c.win) q1 (fFlip q2)).1
  let resid := (fAbs (fSub q p).1).1
  let rel := (fMul (fMul (wordAt c.rec_ 20) kSqrt2).1 fmag).1
  let thr := (fMax (wordAt c.rec_ 16) rel).1
  fpLt fmt32 thr.toNat resid.toNat

/-! ### Comparators (R95, R96) -/

def cmpQty (e : Bytes) : Nat := u8 e 0
def cmpUnder (e : Bytes) : Bool := bit (u8 e 1) 0
def cmpAbs (e : Bytes) : Bool := bit (u8 e 1) 1
def cmpP (e : Bytes) : Nat := u8 e 2
def cmpQ (e : Bytes) : Nat := u8 e 3
def cmpTh (e : Bytes) : Word := wordAt e 4
/-- TH − H (over) or TH + H (under), rounded once. -/
def cmpHold (e : Bytes) : Word := if cmpUnder e then (fAdd (cmpTh e) (wordAt e 8)).1 else (fSub (cmpTh e) (wordAt e 8)).1
/-- v meets a condition against a threshold. -/
def cmpMeets (e : Bytes) (v c : Word) : Bool := if cmpUnder e then fpLt fmt32 v.toNat c.toNat else fpLt fmt32 c.toNat v.toNat

/-- The crossing fraction (R96): hist holds v[j] at n − 1 and v[j − 1] at n. -/
def crossing (hist : List Word) (n : Nat) (c : Word) : Nat :=
  match hist[n - 1]?, hist[n]? with
  | some b, some a =>
    if !(fpFinite fmt32 a.toNat && fpFinite fmt32 b.toNat && fpFinite fmt32 c.toNat) then 65535
    else
      let fa := fpFrac fmt32 a.toNat
      let fb := fpFrac fmt32 b.toNat
      let fc := fpFrac fmt32 c.toNat
      let num : Int := (fc.1 * fa.2 - fa.1 * fc.2) * fb.2
      let den : Int := (fb.1 * fa.2 - fa.1 * fb.2) * fc.2
      if den = 0 then 0
      else
        let q : Int := if 0 < den then 65536 * num / den else 65536 * (-num) / (-den)
        (max 0 (min q 65535)).toNat
  | _, _ => 65535

/-- A comparator takes the tick's value: its run grows or breaks. -/
def compCount (e : Bytes) (v : Word) (c : CompSt) : CompSt :=
  let ok := if c.picked then !cmpMeets e v (cmpHold e) else cmpMeets e v (cmpTh e)
  { c with run := if ok then c.run + 1 else 0, hist := (v :: c.hist).take 257 }

/-- A pickup whose run is complete (R95): the new state and F. -/
def compPickup (e : Bytes) (c : CompSt) : Option (CompSt × Nat) :=
  if !c.picked && decide (cmpP e ≤ c.run) then some ({ c with picked := true, run := 0 }, crossing c.hist (cmpP e) (cmpTh e)) else none

/-- A dropout whose run is complete. -/
def compDropout (e : Bytes) (c : CompSt) : Option (CompSt × Nat) :=
  if c.picked && decide (cmpQ e ≤ c.run) then some ({ c with picked := false, run := 0 }, crossing c.hist (cmpQ e) (cmpHold e)) else none

/-- One comparator in one tick: the state, and DIR and F of an event. -/
def compTick (e : Bytes) (v : Word) (c : CompSt) : CompSt × Option (Nat × Nat) :=
  let c1 := compCount e v c
  if c.picked then
    match compDropout e c1 with
    | some r => (r.1, some (0, r.2))
    | none => (c1, none)
  else
    match compPickup e c1 with
    | some r => (r.1, some (1, r.2))
    | none => (c1, none)

end Sys2Proof.Machine
end

