-- ==== Sys2Proof/Machine/Cond.lean ====
section
/-! DEFINITION. Conditioning chains and groups (R84, R92 to R113): chain states, comparator events, output records,
groups, castling, and the conditioning commands. -/

namespace Sys2Proof.Machine

/-! ### Configuration -/

/-- f0 of a scope (R86). -/
def Scope.nominal (c : Scope) : Nat := u8 c.timeRec 1

/-- The subscription and the channel entry that bind a channel in a scope. -/
def Scope.chanEntry (c : Scope) (ch : Nat) : Option (Bytes × Bytes) :=
  (svSubs c).findSome? fun r => ((subChans r).find? fun e => chanNumber e == ch).map fun e => (r, e)

/-- Written marks of a tap set: one byte for each tap; a set without marks is written whole (R110). -/
def tapMarkTy : Nat := 0x46
def Scope.tapsWritten (c : Scope) (t : Nat) : Bool := match c.get tapMarkTy t with
  | some m => m.all (· != 0)
  | none => true

def tapWords (r : Bytes) : List Word := (upto (u16 r 2)).map fun i => wordAt r (8 + 4 * i)

/-- The signal path's configuration of a channel in the active set: its chain record and its subscription. -/
def Scope.chainCfg (c : Scope) (ch : Nat) : Option ChainCfg :=
  match c.get 0x05 ch, c.chanEntry ch with
  | some r, some (sr, e) =>
    let rate := u8 sr 12
    let tap := if rate = 0 then none else c.get 0x06 (chTapset r)
    some { chan := ch, rec_ := r, rate := rate, kind := chanKind e
           taps := match tap with | some t => tapWords t | none => []
           tau := match tap with | some t => wordAt t 4 | none => 0
           f0 := c.nominal }
  | _, _ => none

/-- Everything whose difference changes a chain at a castling (R103): its record, its subscription, its tap set, f0, D. -/
structure ChainSig where
  rec_ : Bytes
  stream : Bytes
  tap : Option Bytes
  f0 : Nat
  delay : Nat
  deriving DecidableEq, Repr

/-- What a castling must leave as it is for a chain to go on (R103). DESIGN CHOICE: a tap set that a 4,800 S/s chain names is
not its own (log entry 272). -/
def Scope.chainSig (c : Scope) (ch : Nat) : Option ChainSig :=
  match c.get 0x05 ch, c.chanEntry ch with
  | some r, some (sr, _) => some ⟨r, sr, if u8 sr 12 = 0 then none else c.get 0x06 (chTapset r), c.nominal, u8 c.timeRec 0⟩
  | _, _ => none

/-! ### Chain state -/

def ChainSt.clear (x : ChainSt) : ChainSt :=
  { x with m := 0, mb := 0, clean := 0, prevCoarse := false, fmag := 0, grid := [], integ := [0, 0, 0, 0], comb := [0, 0, 0, 0]
           ma1 := [], ma2 := [], acc1 := 0, acc2 := 0, zs := [], qs := [], qsub := [], coarse := ⟨0, 0⟩, holds := []
           comps := List.replicate 4 CompSt.empty }

/-- A chain as a castling that adds it leaves it: waiting. -/
def ChainSt.fresh : ChainSt :=
  { state := 1, cmdStop := false, resume := 0, needPresent := false, gap := false
    m := 0, mb := 0, clean := 0, prevCoarse := false, fmag := 0, grid := [], integ := [0, 0, 0, 0], comb := [0, 0, 0, 0]
    ma1 := [], ma2 := [], acc1 := 0, acc2 := 0, zs := [], qs := [], qsub := [], coarse := ⟨0, 0⟩, holds := []
    comps := List.replicate 4 CompSt.empty, drop := 0, pref := ⟨0, 0⟩, fine := ⟨0, 0⟩, status := 0 }

/-- The comparators that are picked up, as a mask. -/
def pickedMask (cs : List CompSt) : Nat := listSum ((upto 4).map fun i => b2n ((cs.getD i CompSt.empty).picked) * 2 ^ i)

/-- A chain enters Stopped or waiting: history cleared, picked comparators owe a dropout (R97, R103). -/
def ChainSt.halt (x : ChainSt) (state : Nat) (cmd : Bool) : ChainSt :=
  let owed := x.drop ||| pickedMask x.comps
  { x.clear with state := state, cmdStop := cmd, resume := 0, needPresent := false, gap := false, drop := owed }

def State.chain (s : State) (sd : SideId) (ch : Nat) : Option ChainSt := Tbl.find (s.side sd).chains ch

/-- The CHAIN_STATE word of a chain, but for STEP_TALLY. -/
def chainWord (x : ChainSt) : Nat :=
  x.state * 2 ^ 30 + b2n x.cmdStop * 2 ^ 29 + bits x.status 12 12 * 2 ^ 28 + bits x.status 13 13 * 2 ^ 27
    + bits x.status 16 16 * 2 ^ 26 + bits x.status 17 17 * 2 ^ 25 + b2n (x.state == 1 && x.m == 0) * 2 ^ 24
    + min x.m 4095 * 2 ^ 12 + pickedMask x.comps * 2 ^ 8

/-- Keep a chain's new state, CHAIN_STATE with it. -/
def State.putChain (s : State) (sd : SideId) (ch : Nat) (x : ChainSt) : State :=
  let r := Rg.chainState sd ch
  (s.modSide sd fun y => { y with chains := Tbl.put y.chains ch x }).putReg r (chainWord x + bits (s.regWord r) 7 0)

/-- A chain that is in none: removed with its register. -/
def State.dropChain (s : State) (sd : SideId) (ch : Nat) : State :=
  (s.modSide sd fun y => { y with chains := Tbl.del y.chains ch }).putReg (Rg.chainState sd ch) 0

/-- Whether a chain counts as Stopped for R104. -/
def State.chainStopped (s : State) (ch : Nat) : Bool := match s.chain s.speaker ch with
  | some x => x.state == 0
  | none => true

/-! ### The status word (R107) -/

def stShown : Nat := 511
/-- Window flags of R107, as intake bits. -/
def windowBits : List Nat := [0, 1, 3, 4, 7, 8, 9, 10]
/-- ABSENT, FREE_RUN and SLIP show the current tick. -/
def nowBits : Nat := 4 + 32 + 64

def vGood : Nat := 0
def vInvalid : Nat := 1
def vQuest : Nat := 3

/-- The record of R106. -/
def chainRecord (ws : List Word) (status : Nat) (frac : List Nat) : Bytes :=
  ws.flatMap (fun w => beBytes 4 w.toNat) ++ beBytes 4 status ++ frac.flatMap (beBytes 2)

/-- The record of a chain that is Stopped or waiting (R105, R97, R108). -/
def idleRecord (status : Nat) : Bytes := chainRecord (List.replicate 9 0) status [0, 0, 0, 0]

/-- The frequency a chain uses (R92): f̂, FREQ_CLAMP, FREQ_HOLD. -/
def State.chainFreq (s : State) (sd : SideId) (c : ChainCfg) : Word × Bool × Bool :=
  let f0 := intF c.f0
  if chFreqSrc c.rec_ = 0xFFFF then (f0, false, false)
  else match s.modActive.get 0x07 (chFreqSrc c.rec_), Tbl.find (s.side sd).groups (chFreqSrc c.rec_) with
    | some g, some x =>
      if bit (u16 g 2) 1 then
        let low := fpLt fmt32 x.freq.toNat 0x42340000
        let high := fpLt fmt32 0x42820000 x.freq.toNat
        (if low then 0x42340000 else if high then 0x42820000 else x.freq, low || high, x.hold)
      else (f0, false, false)
    | _, _ => (f0, false, false)

/-- What one conditioned tick gives. -/
structure ChainOut where
  x : ChainSt
  rec_ : Bytes
  stepped : Bool
  nonfinite : Bool

/-- Samples since the restart: the signal path of one tick (R87 to R100). -/
structure PathOut where
  x : ChainSt
  y : Word
  ma : List Word
  rms : Word
  fine : Cplx
  stepped : Bool
  maFill : Bool

def chainPath (c : ChainCfg) (w k : Nat) (xs : List ChSample) (fhat : Word) (x0 : ChainSt) : PathOut :=
  let m := x0.m + 1
  let r := c.rateStage k xs { x0 with m := m }
  let y := r.2.1
  let resum := decide (w % 4096 = c.chan % 4096)
  let sq (on : Bool) (v : Word) : BitVec 64 := if on then f64Mul (toF64 v) (toF64 v) else toF64 v
  let a1 := if chMaOn c.rec_ 0 then maStep resum (chMaLen c.rec_ 0) m (sq (chMaSq c.rec_ 0) y) x0.ma1 x0.acc1 else ([], 0, 0)
  let ma1 := a1.2.2
  let z := if chOffset c.rec_ then (fSub y ma1).1 else y
  let a2 := if chMaOn c.rec_ 1 then maStep resum (chMaLen c.rec_ 1) m (sq (chMaSq c.rec_ 1) z) x0.ma2 x0.acc2 else ([], 0, 0)
  let ma2 := a2.2.2
  let rms : Word :=
    if chMaOn c.rec_ 0 && chMaSq c.rec_ 0 then (fSqrt ma1).1
    else if chMaOn c.rec_ 1 && chMaSq c.rec_ 1 then (fSqrt ma2).1
    else 0
  let fill := (chMaOn c.rec_ 0 && decide (m < chMaLen c.rec_ 0)) || (chMaOn c.rec_ 1 && decide (m < chMaLen c.rec_ 1))
  let zs := (z :: x0.zs).take c.win
  let x1 := { r.1 with ma1 := a1.1, acc1 := a1.2.1, ma2 := a2.1, acc2 := a2.2.1, zs := zs }
  let fine := fineAt c k zs fhat
  if isPoly c.rate && decide (m ≤ c.settle) then
    ⟨{ x1 with coarse := ⟨0, 0⟩ }, y, [ma1, ma2], rms, fine, false, fill⟩
  else
    let q := if chOffset c.rec_ then (fSub r.2.2.1 ma1).1 else r.2.2.1
    let qsub := (r.2.2.2 :: x0.qsub).take 3
    let armed := chStepOn c.rec_ && decide (2 ≤ x0.mb) && !(qsub.any id)
    let stepped := armed && (match x0.qs with
      | q1 :: q2 :: _ => stepSeen c q q1 q2 x0.fmag
      | _ => false)
    let mb := if stepped then 1 else x0.mb + 1
    let qs := if stepped then [q] else (q :: x0.qs).take (c.win / 4)
    let m' := min mb (c.win / 4)
    let coarse := if m' < 2 then (if stepped then x0.coarse else ⟨0, 0⟩) else coarseAt c k m' qs
    ⟨{ x1 with mb := mb, qs := qs, qsub := qsub, coarse := coarse }, y, [ma1, ma2], rms, fine, stepped, fill⟩

/-- Comparators of a tick: state, EVT, DIR and F of each. -/
def compsTick (c : ChainCfg) (vals : Nat → Word) (gap : Bool) (cs : List CompSt) : List (CompSt × Option (Nat × Nat)) :=
  (upto 4).map fun i =>
    let e := chComp c.rec_ i
    let st := cs.getD i CompSt.empty
    if cmpQty e = 0 then (st, none)
    else
      let v0 := vals (cmpQty e)
      let v := if cmpQty e = 1 ∧ cmpAbs e then (fAbs v0).1 else v0
      if gap then ({ st with hist := (v :: st.hist).take 257 }, none) else compTick e v st

/-- A chain that is Starting or Running with its samples: one conditioned tick (R99 to R108). -/
def chainRun (c : ChainCfg) (w k flags : Nat) (xs : List ChSample) (freq : Word × Bool × Bool) (x0 : ChainSt) : ChainOut :=
  let p := chainPath c w k xs freq.1 x0
  let x := p.x
  let win := c.win
  let clean := if p.stepped then x.m + c.settle + win - 1 else x0.clean
  let settling := decide (x.m < clean)
  let running := x0.state == 2 || !settling
  let starting := !running
  let coarseOn := settling && (starting || x0.prevCoarse || !p.stepped)
  let holds := windowBits.foldl (fun t b => if bit flags b then Tbl.put t b k else t) x0.holds
  let held := listSum ((holds.filter fun e => decide (k < e.2 + win)).map fun e => 2 ^ e.1)
  let fine : Cplx := if starting then ⟨0, 0⟩ else p.fine
  let fmag : Word := if starting then 0 else (cMag p.fine).1
  let cmag := (cMag x.coarse).1
  let first := x.m == 1
  let ma1 := p.ma.getD 0 0
  let ma2 := p.ma.getD 1 0
  let vals (q : Nat) : Word :=
    match q with
    | 1 => p.y
    | 2 => ma1
    | 3 => ma2
    | 4 => p.rms
    | 5 => fmag
    | _ => cmag
  let pref := if coarseOn then x.coarse else fine
  let shown : List Word := [p.y, ma1, ma2, p.rms, fine.re, fine.im, fmag, x.coarse.re, x.coarse.im]
  let nonfin := !first && [fine.re, fine.im, fmag, pref.re, pref.im].any fun v => !fpFinite fmt32 v.toNat
  let validity :=
    if first || bit held 9 || nonfin then vInvalid
    else if bit held 10 || bit held 4 || freq.2.1 || freq.2.2 then vQuest
    else vGood
  let cs := compsTick c vals x0.gap x0.comps
  let evt := x0.drop ||| listSum ((upto 4).map fun i => b2n ((cs.getD i (CompSt.empty, none)).2.isSome) * 2 ^ i)
  let dir := listSum ((upto 4).map fun i => (match (cs.getD i (CompSt.empty, none)).2 with | some e => e.1 | none => 0) * 2 ^ i)
  let frac := (upto 4).map fun i => match (cs.getD i (CompSt.empty, none)).2 with | some e => e.2 | none => 0
  let comps := cs.map (·.1)
  let now := (held &&& (stShown - nowBits)) ||| (flags &&& nowBits)
  let status := validity + now * 4 + b2n first * 2 ^ 11 + b2n coarseOn * 2 ^ 12 + b2n settling * 2 ^ 13
    + b2n starting * 2 ^ 14 + b2n freq.2.1 * 2 ^ 16 + b2n freq.2.2 * 2 ^ 17 + b2n p.maFill * 2 ^ 18
    + b2n nonfin * 2 ^ 19 + evt * 2 ^ 20 + dir * 2 ^ 24 + pickedMask comps * 2 ^ 28
  { x := { x with state := if running then 2 else 1, clean := clean, prevCoarse := coarseOn, fmag := if first then 0 else fmag
                  holds := holds, comps := comps, drop := 0, gap := false
                  pref := if first then ⟨0, 0⟩ else pref, fine := if first then ⟨0, 0⟩ else fine, status := status }
    rec_ := chainRecord (if first then List.replicate 9 0 else shown) status frac
    stepped := p.stepped
    nonfinite := nonfin }

/-- One chain in one tick that seals a sample tick (R84, R103). `absent`: the stream is not PRESENT after the seal;
`present`: it is present for this sample tick. DESIGN CHOICE: the record of a waiting chain shows none of MA_FILL,
SETTLING and COARSE (log entry 271). -/
def chainTick (c : ChainCfg) (w k flags : Nat) (absent present : Bool) (xs : List ChSample) (freq : Word × Bool × Bool)
    (x0 : ChainSt) : ChainOut :=
  let flags := if absent && xs.isEmpty then flags ||| isAbsent else flags
  let xr := if x0.resume = 1 then { x0 with state := 1, resume := 0 } else x0
  let x1 := if xr.state != 0 && decide (0 < xr.m) && absent then xr.halt 1 false else xr
  let wait := absent || (x1.needPresent && !present)
  if x1.state = 0 ∨ (x1.m = 0 ∧ wait) then
    let base := vInvalid + x1.drop * 2 ^ 20
    let status := if x1.state = 0 then base + 2 ^ 15
      else base + 2 ^ 14 + (flags &&& stShown) * 4 + b2n freq.2.1 * 2 ^ 16 + b2n freq.2.2 * 2 ^ 17
    { x := { x1 with drop := 0, gap := false, pref := ⟨0, 0⟩, fine := ⟨0, 0⟩, status := status, resume := x1.resume - 1 }
      rec_ := idleRecord status, stepped := false, nonfinite := false }
  else
    let x2 := if x1.m = 0 then { x1.clear with needPresent := false, clean := c.win + c.settle } else x1
    chainRun c w k flags xs freq x2

/-! ### Groups (R93, R94) -/

/-- SEQ on three phasors: zero, positive, negative. -/
def seqOf (a b c : Cplx) : Cplx × Cplx × Cplx :=
  ((seqSum a ⟨b, noFlags⟩ ⟨c, noFlags⟩).v, (seqSum a (cMul seqAlpha b) (cMul seqAlpha2 c)).v,
    (seqSum a (cMul seqAlpha2 b) (cMul seqAlpha c)).v)

/-- c_f: the binary32 of f0 / 2π. -/
def kF0Over2Pi (f0 : Nat) : Word := fxRound (f0 * fxOne * fxOne / (2 * piFix) : Nat)

/-- A group that no estimate has reached yet. -/
def GroupSt.fresh (f0 : Nat) (freqOn : Bool) : GroupSt := ⟨0, [], [], intF f0, 0, freqOn, intF f0⟩

/-- Worst validity. -/
def worstValidity (l : List Nat) : Nat := if l.contains 1 then vInvalid else if l.contains 3 then vQuest else vGood

/-- One group at sample tick k: its state, its record. -/
def groupTick (f0 k : Nat) (g : Bytes) (mem : List (Option ChainSt)) (x : GroupSt) : GroupSt × Bytes :=
  let win := 4800 / f0
  let ph (i : Nat) : Cplx := match mem.getD i none with | some c => c.pref | none => ⟨0, 0⟩
  let fi (i : Nat) : Cplx := match mem.getD i none with | some c => c.fine | none => ⟨0, 0⟩
  let acb := bit (u16 g 2) 0
  let freqOn := bit (u16 g 2) 1
  let sq := seqOf (ph 0) (ph 1) (ph 2)
  let pos := if acb then sq.2.2 else sq.2.1
  let neg := if acb then sq.2.1 else sq.2.2
  let sf := seqOf (fi 0) (fi 1) (fi 2)
  let x1f := if acb then sf.2.2 else sf.2.1
  let clean := mem.all fun o => match o with | some c => c.state == 2 && !bit c.status 13 | none => false
  let okRun := if clean then x.okRun + 1 else 0
  let x1s := (x1f :: x.x1s).take (win + 1)
  let form := freqOn && decide (win + 1 ≤ okRun) && fpLt fmt32 0 (cMag x1f).1.toNat
  let est : Word :=
    let old := x1s.getD win ⟨0, 0⟩
    (fFma (kF0Over2Pi f0) (cArg (cMul x1f (cConj old).v).v).1 (intF f0)).1
  let freq := if freqOn then (if form then est else x.keep) else intF f0
  let fs := ((if form then [(k, freq)] else []) ++ x.fs).filter fun e => decide (k < e.1 + 961)
  let wr := u16 g 10
  let rocof : Word :=
    if !freqOn then 0
    else match Tbl.find fs k, (if wr ≤ k then Tbl.find fs (k - wr) else none) with
      | some a, some b => (fMul (fSub a b).1 (BitVec.ofNat 32 (fpOfFrac fmt32 4800 wr))).1
      | _, _ => x.rocof
  let hold := freqOn && !form
  let clamp := freqOn && (fpLt fmt32 freq.toNat 0x42340000 || fpLt fmt32 0x42820000 freq.toNat)
  let any (b : Nat) := mem.any fun o => match o with | some c => bit c.status b | none => false
  let validity := worstValidity (mem.map fun o => match o with | some c => c.status % 4 | none => 1)
  let status := validity + b2n (any 12) * 4 + b2n (any 13) * 8 + b2n hold * 16 + b2n clamp * 32
  let ws : List Word := [sq.1.re, sq.1.im, pos.re, pos.im, neg.re, neg.im, freq, rocof]
  (⟨okRun, x1s, fs, freq, rocof, hold, if freqOn then freq else x.keep⟩, ws.flatMap (fun v => beBytes 4 v.toNat) ++ beBytes 4 status ++ zeros 12)

/-! ### The Condition phase -/

/-- The samples of a channel in a sealed sample tick: subscription slot, place of the entry in CHANNELS. -/
def channelSamples (q : Option SealedTick) (i : Nat) : List ChSample × Nat :=
  match q with
  | none => ([], 0)
  | some t =>
    let ds := t.samples.map fun a => (a.num, a.entries.getD i ⟨0, 1, 0⟩)
    (ds.map fun d => ⟨d.1, d.2.value.toInt, bit d.2.status 1⟩, ds.foldl (fun acc d => acc ||| d.2.status) 0)

/-- One channel's chain on a side. -/
def State.conditionChain (s : State) (sd : SideId) (w k : Nat) (ch : Nat) : State × Option (Nat × Bytes) :=
  match s.modActive.chainCfg ch, s.modActive.chanEntry ch, s.chain sd ch with
  | some c, some (sr, _), some x =>
    let slot := subSlot sr
    let i := ((subChans sr).findIdx? fun e => chanNumber e == ch).getD 0
    let q := (s.stream sd slot).sealed_.find? fun t => t.tick == k
    let d := channelSamples q i
    let absent := s.streamState sd slot != stPresent
    let present := match q with | some t => t.present | none => false
    let o := chainTick c w k d.2 absent present d.1 (s.chainFreq sd c) x
    let s1 := s.putChain sd ch o.x
    let s2 := if o.stepped then (s1.tick1 (Rg.condSteps sd) Fd.condStepsSteps).tick1 (Rg.chainState sd ch) Fd.chainStateStepTally else s1
    let s3 := if o.nonfinite then s2.tick1 (Rg.condNonfinite sd) Fd.condNonfiniteCount else s2
    (s3, some (ch, o.rec_))
  | _, _, _ => (s, none)

/-- One group on a side; its record is kept under 65,536 + group. -/
def State.conditionGroup (s : State) (sd : SideId) (k : Nat) (e : Nat × Bytes) : State × (Nat × Bytes) :=
  let g := e.2
  let f0 := s.modActive.nominal
  let x := Tbl.getD (s.side sd).groups e.1 (GroupSt.fresh f0 (bit (u16 g 2) 1))
  let r := groupTick f0 k g [s.chain sd (u16 g 4), s.chain sd (u16 g 6), s.chain sd (u16 g 8)] x
  ((s.modSide sd fun y => { y with groups := Tbl.put y.groups e.1 r.1 }).putReg (Rg.groupState sd e.1) (u32 r.2 32), (65536 + e.1, r.2))

/-- The counts of chains after a Condition phase. -/
def State.countChains (s : State) (sd : SideId) : State :=
  let n (v : Nat) := ((s.side sd).chains.filter fun e => e.2.state == v).length
  ((s.wr (Rg.condCounts sd) Fd.condCountsNRunning (n 2)).wr (Rg.condCounts sd) Fd.condCountsNStarting (n 1)).wr
    (Rg.condStopped sd) Fd.condStoppedNStopped (n 0)

/-- The Condition phase of a side for sample tick k (R84): chains in ascending channel, then groups. -/
def State.condition (s : State) (sd : SideId) (w k : Nat) : State :=
  let r := (s.side sd).chains.foldl (fun (acc : State × Tbl Bytes) e =>
    let o := acc.1.conditionChain sd w k e.1
    (o.1, match o.2 with | some p => Tbl.put acc.2 p.1 p.2 | none => acc.2)) (s, [])
  let r2 := (s.modActive.block 0x07).foldl (fun (acc : State × Tbl Bytes) e =>
    let o := acc.1.conditionGroup sd k e
    (o.1, Tbl.put acc.2 o.2.1 o.2.2)) r
  let s1 := r2.1.modSide sd fun y => { y with condStore := (y.condStore.filter fun e => decide (k < e.1 + 9 ∧ e.1 ≠ k)) ++ [(k, r2.2)] }
  s1.countChains sd

/-- A work tick that seals no sample tick (R35): nothing advances; a chain stopped for one tick is waiting from the next
tick on, and every chain that is not Stopped waits for a present sample tick. -/
def State.conditionNone (s : State) (sd : SideId) : State :=
  ((s.side sd).chains.foldl (fun (t : State) e =>
    let x := if e.2.resume = 1 then { e.2 with state := 1 } else e.2
    t.putChain sd e.1 { x with drop := 0, resume := x.resume - 1, needPresent := x.needPresent || x.state != 0 || x.resume != 0 }) s).countChains sd

/-- A tick that no side computed (R225): every chain restarts on the blitz path. -/
def State.conditionGap (s : State) (sd : SideId) : State :=
  (s.side sd).chains.foldl (fun t e =>
    if e.2.state = 0 then t else t.putChain sd e.1 { e.2.halt 1 false with gap := true, needPresent := true }) s

/-- The latest record of a channel, or that of R35 in a tick that sealed none. -/
def State.condRecord (s : State) (sd : SideId) (key k : Nat) : Option Bytes :=
  match (s.side sd).condStore.find? fun e => e.1 == k with
  | some e => Tbl.find e.2 key
  | none => none

/-! ### Castling (R103, R78) -/

/-- Everything whose difference makes a group start over: its record and what changes its members' chains. -/
def Scope.groupSig (c : Scope) (g : Nat) : Option Bytes × List (Option ChainSig) :=
  match c.get 0x07 g with
  | some r => (some r, [4, 6, 8].map fun o => c.chainSig (u16 r o))
  | none => (none, [])

/-- A group whose record or members a write to the active set has changed: it begins its estimates anew and holds the last
one (R94). -/
def GroupSt.rewritten (x : GroupSt) : GroupSt := { x with okRun := 0, x1s := [], fs := [] }

/-- The module scope has changed, by a castling or by a write to the active set: chains added, removed and changed. Only a
castling makes the held frequency f0 again (R94). -/
def State.newChains (s : State) (castling : Bool) (old : Scope) : State :=
  let chs := (old.indices 0x05 ++ s.modActive.indices 0x05).eraseDups
  let s1 := chs.foldl (fun t ch =>
    let new := t.modActive.chainSig ch
    t.forSides fun sd u =>
      match u.chain sd ch, new with
      | _, none => u.dropChain sd ch
      | none, some _ => u.putChain sd ch ChainSt.fresh
      | some x, some _ =>
        if old.chainSig ch = new then u
        else if x.state = 0 ∧ x.cmdStop then u
        else u.putChain sd ch { x.halt 0 false with resume := 2 }) s
  let gs := (old.indices 0x07 ++ s.modActive.indices 0x07).eraseDups
  gs.foldl (fun t g =>
    if old.groupSig g = t.modActive.groupSig g then t.forSides fun sd u => u.modSide sd fun y => match Tbl.find y.groups g with
      | some x => { y with groups := Tbl.put y.groups g (if castling then { x with keep := intF t.modActive.nominal } else x) }
      | none => y
    else match t.modActive.get 0x07 g with
      | none => t.forSides fun sd u => (u.modSide sd fun y => { y with groups := Tbl.del y.groups g }).putReg (Rg.groupState sd g) 0x11
      | some r => t.forSides fun sd u => u.modSide sd fun y =>
          let blank := GroupSt.fresh t.modActive.nominal (bit (u16 r 2) 1)
          { y with groups := Tbl.put y.groups g (if castling then blank else match Tbl.find y.groups g with
            | some x => x.rewritten
            | none => blank) }) s1

/-- What a castling of the module scope does to chains and groups (R94, R103). -/
def State.castledChains (s : State) (old : Scope) : State := s.newChains true old

/-! ### Checks of records (R109 to R112) -/

def f32Between (v : Word) (lo hi : Nat) : Bool := fpLe fmt32 lo v.toNat && fpLe fmt32 v.toNat hi

/-- Ranges of a chain record. -/
def chainRangeOk (r : Bytes) : Bool :=
  r.length == 96
    && decide (u16 r 0 ≤ 8191 ∧ u16 r 2 < 64 ∧ 1 ≤ u16 r 8 ∧ u16 r 8 ≤ 4096 ∧ 1 ≤ u16 r 10 ∧ u16 r 10 ≤ 4096
      ∧ (u16 r 12 ≤ 1023 ∨ u16 r 12 = 0xFFFF) ∧ (u8 r 14 ≤ 63 ∨ u8 r 14 = 255) ∧ u8 r 15 = 0)
    && (!chOffset r || (chMaOn r 0 && !chMaSq r 0))
    && f32Between (fAbs (wordAt r 4)).1 0x37800000 0x47800000
    && f32Between (wordAt r 16) 0 0x4E6E6B28 && f32Between (wordAt r 20) 0 0x40800000
    && allZero (sub r 88 8)
    && (upto 4).all fun i =>
      let e := chComp r i
      decide (cmpQty e ≤ 6 ∧ u8 e 1 < 4 ∧ 1 ≤ cmpP e ∧ 1 ≤ cmpQ e) && (!cmpAbs e || cmpQty e == 1)
        && fpFinite fmt32 (u32 e 4) && fpFinite fmt32 (u32 e 8) && fpLe fmt32 0 (u32 e 8) && allZero (sub e 12 4)

/-- Ranges of a tap-set header. -/
def tapHeadOk (r : Bytes) : Bool :=
  decide (u8 r 0 ≤ 63 ∧ 1 ≤ u8 r 1 ∧ u8 r 1 ≤ 5 ∧ 1 ≤ u16 r 2 ∧ u16 r 2 ≤ (rateShape (u8 r 1)).2.2)
    && f32Between (wordAt r 4) 0 0x3BA3D70A

/-- Ranges of a group record. -/
def groupRangeOk (r : Bytes) : Bool :=
  r.length == 16 && decide (u16 r 0 ≤ 1023 ∧ u16 r 2 < 4 ∧ u16 r 4 ≤ 8191 ∧ u16 r 6 ≤ 8191 ∧ u16 r 8 ≤ 8191
    ∧ 1 ≤ u16 r 10 ∧ u16 r 10 ≤ 960) && allZero (sub r 12 4)

/-- The cross-checks of one chain record (R109, R110). -/
def Scope.chainCross (c : Scope) (r : Bytes) : Option Status :=
  match c.chanEntry (u16 r 0) with
  | none => some .conflict
  | some (sr, _) =>
    match c.get 0x06 (chTapset r) with
    | none => if u8 sr 12 = 0 then none else some .conflict
    | some t =>
      if u8 sr 12 ≠ 0 ∧ u8 t 1 ≠ u8 sr 12 then some .conflict else if !c.tapsWritten (chTapset r) then some .state else none

/-- The cross-checks of one group record (R111). -/
def Scope.groupCross (c : Scope) (r : Bytes) : Option Status :=
  let m := [u16 r 4, u16 r 6, u16 r 8]
  if hasDup m || m.any fun ch => (c.get 0x05 ch).isNone then some .conflict else none

/-- The conditioning demand of a set (R112). -/
def Scope.condDemand (c : Scope) : Nat :=
  let win := 4800 / c.nominal
  let chain (r : Bytes) : Nat :=
    match c.chanEntry (u16 r 0) with
    | none => 0
    | some (sr, _) =>
      let rate := u8 sr 12
      let taps := match (if rate = 0 then none else c.get 0x06 (chTapset r)) with | some t => u16 t 2 | none => 0
      2 + rateCost rate taps
        + listSum ((upto 2).map fun i => if chMaOn r i then 4 + b2n (chMaSq r i) else 0)
        + 8 + (2 * win + 16) + (win / 2 + 12)
        + 3 * ((upto 4).filter fun i => cmpQty (chComp r i) != 0).length + 4
  16384 + 96 * (c.block 0x07).length + listSum ((c.block 0x05).map fun e => chain e.2)

/-! ### Commands (R113) -/

/-- Write a record to the active module scope. -/
def State.modifyModActive (s : State) (f : Scope → Scope) : State := { s with modActive := f s.modActive }

/-- A write to the active set reaches its chains at once (R104). -/
def State.writeActiveCond (s : State) (f : Scope → Scope) : State := (s.modifyModActive f).newChains false s.modActive

/-- A write of a conditioning record to a set (R104). -/
def writeCond (s : State) (set : Nat) (running : Bool) (cross : Option Status) (f : Scope → Scope) : CmdOut :=
  if set = 0 then
    if running then refuse s .chainRunning
    else match cross with
      | some e => refuse s e
      | none => done (s.writeActiveCond f) []
  else done (s.modifyModShadow f) []

/-- COND_SET_CHAIN. -/
def cmdCondSetChain (_ : CmdHdr) (p : Bytes) (s : State) : CmdOut :=
  let r := p.drop 1
  if 1 < u8 p 0 ∨ !chainRangeOk r then refuse s .range
  else writeCond s (u8 p 0) (!s.chainStopped (u16 r 0)) (s.modActive.chainCross r) fun c => c.putRec 0x05 (u16 r 0) r

/-- The tap set of a scope after one COND_SET_TAPS (R110). None: the header is not the stored one. -/
def Scope.withTaps (c : Scope) (head : Bytes) (first : Nat) (taps : Bytes) : Option Scope :=
  let n := taps.length / 4
  let t := u8 head 0
  let total := u16 head 2
  if first = 0 then
    some ((c.putRec 0x06 t (fit (8 + 4 * total) (head ++ taps))).putRec tapMarkTy t (List.replicate n 1 ++ zeros (total - n)))
  else
    match c.get 0x06 t with
    | none => none
    | some r =>
      if r.take 8 = head then
        if n = 0 then some c
        else
          let mark := (c.get tapMarkTy t).getD (List.replicate total 1)
          some ((c.putRec 0x06 t (patch r (8 + 4 * first) taps)).putRec tapMarkTy t (patch mark first (List.replicate n 1)))
      else none

/-- The chains of the active set that name a tap set, whatever the rate of their channel. -/
def State.tapNamers (s : State) (t : Nat) : List (Nat × Bytes) := (s.modActive.block 0x05).filter fun e => chTapset e.2 == t

/-- The chains of the active set that use a tap set. -/
def State.tapUsers (s : State) (t : Nat) : List (Nat × Bytes) :=
  (s.tapNamers t).filter fun e => (match s.modActive.chanEntry e.1 with
    | some (sr, _) => u8 sr 12 != 0
    | none => false)

/-- COND_SET_TAPS. -/
def cmdCondSetTaps (_ : CmdHdr) (p : Bytes) (s : State) : CmdOut :=
  let head := sub p 1 8
  let first := u16 p 9
  let n := u16 p 11
  if 1 < u8 p 0 ∨ !tapHeadOk head ∨ 248 < n ∨ u16 head 2 < first + n then refuse s .range
  else
    let t := u8 head 0
    match (s.setScope (u8 p 0)).withTaps head first (p.drop 13) with
    | none => refuse s .conflict
    | some c =>
      if u8 p 0 = 0 then
        if (s.tapUsers t).any fun e => !s.chainStopped e.1 then refuse s .chainRunning
        else match (s.tapNamers t).findSome? fun e => c.chainCross e.2 with
          | some e => refuse s e
          | none => done (s.writeActiveCond fun _ => c) []
      else done (s.modifyModShadow fun _ => c) []

/-- COND_SET_GROUP. -/
def cmdCondSetGroup (_ : CmdHdr) (p : Bytes) (s : State) : CmdOut :=
  let r := p.drop 1
  if 1 < u8 p 0 ∨ !groupRangeOk r then refuse s .range
  else writeCond s (u8 p 0) ([4, 6, 8].any fun o => !s.chainStopped (u16 r o)) (s.modActive.groupCross r)
    fun c => c.putRec 0x07 (u16 r 0) r

/-- COND_STOP: Stopped from this tick with CMD_STOP (R103). -/
def State.condStop (s : State) (ch : Nat) : State :=
  s.forSides fun sd t => match t.chain sd ch with
    | some x => if x.state = 0 ∧ x.cmdStop then t else t.putChain sd ch (x.halt 0 true)
    | none => t

/-- COND_START: Starting, m = 1 or waiting as the sample tick decides (R103). -/
def State.condStart (s : State) (ch : Nat) : State :=
  s.forSides fun sd t => match t.chain sd ch with
    | some x => if x.state = 0 ∧ x.cmdStop then t.putChain sd ch { x with state := 1, cmdStop := false } else t
    | none => t

def chanSpan (p : Bytes) : List Nat := (upto (u16 p 2)).map (· + u16 p 0)

def cmdCondStop (_ : CmdHdr) (p : Bytes) (s : State) : CmdOut :=
  if !okRange (u16 p 0) (u16 p 2) 1024 8191 then refuse s .range else done ((chanSpan p).foldl State.condStop s) []

def cmdCondStart (_ : CmdHdr) (p : Bytes) (s : State) : CmdOut :=
  if !okRange (u16 p 0) (u16 p 2) 1024 8191 then refuse s .range else done ((chanSpan p).foldl State.condStart s) []

/-- COND_READ_CHAIN. -/
def cmdCondReadChain (_ : CmdHdr) (p : Bytes) (s : State) : CmdOut := readRecord s (decide (u16 p 0 ≤ 8191)) (u8 p 2) 0x05 (u16 p 0)

/-- A record of the conditioned store: RANGE when older than 8 ticks before the last one, STATE when not conditioned. -/
def readStore (s : State) (sd : SideId) (key : Nat) (k : Nat) : CmdOut :=
  match (s.side sd).condStore.getLast? with
  | none => refuse s .state
  | some l =>
    if l.1 < k then refuse s .state
    else if k + 8 < l.1 then refuse s .range
    else match s.condRecord sd key k with
      | some r => done s r
      | none => refuse s .state

def cmdCondReadOutput (h : CmdHdr) (p : Bytes) (s : State) : CmdOut :=
  if 8191 < u16 p 0 then refuse s .range else readStore s h.side (u16 p 0) (u64 p 2)

def cmdCondReadGroup (h : CmdHdr) (p : Bytes) (s : State) : CmdOut :=
  if 1023 < u16 p 0 then refuse s .range else readStore s h.side (65536 + u16 p 0) (u64 p 2)

/-- COND_SET_NOMINAL. -/
def cmdCondSetNominal (_ : CmdHdr) (p : Bytes) (s : State) : CmdOut :=
  if u8 p 0 = 50 ∨ u8 p 0 = 60 then
    done (s.modifyModShadow fun c => c.putRec 0x01 0 (patch c.timeRec 1 (p.take 1))) []
  else refuse s .range

/-- COND_DEMAND (R112, R499). -/
def cmdCondDemand (_ : CmdHdr) (p : Bytes) (s : State) : CmdOut :=
  if 1 < u8 p 0 then refuse s .range
  else
    let c := s.setScope (u8 p 0)
    let rates := (c.block 0x05).filterMap fun e => (c.chanEntry e.1).map fun q => (u8 q.1 12, chTapset e.2)
    let used := (upto 64).filter fun t => rates.any fun q => q.1 != 0 && q.2 == t
    done s (beBytes 4 c.condDemand ++ (upto 6).flatMap (fun r => beBytes 2 (rates.filter fun q => q.1 == r).length) ++ zeros 4
      ++ beBytes 8 (listSum (used.map fun t => 2 ^ t)))

/-- Whether a channel belongs to a stall: it is of one of the stall's own subscriptions. -/
def State.ownsChannel (s : State) (st ch : Nat) : Bool :=
  [s.modActive, s.modShadow].any fun c => match c.chanEntry ch with
    | some (r, _) => subOwner r == st
    | none => false

/-- Whether a stall may read a channel (R173). -/
def State.readsChannel (s : State) (st ch : Nat) : Bool := s.mayReadChannel st ch s.ownsChannel

def ownsSpan : State → Bytes → Nat → Bool := fun s p st => (chanSpan p).all fun ch => s.ownsChannel st ch

def specCondSetChain : CmdSpec :=
  ⟨0x0410, always .engineer, fun _ => true, lenIs 97, false, fun s p st => s.ownsChannel st (u16 p 1), true, cmdCondSetChain⟩
def specCondSetTaps : CmdSpec :=
  ⟨0x0411, always .engineer, fun _ => true, fun p => decide (13 ≤ p.length) && p.length == 13 + 4 * u16 p 11, true, ownsNone, true, cmdCondSetTaps⟩
def specCondSetGroup : CmdSpec :=
  ⟨0x0412, always .engineer, fun _ => true, lenIs 17, false,
    fun s p st => [5, 7, 9].all fun o => s.ownsChannel st (u16 p o), true, cmdCondSetGroup⟩
def specCondStop : CmdSpec := ⟨0x0413, always .engineer, fun _ => true, lenIs 4, false, ownsSpan, true, cmdCondStop⟩
def specCondStart : CmdSpec := ⟨0x0414, always .engineer, fun _ => true, lenIs 4, false, ownsSpan, true, cmdCondStart⟩
def specCondReadChain : CmdSpec :=
  ⟨0x0415, always .observer, fun _ => false, lenIs 3, false, fun s p st => s.readsChannel st (u16 p 0), false, cmdCondReadChain⟩
def specCondReadOutput : CmdSpec :=
  ⟨0x0416, always .observer, fun _ => false, lenIs 10, false, fun s p st => s.readsChannel st (u16 p 0), false, cmdCondReadOutput⟩
def specCondReadGroup : CmdSpec :=
  ⟨0x0417, always .observer, fun _ => false, lenIs 10, false, fun s p st => s.mayReadGroup st (u16 p 0), false, cmdCondReadGroup⟩
def specCondSetNominal : CmdSpec := ⟨0x0418, always .engineer, fun _ => true, lenIs 1, true, ownsNone, true, cmdCondSetNominal⟩
def specCondDemand : CmdSpec := ⟨0x0419, always .observer, fun _ => false, lenIs 1, false, ownsNone, false, cmdCondDemand⟩

def execCondSetChain (h : CmdHdr) (p : Bytes) (s : State) : Host.Outcome State Fault Refusal := runCmd specCondSetChain h p s
def execCondSetTaps (h : CmdHdr) (p : Bytes) (s : State) : Host.Outcome State Fault Refusal := runCmd specCondSetTaps h p s
def execCondSetGroup (h : CmdHdr) (p : Bytes) (s : State) : Host.Outcome State Fault Refusal := runCmd specCondSetGroup h p s
def execCondStop (h : CmdHdr) (p : Bytes) (s : State) : Host.Outcome State Fault Refusal := runCmd specCondStop h p s
def execCondStart (h : CmdHdr) (p : Bytes) (s : State) : Host.Outcome State Fault Refusal := runCmd specCondStart h p s
def execCondReadChain (h : CmdHdr) (p : Bytes) (s : State) : Host.Outcome State Fault Refusal := runCmd specCondReadChain h p s
def execCondReadOutput (h : CmdHdr) (p : Bytes) (s : State) : Host.Outcome State Fault Refusal := runCmd specCondReadOutput h p s
def execCondReadGroup (h : CmdHdr) (p : Bytes) (s : State) : Host.Outcome State Fault Refusal := runCmd specCondReadGroup h p s
def execCondSetNominal (h : CmdHdr) (p : Bytes) (s : State) : Host.Outcome State Fault Refusal := runCmd specCondSetNominal h p s
def execCondDemand (h : CmdHdr) (p : Bytes) (s : State) : Host.Outcome State Fault Refusal := runCmd specCondDemand h p s

/-! ### Events of one chain -/

/-- Put an event of comparator i into the latest record of a channel (R95, R106). -/
def stampEvent (r : Bytes) (i dir frac : Nat) (picked : Bool) : Bytes :=
  let st := u32 r 36
  let st1 := setBits (setBits (setBits st (20 + i) (20 + i) 1) (24 + i) (24 + i) dir) (28 + i) (28 + i) (b2n picked)
  patch (patch r 36 (beBytes 4 st1)) (40 + 2 * i) (beBytes 2 frac)

/-- Replace a channel's record of the last conditioned tick. -/
def State.stampRecord (s : State) (sd : SideId) (ch : Nat) (f : Bytes → Bytes) : State :=
  s.modSide sd fun y => { y with condStore := match y.condStore.getLast? with
    | some l => y.condStore.dropLast ++ [(l.1, Tbl.upd l.2 ch f)]
    | none => [] }

/-- A comparator whose run is complete fires (R95). -/
def State.fireComp (s : State) (sd : SideId) (ch i dir : Nat) (fire : Bytes → CompSt → Option (CompSt × Nat)) : State :=
  match s.chain sd ch, s.modActive.get 0x05 ch with
  | some x, some r =>
    match fire (chComp r i) (x.comps.getD i CompSt.empty) with
    | some o =>
      let x1 := { x with comps := x.comps.set i o.1
                         status := u32 (stampEvent (idleRecord x.status) i dir o.2 o.1.picked) 36 }
      (s.putChain sd ch x1).stampRecord sd ch fun b => stampEvent b i dir o.2 o.1.picked
    | none => s
  | _, _ => s

/-- COMPARATOR_PICKUP (R95, R96). -/
def execComparatorPickup (side : SideId) (chan : Fin 8192) (comp : Fin 4) (s : State) : Host.Outcome State Fault Refusal :=
  .next (s.fireComp side chan.val comp.val 1 compPickup)

/-- COMPARATOR_DROPOUT (R95, R96). -/
def execComparatorDropout (side : SideId) (chan : Fin 8192) (comp : Fin 4) (s : State) : Host.Outcome State Fault Refusal :=
  .next (s.fireComp side chan.val comp.val 0 compDropout)

/-- CHAIN_SETTLED (R102): a Starting chain that has reached N + S_rate samples, and the end of a step's settling, is
Running. -/
def State.chainSettled (s : State) (sd : SideId) (ch : Nat) : State :=
  match s.chain sd ch, s.modActive.chainCfg ch with
  | some x, some c =>
    if x.state = 1 ∧ c.win + c.settle ≤ x.m ∧ x.clean ≤ x.m then
      s.putChain sd ch { x with state := 2, prevCoarse := false
                                status := setBits (setBits x.status 14 12 0) 14 14 0 }
    else s
  | _, _ => s

def execChainSettled (side : SideId) (chan : Fin 8192) (s : State) : Host.Outcome State Fault Refusal :=
  .next (s.chainSettled side chan.val)

/-- SETTLING_END (R101): the fine window is clean again; SETTLING and COARSE clear together. -/
def State.settlingEnd (s : State) (sd : SideId) (ch : Nat) : State :=
  match s.chain sd ch with
  | some x =>
    if x.state = 2 ∧ bit x.status 13 ∧ x.clean ≤ x.m then
      s.putChain sd ch { x with prevCoarse := false, pref := x.fine, status := setBits x.status 13 12 0 }
    else s
  | none => s

def execSettlingEnd (side : SideId) (chan : Fin 8192) (s : State) : Host.Outcome State Fault Refusal :=
  .next (s.settlingEnd side chan.val)

end Sys2Proof.Machine
end

