-- ==== Sys2Proof/Machine/Acq.lean ====
section
/-! DEFINITION. Trigger and acquisition (R299 to R314): trigger lines and marks, wavefront inputs, capture channels, their
destinations and records, and the acquisition commands. -/

namespace Sys2Proof.Machine

/-! ### Records of the configuration -/

/-- Ranges of a trigger-line record (R299). -/
def lineRangeOk (r : Bytes) : Bool :=
  let src := u8 r 2
  let cond := u8 r 3
  let idx := u16 r 4
  r.length == 8 && decide (u8 r 0 ≤ 63 ∧ u8 r 1 ≤ 15 ∧ 1 ≤ src ∧ src ≤ 6) && allZero (sub r 6 2) &&
    (match src with
      | 1 => decide (cond < 16 ∧ idx ≤ 8191)
      | 2 => decide (cond < 4 ∧ 1 ≤ idx ∧ idx ≤ 32)
      | 3 => decide (cond < 4 ∧ 1 ≤ idx ∧ idx ≤ 8)
      | 4 => decide (cond = 0 ∧ idx ≤ 2047)
      | _ => decide (cond = 0 ∧ idx = 0))

/-- Whether a source is granted to a stall (R299), by the grant `g` and the module scope `c` in force; stall 0 reads every
channel and GOOSE subscription, and its FIELD is in force (R502). -/
def lineGranted (c : Scope) (g : Option Bytes) (safeMask : Nat) (r : Bytes) : Bool :=
  let st := u8 r 0
  let idx := u16 r 4
  match u8 r 2 with
  | 1 => st == 0 || (match g with | some b => inRanges b 48 8 idx | none => false)
      || (match c.chanEntry idx with | some (sr, _) => subOwner sr == st | none => false)
  | 2 => if st = 63 then bit safeMask (idx - 1) else (match g with | some b => bit (u32 b 24) (idx - 1) | none => false)
  | 4 => st == 0 || (match g with | some b => inRanges b 96 4 idx | none => false)
  | _ => true

/-- Ranges of a capture record (R305). -/
def captRangeOk (r : Bytes) : Bool :=
  let src := u8 r 3
  let red := u8 r 7
  r.length == 24
    && decide (u16 r 0 ≤ 255 ∧ u8 r 2 ≤ 62 ∧ 1 ≤ src ∧ src ≤ 3 ∧ 1 ≤ red ∧ red < 16 ∧ (src = 3 → red = 1)
      ∧ (if src = 3 then 1 ≤ u16 r 4 ∧ u16 r 4 ≤ 8 else u16 r 4 ≤ 8191) ∧ (if src = 2 then u8 r 6 ≤ 5 else u8 r 6 = 0)
      ∧ (red = 1 ∨ 2 ≤ u16 r 8) ∧ (u8 r 10 < 64 ∨ (128 ≤ u8 r 10 ∧ u8 r 10 < 144)) ∧ u8 r 11 = 0)
    && allZero (sub r 14 10)

def wfRangeOk (r : Bytes) : Bool :=
  let th := toSigned 16 (u16 r 2)
  let dl := toSigned 32 (u32 r 4)
  r.length == 8 && decide (1 ≤ u8 r 0 ∧ u8 r 0 ≤ 8 ∧ u8 r 1 < 4 ∧ -400 ≤ th ∧ th ≤ 400 ∧ -1000000 ≤ dl ∧ dl ≤ 1000000)

def dramRangeOk (r : Bytes) : Bool :=
  r.length == 16 && decide (u8 r 0 ≤ 15 ∧ u8 r 1 ≤ 1 ∧ u16 r 2 = 0 ∧ 1 ≤ u32 r 4 ∧ u32 r 4 ≤ 16384 ∧ u8 r 8 ≤ 62)
    && allZero (sub r 9 7)

/-- DRAM ring space of a set in MiB. -/
def Scope.dramMib (c : Scope) : Nat := listSum ((c.block 0x0F).map fun e => u32 e.2 4)

/-- The capture record of a channel in the active scopes. -/
def State.captRec (s : State) (c : Nat) : Option Bytes :=
  allStalls.findSome? fun st => if st = 63 then none else (s.stallScope st).get 0x25 c

/-- Every configured capture channel, ascending. -/
def State.captChans (s : State) : List (Nat × Bytes) := (upto 256).filterMap fun c => (s.captRec c).map fun r => (c, r)

/-- The trigger line of a stall in force. -/
def State.lineRec (s : State) (stall line : Nat) : Option Bytes := (s.stallScope stall).get 0x24 line

/-! ### Capture states -/

def csNone : Nat := 0
def csIdle : Nat := 1
def csRunning : Nat := 3
def csOverflowed : Nat := 4
def csNoDest : Nat := 5

def State.captState (s : State) (sd : SideId) (c : Nat) : Nat := s.rd (Rg.captState sd c) Fd.captStateState
def State.setCaptState (s : State) (sd : SideId) (c v : Nat) : State := s.wr (Rg.captState sd c) Fd.captStateState v
def State.capt (s : State) (sd : SideId) (c : Nat) : CaptSt := Tbl.getD (s.side sd).capts c CaptSt.fresh
def State.putCapt (s : State) (sd : SideId) (c : Nat) (x : CaptSt) : State :=
  s.modSide sd fun y => { y with capts := Tbl.put y.capts c x }

/-- The sides in service; when neither is, commands act on both (see the assumption log). -/
def State.serving (s : State) : List SideId :=
  let l := bothSides.filter fun sd => (s.side sd).role != .out
  if l.isEmpty then bothSides else l

/-! ### Destinations (R308, R309) -/

/-- DEST of a record as a key: rings 0 to 63, DRAM rings from 64. -/
def destKey (r : Bytes) : Nat := if 128 ≤ u8 r 10 then 64 + u8 r 10 % 64 else u8 r 10

/-- A record into a host ring, keeping 64 bytes free when `keep` (R309): since a buffer in progress is completed a tick after
its first record (R383), the space kept is that of another descriptor. The Bool says that the record is taken. -/
def State.ringPutKeep (s : State) (sd : SideId) (r : Nat) (keep : Bool) (rec : Bytes) : State × Bool :=
  let x := s.ring sd r
  let l := x.descs.filter fun d => decide (8192 ≤ d.len)
  let moves := match l with
    | d :: _ => decide (d.len < x.used + rec.length)
    | [] => true
  if b2n moves + b2n keep < l.length then s.ringPut sd r rec else (s, false)

/-- Bytes held by a DRAM ring. -/
def dramUsed (l : List Bytes) : Nat := listSum (l.map (·.length))

/-- The oldest whole records dropped until `n` more bytes fit in `size`. -/
def dramWrap (size n : Nat) : List Bytes → List Bytes
  | [] => []
  | b :: rest => if dramUsed (b :: rest) + n ≤ size then b :: rest else dramWrap size n rest

/-- A record into a DRAM ring. -/
def State.dramPut (s : State) (sd : SideId) (n : Nat) (keep : Bool) (rec : Bytes) : State × Bool :=
  match s.modActive.get 0x0F n with
  | none => (s, false)
  | some r =>
    let size := u32 r 4 * 1048576
    let l := Tbl.getD (s.side sd).dram n []
    let put (l : List Bytes) := s.modSide sd fun y => { y with dram := Tbl.put y.dram n (l ++ [rec]) }
    if u8 r 1 = 1 then (put (dramWrap size rec.length l), true)
    else if dramUsed l + rec.length + (if keep then 64 else 0) ≤ size then (put l, true)
    else (s, false)

def State.destPut (s : State) (sd : SideId) (dest : Nat) (keep : Bool) (rec : Bytes) : State × Bool :=
  if 64 ≤ dest then s.dramPut sd (dest - 64) keep rec else s.ringPutKeep sd dest keep rec

/-- The records waiting for a destination go out in order while it takes them. -/
def State.drainDest (s : State) (sd : SideId) (dest : Nat) : List CaptWait → State
  | [] => s.modSide sd fun y => { y with captWait := Tbl.del y.captWait dest }
  | w :: rest =>
    let t := s.destPut sd dest (u8 w.bytes 0 != 6) w.bytes
    if t.2 then t.1.drainDest sd dest rest
    else t.1.modSide sd fun y => { y with captWait := Tbl.put y.captWait dest (w :: rest) }

/-- A destination's waiting records. -/
def State.captWaiting (s : State) (sd : SideId) (dest : Nat) : List CaptWait := Tbl.getD (s.side sd).captWait dest []

/-- An OVERFLOW record. -/
def CaptWait.overflow (w : CaptWait) : Bool := u8 w.bytes 0 == 6

/-- Whether a destination has not accepted a record within 4 ticks after the one that produced it. -/
def State.destLate (s : State) (sd : SideId) (dest : Nat) : Bool :=
  (s.captWaiting sd dest).any fun w => !w.overflow && decide (w.work + 4 < s.now)

/-- Hand a record to its destination, behind those that wait. A destination that is late takes none any more: it overflows
in this tick. -/
def State.destWrite (s : State) (sd : SideId) (dest chan : Nat) (bytes : Bytes) : State :=
  let l := s.captWaiting sd dest ++ [⟨chan, s.now, bytes⟩]
  if s.destLate sd dest then s.modSide sd fun y => { y with captWait := Tbl.put y.captWait dest l } else s.drainDest sd dest l

/-- One record of a channel (R313): header, SEQ, padding to a multiple of 8. -/
def State.captWrite (s : State) (sd : SideId) (c : Nat) (r : Bytes) (ty : Nat) (body : Bytes) : State :=
  let x := s.capt sd c
  let b := padTo 8 body
  let bytes := beBytes 1 ty ++ beBytes 1 c ++ beBytes 2 (8 + b.length) ++ beBytes 4 x.next ++ b
  ((s.putCapt sd c { x with next := x.next + 1 }).putReg (Rg.captSeq sd c) x.next).destWrite sd (destKey r) c bytes

/-! ### Sample numbers (R306) -/

/-- The subscription slot, its record and the entry's place for a channel of the active set. -/
def State.chanPlace (s : State) (ch : Nat) : Option (Nat × Bytes × Nat) :=
  match s.modActive.chanEntry ch with
  | some (r, _) => some (subSlot r, r, ((subChans r).findIdx? fun e => chanNumber e == ch).getD 0)
  | none => none

/-- The number of the first sample of a channel's source in sample tick `st` or after it. -/
def State.firstNum (s : State) (r : Bytes) (w st : Nat) : Nat :=
  match u8 r 3 with
  | 1 =>
    match s.chanPlace (u16 r 4) with
    | some (slot, sr, _) =>
      match s.expected w slot sr st with
      | some (e :: _) => sampleNum sr st e
      | _ => ceilDiv (st * subRate sr) 4800
    | none => 0
  | 2 => st
  | _ => 0

/-- n and F of an instant, in 1/65,536 ns of TAI (R306). -/
def State.markPlace (s : State) (r : Bytes) (w t : Nat) : Nat × Nat :=
  let unit : Nat := 65536 * 1000000000
  match u8 r 3 with
  | 1 =>
    match s.chanPlace (u16 r 4) with
    | some (slot, sr, _) =>
      let f := subRate sr
      match (if subFreeRun sr then anchorFor (Tbl.getD s.anchors slot []) w else none) with
      | some a =>
        let d : Int := ((t : Int) - (a.at_ * 65536 : Nat)) * f
        let j := d / (unit : Int)
        ((((a.at_ * f / 1000000000 : Nat) : Int) + j).toNat, ((d - j * unit) * 65536 / unit).toNat)
      | none => (t * f / unit, t * f % unit * 65536 / unit)
    | none => (0, 0)
  | 2 =>
    let n := tickOfNs (t / 65536)
    (n, (t - tickStart n * 65536) / (tickStart (n + 1) - tickStart n))
  | _ => (0, 0)

/-! ### Starting and stopping (R311, R312) -/

/-- Whether a host ring destination is enabled on a side, as a TO_HOST ring of the channel's own stall (R308). -/
def State.destReady (s : State) (sd : SideId) (r : Bytes) : Bool :=
  let d := destKey r
  let x := Rg.ringCfg sd d
  decide (64 ≤ d) || (s.flag x Fd.ringCfgEnabled && s.rd x Fd.ringCfgKind == 1 && s.rd x Fd.ringCfgOwner == u8 r 2)

/-- The first sample number of a channel that is not recorded when what waits for a destination is lost: that of its first
waiting DATA record, or of the sample tick now due. -/
def State.firstLost (s : State) (sd : SideId) (dest c : Nat) (r : Bytes) : Nat :=
  match (s.captWaiting sd dest).find? fun w => w.chan == c && u8 w.bytes 0 == 1 with
  | some w => u64 w.bytes 16
  | none => s.firstNum r s.now (s.now - s.sealDelay)

/-- A start at this bell on one side. -/
def State.captStart (s : State) (sd : SideId) (c : Nat) (r : Bytes) : State :=
  let st := s.captState sd c
  if st = csRunning then s
  else if s.destReady sd r then
    let s1 := (s.putCapt sd c CaptSt.fresh).setCaptState sd c csRunning
    s1.captWrite sd c r 0x04 (zeros 8 ++ beBytes 8 s.now ++ beBytes 8 (s.firstNum r s.now (s.now - s.sealDelay)))
  else s.setCaptState sd c csNoDest

/-- A stop at this bell on one side: STOP, then IDLE. -/
def State.captStop (s : State) (sd : SideId) (c : Nat) (r : Bytes) : State :=
  if s.captState sd c = csRunning then
    let s1 := s.captWrite sd c r 0x05 (zeros 8 ++ beBytes 8 s.now ++ beBytes 8 (s.firstNum r s.now (s.now - s.sealDelay)))
    (s1.putCapt sd c { s1.capt sd c with block := none }).setCaptState sd c csIdle
  else s

/-- The destination ring of a running channel has gone (R310). -/
def evNoDest : Nat := 0x2006
def State.captNoDest (s : State) (sd : SideId) (c ring : Nat) (r : Bytes) : State :=
  if s.captState sd c = csRunning then
    let s1 := (s.putCapt sd c { s.capt sd c with block := none }).setCaptState sd c csNoDest
    s1.sideReport sd evNoDest (beBytes 2 c ++ beBytes 2 ring ++ zeros 4 ++ beBytes 8 s.now
      ++ beBytes 8 (s.firstLost sd ring c r))
  else s

/-- Every running channel of a side whose destination is a given host ring. -/
def State.captsInto (s : State) (sd : SideId) (dest : Nat) : List (Nat × Bytes) :=
  s.captChans.filter fun e => destKey e.2 == dest && s.captState sd e.1 == csRunning

/-- A host ring has been reset or disabled: its channels stop, what waited for it is gone (R310). -/
def State.captLoseRing (s : State) (sd : SideId) (ring : Nat) : State :=
  ((s.captsInto sd ring).foldl (fun t e => t.captNoDest sd e.1 ring e.2) s).modSide sd fun y =>
    { y with captWait := Tbl.del y.captWait ring }

/-- A mirror session to a ring stops with the ring (R274). -/
def State.mirrorLoseRing (s : State) (sd : SideId) (ring : Nat) : State :=
  (upto 4).foldl (fun t m =>
    if t.flag (Rg.mirrorState sd m) Fd.mirrorStateToStall && t.rd (Rg.mirrorState sd m) Fd.mirrorStateRing == ring then
      t.setFlag (Rg.mirrorState sd m) Fd.mirrorStateActive false else t) s

/-- Everything that runs into a ring stops: capture channels, mirror sessions (R310, R274). -/
def State.loseRing (s : State) (sd : SideId) (ring : Nat) : State := (s.captLoseRing sd ring).mirrorLoseRing sd ring

/-- The reset of a ring with everything that runs into it (R386, R310, R274); a Ledger export to it ends. -/
def State.resetRing (s : State) (sd : SideId) (ring : Nat) : State := (s.ringClear sd ring).loseRing sd ring

/-- Overflow of one channel (R309): an OVERFLOW record that names the first sample lost, nothing more after it. -/
def State.captOverflow (s : State) (sd : SideId) (reason c first : Nat) (r : Bytes) : State :=
  if s.captState sd c = csRunning then
    let s1 := s.captWrite sd c r 0x06 (beBytes 1 reason ++ zeros 7 ++ beBytes 8 s.now ++ beBytes 8 first)
    (s1.putCapt sd c { s1.capt sd c with block := none }).setCaptState sd c csOverflowed
  else s

/-- Overflow of a destination (R309): what it could not take is lost, but for OVERFLOW records; one OVERFLOW record for each
channel. -/
def State.destOverflow (s : State) (sd : SideId) (dest : Nat) : State :=
  let s1 := s.modSide sd fun y => { y with captWait := Tbl.put y.captWait dest ((Tbl.getD y.captWait dest []).filter CaptWait.overflow) }
  (s.captsInto sd dest).foldl (fun t e => t.captOverflow sd 1 e.1 (s.firstLost sd dest e.1 e.2) e.2) s1

/-- A castling is about to change a scope from `old` to `new`: channels whose record changes or goes away stop first, and so
do those of any stall that run into a DRAM ring whose record does (R310, R312). -/
def State.stopCapts (s : State) (old new : Scope) : State :=
  let lost (ty i : Nat) : Bool := decide (old.get ty i ≠ new.get ty i)
  let mine := (old.block 0x25).filter fun e => lost 0x25 e.1
  let theirs := s.captChans.filter fun e => 64 ≤ destKey e.2 && lost 0x0F (destKey e.2 - 64)
  (mine ++ theirs).foldl (fun (t : State) e => t.forSides fun sd u => u.captStop sd e.1 e.2) s

/-- A castling has changed a scope: new and changed channels are IDLE, removed ones gone; DRAM rings with a new record are
empty. -/
def State.castledCapts (s : State) (old new : Scope) : State :=
  let changed (ty : Nat) := (old.indices ty ++ new.indices ty).eraseDups.filter fun i => decide (old.get ty i ≠ new.get ty i)
  let s1 := (changed 0x25).foldl (fun (t : State) c =>
    t.forSides fun sd u => u.setCaptState sd c (if (new.get 0x25 c).isSome then csIdle else csNone)) s
  (changed 0x0F).foldl (fun (t : State) n => t.forSides fun sd u => u.modSide sd fun y => { y with dram := Tbl.del y.dram n }) s1

/-! ### Marks (R299, R300) -/

/-- A trigger on a line places a mark on a side. -/
def State.addMark (s : State) (sd : SideId) (m : Mark) : State := s.modSide sd fun y => { y with marks := y.marks ++ [m] }

/-- The lines of every stall with a given source. -/
def State.linesOf (s : State) (source index : Nat) : List (Nat × Nat × Bytes) :=
  allStalls.flatMap fun st => ((s.stallScope st).block 0x24).filterMap fun e =>
    if u8 e.2 2 = source ∧ u16 e.2 4 = index then some (st, e.1, e.2) else none

/-- The order of rows of R300's table. -/
def sourceOrder (src : Nat) : Nat :=
  match src with
  | 5 => 0
  | 6 => 1
  | 4 => 2
  | 1 => 3
  | 2 => 4
  | _ => 5

/-- The marks of a work tick for a channel, in order (R300). -/
def State.marksFor (s : State) (sd : SideId) (w : Nat) (r : Bytes) : List Mark :=
  let all := (s.side sd).marks.filter fun m => m.work == w && m.stall == u8 r 2 && bit (u16 r 12) m.line
  (upto 6).flatMap fun k => (upto 16).flatMap fun line => all.filter fun m => sourceOrder m.source == k && m.line == line

/-- Write one mark into a channel. -/
def State.writeMark (s : State) (sd : SideId) (w c : Nat) (r : Bytes) (m : Mark) : State :=
  let p := s.markPlace r w m.t
  let ns := m.t / 65536
  s.captWrite sd c r 0x02 (beBytes 1 m.line ++ beBytes 1 m.source ++ beBytes 1 m.flags ++ zeros 1 ++ beBytes 4 m.index
    ++ beBytes 8 p.1 ++ beBytes 2 p.2 ++ beBytes 1 (if m.source = 3 then m.t % 65536 / 1024 else 0) ++ zeros 5 ++ beBytes 8 ns)

/-- Threshold events of a side's conditioned tick k, in work tick w (R300 row 4). -/
def State.thresholdMarks (s : State) (sd : SideId) (w k : Nat) : State :=
  (s.side sd).chains.foldl (fun t e =>
    match t.condRecord sd e.1 k, t.modActive.get 0x05 e.1 with
    | some b, some r =>
      let st := u32 b 36
      (upto 4).foldl (fun u i =>
        if bit st (20 + i) then
          let up := bit st (24 + i)
          let run := if up then cmpP (chComp r i) else cmpQ (chComp r i)
          let j := k + 1 - run
          let at0 := tickStart (j - 1) * 65536 + u16 b (40 + 2 * i) * (tickStart j - tickStart (j - 1))
          ((u.linesOf 1 e.1).filter fun l => u8 l.2.2 3 % 4 == i && bit (u8 l.2.2 3) (if up then 2 else 3)).foldl (fun v l =>
            v.addMark sd ⟨1, l.1, l.2.1, e.1 * 4 + i, at0, w, if up then 2 else 0⟩) u
        else u) t
    | _, _ => t) s

/-- A command or bell event on a line, at the start of sample tick w − D, on both sides. -/
def State.tickMark (s : State) (source stall line index flags t : Nat) : State :=
  s.forSides fun sd u => u.addMark sd ⟨source, stall, line, index, t, s.now, flags⟩

/-- A GOOSE change sealed at this bell (R300 row 3): `t65` is its t field in 1/65,536 ns of TAI. -/
def State.gooseMark (s : State) (sub : Nat) (t65 : Nat) : State :=
  let late := decide (tickStart s.now * 65536 < t65) || decide (t65 + (tickStart s.now - tickStart (s.now - 4800)) * 65536 < tickStart s.now * 65536)
  let t := if late then tickStart (s.now - s.sealDelay) * 65536 else t65
  (s.linesOf 4 sub).foldl (fun u l => u.tickMark 4 l.1 l.2.1 sub (b2n late) t) s

/-- A field-input edge reported by the image of this work tick (R300 row 5): `ns` is the Arbiter's tag. -/
def State.fieldMark (s : State) (fio : Nat) (rising : Bool) (ns : Nat) : State :=
  let w := max (tickOfNs ns + s.sealDelay) s.now
  ((s.linesOf 2 fio).filter fun l => bit (u8 l.2.2 3) (if rising then 0 else 1)).foldl (fun u l =>
    u.forSides fun sd v => v.addMark sd ⟨2, l.1, l.2.1, fio, ns * 65536, w, if rising then 2 else 0⟩) s

/-! ### Wavefront inputs (R302, R303) -/

/-- EXT_DELAY of an input in 1/64 ns (ps × 64 / 1,000, toward zero). -/
def wfDelay64 (r : Bytes) : Int := Int.tdiv (toSigned 32 (u32 r 4) * 64) 1000

/-- A wavefront edge timed by the TDC of a side. -/
def State.wfEdge (s : State) (sd : SideId) (input : Nat) (rising : Bool) (t64 : Nat) : State :=
  match s.modActive.get 0x0E input with
  | none => s
  | some r =>
    let last := Tbl.find (s.side sd).wfLast input
    let close := match last with
      | some l => decide (l ≤ t64 ∧ (t64 - l) * 10 < 768)
      | none => false
    if close then
      let q := Tbl.getD (s.side sd).wavefront input []
      let q1 := match q.getLast? with
        | some e => q.dropLast ++ [{ e with merged := min (e.merged + 1) 255 }]
        | none => q
      (s.modSide sd fun y => { y with wavefront := Tbl.put y.wavefront input q1 }).tick1 (Rg.wfStatus sd (input - 1)) Fd.wfStatusMerged
    else if bit (u8 r 1) (if rising then 0 else 1) then
      let q := Tbl.getD (s.side sd).wavefront input []
      let s1 := s.modSide sd fun y => { y with wfLast := Tbl.put y.wfLast input t64 }
      if 1024 ≤ q.length then
        let s2 := s1.tick1 (Rg.wfStatus sd (input - 1)) Fd.wfStatusLost
        (s2.captChans.filter fun e => u8 e.2 3 == 3 && u16 e.2 4 == input).foldl (fun t e => t.captOverflow sd 2 e.1 0 e.2) s2
      else
        let at64 := ((t64 : Int) - wfDelay64 r).toNat
        let s2 := s1.modSide sd fun y => { y with wavefront := Tbl.put y.wavefront input (q ++ [⟨at64, rising, 0⟩]) }
        let w := max (tickOfNs (at64 / 64) + s.sealDelay) s.now
        ((s2.linesOf 3 input).filter fun l => bit (u8 l.2.2 3) (if rising then 0 else 1)).foldl (fun t l =>
          t.addMark sd ⟨3, l.1, l.2.1, input, at64 * 1024, w, if rising then 2 else 0⟩) s2
    else s

/-! ### One work tick of a channel (R306, R307, R313) -/

/-- A sample of a capture channel: number, 32-bit pattern, status word, its value in binary64. -/
structure CaptSample where
  num : Nat
  word : Word
  status : Nat
  wide : BitVec 64

/-- The samples of a channel in sample tick k. -/
def State.captSamples (s : State) (sd : SideId) (k : Nat) (r : Bytes) : List CaptSample :=
  match u8 r 3 with
  | 1 =>
    match s.chanPlace (u16 r 4) with
    | some (slot, _, i) =>
      match (s.stream sd slot).sealed_.find? fun t => t.tick == k with
      | some t => t.samples.map fun a =>
          let d := a.entries.getD i ⟨0, 1, 0⟩
          ⟨a.num, d.value, d.status, BitVec.ofNat 64 (fpOfInt fmt64 d.value.toInt)⟩
      | none => []
    | none => []
  | 2 =>
    match s.condRecord sd (u16 r 4) k with
    | some b =>
      let off := match u8 r 6 with
        | 0 => 0
        | 1 => 4
        | 2 => 8
        | 3 => 12
        | 4 => 24
        | _ => 28
      let v : Word := if u8 r 6 = 5 then (cMag ⟨wordAt b 28, wordAt b 32⟩).1 else wordAt b off
      [⟨k, v, u32 b 36, toF64 v⟩]
    | none => []
  | _ => []

def pickWord (conditioned wantMax : Bool) (a b : Word) : Word :=
  if conditioned then (if wantMax then (fMax a b).1 else (fMin a b).1)
  else if wantMax then (if a.toInt < b.toInt then b else a)
  else (if b.toInt < a.toInt then b else a)

/-- A sample enters the block in progress; whole blocks come out (R307). -/
def blockStep (conditioned : Bool) (m : Nat) (acc : Option CaptBlock × List CaptBlock) (x : CaptSample) :
    Option CaptBlock × List CaptBlock :=
  let start : CaptBlock := ⟨x.num, 1, x.wide, f64Mul x.wide x.wide, x.word, x.word, x.status⟩
  let b : Option CaptBlock :=
    if x.num % m = 0 then some start
    else match acc.1 with
      | some b =>
        if x.num = b.first + b.count then
          some { b with count := b.count + 1, sum := f64Add b.sum x.wide, squares := f64Add b.squares (f64Mul x.wide x.wide)
                        lo := pickWord conditioned false b.lo x.word, hi := pickWord conditioned true b.hi x.word
                        status := b.status ||| x.status }
        else none
      | none => none
  match b with
  | some b => if b.count = m then (none, acc.2 ++ [b]) else (some b, acc.2)
  | none => (none, acc.2)

/-- A DATA record. -/
def State.writeData (s : State) (sd : SideId) (c : Nat) (r : Bytes) (red count status first : Nat) (values : Bytes) : State :=
  s.captWrite sd c r 0x01 (beBytes 1 red ++ beBytes 1 count ++ beBytes 1 (b2n (u8 r 3 == 2)) ++ zeros 1 ++ beBytes 4 status
    ++ beBytes 8 first ++ values)

def blocksStatus (l : List CaptBlock) : Nat := l.foldl (fun a b => a ||| b.status) 0

/-- One reduction of the whole blocks of a tick. -/
def State.writeReduction (s : State) (sd : SideId) (c : Nat) (r : Bytes) (red : Nat) (bs : List CaptBlock) : State :=
  match bs with
  | [] => s
  | b0 :: _ =>
    let m := BitVec.ofNat 64 (fpOfInt fmt64 (u16 r 8 : Nat))
    let value (b : CaptBlock) : Bytes :=
      match red with
      | 1 => beBytes 4 (toF32 (f64Div b.sum m)).toNat
      | 2 => beBytes 4 b.lo.toNat ++ beBytes 4 b.hi.toNat
      | _ => beBytes 4 (toF32 (f64Sqrt (f64Div b.squares m))).toNat
    s.writeData sd c r red bs.length (blocksStatus bs) b0.first (bs.flatMap value)

/-- DATA records of a channel in a work tick that seals sample tick k. -/
def State.captData (s : State) (sd : SideId) (k c : Nat) (r : Bytes) : State :=
  let xs := s.captSamples sd k r
  match xs with
  | [] => s
  | x0 :: _ =>
    let conditioned := u8 r 3 == 2
    let red := u8 r 7
    let raw (x : CaptSample) : Bytes :=
      if conditioned then beBytes 4 x.word.toNat ++ beBytes 4 x.status else beBytes 4 x.word.toNat ++ beBytes 2 x.status ++ zeros 2
    let s1 := if bit red 0 then s.writeData sd c r 0 xs.length (xs.foldl (fun a x => a ||| x.status) 0) x0.num (xs.flatMap raw) else s
    if red = 1 then s1
    else
      let b := xs.foldl (blockStep conditioned (u16 r 8)) ((s1.capt sd c).block, [])
      let s2 := s1.putCapt sd c { s1.capt sd c with block := b.1 }
      let s3 := if bit red 1 then s2.writeReduction sd c r 1 b.2 else s2
      let s4 := if bit red 2 then s3.writeReduction sd c r 2 b.2 else s3
      if bit red 3 then s4.writeReduction sd c r 3 b.2 else s4

/-- WAVE records of a channel for the edges queued in this tick. -/
def State.captWave (s : State) (sd : SideId) (c : Nat) (r : Bytes) : State :=
  (Tbl.getD (s.side sd).wavefront (u16 r 4) []).foldl (fun t e =>
    t.captWrite sd c r 0x03 (beBytes 1 (u16 r 4) ++ beBytes 1 (b2n e.rising + 2 * b2n (e.merged != 0)) ++ beBytes 1 e.merged ++ zeros 5
      ++ beBytes 8 (e.t64 / 64) ++ beBytes 1 (e.t64 % 64) ++ zeros 7)) s

/-- The acquisition engine of a side in work tick w: destinations that are late overflow, then every running channel in
turn, then the queues of edges empty. `k` is the sealed sample tick, if any. -/
def State.acquire (s : State) (sd : SideId) (w : Nat) (k : Option Nat) : State :=
  let s := (s.side sd).captWait.foldl (fun (t : State) e => if t.destLate sd e.1 then t.destOverflow sd e.1 else t) s
  let s1 := (s.captChans.filter fun e => s.captState sd e.1 == csRunning).foldl (fun t e =>
    let t1 := if u8 e.2 3 = 3 then t.captWave sd e.1 e.2 else (match k with | some k => t.captData sd k e.1 e.2 | none => t)
    (t1.marksFor sd w e.2).foldl (fun u m => u.writeMark sd w e.1 e.2 m) t1) s
  let s2 := s1.modSide sd fun y => { y with wavefront := [], marks := y.marks.filter fun m => decide (w < m.work) }
  (s2.side sd).captWait.foldl (fun t e => t.drainDest sd e.1 (t.captWaiting sd e.1)) s2

/-! ### Commands (R314) -/

/-- Write a record into the shadow scope of a stall. -/
def setStallRec (s : State) (stall ty idx : Nat) (r : Bytes) : CmdOut := done (s.modifyStallShadow stall fun c => c.putRec ty idx r) []

def cmdAcqSetLine (_ : CmdHdr) (p : Bytes) (s : State) : CmdOut :=
  if lineRangeOk p then setStallRec s (u8 p 0) 0x24 (u8 p 1) p else refuse s .range

def cmdAcqSetChannel (_ : CmdHdr) (p : Bytes) (s : State) : CmdOut :=
  if captRangeOk p then setStallRec s (u8 p 2) 0x25 (u16 p 0) p else refuse s .range

def cmdAcqSetWavefront (_ : CmdHdr) (p : Bytes) (s : State) : CmdOut :=
  if wfRangeOk p then done (s.modifyModShadow fun c => c.putRec 0x0E (u8 p 0) p) [] else refuse s .range

def cmdAcqSetDram (_ : CmdHdr) (p : Bytes) (s : State) : CmdOut :=
  if dramRangeOk p then done (s.modifyModShadow fun c => c.putRec 0x0F (u8 p 0) p) [] else refuse s .range

/-- Waiting starts of a channel: their apply ticks. -/
def State.startsWaiting (s : State) (c : Nat) : List Nat :=
  (s.waiting.filter fun w => w.op == 0x0A04 && decide (u16 w.params 0 ≤ c ∧ c < u16 w.params 0 + u16 w.params 2)).map (·.tick)

/-- ACQ_START. -/
def cmdAcqStart (h : CmdHdr) (p : Bytes) (s : State) : CmdOut :=
  if !okRange (u16 p 0) (u16 p 2) 256 255 then refuse s .range
  else
    let cs := chanSpan p
    if cs.any fun c => (s.captRec c).isNone then refuse s .range
    else
      let _ := h
      let rs := cs.filterMap fun c => (s.captRec c).map fun r => (c, r)
      if rs.any fun e => !(s.startsWaiting e.1).isEmpty || s.serving.all fun sd => s.captState sd e.1 == csRunning then refuse s .state
      else if rs.any fun e => !s.destReady s.speaker e.2 then refuse s .state
      else done (rs.foldl (fun t e => t.serving.foldl (fun u sd => u.captStart sd e.1 e.2) t) s) []

/-- The tick of the next bell: this tick's own until it is sealed. -/
def State.nextBell (s : State) : Nat := if s.open_ then s.now + 1 else s.now

/-- ACQ_STOP; apply tick 0 counts as the next bell (R311). -/
def cmdAcqStop (h : CmdHdr) (p : Bytes) (s : State) : CmdOut :=
  if !okRange (u16 p 0) (u16 p 2) 256 255 then refuse s .range
  else
    let cs := chanSpan p
    let at0 := if h.applyTick = 0 then s.nextBell else h.applyTick.toNat
    if cs.any fun c => (s.startsWaiting c).any fun t => decide (at0 < t) then refuse s .order
    else if cs.any fun c => (s.startsWaiting c).isEmpty && s.serving.all fun sd => s.captState sd c != csRunning then refuse s .notRunning
    else done (cs.foldl (fun t c => match t.captRec c with
      | some r => t.serving.foldl (fun u sd => u.captStop sd c r) t
      | none => t) s) []

/-- The stalls whose line a command names: the one in its header, or with stall 0 there every stall that defines the line. -/
def State.lineStalls (s : State) (stall line : Nat) : List Nat :=
  (if stall = 0 then allStalls else [stall]).filter fun st => (s.lineRec st line).isSome

/-- ACQ_TRIGGER: a mark on every line of the mask. -/
def cmdAcqTrigger (h : CmdHdr) (p : Bytes) (s : State) : CmdOut :=
  let named (l : Nat) := s.lineStalls h.stall.toNat l
  let ls := (upto 16).filter (bit (u16 p 0))
  if ls.any fun l => (named l).isEmpty then refuse s .range
  else done (ls.foldl (fun t l => (named l).foldl (fun u st =>
    u.tickMark 6 st l h.origin.toNat 0 (tickStart (s.now - s.sealDelay) * 65536)) t) s) []

/-- STATE of CAPT_STATE as read: start pending while a start waits (R311). -/
def State.captStateShown (s : State) (sd : SideId) (c : Nat) : Nat :=
  let st := s.captState sd c
  if st = csRunning ∨ (s.startsWaiting c).isEmpty then st else 2

/-- ACQ_CHANNEL_STATUS: CAPT_STATE and CAPT_SEQ of each channel, side A's part first (R499), of as many channels as fit. -/
def cmdAcqChannelStatus (h : CmdHdr) (p : Bytes) (s : State) : CmdOut :=
  if !okRange (u16 p 0) (u16 p 2) 64 255 then refuse s .range
  else done s (bothSides.flatMap fun sd => ((chanSpan p).take ((replyLimit h - 48) / 16)).flatMap fun c =>
    beBytes 4 (s.captStateShown sd c * 2 ^ 29) ++ beBytes 4 (s.regWord (Rg.captSeq sd c)))

/-- Whole records from the front of a list within `n` bytes. -/
def takeWhole (n : Nat) : List Bytes → List Bytes
  | [] => []
  | b :: rest => if b.length ≤ n then b :: takeWhole (n - b.length) rest else []

/-- ACQ_READ_DRAM. -/
def cmdAcqReadDram (h : CmdHdr) (p : Bytes) (s : State) : CmdOut :=
  let n := u8 p 0
  let count := u16 p 1
  if 15 < n ∨ count < 1 ∨ 1008 < count then refuse s .range
  else
    let l := Tbl.getD (s.side h.side).dram n []
    if l.isEmpty then refuse s .state
    else
      let out := takeWhole (min count (replyLimit h - 48)) l
      done (s.modSide h.side fun y => { y with dram := Tbl.put y.dram n (l.drop out.length) }) out.flatten

/-- The capture channels of a range belong to a stall. -/
def ownsCapts : State → Bytes → Nat → Bool := fun s p st =>
  (chanSpan p).all fun c => match s.captRec c with
    | some r => u8 r 2 == st
    | none => true

def specAcqSetLine : CmdSpec := ⟨0x0A00, always .engineer, fun _ => true, lenIs 8, false, ownsFirst, true, cmdAcqSetLine⟩
def specAcqSetChannel : CmdSpec := ⟨0x0A01, always .engineer, fun _ => true, lenIs 24, false, fun _ p st => u8 p 2 == st, true, cmdAcqSetChannel⟩
def specAcqSetWavefront : CmdSpec := ⟨0x0A02, always .engineer, fun _ => true, lenIs 8, true, ownsNone, true, cmdAcqSetWavefront⟩
def specAcqSetDram : CmdSpec := ⟨0x0A03, always .manager, fun _ => true, lenIs 16, true, ownsNone, true, cmdAcqSetDram⟩
def specAcqStart : CmdSpec := ⟨0x0A04, always .operator, fun _ => true, lenIs 4, false, ownsCapts, true, cmdAcqStart⟩
def specAcqStop : CmdSpec := ⟨0x0A05, always .operator, fun _ => true, lenIs 4, false, ownsCapts, true, cmdAcqStop⟩
def specAcqTrigger : CmdSpec := ⟨0x0A06, always .operator, fun _ => true, lenIs 2, false, ownsAny, true, cmdAcqTrigger⟩
def specAcqChannelStatus : CmdSpec := ⟨0x0A07, always .observer, fun _ => false, lenIs 4, false, ownsCapts, false, cmdAcqChannelStatus⟩
def specAcqReadDram : CmdSpec :=
  ⟨0x0A08, always .observer, fun _ => false, lenIs 3, false,
    fun s p st => match s.modActive.get 0x0F (u8 p 0) with | some r => u8 r 8 == st | none => true, true, cmdAcqReadDram⟩

def execAcqSetLine (h : CmdHdr) (p : Bytes) (s : State) : Host.Outcome State Fault Refusal := runCmd specAcqSetLine h p s
def execAcqSetChannel (h : CmdHdr) (p : Bytes) (s : State) : Host.Outcome State Fault Refusal := runCmd specAcqSetChannel h p s
def execAcqSetWavefront (h : CmdHdr) (p : Bytes) (s : State) : Host.Outcome State Fault Refusal := runCmd specAcqSetWavefront h p s
def execAcqSetDram (h : CmdHdr) (p : Bytes) (s : State) : Host.Outcome State Fault Refusal := runCmd specAcqSetDram h p s
def execAcqStart (h : CmdHdr) (p : Bytes) (s : State) : Host.Outcome State Fault Refusal := runCmd specAcqStart h p s
def execAcqStop (h : CmdHdr) (p : Bytes) (s : State) : Host.Outcome State Fault Refusal := runCmd specAcqStop h p s
def execAcqTrigger (h : CmdHdr) (p : Bytes) (s : State) : Host.Outcome State Fault Refusal := runCmd specAcqTrigger h p s
def execAcqChannelStatus (h : CmdHdr) (p : Bytes) (s : State) : Host.Outcome State Fault Refusal := runCmd specAcqChannelStatus h p s
def execAcqReadDram (h : CmdHdr) (p : Bytes) (s : State) : Host.Outcome State Fault Refusal := runCmd specAcqReadDram h p s

/-- WAVEFRONT_EDGE (R302, R303): `t64` is the TDC time at the contacts of X1, in 1/64 ns of TAI. -/
def execWavefrontEdge (side : SideId) (input : Fin 8) (rising : Bool) (t64 : Nat) (s : State) : Host.Outcome State Fault Refusal :=
  .next (s.wfEdge side (input.val + 1) rising t64)

/-- DEST_OVERFLOW (R309): a destination that has kept a record waiting for more than 4 ticks. -/
def execDestOverflow (side : SideId) (dram : Bool) (dest : Fin 64) (s : State) : Host.Outcome State Fault Refusal :=
  let d := if dram then 64 + dest.val % 16 else dest.val
  .next (if s.destLate side d then s.destOverflow side d else s)

end Sys2Proof.Machine
end

