-- ==== Sys2Proof/Machine/Publish.lean ====
section
/-! DEFINITION. Publication (R194 to R215): GOOSE control blocks, derived SV streams, their release at T0, GOOSE
subscriptions, and the publication commands. -/

namespace Sys2Proof.Machine

/-! ### Records -/

/-- The scopes that hold publications, stall by stall (R200, R211). -/
def State.pubBlock (s : State) (ty : Nat) : List (Nat × Nat × Bytes) :=
  allStalls.flatMap fun st => ((s.stallScope st).block ty).map fun e => (st, e.1, e.2)

/-- The GOOSE publication records, ascending by control block. -/
def insertByIndex (e : Nat × Nat × Bytes) : List (Nat × Nat × Bytes) → List (Nat × Nat × Bytes)
  | [] => [e]
  | x :: rest => if e.2.1 ≤ x.2.1 then e :: x :: rest else x :: insertByIndex e rest

def sortByIndex (l : List (Nat × Nat × Bytes)) : List (Nat × Nat × Bytes) := l.foldr insertByIndex []

def State.goosePubRecs (s : State) : List (Nat × Nat × Bytes) := sortByIndex (s.pubBlock 0x22)
def State.svPubRecs (s : State) : List (Nat × Nat × Bytes) := sortByIndex (s.pubBlock 0x23)

def gpFlag (r : Bytes) (i : Nat) : Bool := bit (u16 r 4) i
def gpMembers (r : Bytes) : List Bytes := (upto (u8 r 27)).map fun k => sub r (224 + 8 * k) 8

/-- The ranges of a GOOSE publication record (R200). -/
def goosePubRange (r : Bytes) : Bool :=
  r.length == 224 + 8 * u8 r 27
    && decide (u16 r 0 ≤ 511 ∧ u8 r 2 ≤ 63 ∧ u8 r 3 ≤ 15 ∧ u16 r 4 < 32 ∧ 1 ≤ u16 r 20 ∧ u16 r 20 ≤ 4800
      ∧ 1 ≤ u16 r 22 ∧ u16 r 22 ≤ 10000 ∧ u16 r 24 < 1024 ∧ u8 r 26 ≤ 63 ∧ 1 ≤ u8 r 27 ∧ u8 r 27 ≤ 64)
    && !bit (u16 r 14) 12 && allZero (sub r 28 4) && u8 r 32 != 0
    && (gpMembers r).all fun m => u16 m 0 % 4 == 0 && decide (1 ≤ u8 m 2 ∧ u8 m 2 ≤ 7) && allZero (sub m 3 5)

/-- The ranges of a derived stream record (R211). -/
def svPubRange (r : Bytes) : Bool :=
  r.length == 96 + 8 * u8 r 23
    && decide (u8 r 0 ≤ 63 ∧ u8 r 1 ≤ 62 ∧ u8 r 2 ≤ 15 ∧ u16 r 4 < 16 ∧ u16 r 20 < 1024 ∧ u8 r 22 ≤ 63
      ∧ 1 ≤ u8 r 23 ∧ u8 r 23 ≤ 24 ∧ 1 ≤ u8 r 24 ∧ u8 r 24 ≤ 64)
    && [1, 2, 3, 4, 5, 6, 8].contains (u8 r 3) && !bit (u16 r 14) 12 && allZero (sub r 25 7)
    && allZero (sub r (32 + u8 r 24) (64 - u8 r 24))
    && (upto (u8 r 23)).all fun k =>
        decide (u8 r (96 + 8 * k + 4) ≤ 2) && allZero (sub r (96 + 8 * k + 5) 3)

/-- The ranges of a GOOSE subscription record (R207). -/
def gooseSubRange (r : Bytes) : Bool :=
  r.length == 88 + (u8 r 18 + 7) / 8 * 8
    && decide (u16 r 0 ≤ 2047 ∧ u16 r 2 < 4 ∧ u8 r 16 ≤ 63 ∧ (u8 r 17 ≤ 63 ∨ u8 r 17 = 255) ∧ 1 ≤ u8 r 18 ∧ u8 r 18 ≤ 64)
    && allZero (sub r 19 5) && (upto (u8 r 18)).all (fun k => decide (1 ≤ u8 r (88 + k) ∧ u8 r (88 + k) ≤ 7))
    && allZero (r.drop (88 + u8 r 18))

/-! ### Encoding (R201) -/

/-- Bits [12:0] of a quality word as the content of a BIT STRING: 3 unused bits, then string bit 0 first; validity with
its more significant bit first. -/
def qualityBytes (w : Nat) : Bytes :=
  let string := b2n (bit w 1) * 2 ^ 12 + b2n (bit w 0) * 2 ^ 11
    + listSum ((upto 11).map fun i => b2n (bit w (i + 2)) * 2 ^ (10 - i))
  beBytes 1 3 ++ beBytes 2 (string * 8)

/-- A Dbpos word as the content of a BIT STRING of 2 bits. -/
def dbposBytes (w : Nat) : Bytes := beBytes 1 6 ++ beBytes 1 (w % 4 * 64)

/-- The content of one member; a Timestamp is supplied from the t field. -/
def memberBytes (image : Bytes) (time : Nat) (m : Bytes) : Bytes :=
  let w := u32 image (u16 m 0)
  match u8 m 2 with
  | 1 => beBytes 1 (b2n (w != 0))
  | 5 => qualityBytes w
  | 6 => dbposBytes w
  | 7 => beBytes 8 time
  | _ => beBytes 4 w

/-- The encoding whose change raises stNum: TYPE 7 excepted (R202). -/
def memberCore (image : Bytes) (m : Bytes) : Bytes := if u8 m 2 = 7 then [] else memberBytes image 0 m

/-- The UTC offset in force, in seconds (R292). -/
def State.utcOffset (s : State) : Nat := s.rd Rg.timeUtc Fd.timeUtcOffset

/-- The start of a tick as an IEC 61850 timestamp (R205): UTC seconds, 24-bit fraction, time quality. -/
def State.timestamp (s : State) (st : Nat) : Nat :=
  let ns := tickStart st
  let sec := (ns / 1000000000 - s.utcOffset) % 2 ^ 32
  sec * 2 ^ 32 + ns % 1000000000 * 2 ^ 24 / 1000000000 * 2 ^ 8 + (128 + b2n s.holdover * 32 + 20)

/-- timeAllowedToLive in ms (R204). -/
def talOf (r : Bytes) (interval : Nat) : Nat := max (u16 r 22) (ceilDiv (5 * interval) 12)

/-- The tag slot of a publication, when the side can use it for the stall (R206, R446). -/
def State.pubKey (s : State) (sd : SideId) (stall k : Nat) (auth : Bool) : Option Nat :=
  if auth && s.slotAllows sd k stall [2] 0 then some k else none

/-! ### Building frames -/

/-- The record of block 0x12: PUB_MAC, then the PAIR_SET parameters (R248); factory values without one. -/
def Scope.pubRec (c : Scope) : Bytes := (c.get 0x12 0).getD (beBytes 6 Config.pubMac.toNat ++ zeros 11)

def State.pubMac (s : State) : Nat := u48 s.modActive.pubRec 0

/-- A zero-padded name without its padding. -/
def unpad (b : Bytes) : Bytes := (b.reverse.dropWhile (· == 0)).reverse

/-- A replicated frame takes the next PRP sequence number (R195) and is queued for the next publish tick, unless its
stall's frames are withheld. -/
def State.queuePub (s : State) (sd : SideId) (stall ports : Nat) (mk : Nat → Output) : State :=
  let n := s.rd (Rg.pubSeq sd) Fd.pubSeqNext
  let s1 := s.wr (Rg.pubSeq sd) Fd.pubSeqNext ((n + 1) % 65536)
  if (s.side sd).withheld.contains stall then s1
  else s1.modSide sd fun x => { x with pubQueue := x.pubQueue ++ [⟨stall, ports, mk n⟩] }

/-- The VLAN field of a record, when its TAGGED flag is set. -/
def vlanOf (tagged : Bool) (v : Nat) : Option Nat := if tagged then some v else none

/-- The head of a control block's frames (R194, R200). -/
def State.gooseHead (s : State) (r : Bytes) : PubHead :=
  ⟨u48 r 6, s.pubMac, vlanOf (gpFlag r 4) (u16 r 14), u16 r 12, u32 r 16, unpad (sub r 32 64), unpad (sub r 96 64), unpad (sub r 160 64), 0⟩

/-- The head of a derived stream's frames (R194, R211). -/
def State.svHead (s : State) (r : Bytes) : PubHead :=
  ⟨u48 r 6, s.pubMac, vlanOf (bit (u16 r 4) 3) (u16 r 14), u16 r 12, u32 r 16, sub r 32 (u8 r 24), [], [], 4800⟩

/-- Queue the frame of a control block as it stands; GOOSE_PUB_STATE shows the last frame built. -/
def State.queueGoose (s : State) (sd : SideId) (stall idx : Nat) (r : Bytes) (x : GoosePubSt) : State :=
  let members := (List.zip (gpMembers r) x.enc).map fun e => if u8 e.1 2 = 7 then beBytes 8 x.time else e.2
  (s.putReg (Rg.goosePubState idx) (x.stNum * 2 ^ 32 + x.sqNum)).queuePub sd stall (u16 r 24) fun n =>
    .goose sd (u16 r 24) (.rct n sd) (s.gooseHead r) idx x.stNum x.sqNum (gpFlag r 2) (gpFlag r 1) false (talOf r x.interval)
      (BitVec.ofNat 64 x.time) members (s.pubKey sd stall (u8 r 26) (gpFlag r 3))

def State.putGoosePub (s : State) (sd : SideId) (idx : Nat) (x : Option GoosePubSt) : State :=
  s.modSide sd fun y => { y with goosePubs := Tbl.set y.goosePubs idx x }

/-- One more than a 32-bit counter that wraps to 1 (R202, R203). -/
def wrapUp (n : Nat) : Nat := if n = 4294967295 then 1 else n + 1

/-- A repeat of a control block's frame in the tick's publication (R203). -/
def State.gooseRepeatOf (s : State) (sd : SideId) (stall idx : Nat) (r : Bytes) (x : GoosePubSt) : State :=
  let i := min (2 * x.interval) (u16 r 20)
  let y := { x with sqNum := wrapUp x.sqNum, interval := i, due := x.due + i }
  (s.putGoosePub sd idx (some y)).queueGoose sd stall idx r y

/-- One control block in the Collect phase of work tick w (R202 to R205). DESIGN CHOICE: blocks of two stalls with one INDEX
share what is kept for it (log entry 276). -/
def State.collectGoose (s : State) (sd : SideId) (w : Nat) (e : Nat × Nat × Bytes) : State :=
  let stall := e.1
  let idx := e.2.1
  let r := e.2.2
  match Tbl.find (s.side sd).presented (taskKey stall (u8 r 3)) with
  | none => s.putGoosePub sd idx none
  | some image =>
    if !gpFlag r 0 then s.putGoosePub sd idx none
    else
      let enc := (gpMembers r).map (memberCore image)
      let change (st : Nat) : State :=
        let x : GoosePubSt := ⟨st, 0, enc, s.timestamp (w - s.sealDelay), 1, w + 2⟩
        (s.putGoosePub sd idx (some x)).queueGoose sd stall idx r x
      match Tbl.find (s.side sd).goosePubs idx with
      | none => change 1
      | some x =>
        if x.enc != enc then change (wrapUp x.stNum)
        else if x.due ≤ w + 1 then s.gooseRepeatOf sd stall idx r x
        else s

/-- A value as a count (R212): the count and whether it was saturated or not a number. -/
def svCount (kind v : Nat) : Int × Bool :=
  let c := match kind with
    | 0 => 1000
    | 1 => 100
    | _ => 1
  let prod := (fpMul fmt32 v (fpOfInt fmt32 c)).1
  match fpUnpack fmt32 prod with
  | .nan _ => (0, true)
  | .inf neg => (if neg then -2147483647 else 2147483647, true)
  | .fin neg m e =>
    let n := fpToIntExact true neg m e
    if n > 2147483647 then (2147483647, true) else if n < -2147483647 then (-2147483647, true) else (n, false)

/-- The ASDU of a sample tick: smpCnt, smpSynch, then value and quality of every channel (R211, R212); smpRate and confRev
stand in the head of its frame. -/
def State.svAsdu (s : State) (st : Nat) (image r : Bytes) : Bytes :=
  beBytes 2 (tickIndex st) ++ beBytes 1 (if s.holdover then 1 else 2) ++
    (upto (u8 r 23)).flatMap fun k =>
      let e := sub r (96 + 8 * k) 8
      let v := svCount (u8 e 4) (u32 image (u16 e 0))
      let q := u32 image (u16 e 2) % 2 ^ 13
      beBytes 4 (ofSigned 32 v.1) ++ beBytes 4 (if v.2 then q / 8 * 8 + 4 + 1 else q)

/-- One derived stream in the Collect phase of work tick w (R211). A frame needs the ASDU of every sample tick in it. -/
def State.collectSv (s : State) (sd : SideId) (w : Nat) (e : Nat × Nat × Bytes) : State :=
  let stall := e.1
  let idx := e.2.1
  let r := e.2.2
  let put (t : State) (l : Option (List (Nat × Bytes))) : State := t.modSide sd fun y => { y with svAsdus := Tbl.set y.svAsdus idx l }
  match Tbl.find (s.side sd).presented (taskKey stall (u8 r 2)) with
  | none => put s none
  | some image =>
    if !bit (u16 r 4) 0 then put s none
    else
      let st := w - s.sealDelay
      let n := u8 r 3
      let l := (Tbl.getD (s.side sd).svAsdus idx []).filter (fun a => decide (st < a.1 + n ∧ a.1 < st)) ++ [(st, s.svAsdu st image r)]
      if (tickIndex st + 1) % n = 0 then
        let t := put s (some [])
        if l.length < n then t
        else t.queuePub sd stall (u16 r 20) fun q =>
          .svOut sd (u16 r 20) (.rct q sd) (s.svHead r) idx (bit (u16 r 4) 1) (l.map (·.2)) (s.pubKey sd stall (u8 r 22) (bit (u16 r 4) 2))
      else put s (some l)

/-- The replicated frames of a side's Collect phase (R195): GOOSE ascending, then derived streams ascending. -/
def State.collectPublications (s : State) (sd : SideId) (w : Nat) : State :=
  s.svPubRecs.foldl (fun t e => t.collectSv sd w e) (s.goosePubRecs.foldl (fun t e => t.collectGoose sd w e) s)

/-! ### Release (R196, R198) -/

/-- The ports of a mask whose link is up. -/
def State.upPorts (s : State) (sd : SideId) (mask : Nat) : Nat :=
  listSum ((upto 16).map fun i => if bit mask i && s.flag (Rg.portStatus sd i) Fd.portStatusLink then 2 ^ i else 0)

/-- How many bits of a mask are set. -/
def popCount (n mask : Nat) : Nat := ((upto n).filter fun i => bit mask i).length

/-- A replicated frame as it leaves ports of a side: with that side's LAN identifier in the trailer, or on the ring the HSR
tag with the same number and the side's path (R194). -/
def Output.leave (o : Output) (sd : SideId) (ports : Nat) (ring : Bool) : Output :=
  let on (r : Redundancy) : Redundancy := match r with
    | .rct n _ => if ring then .hsr n sd else .rct n sd
    | r => r
  match o with
  | .goose _ _ r h i a b c d e f g m k => .goose sd ports (on r) h i a b c d e f g m k
  | .svOut _ _ r h i a l k => .svOut sd ports (on r) h i a l k
  | .telegram _ _ b => .telegram sd ports b
  | o => o

/-- PUB_LOAD (R195): enabled control blocks and streams. -/
def State.pubLoadWord (s : State) : Nat :=
  let n := (s.goosePubRecs.filter fun e => gpFlag e.2.2 0).length + (s.svPubRecs.filter fun e => bit (u16 e.2.2 4) 0).length
  at_ n 16 + (if n = 0 then 0xFFFF else min 0xFFFF (65536 / n))

/-! ### Subscriptions (R207 to R210) -/

def State.gooseSubRecs (s : State) : List (Nat × Bytes) := s.modActive.block 0x08

/-- The sealed state of a subscription: nothing sealed yet is NONE. -/
def State.gooseSub (s : State) (j : Nat) : Option GooseSub := Tbl.find s.gooseSubs j

def State.gooseAccOf (s : State) (sd : SideId) (j : Nat) : Option GooseAcc := Tbl.find (s.side sd).gooseAcc j

/-- What check 9 finds (R209). -/
inductive GooseSeq where
  | change
  | again
  | bad
  deriving DecidableEq, Repr

/-- The sequence rule of R209. -/
def State.gooseSeq (s : State) (sd : SideId) (j st sq : Nat) : GooseSeq :=
  match s.gooseAccOf sd j with
  | none => .change
  | some a =>
    let expired := match s.gooseSub j with | some x => x.expired | none => false
    if expired && !a.fresh then .change
    else
      let d := (st + 4294967296 - a.stNum) % 4294967296
      if 1 ≤ d ∧ d ≤ 2147483647 then .change
      else if d = 0 ∧ sq ≠ a.sqNum then .again
      else .bad

/-- The subscription a frame is for, by destination, APPID and gocbRef. -/
def State.gooseTarget (s : State) (f : GooseFrame) : Option (Nat × Bytes) :=
  s.gooseSubRecs.find? fun e => u48 e.2 4 == f.dst.toNat && u16 e.2 10 == f.appId.toNat && sub e.2 24 64 == fit 64 f.gocbRef

/-- Checks 5 to 8 of R208: the index of the first that fails. -/
def State.gooseCheck (s : State) (sd : SideId) (r : Bytes) (f : GooseFrame) : Option Nat :=
  if f.sim != bit (u16 r 2) 0 then some 4
  else if bit (u16 r 2) 1 && !(match f.tag with
      | some (k, good) => good && (k.toNat == u8 r 16 || (u8 r 17 != 255 && k.toNat == u8 r 17)) && s.slotAllows sd k.toNat 0 [2] 1
      | none => false) then some 5
  else if f.confRev.toNat != u32 r 12 || f.ndsCom then some 6
  else if f.members.map (·.ty.toNat) != (upto (u8 r 18)).map fun k => u8 r (88 + k) then some 7
  else none

/-- Accept a frame (R209). -/
def State.gooseAccept (s : State) (sd : SideId) (j ns : Nat) (f : GooseFrame) (isChange : Bool) : State :=
  let old := s.gooseAccOf sd j
  let x : GooseAcc :=
    { stNum := f.stNum.toNat, sqNum := f.sqNum.toNat
      frames := (match old with | some a => a.frames | none => []) ++ [(f.stNum.toNat, f.sqNum.toNat)]
      ingress := ns, talMs := f.talMs, test := f.test, sim := f.sim
      time := if isChange then f.t else (match old with | some a => a.time | none => f.t)
      values := if isChange then f.members else (match old with | some a => a.values | none => f.members)
      fresh := isChange || (match old with | some a => a.fresh | none => false) }
  let s1 := s.modSide sd fun y => { y with gooseAcc := Tbl.put y.gooseAcc j x }
  match f.redundancy with
  | some n => s1.dupRecord sd f.src.toNat n.toNat
  | none => s1

/-- GOOSE_FRAME_CHECK: the nine checks in order (R208). A frame whose destination and APPID no subscription names is
not a subscribed frame. -/
def State.gooseReceive (s : State) (sd : SideId) (f : GooseFrame) (ns : Nat) : State :=
  let discard (i : Nat) : State := s.tick1 (Rg.gooseDiscard sd i) Fd.gooseDiscardCount
  if !f.etherOk || decide (1522 < f.length) then discard 0
  else if (match f.redundancy with | some n => s.dupSeen sd f.src.toNat n.toNat | none => false) then discard 1
  else if !f.wellFormed then discard 2
  else
    match s.gooseTarget f with
    | none => if s.gooseSubRecs.any fun e => u48 e.2 4 == f.dst.toNat && u16 e.2 10 == f.appId.toNat then discard 3 else s
    | some (j, r) =>
      match s.gooseCheck sd r f with
      | some i => discard i
      | none =>
        match s.gooseSeq sd j f.stNum.toNat f.sqNum.toNat with
        | .change => s.gooseAccept sd j ns f true
        | .again => s.gooseAccept sd j ns f false
        | .bad => discard 8

/-- Whether the frames a side has accepted have outlived their time allowed to live at T0 of tick w (R209). -/
def GooseAcc.ranOut (a : GooseAcc) (w : Nat) : Bool := decide (a.ingress + a.talMs * 1000000 < tickStart w)

/-- The bell entry due for a subscription at the seal of tick w: index, flags, stNum, sqNum (R41, R209). -/
def State.gooseEntry (s : State) (sd : SideId) (w j : Nat) : Option (Nat × Nat × Nat × Nat) :=
  match s.gooseAccOf sd j with
  | none => none
  | some a =>
    let old := s.gooseSub j
    let gone := a.ranOut w
    let flags := b2n gone + b2n a.test * 2 + b2n a.sim * 4
    match old with
    | none => if gone then some (j, flags, 0, 0) else some (j, flags, a.stNum, a.sqNum)
    | some x =>
      if a.fresh || gone != x.expired || a.test != x.test || a.sim != x.sim then
        some (if gone then (j, flags, x.stNum, x.sqNum) else (j, flags, a.stNum, a.sqNum))
      else none

/-- All entries due, ascending. -/
def State.gooseEntries (s : State) (sd : SideId) (w : Nat) : List (Nat × Nat × Nat × Nat) :=
  (Tbl.keys (s.side sd).gooseAcc).filterMap (s.gooseEntry sd w)

/-- The bytes of an entry in the bell. -/
def gooseEntryBytes (e : Nat × Nat × Nat × Nat) : Bytes := beBytes 2 e.1 ++ beBytes 2 e.2.1 ++ beBytes 4 e.2.2.1 ++ beBytes 4 e.2.2.2

/-- An entry is sealed (R209, R210): the values come from the frame it names. -/
def State.sealGoose (s : State) (sd : SideId) (w : Nat) (e : Nat × Nat × Nat × Nat) : State :=
  let j := e.1
  let gone := bit e.2.1 0
  let old := s.gooseSub j
  match s.gooseAccOf sd j with
  | none => s
  | some a =>
    let isNew := !gone && (a.fresh || old.isNone)
    let x : GooseSub :=
      match old with
      | some o =>
        { stNum := e.2.2.1, sqNum := e.2.2.2, expired := gone, test := bit e.2.1 1, sim := bit e.2.1 2
          bell := if isNew then w else o.bell, values := if isNew then a.values else o.values }
      | none => ⟨e.2.2.1, e.2.2.2, gone, bit e.2.1 1, bit e.2.1 2, w, if gone then [] else a.values⟩
    { s with gooseSubs := Tbl.put s.gooseSubs j x }

/-- A side is done with what a sealed entry names: later frames stay for a later bell. -/
def State.settleGoose (s : State) (sd : SideId) (e : Nat × Nat × Nat × Nat) : State :=
  let gone := bit e.2.1 0
  s.modSide sd fun y => { y with gooseAcc := Tbl.upd y.gooseAcc e.1 fun (b : GooseAcc) =>
    { b with fresh := !gone && b.fresh && !(b.stNum == e.2.2.1 && b.sqNum == e.2.2.2)
             frames := if gone then b.frames.drop (b.frames.length - 1) else b.frames.dropWhile fun f => f != (e.2.2.1, e.2.2.2) } }

/-- Whether a side holds the frame an entry names (R51). -/
def State.holdsGoose (s : State) (sd : SideId) (e : Nat × Nat × Nat × Nat) : Bool :=
  bit e.2.1 0 || (match s.gooseAccOf sd e.1 with
    | some a => a.frames.contains (e.2.2.1, e.2.2.2) || (a.stNum == e.2.2.1 && a.sqNum == e.2.2.2)
    | none => false)

/-- GOOSE_SUB_EXPIRY: a subscription whose time has run out at this tick's seal becomes EXPIRED (R209). -/
def State.gooseExpire (s : State) (j : Nat) : State :=
  match s.gooseEntry s.speaker s.now j with
  | some e => if bit e.2.1 0 then (s.sealGoose s.speaker s.now e).forSides fun sd t => t.settleGoose sd e else s
  | none => s

/-- GOOSE_SUB_STATE of a subscription. -/
def State.gooseSubWord (s : State) (j : Nat) : Nat :=
  match s.gooseSub j with
  | some x => x.stNum * 2 ^ 32 + b2n x.sim * 4 + b2n x.test * 2 + b2n x.expired
  | none => 8

/-- GOOSE_PUB_STATE of a control block: stNum and sqNum of the last frame built, also after the block sends no more. -/
def State.goosePubWord (s : State) (i : Nat) : Nat := s.regWord (Rg.goosePubState i)

/-- The word of a received member (R210), by the reverse of R201: string bit 0 of a BIT STRING is the most significant bit of
its first content octet. -/
def wireWord (ty v : Nat) : Nat :=
  let string (n k : Nat) : Bool := v.testBit (n - 1 - k)
  match ty with
  | 1 => b2n (v != 0)
  | 5 => b2n (string 16 1) + 2 * b2n (string 16 0) + listSum ((upto 11).map fun k => b2n (string 16 (k + 2)) * 2 ^ (k + 2))
  | 6 => b2n (string 8 1) + 2 * b2n (string 8 0)
  | _ => v % 2 ^ 32

/-- A KIND 3 input entry in work tick w (R210). -/
def State.gooseInput (s : State) (w j : Nat) : Bytes :=
  let r := (s.modActive.get 0x08 j).getD []
  let types := (upto (u8 r 18)).map fun k => u8 r (88 + k)
  let value (i ty : Nat) (vs : List GooseVal) : Bytes :=
    let v := (vs.getD i ⟨0, 0⟩).val.toNat
    if ty = 7 then beBytes 8 v else beBytes 4 (wireWord ty v)
  let values (vs : List GooseVal) : Bytes := (upto types.length).flatMap fun i => value i (types.getD i 0) vs
  match s.gooseSub j with
  | none => beBytes 4 0 ++ beBytes 4 0 ++ beBytes 4 8 ++ beBytes 4 0 ++ values []
  | some x =>
    beBytes 4 x.stNum ++ beBytes 4 x.sqNum ++ beBytes 4 (b2n x.expired + b2n x.test * 2 + b2n x.sim * 4)
      ++ beBytes 4 (min (w - x.bell) 65535) ++ values x.values

/-- A castling has replaced the module scope or a stall scope: publications and subscriptions whose record has changed
start afresh (R202, R209). -/
def State.castledPublications (s : State) (old new : Scope) : State :=
  let changed (ty k : Nat) : Bool := old.get ty k != new.get ty k
  let keys (ty : Nat) : List Nat := ((old.indices ty ++ new.indices ty).eraseDups).filter (changed ty)
  let s1 := (keys 0x08).foldl (fun t k =>
    ({ t with gooseSubs := Tbl.del t.gooseSubs k }).forSides fun sd u => u.modSide sd fun y => { y with gooseAcc := Tbl.del y.gooseAcc k }) s
  let s2 := (keys 0x22).foldl (fun t k => t.forSides fun sd u => u.putGoosePub sd k none) s1
  (keys 0x23).foldl (fun t k => t.forSides fun sd u => u.modSide sd fun y => { y with svAsdus := Tbl.del y.svAsdus k }) s2

/-! ### Commands (R215) -/

/-- The scope and record of a publication by its index: in the stall of the header, or in any for stall 0. -/
def State.findPub (s : State) (set ty stall idx : Nat) : Option Bytes :=
  let sc (st : Nat) : Scope := if set = 0 then s.stallScope st else s.stallShadowScope st
  ((if stall = 0 then allStalls else [stall]).findSome? fun st => (sc st).get ty idx)

def cmdGoosePubSet (_ : CmdHdr) (p : Bytes) (s : State) : CmdOut :=
  if !goosePubRange p then refuse s .range
  else done (s.modifyStallShadow (u8 p 2) fun c => c.putRec 0x22 (u16 p 0) p) []

def cmdGoosePubRead (h : CmdHdr) (p : Bytes) (s : State) : CmdOut :=
  if 511 < u16 p 0 ∨ 1 < u8 p 2 then refuse s .range
  else match s.findPub (u8 p 2) 0x22 h.stall.toNat (u16 p 0) with
    | some r => done s r
    | none => refuse s .state

def cmdGooseSubSet (_ : CmdHdr) (p : Bytes) (s : State) : CmdOut :=
  if !gooseSubRange p then refuse s .range
  else if (s.modShadow.block 0x08).any fun e => e.1 != u16 p 0 && sub e.2 4 8 == sub p 4 8 && sub e.2 24 64 == sub p 24 64 then
    refuse s .conflict
  else done (s.modifyModShadow fun c => c.putRec 0x08 (u16 p 0) p) []

def cmdGooseSubRead (_ : CmdHdr) (p : Bytes) (s : State) : CmdOut := readRecord s (decide (u16 p 0 ≤ 2047)) (u8 p 2) 0x08 (u16 p 0)

def cmdGooseStatus (h : CmdHdr) (p : Bytes) (s : State) : CmdOut :=
  let kind := u8 p 0
  if 1 < kind ∨ !okRange (u16 p 1) (u16 p 3) 64 (if kind = 0 then 511 else 2047) then refuse s .range
  else done s ((fitItems h 0 ((upto (u16 p 3)).map fun k =>
    beBytes 8 (if kind = 0 then s.goosePubWord (u16 p 1 + k) else s.gooseSubWord (u16 p 1 + k)))).flatMap id)

def cmdSvpubSet (_ : CmdHdr) (p : Bytes) (s : State) : CmdOut :=
  if !svPubRange p then refuse s .range
  else done (s.modifyStallShadow (u8 p 1) fun c => c.putRec 0x23 (u8 p 0) p) []

def cmdSvpubRead (h : CmdHdr) (p : Bytes) (s : State) : CmdOut :=
  if 63 < u8 p 0 ∨ 1 < u8 p 1 then refuse s .range
  else match s.findPub (u8 p 1) 0x23 h.stall.toNat (u8 p 0) with
    | some r => done s r
    | none => refuse s .state

def cmdPubSetMac (_ : CmdHdr) (p : Bytes) (s : State) : CmdOut :=
  if bit (u8 p 0) 0 then refuse s .range
  else done (s.modifyModShadow fun c => c.putRec 0x12 0 (p ++ c.pubRec.drop 6)) []

/-- The stall named by a publication's index. -/
def ownsPub (ty : Nat) (idx : Bytes → Nat) : State → Bytes → Nat → Bool := fun s p st =>
  ((s.stallScope st).get ty (idx p)).isSome || ((s.stallShadowScope st).get ty (idx p)).isSome

/-- The control blocks or subscriptions of a GOOSE_STATUS belong to a stall, or may be read by it. -/
def ownsGooseSpan : State → Bytes → Nat → Bool := fun s p st =>
  (upto (u16 p 3)).all fun k =>
    if u8 p 0 = 0 then ((s.stallScope st).get 0x22 (u16 p 1 + k)).isSome else s.mayReadGoose st (u16 p 1 + k)

def specGoosePubSet : CmdSpec :=
  ⟨0x0600, always .engineer, fun _ => true, fun p => decide (224 ≤ p.length) && p.length == 224 + 8 * u8 p 27, false,
    fun _ p st => u8 p 2 == st, true, cmdGoosePubSet⟩
def specGoosePubRead : CmdSpec :=
  ⟨0x0601, always .observer, fun _ => false, lenIs 3, false, ownsPub 0x22 fun p => u16 p 0, false, cmdGoosePubRead⟩
def specGooseSubSet : CmdSpec :=
  ⟨0x0602, always .engineer, fun _ => true, fun p => decide (88 ≤ p.length) && p.length == 88 + (u8 p 18 + 7) / 8 * 8, false,
    ownsNone, true, cmdGooseSubSet⟩
def specGooseSubRead : CmdSpec :=
  ⟨0x0603, always .observer, fun _ => false, lenIs 3, false, fun s p st => s.mayReadGoose st (u16 p 0), false, cmdGooseSubRead⟩
def specGooseStatus : CmdSpec := ⟨0x0604, always .observer, fun _ => false, lenIs 5, false, ownsGooseSpan, false, cmdGooseStatus⟩
def specSvpubSet : CmdSpec :=
  ⟨0x0605, always .engineer, fun _ => true, fun p => decide (96 ≤ p.length) && p.length == 96 + 8 * u8 p 23, false,
    fun _ p st => u8 p 1 == st, true, cmdSvpubSet⟩
def specSvpubRead : CmdSpec :=
  ⟨0x0606, always .observer, fun _ => false, lenIs 2, false, ownsPub 0x23 fun p => u8 p 0, false, cmdSvpubRead⟩
def specPubSetMac : CmdSpec := ⟨0x0607, always .manager, fun _ => true, lenIs 6, true, ownsNone, true, cmdPubSetMac⟩

/-! ### Rows -/

def execGoosePubSet (h : CmdHdr) (p : Bytes) (s : State) : Host.Outcome State Fault Refusal := runCmd specGoosePubSet h p s
def execGoosePubRead (h : CmdHdr) (p : Bytes) (s : State) : Host.Outcome State Fault Refusal := runCmd specGoosePubRead h p s
def execGooseSubSet (h : CmdHdr) (p : Bytes) (s : State) : Host.Outcome State Fault Refusal := runCmd specGooseSubSet h p s
def execGooseSubRead (h : CmdHdr) (p : Bytes) (s : State) : Host.Outcome State Fault Refusal := runCmd specGooseSubRead h p s
def execGooseStatus (h : CmdHdr) (p : Bytes) (s : State) : Host.Outcome State Fault Refusal := runCmd specGooseStatus h p s
def execSvpubSet (h : CmdHdr) (p : Bytes) (s : State) : Host.Outcome State Fault Refusal := runCmd specSvpubSet h p s
def execSvpubRead (h : CmdHdr) (p : Bytes) (s : State) : Host.Outcome State Fault Refusal := runCmd specSvpubRead h p s
def execPubSetMac (h : CmdHdr) (p : Bytes) (s : State) : Host.Outcome State Fault Refusal := runCmd specPubSetMac h p s

/-- A repeat falls due: it is set for the publish tick after this one, in whose place among the frames (R195) the Collect phase
sends it, unless a change in that tick replaces it (R203). Before its tick nothing is due. -/
def State.gooseDue (s : State) (sd : SideId) (idx : Nat) : State :=
  match Tbl.find (s.side sd).goosePubs idx with
  | some x => if x.due ≤ s.now + 1 then s.putGoosePub sd idx (some { x with due := s.now + 1 }) else s
  | none => s

def execGooseRepeat (sd : SideId) (i : Fin 512) (s : State) : Host.Outcome State Fault Refusal := .next (s.gooseDue sd i.val)

def execGooseSubExpiry (index : Fin 2048) (s : State) : Host.Outcome State Fault Refusal := .next (s.gooseExpire index.val)

def execGooseFrameCheck (sd : SideId) (f : GooseFrame) (ns : Nat) (s : State) : Host.Outcome State Fault Refusal :=
  .next (s.gooseReceive sd f ns)

end Sys2Proof.Machine
end

