-- ==== Sys2Proof/Machine/Field.lean ====
section
/-! DEFINITION. Field channels at the Arbiter and the hard-wired channel of the safety functions (R335 to R352): input
levels, output drive, diagnostics, permits, latches, resets, the field-input image and a task's view of it. -/

namespace Sys2Proof.Machine

/-! ### Configuration -/

/-- The ranges of a channel record (R335). -/
def fioRange (r : Bytes) : Bool :=
  r.length == 16 && decide (1 ≤ u8 r 0 ∧ u8 r 0 ≤ 32 ∧ u8 r 1 ≤ 3 ∧ u8 r 2 < 4 ∧ u8 r 6 ≤ 15) && allZero (sub r 3 1)
    && allZero (sub r 7 1) && allZero (sub r 12 4) && u32 r 8 % 4 == 0
    && (match u8 r 1 with
      | 0 => decide (u16 r 4 ≤ 200) && u8 r 2 == 0
      | 3 => decide (u16 r 4 ≤ 200) && !bit (u8 r 2) 0
      | _ => decide (1 ≤ u16 r 4 ∧ u16 r 4 ≤ 200) && !bit (u8 r 2) 1)

/-- The record of channel n (1 to 32) from the safety table or the I/O modes block. -/
def fioRecIn (table : Bytes) (c : Scope) (n : Nat) : Option Bytes :=
  match (if safePresent table then (safeChannels table).find? fun r => u8 r 0 == n else none) with
  | some r => some r
  | none => c.get 0x0D n

def State.fioRec (s : State) (n : Nat) : Bytes := (fioRecIn s.safeActive s.modActive n).getD (beBytes 1 n ++ zeros 15)
def State.fioMode (s : State) (n : Nat) : Nat := u8 (s.fioRec n) 1
def State.isOutput (s : State) (n : Nat) : Bool := s.fioMode n == 3

def allChans : List Nat := (upto 32).map (· + 1)

/-! ### Channels -/

def State.ch (s : State) (n : Nat) : ArbCh := Tbl.getD s.arb.chans n ArbCh.idle
def State.putCh (s : State) (n : Nat) (c : ArbCh) : State := { s with arb := { s.arb with chans := Tbl.put s.arb.chans n c } }
def State.inst (s : State) (i : Nat) : ArbInst := Tbl.getD s.arb.insts i ArbInst.fresh
def State.putInst (s : State) (i : Nat) (x : ArbInst) : State := { s with arb := { s.arb with insts := Tbl.put s.arb.insts i x } }

/-- The field supply: 0 MISSING, 1 LOW, 2 OK (R342). -/
def State.supply (s : State) : Nat := s.rd Rg.fioSupply Fd.fioSupplyState

/-- What an input reads: 0 while the supply is MISSING, and 0 for an unused channel (R335, R342). -/
def State.reads (s : State) (n : Nat) : Bool := (s.ch n).level && s.supply != 0 && (s.fioMode n == 1 || s.fioMode n == 2)

/-- LEVEL of the image (R339). -/
def State.chLevel (s : State) (n : Nat) : Bool :=
  if s.isOutput n then (s.ch n).on && !(s.ch n).short && !(s.ch n).retrying else s.reads n

/-- BAD of a channel (R340). -/
def State.chBad (s : State) (n : Nat) : Bool :=
  (s.ch n).broken || (s.isOutput n && ((s.ch n).short || (s.ch n).retrying)) || s.supply == 0

/-- A mask with bit n − 1 for every channel that satisfies a test. -/
def chanMask (p : Nat → Bool) : Nat := listSum (allChans.map fun n => if p n then 2 ^ (n - 1) else 0)

/-- A fault report of a channel stays in FIO_FAULT. -/
def State.fioFaulted (s : State) (n : Nat) : State :=
  s.putReg Rg.fioFault (s.regWord Rg.fioFault ||| 2 ^ (n - 1))

/-! ### The hard-wired channel (R346 to R352) -/

/-- The enabled instances, by number. -/
def State.instRecs (s : State) : List (Nat × Bytes) :=
  if safePresent s.safeActive then ((safeInstances s.safeActive).filter fun r => bit (u8 r 2) 0).map fun r => (u8 r 0, r) else []

def sfFunc (r : Bytes) : Nat := u8 r 1
def sfOutput (r : Bytes) : Nat := u8 r 3
/-- The channels of an instance's pair: FIO2k + 1 and FIO2k + 2. -/
def sfPair (r : Bytes) : Nat × Nat := (2 * u8 r 4 + 1, 2 * u8 r 4 + 2)

/-- The pair is in its healthy position: both 1 (SF2), or 1 and 0 (SF3) (R347). -/
def State.pairHealthy (s : State) (r : Bytes) : Bool :=
  let p := sfPair r
  if sfFunc r = 2 then s.reads p.1 && s.reads p.2 else s.reads p.1 && !s.reads p.2

/-- The pair is in its safe position. -/
def State.pairSafe (s : State) (r : Bytes) : Bool :=
  let p := sfPair r
  if sfFunc r = 2 then !s.reads p.1 && !s.reads p.2 else !s.reads p.1 && s.reads p.2

/-- The feedback is at the level expected for the output's actual state (R349). -/
def State.feedbackOk (s : State) (r : Bytes) (outOn : Bool) : Bool :=
  s.reads (u8 r 8) == (outOn != bit (u8 r 9) 0)

/-- The terms of an SF1 instance hold (R347). -/
def State.termsOk (s : State) (r : Bytes) : Bool :=
  (upto (u8 r 13)).all fun k =>
    let t := u8 r (24 + k)
    s.chLevel (t % 64) == bit t 7 && !s.chBad (t % 64)

/-- The hard-wired permit of an instance, LOCK_INST apart (R347). -/
def State.hwPermitOwn (s : State) (i : Nat) (r : Bytes) : Bool :=
  s.supply != 0 &&
    match sfFunc r with
    | 1 => s.termsOk r && !(s.inst i).latched
    | 2 => s.pairHealthy r && !(s.inst i).latched
    | 3 => s.pairHealthy r && !(s.inst i).latched
    | _ => !(s.inst i).latched

/-- Whether the LOCK_INST of an SF1 instance permits. -/
def State.lockPermits (s : State) (r : Bytes) : Bool :=
  sfFunc r != 1 || u8 r 12 == 0xFF ||
    (match s.instRecs.find? fun e => e.1 == u8 r 12 with
      | some e => s.hwPermitOwn e.1 e.2
      | none => false)

/-- The hard-wired permit of an instance. -/
def State.hwPermit (s : State) (i : Nat) (r : Bytes) : Bool := s.hwPermitOwn i r && s.lockPermits r

/-- CAUSE of an instance (R347 to R352): a latch keeps its cause; otherwise why it does not permit. -/
def State.sfCause (s : State) (i : Nat) (r : Bytes) : Nat :=
  if (s.inst i).latched then (s.inst i).cause
  else if s.supply = 0 then 6
  else if !s.hwPermitOwn i r then 1
  else if !s.lockPermits r then 7
  else 0

/-- Latch an instance; the first cause stays. -/
def State.latch (s : State) (i cause : Nat) : State :=
  if (s.inst i).latched then s else s.putInst i { s.inst i with latched := true, cause := cause }

/-- RESET_READY (R351). -/
def State.resetReady (s : State) (i : Nat) (r : Bytes) : Bool :=
  (s.inst i).latched && s.supply != 0 && (u8 r 5 == 0 || !s.chBad (u8 r 5)) &&
    match sfFunc r with
    | 2 | 3 => s.pairHealthy r && !s.chBad (sfPair r).1 && !s.chBad (sfPair r).2 && (!(s.inst i).disc || (s.inst i).safeSeen)
    | 4 => s.feedbackOk r false && !s.chBad (u8 r 8)
    | _ => s.termsOk r

/-- A reset that RESET_READY allows (R351). -/
def State.resetInst (s : State) (i : Nat) (r : Bytes) : State :=
  if s.resetReady i r then
    let s1 := s.putInst i { s.inst i with latched := false, cause := 0, disc := false, safeSeen := false }
    let p := sfPair r
    let clear (t : State) (n : Nat) : State := t.putCh n { t.ch n with discrepant := false }
    if sfFunc r = 4 then s1.putCh (u8 r 8) { s1.ch (u8 r 8) with feedback := false }
    else clear (clear s1 p.1) p.2
  else s

/-- Both permits of every instance that serves a safety output, and no short (R346). -/
def State.safeDrive (s : State) (n : Nat) : Bool :=
  let serving := s.instRecs.filter fun e => sfOutput e.2 == n
  !serving.isEmpty && serving.all fun e => s.hwPermit e.1 e.2 && (s.inst e.1).proc

/-- Whether an output is to be switched on. -/
def State.wantsOn (s : State) (n : Nat) : Bool :=
  (if s.isSafeChannel n then s.safeDrive n else (s.ch n).cmd) && s.isOutput n && s.supply != 0 && !s.arb.noImage

/-- The drive of one output (R343 to R346): a command off cancels pending retries and clears the count. -/
def State.driveCh (s : State) (n : Nat) : State :=
  let c := s.ch n
  if s.wantsOn n then
    let on := !c.short && !c.retrying
    s.putCh n { c with on := on, openLoad := c.openLoad && on }
  else if c.on || c.retrying || c.retries != 0 || c.openLoad then
    s.putCh n { c with on := false, retrying := false, retries := 0, openLoad := false }
  else s

/-- The outputs that are on, as a mask. -/
def State.onMask (s : State) : Nat := chanMask fun n => (s.ch n).on

/-- The field supply, the inputs, a permit or an output has changed: demand latches, safe positions seen, output drive (R346
to R348). What the outputs show leaves the module when it differs from what they showed. -/
def State.settleFrom (s : State) (shown : Nat) : State :=
  let s1 := s.instRecs.foldl (fun t e =>
    let t1 := if sfFunc e.2 = 2 && !t.pairHealthy e.2 then t.latch e.1 (if t.supply = 0 then 6 else 1) else t
    if (t1.inst e.1).disc && t1.pairSafe e.2 then t1.putInst e.1 { t1.inst e.1 with safeSeen := true } else t1) s
  let s2 := allChans.foldl (fun t n => t.driveCh n) s1
  if s2.onMask = shown then s2 else s2.emit (.fieldOutput (BitVec.ofNat 32 s2.onMask))

def State.arbSettle (s : State) : State := s.settleFrom s.onMask

/-- The type of pair k by the safety table (R348, R357): 0 none, 1 equivalent, 2 antivalent. -/
def State.pairType (s : State) (k : Nat) : Nat := bits (u32 s.safeActive 16) (2 * k + 1) (2 * k)

/-- An edge on a channel of a pair (R348): it is the matching edge of the oldest one on the other channel that still waits
for one in its direction, or waits itself. -/
def ArbInst.edge (x : ArbInst) (type n : Nat) (level : Bool) : ArbInst :=
  let dir := if type = 2 then !level else level
  match x.edges.find? fun e => e.1 != n && e.2 == dir with
  | some e => { x with edges := x.edges.erase e }
  | none => { x with edges := x.edges ++ [(n, level)] }

/-- The instances whose pair holds a channel take note of its edge. -/
def State.pairEdge (s : State) (n : Nat) (level : Bool) : State :=
  s.instRecs.foldl (fun t e =>
    let p := sfPair e.2
    let type := t.pairType (u8 e.2 4)
    if (sfFunc e.2 = 2 ∨ sfFunc e.2 = 3) ∧ (p.1 = n ∨ p.2 = n) ∧ type ≠ 0 then t.putInst e.1 ((t.inst e.1).edge type n level) else t) s

/-! ### Events -/

/-- Field inputs are sampled: not in Parked, nor in Off, where nothing has power but the real-time clocks (R474). -/
def State.fieldSampled (s : State) : Bool := !(s.power.mode == .off || s.power.mode == .parked)

/-- An accepted edge (R338, R474): its level, the tag of the first since the last image, a reset operation it ends (R351). -/
def State.edgeAccept (s : State) (n : Nat) (level : Bool) (tick us : Nat) : State :=
  if !s.fieldSampled || !(s.fioMode n == 1 || s.fioMode n == 2) || (s.ch n).level == level then s
  else
    let c := s.ch n
    let c1 := { c with level := level, changed := true, multi := c.changed, broken := c.broken && !level
                       tagTick := if c.changed then c.tagTick else tick, tagUs := if c.changed then c.tagUs else us }
    let s1 := (s.putCh n c1).pairEdge n level
    let at_ := tickStart tick / 1000 + us
    let s2 := s1.instRecs.foldl (fun t e =>
      if u8 e.2 5 = n then
        let x := t.inst e.1
        if level then t.putInst e.1 { x with resetAt := some at_ }
        else match x.resetAt with
          | some a =>
            let t1 := t.putInst e.1 { x with resetAt := none }
            if a + 500000 ≤ at_ ∧ at_ ≤ a + 5000000 then
              (t1.putInst e.1 { t1.inst e.1 with resetSeen := true }).resetInst e.1 e.2
            else t1
          | none => t
      else t) s1
    s2.arbSettle

/-- DISCREPANCY_TIMEOUT (R348): the matching edge has not come. -/
def State.discrepancyTimeout (s : State) (i : Nat) : State :=
  match s.instRecs.find? fun e => e.1 == i with
  | some e =>
    if (sfFunc e.2 = 2 ∨ sfFunc e.2 = 3) && !(s.inst i).edges.isEmpty then
      let p := sfPair e.2
      let mark (t : State) (n : Nat) : State := (t.putCh n { t.ch n with discrepant := true }).fioFaulted n
      let s1 := mark (mark s p.1) p.2
      (s1.putInst i { s1.inst i with latched := true, cause := 2, disc := true, safeSeen := false, edges := [] }).arbSettle
    else s
  | none => s

/-- FEEDBACK_TIMEOUT (R349). -/
def State.feedbackTimeout (s : State) (i : Nat) : State :=
  match s.instRecs.find? fun e => e.1 == i with
  | some e =>
    if sfFunc e.2 = 4 && !s.feedbackOk e.2 (s.ch (sfOutput e.2)).on then
      let n := u8 e.2 8
      (((s.putCh n { s.ch n with feedback := true }).fioFaulted n).latch i 3).arbSettle
    else s
  | none => s

/-- PERMIT_DISAGREE_TIMEOUT (R350). -/
def State.permitDisagree (s : State) (i : Nat) : State :=
  match s.instRecs.find? fun e => e.1 == i with
  | some e => if s.hwPermit i e.2 != (s.inst i).proc then (s.latch i 4).arbSettle else s
  | none => s

/-- OUTPUT_SHORT (R344). -/
def State.outputShort (s : State) (n : Nat) : State :=
  let c := s.ch n
  if c.on then
    if 3 ≤ c.retries then ((s.putCh n { c with on := false, openLoad := false, retrying := false, short := true }).fioFaulted n).settleFrom s.onMask
    else (s.putCh n { c with on := false, openLoad := false, retrying := true }).settleFrom s.onMask
  else s

/-- SHORT_RETRY (R344): a still-commanded output is switched on again. -/
def State.shortRetry (s : State) (n : Nat) : State :=
  let c := s.ch n
  if c.retrying then (s.putCh n { c with retrying := false, retries := c.retries + 1 }).arbSettle else s

/-- SHORT_RETRY_CLEAR (R344). -/
def State.shortRetryClear (s : State) (n : Nat) : State :=
  let c := s.ch n
  if c.on && !c.retrying then s.putCh n { c with retries := 0 } else s

/-- OPEN_LOAD_DETECT and its end (R345): nothing is evaluated while the supply is not OK (R342). -/
def State.openLoad (s : State) (n : Nat) (b : Bool) : State :=
  let c := s.ch n
  if b then
    if bit (u8 (s.fioRec n) 2) 1 && c.on && s.supply == 2 then (s.putCh n { c with openLoad := true }).fioFaulted n else s
  else if c.on && s.supply != 2 then s
  else s.putCh n { c with openLoad := false }

/-- WIRE_BREAK_DECLARE and its end (R341): frozen while the supply is not OK. -/
def State.wireBreak (s : State) (n : Nat) (b : Bool) : State :=
  let c := s.ch n
  if bit (u8 (s.fioRec n) 2) 0 && (s.fioMode n == 1 || s.fioMode n == 2) && s.supply == 2 then
    if b then if c.level then s else ((s.putCh n { c with broken := true }).fioFaulted n).arbSettle
    else (s.putCh n { c with broken := false }).arbSettle
  else s

/-- The supply state for a filtered voltage in 10 mV units: upwards only 0.3 V above the threshold (R342). -/
def supplyOf (old v : Nat) : Nat :=
  match old with
  | 2 => if 1920 ≤ v then 2 else if 1000 ≤ v then 1 else 0
  | 1 => if 1950 ≤ v then 2 else if 1000 ≤ v then 1 else 0
  | _ => if 1950 ≤ v then 2 else if 1030 ≤ v then 1 else 0

def State.supplyChange (s : State) (v : Nat) : State :=
  ((s.wr Rg.fioSupply Fd.fioSupplyVoltage v).wr Rg.fioSupply Fd.fioSupplyState (supplyOf s.supply v)).arbSettle

/-- Instances whose record has changed start under R352; `boot` starts them all. -/
def State.startInsts (s : State) (old : Bytes) (boot : Bool) : State :=
  let before := if safePresent old then (safeInstances old).filter (fun r => bit (u8 r 2) 0) else []
  let s0 := { s with arb := { s.arb with insts := s.arb.insts.filter fun e => s.instRecs.any fun x => x.1 == e.1 } }
  (s0.instRecs.foldl (fun t e =>
    if !boot && before.contains e.2 then t
    else
      let lat := sfFunc e.2 == 2 || sfFunc e.2 == 4
      t.putInst e.1 { ArbInst.fresh with latched := lat, cause := if lat then 5 else 0 }) s0).arbSettle

/-! ### The field-input image (R339) -/

def State.chDiag (s : State) (n : Nat) : Nat :=
  let c := s.ch n
  b2n c.broken + b2n c.openLoad * 2 + b2n c.short * 4 + b2n c.retrying * 8 + b2n c.discrepant * 16 + b2n c.feedback * 32
    + b2n (s.supply != 2) * 64

def State.instMask (s : State) (p : Nat → Bytes → Bool) : Nat :=
  listSum (s.instRecs.map fun e => if p e.1 e.2 then 2 ^ e.1 else 0)

/-- The image as it would be frozen at the pulse of tick w. -/
def State.fieldImage (s : State) (w : Nat) : Bytes :=
  beBytes 4 (chanMask s.chLevel) ++ beBytes 4 (chanMask fun n => (s.ch n).changed) ++ beBytes 4 (chanMask fun n => (s.ch n).multi)
    ++ beBytes 1 s.supply ++ zeros 3 ++ beBytes 4 (s.instMask s.hwPermit) ++ beBytes 4 (s.instMask fun i _ => (s.inst i).latched)
    ++ beBytes 4 (s.instMask fun i _ => (s.inst i).resetSeen) ++ zeros 4
    ++ (allChans.flatMap fun n => beBytes 1 (s.chDiag n))
    ++ allChans.flatMap fun n =>
        let c := s.ch n
        if c.changed then beBytes 1 (min (w - c.tagTick) 255) ++ beBytes 1 c.tagUs else zeros 2

/-- Freeze the image of tick w (R22): the last 16 are kept; edges count afresh. -/
def State.freezeImage (s : State) (w : Nat) : State :=
  let images := (s.arb.images.filter fun e => e.1 != w) ++ [(w, s.fieldImage w)]
  let s1 := { s with arb := { s.arb with images := images.drop (images.length - 16) } }
  let s2 := { s1 with arb := { s1.arb with chans := s1.arb.chans.map fun e => (e.1, { e.2 with changed := false, multi := false, tagTick := 0, tagUs := 0 })
                                           insts := s1.arb.insts.map fun e => (e.1, { e.2 with resetSeen := false }) } }
  s2

/-- The image of a tick, if it is among the last 16. -/
def State.imageOf (s : State) (w : Nat) : Option Bytes := (s.arb.images.find? fun e => e.1 == w).map (·.2)

/-- The image that work tick w uses: frozen at T0 of the tick before (R22). Before the first one everything reads 0;
DESIGN CHOICE: so it does where no image was frozen in that tick although earlier ones exist (log entry 268). -/
def State.imageFor (s : State) (w : Nat) : Bytes := (s.imageOf (w - 1)).getD (zeros 128)

/-! ### A task's view (R340) and the outputs of a stall (R336) -/

/-- The force on a field channel, if one acts. -/
def State.fieldForce (s : State) (n : Nat) : Option Force := (s.forces.find? fun e => e.2.kind == 3 && e.2.offset == n).map (·.2)

/-- A KIND 4 entry: `changed` is CHANGED as gathered. DESIGN CHOICE: of a force of 8 bytes the low 32 bits decide (log entry
273). -/
def State.fieldInput (s : State) (w stall changed : Nat) : Bytes :=
  let img := s.imageFor w
  let own (n : Nat) : Bool := s.fieldOwner stall n
  let forced (n : Nat) : Bool := own n && (s.fieldForce n).isSome
  let diag (n : Nat) : Nat := u8 img (31 + n)
  let isOut (n : Nat) : Bool := s.isOutput n
  let level (n : Nat) : Bool := own n && (match s.fieldForce n with
    | some f => f.value % 2 ^ 32 != 0
    | none => bit (u32 img 0) (n - 1))
  let bad (n : Nat) : Bool := own n && !forced n
    && (bit (diag n) 0 || (isOut n && (bit (diag n) 2 || bit (diag n) 3)) || u8 img 12 == 0)
  beBytes 4 (chanMask level) ++ beBytes 4 (chanMask bad) ++ beBytes 4 (changed &&& chanMask own) ++ beBytes 4 (chanMask forced)

/-- A word of an image that the Collect phase presents for a task. -/
def State.presentedWord (s : State) (sd : SideId) (stall task off : Nat) : Option Nat :=
  match Tbl.find (s.side sd).presented (taskKey stall task) with
  | some img => if off + 4 ≤ img.length then some (u32 img off) else none
  | none => none

/-- The stall that holds an ordinary channel by its FIELD grant. -/
def State.channelStall (s : State) (n : Nat) : Option Nat := ((upto 63).find? fun st => s.fieldOwner st n)

/-- Whether a side commands an ordinary output on (R336); a force on the channel substitutes its value (R130). -/
def State.commandsOn (s : State) (sd : SideId) (n : Nat) : Bool :=
  let r := s.fioRec n
  s.isOutput n && !s.isSafeChannel n &&
    match s.channelStall n with
    | none => false
    | some st =>
      match s.fieldForce n with
      | some f => f.value % 2 ^ 32 != 0
      | none => (s.presentedWord sd st (u8 r 6) (u32 r 8)).getD 0 != 0

/-- The outputs whose commands a side withholds: their stall mismatches (R58). -/
def State.withheldCmds (s : State) (sd : SideId) : Nat :=
  chanMask fun n => s.isOutput n && (match s.channelStall n with
    | some st => (s.side sd).withheld.contains st
    | none => false)

/-- OUT_DATA of a side for the image of work tick w (R24, R346): stall 63 withholds every permit while it is Resetting or
Faulted (R189). -/
def State.outDataOf (s : State) (sd : SideId) (w : Nat) : OutData :=
  let held := s.stallState 63 == stResetting || s.stallState 63 == stFaulted
  ⟨w, chanMask (s.commandsOn sd), s.instMask fun _ r => !held && (s.presentedWord sd 63 (u8 r 14) (u16 r 16)).getD 0 != 0,
    s.withheldCmds sd, (s.side sd).withheld.contains 63⟩

/-! ### Registers that show the Arbiter -/

def State.fioLevelWord (s : State) : Nat := chanMask s.chLevel

def State.fioChWord (s : State) (n : Nat) : Nat :=
  let c := s.ch n
  at_ (s.fioMode n) 29 + at_ (b2n (s.isSafeChannel n)) 28 + at_ (b2n (s.chLevel n)) 27 + at_ (b2n c.broken) 26
    + at_ (b2n c.openLoad) 25 + at_ (b2n c.short) 24 + at_ (c.retries % 4) 22 + at_ (b2n c.discrepant) 21
    + at_ (b2n c.feedback) 20 + at_ (Config.fioCurrent s.now (n - 1)).toNat 8

def State.sfWord (s : State) (i : Nat) : Nat :=
  match s.instRecs.find? fun e => e.1 == i with
  | none => 0
  | some e =>
    at_ (sfFunc e.2) 29 + at_ (b2n (s.hwPermit i e.2)) 28 + at_ (b2n (s.inst i).proc) 27 + at_ (b2n (s.inst i).latched) 26
      + at_ (b2n (s.resetReady i e.2)) 25 + at_ (s.sfCause i e.2) 21

/-- Instances without both permits (SAFE_STATUS.N_SAFE). -/
def State.nSafe (s : State) : Nat := (s.instRecs.filter fun e => !(s.hwPermit e.1 e.2 && (s.inst e.1).proc)).length

end Sys2Proof.Machine
end

