-- ==== Sys2Proof/Machine/Session.lean ====
section
/-! DEFINITION. Session and principal commands (R396, R406, R408, R412, R499). -/

namespace Sys2Proof.Machine

/-! ### Identity registers: they show the images the sides run (R430) -/

def moduleIdentWord : Nat := at_ 0x9610 16 + at_ Config.hwRev.toNat 8
def State.fwVersionWord (s : State) (sd : SideId) : Nat := u24 (s.side sd).image 8 * 256
def State.protoVersionWord (s : State) (sd : SideId) : Nat := at_ 1 16 + u16 (s.side sd).image 12

/-- CMD_PENDING: the validated commands of a side that wait for a later apply tick. -/
def State.cmdPendingWord (s : State) (sd : SideId) : Nat := (s.waitingOn sd).length

/-! ### Effects -/

def cmdIdentify (h : CmdHdr) (_ : Bytes) (s : State) : CmdOut :=
  let half (sd : SideId) : Bytes :=
    if sd ≠ h.side ∧ (s.side sd).role = .out then zeros 20
    else beBytes 4 moduleIdentWord ++ beBytes 8 Config.serial.toNat ++ beBytes 4 (s.fwVersionWord sd) ++ beBytes 4 (s.protoVersionWord sd)
  let st := if bothSides.any fun sd => sd != h.side && (s.side sd).role == .out then Status.state else .ok
  ⟨s, st, half .A ++ half .B ++ beBytes 1 (s.side h.side).role.code ++ zeros 3⟩

def cmdEcho (_ : CmdHdr) (p : Bytes) (s : State) : CmdOut := done s p

def cmdCmdOutcome (h : CmdHdr) (p : Bytes) (s : State) : CmdOut :=
  match (Tbl.getD s.outcomes h.origin.toNat []).find? fun o => o.seq == u32 p 0 with
  | some o => done s (beBytes 4 o.seq ++ beBytes 2 o.status.code ++ zeros 2 ++ beBytes 8 (if o.status.good then o.tick else 0))
  | none => refuse s .range

/-- The fields of a principal record in range (R396); its slot must hold a command-authentication key. -/
def State.principalRange (s : State) (p : Bytes) : Bool :=
  decide (1 ≤ u32 p 0 ∧ u32 p 0 ≤ 0x7FFFFFFF) && decide (u8 p 4 ≤ 5)
    && (u8 p 5 == 0xFF || decide (1 ≤ u8 p 5 ∧ u8 p 5 ≤ 63 ∧ u8 p 4 ≤ 3))
    && decide (u8 p 6 ≤ 63) && s.cmdSlot s.speaker (u8 p 6) && decide (u8 p 7 ≤ 7) && decide (u8 p 8 ≤ 3)
    && allZero (sub p 9 1) && allZero (sub p 28 4)

/-- Whether a record is a Manager that R396 counts: UDP or console in TRANSPORTS. -/
def keepsManager (r : Bytes) : Bool := u8 r 4 == 4 && (bit (u8 r 7) 0 || bit (u8 r 7) 2)

/-- Whether some principal keeps the module manageable. -/
def managed (t : Tbl Principal) : Bool := t.any fun e => keepsManager e.2.record

def cmdOriginSet (_ : CmdHdr) (p : Bytes) (s : State) : CmdOut :=
  let o := u32 p 0
  if !s.principalRange p then refuse s .range
  else
    let new : Principal :=
      match Tbl.find s.principals o with
      | some old => if u8 old.record 6 = u8 p 6 then { old with record := p } else ⟨p, 0, 0, 0, 0⟩
      | none => ⟨p, 0, 0, 0, 0⟩
    let t := Tbl.put s.principals o new
    if !managed t then refuse s .conflict
    else if 256 < t.length then refuse s .noResource
    else done { s with principals := t } []

def cmdOriginDelete (_ : CmdHdr) (p : Bytes) (s : State) : CmdOut :=
  let o := u32 p 0
  if !Tbl.has s.principals o then refuse s .range
  else
    let t := Tbl.del s.principals o
    if !managed t then refuse s .conflict else done { s with principals := t } []

def cmdOriginRead (h : CmdHdr) (p : Bytes) (s : State) : CmdOut :=
  if u8 p 1 = 0 ∨ 31 < u8 p 1 then refuse s .range
  else done s ((fitItems h 0 (((Tbl.vals s.principals).map (·.record)).drop (u8 p 0) |>.take (u8 p 1))).flatMap id)

def cmdCmdStatus (_ : CmdHdr) (_ : Bytes) (s : State) : CmdOut :=
  done s (bothSides.flatMap fun sd =>
    beBytes 4 (s.regWord (Rg.cmdCounts sd)) ++ beBytes 4 (s.regWord (Rg.cmdDrop sd))
      ++ beBytes 4 (s.regWord (Rg.crierStats sd)) ++ beBytes 4 (s.cmdPendingWord sd))

def specIdentify : CmdSpec := ⟨0x0000, always .observer, fun _ => false, lenIs 0, false, ownsNone, false, cmdIdentify⟩
def specEcho : CmdSpec := ⟨0x0001, always .observer, fun _ => false, fun p => decide (p.length ≤ 1008), false, ownsAny, false, cmdEcho⟩
def specCmdOutcome : CmdSpec := ⟨0x0002, always .observer, fun _ => false, lenIs 4, false, ownsAny, false, cmdCmdOutcome⟩
def specOriginSet : CmdSpec := ⟨0x0003, always .manager, fun _ => true, lenIs 32, true, ownsNone, true, cmdOriginSet⟩
def specOriginDelete : CmdSpec := ⟨0x0004, always .manager, fun _ => true, lenIs 4, true, ownsNone, true, cmdOriginDelete⟩
def specOriginRead : CmdSpec := ⟨0x0005, always .manager, fun _ => false, lenIs 2, true, ownsNone, false, cmdOriginRead⟩
def specCmdStatus : CmdSpec := ⟨0x0006, always .observer, fun _ => false, lenIs 0, false, ownsNone, false, cmdCmdStatus⟩
/-- A request with opcode 0x0020 is refused with NO_RIGHT (R409). -/
def specCrierNote : CmdSpec := ⟨0x0020, fun _ => none, fun _ => false, fun _ => true, false, ownsNone, false, fun _ _ s => refuse s .noRight⟩

def execIdentify (h : CmdHdr) (p : Bytes) (s : State) : Host.Outcome State Fault Refusal := runCmd specIdentify h p s
def execEcho (h : CmdHdr) (p : Bytes) (s : State) : Host.Outcome State Fault Refusal := runCmd specEcho h p s
def execCmdOutcome (h : CmdHdr) (p : Bytes) (s : State) : Host.Outcome State Fault Refusal := runCmd specCmdOutcome h p s
def execOriginSet (h : CmdHdr) (p : Bytes) (s : State) : Host.Outcome State Fault Refusal := runCmd specOriginSet h p s
def execOriginDelete (h : CmdHdr) (p : Bytes) (s : State) : Host.Outcome State Fault Refusal := runCmd specOriginDelete h p s
def execOriginRead (h : CmdHdr) (p : Bytes) (s : State) : Host.Outcome State Fault Refusal := runCmd specOriginRead h p s
def execCmdStatus (h : CmdHdr) (p : Bytes) (s : State) : Host.Outcome State Fault Refusal := runCmd specCmdStatus h p s

/-- The Crier notifies the principal named as origin (R408, R409); a request that carries the opcode is refused. -/
def execCrierNote (h : CmdHdr) (code : BitVec 16) (ledgerSeq : DWord) (body : Bytes) (s : State) :
    Host.Outcome State Fault Refusal :=
  match h.transport with
  | .internal =>
    match Tbl.find s.principals h.origin.toNat with
    | some p =>
      if crierCovers p h.stall.toNat then
        .next (s.notifyOne h.side h.origin.toNat h.stall.toNat p false
          (noteBody code.toNat (if ledgerSeq = 0 then 0xFF else 0) (s.rd (Rg.resetCause h.side) Fd.resetCauseBootCount % 256)
            ledgerSeq.toNat 0 0 (body.take 256)))
      else .next s
    | none => .next s
  | _ => runCmd specCrierNote h body s

end Sys2Proof.Machine
end

