-- ==== Sys2Proof/Machine/Keys.lean ====
section
/-! DEFINITION. Key slots, the key cache and their commands (R442 to R455). `sealedKeys` holds the slots as the store
has them, wrapped and tagged under keys derived from a root (R444, R445), `forward` the forward copies (R451); `keys` holds
the key inside each, `cache` the masked pairs and `till` the working key of the crypto engine (R452). -/

namespace Sys2Proof.Machine

/-! ### Derived keys (R444) -/

/-- A label: ASCII without a terminator. -/
def ascii (t : String) : Bytes := t.toList.map fun c => BitVec.ofNat 8 c.toNat

/-- The boot measurement of an image on a side. -/
def measurement (sd : SideId) (image : Bytes) : Bytes :=
  sha384 (sha384 (Config.loaderArea sd) ++ sha384 (image.take (image.length - 96)) ++ sha384 (Config.microcode image))

/-- MEASUREMENT of an image header (R430). -/
def imageMeasurement (image : Bytes) : Bytes := sub image 32 48

/-- The context of the two keys of a slot: its number and GENERATION. -/
def slotContext (k gen : Nat) : Bytes := beBytes 1 k ++ beBytes 4 gen

/-- The key that wraps a slot's key, and the key of its integrity tag. -/
def wrapKeyOf (salt root : Bytes) (k gen : Nat) : Bytes := deriveKey salt root (ascii "KV-SLOT-WRAP") (slotContext k gen) 32
def tagKeyOf (salt root : Bytes) (k gen : Nat) : Bytes := deriveKey salt root (ascii "KV-SLOT-TAG") (slotContext k gen) 48

/-- The seed of a side's device key; its salt is all zeros, so that it outlives every image. -/
def deviceSeed (sd : SideId) (root : Bytes) : Bytes := deriveKey (zeros 48) root (ascii "KV-DEVICE") (beBytes 1 sd.code) 48

/-- The link key of two ephemeral public keys, side A's first. -/
def linkKeyOf (salt a b : Bytes) : Bytes := deriveKey salt (Config.ecdhSecret a b) (ascii "KV-LINK") (a ++ b) 32

/-! ### The cache and the Till -/

/-- `n` free bytes, four from each free word. -/
def State.freeBytes : Nat → State → Bytes × State
  | 0, s => ([], s)
  | n + 1, s => let r := State.freeBytes n s; let f := r.2.free; (r.1 ++ beBytes 4 f.1.toNat, f.2)

def xorBytes (a b : Bytes) : Bytes := (a.zip b).map fun e => e.1 ^^^ e.2

/-- Draw a fresh mask for the key of a slot, or load it with one (R452, R453). -/
def State.maskSlot (s : State) (sd : SideId) (k : Nat) : State :=
  match Tbl.find (s.side sd).keys k with
  | none => s
  | some key =>
    let r := s.freeBytes ((key.length + 3) / 4)
    let m := fit key.length r.1
    r.2.modSide sd fun x => { x with cache := Tbl.put x.cache k (xorBytes key m, m) }

/-- Fresh masks for every cached key (R453). -/
def State.remask (s : State) (sd : SideId) : State :=
  ((s.side sd).cache.map (·.1)).foldl (fun t k => t.maskSlot sd k) s

/-- The Till and the cache are zeroised (R453). -/
def State.zeroise (s : State) (sd : SideId) : State := s.modSide sd fun x => { x with cache := [], till := [] }

/-- The engine loads a key into the Till for a request (R452). -/
def State.loadTill (s : State) (sd : SideId) (k : Nat) : State :=
  match Tbl.find (s.side sd).cache k with
  | some e => s.modSide sd fun x => { x with till := xorBytes e.1 e.2 }
  | none => s

/-! ### Slots -/

def State.slotFlag (s : State) (sd : SideId) (k : Nat) (f : Fld) : Bool := s.flag (Rg.keySlot sd k) f

/-- A slot fails its tag check on a side (R447). -/
def State.slotBad (s : State) (sd : SideId) (k : Nat) : State :=
  if s.slotFlag sd k Fd.keySlotValid then
    (s.setFlag (Rg.keySlot sd k) Fd.keySlotBad true).modSide sd fun x => { x with cache := Tbl.del x.cache k }
  else s

/-- The metadata that a slot's tag covers: KEY_SLOT without what the side itself notes there (BAD, FORWARD), KEY_STALLS. -/
def State.slotMeta (s : State) (sd : SideId) (k : Nat) : Bytes :=
  let w := s.regWord (Rg.keySlot sd k)
  beBytes 8 (w / 2 ^ 63 % 2 * 2 ^ 63 + w % 2 ^ 61) ++ beBytes 8 (s.regWord (Rg.keyStalls sd k))

/-- The root that ROOT_SEL of a slot names, where the side has it. -/
def State.slotRoot (s : State) (sd : SideId) (k : Nat) : Option Bytes :=
  if s.slotFlag sd k Fd.keySlotRootSel then (s.side sd).roots.puf else (s.side sd).roots.native

/-- The integrity tag of a slot's metadata and wrapped key (R445). -/
def State.slotTag (s : State) (sd : SideId) (k : Nat) (salt root wrapped : Bytes) : Bytes :=
  hmacSha384 (tagKeyOf salt root k (s.rd (Rg.keySlot sd k) Fd.keySlotGeneration)) (s.slotMeta sd k ++ wrapped)

/-- A slot's key sealed under a measurement; none without its root. -/
def State.sealSlot (s : State) (sd : SideId) (k : Nat) (salt : Bytes) : Option SealedKey :=
  (s.slotRoot sd k).map fun root =>
    let w := aesWrapPad (wrapKeyOf salt root k (s.rd (Rg.keySlot sd k) Fd.keySlotGeneration)) (Tbl.getD (s.side sd).keys k [])
    ⟨w, s.slotTag sd k salt root w⟩

/-- Whether a copy of a slot passes its tag check under a measurement. -/
def State.slotSound (s : State) (sd : SideId) (k : Nat) (salt : Bytes) (copies : Tbl SealedKey) : Bool :=
  match s.slotRoot sd k, Tbl.find copies k with
  | some root, some x => x.tag == s.slotTag sd k salt root x.wrapped
  | _, _ => false

/-- The measurement that an update's new image is to produce (R451). -/
def State.newMeasurement (s : State) : Bytes := imageMeasurement (s.side s.update.first).stored

/-- A side stores a slot, and with `fwd` its forward copy too (R449, R451). A slot whose root the side has not is BAD. -/
def State.storeSlot (s : State) (sd : SideId) (k : Nat) (fwd : Bool) : State :=
  match s.sealSlot sd k (s.side sd).roots.salt with
  | none => s.slotBad sd k
  | some x =>
    let forward := match fwd, s.sealSlot sd k s.newMeasurement with
      | true, some y => Tbl.put (s.side sd).forward k y
      | _, _ => (s.side sd).forward
    s.modSide sd fun z => { z with sealedKeys := Tbl.put z.sealedKeys k x, forward := forward }

/-- The slots of a side that are VALID. -/
def State.validSlots (s : State) (sd : SideId) : List Nat := (upto 64).filter fun k => s.slotFlag sd k Fd.keySlotValid

/-- A side that runs the new image of an update uses the forward copies (R451). -/
def State.onForward (s : State) (sd : SideId) : Bool :=
  !(s.side sd).forward.isEmpty && (s.side sd).image == (s.side s.update.first).stored

/-- The copies of the slots that a side uses. -/
def State.copiesInUse (s : State) (sd : SideId) : Tbl SealedKey :=
  if s.onForward sd then (s.side sd).forward else (s.side sd).sealedKeys

/-- Whether every VALID slot that is not BAD passes its check under the boot's own measurement. -/
def State.slotsSound (s : State) (sd : SideId) : Bool :=
  (s.validSlots sd).all fun k => s.slotFlag sd k Fd.keySlotBad || s.slotSound sd k (measurement sd (s.side sd).image) (s.copiesInUse sd)

/-- The slots of a side are loaded at boot (R447): VALID, each tag checked under the boot's own measurement. -/
def State.loadCache (s : State) (sd : SideId) : State :=
  let m := measurement sd (s.side sd).image
  (s.validSlots sd).foldl
    (fun (t : State) k =>
      if t.slotFlag sd k Fd.keySlotBad then t
      else if s.slotSound sd k m (s.copiesInUse sd) then t.maskSlot sd k
      else t.slotBad sd k)
    (s.zeroise sd)

/-! ### Roots (R442, R443) -/

/-- At its first start a side generates its native root and seals the setup key; `good`: generation and the programming
check pass (R442). A side whose root is programmed never generates another. -/
def State.nativeRoot (s : State) (sd : SideId) (good : Bool) : State :=
  match (s.side sd).roots.native, good with
  | some _, _ => s.wr (Rg.keyStatus sd) Fd.keyStatusRoot 1
  | none, false => s.wr (Rg.keyStatus sd) Fd.keyStatusRoot 2
  | none, true =>
    let r := State.freeBytes 8 s
    let s1 := r.2.modSide sd fun x => { x with roots := { x.roots with native := some r.1, salt := measurement sd x.image } }
    ((s1.validSlots sd).foldl (fun (t : State) k => t.storeSlot sd k false) s1).wr (Rg.keyStatus sd) Fd.keyStatusRoot 1

/-- The PUF root is enrolled at first start and reconstructed at every boot; `good`: the reconstruction succeeds (R443). -/
def State.pufRoot (s : State) (sd : SideId) (good : Bool) : State :=
  let r := match (s.side sd).roots.helper with
    | some h => (h, s)
    | none => State.freeBytes 8 s
  let s1 := r.2.modSide sd fun x =>
    { x with roots := { x.roots with helper := some r.1, puf := if good then some (Config.pufRoot sd r.1) else none } }
  s1.wr (Rg.keyStatus sd) Fd.keyStatusPuf (if good then 1 else 2)

/-- The cross-link trains (R444): each side signs an ephemeral key with its device key; where either finds the other's
certificate or signature bad there is no link key. The salt is side A's measurement. -/
def State.trainLink (s : State) (trusted : Bool) : State :=
  let f := s.free
  let a := Config.ephemeralKey .A f.1
  let b := Config.ephemeralKey .B f.1
  { f.2 with xlink := { s.xlink with trusted := trusted, link := if trusted then some (linkKeyOf (measurement .A s.sideA.image) a b) else none } }

/-- Whether a slot can unwrap: UNWRAP in OPS, VALID, not BAD. -/
def State.unwraps (s : State) (sd : SideId) (k : Nat) : Bool :=
  s.slotFlag sd k Fd.keySlotValid && !s.slotFlag sd k Fd.keySlotBad && bit (s.rd (Rg.keySlot sd k) Fd.keySlotOps) 2

/-- The slots of a side with UNWRAP that are not BAD. -/
def State.unwrapSlots (s : State) (sd : SideId) : List Nat := (upto 64).filter fun k => s.unwraps sd k

/-- The setup key stands in slot 0 (R448). -/
def State.setupKeyIn (s : State) (sd : SideId) : Bool :=
  s.slotFlag sd 0 Fd.keySlotValid && s.rd (Rg.keySlot sd 0) Fd.keySlotPurpose == 4

/-- KEY_STATUS: its reset value until the loader has the roots; then ROOT, PUF and MASKING as stored, the rest counted from
the slots. -/
def State.keyStatusWord (s : State) (sd : SideId) : Nat :=
  if s.rd (Rg.keyStatus sd) Fd.keyStatusRoot = 0 then s.regWord (Rg.keyStatus sd) else
  let count (f : Fld) : Nat := ((upto 64).filter fun k => s.slotFlag sd k f).length
  let r := Rg.keyStatus sd
  at_ (s.rd r Fd.keyStatusRoot) 30 + at_ (s.rd r Fd.keyStatusPuf) 28 + at_ (b2n (s.setupKeyIn sd)) 27
    + at_ (s.rd r Fd.keyStatusMasking) 26 + at_ (b2n (!(s.side sd).forward.isEmpty)) 25
    + at_ (count Fd.keySlotBad) 8 + count Fd.keySlotValid

/-- KEY_ID of an image (R430). -/
def imageKeyId (img : Bytes) : Nat := u8 img 3

/-- KEY_SIGNER[i]. -/
def State.keySignerWord (s : State) (sd : SideId) (i : Nat) : Nat :=
  at_ (b2n (Config.signerPresent sd i)) 31 + at_ (s.rd (Rg.keySigner sd i) Fd.keySignerRevoked) 30
    + at_ (b2n (imageKeyId (s.side sd).image == i)) 29

/-! ### KEY_IMPORT (R449) -/

structure KeyImport where
  slot : Nat
  purpose : Nat
  ops : Nat
  root : Nat
  stalls : Nat
  kek : Nat
  gen : Nat
  wlen : Nat
  wrapped : Bytes
  deriving DecidableEq, Repr

def readImport (p : Bytes) : KeyImport := ⟨u8 p 0, u8 p 1, u8 p 2, u8 p 3, u64 p 4, u8 p 12, u32 p 16, u16 p 20, p.drop 24⟩

/-- LENGTH allowed for a PURPOSE (R445). -/
def keyLengthOk (purpose len : Nat) : Bool := if purpose = 3 then len == 32 else decide (16 ≤ len ∧ len ≤ 64)

/-- Check 1 of R449: every field in range, PURPOSE not SETUP, OPS allowed; LENGTH as far as the wrapped length shows it. -/
def importRange (p : Bytes) : Bool :=
  let i := readImport p
  decide (i.slot ≤ 63 ∧ i.kek ≤ 63 ∧ i.root ≤ 1 ∧ 24 ≤ i.wlen ∧ i.wlen ≤ 72) && i.wlen % 8 == 0 && i.wrapped.length == i.wlen
    && allZero (sub p 13 3) && allZero (sub p 22 2)
    && (match i.purpose with
      | 1 => i.ops == 1
      | 2 => decide (1 ≤ i.ops ∧ i.ops ≤ 3)
      | 3 => i.ops == 4 && i.wlen == 40
      | _ => false)

/-- Whether the KEK slot may unwrap (check 2). -/
def State.kekUsable (s : State) (sd : SideId) (k : Nat) : Bool :=
  s.unwraps sd k && (s.rd (Rg.keySlot sd k) Fd.keySlotPurpose == 3 || s.rd (Rg.keySlot sd k) Fd.keySlotPurpose == 4)

/-- The checks of R449, in order: the key to write, or the refusal. -/
def State.importCheck (s : State) (sd : SideId) (p : Bytes) : Except Status Bytes :=
  let i := readImport p
  if !importRange p then .error .range
  else if !s.kekUsable sd i.kek then .error .state
  else
    match aesUnwrapPad (Tbl.getD (s.side sd).keys i.kek []) i.wrapped with
    | none => .error .range
    | some key =>
      if !keyLengthOk i.purpose key.length then .error .range
      else if i.gen ≤ s.rd (Rg.keySlot sd i.slot) Fd.keySlotGeneration then .error .conflict
      else if i.purpose ≠ 3 ∧ (s.unwrapSlots sd).all (fun k => k == i.slot) then .error .conflict
      else .ok key

/-- A side writes a slot (R449); while forward copies exist the forward copy too (R451). -/
def State.writeSlot (s : State) (sd : SideId) (p key : Bytes) : State :=
  let i := readImport p
  let fwd := !(s.side sd).forward.isEmpty
  let word := 2 ^ 63 + at_ (b2n fwd) 61 + at_ i.root 60 + at_ i.purpose 56 + at_ i.ops 48 + at_ key.length 40 + i.gen
  let t := ((s.putReg (Rg.keySlot sd i.slot) word).putReg (Rg.keyStalls sd i.slot) i.stalls).modSide sd fun x =>
    { x with keys := Tbl.put x.keys i.slot key, cache := Tbl.del x.cache i.slot }
  (t.maskSlot sd i.slot).storeSlot sd i.slot fwd

def cmdKeyImport (_ : CmdHdr) (p : Bytes) (s : State) : CmdOut :=
  match s.importCheck s.speaker p with
  | .error st => refuse s st
  | .ok _ => done (s.forSides fun sd t => match t.importCheck sd p with | .ok key => t.writeSlot sd p key | .error _ => t) []

/-! ### KEY_ERASE (R450) -/

/-- Whether every principal that keeps the module manageable (R396) uses this slot. -/
def State.requiredSlot (s : State) (k : Nat) : Bool :=
  let m := s.principals.filter fun e => keepsManager e.2.record
  !m.isEmpty && m.all fun e => u8 e.2.record 6 == k

/-- Whether a subscription or publication of the active set that carries tags names a slot. -/
def State.slotNamed (s : State) (k : Nat) : Bool :=
  (s.subs.any fun e => subFlag e.2 3 && (u8 e.2 21 == k || u8 e.2 22 == k))
    || (s.gooseSubRecs.any fun e => bit (u16 e.2 2) 1 && (u8 e.2 16 == k || u8 e.2 17 == k))
    || (s.goosePubRecs.any fun e => gpFlag e.2.2 3 && u8 e.2.2 26 == k)
    || (s.svPubRecs.any fun e => bit (u16 e.2.2 4) 2 && u8 e.2.2 22 == k)

/-- A slot cleared on a side; its GENERATION stays, so that a recorded import can restore no older key (R449). -/
def State.clearSlot (s : State) (sd : SideId) (k : Nat) : State :=
  ((s.putReg (Rg.keySlot sd k) (s.rd (Rg.keySlot sd k) Fd.keySlotGeneration)).putReg (Rg.keyStalls sd k) 0).modSide sd fun x =>
    { x with keys := Tbl.del x.keys k, sealedKeys := Tbl.del x.sealedKeys k, forward := Tbl.del x.forward k, cache := Tbl.del x.cache k }

def cmdKeyErase (_ : CmdHdr) (p : Bytes) (s : State) : CmdOut :=
  let k := u8 p 0
  let sd := s.speaker
  if 63 < k ∨ !s.slotFlag sd k Fd.keySlotValid then refuse s .range
  else if s.requiredSlot k || s.unwrapSlots sd == [k] || s.slotNamed k then refuse s .conflict
  else done (s.forSides fun d t => t.clearSlot d k) []

/-! ### Forward sealing (R451) -/

/-- Both sides write a forward copy of every VALID slot whose root they have. -/
def State.forwardSeal (s : State) : State :=
  s.forSides fun sd t =>
    (t.validSlots sd).foldl (fun (u : State) k =>
      match u.sealSlot sd k u.newMeasurement with
      | none => u
      | some y => (u.setFlag (Rg.keySlot sd k) Fd.keySlotForward true).modSide sd fun x => { x with forward := Tbl.put x.forward k y }) t

/-- The forward copies go: the only copies when the update is DONE, discarded otherwise. -/
def State.dropForward (s : State) (done : Bool) : State :=
  s.forSides fun sd t =>
    let kept := t.modSide sd fun x =>
      if done && !x.forward.isEmpty then
        { x with sealedKeys := x.forward, forward := [], roots := { x.roots with salt := t.newMeasurement } }
      else { x with forward := [] }
    (upto 64).foldl (fun (u : State) k =>
      if u.slotFlag sd k Fd.keySlotForward then u.setFlag (Rg.keySlot sd k) Fd.keySlotForward false else u) kept

/-! ### Copies to the other side (R447, R232) -/

/-- One slot reaches a joiner under the link key: the joiner seals it under its own keys. -/
def State.copySlot (s : State) (src dst : SideId) (k : Nat) : State :=
  let s1 := (s.putReg (Rg.keySlot dst k) (s.regWord (Rg.keySlot src k))).putReg (Rg.keyStalls dst k) (s.regWord (Rg.keyStalls src k))
  match Tbl.find (s.side src).keys k with
  | some key =>
    ((s1.modSide dst fun x => { x with keys := Tbl.put x.keys k key }).storeSlot dst k (s.slotFlag src k Fd.keySlotForward)).maskSlot dst k
  | none => s1.modSide dst fun x =>
    { x with keys := Tbl.del x.keys k, sealedKeys := Tbl.del x.sealedKeys k, forward := Tbl.del x.forward k, cache := Tbl.del x.cache k }

/-- Resynchronisation copies every slot that is not BAD. -/
def State.copySlots (s : State) (src dst : SideId) : State :=
  (upto 64).foldl (fun (u : State) k => if u.slotFlag src k Fd.keySlotBad then u else u.copySlot src dst k) (s.zeroise dst)

/-! ### Signing keys (R454) -/

def State.revoked (s : State) (sd : SideId) (i : Nat) : Bool := s.flag (Rg.keySigner sd i) Fd.keySignerRevoked

def cmdKeyRevokeSigner (_ : CmdHdr) (p : Bytes) (s : State) : CmdOut :=
  let i := u8 p 0
  let sd := s.speaker
  if 3 < i ∨ !Config.signerPresent sd i then refuse s .range
  else if bothSides.any (fun d => imageKeyId (s.side d).image == i || imageKeyId (s.side d).stored == i) then refuse s .conflict
  else if (upto 4).all (fun j => j == i || !Config.signerPresent sd j || s.revoked sd j) then refuse s .conflict
  else done (s.forSides fun d t => t.setFlag (Rg.keySigner d i) Fd.keySignerRevoked true) []

def cmdKeyStatus (h : CmdHdr) (_ : Bytes) (s : State) : CmdOut :=
  done s ((fitItems h 0 (bothSides.flatMap fun sd =>
    [beBytes 4 (s.keyStatusWord sd)] ++ ((upto 4).map fun i => beBytes 4 (s.keySignerWord sd i))
      ++ ((upto 64).map fun k => beBytes 8 (s.regWord (Rg.keySlot sd k)) ++ beBytes 8 (s.regWord (Rg.keyStalls sd k))))).flatMap id)

/-- The device public key of a side and its certificate. -/
def State.deviceCert (s : State) (sd : SideId) : Bytes :=
  Config.devicePublic (deviceSeed sd ((s.side sd).roots.native.getD [])) ++ Config.deviceCert sd

def cmdKeyDeviceCert (_ : CmdHdr) (p : Bytes) (s : State) : CmdOut :=
  match u8 p 0 with
  | 0 => done s (s.deviceCert .A)
  | 1 => done s (s.deviceCert .B)
  | _ => refuse s .range

def specKeyStatus : CmdSpec := ⟨0x1000, always .observer, fun _ => false, lenIs 0, true, ownsNone, false, cmdKeyStatus⟩
def specKeyImport : CmdSpec :=
  ⟨0x1001, always .manager, fun _ => true, fun p => decide (24 ≤ p.length) && p.length == 24 + u16 p 20, true, ownsNone, true, cmdKeyImport⟩
def specKeyErase : CmdSpec := ⟨0x1002, always .manager, fun _ => true, lenIs 1, true, ownsNone, true, cmdKeyErase⟩
def specKeyDeviceCert : CmdSpec := ⟨0x1003, always .observer, fun _ => false, lenIs 1, true, ownsNone, false, cmdKeyDeviceCert⟩
def specKeyRevokeSigner : CmdSpec := ⟨0x1004, always .manager, fun _ => true, lenIs 1, true, ownsNone, true, cmdKeyRevokeSigner⟩

def execKeyStatus (h : CmdHdr) (p : Bytes) (s : State) : Host.Outcome State Fault Refusal := runCmd specKeyStatus h p s
def execKeyImport (h : CmdHdr) (p : Bytes) (s : State) : Host.Outcome State Fault Refusal := runCmd specKeyImport h p s
def execKeyErase (h : CmdHdr) (p : Bytes) (s : State) : Host.Outcome State Fault Refusal := runCmd specKeyErase h p s
def execKeyDeviceCert (h : CmdHdr) (p : Bytes) (s : State) : Host.Outcome State Fault Refusal := runCmd specKeyDeviceCert h p s
def execKeyRevokeSigner (h : CmdHdr) (p : Bytes) (s : State) : Host.Outcome State Fault Refusal := runCmd specKeyRevokeSigner h p s
def execSlotTagFail (sd : SideId) (k : Fin 64) (s : State) : Host.Outcome State Fault Refusal := .next (s.slotBad sd k.val)
def execMaskRefresh (sd : SideId) (s : State) : Host.Outcome State Fault Refusal := .next (s.remask sd)

end Sys2Proof.Machine
end

