-- ==== Sys2Proof/Machine/Can.lean ====
section
/-! DEFINITION. The CAN FD controllers (R363 to R376). Records of block 0x11 are kept under the index 256 × controller for
the timing, 4,096 + 256 × controller + f for a filter, 8,192 + 256 × controller + b for a message buffer. -/

namespace Sys2Proof.Machine

/-- The controller of a side: CAN1 on A, CAN2 on B. -/
def ctrlOf : SideId → Nat
  | .A => 1
  | .B => 2

def ctrlSide (c : Nat) : SideId := if c = 2 then .B else .A

def canTimingIdx (c : Nat) : Nat := 256 * c
def canFilterIdx (c f : Nat) : Nat := 4096 + 256 * c + f
def canBufferIdx (c b : Nat) : Nat := 8192 + 256 * c + b

/-- The CAN_BITTIME value of a controller in a scope, if its timing is set. -/
def Scope.canTiming (c : Scope) (ctrl : Nat) : Option Nat := (c.get 0x11 (canTimingIdx ctrl)).map fun r => u64 r 1

/-- The enabled filters of a controller, rising. -/
def Scope.canFilters (c : Scope) (ctrl : Nat) : List (Nat × Bytes) :=
  (upto 32).filterMap fun f => (c.get 0x11 (canFilterIdx ctrl f)).bind fun r => if bit (u8 r 2) 0 then some (f, r) else none

/-- The message buffers of a controller, rising. -/
def Scope.canBuffers (c : Scope) (ctrl : Nat) : List (Nat × Bytes) :=
  (upto 64).filterMap fun b => (c.get 0x11 (canBufferIdx ctrl b)).map fun r => (b, r)

/-! ### Records (R363, R365, R371) -/

/-- A CAN_BITTIME value in range (R363): nominal at most 1 Mbit/s, data at most 5 Mbit/s and no slower. -/
def canTimingRange (v : Nat) : Bool :=
  let n := (bits v 30 22 + 1) * (1 + (bits v 7 0 + 1) + (bits v 14 8 + 1))
  let d := (bits v 49 45 + 1) * (1 + (bits v 36 32 + 1) + (bits v 40 37 + 1))
  bits v 62 57 == 0 && bits v 31 31 == 0 && decide (80 ≤ n ∧ 16 ≤ d ∧ d ≤ n)

def canFilterRange (r : Bytes) : Bool :=
  r.length == 12 && (u8 r 0 == 1 || u8 r 0 == 2) && decide (u8 r 1 ≤ 31 ∧ u8 r 2 ≤ 7) && u8 r 3 == 0

def canBufferRange (r : Bytes) : Bool :=
  r.length == 12 && (u8 r 0 == 1 || u8 r 0 == 2)
    && decide (u8 r 1 ≤ 63 ∧ u8 r 2 ≤ 2 ∧ u8 r 3 ≤ 15 ∧ (u8 r 4 ≤ 15 ∨ u8 r 4 = 255)) && u8 r 5 == 0 && u16 r 6 % 4 == 0
    && bits (u32 r 8) 30 29 == 0

/-- Whether a grant record gives filter f (`part` 2) or buffer b (`part` 0) of a controller (R175). -/
def canGranted (g : Bytes) (ctrl part n : Nat) : Bool :=
  let o := 36 + 4 * ctrl + part
  decide (u8 g o ≤ n ∧ n < u8 g o + u8 g (o + 1))

/-- The stall that holds a filter or buffer: stall 0 when no other does (R365, R371, R502). -/
def State.canOwner (s : State) (ctrl part n : Nat) : Nat :=
  (((upto 63).map (· + 1)).find? fun st => match s.grant st with
    | some g => canGranted g ctrl part n
    | none => false).getD 0

/-- The conflicts of R371 in a scope, with the owners of the active grants. -/
def State.canConflict (s : State) (c : Scope) : Bool :=
  [1, 2].any fun k => (c.canBuffers k).any fun e =>
    if s.canOwner k 0 e.1 = 0 then u8 e.2 4 != 255 else u8 e.2 2 == 2 || u8 e.2 4 == 255

/-! ### Frame records (R370) -/

/-- Identifier bits of a frame as its filters see them. -/
def canIdent (f : CanFrame) : Nat := if f.ide then f.id.toNat else f.id.toNat % 2048

/-- A frame record: FILTER, AGE and OVERFLOW as given. -/
def canRecord (f : CanFrame) (filter age ns : Nat) (overflow : Bool) : Bytes :=
  beBytes 4 (2 ^ 31 + at_ (b2n overflow) 30 + at_ filter 24 + at_ (min age 255) 16 + at_ f.data.length 8 + at_ (b2n f.rtr) 4
      + at_ (b2n f.esi) 3 + at_ (b2n f.brs) 2 + at_ (b2n f.fdf) 1 + b2n f.ide)
    ++ beBytes 4 (canIdent f) ++ beBytes 4 ns ++ zeros 4 ++ fit 64 f.data

/-- The next data length that CAN FD allows. -/
def fdLength (n : Nat) : Nat :=
  if n ≤ 8 then n else if n ≤ 12 then 12 else if n ≤ 16 then 16 else if n ≤ 20 then 20 else if n ≤ 24 then 24
  else if n ≤ 32 then 32 else if n ≤ 48 then 48 else 64

/-- A frame to send, from its flags, LENGTH and data (R372). -/
def txFrame (rtr brs fdf ide : Bool) (len id : Nat) (data : Bytes) : CanFrame :=
  let n := if fdf then fdLength len else min len 8
  let d := fit n (data.take len)
  { ide := ide, fdf := fdf, brs := fdf && brs, esi := false, rtr := !fdf && rtr, id := BitVec.ofNat 29 (if ide then id else id % 2048), data := d }

/-- The frame in a 72-byte region of an image (R372). -/
def regionFrame (r : Bytes) : CanFrame :=
  let w := u32 r 0
  txFrame (bit w 4) (bit w 3) (bit w 2) (bit w 1) (bits w 15 8) (u32 r 4 % 2 ^ 29) (sub r 8 64)

/-- The frame in a frame record (R370). -/
def recordFrame (r : Bytes) : CanFrame :=
  let w := u32 r 0
  txFrame (bit w 4) (bit w 2) (bit w 1) (bit w 0) (bits w 15 8) (u32 r 4 % 2 ^ 29) (sub r 16 64)

/-! ### State access -/

def State.can (s : State) (sd : SideId) : CanSt := (s.side sd).can
def State.putCan (s : State) (sd : SideId) (c : CanSt) : State := s.modSide sd fun x => { x with can := c }
def State.canState (s : State) (sd : SideId) : Nat := s.rd (Rg.canStatus sd) Fd.canStatusState
def State.canOnBus (s : State) (sd : SideId) : Bool := decide (s.canState sd < 2) && (s.side sd).role != .out

/-- STATE follows the error counters (ISO 11898-1). -/
def State.canErrors (s : State) (sd : SideId) (tec rec : Nat) : State :=
  let t := (s.wr (Rg.canStatus sd) Fd.canStatusTec tec).wr (Rg.canStatus sd) Fd.canStatusRec rec
  t.wr (Rg.canStatus sd) Fd.canStatusState (if 128 ≤ tec ∨ 128 ≤ rec then 1 else 0)

/-! ### Reception (R365 to R367, R375) -/

/-- The filter that accepts a frame: the lowest-numbered enabled one that matches. -/
def Scope.canMatch (c : Scope) (ctrl : Nat) (f : CanFrame) : Option (Nat × Bytes) :=
  (c.canFilters ctrl).find? fun e => bit (u8 e.2 2) 1 == f.ide && ((canIdent f) &&& u32 e.2 4) == (u32 e.2 8 &&& u32 e.2 4)

/-- Receive buffers store the frame (R375). -/
def State.canStore (s : State) (sd : SideId) (f : CanFrame) (filter ns : Nat) : State :=
  (s.modActive.canBuffers (ctrlOf sd)).foldl (fun t e =>
    if u8 e.2 2 = 2 && bit (u32 e.2 8) 31 == f.ide && u32 e.2 8 % 2 ^ 29 == (canIdent f) then
      (t.setFlag (Rg.mbStatus sd e.1) Fd.mbStatusNd (!t.flag (Rg.mbStatus sd e.1) Fd.mbStatusNd)).putCan sd
        { t.can sd with frames := Tbl.put (t.can sd).frames e.1 (canRecord f filter 0 ns false) }
    else t) s

/-- Both sides hold an accepted frame: the other one over the bell lane, while that is carried. -/
def State.canHold (s : State) (h : CanHeld) : State :=
  s.forSides fun d t =>
    if (t.side d).role == .out || (d != ctrlSide h.ctrl && !t.bellCarried (ctrlSide h.ctrl)) then t
    else t.putCan d { t.can d with held := (t.can d).held ++ [h] }

def canQueueMax (q : Nat) : Nat := if q = 0 then 64 else 32

/-- CAN_FRAME_RECEIVE. -/
def State.canReceive (s : State) (sd : SideId) (f : CanFrame) (ns : Nat) : State :=
  if !s.canOnBus sd then s
  else
    let s1 := s.canErrors sd (s.rd (Rg.canStatus sd) Fd.canStatusTec) (s.rd (Rg.canStatus sd) Fd.canStatusRec - 1)
    match s1.modActive.canMatch (ctrlOf sd) f with
    | none => (s1.canStore sd f 0 ns).tick1 (Rg.canRxq sd) Fd.canRxqNoMatch
    | some (k, r) =>
      let s2 := s1.canStore sd f k ns
      let q := b2n (bit (u8 r 2) 2)
      let l := Tbl.getD (s2.can sd).queues q []
      let s3 :=
        if l.length < canQueueMax q then s2.putCan sd { s2.can sd with queues := Tbl.put (s2.can sd).queues q (l ++ [canRecord f k 0 ns false]) }
        else s2.setFlag (Rg.canRxq sd) (if q = 0 then Fd.canRxqQ0Ovf else Fd.canRxqQ1Ovf) true
      s3.canHold ⟨(ctrlOf sd), ns, f⟩

/-- Pop the oldest frame of a queue into RXQ_HEAD; VALID 0 when the queue was empty. -/
def State.rxqPop (s : State) (sd : SideId) (q : Nat) : State :=
  let c := s.can sd
  match Tbl.getD c.queues q [] with
  | r :: rest => s.putCan sd { c with queues := Tbl.put c.queues q rest, heads := Tbl.put c.heads q r }
  | [] => s.putCan sd { c with heads := Tbl.put c.heads q (zeros 80) }

/-- CAN_RXQ with its live occupancies. -/
def State.canRxqWord (s : State) (sd : SideId) : Nat :=
  let n (q : Nat) : Nat := (Tbl.getD (s.can sd).queues q []).length
  at_ (n 0) 25 + at_ (n 1) 19 + s.regWord (Rg.canRxq sd) % 2 ^ 19

/-! ### The sealed CAN image (R368, R369) -/

/-- Insertion by receive time, counted back from the T0 in ns that seals. -/
def insertHeld (t0 : Nat) (h : CanHeld) : List CanHeld → List CanHeld
  | [] => [h]
  | x :: rest =>
    let age (y : CanHeld) : Nat := (t0 + 1000000000 - y.ns) % 1000000000
    if age x < age h then h :: x :: rest else x :: insertHeld t0 h rest

/-- A frame was received before T0 of the tick that starts at `t0`: its receive time does not lie in that tick. -/
def canBefore (t0 : Nat) (h : CanHeld) : Bool := decide (208333 ≤ (h.ns + 1000000000 - t0 % 1000000000) % 1000000000)

/-- The frames a side holds for the bell of tick w, in order of receive time. -/
def State.canToSeal (s : State) (sd : SideId) (w : Nat) : List CanHeld :=
  (s.can sd).held.foldl (fun l h => insertHeld (tickStart w % 1000000000) h l) []

/-- A CAN entry of the bell (R41). -/
def canEntryBytes (h : CanHeld) : Bytes :=
  let f := h.frame
  beBytes 1 h.ctrl ++ beBytes 1 (b2n f.ide + b2n f.fdf * 2 + b2n f.brs * 4 + b2n f.esi * 8 + b2n f.rtr * 16)
    ++ beBytes 1 f.data.length ++ [0] ++ beBytes 4 (canIdent f) ++ beBytes 4 h.ns ++ padTo 4 f.data

/-- The bell of tick w seals frames: they leave what both sides hold, and stay for 4,800 ticks, the longest period. -/
def State.sealCan (s : State) (w : Nat) (l : List CanHeld) : State :=
  let new := l.map fun h => ({ ctrl := h.ctrl, bell := w, ns := h.ns, frame := h.frame } : CanSealed)
  let s1 := { s with canSealed := (s.canSealed.filter fun (e : CanSealed) => decide (w < e.bell + 9600)) ++ new }
  s1.forSides fun d t => t.putCan d { t.can d with held := (t.can d).held.filter fun h => !l.contains h }

/-- A KIND 5 entry (R369): frames sealed in the bells of the last `span` ticks up to w that belong to the stall. -/
def State.canInput (s : State) (w stall ctrl span : Nat) : Bytes :=
  let mine := s.canSealed.filterMap fun (e : CanSealed) =>
    if e.ctrl = ctrl ∧ w < e.bell + span ∧ e.bell ≤ w then
      match s.modActive.canMatch ctrl e.frame with
      | some (k, _) => if s.canOwner ctrl 2 k = stall then some (k, e) else none
      | none => none
    else none
  let kept := mine.drop (mine.length - 64)
  let recs := (kept.zip (upto 64)).map fun (x : (Nat × CanSealed) × Nat) =>
    canRecord x.1.2.frame x.1.1 (w - x.1.2.bell) x.1.2.ns (x.2 == 0 && decide (64 < mine.length))
  fit 5120 (recs.flatMap id)

/-! ### Transmission (R372 to R375) -/

/-- Whether tx a goes before tx b in arbitration: identifier, then buffer number. -/
def txBefore (a b : Nat × CanTx) : Bool :=
  decide ((canIdent a.2.frame) < (canIdent b.2.frame)) || ((canIdent a.2.frame) == (canIdent b.2.frame) && decide (a.1 < b.1))

/-- The pending buffer that wins arbitration. -/
def txWinner : List (Nat × CanTx) → Option (Nat × CanTx)
  | [] => none
  | e :: rest =>
    match txWinner rest with
    | some b => some (if txBefore b e then b else e)
    | none => some e

/-- The idle bus takes the winner (R373). -/
def State.canArbitrate (s : State) (sd : SideId) : State :=
  let c := s.can sd
  if c.bus.isSome || !s.canOnBus sd then s
  else match txWinner c.pend with
    | some e => s.putCan sd { c with bus := some e.1 }
    | none => s

/-- A request on a buffer (R374): behind a frame that was on the bus when one was made, else in place of the previous one. -/
def State.canPost (s : State) (sd : SideId) (b : Nat) (x : CanTx) : State :=
  let c := s.can sd
  let frames := Tbl.put c.frames b (canRecord x.frame 0 0 0 false)
  let c1 := if c.bus = some b ∨ Tbl.has c.next b then { c with next := Tbl.put c.next b x, frames := frames }
    else { c with pend := Tbl.put c.pend b x, frames := frames }
  (s.putCan sd c1).setFlag (Rg.mbStatus sd b) Fd.mbStatusPending true

def State.canRequest (s : State) (sd : SideId) (b : Nat) (x : CanTx) : State := (s.canPost sd b x).canArbitrate sd

/-- What a buffer does after its frame has left the bus for good: the request behind it follows, else nothing pends. -/
def State.canAfter (s : State) (sd : SideId) (b : Nat) : State :=
  let c := s.can sd
  match Tbl.find c.next b with
  | some x => s.putCan sd { c with bus := none, pend := Tbl.put c.pend b x, next := Tbl.del c.next b }
  | none => (s.putCan sd { c with bus := none, pend := Tbl.del c.pend b }).setFlag (Rg.mbStatus sd b) Fd.mbStatusPending false

/-- The frame of a buffer is abandoned (R373, R364). -/
def State.canAbandoned (s : State) (sd : SideId) (b : Nat) : State :=
  (s.setFlag (Rg.mbStatus sd b) Fd.mbStatusAbandoned true).tick1 (Rg.mbStatus sd b) Fd.mbStatusAbandons

/-- Bus-off (R364): every pending transmission is abandoned. -/
def State.canBusOff (s : State) (sd : SideId) : State :=
  if !s.canOnBus sd then s
  else
    let s1 := s.wr (Rg.canStatus sd) Fd.canStatusState 2
    let s2 := ((s1.can sd).pend ++ (s1.can sd).next).foldl (fun t e => (t.canAbandoned sd e.1).setFlag (Rg.mbStatus sd e.1) Fd.mbStatusPending false) s1
    s2.putCan sd { s2.can sd with pend := [], next := [], bus := none }

/-- Recovery after 128 × 11 recessive bits (R364). -/
def State.canRecovered (s : State) (sd : SideId) : State :=
  if s.canState sd = 2 then
    ((s.canErrors sd 0 0).setFlag (Rg.canStatus sd) Fd.canStatusBusOffSeen true).canArbitrate sd
  else s

/-- A controller with a bit timing joins the bus after 11 recessive bits (R363). -/
def State.canRejoin (s : State) (sd : SideId) : State :=
  if s.canState sd = 3 && (s.side sd).role != .out && (s.modActive.canTiming (ctrlOf sd)).isSome then (s.canErrors sd 0 0).canArbitrate sd
  else s

/-- Lost arbitration or an error (R373). -/
def State.canLoss (s : State) (sd : SideId) (error : Bool) : State :=
  let tec := s.rd (Rg.canStatus sd) Fd.canStatusTec
  let s0 := if error then s.canErrors sd (min (tec + 8) 255) (s.rd (Rg.canStatus sd) Fd.canStatusRec) else s
  match (s.can sd).bus with
  | none => s
  | some b =>
    if error && decide (255 < tec + 8) then s0.canBusOff sd
    else match Tbl.find (s0.can sd).pend b with
      | none => s0.putCan sd { s0.can sd with bus := none }
      | some x =>
        if x.left = 0 then ((s0.canAbandoned sd b).canAfter sd b).canArbitrate sd
        else
          ((s0.putCan sd { s0.can sd with bus := none, pend := Tbl.put (s0.can sd).pend b { x with left := x.left - 1 } }).tick1
            (Rg.mbStatus sd b) Fd.mbStatusTally).canArbitrate sd

/-- The frame on the bus completes (R374). -/
def State.canDone (s : State) (sd : SideId) : State :=
  match (s.can sd).bus with
  | none => s
  | some b =>
    match Tbl.find (s.can sd).pend b with
    | none => (s.putCan sd { s.can sd with bus := none }).canArbitrate sd
    | some x =>
      let s1 := s.canErrors sd (s.rd (Rg.canStatus sd) Fd.canStatusTec - 1) (s.rd (Rg.canStatus sd) Fd.canStatusRec)
      ((s1.emit (.can sd x.frame)).canAfter sd b).canArbitrate sd

/-- HOLD_PUBLISH, demotion, Out (R374): pending frames go, a frame on the bus completes without retries. -/
def State.canDrop (s : State) (sd : SideId) (which : Nat → Bool) : State :=
  let c := s.can sd
  let gone := c.pend.filter fun e => which e.1 && c.bus != some e.1
  let s1 := s.putCan sd
    { c with pend := (c.pend.filter fun e => !(which e.1 && c.bus != some e.1)).map (fun e => if which e.1 then (e.1, { e.2 with left := 0 }) else e)
             next := c.next.filter fun e => !which e.1
             asked := c.asked.filter fun e => !which e.1 }
  gone.foldl (fun t e => t.setFlag (Rg.mbStatus sd e.1) Fd.mbStatusPending false) s1

/-- One transmit buffer in the Collect phase (R372): `image` is what Collect presents for its task. -/
def State.canCollectOne (s : State) (sd : SideId) (e : Nat × Bytes) : State :=
  let c := s.can sd
  let b := e.1
  match Tbl.find (s.side sd).presented (taskKey (s.canOwner (ctrlOf sd) 0 b) (u8 e.2 4)) with
  | none => s.putCan sd { c with serials := Tbl.del c.serials b }
  | some image =>
    let r := sub image (u16 e.2 6) 72
    let serial := bits (u32 r 0) 31 16
    let asks := bit (u32 r 0) 0 && Tbl.find c.serials b != some serial
    s.putCan sd { c with serials := Tbl.put c.serials b serial
                         asked := if asks then Tbl.put c.asked b ⟨regionFrame r, u8 e.2 3⟩ else c.asked }

/-- The transmit buffers of a side in the Collect phase. -/
def State.canCollect (s : State) (sd : SideId) : State :=
  ((s.modActive.canBuffers (ctrlOf sd)).filter fun e => u8 e.2 2 == 1 && u8 e.2 4 != 255 && s.canOwner (ctrlOf sd) 0 e.1 != 0).foldl
    (fun t e => t.canCollectOne sd e) s

/-- A stall enters Running: the next image of each of its buffers is the first (R372). -/
def State.freshSerials (s : State) (stall : Nat) : State :=
  s.forSides fun sd t => t.putCan sd { t.can sd with serials := (t.can sd).serials.filter fun e => t.canOwner (ctrlOf sd) 0 e.1 != stall }

/-- T0 of the next tick: the requests are made together, those of a stall whose frames are withheld (R58) not. A side that may
not send makes none; unless it `keeps` what is pending that is dropped too. -/
def State.canRelease (s : State) (sd : SideId) (may keeps : Bool) : State :=
  let asked := (s.can sd).asked
  let s1 := s.putCan sd { s.can sd with asked := [] }
  let free := asked.filter fun e => !(s.side sd).withheld.contains (s.canOwner (ctrlOf sd) 0 e.1)
  if may then (free.foldl (fun t e => t.canPost sd e.1 e.2) s1).canArbitrate sd
  else if keeps then s1 else s1.canDrop sd fun _ => true

/-- A module castling (R363, R371, R374): `old` is the scope that was active. -/
def State.castledCan (s : State) (old : Scope) : State :=
  s.forSides fun sd t =>
    let k := (ctrlOf sd)
    let changed (b : Nat) : Bool := decide (old.get 0x11 (canBufferIdx k b) ≠ t.modActive.get 0x11 (canBufferIdx k b))
    let t1 := t.canDrop sd fun b => match t.modActive.get 0x11 (canBufferIdx k b) with
      | some r => u8 r 2 != 1
      | none => true
    let t2 := t1.putCan sd { t1.can sd with serials := (t1.can sd).serials.filter fun e => !changed e.1 }
    if old.canTiming k = t2.modActive.canTiming k then t2
    else (t2.wr (Rg.canStatus sd) Fd.canStatusState 3).putCan sd { t2.can sd with bus := none }

/-! ### Registers and commands -/

/-- MB_STATUS[b]: MODE, RETRY and OWNER from the configuration, the rest as stored. -/
def State.mbStatusWord (s : State) (sd : SideId) (b : Nat) : Nat :=
  let r := (s.modActive.get 0x11 (canBufferIdx (ctrlOf sd) b)).getD (zeros 12)
  let w := s.regWord (Rg.mbStatus sd b)
  at_ (u8 r 2) 30 + at_ (bits w 29 27) 27 + at_ (u8 r 3) 23 + at_ (s.canOwner (ctrlOf sd) 0 b) 16 + w % 65536

def cmdCanSetTiming (_ : CmdHdr) (p : Bytes) (s : State) : CmdOut :=
  if (u8 p 0 == 1 || u8 p 0 == 2) && canTimingRange (u64 p 1) then
    done (s.modifyModShadow fun c => c.putRec 0x11 (canTimingIdx (u8 p 0)) p) []
  else refuse s .range

def cmdCanSetFilter (_ : CmdHdr) (p : Bytes) (s : State) : CmdOut :=
  if canFilterRange p then done (s.modifyModShadow fun c => c.putRec 0x11 (canFilterIdx (u8 p 0) (u8 p 1)) p) [] else refuse s .range

def cmdCanSetBuffer (_ : CmdHdr) (p : Bytes) (s : State) : CmdOut :=
  if canBufferRange p then done (s.modifyModShadow fun c => c.putRec 0x11 (canBufferIdx (u8 p 0) (u8 p 1)) p) [] else refuse s .range

def cmdCanStatus (h : CmdHdr) (_ : Bytes) (s : State) : CmdOut :=
  done s ((fitItems h 0 (bothSides.flatMap fun sd =>
    [beBytes 4 (s.regWord (Rg.canStatus sd)), beBytes 4 (s.canRxqWord sd)] ++ (upto 64).map fun b => beBytes 4 (s.mbStatusWord sd b))).flatMap id)

def cmdCanReadQueue (h : CmdHdr) (p : Bytes) (s : State) : CmdOut :=
  let q := u8 p 0
  let n := u8 p 1
  if 1 < q ∨ n = 0 ∨ 12 < n then refuse s .range
  else
    let l := Tbl.getD (s.can h.side).queues q []
    let out := fitItems h 0 (l.take n)
    done (s.putCan h.side { s.can h.side with queues := Tbl.put (s.can h.side).queues q (l.drop out.length) }) (out.flatMap id)

def cmdCanSend (h : CmdHdr) (p : Bytes) (s : State) : CmdOut :=
  let b := u8 p 0
  let sd := h.side
  if 63 < b then refuse s .range
  else if s.canOwner (ctrlOf sd) 0 b ≠ 0 then refuse s .noRight
  else match s.modActive.get 0x11 (canBufferIdx (ctrlOf sd) b) with
    | none => refuse s .state
    | some r =>
      if u8 r 2 ≠ 1 ∨ u8 r 4 ≠ 255 ∨ s.holdPublish sd then refuse s .state
      else done (s.canRequest sd b ⟨recordFrame (p.drop 1), u8 r 3⟩) []

/-- A tenant may name its own filters and buffers (R399). -/
def ownsCan (part : Nat) : State → Bytes → Nat → Bool := fun s p st => s.canOwner (u8 p 0) part (u8 p 1) == st

def specCanSetTiming : CmdSpec := ⟨0x0E00, always .engineer, fun _ => true, lenIs 9, false, ownsNone, true, cmdCanSetTiming⟩
def specCanSetFilter : CmdSpec := ⟨0x0E01, always .engineer, fun _ => true, lenIs 12, false, ownsCan 2, true, cmdCanSetFilter⟩
def specCanSetBuffer : CmdSpec := ⟨0x0E02, always .engineer, fun _ => true, lenIs 12, false, ownsCan 0, true, cmdCanSetBuffer⟩
def specCanStatus : CmdSpec := ⟨0x0E03, always .observer, fun _ => false, lenIs 0, false, ownsNone, false, cmdCanStatus⟩
def specCanReadQueue : CmdSpec := ⟨0x0E04, always .observer, fun _ => false, lenIs 2, false, ownsNone, true, cmdCanReadQueue⟩
def specCanSend : CmdSpec := ⟨0x0E05, always .operator, fun _ => false, lenIs 81, false, fun _ _ _ => false, true, cmdCanSend⟩

def execCanSetTiming (h : CmdHdr) (p : Bytes) (s : State) : Host.Outcome State Fault Refusal := runCmd specCanSetTiming h p s
def execCanSetFilter (h : CmdHdr) (p : Bytes) (s : State) : Host.Outcome State Fault Refusal := runCmd specCanSetFilter h p s
def execCanSetBuffer (h : CmdHdr) (p : Bytes) (s : State) : Host.Outcome State Fault Refusal := runCmd specCanSetBuffer h p s
def execCanStatus (h : CmdHdr) (p : Bytes) (s : State) : Host.Outcome State Fault Refusal := runCmd specCanStatus h p s
def execCanReadQueue (h : CmdHdr) (p : Bytes) (s : State) : Host.Outcome State Fault Refusal := runCmd specCanReadQueue h p s
def execCanSend (h : CmdHdr) (p : Bytes) (s : State) : Host.Outcome State Fault Refusal := runCmd specCanSend h p s

def execCanFrameReceive (sd : SideId) (f : CanFrame) (ns : Word) (s : State) : Host.Outcome State Fault Refusal :=
  .next (s.canReceive sd f (ns.toNat % 1000000000))
def execCanBusOff (sd : SideId) (s : State) : Host.Outcome State Fault Refusal := .next (s.canBusOff sd)
def execCanBusOffRecovery (sd : SideId) (s : State) : Host.Outcome State Fault Refusal := .next (s.canRecovered sd)
def execCanBusRejoin (sd : SideId) (s : State) : Host.Outcome State Fault Refusal := .next (s.canRejoin sd)
def execCanArbitrationLoss (sd : SideId) (error : Bool) (s : State) : Host.Outcome State Fault Refusal := .next (s.canLoss sd error)
def execCanTxDone (sd : SideId) (s : State) : Host.Outcome State Fault Refusal := .next (s.canDone sd)
def execRxqHeadRead (sd : SideId) (q : Fin 2) (s : State) : Host.Outcome State Fault Refusal := .next (s.rxqPop sd q.val)

end Sys2Proof.Machine
end

