-- ==== Sys2Proof/Machine/Forces.lean ====
section
/-! DEFINITION. Forcing (R130 to R134): the force table and its commands. -/

namespace Sys2Proof.Machine

/-- Symbolic codes of the force events (R132; the spec gives them no number). -/
def evForceSet : Nat := 0x1001
def evForceReplaced : Nat := 0x1002
def evForceCleared : Nat := 0x1003
def evForceExpired : Nat := 0x1004

/-- The body of a force record: handle, target, value, the origin that set the force (R132). -/
def forceBody (handle : Nat) (f : Force) : Bytes :=
  beBytes 2 handle ++ beBytes 1 f.kind ++ beBytes 1 f.stall ++ beBytes 1 f.task ++ beBytes 1 f.width ++ zeros 2
    ++ beBytes 4 f.offset ++ beBytes 4 f.qual ++ beBytes 8 f.value ++ beBytes 4 f.origin

/-- A force record in the Ledger, whose ORIGIN is that of the command which caused it (R132, R321). -/
def State.forceEvent (s : State) (code handle : Nat) (f : Force) (origin : Nat) : State :=
  s.ledger ⟨3, f.stall, 0, code, origin, recBody (forceBody handle f), false, false⟩

/-- Whether two forces act on the same target. -/
def sameTarget (a b : Force) : Bool :=
  a.kind == b.kind && a.stall == b.stall && (a.kind == 3 || a.task == b.task) && a.offset == b.offset

/-- The force on a target. -/
def State.forceOn (s : State) (f : Force) : Option Nat := (s.forces.find? fun e => sameTarget e.2 f).map (·.1)

/-- The lowest free handle. -/
def State.freeHandle (s : State) : Option Nat := (upto 256).find? fun h => !Tbl.has s.forces h

/-- Remove a force, with its Ledger record. -/
def State.dropForce (s : State) (code handle origin : Nat) : State :=
  match Tbl.find s.forces handle with
  | some f => ({ s with forces := Tbl.del s.forces handle }).forceEvent code handle f origin
  | none => s

/-- Remove every force of a stall (R133, R183, R425). -/
def State.dropForcesOf (s : State) (stall origin : Nat) : State :=
  ((s.forces.filter fun e => e.2.stall == stall).map (·.1)).foldl (fun t h => t.dropForce evForceCleared h origin) s

/-- FORCE_MAX in minutes (R133). -/
def State.forceMax (s : State) : Nat := s.rd Rg.scanCfg Fd.scanCfgForceMax

/-- The variables of stall outputs that feed a safety-function output (R134): the processor permit words. -/
def State.feedsSafety (s : State) (stall task offset : Nat) : Bool :=
  stall == 63 || (safeInstances s.safeActive).any fun i => stall == 63 && u8 i 14 == task && u16 i 16 == offset

/-- The force a FORCE_SET names (R135). -/
def forceOfParams (h : CmdHdr) (p : Bytes) (now : Nat) : Force :=
  { kind := u8 p 0, stall := u8 p 1, task := u8 p 2, width := u8 p 3, offset := u32 p 4, qual := u32 p 8
    validity := u8 p 12, value := u64 p 20, origin := h.origin.toNat, apply := now, expiry := now + 4800 * u32 p 16 }

/-- A quality offset, where one is given, names a word inside an image. -/
def Force.qualIn (f : Force) (size : Nat) : Bool := f.qual == 0xFFFFFFFF || (f.qual % 4 == 0 && decide (f.qual + 4 ≤ size))

/-- The range checks of FORCE_SET: kind, width, the target inside its image, duration 1 s to FORCE_MAX. The quality word of
a field channel lies in the input image of the task named, or for an output in its output image (DEDUCED). -/
def State.forceRange (s : State) (f : Force) (secs : Nat) : Bool :=
  let size (input : Bool) : Nat := match s.task f.stall f.task with
    | some t => if input then t.inSize else t.outSize
    | none => 0
  decide (1 ≤ f.kind ∧ f.kind ≤ 3 ∧ f.stall ≤ 63 ∧ f.validity ≤ 3 ∧ 1 ≤ secs ∧ secs ≤ 60 * s.forceMax) && (f.width == 4 || f.width == 8) &&
    (if f.kind = 3 then decide (1 ≤ f.offset ∧ f.offset ≤ 32) && s.fieldOwner f.stall f.offset && (f.qualIn (size true) || f.qualIn (size false))
     else f.offset % 4 == 0 && (s.task f.stall f.task).isSome && decide (f.offset + f.width ≤ size (f.kind == 1)) && f.qualIn (size (f.kind == 1)))

/-- FORCE_SET (R131, R133 to R135). -/
def cmdForceSet (h : CmdHdr) (p : Bytes) (s : State) : CmdOut :=
  let f := forceOfParams h p s.now
  let st := s.stallState f.stall
  if (f.kind = 3 ∧ s.isSafeChannel f.offset) ∨ s.feedsSafety f.stall f.task f.offset then refuse s .safetyLocked
  else if f.stall ≤ 63 ∧ ¬(st = stLoaded ∨ st = stRunning) then refuse s .state
  else if !s.forceRange f (u32 p 16) then refuse s .range
  else
    match s.forceOn f with
    | some k => done ({ s with forces := Tbl.put s.forces k f }.forceEvent evForceReplaced k f f.origin) (beBytes 2 k)
    | none =>
      match s.freeHandle with
      | some k => done ({ s with forces := Tbl.put s.forces k f }.forceEvent evForceSet k f f.origin) (beBytes 2 k)
      | none => refuse s .noResource

/-- FORCE_CLEAR (R135): one force, or every force of the stall in the header, or of the module. With origin 0,
the module itself (R321), it is the expiry that the active side lists (R133): a force replaced meanwhile has not reached
its own. -/
def cmdForceClear (h : CmdHdr) (p : Bytes) (s : State) : CmdOut :=
  let k := u16 p 0
  if k = 0xFFFF then
    if h.stall = 0 then done (s.forces.foldl (fun t e => t.dropForce evForceCleared e.1 h.origin.toNat) s) []
    else done (s.dropForcesOf h.stall.toNat h.origin.toNat) []
  else if h.origin = 0 && (match Tbl.find s.forces k with | some f => decide (s.now < f.expiry) | none => true) then done s []
  else if Tbl.has s.forces k then done (s.dropForce (if h.origin = 0 then evForceExpired else evForceCleared) k h.origin.toNat) []
  else refuse s .range

/-- One entry of FORCE_LIST: target (the fields that name it in FORCE_SET, in their order), value, validity, origin, apply
tick, expiry tick, one after another (R135, R499). -/
def forceItem (e : Nat × Force) : Bytes :=
  let f := e.2
  beBytes 1 f.kind ++ beBytes 1 f.stall ++ beBytes 1 f.task ++ beBytes 1 f.width ++ beBytes 4 f.offset ++ beBytes 4 f.qual
    ++ beBytes 8 f.value ++ beBytes 1 f.validity ++ beBytes 4 f.origin ++ beBytes 8 f.apply ++ beBytes 8 f.expiry

/-- FORCE_LIST (R135). -/
def cmdForceList (h : CmdHdr) (p : Bytes) (s : State) : CmdOut :=
  let n := u16 p 2
  if n < 1 ∨ 64 < n then refuse s .range
  else done s ((fitItems h 0 (((s.forces.filter fun e => decide (u16 p 0 ≤ e.1)).take n).map forceItem)).flatten)

/-- SCAN_SET_FORCE_MAX (R133, R135). -/
def cmdScanSetForceMax (_ : CmdHdr) (p : Bytes) (s : State) : CmdOut :=
  let m := u16 p 0
  if 1 ≤ m ∧ m ≤ 1440 then done (s.wr Rg.scanCfg Fd.scanCfgForceMax m) [] else refuse s .range

def specForceSet : CmdSpec := ⟨0x0510, always .engineer, fun _ => true, lenIs 28, false, fun _ p st => u8 p 1 == st, true, cmdForceSet⟩
def specForceClear : CmdSpec :=
  ⟨0x0511, always .engineer, fun _ => true, lenIs 2, false,
    fun s p st => u16 p 0 == 0xFFFF || (match Tbl.find s.forces (u16 p 0) with | some f => f.stall == st | none => true), true, cmdForceClear⟩
def specForceList : CmdSpec := ⟨0x0512, always .observer, fun _ => false, lenIs 4, false, ownsAny, false, cmdForceList⟩
def specScanSetForceMax : CmdSpec := ⟨0x0513, always .manager, fun _ => true, lenIs 2, false, ownsNone, true, cmdScanSetForceMax⟩

/-- FORCE_SET (R131): sets or replaces a force. -/
def execForceSet (h : CmdHdr) (p : Bytes) (s : State) : Host.Outcome State Fault Refusal := runCmd specForceSet h p s
/-- FORCE_CLEAR (R131): clears one or all forces. -/
def execForceClear (h : CmdHdr) (p : Bytes) (s : State) : Host.Outcome State Fault Refusal := runCmd specForceClear h p s
/-- FORCE_LIST (R135): lists active forces. -/
def execForceList (h : CmdHdr) (p : Bytes) (s : State) : Host.Outcome State Fault Refusal := runCmd specForceList h p s
/-- SCAN_SET_FORCE_MAX (R133): sets the longest force duration. -/
def execScanSetForceMax (h : CmdHdr) (p : Bytes) (s : State) : Host.Outcome State Fault Refusal := runCmd specScanSetForceMax h p s

/-- FORCE_EXPIRY (R133): a force that has reached its expiry is cleared at the bell of that tick. -/
def execForceExpiry (handle : BitVec 8) (s : State) : Host.Outcome State Fault Refusal :=
  match Tbl.find s.forces handle.toNat with
  | some f => if f.expiry ≤ s.now then .next (s.dropForce evForceExpired handle.toNat 0) else .next s
  | none => .next s

end Sys2Proof.Machine
end

