-- ==== Sys2Proof/Machine/StallOps.lean ====
section
/-! DEFINITION. The stall state machine (R178 to R182, R425): initialising a stall's tasks, resets, what a castling does
to a stall. -/

namespace Sys2Proof.Machine

/-- Every task of a stall starts afresh on both sides: RET from INIT, OUT from FAILSAFE (R179, R180). -/
def State.initTasks (s : State) (stall : Nat) : State :=
  match s.program stall with
  | none => s
  | some img =>
    (tasksOf img).foldl (fun t k =>
      let st : TaskSt := ⟨failsafeOf img k, initOf img k, false, true, 0, []⟩
      (t.putTaskSt .A stall k.task st).putTaskSt .B stall k.task st) s

/-- Clear a stall's tally (R180). -/
def State.clearTally (s : State) (stall : Nat) : State := { s with tally := Tbl.del s.tally stall }

/-- No activation of the stall runs any further in this tick (R180): what its cores still hold of it is dropped. -/
def State.dropActs (s : State) (stall : Nat) : State :=
  s.forSides fun sd t => t.modSide sd fun x => { x with cores := x.cores.map fun (e : Nat × CoreSt) => (e.1, { e.2 with
    queue := e.2.queue.filter fun q => q.1 != stall, cur := e.2.cur.filter fun a => a.stall != stall }) }

/-- The reset of R180 in this tick. -/
def State.resetStall (s : State) (stall : Nat) : State :=
  (((s.initTasks stall).clearTally stall).dropActs stall).setStallState stall stResetting

/-- The stall enters Running (R179). -/
def State.startStall (s : State) (stall : Nat) : State := ((s.initTasks stall).setStallState stall stRunning).freshSerials stall

/-- FAULT_LIMIT of the active grant. -/
def State.faultLimit (s : State) (stall : Nat) : Nat := gNum (s.grant stall) fun g => u8 g 1

/-- The stall-reset notice of R128: the automatic-reset count rises; at FAULT_LIMIT the stall is Faulted (R179, R181) and
keeps its tally. A stall already Resetting or Faulted sees no further effect (R182). -/
def State.tallyReset (s : State) (stall : Nat) : State :=
  if s.stallState stall = stRunning then
    let s1 := s.tick1 (Rg.stallState stall) Fd.stallStateAutoResets
    let limit := s.faultLimit stall
    if limit ≠ 0 ∧ limit ≤ s1.rd (Rg.stallState stall) Fd.stallStateAutoResets then
      (s1.dropActs stall).setStallState stall stFaulted
    else s1.resetStall stall
  else s

/-- Every Resetting stall is Running from the next tick (R179). -/
def State.endResets (s : State) : State :=
  allStalls.foldl (fun t k => if t.stallState k = stResetting then (t.setStallState k stRunning).freshSerials k else t) { s with noticeReset := [] }

/-- A stall's program laid out on one of its clusters (R137, R144): its code, then the segments of its tasks there in
ascending TASK, each a whole number of 64-byte lines. -/
def sliceRows (codeLen limit : Nat) : Nat → List Task → List (Nat × Slice)
  | _, [] => []
  | at0, t :: rest =>
    let out := at0 + round64 t.inSize
    let ret := out + round64 t.outSize
    let loc := ret + round64 t.retSize
    (t.task, ⟨(0, codeLen), (at0, t.inSize), (out, t.outSize), (ret, t.retSize), (loc, t.locSize), limit⟩)
      :: sliceRows codeLen limit (loc + round64 t.locSize) rest

/-- The slice tables of a stall, cluster by cluster, built on both sides at a castling. -/
def State.buildSlices (s : State) (stall : Nat) : State :=
  let rows : List (Nat × Slice) := match s.program stall with
    | none => []
    | some img => (upto 10).flatMap fun l =>
      let ts := (tasksOf img).filter fun (t : Task) => t.cluster == l
      sliceRows (u32 img 12) (65536 * gNum (s.grant stall) (gMem l)) (round64 (u32 img 12)) ts
  s.forSides fun sd t => t.modSide sd fun x =>
    { x with slices := rows.foldl (fun m e => Tbl.put m (taskKey stall e.1) e.2) (x.slices.filter fun e => e.1 / 16 != stall) }

/-- What a castling of a stall's scope does to the stall (R425): `old` is the program image before, the active scope
already holds the new one,
`origin` sent the castling. -/
def State.castledProgram (s : State) (stall : Nat) (old : Option Bytes) (origin : Nat) : State :=
  let new := s.program stall
  if new = old then s
  else
    let st := s.stallState stall
    let s1 := s.dropForcesOf stall origin
    match new with
    | none => if st = stEmpty then s1 else (s1.dropActs stall).setStallState stall stCreated
    | some _ =>
      if st = stRunning then s1.resetStall stall
      else if st = stCreated then s1.setStallState stall stLoaded
      else if st = stResetting then s1.resetStall stall
      else s1

/-! ### Regions (R315, R317) -/

/-- The segments that a grant gives a stall's region: the module region for stall 0. -/
def grantLedger (stall : Nat) (grant : Option Bytes) : Nat := if stall = 0 then 896 else if stall = 63 then 128 else gNum grant gLedger

/-- The segments of a stall's region. -/
def State.regionCap (s : State) (stall : Nat) : Nat := grantLedger stall (s.grant stall)

/-- Where the segments of a region that no castling sizes begin in the module area (R315): after the tenants' 2,048 the
module region, then that of stall 63. -/
def regionBase (stall : Nat) : Nat := if stall = 0 then 2048 else if stall = 63 then 2944 else 0

def State.region (s : State) (stall : Nat) : LRegion := Tbl.getD s.regions stall ⟨[], s.regionCap stall, [], regionBase stall⟩

/-- Segments given back to the tenants' 2,048, with their places and EPOCHs, the empty ones among them. -/
def givenSegs (segs : List LSeg) (spare : List (Nat × Nat)) : List LSeg :=
  segs ++ spare.map fun e => ⟨e.1, e.2, 0, [], 0⟩

/-- A LEDGER grant has changed from `old` segments (R317): a smaller region loses its oldest segments; a larger one gets empty
segments after its newest, first segments that no region has used, then the ones given back longest ago, which are reused
now and lose their records. -/
def State.resizeRegion (s : State) (stall old : Nat) : State :=
  let new := s.regionCap stall
  let g := Tbl.getD s.regions stall ⟨[], old, [], regionBase stall⟩
  if new = old then s
  else if new < old then
    let lost := (g.segs.take (g.segs.length - new)).map fun x => { x with recs := [] }
    let segs := trimSegs new g.segs
    let keep := new - segs.length
    { s with regions := Tbl.put s.regions stall { g with segs := segs, cap := new, spare := g.spare.take keep }
             freed := s.freed ++ givenSegs lost (g.spare.drop keep) }
  else
    let n := new - old
    let unused := min n (2048 - s.ledgerFresh)
    let taken := (s.freed.take (n - unused)).map fun x => (x.place, x.epoch + b2n (x.used != 0))
    { s with regions := Tbl.put s.regions stall
               { g with cap := new, spare := g.spare ++ ((upto unused).map fun i => (s.ledgerFresh + i, 0)) ++ taken }
             freed := s.freed.drop (n - unused), ledgerFresh := s.ledgerFresh + unused }

/-- A stall is deleted: its segments go back to the pool and keep their records until they are reused (R183, R317). -/
def State.freeRegion (s : State) (stall : Nat) : State :=
  let g := s.region stall
  { (s.putReg (Rg.ledgerRegion stall) 0) with regions := Tbl.del s.regions stall, freed := s.freed ++ givenSegs g.segs g.spare }

end Sys2Proof.Machine
end

