-- ==== Sys2Proof/Machine/StallCmds.lean ====
section
/-! DEFINITION. The stall commands and registers (R174 to R193). -/

namespace Sys2Proof.Machine

/-! ### Registers that show the stalls -/

def State.stallPoolWord (s : State) : Nat := s.memFree * 2 ^ 16 + s.cycFree
def State.stallPool2Word (s : State) : Nat := s.captFree * 2 ^ 17 + s.svFree * 2 ^ 10 + s.gooseFree
def State.stallPool3Word (s : State) : Nat := s.ringsFree * 2 ^ 26 + s.eqFree * 2 ^ 12 + s.ledgerFree
def State.clusterMemWord (s : State) (l : Nat) : Nat := s.reserveUsed l * 2 ^ 8 + s.clusterFree l
def State.stallStateWord (s : State) (st : Nat) : Nat :=
  s.rd (Rg.stallState st) Fd.stallStateAutoResets * 2 ^ 24 + s.faultLimit st * 2 ^ 16
    + b2n (s.grant st != s.shadowGrant st) * 2 ^ 7 + s.stallState st
def State.stallGrantWord (s : State) (st : Nat) : Nat := gNum (s.grant st) gMemAll * 2 ^ 16 + gNum (s.grant st) gCycles
def State.stallDemandWord (s : State) (st : Nat) : Nat := cycleDemand (s.tasks st)

/-! ### Effects -/

/-- The rings of a side that a stall owns. -/
def State.ringsOf (s : State) (sd : SideId) (stall : Nat) : List Nat :=
  (upto 64).filter fun r => s.rd (Rg.ringCfg sd r) Fd.ringCfgKind != 0 && s.rd (Rg.ringCfg sd r) Fd.ringCfgOwner == stall

/-- STALL_CREATE at its bell (R176, R179): its Ledger region gets its segments (R317). -/
def State.createStall (s : State) (g : Bytes) : State :=
  let st := u8 g 0
  let scope : Scope := Scope.empty.putRec 0x20 0 g
  let s1 := { s with stallActive := Tbl.put s.stallActive st scope, stallShadow := Tbl.put s.stallShadow st scope
                     regions := Tbl.del s.regions st }
  ((s1.resizeRegion st 0).putReg (Rg.stallState st) 0).setStallState st stCreated

/-- What a stall loses when it is deleted (R183, R312). -/
def State.deleteStall (s : State) (st origin : Nat) : State :=
  let s1 := ((s.stallScope st).block 0x25).foldl (fun t e => t.forSides fun sd u => (u.captStop sd e.1 e.2).setCaptState sd e.1 csNone) s
  let s2 := s1.dropForcesOf st origin
  let s3 := s2.forSides fun sd t =>
    let u := (t.ringsOf sd st).foldl (fun v r => (v.resetRing sd r).putReg (Rg.ringCfg sd r) 0) t
    (upto 256).foldl (fun v i =>
      if v.flag (Rg.pasidMap sd i) Fd.pasidMapValid && v.rd (Rg.pasidMap sd i) Fd.pasidMapStall == st then v.putReg (Rg.pasidMap sd i) 0 else v) u
  let s4 := { s3.freeRegion st with stallActive := Tbl.del s3.stallActive st, stallShadow := Tbl.del s3.stallShadow st }
  let s5 := s4.forSides fun sd t => t.modSide sd fun y => { y with tasks := y.tasks.filter fun e => e.1 / 16 != st }
  ((s5.dropActs st).clearTally st).putReg (Rg.stallState st) stEmpty

/-! ### Commands (R193) -/

/-- The checks of R176 but for the state. -/
def State.grantChecks (s : State) (g : Bytes) : Option CmdOut :=
  let st := u8 g 0
  if s.grantConflict st g then some (refuse s .conflict)
  else match s.poolsCheck st g with
    | some r => some (refuseWith s .noResource (beBytes 2 r.1 ++ beBytes 4 r.2))
    | none => none

def cmdStallCreate (_ : CmdHdr) (p : Bytes) (s : State) : CmdOut :=
  let st := u8 p 0
  if st = 0 ∨ 62 < st ∨ !grantRange p then refuse s .range
  else if s.stallState st ≠ stEmpty then refuse s .state
  else match s.grantChecks p with
    | some r => r
    | none => done (s.createStall p) []

def cmdStallDelete (h : CmdHdr) (p : Bytes) (s : State) : CmdOut :=
  let st := u8 p 0
  if st = 0 ∨ 62 < st then refuse s .range
  else
    let q := s.stallState st
    if q = stRunning ∨ q = stResetting ∨ q = stEmpty then refuse s .state else done (s.deleteStall st h.origin.toNat) []

def cmdStallResize (_ : CmdHdr) (p : Bytes) (s : State) : CmdOut :=
  let st := u8 p 0
  if st = 0 ∨ 62 < st ∨ !grantRange p then refuse s .range
  else if s.stallState st = stEmpty then refuse s .state
  else match s.grantChecks p with
    | some r => r
    | none => done (s.modifyStallShadow st fun c => c.putRec 0x20 0 p) []

def cmdStallDropShadow (_ : CmdHdr) (p : Bytes) (s : State) : CmdOut :=
  let st := u8 p 0
  if st = 0 ∨ 62 < st then refuse s .range
  else if s.stallState st = stEmpty then refuse s .state
  else match s.grant st with
    | some g => done (s.modifyStallShadow st fun c => c.putRec 0x20 0 g) []
    | none => refuse s .state

def cmdStallStart (_ : CmdHdr) (p : Bytes) (s : State) : CmdOut :=
  let st := u8 p 0
  if 63 < st then refuse s .range
  else if s.leaseHeld lkTimeStep then refuse s .conflict
  else if s.stallState st = stLoaded then done (s.startStall st) []
  else if s.stallState st = stRunning then done s []
  else refuse s .state

def cmdStallStop (_ : CmdHdr) (p : Bytes) (s : State) : CmdOut :=
  let st := u8 p 0
  if 63 < st then refuse s .range
  else if st = 63 then refuse s .safetyLocked
  else
    let q := s.stallState st
    if q = stRunning ∨ q = stFaulted ∨ (q = stResetting ∧ s.noticeReset.contains st) then
      done ((s.dropActs st).setStallState st stLoaded) []
    else if q = stLoaded then done s []
    else refuse s .state

def cmdStallReset (_ : CmdHdr) (p : Bytes) (s : State) : CmdOut :=
  let st := u8 p 0
  if 63 < st then refuse s .range
  else if s.stallState st = stRunning then done (s.resetStall st) []
  else if s.stallState st = stFaulted then done ((s.resetStall st).wr (Rg.stallState st) Fd.stallStateAutoResets 0) []
  else refuse s .state

/-- STALL_READ; a record of stall 0 or 63 that its scope does not hold reads as zeros with its STALL byte. -/
def cmdStallRead (_ : CmdHdr) (p : Bytes) (s : State) : CmdOut :=
  let st := u8 p 0
  if 63 < st ∨ 1 < u8 p 1 then refuse s .range
  else
    match (if u8 p 1 = 0 then s.grant st else s.shadowGrant st) with
    | some g => done s g
    | none => if st = 0 ∨ st = 63 then done s (p.take 1 ++ zeros 127) else refuse s .state

def cmdStallStatus (_ : CmdHdr) (p : Bytes) (s : State) : CmdOut :=
  let st := u8 p 0
  if 63 < st then refuse s .range
  else done s (beBytes 4 (s.stallStateWord st) ++ beBytes 4 (s.stallGrantWord st) ++ beBytes 4 (s.stallDemandWord st))

def cmdStallPool (_ : CmdHdr) (_ : Bytes) (s : State) : CmdOut :=
  done s (beBytes 4 s.stallPoolWord ++ beBytes 4 s.stallPool2Word ++ beBytes 4 s.stallPool3Word
    ++ (upto 10).flatMap fun l => beBytes 4 (s.clusterMemWord l))

/-- The entry of a PASID on a side. -/
def State.pasidEntry (s : State) (sd : SideId) (pasid : Nat) : Option Nat :=
  (upto 256).find? fun i => s.flag (Rg.pasidMap sd i) Fd.pasidMapValid && s.rd (Rg.pasidMap sd i) Fd.pasidMapPasid == pasid

def cmdStallMapPasid (h : CmdHdr) (p : Bytes) (s : State) : CmdOut :=
  let pasid := u32 p 0
  let st := u8 p 4
  if 0xFFFFF < pasid ∨ 62 < st then refuse s .range
  else if (s.pasidEntry h.side pasid).isSome then refuse s .conflict
  else match (upto 256).find? fun i => !s.flag (Rg.pasidMap h.side i) Fd.pasidMapValid with
    | none => refuse s .noResource
    | some i => done (s.putReg (Rg.pasidMap h.side i) (2 ^ 31 + st * 2 ^ 20 + pasid)) []

def cmdStallUnmapPasid (h : CmdHdr) (p : Bytes) (s : State) : CmdOut :=
  let pasid := u32 p 0
  match s.pasidEntry h.side pasid with
  | none => refuse s .range
  | some i =>
    if (upto 64).any fun r => s.flag (Rg.ringCfg h.side r) Fd.ringCfgEnabled && s.regWord (Rg.ringPasid h.side r) % 2 ^ 20 == pasid then refuse s .state
    else done (s.putReg (Rg.pasidMap h.side i) 0) []

def specStallCreate : CmdSpec := ⟨0x0300, always .manager, fun _ => true, lenIs 128, true, ownsNone, true, cmdStallCreate⟩
def specStallDelete : CmdSpec := ⟨0x0301, always .manager, fun _ => true, lenIs 1, true, ownsNone, true, cmdStallDelete⟩
def specStallResize : CmdSpec := ⟨0x0302, always .manager, fun _ => true, lenIs 128, true, ownsNone, true, cmdStallResize⟩
def specStallDropShadow : CmdSpec := ⟨0x0303, always .manager, fun _ => true, lenIs 1, true, ownsNone, true, cmdStallDropShadow⟩
def specStallStart : CmdSpec := ⟨0x0304, always .engineer, fun _ => true, lenIs 1, false, ownsFirst, true, cmdStallStart⟩
def specStallStop : CmdSpec := ⟨0x0305, always .engineer, fun _ => true, lenIs 1, false, ownsFirst, true, cmdStallStop⟩
def specStallReset : CmdSpec :=
  ⟨0x0306, fun p => some (if u8 p 0 = 63 then .safetyEngineer else .engineer), fun _ => true, lenIs 1, false, ownsFirst, true, cmdStallReset⟩
def specStallRead : CmdSpec := ⟨0x0307, always .observer, fun _ => false, lenIs 2, false, ownsFirst, false, cmdStallRead⟩
def specStallStatus : CmdSpec := ⟨0x0308, always .observer, fun _ => false, lenIs 1, false, ownsFirst, false, cmdStallStatus⟩
def specStallPool : CmdSpec := ⟨0x0309, always .observer, fun _ => false, lenIs 0, false, ownsNone, false, cmdStallPool⟩
def specStallMapPasid : CmdSpec := ⟨0x030A, always .manager, fun _ => false, lenIs 5, false, ownsNone, true, cmdStallMapPasid⟩
def specStallUnmapPasid : CmdSpec := ⟨0x030B, always .manager, fun _ => false, lenIs 4, false, ownsNone, true, cmdStallUnmapPasid⟩

def execStallCreate (h : CmdHdr) (p : Bytes) (s : State) : Host.Outcome State Fault Refusal := runCmd specStallCreate h p s
def execStallDelete (h : CmdHdr) (p : Bytes) (s : State) : Host.Outcome State Fault Refusal := runCmd specStallDelete h p s
def execStallResize (h : CmdHdr) (p : Bytes) (s : State) : Host.Outcome State Fault Refusal := runCmd specStallResize h p s
def execStallDropShadow (h : CmdHdr) (p : Bytes) (s : State) : Host.Outcome State Fault Refusal := runCmd specStallDropShadow h p s
def execStallStart (h : CmdHdr) (p : Bytes) (s : State) : Host.Outcome State Fault Refusal := runCmd specStallStart h p s
def execStallStop (h : CmdHdr) (p : Bytes) (s : State) : Host.Outcome State Fault Refusal := runCmd specStallStop h p s
def execStallReset (h : CmdHdr) (p : Bytes) (s : State) : Host.Outcome State Fault Refusal := runCmd specStallReset h p s
def execStallRead (h : CmdHdr) (p : Bytes) (s : State) : Host.Outcome State Fault Refusal := runCmd specStallRead h p s
def execStallStatus (h : CmdHdr) (p : Bytes) (s : State) : Host.Outcome State Fault Refusal := runCmd specStallStatus h p s
def execStallPool (h : CmdHdr) (p : Bytes) (s : State) : Host.Outcome State Fault Refusal := runCmd specStallPool h p s
def execStallMapPasid (h : CmdHdr) (p : Bytes) (s : State) : Host.Outcome State Fault Refusal := runCmd specStallMapPasid h p s
def execStallUnmapPasid (h : CmdHdr) (p : Bytes) (s : State) : Host.Outcome State Fault Refusal := runCmd specStallUnmapPasid h p s

end Sys2Proof.Machine
end

