-- ==== Sys2Proof/Machine/HostCmds.lean ====
section
/-! DEFINITION. The host link (R377 to R389): its events and its commands. -/

namespace Sys2Proof.Machine

/-! ### Effects -/

/-- A function-level reset (R386): every ring of the side; the configuration space and the MSI-X table follow PCIe 5.0,
so the host must set them up again. -/
def State.functionReset (s : State) (sd : SideId) : State :=
  let s1 := (upto 64).foldl (fun t r => t.resetRing sd r) s
  ((s1.modSide sd fun y => { y with msix := ⟨[], []⟩ }).tick1 (Rg.hlStatus sd) Fd.hlStatusFlrCount).setFlag
    (Rg.hlStatus sd) Fd.hlStatusBusMaster false

/-- The endpoint of a side that loses its link: link down, every ring reset (R387). -/
def State.linkDown (s : State) (sd : SideId) : State :=
  let s1 := (upto 64).foldl (fun t r => (t.resetRing sd r).ringResetDone sd r) s
  let s2 := s1.modSide sd fun y => { y with msix := ⟨[], []⟩ }
  (((s2.setFlag (Rg.hlStatus sd) Fd.hlStatusLinkUp false).wr (Rg.hlStatus sd) Fd.hlStatusGen 0).wr
    (Rg.hlStatus sd) Fd.hlStatusWidth 0).setFlag (Rg.hlStatus sd) Fd.hlStatusBusMaster false

/-- The link is in L0 (R377, R387). -/
def State.linkUp (s : State) (sd : SideId) (gen width : Nat) (bm : Bool) : State :=
  (((s.setFlag (Rg.hlStatus sd) Fd.hlStatusLinkUp true).wr (Rg.hlStatus sd) Fd.hlStatusGen gen).wr
    (Rg.hlStatus sd) Fd.hlStatusWidth width).setFlag (Rg.hlStatus sd) Fd.hlStatusBusMaster bm

/-! ### HL_RING_SET (R381, R191) -/

def ringRecRange (p : Bytes) : Bool :=
  decide (u8 p 0 ≤ 63) && decide (u8 p 1 ≤ 3)
    && (if u8 p 0 ≤ 3 then u8 p 2 == 0 else decide (1 ≤ u8 p 2 ∧ u8 p 2 ≤ 62))
    && decide (u8 p 3 ≤ 1) && decide (4 ≤ u8 p 4 ∧ u8 p 4 ≤ 16) && allZero (sub p 5 3)
    && decide (u32 p 8 ≤ 0xFFFFF) && u64 p 12 % 4096 == 0 && decide (u16 p 20 ≤ 1023) && allZero (sub p 22 2)

/-- Whether a ring may be enabled with this record: its PASID maps to its owner, and the owner's RINGS grant covers one
more enabled ring on this side (R191). Stall 0 holds its four. -/
def State.ringMayEnable (s : State) (sd : SideId) (p : Bytes) : Bool :=
  let owner := u8 p 2
  s.pasidStall sd (u32 p 8) == some owner
    && (owner == 0 ||
      decide ((((upto 64).filter fun r => r != u8 p 0 && s.flag (Rg.ringCfg sd r) Fd.ringCfgEnabled
        && s.rd (Rg.ringCfg sd r) Fd.ringCfgOwner == owner).length + 1) ≤ gNum (s.grant owner) gRings))

/-- RING_CFG of a record, keeping ERR, ERR_CAUSE and RESET_DONE. -/
def State.ringCfgOf (s : State) (sd : SideId) (p : Bytes) : Nat :=
  at_ (u8 p 3 % 2) 31 + at_ (bits (s.regWord (Rg.ringCfg sd (u8 p 0))) 30 27) 27 + at_ (u8 p 1) 24 + at_ (u8 p 2) 18
    + at_ (u8 p 4) 13 + u16 p 20

/-- Whether a record names what the ring's registers hold, ENABLE apart. -/
def State.ringSame (s : State) (sd : SideId) (p : Bytes) : Bool :=
  let r := u8 p 0
  s.ringCfgOf sd p % 2 ^ 31 == s.regWord (Rg.ringCfg sd r) % 2 ^ 31 && s.regWord (Rg.ringPasid sd r) == u32 p 8
    && s.regWord (Rg.ringBase sd r) == u64 p 12

/-- Write a ring's registers; an enable starts its completion count again. -/
def State.ringDefine (s : State) (sd : SideId) (p : Bytes) : State :=
  let r := u8 p 0
  let s1 := ((s.putReg (Rg.ringCfg sd r) (s.ringCfgOf sd p)).putReg (Rg.ringPasid sd r) (u32 p 8)).putReg
    (Rg.ringBase sd r) (u64 p 12)
  if u8 p 3 = 1 then s1.putRing sd r { s1.ring sd r with seq := 0 } else s1

def cmdHlRingSet (h : CmdHdr) (p : Bytes) (s : State) : CmdOut :=
  let sd := h.side
  let r := u8 p 0
  if !ringRecRange p then refuse s .range
  else if s.flag (Rg.ringCfg sd r) Fd.ringCfgEnabled then
    if !s.ringSame sd p then refuse s .state
    else if u8 p 3 = 1 then done s []
    else done ((s.setFlag (Rg.ringCfg sd r) Fd.ringCfgEnabled false).loseRing sd r) []
  else if u8 p 3 = 1 && !s.ringMayEnable sd p then
    refuse (s.tick1 (Rg.pasidRefused sd) Fd.pasidRefusedCount) .noRight
  else done (s.ringDefine sd p) []

/-! ### HL_RING_RESET (R386), HL_STATUS -/

def cmdHlRingReset (h : CmdHdr) (p : Bytes) (s : State) : CmdOut :=
  let r := u8 p 0
  let one (t : State) (r : Nat) : State := (t.resetRing h.side r).ringResetDone h.side r
  if r = 0xFF then
    done ((if h.stall = 0 then upto 64 else s.ringsOf h.side h.stall.toNat).foldl one s) []
  else if 63 < r then refuse s .range
  else done (one s r) []

def cmdHlStatus (h : CmdHdr) (_ : Bytes) (s : State) : CmdOut :=
  let sd := h.side
  let w (r : Reg) : Bytes := beBytes 4 (s.regWord r)
  done s (w (Rg.hlStatus sd) ++ w (Rg.hlErr sd) ++ w (Rg.hlErrAddr sd)
    ++ (upto 64).flatMap fun r => w (Rg.ringCfg sd r) ++ w (Rg.ringPasid sd r) ++ w (Rg.ringPtr sd r))

/-- Whether a ring named by a reset belongs to a stall: 0xFF names the stall's own. -/
def ownsRing : State → Bytes → Nat → Bool := fun s p st =>
  u8 p 0 == 0xFF || bothSides.any fun sd => s.rd (Rg.ringCfg sd (u8 p 0)) Fd.ringCfgKind != 0 && s.rd (Rg.ringCfg sd (u8 p 0)) Fd.ringCfgOwner == st

def specHlRingSet : CmdSpec := ⟨0x0F00, always .manager, fun _ => false, lenIs 24, false, fun _ p st => u8 p 2 == st, true, cmdHlRingSet⟩
def specHlRingReset : CmdSpec := ⟨0x0F01, always .manager, fun _ => false, lenIs 1, false, ownsRing, true, cmdHlRingReset⟩
def specHlStatus : CmdSpec := ⟨0x0F02, always .observer, fun _ => false, lenIs 0, false, ownsNone, false, cmdHlStatus⟩

/-! ### Rows -/

def execHlRingSet (h : CmdHdr) (p : Bytes) (s : State) : Host.Outcome State Fault Refusal := runCmd specHlRingSet h p s
def execHlRingReset (h : CmdHdr) (p : Bytes) (s : State) : Host.Outcome State Fault Refusal := runCmd specHlRingReset h p s
def execHlStatus (h : CmdHdr) (p : Bytes) (s : State) : Host.Outcome State Fault Refusal := runCmd specHlStatus h p s

/-- The host writes TAIL in a ring's doorbell page (R382, R384). -/
def execDoorbellWrite (sd : SideId) (r : Fin 64) (tail : Word) (filled : List Descriptor) (s : State) :
    Host.Outcome State Fault Refusal := .next (s.doorbell sd r.val tail.toNat filled)

/-- One tick after its first record a TO_HOST descriptor is completed (R383). -/
def execToHostTimeout (sd : SideId) (r : Fin 64) (s : State) : Host.Outcome State Fault Refusal := .next (s.ringTimeout sd r.val)

/-- A DMA request of a ring fails (R384). -/
def execDmaError (sd : SideId) (r : Fin 64) (s : State) : Host.Outcome State Fault Refusal :=
  .next (if s.ringRuns sd r.val then s.ringStop sd r.val 2 else s)

/-- A ring's holdoff ends (R380). -/
def execMsixHoldoffEnd (sd : SideId) (r : Fin 64) (s : State) : Host.Outcome State Fault Refusal := .next (s.holdoffEnd sd r.val)

/-- Every DMA request of a reset ring has finished (R386). -/
def execRingResetDone (sd : SideId) (r : Fin 64) (s : State) : Host.Outcome State Fault Refusal := .next (s.ringResetDone sd r.val)

/-- A function-level reset (R386). -/
def execFunctionLevelReset (sd : SideId) (s : State) : Host.Outcome State Fault Refusal := .next (s.functionReset sd)

/-- The link comes up (R387). -/
def execPcieLinkUp (sd : SideId) (gen width : BitVec 3) (bm : Bool) (s : State) : Host.Outcome State Fault Refusal :=
  .next (s.linkUp sd gen.toNat width.toNat bm)

/-- RESET in RING_CFG (R386). -/
def execRingCfgReset (sd : SideId) (r : Fin 64) (s : State) : Host.Outcome State Fault Refusal := .next (s.resetRing sd r.val)

/-- A write to BAR2 is discarded and recorded (R378): HL_ERR_ADDR has bit 31 set. -/
def execBar2Write (sd : SideId) (offset : Word) (s : State) : Host.Outcome State Fault Refusal :=
  .next (s.hlError sd (2 ^ 31 + offset.toNat % 2 ^ 31) .readOnly)

end Sys2Proof.Machine
end

