-- ==== Sys2Proof/Machine/Faults.lean ====
section
/-! DEFINITION. Part addresses and the fault log (R11, R12, R463, R464). -/

namespace Sys2Proof.Machine

/-! ### Parts and faults -/

/-- A part address (R11). -/
def partAddr (level domain unit tile index : Nat) : Nat := at_ level 29 + at_ domain 27 + at_ unit 22 + at_ tile 14 + index

/-- A whole unit of a side. -/
def unitAddr (level : Nat) (sd : SideId) (unit : Nat) : Nat := partAddr level sd.code unit 0xFF 0x3FFF

/-- A whole tile of a unit of a side. -/
def tileAddr (sd : SideId) (unit tile : Nat) : Nat := partAddr 3 sd.code unit tile 0x3FFF

def partLevel (a : Nat) : Nat := bits a 31 29
def partDomain (a : Nat) : Nat := bits a 28 27
def partUnit (a : Nat) : Nat := bits a 26 22
def partTile (a : Nat) : Nat := bits a 21 14

def lcPartFault : Nat := 0x0420
def lcSpareIn : Nat := 0x0421
def lcCorrected : Nat := 0x0422
def lcTestFail : Nat := 0x0423
def lcDeepTest : Nat := 0x0424

/-- A record about a part in the side Ledger with its notification (R464). -/
def State.partEvent (s : State) (sd : SideId) (code part word : Nat) : State :=
  s.sideReport sd code (beBytes 4 part ++ beBytes 4 word ++ zeros 8)

/-- A fault enters the fault log of a side (R463), its level is counted, and it is recorded under a code (R464). The word
stands beside a part of level 1 only. -/
def State.logFaultAs (s : State) (sd : SideId) (code part word : Nat) : State :=
  let h := Rg.faultHead sd
  let i := if s.rd h Fd.faultHeadTotal = 0 then 0 else (s.rd h Fd.faultHeadNewest + 1) % 64
  let found := (List.zip (upto 7) (s.side sd).health.found).map fun e =>
    if e.1 + 1 = partLevel part then e.2 + 1 else e.2
  let s0 := s.modSide sd fun x => { x with health := { x.health with found := found } }
  let shown := if partLevel part = 1 then word else 0
  let s1 := ((s0.putReg (Rg.faultLog sd i) (part * 2 ^ 32 + shown)).wr h Fd.faultHeadNewest i).tick1 h Fd.faultHeadTotal
  let f := Rg.healthFaults sd
  let s2 := match partLevel part with
    | 2 => s1.tick1 f Fd.healthFaultsLevel2
    | 3 => s1.tick1 f Fd.healthFaultsLevel3
    | 4 => s1.tick1 f Fd.healthFaultsLevel4
    | _ => s1
  (if word / 2 ^ 30 = 2 then s2.tick1 f Fd.healthFaultsUncorrectable else s2).partEvent sd code part shown

/-- A part is retired. -/
def State.logFault (s : State) (sd : SideId) (part word : Nat) : State := s.logFaultAs sd lcPartFault part word

def State.physCluster (s : State) (sd : SideId) (l : Nat) : Nat := s.rd (Rg.clusterMap sd l) Fd.clusterMapPhys

/-- The memory of a logical cluster, as a part (R144). -/
def State.clusterMemory (s : State) (sd : SideId) (l : Nat) : Nat := partAddr 2 sd.code (3 + s.physCluster sd l) 0xFF 0x3FFF

end Sys2Proof.Machine
end

