-- ==== Sys2Proof/Machine/HyrraCode.lean ====
section
/-! DEFINITION. The instruction words of Hyrra Scan Code (R145): one word, or two for LI and for LOOP on G0, read
into what they do; and a run of an activation from its ENTRY to its end (R117, R123, R124). -/

namespace Sys2Proof.Machine

/-- What one fetched instruction is: its length in words, what it does, and what validation needs of it (R138):
branch target offset in words from the next word, loop body length, trigger line. -/
structure HscInstr where
  words : Nat
  run : Act → Act
  br : Option Int := none
  body : Option Nat := none
  trig : Option Nat := none

def fld5 (w : Word) (lo : Nat) : BitVec 5 := BitVec.ofNat 5 (w.toNat / 2 ^ lo)
def fld4 (w : Word) (lo : Nat) : BitVec 4 := BitVec.ofNat 4 (w.toNat / 2 ^ lo)
def fld3 (w : Word) (lo : Nat) : BitVec 3 := BitVec.ofNat 3 (w.toNat / 2 ^ lo)

/-- The segment of a 2-bit code (R145). -/
def segOf (n : Nat) : SegCode :=
  match n % 4 with
  | 0 => .inp
  | 1 => .out
  | 2 => .ret
  | _ => .loc

/-- An instruction of one word when its reserved fields are 0. -/
def one (ok : Bool) (f : Act → Act) : Option HscInstr := if ok then some { words := 1, run := f } else none

/-- Opcode 0x00: system (R147). -/
def decSystem (fn : Nat) (d a b : BitVec 5) : Option HscInstr :=
  match fn with
  | 0 => one (d == 0 && a == 0 && b == 0) actNop
  | 1 => one (d == 0 && a == 0 && b == 0) actHalt
  | 2 => one (b == 0 && decide (a.toNat ≤ 3)) (actMfs d a)
  | _ => none

/-- Opcode 0x01: integer (R147). -/
def decInteger (fn : Nat) (d a b : BitVec 5) : Option HscInstr :=
  match fn with
  | 0x00 => one true (actAdd d a b)
  | 0x01 => one true (actSub d a b)
  | 0x02 => one true (actAnd d a b)
  | 0x03 => one true (actOr d a b)
  | 0x04 => one true (actXor d a b)
  | 0x05 => one true (actShl d a b)
  | 0x06 => one true (actShr d a b)
  | 0x07 => one true (actSra d a b)
  | 0x08 => one true (actMul d a b)
  | 0x09 => one true (actMulh d a b)
  | 0x0A => one true (actMulhu d a b)
  | 0x0B => one true (actDiv d a b)
  | 0x0C => one true (actDivu d a b)
  | 0x0D => one true (actRem d a b)
  | 0x0E => one true (actRemu d a b)
  | 0x0F => one true (actMin d a b)
  | 0x10 => one true (actMax d a b)
  | 0x11 => one true (actMinu d a b)
  | 0x12 => one true (actMaxu d a b)
  | _ => none

/-- Opcode 0x02: immediate forms (R147). -/
def decImmediate (subOp : Nat) (d a : BitVec 5) (imm : BitVec 11) : Option HscInstr :=
  match subOp with
  | 0 => one true (actAddi d a imm)
  | 1 => one true (actAndi d a imm)
  | 2 => one true (actOri d a imm)
  | 3 => one true (actXori d a imm)
  | 4 => one (decide (imm.toNat < 32)) (actShli d a imm)
  | 5 => one (decide (imm.toNat < 32)) (actShri d a imm)
  | 6 => one (decide (imm.toNat < 32)) (actSrai d a imm)
  | _ => none

/-- Opcode 0x08: binary32 (R148). -/
def decFloat (fn : Nat) (d a b : BitVec 5) : Option HscInstr :=
  match fn with
  | 0x00 => one true (actFadd d a b)
  | 0x01 => one true (actFsub d a b)
  | 0x02 => one true (actFmul d a b)
  | 0x03 => one true (actFdiv d a b)
  | 0x04 => one (b == 0) (actFsqrt d a)
  | 0x05 => one (b == 0) (actFabs d a)
  | 0x06 => one (b == 0) (actFneg d a)
  | 0x07 => one true (actFmin d a b)
  | 0x08 => one true (actFmax d a b)
  | 0x09 => one true (actFma d a b)
  | 0x0A => one true (actFnms d a b)
  | 0x10 => one (b == 0) (actItof d a)
  | 0x11 => one (b == 0) (actUtof d a)
  | 0x12 => one (b == 0) (actFtoi d a)
  | 0x13 => one (b == 0) (actFtoin d a)
  | _ => none

/-- A complex register field: bit 4 clear (R138). -/
def pOk (r : BitVec 5) : Bool := decide (r.toNat < 16)

/-- Opcode 0x0C: complex (R150). -/
def decComplex (fn : Nat) (d a b : BitVec 5) : Option HscInstr :=
  match fn with
  | 0x0 => one (pOk d && pOk a && pOk b) (actCadd (lowP d) (lowP a) (lowP b))
  | 0x1 => one (pOk d && pOk a && pOk b) (actCsub (lowP d) (lowP a) (lowP b))
  | 0x2 => one (pOk d && pOk a && pOk b) (actCmul (lowP d) (lowP a) (lowP b))
  | 0x3 => one (pOk d && pOk a && b == 0) (actCconj (lowP d) (lowP a))
  | 0x4 => one (pOk a && b == 0) (actCmag d (lowP a))
  | 0x5 => one (pOk a && b == 0) (actCarg d (lowP a))
  | 0x6 => one (pOk d && pOk a) (actCscale (lowP d) (lowP a) b)
  | 0x7 => one (pOk d) (actCmake (lowP d) a b)
  | 0x8 => one (pOk a && b == 0) (actCre d (lowP a))
  | 0x9 => one (pOk a && b == 0) (actCim d (lowP a))
  | 0xA => one (pOk d && pOk a && b == 0) (actCmov (lowP d) (lowP a))
  | _ => none

/-- A predicate field: its upper bits 0 (R145). -/
def fOk (r : BitVec 5) : Bool := decide (r.toNat < 8)
def lowF (d : BitVec 5) : BitVec 3 := d.truncate 3

/-- Opcode 0x10: compare (R151). -/
def decCompare (fn : Nat) (d a b : BitVec 5) : Option HscInstr :=
  match fn with
  | 0x0 => one (fOk d) (actEq (lowF d) a b)
  | 0x1 => one (fOk d) (actNe (lowF d) a b)
  | 0x2 => one (fOk d) (actLt (lowF d) a b)
  | 0x3 => one (fOk d) (actLe (lowF d) a b)
  | 0x4 => one (fOk d) (actUlt (lowF d) a b)
  | 0x5 => one (fOk d) (actUle (lowF d) a b)
  | 0x8 => one (fOk d) (actFeq (lowF d) a b)
  | 0x9 => one (fOk d) (actFlt (lowF d) a b)
  | 0xA => one (fOk d) (actFle (lowF d) a b)
  | 0xB => one (fOk d) (actFun (lowF d) a b)
  | _ => none

/-- Opcode 0x11: predicates (R151). -/
def decPredicate (fn : Nat) (d a b : BitVec 5) : Option HscInstr :=
  match fn with
  | 0x0 => one (fOk d && fOk a && fOk b) (actPand (lowF d) (lowF a) (lowF b))
  | 0x1 => one (fOk d && fOk a && fOk b) (actPor (lowF d) (lowF a) (lowF b))
  | 0x2 => one (fOk d && fOk a && fOk b) (actPxor (lowF d) (lowF a) (lowF b))
  | 0x3 => one (fOk d && fOk a && fOk b) (actPandn (lowF d) (lowF a) (lowF b))
  | 0x4 => one (fOk d && fOk a && b == 0) (actPnot (lowF d) (lowF a))
  | 0x5 => one (fOk d && b == 0) (actPset (lowF d) a)
  | 0x6 => one (fOk a && b == 0) (actPget d (lowF a))
  | _ => none

/-- Opcode 0x12: select (R151). -/
def decSelect (fn : Nat) (d a b : BitVec 5) : Option HscInstr :=
  if fn < 8 then one true (actSel d (BitVec.ofNat 3 fn) a b)
  else if fn < 16 then
    one (pOk d && pOk a && pOk b) (actCsel (lowP d) (BitVec.ofNat 3 fn) (lowP a) (lowP b))
  else none

/-- Opcode 0x18: BR. -/
def decBranch (w : Word) : Option HscInstr :=
  let off : BitVec 16 := BitVec.ofNat 16 w.toNat
  if bits w.toNat 24 24 = 0 ∧ bits w.toNat 20 16 = 0 then
    some { words := 1, run := actBr ⟨bit w.toNat 25, fld3 w 21⟩ off, br := some off.toInt }
  else none

/-- Opcode 0x19: LOOP, with its extension on G0 (R153). -/
def decLoop (w : Word) (ext : Option Word) : Option HscInstr :=
  let r := fld5 w 21
  let body := w.toNat % 65536
  if bits w.toNat 20 16 ≠ 0 ∨ body = 0 then none
  else if r = 0 then
    match ext with
    | some x => if x.toNat < 65536 then some { words := 2, run := actLoop r (BitVec.ofNat 16 body) x, body := some body } else none
    | none => none
  else some { words := 1, run := actLoop r (BitVec.ofNat 16 body) 0, body := some body }

/-- The width of an LD is defined; LD.D names no register above G30; LD.C a complex register (R138). -/
def ldOk (width : Nat) (d : BitVec 5) : Bool :=
  decide (width ≤ 4) || (width == 5 && decide (d.toNat ≤ 30)) || (width == 6 && pOk d)

def stOk (width : Nat) (d : BitVec 5) : Bool := ldOk width d && width != 2 && width != 4

/-- Opcode 0x1A: long vector operations (R156). -/
def decVector (fn : Nat) (d a b : BitVec 5) : Option HscInstr :=
  let src := segOf (fn / 512)
  let dst := bits fn 8 7
  let ty := bits fn 6 4
  let t3 : BitVec 3 := BitVec.ofNat 3 ty
  match fn % 16 with
  | 0 => one (ty == 0) (actVcopy src (segOf dst) d a b)
  | 1 => one (dst == 0 && decide (ty ≤ 3) && (ty != 3 || pOk d)) (actVsum src t3 d a b)
  | 2 => one (dst == 0 && (ty == 0 || ty == 4 || ty == 1 || ty == 5) && decide (d.toNat ≤ 30)) (actVmax src t3 d a b)
  | _ => none

/-- One instruction word, with the word after it for an extension. None: not a defined instruction (R138). -/
def hscDecode (w : Word) (ext : Option Word) : Option HscInstr :=
  let d := fld5 w 21
  let a := fld5 w 16
  let b := fld5 w 11
  let fn := w.toNat % 2048
  let imm : BitVec 11 := BitVec.ofNat 11 fn
  match w.toNat / 2 ^ 26 with
  | 0x00 => decSystem fn d a b
  | 0x01 => decInteger fn d a b
  | 0x02 => decImmediate b.toNat d a imm
  | 0x03 =>
    match ext with
    | some x => if a = 0 ∧ b = 0 ∧ imm = 0 then some { words := 2, run := actLi d x } else none
    | none => none
  | 0x08 => decFloat fn d a b
  | 0x0C => decComplex fn d a b
  | 0x10 => decCompare fn d a b
  | 0x11 => decPredicate fn d a b
  | 0x12 => decSelect fn d a b
  | 0x18 => decBranch w
  | 0x19 => decLoop w ext
  | 0x1A => decVector fn d a b
  | 0x20 => one (ldOk (b.toNat % 8) d) (actLd (fld3 w 11) d a (segOf (b.toNat / 8)) imm)
  | 0x21 => one (stOk (b.toNat % 8) d) (actSt (fld3 w 11) d a (segOf (b.toNat / 8)) imm)
  | 0x28 =>
    if bits w.toNat 17 16 = 0 then
      match actCall (bits w.toNat 25 18) (BitVec.ofNat 16 w.toNat) with
      | some f => some { words := 1, run := f }
      | none => none
    else none
  | 0x30 =>
    if d = 0 ∧ b = 0 ∧ fn < 16 then some { words := 1, run := actTrig a (BitVec.ofNat 4 fn), trig := some fn } else none
  | 0x31 => one (d == 0) (actLog (segOf (fn / 512)) (BitVec.ofNat 9 fn) a b)
  | _ => none

/-- The word at a byte offset of a code area, or none past its end. -/
def codeWord (code : Bytes) (off : Nat) : Option Word :=
  if off + 4 ≤ code.length ∧ off % 4 = 0 then some (BitVec.ofNat 32 (u32 code off)) else none

/-- A fetch at a byte offset lies in the task's code area (R144). -/
def Act.inCode (x : Act) (off : Nat) : Bool := decide (off + 4 ≤ x.slice.code.2)

/-- A fetch lies in the stall's pitches too. -/
def Act.fetchOk (x : Act) (off : Nat) : Bool := x.inCode off && decide (x.slice.code.1 + off + 4 ≤ x.slice.limit)

/-- The word fetched from a byte offset, if every check of R144 lets it through. -/
def Act.fetch (x : Act) (code : Bytes) (off : Nat) : Option Word := if x.fetchOk off then codeWord code off else none

/-- One fetch and one instruction: a fetch that is refused aborts with ACCESS; where only the last check fails, the cluster's
memory is at fault (R144). -/
def actStep (code : Bytes) (x : Act) : Act :=
  match x.fetch code x.pc with
  | none => { x with memFault := x.memFault || (x.inCode x.pc && !x.fetchOk x.pc) }.abort .access
  | some w =>
    match hscDecode w (x.fetch code (x.pc + 4)) with
    | some i => i.run x
    | none => { x with memFault := x.memFault || (x.inCode (x.pc + 4) && !x.fetchOk (x.pc + 4)) }.abort .access

/-- Run an activation until it ends: every instruction costs at least 1 cycle, so BUD bounds the run (R124). -/
def actRunFuel : Nat → Bytes → Act → Act
  | 0, _, x => x
  | n + 1, code, x =>
    match x.status with
    | .running => actRunFuel n code (actStep code x)
    | _ => x

def actRun (code : Bytes) (x : Act) : Act := actRunFuel (x.bud + 2) code x

end Sys2Proof.Machine
end

