-- ==== Sys2Proof/Machine/Scan.lean ====
section
/-! DEFINITION. What becomes of an activation (R123, R125, R128): its commit, its abort, and one instruction run on the
activation in progress on a core. -/

namespace Sys2Proof.Machine

/-- The cycles charged against BUD so far. -/
def Act.used (a : Act) : Nat := a.budget - a.bud

/-- Nanoseconds in units of 10 ns, rounded up: the spec does not say how such a register rounds. DESIGN CHOICE. -/
def tens (ns : Nat) : Nat := (ns + 9) / 10

/-- The end of an activation on its core: the core's time moves on and the next may begin (R117). -/
def State.coreDone (s : State) (sd : SideId) (n ns : Nat) : State :=
  let c := s.coreSt sd n
  (s.putCore sd n { c with cur := none, time := c.time + ns }).raise (Rg.coreEnd sd n) Fd.coreEndEndMax (tens (c.time + ns))

/-- One held request released at commit (R161): a LOG goes to the Ledger, once for the module; a TRIG places a mark in
the side's capture streams (R159, R300). -/
def State.release (s : State) (sd : SideId) (a : Act) (r : HeldReq) : State :=
  match r with
  | .log msg payload =>
    if s.leads sd then
      s.ledger ⟨1, a.stall, a.task, 0x0800 + msg, 0x80000000 + 16 * a.stall + a.task, recBody payload, false, false⟩
    else s
  | .trig line arg =>
    let st := a.tick - s.sealDelay - bits arg.toNat 23 16
    let m : Mark := ⟨5, a.stall, line, a.task, tickStart st * 65536 + arg.toNat % 65536 * (tickStart (st + 1) - tickStart st), a.tick, 0⟩
    s.modSide sd fun x => { x with marks := x.marks ++ [m] }

/-- HALT: every pending line of OUT and RET commits in one step, in 16 cycles; the held requests are released in issue
order (R123, R161). -/
def State.commit (s : State) (sd : SideId) (n : Nat) (a : Act) : State :=
  let t := s.taskSt sd a.stall a.task
  let c := s.coreSt sd n
  let s1 := (s.putTaskSt sd a.stall a.task { t with out := a.out, ret := a.ret, held := false }).putCore sd n
    { c with done := c.done ++ [(a.stall, a.task, t)] }
  let s2 := a.held.foldl (fun x r => x.release sd a r) s1
  let total := a.cIn + a.used + 16
  let s3 := s2.raise (Rg.phaseHw2 sd) Fd.phaseHw2ScanEndMax (tens ((s.coreSt sd n).time + total))
  (s3.raise (Rg.taskUsed sd (taskKey a.stall a.task)) Fd.taskUsedUsedMax total).coreDone sd n total

/-- A BUDGET or ACCESS abort counts towards its stall's tally (R128), once for the module. -/
def State.tallyAbort (s : State) (stall task : Nat) : State :=
  let k := taskKey stall task
  if s.aborted.contains k then s
  else { s with tally := Tbl.put s.tally stall (Tbl.getD s.tally stall 0 + 1)
                aborted := s.aborted ++ [k]
                abortedSec := if s.abortedSec.contains stall then s.abortedSec else s.abortedSec ++ [stall] }

/-- An abort (R123, R125): nothing of the activation stays; the reason is recorded, and an access that only a corrupt slice
table refused as a fault of the cluster's memory (R144). -/
def State.abortAct (s : State) (sd : SideId) (n : Nat) (a : Act) (r : AbortReason) : State :=
  let k := taskKey a.stall a.task
  let t := s.taskSt sd a.stall a.task
  let s1 := s.putTaskSt sd a.stall a.task { t with held := true }
  let s2 := (s1.wr (Rg.taskState sd k) Fd.taskStateLastAbort (abortCode r)).tick1 (Rg.taskTally sd k) Fd.taskTallyAborts
  let s3 := match r with
    | .budget => s2.tick1 (Rg.scanAborts sd) Fd.scanAbortsBudget
    | .access => s2.tick1 (Rg.scanAborts sd) Fd.scanAbortsAccess
    | .window => s2.tick1 (Rg.scanDiscards sd) Fd.scanDiscardsWindow
    | .discard => s2.tick1 (Rg.scanDiscards sd) Fd.scanDiscardsDiscard
  let s4 := if (r = .budget ∨ r = .access) ∧ s.leads sd = true then s3.tallyAbort a.stall a.task else s3
  let s5 := if a.memFault then s4.logFault sd (s4.clusterMemory sd (n / 8)) 0 else s4
  s5.coreDone sd n (a.cIn + a.used)

/-- Put an activation back after something ran on it: it goes on, commits or aborts. -/
def State.finish (s : State) (sd : SideId) (n : Nat) (a : Act) : State :=
  match a.status with
  | .running => s.putCore sd n { s.coreSt sd n with cur := some a }
  | .halted => s.commit sd n a
  | .aborted r => s.abortAct sd n a r

/-- Run something on the activation in progress on a core; a core without one has nothing to run it on. -/
def State.onAct (s : State) (c : CoreRef) (f : Act → Act) : State :=
  match (s.coreSt c.side c.core.val).cur with
  | some a => s.finish c.side c.core.val (f a)
  | none => s

/-- One Hyrra command: the instruction on the core's activation. -/
def runHsc (c : CoreRef) (f : Act → Act) (s : State) : Host.Outcome State Fault Refusal := .next (s.onAct c f)

/-- A Hyrra command whose fields must make a defined instruction (R138). -/
def runHscIf (ok : Bool) (c : CoreRef) (f : Act → Act) (s : State) : Host.Outcome State Fault Refusal :=
  if ok then .next (s.onAct c f) else .fault .undefinedInstruction

end Sys2Proof.Machine
end

