-- ==== Sys2Proof/Machine/Interlock.lean ====
section
/-! DEFINITION. Field and safety commands (R344, R351, R360, R362) and the rows of the field channels and instances. -/

namespace Sys2Proof.Machine

/-! ### Field commands -/

def cmdFioSetChannel (_ : CmdHdr) (p : Bytes) (s : State) : CmdOut :=
  if !fioRange p then refuse s .range
  else if s.isSafeChannel (u8 p 0) then refuse s .conflict
  else done (s.modifyModShadow fun c => c.putRec 0x0D (u8 p 0) p) []

/-- The record from either block; a channel without one reads as MODE 0. -/
def cmdFioReadChannel (_ : CmdHdr) (p : Bytes) (s : State) : CmdOut :=
  let n := u8 p 0
  if n = 0 ∨ 32 < n ∨ 1 < u8 p 1 then refuse s .range
  else if u8 p 1 = 0 then done s (s.fioRec n)
  else done s ((fioRecIn s.safeShadow s.modShadow n).getD (beBytes 1 n ++ zeros 15))

def cmdFioStatus (_ : CmdHdr) (_ : Bytes) (s : State) : CmdOut :=
  done s (beBytes 4 (s.regWord Rg.fioSupply) ++ beBytes 4 s.fioLevelWord ++ beBytes 4 (s.regWord Rg.fioFault)
    ++ allChans.flatMap fun n => beBytes 4 (s.fioChWord n))

/-- FIO_CLEAR_FAULT (R344): latched SHORT released, retry counts cleared. -/
def cmdFioClearFault (_ : CmdHdr) (p : Bytes) (s : State) : CmdOut :=
  let m := u32 p 0
  done ((allChans.foldl (fun t n =>
    if bit m (n - 1) then t.putCh n { t.ch n with short := false, retries := 0 } else t) s).arbSettle) []

def cmdFioReadImage (_ : CmdHdr) (p : Bytes) (s : State) : CmdOut :=
  match s.imageOf (u64 p 0) with
  | some img => done s img
  | none => refuse s .range

/-! ### Unlocking (R360) -/

/-- Whether an origin holds an unlock. -/
def State.unlocked (s : State) (origin : Nat) : Bool :=
  match Tbl.find s.unlocks origin with
  | some e => decide (s.now < e)
  | none => false

/-- Wrong proofs of the last 10 min. -/
def State.recentFails (s : State) : List Nat := s.safeFails.filter fun t => decide (s.now < t + 2880000)

def State.lockedOut (s : State) : Bool := match s.safeLockout with
  | some e => decide (s.now < e)
  | none => false

/-- A failed unlock: a Ledger record; after five within 10 min a lock-out of 10 min. -/
def evSafeFail : Nat := 0x1007
def State.safeFail (s : State) (origin : Nat) : State :=
  let fails := s.recentFails ++ [s.now]
  let s1 := { s with safeFails := fails, safeLockout := if 5 ≤ fails.length then some (s.now + 2880000) else s.safeLockout }
  s1.ledger ⟨3, 0, 0, evSafeFail, origin, recBody (beBytes 4 origin ++ beBytes 2 fails.length), false, false⟩

/-- SAFE_CHALLENGE: a nonce from the entropy source, valid 60 s, once, for that origin. -/
def cmdSafeChallenge (h : CmdHdr) (_ : Bytes) (s : State) : CmdOut :=
  let nonce : Bytes := (upto 16).map fun i => Config.freeByte (s.freeCount + i)
  let expiry := s.now + 288000
  done { s with freeCount := s.freeCount + 16, nonces := Tbl.put s.nonces h.origin.toNat (nonce, expiry) }
    (nonce ++ beBytes 8 expiry)

/-- The ASCII text of the proof. -/
def safeUnlockText : Bytes := [0x53, 0x41, 0x46, 0x45, 0x2D, 0x55, 0x4E, 0x4C, 0x4F, 0x43, 0x4B]

def safeProof (v nonce : Bytes) (origin : Nat) : Bytes := (hmacSha256 v (nonce ++ beBytes 4 origin ++ safeUnlockText)).take 16

def cmdSafeUnlock (h : CmdHdr) (p : Bytes) (s : State) : CmdOut :=
  let o := h.origin.toNat
  if s.lockedOut then refuse s .safetyPassword
  else
    let s1 := { s with nonces := Tbl.del s.nonces o }
    match s.safePw, Tbl.find s.nonces o with
    | some (_, v), some (nonce, expiry) =>
      if s.now < expiry ∧ safeProof v nonce o = p then
        done { s1 with unlocks := Tbl.put s1.unlocks o (s.now + 4320000) } []
      else refuse (s1.safeFail o) .safetyPassword
    | none, _ => refuse s .safetyPassword
    | _, none => refuse (s1.safeFail o) .safetyPassword

def cmdSafeLock (h : CmdHdr) (_ : Bytes) (s : State) : CmdOut := done { s with unlocks := Tbl.del s.unlocks h.origin.toNat } []

def cmdSafeSetPassword (h : CmdHdr) (p : Bytes) (s : State) : CmdOut :=
  match s.safePw with
  | none => if h.transport = .console then done { s with safePw := some (p.take 16, p.drop 16) } [] else refuse s .noRight
  | some _ => if s.unlocked h.origin.toNat then done { s with safePw := some (p.take 16, p.drop 16) } [] else refuse s .safetyPassword

/-- SAFE_LOAD: a chunk of the shadow table. -/
def cmdSafeLoad (h : CmdHdr) (p : Bytes) (s : State) : CmdOut :=
  let off := u32 p 0
  let total := u32 p 4
  let chunk := p.drop 8
  if !s.unlocked h.origin.toNat then refuse s .safetyPassword
  else if total < off + chunk.length then refuse s .range
  else
    let base := if off = 0 then zeros (min total (off + chunk.length)) else s.safeShadow
    let grown := if base.length < off + chunk.length then base ++ zeros (off + chunk.length - base.length) else base
    done ({ s with safeShadow := patch grown off chunk }.breakValidation 63) []

/-- SAFE_RESET (R351): instances without RESET_READY are left alone, which is recorded with STATE; a request that resets
none of the latched instances it names is refused with STATE. -/
def cmdSafeReset (h : CmdHdr) (p : Bytes) (s : State) : CmdOut :=
  let named := s.instRecs.filter fun e => bit (u32 p 0) e.1 && (s.inst e.1).latched
  let clear := named.filter fun e => !s.resetReady e.1 e.2
  if !named.isEmpty && clear.length == named.length then refuse s .state
  else
    let t := (named.foldl (fun t e => t.resetInst e.1 e.2) s).arbSettle
    done (if clear.isEmpty then t
      else t.ledger ⟨0, h.stall.toNat, 0, lcRefusedAtBell, h.origin.toNat, recBody (commandChange 0x0D06 .state h p), true, false⟩) []

def State.safeStatusWord (s : State) : Nat :=
  at_ (b2n (s.unlocks.any fun e => decide (s.now < e.2))) 31 + at_ (b2n s.safePw.isSome) 30 + at_ (b2n s.lockedOut) 29
    + at_ (min s.recentFails.length 255) 16 + s.nSafe

/-- The CRC a table carries; 0 without a table. -/
def tableCrc (t : Bytes) : Nat := if safePresent t then u32 t 8 else 0

def State.safeCrcWord (s : State) : Nat := tableCrc s.safeShadow * 2 ^ 32 + tableCrc s.safeActive

def cmdSafeStatus (_ : CmdHdr) (_ : Bytes) (s : State) : CmdOut :=
  done s (beBytes 4 s.safeStatusWord ++ beBytes 8 s.safeCrcWord ++ (upto 32).flatMap fun i => beBytes 4 (s.sfWord i))

def cmdSafeReadTable (h : CmdHdr) (p : Bytes) (s : State) : CmdOut :=
  let t := if u8 p 0 = 0 then s.safeActive else s.safeShadow
  let off := u32 p 1
  let n := u16 p 5
  if 1 < u8 p 0 ∨ n = 0 ∨ 1000 < n ∨ min (u32 t 12) t.length < off + n then refuse s .range
  else
    let _ := h
    done s (sub t off n)

/-- A field channel, or every channel of a mask, belongs to the stall. -/
def ownsFio (n : Bytes → Nat) : State → Bytes → Nat → Bool := fun s p st => s.fieldOwner st (n p)

def specFioSetChannel : CmdSpec := ⟨0x0C00, always .engineer, fun _ => true, lenIs 16, false, ownsFio fun p => u8 p 0, true, cmdFioSetChannel⟩
def specFioReadChannel : CmdSpec := ⟨0x0C01, always .observer, fun _ => false, lenIs 2, false, ownsFio fun p => u8 p 0, false, cmdFioReadChannel⟩
def specFioStatus : CmdSpec := ⟨0x0C02, always .observer, fun _ => false, lenIs 0, false, ownsNone, false, cmdFioStatus⟩
def specFioClearFault : CmdSpec :=
  ⟨0x0C03, always .operator, fun _ => true, lenIs 4, false,
    fun s p st => allChans.all fun n => !bit (u32 p 0) (n - 1) || s.fieldOwner st n, true, cmdFioClearFault⟩
def specFioReadImage : CmdSpec := ⟨0x0C04, always .observer, fun _ => false, lenIs 8, false, ownsNone, false, cmdFioReadImage⟩
def specSafeChallenge : CmdSpec := ⟨0x0D00, always .safetyEngineer, fun _ => false, lenIs 0, false, ownsAny, true, cmdSafeChallenge⟩
def specSafeUnlock : CmdSpec := ⟨0x0D01, always .safetyEngineer, fun _ => true, lenIs 16, false, ownsAny, true, cmdSafeUnlock⟩
def specSafeLock : CmdSpec := ⟨0x0D02, always .safetyEngineer, fun _ => true, lenIs 0, false, ownsAny, true, cmdSafeLock⟩
def specSafeSetPassword : CmdSpec := ⟨0x0D03, always .safetyEngineer, fun _ => true, lenIs 48, false, fun _ _ st => st == 63, true, cmdSafeSetPassword⟩
def specSafeLoad : CmdSpec :=
  ⟨0x0D04, always .safetyEngineer, fun _ => true, fun p => decide (9 ≤ p.length ∧ p.length ≤ 1000), false, fun _ _ st => st == 63, true, cmdSafeLoad⟩
def specSafeReset : CmdSpec := ⟨0x0D06, always .operator, fun _ => true, lenIs 4, false, fun _ _ st => st == 63, true, cmdSafeReset⟩
def specSafeStatus : CmdSpec := ⟨0x0D07, always .observer, fun _ => false, lenIs 0, false, fun _ _ st => st == 63, false, cmdSafeStatus⟩
def specSafeReadTable : CmdSpec := ⟨0x0D08, always .observer, fun _ => false, lenIs 7, false, fun _ _ st => st == 63, false, cmdSafeReadTable⟩

/-! ### Rows -/

def execFioSetChannel (h : CmdHdr) (p : Bytes) (s : State) : Host.Outcome State Fault Refusal := runCmd specFioSetChannel h p s
def execFioReadChannel (h : CmdHdr) (p : Bytes) (s : State) : Host.Outcome State Fault Refusal := runCmd specFioReadChannel h p s
def execFioStatus (h : CmdHdr) (p : Bytes) (s : State) : Host.Outcome State Fault Refusal := runCmd specFioStatus h p s
def execFioClearFault (h : CmdHdr) (p : Bytes) (s : State) : Host.Outcome State Fault Refusal := runCmd specFioClearFault h p s
def execFioReadImage (h : CmdHdr) (p : Bytes) (s : State) : Host.Outcome State Fault Refusal := runCmd specFioReadImage h p s
def execSafeChallenge (h : CmdHdr) (p : Bytes) (s : State) : Host.Outcome State Fault Refusal := runCmd specSafeChallenge h p s
def execSafeUnlock (h : CmdHdr) (p : Bytes) (s : State) : Host.Outcome State Fault Refusal := runCmd specSafeUnlock h p s
def execSafeLock (h : CmdHdr) (p : Bytes) (s : State) : Host.Outcome State Fault Refusal := runCmd specSafeLock h p s
def execSafeSetPassword (h : CmdHdr) (p : Bytes) (s : State) : Host.Outcome State Fault Refusal := runCmd specSafeSetPassword h p s
def execSafeLoad (h : CmdHdr) (p : Bytes) (s : State) : Host.Outcome State Fault Refusal := runCmd specSafeLoad h p s
def execSafeReset (h : CmdHdr) (p : Bytes) (s : State) : Host.Outcome State Fault Refusal := runCmd specSafeReset h p s
def execSafeStatus (h : CmdHdr) (p : Bytes) (s : State) : Host.Outcome State Fault Refusal := runCmd specSafeStatus h p s
def execSafeReadTable (h : CmdHdr) (p : Bytes) (s : State) : Host.Outcome State Fault Refusal := runCmd specSafeReadTable h p s

/-- An unlock reaches 15 min (R360). -/
def State.unlockExpiry (s : State) (o : Nat) : State := if s.unlocked o then s else { s with unlocks := Tbl.del s.unlocks o }
/-- The lock-out ends (R360). -/
def State.lockoutEnd (s : State) : State := if s.lockedOut then s else { s with safeLockout := none }

def execSafeUnlockExpiry (origin : Word) (s : State) : Host.Outcome State Fault Refusal := .next (s.unlockExpiry origin.toNat)
def execSafeLockoutEnd (s : State) : Host.Outcome State Fault Refusal := .next s.lockoutEnd

def execFieldEdgeAccept (ch : Fin 32) (level : Bool) (tagTick : DWord) (tagUs : BitVec 8) (s : State) :
    Host.Outcome State Fault Refusal := .next (s.edgeAccept (ch.val + 1) level tagTick.toNat tagUs.toNat)
def execDiscrepancyTimeout (inst : Fin 32) (s : State) : Host.Outcome State Fault Refusal := .next (s.discrepancyTimeout inst.val)
def execFeedbackTimeout (inst : Fin 32) (s : State) : Host.Outcome State Fault Refusal := .next (s.feedbackTimeout inst.val)
def execPermitDisagreeTimeout (inst : Fin 32) (s : State) : Host.Outcome State Fault Refusal := .next (s.permitDisagree inst.val)
def execOutputShort (ch : Fin 32) (s : State) : Host.Outcome State Fault Refusal := .next (s.outputShort (ch.val + 1))
def execShortRetry (ch : Fin 32) (s : State) : Host.Outcome State Fault Refusal := .next (s.shortRetry (ch.val + 1))
def execShortRetryClear (ch : Fin 32) (s : State) : Host.Outcome State Fault Refusal := .next (s.shortRetryClear (ch.val + 1))
def execOpenLoadDetect (ch : Fin 32) (s : State) : Host.Outcome State Fault Refusal := .next (s.openLoad (ch.val + 1) true)
def execOpenLoadClear (ch : Fin 32) (s : State) : Host.Outcome State Fault Refusal := .next (s.openLoad (ch.val + 1) false)
def execWireBreakDeclare (ch : Fin 32) (s : State) : Host.Outcome State Fault Refusal := .next (s.wireBreak (ch.val + 1) true)
def execWireBreakClear (ch : Fin 32) (s : State) : Host.Outcome State Fault Refusal := .next (s.wireBreak (ch.val + 1) false)
def execFieldSupplyChange (centiVolts : BitVec 16) (s : State) : Host.Outcome State Fault Refusal := .next (s.supplyChange centiVolts.toNat)

end Sys2Proof.Machine
end

