-- ==== Sys2Proof/Machine/Telegram.lean ====
section
/-! DEFINITION. Safety telegrams (R353 to R356): building, the scales, the watchdog. -/

namespace Sys2Proof.Machine

/-- Stable insertion of a telegram by its number. -/
def insertTele (e : Nat × Bytes) : List (Nat × Bytes) → List (Nat × Bytes)
  | [] => [e]
  | x :: rest => if e.1 < x.1 then e :: x :: rest else x :: insertTele e rest

/-- The telegram records of one direction: number and record, ascending. -/
def teleRecsIn (t : Bytes) (dir : Nat) : List (Nat × Bytes) :=
  if safePresent t then
    (((safeTelegrams t).filter fun r => u8 r 1 == dir).map fun r => (u8 r 0, r)).foldl (fun l e => insertTele e l) []
  else []

def State.teleRecs (s : State) (dir : Nat) : List (Nat × Bytes) := teleRecsIn s.safeActive dir

/-- The payload of a telegram (R353). -/
def telePayload (r : Bytes) (counter : Nat) (data : Bytes) : Bytes :=
  let head := beBytes 1 1 ++ beBytes 1 (u8 r 17 % 2) ++ beBytes 2 (u16 r 2) ++ beBytes 4 counter ++ beBytes 1 (u8 r 16) ++ zeros 3 ++ data
  head ++ beBytes 4 (scrc (u32 r 4) head)

/-- The frame of a telegram without its FCS (R353): addresses, tag, Ethertype, payload, padding. -/
def State.teleFrame (s : State) (r : Bytes) (payload : Bytes) : Bytes :=
  let b := beBytes 6 (u48 r 8) ++ beBytes 6 s.pubMac ++ (if bit (u8 r 17) 1 then beBytes 2 0x8100 ++ beBytes 2 (u16 r 14) else [])
    ++ beBytes 2 0x88B5 ++ payload
  b ++ zeros (60 - b.length)

/-- The telegrams of a side's Collect phase (R354): after the PRP-numbered frames, ascending. -/
def State.collectTelegrams (s : State) (sd : SideId) (w : Nat) : State :=
  (s.teleRecs 0).foldl (fun t e =>
    let r := e.2
    if u8 r 18 ≠ 0 ∧ tickIndex w % u8 r 18 = 0 then
      match Tbl.find (t.side sd).presented (taskKey 63 (u8 r 19)) with
      | none => t
      | some img =>
        let c := wrapUp (Tbl.getD (t.side sd).teleCount e.1 0)
        t.modSide sd fun x => { x with
          teleCount := Tbl.put x.teleCount e.1 c
          pubQueue := if x.withheld.contains 63 then x.pubQueue
            else x.pubQueue ++ [⟨63, u16 r 24, .telegram sd (u16 r 24) (s.teleFrame r (telePayload r c (sub img (u16 r 20) (4 * u8 r 16))))⟩] }
    else t) s

/-! ### The scales (R355) -/

/-- Whether a payload counts for a subscription record: VERSION, SAFETY_ID, N_WORDS, SCRC, TEST. -/
def teleMatches (r : Bytes) (f : TeleFrame) : Bool :=
  let n := u8 r 16
  let body := sub f.payload 0 (12 + 4 * n)
  u48 r 8 == f.dst.toNat && u8 f.payload 0 == 1 && u16 f.payload 2 == u16 r 2 && u8 f.payload 8 == n
    && decide (16 + 4 * n ≤ f.payload.length) && u32 f.payload (12 + 4 * n) == scrc (u32 r 4) body
    && bit (u8 f.payload 1) 0 == bit (u8 r 17) 0

/-- The COUNTER last accepted on a side: pending its seal, else the sealed one. -/
def State.teleLast (s : State) (sd : SideId) (t : Nat) : Option Nat :=
  match Tbl.find (s.side sd).teleAcc t with
  | some a => some a.1
  | none => match Tbl.find s.teleSubs t with
    | some x => x.counter
    | none => none

/-- Whether a COUNTER is newer than the last accepted (R355, after R209). -/
def newerCounter (last : Option Nat) (c : Nat) : Bool :=
  match last with
  | none => true
  | some l => let d := (c + 4294967296 - l) % 4294967296; decide (1 ≤ d ∧ d ≤ 2147483647)

def State.putCopies (s : State) (sd : SideId) (t : Nat) (l : List TeleCopy) : State :=
  s.modSide sd fun x => { x with teleCopies := Tbl.put x.teleCopies t l }

/-- A copy arrives (R355). -/
def State.teleReceive (s : State) (sd lan : SideId) (f : TeleFrame) : State :=
  match (s.teleRecs 1).find? fun e => teleMatches e.2 f with
  | none => s
  | some (t, r) =>
    let c := u32 f.payload 4
    let old := Tbl.getD (s.side sd).teleCopies t []
    let mine : TeleCopy := ⟨lan, c, sub f.payload 0 (16 + 4 * u8 r 16), s.now + 1⟩
    if !newerCounter (s.teleLast sd t) c then s.tick1 (Rg.teleErrs sd t) Fd.teleErrsOld
    else
      match old.find? fun o => o.lan != lan && o.counter == c && decide (mine.arrival < o.arrival + u8 r 18) with
      | none => s.putCopies sd t (old.filter (fun o => !(o.lan == lan && o.counter == c)) ++ [mine])
      | some o =>
        let rest := old.filter fun q => q.counter != c
        if o.payload = mine.payload then
          (s.putCopies sd t rest).modSide sd fun x => { x with teleAcc := Tbl.put x.teleAcc t (c, sub f.payload 12 (4 * u8 r 16)) }
        else (s.putCopies sd t rest).tick1 (Rg.teleErrs sd t) Fd.teleErrsMismatch

/-- Copies whose partner has missed the window at the seal of tick w count as MISSING (R355). -/
def State.teleSweep (s : State) (sd : SideId) (w : Nat) : State :=
  (s.teleRecs 1).foldl (fun t e =>
    let l := Tbl.getD (t.side sd).teleCopies e.1 []
    let gone := l.filter fun o => decide (o.arrival + u8 e.2 18 ≤ w)
    if gone.isEmpty then t
    else (t.putCopies sd e.1 (l.filter fun o => decide (w < o.arrival + u8 e.2 18))).count (Rg.teleErrs sd e.1) Fd.teleErrsMissing gone.length) s

/-- A telegram subscription as it stands: castled in, nothing accepted. -/
def State.teleSub (s : State) (t : Nat) : TeleSub := Tbl.getD s.teleSubs t ⟨none, s.now, false, []⟩

/-- The tick at which a subscription expires (R356). -/
def teleExpiry (r : Bytes) (x : TeleSub) : Nat := x.start + ceilDiv (24 * u16 r 22) 5

/-- TELEGRAM_WATCHDOG: no COUNTER accepted within WATCHDOG (R356). -/
def State.teleWatch (s : State) (t : Nat) : State :=
  match (s.teleRecs 1).find? fun e => e.1 == t with
  | some e =>
    let x := s.teleSub t
    if !x.expired && decide (teleExpiry e.2 x ≤ s.now) then { s with teleSubs := Tbl.put s.teleSubs t { x with expired := true } } else s
  | none => s

/-- The bell entries of telegrams at the seal of tick w (R355): index, flags, COUNTER, 3. -/
def State.teleEntries (s : State) (sd : SideId) (w : Nat) : List (Nat × Nat × Nat × Nat) :=
  (s.teleRecs 1).filterMap fun e =>
    match Tbl.find (s.side sd).teleAcc e.1 with
    | some a => some (u16 e.2 20, 0, a.1, 3)
    | none =>
      let x := s.teleSub e.1
      if !x.expired && decide (teleExpiry e.2 x ≤ w) then some (u16 e.2 20, 1, x.counter.getD 0, 3) else none

/-- A telegram entry is sealed in the bell of tick w. -/
def State.sealTele (s : State) (sd : SideId) (w : Nat) (e : Nat × Nat × Nat × Nat) : State :=
  match (s.teleRecs 1).find? fun x => u16 x.2 20 == e.1 with
  | none => s
  | some (t, _) =>
    let x := s.teleSub t
    if bit e.2.1 0 then { s with teleSubs := Tbl.put s.teleSubs t { x with expired := true } }
    else
      match Tbl.find (s.side sd).teleAcc t with
      | some a => { s with teleSubs := Tbl.put s.teleSubs t ⟨some a.1, w, false, a.2⟩ }
      | none => s

/-- A side is done with the telegram that a sealed entry names. -/
def State.settleTele (s : State) (sd : SideId) (e : Nat × Nat × Nat × Nat) : State :=
  match (s.teleRecs 1).find? fun x => u16 x.2 20 == e.1 with
  | none => s
  | some (t, _) => s.modSide sd fun y => { y with teleAcc := match Tbl.find y.teleAcc t with
      | some b => if b.1 = e.2.2.1 then Tbl.del y.teleAcc t else y.teleAcc
      | none => y.teleAcc }

/-- Whether a side holds the telegram an entry names (R51, R355). -/
def State.holdsTele (s : State) (sd : SideId) (e : Nat × Nat × Nat × Nat) : Bool :=
  bit e.2.1 0 || (match (s.teleRecs 1).find? fun x => u16 x.2 20 == e.1 with
    | none => false
    | some (t, _) => match Tbl.find (s.side sd).teleAcc t with
      | some b => b.1 == e.2.2.1
      | none => false)

/-- A KIND 3 entry on a telegram subscription (R356). -/
def State.teleInput (s : State) (w : Nat) (r : Bytes) : Bytes :=
  let x := s.teleSub (u8 r 0)
  let n := 4 * u8 r 16
  let blank := x.expired || x.counter.isNone
  beBytes 4 (x.counter.getD 0) ++ beBytes 4 3 ++ beBytes 4 (b2n x.expired + b2n (bit (u8 r 17) 0) * 2 + b2n x.counter.isNone * 8)
    ++ beBytes 4 (min (w - x.start) 65535) ++ (if blank then zeros n else fit n x.data)

/-- A safety castling has installed a new table: changed subscriptions start afresh at tick `s.now`. -/
def State.castledTelegrams (s : State) (old : Bytes) : State :=
  let before := teleRecsIn old 1
  (upto 64).foldl (fun t k =>
    let a : Option Bytes := (before.find? fun e => e.1 == k).map (·.2)
    let b : Option Bytes := ((t.teleRecs 1).find? fun e => e.1 == k).map (·.2)
    if a = b then t
    else
      let t1 : State := { t with teleSubs := Tbl.set t.teleSubs k (match b with | some _ => some ⟨none, t.now, false, []⟩ | none => none) }
      t1.forSides fun d u => u.modSide d fun y => { y with teleCopies := Tbl.del y.teleCopies k, teleAcc := Tbl.del y.teleAcc k }) s

/-- TELE_SEALED[t]. -/
def State.teleSealedWord (s : State) (t : Nat) : Nat :=
  match Tbl.find s.teleSubs t with
  | some x => x.counter.getD 0 * 2 ^ 32 + b2n x.counter.isNone * 2 + b2n x.expired
  | none => 2

def cmdTeleStatus (h : CmdHdr) (p : Bytes) (s : State) : CmdOut :=
  if !okRange (u8 p 0) (u8 p 1) 64 63 then refuse s .range
  else done s ((fitItems h 0 ((upto (u8 p 1)).map fun k =>
    let t := u8 p 0 + k
    beBytes 8 (s.teleSealedWord t) ++ bothSides.flatMap fun sd => beBytes 4 (s.regWord (Rg.teleErrs sd t)))).flatMap id)

def specTeleStatus : CmdSpec := ⟨0x0C05, always .observer, fun _ => false, lenIs 2, false, fun _ _ st => st == 63, false, cmdTeleStatus⟩
def execTeleStatus (h : CmdHdr) (p : Bytes) (s : State) : Host.Outcome State Fault Refusal := runCmd specTeleStatus h p s

def execTelegramReceive (side lan : SideId) (f : TeleFrame) (s : State) : Host.Outcome State Fault Refusal := .next (s.teleReceive side lan f)
def execTelegramWatchdog (tele : Fin 64) (s : State) : Host.Outcome State Fault Refusal := .next (s.teleWatch tele.val)

end Sys2Proof.Machine
end

