-- ==== Sys2Proof/Machine/Tasks.lean ====
section
/-! DEFINITION. The scan of a side (R116 to R132, R178): release, input images, activations, presented output images, the
scan commands of R135. `State.sampleTick` is the sample tick the work tick in progress has sealed. -/

namespace Sys2Proof.Machine

/-! ### Entries (R119 to R122) -/

/-- The derived quality word of a status word (R122). -/
def qualityOf (st : Nat) : Nat :=
  let f (i : Nat) : Bool := bit st i
  st % 4 + at_ (b2n (f 19)) 2 + at_ (b2n (f 5)) 3 + at_ (b2n (f 4 || f 15)) 6 + at_ (b2n (f 2 || f 3)) 7 + at_ (b2n (f 8)) 8
    + at_ (b2n (f 6 || f 16 || f 17)) 9 + at_ (b2n (f 3)) 10 + at_ (b2n (f 9)) 11 + at_ (b2n (f 10)) 13 + at_ (b2n (f 12)) 16
    + at_ (b2n (f 13)) 17 + at_ (b2n (f 11)) 18

/-- Bits OR-ed over several words. -/
def orAll (l : List Nat) : Nat := l.foldl (· ||| ·) 0

/-- The record of a channel in the work tick in progress: in a tick that sealed none, the one R35 gives. -/
def State.chanRecord (s : State) (sd : SideId) (ch : Nat) : Bytes :=
  let idle (stopped : Bool) : Bytes := idleRecord (if stopped then 1 + 2 ^ 15 else 1 + 2 ^ 14)
  match s.chain sd ch with
  | none => idle true
  | some x =>
    match s.sampleTick with
    | none => idle (x.cmdStop || s.noSeal == 1)
    | some k => (s.condRecord sd ch k).getD (idle (x.state == 0))

/-- The record of a group, and its quality word: the flags are those of its members, in any tick (R122); in a tick that
seals no sample tick every value is 0 and VALIDITY invalid (R35). -/
def State.groupRecord (s : State) (sd : SideId) (g : Nat) : Bytes × Nat :=
  let blank : Bytes := zeros 32 ++ beBytes 4 1 ++ zeros 12
  match s.modActive.get 0x07 g with
  | none => (blank, 1)
  | some r =>
    let b := (s.sampleTick.bind fun k => s.condRecord sd (65536 + g) k).getD blank
    let members := [u16 r 4, u16 r 6, u16 r 8].map fun ch => u32 (s.chanRecord sd ch) 36
    (b, qualityOf (orAll members / 4 * 4 + u32 b 32 % 4))

/-- What a latched entry has gathered of a channel: EVT, and for each comparator DIR, FRAC and the tick of its first
event. -/
structure Latch where
  evt : Nat
  dir : Nat
  frac : List Nat
  tick : List Nat
  deriving DecidableEq, Repr

def latchBytes (l : Latch) : Bytes :=
  beBytes 1 l.evt ++ beBytes 1 l.dir ++ (upto 4).flatMap fun i => beBytes 2 (l.frac.getD i 0) ++ beBytes 8 (l.tick.getD i 0)

def readLatch (b : Bytes) : Latch :=
  ⟨u8 b 0, u8 b 1, (upto 4).map fun i => u16 b (2 + 10 * i), (upto 4).map fun i => u64 b (4 + 10 * i)⟩

/-- Gather the events of a record of sample tick k: the first event of each comparator stands. -/
def Latch.add (l : Latch) (r : Bytes) (k : Nat) : Latch :=
  let st := u32 r 36
  let new (i : Nat) : Bool := bit st (20 + i) && !bit l.evt i
  { evt := l.evt ||| bits st 23 20
    dir := (upto 4).foldl (fun d i => if new i && bit st (24 + i) then d ||| 2 ^ i else d) l.dir
    frac := (upto 4).map fun i => if new i then u16 r (40 + 2 * i) else l.frac.getD i 0
    tick := (upto 4).map fun i => if new i then k else l.tick.getD i 0 }

def noLatch : Latch := ⟨0, 0, [0, 0, 0, 0], [0, 0, 0, 0]⟩

/-- A KIND 1 entry: record, quality word, FIRST (R119, R121). In a tick that seals no sample tick, what a LATCH entry has
gathered is not in it (R35). -/
def State.chanEntryBytes (s : State) (sd : SideId) (ch : Nat) (latch : Option Latch) : Bytes :=
  let r := s.chanRecord sd ch
  let q := beBytes 4 (qualityOf (u32 r 36))
  match latch, s.sampleTick with
  | some l, some k =>
    let st := setBits (setBits (u32 r 36) 23 20 l.evt) 27 24 l.dir
    let first := listSum ((upto 4).map fun i => if bit l.evt i then at_ (min (k - l.tick.getD i 0) 255) (8 * i) else 0)
    sub r 0 36 ++ beBytes 4 st ++ ((upto 4).flatMap fun i => beBytes 2 (if bit l.evt i then l.frac.getD i 0 else 0)) ++ q ++ beBytes 4 first
  | _, _ => r ++ q ++ zeros 4

def gatherField : Nat := 100000

/-- What a task has gathered under a key. -/
def TaskSt.latch (t : TaskSt) (key : Nat) : Latch := match Tbl.find t.gather key with
  | some b => readLatch b
  | none => noLatch

/-- The bytes of one declaration in the work tick in progress. -/
def State.declBytes (s : State) (sd : SideId) (stall : Nat) (t : Task) (d : InputDecl) : Bytes :=
  let x := s.taskSt sd stall t.task
  match d.kind with
  | 1 => (upto d.count).flatMap fun i =>
      s.chanEntryBytes sd (d.source + i) (if d.latch then some (x.latch (d.source + i)) else none)
  | 2 => (upto d.count).flatMap fun i => let r := s.groupRecord sd (d.source + i); r.1 ++ beBytes 4 r.2 ++ zeros 4
  | 3 =>
    match if stall = 63 then (s.teleRecs 1).find? fun e => u16 e.2 20 == d.source else none with
    | some e => s.teleInput s.now e.2
    | none => s.gooseInput s.now d.source
  | 4 => s.fieldInput s.now stall (u32 (Tbl.getD x.gather gatherField (zeros 4)) 0)
  | 5 => s.canInput s.now stall d.source (if x.fresh then 1 else s.now - x.last)
  | 6 =>
    let n := match s.task stall d.source with | some u => u.outSize | none => 0
    fit n (Tbl.getD (s.side sd).presented (taskKey stall d.source) [])
  | _ => []

/-- Where each declaration starts in the input image. -/
def declStarts : Nat → List (InputDecl × Nat) → List (InputDecl × Nat)
  | _, [] => []
  | o, (d, n) :: rest => (d, o) :: declStarts (o + n) rest

/-- What a force puts into a quality word, where it has one: FORCED, source substituted, its validity (R132). -/
def overlayQual (image : Bytes) (f : Force) (qual : Option Nat) : Bytes := match qual with
  | some q => if q + 4 ≤ image.length then patch image q (beBytes 4 ((u32 image q / 4 * 4 + f.validity % 4) ||| (2 ^ 14 + 2 ^ 10))) else image
  | none => image

/-- A forced value over an image, with its quality word (R132). -/
def overlay (image : Bytes) (f : Force) (qual : Option Nat) : Bytes := overlayQual (patch image f.offset (beBytes f.width f.value)) f qual

/-- The quality word that a FORCE_SET gives. -/
def Force.givenQual (f : Force) : Option Nat := if f.qual = 0xFFFFFFFF then none else some f.qual

/-- The quality word of an input force: its entry's own for KIND 1 and 2, else the one the command gives. -/
def forceQual (f : Force) (starts : List (InputDecl × Nat)) : Option Nat :=
  let hit := starts.find? fun e => (e.1.kind == 1 || e.1.kind == 2) && decide (e.2 ≤ f.offset ∧ f.offset < e.2 + 56 * e.1.count)
  match hit with
  | some e => some (e.2 + (f.offset - e.2) / 56 * 56 + 48)
  | none => f.givenQual

/-- The forces on a task's variables of one kind: 1 input, 2 output. -/
def State.taskForces (s : State) (kind stall task : Nat) : List Force :=
  ((Tbl.vals s.forces).filter fun f => f.kind == kind && f.stall == stall && f.task == task)

/-- The forces on field inputs, or outputs, that give a quality word in an image of a task. -/
def State.fieldQuals (s : State) (stall task : Nat) (output : Bool) : List Force :=
  (s.taskForces 3 stall task).filter fun f => f.givenQual.isSome && s.isOutput f.offset == output

/-- The input image of an activation (R119, R120, R132). -/
def State.inputImage (s : State) (sd : SideId) (stall : Nat) (t : Task) : Bytes :=
  let decls := match s.program stall with | some img => declsOf img t | none => []
  let parts := decls.map fun d => (d, s.declBytes sd stall t d)
  let image := fit t.inSize (parts.flatMap (·.2))
  let starts := declStarts 0 (parts.map fun e => (e.1, e.2.length))
  let forced := (s.taskForces 1 stall t.task).foldl (fun b f => overlay b f (forceQual f starts)) image
  (s.fieldQuals stall t.task false).foldl (fun b f => overlayQual b f f.givenQual) forced

/-! ### Gathering (R121, R340) -/

/-- One work tick gathered for a task: while `fresh`, only the latest tick counts. -/
def State.gatherTask (s : State) (sd : SideId) (stall : Nat) (img : Bytes) (t : Task) : State :=
  let x := s.taskSt sd stall t.task
  let g0 : Tbl Bytes := if x.fresh then [] else x.gather
  let g := (declsOf img t).foldl (fun g d =>
    if d.kind = 1 ∧ d.latch then
      (upto d.count).foldl (fun g i =>
        let ch := d.source + i
        let l := match Tbl.find g ch with | some b => readLatch b | none => noLatch
        match s.sampleTick with
        | some k => Tbl.put g ch (latchBytes (l.add (s.chanRecord sd ch) k))
        | none => g) g
    else if d.kind = 4 then
      Tbl.put g gatherField (beBytes 4 (u32 (Tbl.getD g gatherField (zeros 4)) 0 ||| u32 (s.imageFor s.now) 4))
    else g) g0
  if g = x.gather then s else s.putTaskSt sd stall t.task { x with gather := g }

/-- Every enabled task of a Running stall gathers the tick. -/
def State.gatherAll (s : State) (sd : SideId) : State :=
  allStalls.foldl (fun u st =>
    if u.stallState st = stRunning then
      match u.program st with
      | some img => (tasksOf img).foldl (fun v t => if t.enabled then v.gatherTask sd st img t else v) u
      | none => u
    else u) s

/-! ### Release (R117) -/

/-- Insertion by ORDER. -/
def insertOrder (e : Nat × Nat × Task) : List (Nat × Nat × Task) → List (Nat × Nat × Task)
  | [] => [e]
  | x :: rest => if e.2.2.order < x.2.2.order then e :: x :: rest else x :: insertOrder e rest

/-- The tasks a work tick releases, as (core, stall, task) in ascending ORDER. -/
def State.released (s : State) (w : Nat) : List (Nat × Nat × Task) :=
  ((s.allTasks.filter fun e => s.stallState e.1 == stRunning && e.2.enabled && e.2.selects (tickIndex w)).map
    fun e => (e.2.coreNo, e.1, e.2)).foldl (fun l e => insertOrder e l) []

/-- Every core of a side gets its run list for the tick. -/
def State.releaseTasks (s : State) (sd : SideId) (w : Nat) : State :=
  let s1 := s.modSide sd fun x => { x with cores := [] }
  (s.released w).foldl (fun t e =>
    let c := t.coreSt sd e.1
    t.putCore sd e.1 { c with queue := c.queue ++ [(e.2.1, e.2.2.task)] }) s1

/-! ### Activations -/

/-- A task's row of the slice table of its cluster (R144); one that no castling has placed has the sizes of its record. -/
def State.sliceRow (s : State) (sd : SideId) (stall : Nat) (t : Task) : Slice :=
  Tbl.getD (s.side sd).slices (taskKey stall t.task)
    { Slice.whole with inp := (0, t.inSize), out := (0, t.outSize), ret := (0, t.retSize), loc := (0, t.locSize) }

/-- The activation of a released task, input image copied (R120, R124, R140). -/
def State.newAct (s : State) (sd : SideId) (stall : Nat) (t : Task) : Act :=
  let x := s.taskSt sd stall t.task
  let row := s.sliceRow sd stall t
  { actZero with
    stall := stall, task := t.task, tick := s.now, per := t.period
    budget := t.wDecl - t.cIn - 16, cIn := t.cIn, bud := t.wDecl - t.cIn - 16, pc := t.entry
    slice := row, inSize := row.inp.2, outSize := row.out.2, retSize := row.ret.2, locSize := row.loc.2
    inp := memOf (s.inputImage sd stall t), out := x.out, ret := x.ret }

/-- A release uses up what its task has gathered (R121). -/
def State.useGather (s : State) (sd : SideId) (stall task : Nat) : State :=
  s.putTaskSt sd stall task { s.taskSt sd stall task with fresh := false, last := s.now, gather := [] }

/-- The next released activation of a core starts (R117); what its task has gathered is used up. -/
def State.startAct (s : State) (sd : SideId) (n : Nat) : State :=
  let c := s.coreSt sd n
  match c.cur, c.queue with
  | none, (stall, task) :: rest =>
    if c.failed then s
    else match s.task stall task with
      | none => s.putCore sd n { c with queue := rest }
      | some t =>
        let a := s.newAct sd stall t
        let s1 := s.putCore sd n { c with queue := rest, cur := some a }
        s1.useGather sd stall task
  | _, _ => s

/-- The activation in progress runs to its end. -/
def State.runCur (s : State) (sd : SideId) (n : Nat) : State :=
  match (s.coreSt sd n).cur with
  | none => s
  | some a =>
    match s.program a.stall with
    | none => s.abortAct sd n a .discard
    | some img =>
      let b := actRun (imgCode img) a
      match b.status with
      | .running => s.abortAct sd n b .window
      | _ => s.finish sd n b

/-- A core runs everything it has left, at most `fuel` activations. -/
def State.runCore (sd : SideId) (n : Nat) : Nat → State → State
  | 0, s => s
  | k + 1, s =>
    let s1 := s.runCur sd n
    if (s1.coreSt sd n).queue.isEmpty then s1 else State.runCore sd n k (s1.startAct sd n)

/-- The rest of the Scan phase of a side. -/
def State.runScan (s : State) (sd : SideId) : State :=
  let s1 := ((s.side sd).cores.map (·.1)).foldl (fun t n => (State.runCore sd n 66 t).runCur sd n) s
  s1

/-- An activation aborted with DISCARD before it starts (R127); its release counts (R121). -/
def State.discardAct (s : State) (sd : SideId) (n : Nat) (e : Nat × Nat) : State :=
  (s.useGather sd e.1 e.2).abortAct sd n { actZero with stall := e.1, task := e.2, tick := s.now, cIn := 0 } .discard

/-- An activation that had committed is aborted after all: its task stands as before, its held requests are withdrawn. -/
def State.takeBackAct (s : State) (sd : SideId) (e : Nat × Nat × TaskSt) : State :=
  let st := e.1
  let k := e.2.1
  let s1 := (s.useGather sd st k).putTaskSt sd st k { e.2.2 with held := true, fresh := false, last := s.now, gather := [] }
  let s2 := ((s1.wr (Rg.taskState sd (taskKey st k)) Fd.taskStateLastAbort (abortCode .discard)).tick1
    (Rg.taskTally sd (taskKey st k)) Fd.taskTallyAborts).tick1 (Rg.scanDiscards sd) Fd.scanDiscardsDiscard
  let s3 := s2.modSide sd fun x => { x with marks := x.marks.filter fun (m : Mark) =>
    !(m.source == 5 && m.stall == st && m.index == k && m.work == s.now) }
  if s.leads sd then { s3 with ledgerPend := s3.ledgerPend.filter fun (r : LPend) => !(r.cls == 1 && r.stall == st && r.task == k) }
  else s3

/-- The activations a failed cluster's core has committed in this tick are taken back (R127). -/
def State.takeBack (s : State) (sd : SideId) (n : Nat) : State :=
  let s1 := (s.coreSt sd n).done.foldl (fun (t : State) e => t.takeBackAct sd e) s
  s1.putCore sd n { s1.coreSt sd n with done := [] }

/-- The stalls with an activation of this tick on a core, done, running or still to come. -/
def State.stallsOn (s : State) (w n : Nat) : List Nat := (((s.released w).filter fun e => e.1 == n).map fun e => e.2.1).eraseDups

/-- Everything a failed core has left in this tick is aborted with DISCARD, its activation in progress with `r` (R127). -/
def State.discardCore (s : State) (sd : SideId) (n : Nat) (r : AbortReason) : State :=
  let c := s.coreSt sd n
  let s1 := match c.cur with | some a => s.abortAct sd n a r | none => s
  let s2 := c.queue.foldl (fun t e => t.discardAct sd n e) s1
  s2.putCore sd n { s2.coreSt sd n with queue := [], cur := none, failed := true }

/-! ### Presented images (R123, R132, R178) -/

/-- HELD over an image: every quality word marked in QUAL_MAP (R123). -/
def heldOverlay (img : Bytes) (t : Task) (image : Bytes) : Bytes :=
  (upto (t.outSize / 4)).foldl (fun b n =>
    if qualMarked img t n then
      let q := u32 b (4 * n)
      patch b (4 * n) (beBytes 4 ((if q % 4 = 0 then q + 3 else q) ||| (2 ^ 15 + 2 ^ 7)))
    else b) image

/-- The output image that Collect presents for a task: none for an Empty or Created stall. -/
def State.presentedImage (s : State) (sd : SideId) (stall : Nat) (img : Bytes) (t : Task) : Option Bytes :=
  let st := s.stallState stall
  if st = stEmpty ∨ st = stCreated then none
  else
    let x := s.taskSt sd stall t.task
    let base :=
      if st = stRunning then
        let b := memReadBytes x.out 0 t.outSize
        if x.held then heldOverlay img t b else b
      else memReadBytes (failsafeOf img t) 0 t.outSize
    let forced := (s.taskForces 2 stall t.task).foldl (fun b f => overlay b f f.givenQual) base
    some ((s.fieldQuals stall t.task true).foldl (fun b f => overlayQual b f f.givenQual) forced)

/-- The images of every task, by task key. -/
def State.presentAll (s : State) (sd : SideId) : State :=
  let l := allStalls.flatMap fun st => match s.program st with
    | none => []
    | some img => (tasksOf img).filterMap fun t => (s.presentedImage sd st img t).map fun b => (taskKey st t.task, b)
  s.modSide sd fun x => { x with presented := l }

/-! ### The abort limit (R128) -/

def ntModuleCastling : Nat := 1
def ntStallCastling : Nat := 2
def ntSafetyCastling : Nat := 3
def ntRoleChange : Nat := 4
def ntDemotion : Nat := 5
def ntStallReset : Nat := 6

/-- ABORT_LIMIT of a stall's image; 0 means never. -/
def State.abortLimit (s : State) (stall : Nat) : Nat := match s.program stall with
  | some img => imgAbortLimit img
  | none => 0

/-- The precedence of a notice type (R45). -/
def noticeRank (ty : Nat) : Nat :=
  match ty with
  | 5 => 0
  | 4 => 1
  | 3 => 2
  | 1 => 3
  | 2 => 4
  | _ => 5

/-- The stall-reset notice of a stall. -/
def Notice.resets (n : Notice) (stall : Nat) : Bool := n.ty == ntStallReset && n.stall == stall

/-- A notice waits for the next bell; a stall reset only once (R45), by R128 when one of its causes is that (R181). -/
def State.addNotice (s : State) (n : Notice) : State :=
  if n.ty = ntStallReset && s.notices.any (fun m => m.resets n.stall) then
    { s with notices := s.notices.map fun m => if m.resets n.stall then { m with auto := m.auto || n.auto } else m }
  else { s with notices := s.notices ++ [n] }

/-- TALLY_LIMIT: the reset notice is listed in the next bell. -/
def State.tallyLimit (s : State) (stall : Nat) : State :=
  let limit := s.abortLimit stall
  if limit ≠ 0 ∧ limit ≤ Tbl.getD s.tally stall 0 ∧ s.stallState stall = stRunning then
    s.addNotice ⟨ntStallReset, stall, 0, s.now + 1, true⟩
  else s

/-! ### Registers and commands (R135) -/

/-- TASK_STATE[s, t]. -/
def State.taskStateWord (s : State) (sd : SideId) (stall task : Nat) : Nat :=
  let k := taskKey stall task
  let st :=
    match s.task stall task with
    | none => 0
    | some _ => if s.stallState stall ≠ stRunning then 1 else if (s.taskSt sd stall task).held then 3 else 2
  at_ st 30 + at_ (s.rd (Rg.taskState sd k) Fd.taskStateLastAbort) 27 + at_ (min (Tbl.getD s.tally stall 0) 255) 19

def State.shadowProgram (s : State) (stall : Nat) : Option Bytes :=
  if stall = 63 then safeProgram s.safeShadow else (s.stallShadowScope stall).get 0x21 0

def State.programIn (s : State) (set stall : Nat) : Option Bytes := if set = 0 then s.program stall else s.shadowProgram stall

/-- The tasks placed on a core in a set, ascending ORDER. -/
def State.placements (s : State) (set n : Nat) : List (Nat × Nat × Task) :=
  let all := allStalls.flatMap fun st => match s.programIn set st with
    | some img => (tasksOf img).map fun t => (t.coreNo, st, t)
    | none => []
  (all.filter fun e => e.1 == n).foldl (fun l e => insertOrder e l) []

def cmdScanReadTask (_ : CmdHdr) (p : Bytes) (s : State) : CmdOut :=
  if 63 < u8 p 0 ∨ 15 < u8 p 1 ∨ 1 < u8 p 2 then refuse s .range
  else match s.programIn (u8 p 2) (u8 p 0) with
    | none => refuse s .state
    | some img =>
      match ((upto (imgTasks img)).find? fun k => (readTask (imgTaskRec img k)).task == u8 p 1) with
      | none => refuse s .state
      | some k =>
        let t := readTask (imgTaskRec img k)
        done s (sub img 64 16 ++ imgTaskRec img k ++ sub img (80 + 64 * imgTasks img + 8 * declsBefore img t.task) (8 * t.nInputs))

def cmdScanTaskStatus (h : CmdHdr) (p : Bytes) (s : State) : CmdOut :=
  let st := u8 p 0
  if 63 < st then refuse s .range
  else
    let body := (upto 16).flatMap fun t =>
      beBytes 4 (s.taskStateWord h.side st t) ++ beBytes 4 (s.regWord (Rg.taskUsed h.side (taskKey st t)))
        ++ beBytes 4 (s.regWord (Rg.taskTally h.side (taskKey st t)))
    done ((upto 16).foldl (fun u t =>
      (u.wr (Rg.taskUsed h.side (taskKey st t)) Fd.taskUsedUsedMax 0).wr (Rg.taskTally h.side (taskKey st t)) Fd.taskTallyAborts 0) s) body

def cmdScanCoreLoad (_ : CmdHdr) (p : Bytes) (s : State) : CmdOut :=
  let n := u8 p 0
  if 79 < n ∨ 1 < u8 p 1 then refuse s .range
  else
    let l := s.placements (u8 p 1) n
    let ts := l.map (·.2.2)
    let top := cycleDemand ts
    let idx := if ts.isEmpty then [] else ((upto 4800).filter fun i => demandAt ts i == top).take 16
    done s (beBytes 1 n ++ beBytes 1 (u8 p 1) ++ beBytes 1 l.length ++ beBytes 1 idx.length ++ beBytes 4 top
      ++ ((idx ++ List.replicate (16 - idx.length) 65535).flatMap fun i => beBytes 2 i)
      ++ l.flatMap fun e => beBytes 1 e.2.1 ++ beBytes 1 e.2.2.task ++ beBytes 1 e.2.2.order ++ [0] ++ beBytes 2 e.2.2.period
          ++ beBytes 2 e.2.2.phase ++ beBytes 4 e.2.2.wDecl)

def specScanReadTask : CmdSpec := ⟨0x0500, always .observer, fun _ => false, lenIs 3, false, ownsFirst, false, cmdScanReadTask⟩
def specScanTaskStatus : CmdSpec := ⟨0x0501, always .observer, fun _ => false, lenIs 1, false, ownsFirst, true, cmdScanTaskStatus⟩
def specScanCoreLoad : CmdSpec := ⟨0x0502, always .observer, fun _ => false, lenIs 2, false, ownsNone, false, cmdScanCoreLoad⟩

def execScanReadTask (h : CmdHdr) (p : Bytes) (s : State) : Host.Outcome State Fault Refusal := runCmd specScanReadTask h p s
def execScanTaskStatus (h : CmdHdr) (p : Bytes) (s : State) : Host.Outcome State Fault Refusal := runCmd specScanTaskStatus h p s
def execScanCoreLoad (h : CmdHdr) (p : Bytes) (s : State) : Host.Outcome State Fault Refusal := runCmd specScanCoreLoad h p s
def execActivationStart (c : CoreRef) (s : State) : Host.Outcome State Fault Refusal := .next (s.startAct c.side c.core.val)
def execTallyLimit (stall : Fin 64) (s : State) : Host.Outcome State Fault Refusal := .next (s.tallyLimit stall.val)

end Sys2Proof.Machine
end

