-- ==== Sys2Proof/Machine/Ledger.lean ====
section
/-! DEFINITION. The Ledger (R315 to R334): admission, buckets, the staging queue, flood summaries, snapshots, reading,
export. The module area is one for both sides, which hold it alike (R315). -/

namespace Sys2Proof.Machine

/-! ### Admission (R325 to R329) -/

/-- Every bucket of the module area that is not full gains its rate. -/
def State.refill (s : State) : State := { s with buckets := s.refilled s.buckets }

/-- A castling has changed the rate table: a bucket that was full holds what was its most, which a larger burst raises only
by its rate (R326). -/
def State.keepBuckets (s : State) (old : Scope) : State :=
  let before (code : Nat) : Nat := ({ s with modActive := old } : State).bucketMax code
  let codes := (((old.block 0x10) ++ s.modActive.block 0x10).map (·.1)).eraseDups.filter fun c => before c < s.bucketMax c
  let keys := codes.flatMap fun c => if 0x0800 ≤ c ∧ c ≤ 0x0A0F then allStalls.map fun st => c * 64 + st else [c * 64]
  let keep (b : Tbl Nat) : Tbl Nat := keys.foldl (fun b k => if (Tbl.find b k).isSome then b else Tbl.put b k (before (k / 64))) b
  ({ s with buckets := keep s.buckets }).forSides fun sd t => t.modSide sd fun x => { x with sideBuckets := keep x.sideBuckets }

/-- The owners that hold a module-area region (R328). -/
def State.owners (s : State) : List Nat := allStalls.filter fun st => s.regionCap st != 0

/-- The share of each owner of the 448 open entries. -/
def State.queueShare (s : State) : Nat := 448 / s.owners.length

/-- Why a record is dropped. -/
inductive LDrop where
  | quota
  | rate
  | queue
  deriving DecidableEq, Repr

/-- Count a dropped record, on both sides, and towards its flood summary. -/
def State.countDrop (s : State) (code stall : Nat) (d : LDrop) : State :=
  let s1 := s.forSides fun sd t =>
    match d with
    | .quota => (t.tick1 (Rg.ledgerDrops2 sd) Fd.ledgerDrops2Quota).tick1 (Rg.ledgerCodeDrop sd code) Fd.ledgerCodeDropOther
    | .rate => (t.tick1 (Rg.ledgerDrops sd) Fd.ledgerDropsRate).tick1 (Rg.ledgerCodeDrop sd code) Fd.ledgerCodeDropRate
    | .queue => (t.tick1 (Rg.ledgerDrops sd) Fd.ledgerDropsQueue).tick1 (Rg.ledgerCodeDrop sd code) Fd.ledgerCodeDropOther
  { s1 with floodCounts := floodAdd s1.floodCounts code stall (d == .queue) }

/-- An admitted record is written: it takes the next SEQ and an entry of the staging queue. -/
def State.writeRecord (s : State) (cls stall code origin owner : Nat) (body : Bytes) : State :=
  let seq := s.regWord Rg.ledgerSeq
  let r : LRec := ⟨false, cls, stall, code, 0, seq, s.now, origin, body⟩
  let g := ({ s.region owner with cap := s.regionCap owner }).write r
  let s1 := { s with regions := Tbl.put s.regions owner g.1, ledgerQueue := s.ledgerQueue ++ [owner] }
  let s2 := s1.putReg Rg.ledgerSeq (seq + 1)
  let s3 := if g.2 then s2.setFlag (Rg.ledgerRegion owner) Fd.ledgerRegionWrapped true else s2
  s3.forSides fun sd t => t.raise (Rg.ledgerQueue sd) Fd.ledgerQueueHighWater s3.ledgerQueue.length

/-- One record through the checks of R325. -/
def State.checkRecord (s : State) (r : LPend) : State :=
  let code := codeNumber r.code
  let owner := recOwner code r.stall
  let cls := if r.cls = 2 then 1 else 2
  if r.change then s.writeRecord cls r.stall code r.origin owner r.body
  else if s.regionCap owner = 0 then s.countDrop code r.stall .quota
  else if !s.holdsToken s.buckets code r.stall then s.countDrop code r.stall .rate
  else
    let s1 := { s with buckets := s.spendToken s.buckets code r.stall }
    if 448 < s1.ledgerQueue.length + 1 ∨ s1.queueShare < (s1.ledgerQueue.filter (· == owner)).length + 1 then s1.countDrop code r.stall .queue
    else s1.writeRecord cls r.stall code r.origin owner r.body

/-- A record is admitted or dropped; the Crier reports its event with the SEQ that the record has taken, or 0 (R408). -/
def State.admitRecord (s : State) (r : LPend) : State :=
  let t := s.checkRecord r
  let seq := s.regWord Rg.ledgerSeq
  if r.report then t.crier t.speaker r.code 0 (if t.regWord Rg.ledgerSeq = seq then 0 else seq) r.stall r.body else t

/-- The order of R325: a bell lists its notices, by precedence and stall (R45), before its commands. -/
def pendRank (r : LPend) : Nat :=
  r.cls * 2 ^ 40 + (match r.cls with
    | 0 => if r.task = 0 then 2 ^ 16 else r.task * 2 ^ 8 + r.stall
    | 1 => r.stall * 2 ^ 8 + r.task
    | 2 => r.stall * 2 ^ 16 + r.code
    | 3 => codeNumber r.code
    | _ => 0)

/-- Stable insertion by rank. -/
def insertPend (r : LPend) : List LPend → List LPend
  | [] => [r]
  | x :: rest => if pendRank r < pendRank x then r :: x :: rest else x :: insertPend r rest

/-- The flood summaries of a second join those that wait (R329): one for each code and stall that dropped; a waiting one
absorbs the count. -/
def mergeFloods (second : Nat) (counts : Tbl (Nat × Nat)) (floods : List Flood) : List Flood :=
  let put (l : List Flood) (k : Nat) (n : Nat × Nat) : List Flood :=
    let f : Flood := ⟨k / 64, k % 64, n.1, n.2, second⟩
    if l.any fun x => x.code == f.code && x.stall == f.stall then
      l.map fun x => if x.code = f.code ∧ x.stall = f.stall then { f with dropped := x.dropped + f.dropped, queuePart := x.queuePart + f.queuePart } else x
    else
      (l.filter fun x => decide (x.code * 64 + x.stall < k)) ++ [f] ++ l.filter fun x => decide (k < x.code * 64 + x.stall)
  counts.foldl (fun l e => put l e.1 e.2) floods

/-- A new TAI second begins: the drops of the last one, in the module area and in each side area, become summaries. -/
def State.floodSecond (s : State) : State :=
  let second := s.now / 4800 - 1
  let s1 := { s with floods := mergeFloods second s.floodCounts s.floods, floodCounts := [] }
  s1.forSides fun sd t => t.modSide sd fun x => { x with sideFloods := mergeFloods second x.sideDrops x.sideFloods, sideDrops := [] }

def floodBody (f : Flood) : Bytes :=
  beBytes 2 f.code ++ beBytes 1 f.stall ++ [0] ++ beBytes 4 f.dropped ++ beBytes 4 f.queuePart ++ beBytes 4 f.second

/-- Up to 16 flood summaries in a tick. -/
def State.admitFloods (s : State) : State :=
  let now := s.floods.take 16
  now.foldl (fun t f => t.writeRecord 2 f.stall lcFlood 0 0 (floodBody f)) { s with floods := s.floods.drop 16 }

/-- The same in a side area, at T0. -/
def State.admitSideFloods (s : State) (sd : SideId) : State :=
  let now := (s.side sd).sideFloods.take 16
  now.foldl (fun (t : State) f => t.sideWrite sd 2 lcFlood f.stall 0 0 (floodBody f))
    (s.modSide sd fun x => { x with sideFloods := x.sideFloods.drop 16 })

/-- The admission of a work tick, at the end of its Collect phase. -/
def State.admitAll (s : State) : State :=
  let s1 := s.refill
  let l := s1.ledgerPend.foldl (fun acc r => insertPend r acc) []
  (l.foldl (fun (t : State) r => t.admitRecord r) { s1 with ledgerPend := [] }).admitFloods

/-- The start of a tick: both staging queues drain by 32 (R327); the side areas' buckets gain their rates (R326). -/
def State.drainQueues (s : State) : State :=
  ({ s with ledgerQueue := s.ledgerQueue.drop 32 }).forSides fun sd t =>
    t.modSide sd fun x => { x with sideQueue := x.sideQueue - 32, sideBuckets := t.refilled x.sideBuckets }

/-- The power-fail flush (R331): what waits for admission is admitted, and both staging queues are committed. -/
def State.flushQueues (s : State) : State :=
  ({ (if s.ledgerPend.isEmpty then s else s.admitAll) with ledgerQueue := [] }).forSides fun sd t => t.modSide sd fun x => { x with sideQueue := 0 }

/-! ### Notes (R323) -/

/-- The active side lists a LEDGER_NOTE for a side event. -/
def State.note (s : State) (code : Nat) (body : Bytes) : State :=
  let p := beBytes 2 (codeNumber code) ++ beBytes 8 s.now ++ recBody body
  let h : CmdHdr := ⟨s.speaker, .internal, 0, 0, 0, 0, 0, 0⟩
  s.listOwn { hdr := h, op := 0x0B05, params := p, tick := 0, answered := false, listed := true }

/-! ### Snapshots (R319) -/

/-- Ranges of a snapshot set. -/
def snapshotRange (r : Bytes) : Bool :=
  decide (u8 r 0 ≤ 63 ∧ u8 r 1 ≤ 15 ∧ 1 ≤ u8 r 2 ∧ u8 r 2 ≤ 64) && allZero (sub r 3 5) && r.length == 8 + 8 * u8 r 2
    && (upto (u8 r 2)).all fun k =>
      let e := sub r (8 + 8 * k) 8
      u16 e 2 == 0 && (match u8 e 0 with
        | 1 => decide (u8 e 1 ≤ 15) && u32 e 4 % 4 == 0
        | 2 => decide (u8 e 1 ≤ 11 ∧ u32 e 4 ≤ 8191)
        | 3 => u8 e 1 == 0
        | 4 => u8 e 1 == 0
        | _ => false)

/-- Whether a set holds a side-local register. -/
def snapshotLocal (r : Bytes) : Bool := (upto (u8 r 2)).any fun k => u8 r (8 + 8 * k) == 4

/-- Whether a set names registers at all (stall 0 only). -/
def snapshotRegs (r : Bytes) : Bool := (upto (u8 r 2)).any fun k => decide (3 ≤ u8 r (8 + 8 * k))

/-- One value of a set on a side; `regRead` reads a register. -/
def State.snapshotValue (s : State) (sd : SideId) (stall : Nat) (regRead : Nat → Nat) (e : Bytes) : Nat :=
  match u8 e 0 with
  | 1 => (s.presentedWord sd stall (u8 e 1) (u32 e 4)).getD 0
  | 2 => u32 (s.chanRecord sd (u32 e 4)) (4 * u8 e 1)
  | _ => regRead (u32 e 4) % 2 ^ 32

def State.snapshotBody (s : State) (sd : SideId) (stall : Nat) (regRead : Nat → Nat) (r : Bytes) : Bytes :=
  fit 256 ((upto (u8 r 2)).flatMap fun k => beBytes 4 (s.snapshotValue sd stall regRead (sub r (8 + 8 * k) 8)))

/-- The principal of a mark's snapshot (R321). -/
def markOrigin (m : Mark) : Nat :=
  match m.source with
  | 5 => 0x80000000 + 16 * m.stall + m.index
  | 6 => m.index
  | _ => 0

/-- The snapshots of the marks a side writes in work tick w: a set with side-local registers goes to the side area, any
other once to the stall's region. -/
def State.takeSnapshots (s : State) (sd : SideId) (w : Nat) (regRead : State → Nat → Nat) : State :=
  ((s.side sd).marks.filter fun m => m.work == w).foldl (fun t m =>
    match (t.stallScope m.stall).get 0x26 m.line with
    | none => t
    | some r =>
      let body := t.snapshotBody sd m.stall (regRead t) r
      if snapshotLocal r then t.sideRecord sd 1 (0x0A00 + m.line) m.stall (markOrigin m) (203000 / 4) body
      else if t.speaker = sd then t.ledger ⟨2, m.stall, 0, 0x0A00 + m.line, markOrigin m, body, false, false⟩
      else t) s

/-! ### Reading (R332) -/

/-- Insertion by SEQ. -/
def insertSeq (r : LRec) : List LRec → List LRec
  | [] => [r]
  | x :: rest => if r.seq < x.seq then r :: x :: rest else x :: insertSeq r rest

/-- The records of the module area, by SEQ, with those of segments given back and not yet reused. -/
def State.moduleRecords (s : State) : List LRec := ((s.regions.flatMap fun e => e.2.records) ++ (⟨s.freed, 0, [], 0⟩ : LRegion).records).foldr insertSeq []

/-- The records of an area as a side shows them. -/
def State.areaRecords (s : State) (sd : SideId) (area : Nat) : List LRec :=
  if area = 0 then s.moduleRecords else (s.side sd).sideArea.records

/-- The 32 bytes at the head of a segment (R316); STALL is 0xFF for the module region and the side area. -/
def LSeg.header (x : LSeg) (sideArea : Bool) (owner : Nat) : Bytes :=
  beBytes 2 0x4B4C ++ beBytes 1 (b2n sideArea) ++ beBytes 1 (if sideArea ∨ owner = 0 then 0xFF else owner) ++ zeros 4
    ++ beBytes 8 x.epoch ++ beBytes 8 x.firstSeq ++ zeros 8

/-- The 64 KiB of a segment as BAR2 shows them (R316, R333). -/
def LSeg.bytes (x : LSeg) (sideArea : Bool) (owner : Nat) : Bytes := fit 65536 (x.header sideArea owner ++ x.recs.flatMap LRec.bytes)

/-- LEDGER_OLDEST: the lowest SEQ still present; the next SEQ while there is none. -/
def State.ledgerOldestWord (s : State) : Nat := match s.moduleRecords with
  | r :: _ => r.seq
  | [] => s.regWord Rg.ledgerSeq

/-- LEDGER_QUEUE with its live occupancies. -/
def State.ledgerQueueWord (s : State) (sd : SideId) : Nat :=
  at_ (s.side sd).sideQueue 22 + at_ (s.rd (Rg.ledgerQueue sd) Fd.ledgerQueueHighWater) 12 + s.ledgerQueue.length

/-- LEDGER_REGION[s]. -/
def State.ledgerRegionWord (s : State) (stall : Nat) : Nat :=
  at_ (s.rd (Rg.ledgerRegion stall) Fd.ledgerRegionWrapped) 31 + s.regionCap stall

def cmdLedgerStatus (_ : CmdHdr) (_ : Bytes) (s : State) : CmdOut :=
  done s (bothSides.flatMap fun sd =>
    beBytes 8 (s.regWord Rg.ledgerSeq) ++ beBytes 8 s.ledgerOldestWord ++ beBytes 8 (s.regWord (Rg.ledgerSideSeq sd))
      ++ beBytes 4 (s.ledgerQueueWord sd) ++ beBytes 4 (s.regWord (Rg.ledgerDrops sd)) ++ beBytes 4 (s.regWord (Rg.ledgerDrops2 sd)))

/-- Whole records up to a number of bytes. -/
def moreRecords : Nat → Nat → List LRec → List LRec
  | _, _, [] => []
  | 0, _, _ => []
  | n + 1, room, r :: rest => if r.length ≤ room then r :: moreRecords n (room - r.length) rest else []

/-- At most n whole records up to a number of bytes, and at least one (R334). -/
def takeRecords : Nat → Nat → List LRec → List LRec
  | 0, _, _ => []
  | _, _, [] => []
  | n + 1, room, r :: rest => r :: moreRecords n (room - r.length) rest

/-- The next SEQ of an area. -/
def State.nextSeq (s : State) (sd : SideId) (area : Nat) : Nat := s.regWord (if area = 0 then Rg.ledgerSeq else Rg.ledgerSideSeq sd)

/-- READ_RECORDS: the reply sets GAP where the record asked for first is gone (R332). -/
def cmdReadRecords (h : CmdHdr) (p : Bytes) (s : State) : CmdOut :=
  let area := u8 p 0
  let filter := u8 p 1
  let from_ := u64 p 2
  let n := u16 p 10
  if 1 < area ∨ (63 < filter ∧ filter ≠ 255) ∨ n = 0 ∨ 255 < n then refuse s .range
  else
    let all := s.areaRecords h.side area
    let mine := all.filter fun r => decide (from_ ≤ r.seq) && (filter == 255 || r.stall == filter) && (h.stall == 0 || r.stall == h.stall.toNat)
    match mine with
    | [] => refuse s .state
    | _ =>
      let out := takeRecords n (min 8192 (replyLimit h - 57)) mine
      let next := match out.getLast? with | some r => r.seq + 1 | none => from_
      let gap := decide (1 ≤ from_) && decide (from_ < s.nextSeq h.side area) && !(all.any fun r => r.seq == from_)
      done s (out.flatMap LRec.bytes ++ beBytes 8 next ++ beBytes 1 (b2n gap))

/-! ### Rates, snapshots, export, notes, codes (R334) -/

def cmdLedgerSetRate (_ : CmdHdr) (p : Bytes) (s : State) : CmdOut :=
  let first := u16 p 0
  let n := u16 p 2
  let entry (k : Nat) : Bytes := sub p (4 + 4 * k) 4
  if n = 0 ∨ 248 < n ∨ 4096 < first + n ∨ p.length ≠ 4 + 4 * n
      ∨ (upto n).any fun k => decide (4800 < u16 (entry k) 0) || u8 (entry k) 2 == 0 || u8 (entry k) 3 != 0 then refuse s .range
  else done (s.modifyModShadow fun c => (upto n).foldl (fun c k => c.putRec 0x10 (first + k) (entry k)) c) []

def cmdLedgerSetSnapshot (_ : CmdHdr) (p : Bytes) (s : State) : CmdOut :=
  if snapshotRange p then setStallRec s (u8 p 0) 0x26 (u8 p 1) p else refuse s .range

def cmdLedgerExport (h : CmdHdr) (p : Bytes) (s : State) : CmdOut :=
  let r := u8 p 0
  let sd := h.side
  if 63 < r ∨ 1 < u8 p 1 then refuse s .range
  else if s.rd (Rg.ringCfg sd r) Fd.ringCfgOwner ≠ h.stall.toNat then refuse s .noRight
  else if !s.ringRuns sd r ∨ s.rd (Rg.ringCfg sd r) Fd.ringCfgKind ≠ 1 then refuse s .state
  else done (s.putRing sd r { s.ring sd r with export_ := some (u8 p 1, h.stall.toNat, u64 p 2) }) []

/-- An export goes on while its ring takes records. -/
def State.exportRing (s : State) (sd : SideId) (r area stall : Nat) : List LRec → State
  | [] => s
  | x :: rest =>
    let t := s.ringPut sd r x.bytes
    if t.2 then (t.1.putRing sd r { t.1.ring sd r with export_ := some (area, stall, x.seq + 1) }).exportRing sd r area stall rest
    else t.1

/-- Every export of a side, once a tick. -/
def State.exportAll (s : State) (sd : SideId) : State :=
  (s.side sd).rings.foldl (fun t e =>
    match e.2.export_ with
    | some (area, stall, next) =>
      t.exportRing sd e.1 area stall ((t.areaRecords sd area).filter fun r => decide (next ≤ r.seq) && (stall == 0 || r.stall == stall))
    | none => t) s

/-- LEDGER_NOTE: the record NOTE, whose body names the code and the tick of the event. -/
def cmdLedgerNote (_ : CmdHdr) (p : Bytes) (s : State) : CmdOut :=
  if p.length < 26 then refuse s .range else done (s.ledger ⟨0, 0, 0, lcNote, 0, recBody p, false, false⟩) []

/-- The names the spec gives to codes (R322, R464, R498), in ASCII. -/
def codeText (c : Nat) : Option String :=
  match c with
  | 0x0010 => some "CHANGE"
  | 0x0011 => some "REFUSED_AT_BELL"
  | 0x0012 => some "NOTE"
  | 0x0410 => some "SIDE_CHANGE"
  | 0x0412 => some "REFUSED_PRINCIPAL"
  | 0x0420 => some "PART_FAULT"
  | 0x0421 => some "SPARE_IN"
  | 0x0422 => some "CORRECTED"
  | 0x0423 => some "TEST_FAIL"
  | 0x0424 => some "DEEP_TEST"
  | 0x0430 => some "BOOT"
  | 0x0431 => some "POWER_DIP"
  | 0x0432 => some "ORDERLY_STOP"
  | 0x0433 => some "GATE_WAIT"
  | 0x0434 => some "HOLDUP_LOW"
  | _ => none

/-- The name of a code, as 24 ASCII bytes; where the spec gives none, what the subsystem calls its event is open. -/
def codeName (c : Nat) : Bytes :=
  match codeText c with
  | some n => fit 24 (n.toList.map fun ch => BitVec.ofNat 8 ch.toNat)
  | none => fit 24 (Config.eventName c)

def cmdLedgerCodes (h : CmdHdr) (p : Bytes) (s : State) : CmdOut :=
  let first := u16 p 0
  let n := u16 p 2
  if n = 0 ∨ 256 < n ∨ 4096 < first + n then refuse s .range
  else done s ((fitItems h 0 ((upto n).map fun k =>
    let c := first + k
    let r := s.codeRate c
    codeName c ++ beBytes 1 (b2n (decide (0x0400 ≤ c ∧ c ≤ 0x07FF))) ++ beBytes 2 r.1 ++ beBytes 1 r.2
      ++ bothSides.flatMap fun sd => beBytes 4 (s.regWord (Rg.ledgerCodeDrop sd c)))).flatMap id)

def specLedgerStatus : CmdSpec := ⟨0x0B00, always .observer, fun _ => false, lenIs 0, false, ownsNone, false, cmdLedgerStatus⟩
def specReadRecords : CmdSpec := ⟨0x0B01, always .observer, fun _ => false, lenIs 12, false, ownsAny, false, cmdReadRecords⟩
def specLedgerSetRate : CmdSpec :=
  ⟨0x0B02, always .engineer, fun _ => true, fun p => p.length == 4 + 4 * u16 p 2, false, ownsNone, true, cmdLedgerSetRate⟩
def specLedgerSetSnapshot : CmdSpec :=
  ⟨0x0B03, always .engineer, fun _ => true, fun p => decide (8 ≤ p.length) && p.length == 8 + 8 * u8 p 2, false, ownsFirst, true, cmdLedgerSetSnapshot⟩
def specLedgerExport : CmdSpec :=
  ⟨0x0B04, always .engineer, fun _ => false, lenIs 10, false, ownsAny, true, cmdLedgerExport⟩
def specLedgerNote : CmdSpec :=
  ⟨0x0B05, fun _ => none, fun _ => true, fun p => decide (26 ≤ p.length ∧ p.length ≤ 1018), true, ownsNone, false, cmdLedgerNote⟩
def specLedgerCodes : CmdSpec := ⟨0x0B06, always .observer, fun _ => false, lenIs 4, false, ownsNone, false, cmdLedgerCodes⟩

def execLedgerStatus (h : CmdHdr) (p : Bytes) (s : State) : Host.Outcome State Fault Refusal := runCmd specLedgerStatus h p s
def execReadRecords (h : CmdHdr) (p : Bytes) (s : State) : Host.Outcome State Fault Refusal := runCmd specReadRecords h p s
def execLedgerSetRate (h : CmdHdr) (p : Bytes) (s : State) : Host.Outcome State Fault Refusal := runCmd specLedgerSetRate h p s
def execLedgerSetSnapshot (h : CmdHdr) (p : Bytes) (s : State) : Host.Outcome State Fault Refusal := runCmd specLedgerSetSnapshot h p s
def execLedgerExport (h : CmdHdr) (p : Bytes) (s : State) : Host.Outcome State Fault Refusal := runCmd specLedgerExport h p s
def execLedgerNote (h : CmdHdr) (p : Bytes) (s : State) : Host.Outcome State Fault Refusal := runCmd specLedgerNote h p s
def execLedgerCodes (h : CmdHdr) (p : Bytes) (s : State) : Host.Outcome State Fault Refusal := runCmd specLedgerCodes h p s

end Sys2Proof.Machine
end

