-- ==== Sys2Proof/Machine/Renumber.lean ====
section
/-! DEFINITION. A time step gives the next tick another number (R32, R290): what the module counts from a tick or an instant
of its own moves with the step, so that every duration lasts as long as before; samples and anchors of the old time lapse. -/

namespace Sys2Proof.Machine

/-- The numbers of the tick in progress by the old and the new time. -/
structure Renumbering where
  old : Nat
  new : Nat
  deriving DecidableEq, Repr

/-- A tick by the new numbers. -/
def Renumbering.tick (r : Renumbering) (k : Nat) : Nat := k + r.new - r.old

/-- An instant by the new time, in parts of which `unit` make a ns. -/
def Renumbering.instant (r : Renumbering) (unit t : Nat) : Nat :=
  t + unit * tickStart (r.new + 1) - unit * tickStart (r.old + 1)

/-- The tick in which something happened, or 0 where it never did. -/
def Renumbering.since (r : Renumbering) (k : Nat) : Nat := if k = 0 then 0 else r.tick k

def Renumbering.vals (f : α → α) (l : Tbl α) : Tbl α := l.map fun (e : Nat × α) => (e.1, f e.2)

/-- Roles and the bell on a side. -/
def DutySt.renumber (d : DutySt) (r : Renumbering) : DutySt :=
  { d with computed := if d.computed = r.old then r.new else 0, lostUpto := r.new, sealAt := d.sealAt.map r.tick
           promoteAt := d.promoteAt.map r.tick, leaveAt := d.leaveAt.map fun x => (r.tick x.1, x.2), missed := d.missed.map r.tick
           bells := d.bells.map fun x => (r.tick x.1, x.2), digests := d.digests.map fun x => { x with tick := r.tick x.tick }
           migrated := d.migrated.map fun x => (r.tick x.1, x.2)
           resync := { d.resync with start := r.since d.resync.start, final := d.resync.final.map r.tick
                                     retryAt := d.resync.retryAt.map r.tick, guarded := d.resync.guarded.map r.tick } }

/-- A stream keeps what it last delivered; no sample of the old time counts (R32). -/
def StreamSt.renumber (x : StreamSt) : StreamSt :=
  { x with filed := [], sealed_ := [], withdrawn := [], clashed := [], devs := [], sealedBy := none }

/-- The switch of a side: its ports' and crossbar's instants. -/
def SwSt.renumber (x : SwSt) (r : Renumbering) : SwSt :=
  let frames := Renumbering.vals fun (l : List SwFrame) => l.map fun f => { f with stamp := r.instant 65536 f.stamp, ready := if f.ready = 0 then 0 else r.instant 1 f.ready }
  { x with voq := frames x.voq, queues := frames x.queues, crossAt := r.instant 5 x.crossAt, busy := Renumbering.vals (r.instant 1) x.busy
           nodes := Renumbering.vals (r.instant 1) x.nodes, supervised := x.supervised.map r.tick
           ringSeen := Renumbering.vals (r.instant 1) x.ringSeen, clash := x.clash.map r.tick }

/-- What a side holds of its own. -/
def Side.renumber (x : Side) (r : Renumbering) : Side :=
  { x with
    duty := x.duty.renumber r
    streams := Renumbering.vals StreamSt.renumber x.streams
    dups := Renumbering.vals (fun (l : List (Nat × Nat)) => l.map fun q => (q.1, r.tick q.2)) x.dups
    tasks := Renumbering.vals (fun (t : TaskSt) => { t with last := r.since t.last }) x.tasks
    chains := Renumbering.vals (fun (c : ChainSt) => { c with holds := Renumbering.vals r.tick c.holds }) x.chains
    groups := Renumbering.vals (fun (g : GroupSt) => { g with fs := g.fs.map fun e => (r.tick e.1, e.2) }) x.groups
    marks := x.marks.map fun m => { m with t := r.instant 65536 m.t, work := r.tick m.work }
    captWait := Renumbering.vals (fun (l : List CaptWait) => l.map fun c => { c with work := r.tick c.work }) x.captWait
    wavefront := Renumbering.vals (fun (l : List WfEdge) => l.map fun e => { e with t64 := r.instant 64 e.t64 }) x.wavefront
    wfLast := Renumbering.vals (r.instant 64) x.wfLast
    goosePubs := Renumbering.vals (fun (g : GoosePubSt) => { g with due := r.tick g.due }) x.goosePubs
    gooseAcc := Renumbering.vals (fun (a : GooseAcc) => { a with ingress := r.instant 1 a.ingress }) x.gooseAcc
    heldAtT0 := { x.heldAtT0 with goose := Renumbering.vals (fun (a : GooseAcc) => { a with ingress := r.instant 1 a.ingress }) x.heldAtT0.goose }
    teleCopies := Renumbering.vals (fun (l : List TeleCopy) => l.map fun c => { c with arrival := r.tick c.arrival }) x.teleCopies
    outData := x.outData.map fun o => { o with tick := r.tick o.tick }
    sw := x.sw.renumber r
    time := { x.time with servo := { x.time.servo with holdAt := r.since x.time.servo.holdAt, syncAt := r.since x.time.servo.syncAt } }
    rings := Renumbering.vals (fun (g : RingSt) => { g with first := r.since g.first }) x.rings
    health := { x.health with corrected := Renumbering.vals (fun (l : List Nat) => l.map r.tick) x.health.corrected
                              boot := r.tick x.health.boot } }

/-- The Arbiter. -/
def ArbSt.renumber (a : ArbSt) (r : Renumbering) : ArbSt :=
  { a with
    chans := Renumbering.vals (fun (c : ArbCh) => { c with tagTick := r.since c.tagTick }) a.chans
    insts := Renumbering.vals (fun (i : ArbInst) => { i with resetAt := i.resetAt.map fun t => r.instant 1 (1000 * t) / 1000 }) a.insts
    images := a.images.map fun e => (r.tick e.1, e.2)
    pulseA := (r.tick a.pulseA.1, r.instant 1 a.pulseA.2), pulseB := (r.tick a.pulseB.1, r.instant 1 a.pulseB.2)
    aliveA := (a.aliveA.1, r.tick a.aliveA.2), aliveB := (a.aliveB.1, r.tick a.aliveB.2) }

/-- The pair. -/
def PairSt.renumber (p : PairSt) (r : Renumbering) : PairSt :=
  { p with gmHeard := p.gmHeard.map r.tick, handoverAt := p.handoverAt.map r.tick, bellTick := r.since p.bellTick
           join := { p.join with start := r.since p.join.start, final := p.join.final.map r.tick, retryAt := p.join.retryAt.map r.tick
                                 guarded := p.join.guarded.map r.tick } }

/-- Everything that counts from a tick. Anchors lapse, so that free-running streams are anchored anew (R72). -/
def State.renumber (s : State) (r : Renumbering) : State :=
  { s with
    now := r.new, sideA := s.sideA.renumber r, sideB := s.sideB.renumber r
    waiting := s.waiting.filter fun w => w.op != 0x0406
    validations := Renumbering.vals (fun (v : Validation) => { v with start := r.tick v.start }) s.validations
    update := { s.update with windowEnd := s.update.windowEnd.map r.tick, copied := s.update.copied.map r.tick }
    power := { s.power with stopAt := s.power.stopAt.map r.tick }
    anchors := [], sealedUpto := none, sampleTick := s.sampleTick.map r.tick
    notices := s.notices.map fun n => { n with tick := r.tick n.tick }
    gooseSubs := Renumbering.vals (fun (g : GooseSub) => { g with bell := r.tick g.bell }) s.gooseSubs
    arb := s.arb.renumber r
    teleSubs := Renumbering.vals (fun (t : TeleSub) => { t with start := r.tick t.start }) s.teleSubs
    nonces := Renumbering.vals (fun (n : Bytes × Nat) => (n.1, r.tick n.2)) s.nonces
    unlocks := Renumbering.vals r.tick s.unlocks, safeFails := s.safeFails.map r.tick, safeLockout := s.safeLockout.map r.tick
    masters := Renumbering.vals (fun (m : Announce × Nat) => (m.1, r.tick m.2)) s.masters
    canSealed := s.canSealed.map fun c => { c with bell := r.tick c.bell }
    moduleCastled := s.moduleCastled.map r.tick
    handoverAt := s.handoverAt.map r.tick, drill := s.drill.map fun d => { d with tick := r.tick d.tick }
    pair := s.pair.renumber r
    forces := Renumbering.vals (fun (f : Force) => { f with expiry := r.tick f.expiry }) s.forces
    leases := s.leases.map fun l => { l with start := r.tick l.start } }

end Sys2Proof.Machine
end

