-- ==== Sys2Proof/Machine/Time.lean ====
section
/-! DEFINITION. Network time (R280 to R298): the servo, steps, the UTC offset, transmit timestamps, PTP messages, the time
registers and commands. An instant inside a tick that the module reads for itself is a free value within that tick. -/

namespace Sys2Proof.Machine

/-! ### Time parameters (R297) and time ports (R282) -/

def Scope.ptpRec (c : Scope) : Bytes := sub c.timeRec 8 32
def State.timeSource (s : State) : Nat := u8 s.modActive.ptpRec 2
def State.gmCapable (s : State) : Bool := bit (u8 s.modActive.ptpRec 3) 0
def State.freeRunStart (s : State) : Bool := bit (u8 s.modActive.ptpRec 3) 1

/-- A profile's delay mechanism (1 peer-to-peer), default domain, default log2 intervals of Sync, Announce and delay
requests, and default Announce receipt timeout (R280). -/
structure PtpProfile where
  peer : Bool
  domain : Nat
  logSync : Int
  logAnnounce : Int
  logDelay : Int
  timeout : Nat
  deriving DecidableEq, Repr

def ptpProfile (n : Nat) : PtpProfile := match n with
  | 0 => ⟨false, 0, 0, 1, 0, 3⟩
  | 1 => ⟨true, 0, 0, 0, 0, 3⟩
  | _ => ⟨true, 254, 0, 0, 0, 3⟩

def State.profile (s : State) : PtpProfile := ptpProfile (u8 s.modActive.ptpRec 0)

/-- The domain in force (R280). -/
def State.ptpDomain (s : State) : Nat := if u8 s.modActive.ptpRec 0 = 2 then 254 else u8 s.modActive.ptpRec 1

def ptpRange (r : Bytes) : Bool :=
  r.length == 32 && decide (u8 r 0 ≤ 2 ∧ (u8 r 1 ≤ 127 ∨ u8 r 0 = 2) ∧ u8 r 2 ≤ 2 ∧ u8 r 3 ≤ 3) && u8 r 7 == 0
    && decide (1000 ≤ u32 r 16 ∧ u32 r 16 ≤ 1000000000 ∧ 1000 ≤ u32 r 20 ∧ u32 r 20 ≤ 1000000 ∧ u16 r 24 ≤ 255) && allZero (sub r 26 6)

/-- A signed field of `n` bytes between bounds. -/
def signedIn (n v : Nat) (lo hi : Int) : Bool := decide (lo ≤ toSigned (8 * n) v ∧ toSigned (8 * n) v ≤ hi)

def timePortRange (r : Bytes) : Bool :=
  r.length == 20 && decide (u8 r 0 ≤ 1 ∧ 1 ≤ u8 r 1 ∧ u8 r 1 ≤ 11 ∧ u8 r 2 ≤ 3 ∧ u8 r 3 ≤ 1)
    && signedIn 1 (u8 r 4) (-4) 4 && signedIn 1 (u8 r 5) (-3) 4 && signedIn 1 (u8 r 6) (-4) 5 && decide (2 ≤ u8 r 7 ∧ u8 r 7 ≤ 10)
    && signedIn 4 (u32 r 8) (-1000000) 1000000 && signedIn 4 (u32 r 12) (-1000000) 1000000 && allZero (sub r 16 4)

def timePortIdx (sd : SideId) (port : Nat) : Nat := sd.code * 16 + port
def Scope.timePort (c : Scope) (sd : SideId) (port : Nat) : Option Bytes := c.get 0x02 (timePortIdx sd port)

/-! ### The servo (R287, R288, R293) -/

def clampI (v lo hi : Int) : Int := max lo (min v hi)

def State.servo (s : State) (sd : SideId) : ServoSt := (s.side sd).time.servo
def State.putServo (s : State) (sd : SideId) (x : ServoSt) : State := s.modSide sd fun y => { y with time := { y.time with servo := x } }

def State.anyRunning (s : State) : Bool := allStalls.any fun st => s.stallState st == stRunning

/-- One update of the PI servo (R287). -/
def ServoSt.update (x : ServoSt) (kp ki : Nat) (running : Bool) (theta : Int) : ServoSt :=
  let pmax : Int := if running then 429497 else 2147483
  let raw := Int.tdiv ((kp : Int) * theta) 65536
  let p := clampI raw (-pmax) pmax
  let i := if p = raw then clampI (x.i + Int.tdiv ((ki : Int) * theta) 65536) (-2147483) 2147483 else x.i
  { x with i := i, y := clampI (-(p + i)) (-2147483) 2147483, theta := theta, slewing := p != raw }

/-- The state after a used update (R288). -/
def ServoSt.judge (x : ServoSt) : ServoSt :=
  let near := decide (x.theta.natAbs ≤ 1000)
  let ok := if near then x.ok + 1 else 0
  let bad := if near then 0 else x.bad + 1
  match x.mode with
  | 2 =>
    let is := (x.is ++ [x.i])
    if 4 ≤ bad then { x with mode := 1, ok := 0, bad := 0, out := 0, is := [] }
    else { x with ok := ok, bad := bad, out := 0, is := is.drop (is.length - 64) }
  | _ =>
    if 8 ≤ ok then { x with mode := 2, ok := 0, bad := 0, out := 0, is := [] }
    else { x with ok := ok, bad := bad, out := 0 }

/-- Show the servo in the time registers. -/
def State.showServo (s : State) (sd : SideId) : State :=
  let x := s.servo sd
  (((s.setFlag (Rg.timeStatus sd) Fd.timeStatusSlewing x.slewing).wr (Rg.timeOffset sd) Fd.timeOffsetTheta (ofSigned 32 (satSigned 32 x.theta))).wr
    (Rg.timeFreq sd) Fd.timeFreqY (ofSigned 32 x.y)).setFlag (Rg.timeStatus sd) Fd.timeStatusHoldLong
      (s.flag (Rg.timeStatus sd) Fd.timeStatusHoldLong && x.mode == 3)

/-- The parameters of an origin-0 TIME_SET (R289): the master time of the next second boundary. -/
def stepParams (now : Nat) (theta : Int) : Bytes :=
  let t := (((now + 1) / 4800 + 1) * 1000000000 : Nat) - theta
  beBytes 8 (t.toNat / 1000000000) ++ beBytes 4 (t.toNat % 1000000000)

/-- A command of the module itself. -/
def State.ownWait (s : State) (op : Nat) (params : Bytes) (tick : Nat) : WaitCmd :=
  { hdr := ⟨s.speaker, .internal, 0, 0, 0, 0, 0, 0⟩, op := op, params := params, tick := tick, answered := false, listed := true }

/-- It waits for the next bell. -/
def State.ownCmd (s : State) (op : Nat) (params : Bytes) (tick : Nat) : State := s.listOwn (s.ownWait op params tick)

/-- A new offset on the active side (R287 to R289). -/
def State.servoUpdate (s : State) (theta : Int) (ptp : Bool) : State :=
  match s.active with
  | none => s
  | some sd =>
    let x := { s.servo sd with syncAt := s.now }
    let r := s.modActive.ptpRec
    if x.mode = 0 && ptp then s
    else
      let lockedOut := x.mode == 2 && decide (u32 r 20 < theta.natAbs)
      if lockedOut && decide (x.out < 3) then
        (s.putServo sd { x with out := x.out + 1 }).tick1 (Rg.timeStatus sd) Fd.timeStatusOutliers
      else if ptp && decide (u32 r 16 < theta.natAbs) && !s.anyRunning then
        let y := if lockedOut || x.mode == 3 then { x with mode := 1, ok := 0, bad := 0, out := 0, is := [] } else { x with out := 0 }
        ((s.putServo sd { y with theta := theta }).showServo sd).ownCmd 0x0901 (stepParams s.now theta) 0
      else
        let used := x.update (u32 r 8) (u32 r 12) s.anyRunning theta
        let y := if lockedOut then { used with mode := 1, ok := 0, bad := 0, out := 0, is := [] }
          else if x.mode = 3 ∨ x.mode = 0 then { used with mode := 1, ok := b2n (decide (theta.natAbs ≤ 1000)), bad := 0, out := 0, is := [] }
          else used.judge
        (s.putServo sd y).showServo sd


def evHoldLong : Nat := 0x2008
def evTimeStep : Nat := 0x1009

/-- HOLD_LONG after 2 h (34,560,000 ticks) in HOLDOVER (R293). -/
def State.holdLong (s : State) : State :=
  match s.active with
  | none => s
  | some sd =>
    let x := s.servo sd
    if x.mode = 3 ∧ x.holdAt + 34560000 ≤ s.now ∧ !s.flag (Rg.timeStatus sd) Fd.timeStatusHoldLong then
      (s.setFlag (Rg.timeStatus sd) Fd.timeStatusHoldLong true).sideReport sd evHoldLong (zeros 16)
    else s

/-- Whether the bell's HOLDOVER flag is set (R293). -/
def State.inHoldover (s : State) (sd : SideId) : Bool := (s.servo sd).mode == 3 || (s.servo sd).mode == 0

/-- The servo state of the active side reaches the other side each tick over the bell lane, and stands in the active side's
registers, so that a side that promotes goes on from it (R295). -/
def State.shareServo (s : State) : State :=
  match s.active with
  | some sd =>
    let t := s.showServo sd
    if (t.side sd.other).role = .out ∨ !t.bellCarried sd.other then t else t.putServo sd.other (t.servo sd)
  | none => s

/-- A side in SLAVED measures its T0 against the active side's by the arrival of a bell, `ns` after its own T0, in 2^−8 ns
(R294); what it finds is its offset from then on. -/
def State.slaveOffset (s : State) (sd : SideId) (ns : Nat) : State :=
  let theta : Int := (ns * 256 : Nat) - ((Config.bellLag sd s.now).toNat : Int)
  (s.wr (Rg.timeOffset sd) Fd.timeOffsetTheta (ofSigned 32 (satSigned 32 theta))).modSide sd fun x =>
    { x with duty := { x.duty with t0Off := Int.tdiv theta 256 } }

/-- An offset seen on the selected slave port (R298). -/
def State.notePortTheta (s : State) (theta : Int) : State :=
  match s.slavePort with
  | some p => s.modSide p.1 fun x => { x with time := { x.time with portTheta := Tbl.put x.time.portTheta p.2 theta } }
  | none => s

/-- The side is in SLAVED (R288). -/
def State.slaved (s : State) (sd : SideId) : Bool := (s.side sd).role == .standby || (s.side sd).role == .joining

/-- TIME_STATUS with its live fields. -/
def State.timeStatusWord (s : State) (sd : SideId) : Nat :=
  let mode := if s.slaved sd then 4 else (s.servo sd).mode
  let port := match s.slavePort with | some p => p.1.code * 16 + p.2 | none => 0
  setBits (setBits (s.regWord (Rg.timeStatus sd)) 10 6 port) 2 0 mode

/-- TIME_FREQ: y is 0 under source FREE (R296); in SLAVED it is what the fixed gains of R294 make it, a free value. -/
def State.timeFreqWord (s : State) (sd : SideId) : Nat :=
  if s.slaved sd then (Config.slaveFreq sd s.now).toNat else if s.timeSource = 2 then 0 else s.regWord (Rg.timeFreq sd)

/-! ### Master selection and UTC (R281, R288, R292) -/

/-- clockIdentity: PUB_MAC with 0xFF, 0xFE inserted after the third byte (R281). -/
def State.clockIdentity (s : State) : Nat :=
  let m := u48 s.modActive.pubRec 0
  m / 2 ^ 24 * 2 ^ 40 + 0xFFFE * 2 ^ 24 + m % 2 ^ 24

/-- The datasets of a comparison, most significant first: a smaller list wins. -/
def lexLess : List Nat → List Nat → Bool
  | x :: xs, y :: ys => decide (x < y) || (x == y && lexLess xs ys)
  | _, _ => false

/-- What the best master clock algorithm compares of a grandmaster. -/
def announceRank (m : Announce) : List Nat :=
  [m.priority1.toNat, m.clockClass.toNat, m.accuracy.toNat, m.variance.toNat, m.priority2.toNat, m.gmIdentity.toNat]

/-- One Announce message against another (R281): of two paths to one grandmaster the shorter. -/
def announceBeats (m n : Announce) : Bool :=
  if m.gmIdentity = n.gmIdentity then lexLess [m.steps.toNat, m.sender.toNat] [n.steps.toNat, n.sender.toNat] else lexLess (announceRank m) (announceRank n)

/-- What the module says of itself as a grandmaster (R281): priority1 255 and clockClass 248, or the values given with
GM_CAPABLE. -/
def State.ownRank (s : State) : List Nat :=
  let r := s.modActive.ptpRec
  if s.gmCapable then [u8 r 4, u8 r 6, 254, 65535, u8 r 5, s.clockIdentity] else [255, 248, 254, 65535, 255, s.clockIdentity]

/-- The role of a port by its time-port record. -/
def State.timeRole (s : State) (sd : SideId) (port : Nat) : Nat := match s.modActive.timePort sd port with
  | some r => u8 r 2
  | none => 0

/-- 2^n seconds in ticks. -/
def logTicks (n : Int) : Nat := if 0 ≤ n then 4800 * 2 ^ n.toNat else 4800 / 2 ^ n.natAbs

/-- The masters heard at clock ports within their Announce receipt timeout. -/
def State.liveMasters (s : State) : List (Nat × Announce) :=
  s.masters.filterMap fun e =>
    let m := e.2.1
    match s.modActive.timePort m.side (m.port.val + 1) with
    | some r => if u8 r 2 = 1 ∧ s.now ≤ e.2.2 + u8 r 7 * logTicks (toSigned 8 (u8 r 5)) then some (e.1, m) else none
    | none => none

/-- The last Announce of a port within its timeout. -/
def State.heardAt (s : State) (sd : SideId) (port : Nat) : Option Announce := Tbl.find s.liveMasters (timePortIdx sd port)

/-- Once the selected port has lost its master none is selected (R288). -/
def State.dropMaster (s : State) : State :=
  match s.slavePort with
  | some p => if (s.heardAt p.1 p.2).isSome then s else { s with gm := none, slavePort := none }
  | none => s

/-- The Sync interval in ticks: of the selected port, or a second where the 1PPS input serves (R296). -/
def State.syncTicks (s : State) : Nat := match s.slavePort.bind fun p => s.modActive.timePort p.1 p.2 with
  | some r => logTicks (toSigned 8 (u8 r 4))
  | none => 4800

/-- HOLDOVER is due (R288): no usable Sync for 3 Sync intervals, or no port that can be a slave hears a master. -/
def State.holdoverNow (s : State) (x : ServoSt) : Bool :=
  decide (x.syncAt + 3 * s.syncTicks ≤ s.now) || (s.timeSource == 0 && s.liveMasters.isEmpty)

/-- HOLDOVER_ENTRY (R288, R293): y frozen at the mean of i over the last 64 updates in LOCKED. -/
def State.holdoverEntry (s : State) : State :=
  match s.active with
  | none => s
  | some sd =>
    let x := s.servo sd
    if x.mode = 2 ∧ s.holdoverNow x then
      let n := x.is.length
      let mean := if n = 0 then x.i else Int.tdiv (x.is.foldl (· + ·) 0) n
      (s.dropMaster.putServo sd { x with mode := 3, y := clampI mean (-2147483) 2147483, slewing := false, holdAt := s.now, ok := 0, bad := 0, out := 0 }).showServo sd
    else s

/-- The best of them. -/
def bestMaster (l : List (Nat × Announce)) : Option (Nat × Announce) :=
  l.foldl (fun b e => match b with
    | none => some e
    | some x => if announceBeats e.2 x.2 then some e else b) none

/-- A clock of clockClass up to 127 is slave to none, by the best master clock algorithm of IEEE 1588. -/
def State.neverSlave (s : State) : Bool := s.gmCapable && decide (u8 s.modActive.ptpRec 6 < 128)

/-- The best master clock algorithm over all ports (R281); a master selected anew, or a change of grandmaster, begins
ACQUIRING (R288, R293). -/
def State.selectMaster (s : State) : State :=
  match s.active, bestMaster s.liveMasters with
  | some sd, some (_, m) =>
    if s.neverSlave || s.gmCapable && lexLess s.ownRank (announceRank m) then { s with gm := none, slavePort := none }
    else
      let x := s.servo sd
      let fresh := decide (s.gm ≠ some m.gmIdentity) || x.mode == 0
      let x1 := if fresh then { x with mode := 1, ok := 0, bad := 0, out := 0, is := [] } else x
      (({ s with gm := some m.gmIdentity, slavePort := some (m.side, m.port.val + 1) }).putServo sd x1).showServo sd
  | _, _ => s

/-- Frames of a side's ports reach the protocol engine of the active side, and its own reach them (R281): through the
cross-link on the other side. -/
def State.engineHears (s : State) (sd : SideId) : Bool := s.active == some sd || s.xlinkUp sd.other

/-- An Announce message in the module's domain at a clock port, from another clock: it is kept and a master is selected. -/
def State.announce (s : State) (m : Announce) : State :=
  if s.active.isNone || !s.engineHears m.side || s.timeRole m.side (m.port.val + 1) ≠ 1 || m.domain.toNat ≠ s.ptpDomain || m.sender.toNat / 65536 = s.clockIdentity then s
  else
    let t := s.dropMaster
    ({ t with masters := Tbl.put t.masters (timePortIdx m.side (m.port.val + 1)) (m, s.now) }).selectMaster

/-- The first TAI second from t on at which the UTC day ends, by an offset. -/
def utcMidnight (t off : Nat) : Nat :=
  t + (86400 - (t + 86400 - off % 86400) % 86400) % 86400

/-- A TIME_UTC record. -/
def utcParams (off : Nat) (l59 l61 : Bool) : Bytes := beBytes 2 off ++ beBytes 2 (b2n l59 + b2n l61 * 2)

/-- The last Announce message of the selected master, with its tick. -/
def State.master (s : State) : Option (Announce × Nat) := s.slavePort.bind fun p => Tbl.find s.masters (timePortIdx p.1 p.2)

/-- The UTC offset and leap flags due in this tick (R292): from the tick that follows an announced leap second on, the
offset with the leap second in it. -/
def State.utcWanted (s : State) : Nat × Bool × Bool :=
  match s.master with
  | none => (u16 s.modActive.ptpRec 24, false, false)
  | some (m, heard) =>
    let off := if m.utcValid then m.utcOffset.toNat else u16 s.modActive.ptpRec 24
    if m.leap61 && decide ((utcMidnight (heard / 4800) off + 1) * 4800 ≤ s.now) then (off + 1, false, false)
    else if m.leap59 && decide ((utcMidnight (heard / 4800 + 1) off - 1) * 4800 ≤ s.now) then (off - 1, false, false)
    else (off, m.leap59, m.leap61)

/-- The active side lists a change for the next bell (R292). -/
def State.utcTick (s : State) : State :=
  let u := s.utcWanted
  let same := s.rd Rg.timeUtc Fd.timeUtcOffset == u.1 && s.flag Rg.timeUtc Fd.timeUtcLeap59 == u.2.1 && s.flag Rg.timeUtc Fd.timeUtcLeap61 == u.2.2
  if s.active.isNone || same || s.waiting.any (fun w => w.op == 0x0907) then s else s.ownCmd 0x0907 (utcParams u.1 u.2.1 u.2.2) 0

def cmdTimeUtc (_ : CmdHdr) (p : Bytes) (s : State) : CmdOut :=
  done (((s.wr Rg.timeUtc Fd.timeUtcOffset (u16 p 0)).setFlag Rg.timeUtc Fd.timeUtcLeap59 (bit (u16 p 2) 0)).setFlag
    Rg.timeUtc Fd.timeUtcLeap61 (bit (u16 p 2) 1)) []

/-! ### Steps (R289, R290) -/

/-- Stage a time write; the lease is taken with the first. -/
def State.stageTime (s : State) (sec ns origin : Nat) : State :=
  let s1 := if s.leaseHeld lkTimeStep then s else s.takeLease lkTimeStep 2 origin
  (({ s1 with staged := some ⟨sec, ns, (s.now / 4800 + 1) * 4800⟩ }).setFlag Rg.timeSetCtrl Fd.timeSetCtrlPending true)

def State.cancelTime (s : State) : State :=
  (({ s with staged := none }).endLease lkTimeStep).setFlag Rg.timeSetCtrl Fd.timeSetCtrlPending false

/-- Why a time write is refused, if it is. -/
def State.timeSetRefusal (s : State) (sec ns : Nat) : Option Status :=
  if 999999999 < ns ∨ 2 ^ 48 ≤ sec then some .range
  else if s.anyRunning then some .state
  else if !s.leaseHeld lkTimeStep && s.leaseConflict lkTimeStep then some .conflict
  else none

def cmdTimeSet (h : CmdHdr) (p : Bytes) (s : State) : CmdOut :=
  match s.timeSetRefusal (u64 p 0) (u32 p 8) with
  | some st => refuse s st
  | none =>
    done (((s.wr Rg.timeSetSec Fd.timeSetSecSec (u64 p 0)).wr Rg.timeSetNs Fd.timeSetNsNs (u32 p 8)).stageTime (u64 p 0) (u32 p 8) h.origin.toNat) []

def cmdTimeCancelSet (_ : CmdHdr) (_ : Bytes) (s : State) : CmdOut := if s.staged.isNone then refuse s .state else done s.cancelTime []

/-- TIME_SET_CTRL.GO. -/
def State.timeGo (s : State) (origin : Nat) : State :=
  let sec := s.rd Rg.timeSetSec Fd.timeSetSecSec
  let ns := s.rd Rg.timeSetNs Fd.timeSetNsNs
  match s.timeSetRefusal sec ns with
  | some _ => s.setFlag Rg.timeSetCtrl Fd.timeSetCtrlRefused true
  | none => s.stageTime sec ns origin

/-- The boundary of a staged write comes with the next tick (R290). -/
def State.boundaryDue (s : State) : Option Staged := s.staged.filter fun x => decide (x.boundary ≤ s.now + 1)

/-- The staged write that applies there: none while a stall is Running (R32, R290). -/
def State.stepDue (s : State) : Option Staged := if s.anyRunning then none else s.boundaryDue

/-- The first tick boundary at or after an instant in ns of TAI (R30). -/
def firstTick (t : Nat) : Nat := let w := tickOfNs t; if tickStart w = t then w else w + 1

/-- The number before the first tick of the new time. -/
def Staged.before (x : Staged) : Nat := firstTick (x.sec * 1000000000 + x.ns) - 1

/-- Both sides load the staged time at the second boundary (R290): the next tick takes its number from it (R32); what was
sealed under the old time counts no longer. A write whose boundary finds a stall Running is abandoned. -/
def State.applyStep (s : State) : State :=
  match s.stepDue with
  | none => if s.boundaryDue.isSome then s.cancelTime else s
  | some x =>
    let body := beBytes 8 (x.boundary / 4800) ++ beBytes 4 0 ++ beBytes 8 x.sec ++ beBytes 4 x.ns
    (s.cancelTime.moduleEvent evTimeStep 0 (recBody body)).renumber ⟨s.now, x.before⟩

/-! ### Reading time (R291) -/

/-- The time a side reads in the tick in progress: seconds, nanoseconds, fraction; where in the tick is free. -/
def State.readClock (s : State) : (Nat × Nat × Nat) × State :=
  let f := s.free
  let t := tickStart s.now + f.1.toNat % (tickStart (s.now + 1) - tickStart s.now)
  let g := f.2.free
  ((t / 1000000000, t % 1000000000, g.1.toNat % 65536), g.2)

/-- Latch seconds and fraction for a path: 0 the interpreter, 1 PCIe. -/
def State.latchTime (s : State) (sd : SideId) (path sec frac : Nat) : State :=
  s.modSide sd fun x => { x with time := { x.time with shadows := Tbl.put x.time.shadows path (sec, frac) } }

def State.timeShadow (s : State) (sd : SideId) (path : Nat) : Nat × Nat := Tbl.getD (s.side sd).time.shadows path (0, 0)

def execTimeNsRead (sd : SideId) (bar0 : Bool) (sec : BitVec 48) (ns : Word) (frac : BitVec 16) (s : State) :
    Host.Outcome State Fault Refusal :=
  let s1 := s.latchTime sd (b2n bar0) sec.toNat frac.toNat
  .next (if bar0 then s1.emit (.barRead sd (BitVec.ofNat 64 ns.toNat)) else s1)

def cmdTimeRead (h : CmdHdr) (_ : Bytes) (s : State) : CmdOut :=
  let r := s.readClock
  let t := r.2
  let x := t.timeStatusWord h.side
  done t (beBytes 6 r.1.1 ++ beBytes 4 r.1.2.1 ++ beBytes 2 r.1.2.2 ++ beBytes 1 (x % 8)
    ++ beBytes 4 (t.regWord (Rg.timeOffset h.side)) ++ beBytes 4 (t.timeFreqWord h.side) ++ beBytes 1 t.utcOffset ++ beBytes 1 (bits x 10 6))

/-! ### Transmit timestamps (R286) -/

/-- An entry in the order of TXTS_ENTRY, most significant byte first. -/
def txtsEntry (sec ns frac seq kind domain : Nat) : Bytes :=
  beBytes 4 ns ++ beBytes 2 frac ++ beBytes 2 (sec / 2 ^ 32) ++ beBytes 4 sec ++ beBytes 2 seq ++ beBytes 2 (2 ^ 15 + kind * 256 + domain)

def State.txts (s : State) (sd : SideId) (port : Nat) : List Bytes := Tbl.getD (s.side sd).time.txts port []

def State.putTxts (s : State) (sd : SideId) (port : Nat) (l : List Bytes) : State :=
  s.modSide sd fun x => { x with time := { x.time with txts := Tbl.put x.time.txts port l } }

/-- A two-step event message has left: one entry, or a drop when 16 wait. -/
def State.txtsPush (s : State) (sd : SideId) (port : Nat) (e : Bytes) : State :=
  let l := s.txts sd port
  if 16 ≤ l.length then
    (s.setFlag (Rg.txtsStatus sd port) Fd.txtsStatusOverflow true).tick1 (Rg.txtsStatus sd port) Fd.txtsStatusDropped
  else s.putTxts sd port (l ++ [e])

/-- Whether the queue has room for an entry. -/
def State.txtsRoom (s : State) (sd : SideId) (port : Nat) : Bool := decide ((s.txts sd port).length < 16)

/-- A read of TXTS_ENTRY pops the oldest entry; VALID 0 and zeros when the queue was empty. -/
def State.txtsPop (s : State) (sd : SideId) (port : Nat) : State :=
  let l := s.txts sd port
  (s.putTxts sd port (l.drop 1)).modSide sd fun x => { x with time := { x.time with txtsHead := Tbl.put x.time.txtsHead port (l.headD (zeros 16)) } }

/-- TXTS_STATUS[n] with its live COUNT. -/
def State.txtsStatusWord (s : State) (sd : SideId) (port : Nat) : Nat :=
  s.regWord (Rg.txtsStatus sd port) / 32 * 32 + (s.txts sd port).length

/-! ### PTP messages (R281, R282) -/

/-- A port that hears the grandmaster selected through another port, or one better than a module that is slave to none. -/
def State.portPassive (s : State) (sd : SideId) (port : Nat) : Bool :=
  match s.heardAt sd port with
  | some m => if s.neverSlave then !lexLess s.ownRank (announceRank m) else s.slavePort.isSome && s.gm == some m.gmIdentity
  | none => false

/-- The state of a PTP port by IEEE 1588: 3 DISABLED, 4 LISTENING, 6 MASTER, 7 PASSIVE, 9 SLAVE; 0 without a part in the
protocol. -/
def State.portState (s : State) (sd : SideId) (port : Nat) : Nat :=
  match s.modActive.timePort sd port with
  | none => 3
  | some r =>
    let fed := s.gmCapable || s.slavePort.isSome
    match u8 r 2 with
    | 1 => if s.slavePort = some (sd, port) then 9 else if s.portPassive sd port then 7 else if fed then 6 else 4
    | 2 => 0
    | 3 => if fed then 6 else 4
    | _ => 3

/-- TX_INT and RX_INT of a port for its speed and FEC in use. -/
def State.txInt (s : State) (sd : SideId) (port : Nat) : Nat :=
  let r := (s.modActive.get 0x09 (timePortIdx sd port)).getD (zeros 16)
  (Config.txInternal sd (port - 1) (u8 r 2) (u8 r 3)).toNat
def State.rxInt (s : State) (sd : SideId) (port : Nat) : Nat :=
  let r := (s.modActive.get 0x09 (timePortIdx sd port)).getD (zeros 16)
  (Config.rxInternal sd (port - 1) (u8 r 2) (u8 r 3)).toNat

/-- PORT_ASYM[n], most significant byte first. -/
def State.portAsym (s : State) (sd : SideId) (port : Nat) : Bytes :=
  let r := (s.modActive.timePort sd port).getD (zeros 20)
  sub r 12 4 ++ sub r 8 4 ++ beBytes 4 (s.txInt sd port) ++ beBytes 4 (s.rxInt sd port)

/-- A stamp of the PCS in ns moved by picoseconds, in 2^−16 ns. -/
def stampAt (ns : Nat) (ps : Int) : Nat := (Int.fdiv (((ns * 1000 : Nat) + ps) * 65536) 1000).toNat

/-- t_rx of a frame at a port (R284). -/
def State.rxStamp (s : State) (sd : SideId) (port ns : Nat) : Nat :=
  let r := (s.modActive.timePort sd port).getD (zeros 20)
  stampAt ns (-(s.rxInt sd port : Int) - toSigned 32 (u32 r 8))

/-- t_tx of a frame at a port (R284). -/
def State.txStamp (s : State) (sd : SideId) (port ns : Nat) : Nat :=
  let r := (s.modActive.timePort sd port).getD (zeros 20)
  stampAt ns ((s.txInt sd port : Int) + toSigned 32 (u32 r 12))

/-! ### Commands (R298) -/

def cmdTimeSetParams (_ : CmdHdr) (p : Bytes) (s : State) : CmdOut :=
  if ptpRange p then done (s.modifyModShadow fun c => c.putRec 0x01 0 (sub c.timeRec 0 8 ++ p)) [] else refuse s .range

def cmdTimeSetPort (_ : CmdHdr) (p : Bytes) (s : State) : CmdOut :=
  if timePortRange p then
    done (s.modifyModShadow fun c => c.putRec 0x02 (timePortIdx (if u8 p 0 = 0 then .A else .B) (u8 p 1)) p) []
  else refuse s .range

def portArgs (p : Bytes) : Bool := decide (u8 p 0 ≤ 1 ∧ 1 ≤ u8 p 1 ∧ u8 p 1 ≤ 11)
def sideArg (p : Bytes) (off : Nat) : SideId := if u8 p off = 0 then .A else .B

def cmdTimePortStatus (_ : CmdHdr) (p : Bytes) (s : State) : CmdOut :=
  if !portArgs p then refuse s .range
  else
    let sd := sideArg p 0
    let n := u8 p 1
    let theta := ofSigned 32 (satSigned 32 (Tbl.getD (s.side sd).time.portTheta n 0))
    done s (beBytes 1 (s.portState sd n) ++ beBytes 6 (Config.pathDelay sd n s.now).toNat ++ beBytes 4 theta
      ++ s.portAsym sd n ++ beBytes 4 (s.txtsStatusWord sd (n - 1)))

def cmdTimeReadTxts (h : CmdHdr) (p : Bytes) (s : State) : CmdOut :=
  let n := u8 p 2
  if !portArgs p ∨ n = 0 ∨ 16 < n then refuse s .range
  else
    let sd := sideArg p 0
    let port := u8 p 1 - 1
    let out := fitItems h 0 ((s.txts sd port).take n)
    done (s.putTxts sd port ((s.txts sd port).drop out.length)) (out.flatMap id)

def specTimeRead : CmdSpec := ⟨0x0900, always .observer, fun _ => false, lenIs 0, true, ownsNone, false, cmdTimeRead⟩
def specTimeSet : CmdSpec := ⟨0x0901, always .manager, fun _ => true, lenIs 12, true, ownsNone, true, cmdTimeSet⟩
def specTimeCancelSet : CmdSpec := ⟨0x0902, always .manager, fun _ => true, lenIs 0, true, ownsNone, true, cmdTimeCancelSet⟩
def specTimeSetParams : CmdSpec := ⟨0x0903, always .engineer, fun _ => true, lenIs 32, true, ownsNone, true, cmdTimeSetParams⟩
def specTimeSetPort : CmdSpec := ⟨0x0904, always .engineer, fun _ => true, lenIs 20, true, ownsNone, true, cmdTimeSetPort⟩
def specTimePortStatus : CmdSpec := ⟨0x0905, always .observer, fun _ => false, lenIs 2, true, ownsNone, false, cmdTimePortStatus⟩
def specTimeReadTxts : CmdSpec := ⟨0x0906, always .observer, fun _ => false, lenIs 3, true, ownsNone, true, cmdTimeReadTxts⟩
def specTimeUtc : CmdSpec := ⟨0x0907, fun _ => none, fun _ => true, lenIs 4, true, ownsNone, true, cmdTimeUtc⟩

def execTimeRead (h : CmdHdr) (p : Bytes) (s : State) : Host.Outcome State Fault Refusal := runCmd specTimeRead h p s
def execTimeSet (h : CmdHdr) (p : Bytes) (s : State) : Host.Outcome State Fault Refusal := runCmd specTimeSet h p s
def execTimeCancelSet (h : CmdHdr) (p : Bytes) (s : State) : Host.Outcome State Fault Refusal := runCmd specTimeCancelSet h p s
def execTimeSetParams (h : CmdHdr) (p : Bytes) (s : State) : Host.Outcome State Fault Refusal := runCmd specTimeSetParams h p s
def execTimeSetPort (h : CmdHdr) (p : Bytes) (s : State) : Host.Outcome State Fault Refusal := runCmd specTimeSetPort h p s
def execTimePortStatus (h : CmdHdr) (p : Bytes) (s : State) : Host.Outcome State Fault Refusal := runCmd specTimePortStatus h p s
def execTimeReadTxts (h : CmdHdr) (p : Bytes) (s : State) : Host.Outcome State Fault Refusal := runCmd specTimeReadTxts h p s
def execTimeUtc (h : CmdHdr) (p : Bytes) (s : State) : Host.Outcome State Fault Refusal := runCmd specTimeUtc h p s

def execServoUpdate (theta : Int) (s : State) : Host.Outcome State Fault Refusal :=
  .next (if s.timeSource = 0 then (s.notePortTheta theta).servoUpdate theta true else s)
def execPpsInputEdge (theta : Int) (s : State) : Host.Outcome State Fault Refusal :=
  .next (if s.timeSource = 1 then s.servoUpdate theta false else s)
/-- The grandmaster witness is heard (R243); then master selection. -/
def execAnnounceReceive (m : Announce) (s : State) : Host.Outcome State Fault Refusal :=
  let t := s.announce m
  .next (if m.gmIdentity.toNat = u64 s.modActive.pubRec 9 then { t with pair := { t.pair with gmHeard := some s.now } } else t)
def execHoldoverEntry (s : State) : Host.Outcome State Fault Refusal := .next s.holdoverEntry
def execHoldLong (s : State) : Host.Outcome State Fault Refusal := .next s.holdLong
def execTxtsEntryRead (sd : SideId) (port : Fin 11) (s : State) : Host.Outcome State Fault Refusal := .next (s.txtsPop sd port.val)
/-- The CHANGE record of a write of TIME_SET_CTRL through a side's BAR0 (R321, R324). -/
def State.ctrlChange (s : State) (sd : SideId) (v : Nat) : State :=
  s.ledger ⟨0, 0, 0, lcChange, 0xFFFFFF00 + sd.code, recBody (changeBody 0xFFFF 0 0x9001C (beBytes 4 v)), true, false⟩

def execTimeSetGo (sd : SideId) (s : State) : Host.Outcome State Fault Refusal :=
  .next ((s.timeGo (0xFFFFFF00 + sd.code)).ctrlChange sd (2 ^ Fd.timeSetCtrlGo.lo))
def execTimeSetCancel (sd : SideId) (s : State) : Host.Outcome State Fault Refusal :=
  .next ((if s.staged.isNone then s else s.cancelTime).ctrlChange sd (2 ^ Fd.timeSetCtrlCancel.lo))

end Sys2Proof.Machine
end

