-- ==== Sys2Proof/Machine/Switch.lean ====
section
/-! DEFINITION. The switch core (R249 to R274): records, classification, admission to the shared buffer, the crossbar, egress
with toll gates, mirroring. Ports count from 0 here, so port n of the spec is n − 1; the cross-link paths are 11 and 12,
the compute paths 13 and 14, the Smirnel port 15. -/

namespace Sys2Proof.Machine

/-! ### Records (R252, R254, R262, R265) -/

def swPortIdx (side port : Nat) : Nat := side * 16 + port
def swFdbIdx (side n : Nat) : Nat := side * 8192 + n
def swQueueIdx (side port class_ : Nat) : Nat := side * 128 + 8 * (port - 1) + class_

def Scope.portRec (c : Scope) (sd : SideId) (p : Nat) : Option Bytes := c.get 0x09 (swPortIdx sd.code (p + 1))
def Scope.fdb (c : Scope) (sd : SideId) : List Bytes := ((c.block 0x0A).filter fun e => e.1 / 8192 == sd.code).map (·.2)
def Scope.queueRec (c : Scope) (sd : SideId) (p cl : Nat) : Option Bytes := c.get 0x0C (swQueueIdx sd.code (p + 1) cl)

def prSpeed (r : Bytes) : Nat := u8 r 2
def prFec (r : Bytes) : Nat := u8 r 3
def prMax (r : Bytes) : Nat := u16 r 4
def prFlag (r : Bytes) (i : Nat) : Bool := bit (u8 r 6) i
/-- PCP_MAP of a PCP value. -/
def prClass (r : Bytes) (pcp : Nat) : Nat := bits (u24 r 10) (3 * pcp + 2) (3 * pcp)

/-- SPEED and FEC fit the port (R249, R250). -/
def speedFits (port speed fec : Nat) : Bool :=
  if speed = 0 then decide (fec ≤ 2)
  else if port ≤ 6 then (speed == 2 && fec == 0) || (speed == 3 && decide (fec ≤ 2))
  else if port ≤ 8 then speed == 5 && fec == 2
  else if port ≤ 10 then speed == 2 && fec == 0
  else speed == 1 && fec == 0

/-- The ranges of a port record (R252). -/
def portRange (r : Bytes) : Bool :=
  decide (r.length = 16 ∧ u8 r 0 ≤ 1 ∧ 1 ≤ u8 r 1 ∧ u8 r 1 ≤ 11 ∧ 64 ≤ prMax r ∧ prMax r ≤ 9216 ∧ u8 r 6 < 16 ∧ u8 r 7 < 8
    ∧ 1 ≤ u16 r 8 ∧ u16 r 8 ≤ 4094)
    && speedFits (u8 r 1) (prSpeed r) (prFec r) && (upto 8).all (fun p => prClass r p != 7) && allZero (sub r 13 3)

/-- A forwarding entry (R254). -/
def fdbRange (e : Bytes) : Bool :=
  decide (1 ≤ u16 e 6 ∧ u16 e 6 ≤ 4094 ∨ u16 e 6 = 0xFFFF) && decide (u16 e 8 % 0x8000 < 0x400 ∧ u8 e 10 ≤ 1) && allZero (sub e 11 5)

/-- The entries of a gate list: GATES and DURATION. -/
def gateEntries (r : Bytes) : List (Nat × Nat) := (upto (u8 r 2)).map fun k => (u8 r (4 + 4 * k), u16 r (6 + 4 * k))

/-- The ranges of a gate list (R265). -/
def gatesRange (r : Bytes) : Bool :=
  let n := u8 r 2
  let e := gateEntries r
  decide (u8 r 0 ≤ 1 ∧ 1 ≤ u8 r 1 ∧ u8 r 1 ≤ 6 ∧ 1 ≤ n ∧ n ≤ 64 ∧ u8 r 3 = 0) && r.length == 4 + 4 * n
    && (upto n).all (fun k => u8 r (5 + 4 * k) == 0)
    && (e.take (n - 1)).all (fun x => decide (1 ≤ x.2 ∧ x.2 ≤ 26000)) && decide (listSum (e.map (·.2)) ≤ 26000)
    && (e.drop (n - 1)).all (fun x => x.2 == 0)

/-- The ranges of a queue record (R262). -/
def queueRange (r : Bytes) : Bool :=
  decide (r.length = 8 ∧ u8 r 0 ≤ 1 ∧ 1 ≤ u8 r 1 ∧ u8 r 1 ≤ 16 ∧ u8 r 2 ≤ 6 ∧ u8 r 3 ≤ 7 ∧ u8 r 4 ≤ 7 ∧ u8 r 5 = 0 ∧ u16 r 6 ≤ 8191)

/-! ### Ports -/

/-- The line rate of a port in Gb/s (R249); 0 when it has no speed. -/
def State.portRate (s : State) (sd : SideId) (p : Nat) : Nat :=
  if p < 11 then
    match s.modActive.portRec sd p with
    | some r => match prSpeed r with
      | 1 => 1
      | 2 => 10
      | 3 => 25
      | 5 => 100
      | _ => 0
    | none => 0
  else if p < 13 then 200 else if p < 15 then 320 else 50

def State.portLinked (s : State) (sd : SideId) (p : Nat) : Bool := s.flag (Rg.portStatus sd p) Fd.portStatusLink

/-- Whether a port can send and receive: the compute paths are on the die. -/
def State.portUp (s : State) (sd : SideId) (p : Nat) : Bool :=
  if p = 13 ∨ p = 14 then !(s.side sd).sw.down.contains p else s.portLinked sd p

/-- Counter i of a port (R278). -/
def State.cnt (s : State) (sd : SideId) (p i n : Nat) : State := s.count (Rg.portCnt sd (16 * p + i)) Fd.portCntCount n

def State.prpOn (s : State) (sd : SideId) : Bool := (upto 11).any fun p => match s.modActive.portRec sd p with
  | some r => prFlag r 0
  | none => false

/-- HSR set on A1 and B1. -/
def State.hsrOn (s : State) : Bool := bothSides.all fun sd => match s.modActive.portRec sd 0 with
  | some r => prFlag r 1
  | none => false

/-- The gate list of a port by a set's records; without one every gate is open. -/
def gatesOr (r : Option Bytes) : List (Nat × Nat) := match r with
  | some b => gateEntries b
  | none => [(255, 0)]

/-- The gate list in force on a gated port. -/
def State.gatesOf (s : State) (sd : SideId) (p : Nat) : List (Nat × Nat) := gatesOr (Tbl.find (s.side sd).sw.gates p)

def State.activeGates (s : State) (sd : SideId) : Tbl Bytes :=
  (upto 6).filterMap fun p => (s.modActive.get 0x0B (swPortIdx sd.code (p + 1))).map fun r => (p, r)

/-- The gate lists of the active set come into force at T0 (R267). -/
def State.loadGates (s : State) : State :=
  s.forSides fun sd t => t.modSide sd fun x => { x with sw := { x.sw with gates := s.activeGates sd } }

/-- Where the entries of a list start, in ns after T0, with their index: entry index, start, GATES. -/
def gateStarts : Nat → Nat → List (Nat × Nat) → List (Nat × Nat × Nat)
  | _, _, [] => []
  | k, t, e :: rest => (k, t, e.1) :: gateStarts (k + 1) (t + 8 * e.2) rest

/-- The entry in force at an offset. -/
def gateEntryAt (l : List (Nat × Nat)) (off : Nat) : Nat :=
  ((gateStarts 0 0 l).filter fun e => decide (e.2.1 ≤ off)).foldl (fun _ e => e.1) 0

/-- How long a class stays open from an offset on, up to `limit` (R266): 0 when it is closed there. -/
def openUntil (l : List (Nat × Nat)) (cl off limit : Nat) : Nat :=
  let es := gateStarts 0 0 l
  let rest := es.filter fun e => decide (gateEntryAt l off ≤ e.1)
  match rest with
  | [] => 0
  | first :: more =>
    if !bit first.2.2 cl then 0
    else match more.find? fun e => !bit e.2.2 cl with
      | some e => min e.2.1 limit
      | none => limit

/-- The nominal length of a tick in ns (R30). -/
def tickLength (w : Nat) : Nat := tickStart (w + 1) - tickStart w

/-- Whether a frame of a class and duration may start on a port at an offset (R266). -/
def State.gateAllows (s : State) (sd : SideId) (p cl off dur : Nat) : Bool :=
  6 ≤ p || decide (off + dur ≤ openUntil (s.gatesOf sd p) cl off (tickLength s.now - 24))

/-- Whether it may start at a later opening of this tick. -/
def State.gateAllowsLater (s : State) (sd : SideId) (p cl off dur : Nat) : Bool :=
  (gateStarts 0 0 (s.gatesOf sd p)).any fun e => decide (off < e.2.1) && s.gateAllows sd p cl e.2.1 dur

/-! ### The shared buffer (R261 to R263) -/

def qKey (p cl : Nat) : Nat := 8 * p + cl

def State.swQueue (s : State) (sd : SideId) (p cl : Nat) : List SwFrame := Tbl.getD (s.side sd).sw.queues (qKey p cl) []

def State.putSwQueue (s : State) (sd : SideId) (p cl : Nat) (l : List SwFrame) : State :=
  s.modSide sd fun x => { x with sw := { x.sw with queues := Tbl.set x.sw.queues (qKey p cl) (if l.isEmpty then none else some l) } }

def cellsOf (l : List SwFrame) : Nat := listSum (l.map (·.cells))

/-- The key of a virtual output queue (R257), and its input, output and class. -/
def voqKey (i o cl : Nat) : Nat := (16 * i + o) * 8 + cl
def voqIn (k : Nat) : Nat := k / 128
def voqOut (k : Nat) : Nat := k / 8 % 16

/-- The cells of a queue of an output port: those that have crossed and those that wait at the inputs. -/
def State.occupancy (s : State) (sd : SideId) (p cl : Nat) : Nat :=
  cellsOf (s.swQueue sd p cl) + listSum (((s.side sd).sw.voq.filter fun e => e.1 % 128 == qKey p cl).map fun e => cellsOf e.2)

/-- Frames the module has built for the next T0 hold cells of class 7 on each of their ports. -/
def State.expressCells (s : State) (sd : SideId) : Nat :=
  listSum ((s.side sd).pubQueue.map fun q => ((upto 16).filter fun p => bit q.ports p).length * ceilDiv (Config.frameBytes (q.out.leave .A 0 false)).length 128)

/-- Cells in use. -/
def State.cellsUsed (s : State) (sd : SideId) : Nat :=
  listSum ((s.side sd).sw.queues.map fun e => cellsOf e.2) + listSum ((s.side sd).sw.voq.map fun e => cellsOf e.2) + s.expressCells sd

/-- The release offset r of R196 in ps. -/
def releaseOffset (port speed fec : Nat) : Nat :=
  if speed = 5 then 640000 else if speed = 2 then 420000 else if port ≤ 6 then (match fec with | 0 => 400000 | 1 => 480000 | _ => 640000) else 0

/-- The maximum lengths of the replicated frames that a tick index can need on the ports that `on` picks: every GOOSE control
block, the derived streams whose frame closes (R195, R211). -/
def State.frameLengths (t : State) (on : Nat → Bool) (i : Nat) : List Nat :=
  let len (r : Bytes) : Nat := min 1522 (Config.pubFrameLength r).toNat
  ((t.goosePubRecs.filter fun e => gpFlag e.2.2 0 && on (u16 e.2.2 24)).map fun e => len e.2.2)
    ++ (t.svPubRecs.filter fun e => bit (u16 e.2.2 4) 0 && on (u16 e.2.2 20)
      && (tickIndex (i + 4800 - t.sealDelay) + 1) % u8 e.2.2 3 == 0).map fun e => len e.2.2

/-- The telegrams built in a tick of that index on those ports (R354), as their lengths on the wire. -/
def State.teleLengths (t : State) (on : Nat → Bool) (i : Nat) : List Nat :=
  ((t.teleRecs 0).filter fun e => on (u16 e.2 24) && u8 e.2 18 != 0 && i % u8 e.2 18 == 0).map fun e =>
    max 64 (14 + 4 * b2n (bit (u8 e.2 17) 1) + 16 + 4 * u8 e.2 16 + 4)

/-- Whether a port carries the replicated frames of a PORTS mask: the cross-link paths carry every one (R263). -/
def carries (p mask : Nat) : Bool := if p < 10 then bit mask p else p == 11 || p == 12

/-- MIN of class 7 (R263): the cells of the heaviest publish tick. -/
def State.minExpress (s : State) (p : Nat) : Nat :=
  if s.goosePubRecs.isEmpty && s.svPubRecs.isEmpty && (s.teleRecs 0).isEmpty then 0
  else listMax ((upto 4800).map fun i =>
    listSum ((s.frameLengths (carries p) i).map fun n => ceilDiv n 128) + (s.teleLengths (carries p) i).length)

/-- MIN of a queue. -/
def State.queueMin (s : State) (sd : SideId) (p cl : Nat) : Nat :=
  if cl = 7 then s.minExpress p else match s.modActive.queueRec sd p cl with
    | some r => u16 r 6
    | none => 16

/-- The sum of MIN over all 128 queues. -/
def State.minSum (s : State) (sd : SideId) : Nat :=
  listSum ((upto 16).map fun p => listSum ((upto 8).map fun cl => s.queueMin sd p cl))

/-- The codes of ALPHA and ALPHA_PORT (R262). -/
def State.alphaOf (s : State) (sd : SideId) (p cl : Nat) : Nat × Nat := match s.modActive.queueRec sd p cl with
  | some r => (u8 r 3, u8 r 4)
  | none => (3, 3)

/-- The cells of a queue beyond its MIN. -/
def State.beyond (s : State) (sd : SideId) (p cl : Nat) : Nat := s.occupancy sd p cl - s.queueMin sd p cl

def State.beyondPort (s : State) (sd : SideId) (p : Nat) : Nat := listSum ((upto 8).map fun cl => s.beyond sd p cl)

/-- F: the shared cells free. -/
def State.sharedFree (s : State) (sd : SideId) : Nat :=
  196608 - s.minSum sd - listSum ((upto 16).map fun p => s.beyondPort sd p)

/-- Whether a frame charged with that many cells is admitted (R261). -/
def State.admitsFrame (s : State) (sd : SideId) (p cl charge : Nat) : Bool :=
  decide (s.occupancy sd p cl + charge ≤ s.queueMin sd p cl) ||
    (cl != 7 &&
      let a := s.alphaOf sd p cl
      let f := s.sharedFree sd
      decide (64 * (s.beyond sd p cl + charge) ≤ 2 ^ a.1 * f) && decide (64 * (s.beyondPort sd p + charge) ≤ 2 ^ a.2 * f))

/-- The most cells in use so far. -/
def State.noteCells (s : State) (sd : SideId) : State := s.raise (Rg.swBufHw sd) Fd.swBufHwHighWater (s.cellsUsed sd)

/-- An admitted frame joins the virtual output queue of its input. -/
def State.joinQueue (s : State) (sd : SideId) (p cl : Nat) (x : SwFrame) : State :=
  (s.modSide sd fun y => { y with sw := { y.sw with voq := Tbl.put y.sw.voq (voqKey x.via p cl) (Tbl.getD y.sw.voq (voqKey x.via p cl) [] ++ [x]) } }).noteCells sd

/-- A refused frame (R261). -/
def State.dropFrame (s : State) (sd : SideId) (p cl : Nat) : State :=
  (s.tick1 (Rg.queueDrop sd (8 * p + cl)) Fd.queueDropCount).cnt sd p 10 1

/-- A stored frame for a queue; the Bool says that it was admitted. -/
def State.storeFrame (s : State) (sd : SideId) (p cl : Nat) (x : SwFrame) : State × Bool :=
  if s.admitsFrame sd p cl x.cells then (s.joinQueue sd p cl x, true) else (s.dropFrame sd p cl, false)

/-! ### The crossbar (R257) -/

/-- A request, grant or match: input, output, class. -/
structure XbarPair where
  inp : Nat
  out : Nat
  cls : Nat
  deriving DecidableEq, Repr

/-- How far a port lies behind the one served last: the next one first. -/
def rrDist (last x : Nat) : Nat := (x + 15 - last) % 16

/-- The pair of highest class; among equals the nearest in round-robin order. -/
def bestPair (last : Nat) (port : XbarPair → Nat) (l : List XbarPair) : Option XbarPair :=
  l.foldl (fun b x => match b with
    | none => some x
    | some y =>
      if y.cls < x.cls ∨ (y.cls = x.cls ∧ rrDist last (port x) < rrDist last (port y)) then some x else b) none

/-- What every input holds: its highest class for each output. -/
def SwSt.requests (x : SwSt) : List XbarPair :=
  let all := (x.voq.filter fun e => !e.2.isEmpty).map fun e => (⟨voqIn e.1, voqOut e.1, e.1 % 8⟩ : XbarPair)
  all.filter fun a => !all.any fun b => b.inp == a.inp && b.out == a.out && decide (a.cls < b.cls)

/-- The grants to the inputs and outputs still unmatched: one for each output requested. -/
def SwSt.grants (x : SwSt) (reqs : List XbarPair) : List XbarPair :=
  ((reqs.map (·.out)).eraseDups).filterMap fun o => bestPair (Tbl.getD x.granted o 15) (·.inp) (reqs.filter fun a => a.out == o)

/-- The accepts: one for each input granted. -/
def SwSt.accepts (x : SwSt) (gs : List XbarPair) : List XbarPair :=
  ((gs.map (·.inp)).eraseDups).filterMap fun i => bestPair (Tbl.getD x.accepted i 15) (·.out) (gs.filter fun a => a.inp == i)

/-- One round: what is matched beside `done`. -/
def SwSt.round (x : SwSt) (reqs done : List XbarPair) : List XbarPair :=
  done ++ x.accepts (x.grants (reqs.filter fun a => !done.any fun d => d.inp == a.inp || d.out == a.out))

/-- One cell of a matched queue crosses; with its last cell the frame stands in the egress queue. -/
def SwSt.moveCell (x : SwSt) (m : XbarPair) : SwSt :=
  let k := voqKey m.inp m.out m.cls
  match Tbl.getD x.voq k [] with
  | [] => x
  | f :: rest =>
    if 1 < f.left then { x with voq := Tbl.put x.voq k ({ f with left := f.left - 1 } :: rest) }
    else { x with
      voq := Tbl.set x.voq k (if rest.isEmpty then none else some rest)
      queues := Tbl.put x.queues (qKey m.out m.cls) (Tbl.getD x.queues (qKey m.out m.cls) [] ++ [{ f with left := 0, ready := (x.crossAt + 16) / 5 }]) }

/-- One cell time: three rounds; the pointers move on the accepts of the first. -/
def SwSt.cellTime (x : SwSt) : SwSt :=
  let reqs := x.requests
  let first := x.round reqs []
  let all := x.round reqs (x.round reqs first)
  let y := first.foldl (fun (z : SwSt) m => { z with granted := Tbl.put z.granted m.out m.inp, accepted := Tbl.put z.accepted m.inp m.out }) x
  let z := all.foldl SwSt.moveCell y
  { z with crossAt := z.crossAt + 16 }

def SwSt.cellTimes : Nat → SwSt → SwSt
  | 0, x => x
  | n + 1, x => SwSt.cellTimes n x.cellTime

/-- The other path of a pair: 11 and 12, 13 and 14. -/
def pairOf (p : Nat) : Nat := if p < 13 then 23 - p else 27 - p

/-- Whether the path that took the flows of path p over still holds a cell of their class for the same output (R269): the
path itself as output, or another output that it feeds. -/
def SwSt.holds (x : SwSt) (p cl out : Nat) : Bool :=
  let o := pairOf p
  if out = p then
    cellsOf (Tbl.getD x.queues (qKey o cl) []) + listSum ((x.voq.filter fun e => e.1 % 128 == qKey o cl).map fun e => cellsOf e.2) != 0
  else cellsOf (Tbl.getD x.voq (voqKey o out cl) []) != 0

/-- Flows whose class no longer holds them on the other path go back to their own. -/
def SwSt.endStays (x : SwSt) : SwSt := { x with stay := x.stay.filter fun e => x.holds e.1 e.2.1 e.2.2 }

/-- What stays on the other path when path p comes back. -/
def SwSt.stays (x : SwSt) (p : Nat) : List (Nat × Nat × Nat) :=
  ((upto 8).flatMap fun cl => (if p < 13 then [p] else upto 16).map fun out => (p, cl, out)).filter fun e => x.holds e.1 e.2.1 e.2.2

/-- The crossbar runs up to an instant, in cell times of 3.2 ns; with nothing waiting it rests. -/
def State.crossTo (s : State) (sd : SideId) (ns : Nat) : State :=
  s.modSide sd fun y =>
    let x := y.sw
    if x.voq.isEmpty then { y with sw := { x with crossAt := max x.crossAt (5 * ns) } }
    else
      let n := (5 * ns - x.crossAt) / 16
      let waits := listSum (x.voq.map fun e => cellsOf e.2)
      { y with sw := { (SwSt.cellTimes (min n waits) x).endStays with crossAt := x.crossAt + 16 * n } }

/-! ### Flows (R268, R269) -/

/-- The VLAN ID of a frame: 0 when untagged. -/
def ethVid (f : EthFrame) : Nat := match f.tci with
  | some t => t.toNat % 4096
  | none => 0

/-- Bit 0 of the flow hash (R268). -/
def flowUpper (f : EthFrame) : Bool :=
  bit (crc32c (beBytes 6 f.dst.toNat ++ beBytes 6 f.src.toNat ++ beBytes 2 (ethVid f) ++ beBytes 2 f.etherType.toNat
    ++ (if f.etherType = 0x88BA#16 ∨ f.etherType = 0x88B8#16 then beBytes 2 f.appId.toNat else []) ++ f.ip)) 0

/-- The path of a pair that a flow takes for an output: the other one while its own is down, or is back and the other
still holds cells of the class for that output (R269); none while both are down. -/
def State.pathOf (s : State) (sd : SideId) (own out cl : Nat) : Option Nat :=
  let other := pairOf own
  let stays := (s.side sd).sw.stay.contains (own, cl, out)
  if s.portUp sd own && !(stays && s.portUp sd other) then some own
  else if s.portUp sd other then some other else none

/-- The cross-link path of a flow. -/
def State.xlinkPort (s : State) (sd : SideId) (f : EthFrame) (cl : Nat) : Option Nat :=
  let own := if flowUpper f then 12 else 11
  s.pathOf sd own own cl

/-- The compute path of a flow whose frames it takes to the compute part. -/
def State.computePort (s : State) (sd : SideId) (f : EthFrame) (cl : Nat) : Nat :=
  let own := if flowUpper f then 14 else 13
  (s.pathOf sd own own cl).getD own

/-- The compute path through which a frame of the module enters its switch, for an output port. -/
def State.computeIn (s : State) (sd : SideId) (f : EthFrame) (out cl : Nat) : Nat :=
  let own := if flowUpper f then 14 else 13
  (s.pathOf sd own out cl).getD own

/-- The flows that a frame's departure frees from the other path of their pair. -/
def State.endStay (s : State) (sd : SideId) : State := s.modSide sd fun x => { x with sw := x.sw.endStays }

/-! ### Mirror sessions (R273, R274) -/

/-- The 16-byte header and the copied bytes. -/
def mirrorCopy (p : Nat) (egress dropped : Bool) (cl m : Nat) (f : EthFrame) (ns : Nat) : Bytes :=
  beBytes 1 (p + 1) ++ beBytes 1 (b2n egress + b2n (decide (128 < f.length)) * 2 + b2n dropped * 4) ++ beBytes 1 cl ++ beBytes 1 m
    ++ beBytes 2 f.length ++ zeros 2 ++ beBytes 8 ns ++ f.head.take 128

/-- One session and a frame at one of its sources. -/
def State.mirrorOne (s : State) (sd : SideId) (p cl : Nat) (egress dropped : Bool) (f : EthFrame) (ns m : Nat) : State :=
  match Tbl.find (s.side sd).sw.mirrors m with
  | none => s
  | some c =>
    if !s.flag (Rg.mirrorState sd m) Fd.mirrorStateActive || !bit (u16 c 6) p || !bit (u8 c 1) (b2n egress) || !bit (u8 c 2) cl then s
    else
      let k := 16 * m + p
      let n := Tbl.getD (s.side sd).sw.mirrorCount k 0 + 1
      let set (v : Nat) : State := s.modSide sd fun x => { x with sw := { x.sw with mirrorCount := Tbl.put x.sw.mirrorCount k v } }
      if n < u32 c 8 then set n
      else
        let copy := mirrorCopy p egress dropped cl m f ns
        let n := ceilDiv copy.length 128
        let x : SwFrame := ⟨f, none, p, p, none, 65536 * ns, 0, n, n, false, false, false, some (m, copy)⟩
        let r := (set 0).storeFrame sd (s.computePort sd f 0) 0 x
        if r.2 then r.1 else r.1.cnt sd p 15 1

def State.mirrorFrame (s : State) (sd : SideId) (p cl : Nat) (egress dropped : Bool) (f : EthFrame) (ns : Nat) : State :=
  (upto 4).foldl (fun t m => t.mirrorOne sd p cl egress dropped f ns m) s

/-! ### Frames the module builds (R261, R264, R273, R278) -/

/-- Items 3 and 4 of the flow hash of an IP frame whose IP header starts at l: addresses, protocol, ports. -/
def ipItems (b : Bytes) (l : Nat) (ty : Nat) : Bytes :=
  let ports (at0 proto : Nat) : Bytes := if proto = 6 ∨ proto = 17 then sub b at0 4 else []
  if ty = 0x0800 then sub b (l + 12) 8 ++ sub b (l + 9) 1 ++
    (if u16 b (l + 6) % 16384 = 0 then ports (l + 4 * (u8 b l % 16)) (u8 b (l + 9)) else [])
  else if ty = 0x86DD then sub b (l + 8) 32 ++ sub b (l + 6) 1 ++ ports (l + 40) (u8 b (l + 6))
  else []

/-- Where the Ethertype of a frame's bytes ends. -/
def ethEnd (b : Bytes) : Nat := if u16 b 12 = 0x8100 then 18 else 14

/-- A frame's bytes as the switch sees them; `length` counts the FCS. -/
def ethOf (b : Bytes) (length : Nat) : EthFrame :=
  let l := ethEnd b
  ⟨BitVec.ofNat 48 (u48 b 0), BitVec.ofNat 48 (u48 b 6), if l = 18 then some (BitVec.ofNat 16 (u16 b 14)) else none,
    BitVec.ofNat 16 (u16 b (l - 2)), length, true, BitVec.ofNat 16 (u16 b l), ipItems b l (u16 b (l - 2)), none, false, false, b⟩

/-- An output as the switch sees it: the same on both LANs (R194). -/
def ownFrame (o : Output) : EthFrame :=
  match o with
  | .frame _ _ b => ethOf b (b.length + 4)
  | .telegram _ _ b => ethOf b (b.length + 4)
  | _ => let b := Config.frameBytes (o.leave .A 0 false); ethOf b b.length

/-- The instant in ns up to which the crossbar of a side has run: when the module hands its switch a frame. -/
def State.swNow (s : State) (sd : SideId) : Nat := (s.side sd).sw.crossAt / 5

/-- A frame of the module on its way through the crossbar, from a compute path at an instant. -/
def ownSw (o : Output) (f : EthFrame) (path ns : Nat) (dest : Option Nat) : SwFrame :=
  let n := ceilDiv f.length 128
  ⟨f, some o, path, path, dest, 65536 * ns, 0, n, n, false, false, false, none⟩

/-- A frame enters the switch by a path other than an external port: counted, and copied to the mirror sessions (R273,
R278). -/
def State.enterBy (s : State) (sd : SideId) (path cl : Nat) (dropped : Bool) (f : EthFrame) (ns : Nat) : State :=
  ((s.cnt sd path 0 1).cnt sd path 1 f.length).mirrorFrame sd path cl false dropped f ns

/-- A frame of the module enters its switch for a port (R261, R264). -/
def State.enterOwn (s : State) (sd : SideId) (p cl : Nat) (o : Output) (f : EthFrame) (dest : Option Nat) : State :=
  let path := s.computeIn sd f p cl
  let t := s.storeFrame sd p cl (ownSw o f path (s.swNow sd) dest)
  t.1.enterBy sd path cl (!t.2) f (s.swNow sd)

/-- The module hands its switch a frame for a port of a side (R261, R264). -/
def State.sendOwn (s : State) (sd : SideId) (p cl : Nat) (o : Output) (f : EthFrame) : State :=
  s.enterOwn sd p cl o f none

/-- A frame for a port of the other side: it goes through the cross-link and that side's switch (R199, R270). -/
def State.sendOther (s : State) (sd : SideId) (p cl : Nat) (o : Output) (f : EthFrame) : State :=
  if !s.forwards sd.other then s
  else match s.xlinkPort sd f cl with
    | none => s
    | some xp => s.enterOwn sd xp cl o f (some p)

/-! ### Reception (R251, R253 to R256, R259, R271) -/

/-- The class of a received frame (R256). -/
def frameClass (r : Bytes) (f : EthFrame) : Nat :=
  if f.etherType = 0x88F7#16 then 6
  else prClass r (match f.tci with
    | some t => t.toNat / 8192
    | none => u8 r 7 % 8)

/-- The VLAN a frame belongs to for the forwarding table (R252). -/
def frameVlan (r : Bytes) (f : EthFrame) : Nat := if (ethVid f) = 0 then u16 r 8 else (ethVid f)

/-- The PORTS of the first matching forwarding entry (R254). -/
def State.fdbPorts (s : State) (sd : SideId) (r : Bytes) (f : EthFrame) : Option Nat :=
  ((s.modActive.fdb sd).find? fun e => u48 e 0 == f.dst.toNat && (u16 e 6 == 0xFFFF || u16 e 6 == frameVlan r f)).map fun e => u16 e 8

/-- Rule 5 of R253: a subscription of the active set or a telegram record of the active table. -/
def State.subscribed (s : State) (f : EthFrame) : Bool :=
  if f.etherType = 0x88BA#16 then s.subs.any fun e => u48 e.2 4 == f.dst.toNat && u16 e.2 10 == f.appId.toNat
  else if f.etherType = 0x88B8#16 then s.gooseSubRecs.any fun e => u48 e.2 4 == f.dst.toNat && u16 e.2 10 == f.appId.toNat
  else if f.etherType = 0x88B5#16 then (s.teleRecs 1).any fun e => u48 e.2 8 == f.dst.toNat && u16 e.2 2 == f.appId.toNat
  else false

/-- Whether a port forwards PTP frames: a transparent clock, or a port without a record (R282, R283). -/
def State.ptpForwards (s : State) (sd : SideId) (p : Nat) : Bool := match s.modActive.timePort sd (p + 1) with
  | some r => u8 r 2 == 2
  | none => true

/-- PAIR mode of the active set: 0 off, 1 mirror, 2 parked partner (R239). -/
def State.pairMode (s : State) : Nat := u8 s.modActive.pubRec 6

/-- What the lookup finds: dropped, or a mask of external ports and whether the compute path is a destination. -/
inductive Dest where
  | drop
  | lost
  | pubMac
  | to (ports : Nat) (compute : Bool)
  deriving DecidableEq, Repr

/-- Rules 3 to 8 of R253. -/
def State.lookup (s : State) (sd : SideId) (p : Nat) (r : Bytes) (f : EthFrame) : Dest :=
  let fdb := s.fdbPorts sd r f
  let mask := (fdb.getD 0) % 1024
  let out := if bit mask p then mask - 2 ^ p else mask
  if f.dst.toNat / 16 = 0x0180C200000 then .to 0 true
  else if f.etherType = 0x88F7#16 then .to (if s.ptpForwards sd p then out else 0) true
  else if s.subscribed f then .to out true
  else match fdb with
    | some m => if out = 0 ∧ !bit m 15 then .drop else .to out (bit m 15)
    | none => if f.dst = Config.stationMac sd ∨ f.dst = 0xFFFFFFFFFFFF#48 then .to 0 true else .lost

/-- The whole lookup, rules 1 and 2 first. -/
def State.classify (s : State) (sd : SideId) (p : Nat) (r : Bytes) (f : EthFrame) : Dest :=
  if f.src.toNat = s.pubMac ∧ s.pairMode ≠ 1 then .pubMac else s.lookup sd p r f

def evHsrOpen : Nat := 0x200A
def evPubMacClash : Nat := 0x200B
def evRemap : Nat := 0x100C

/-- Another device uses PUB_MAC (R255): at most one report in 4,800 ticks. -/
def State.pubMacClash (s : State) (sd : SideId) (p : Nat) : State :=
  let s1 := s.setFlag (Rg.swStatus sd) Fd.swStatusPubMacClash true
  if (match (s.side sd).sw.clash with | some t => decide (s.now < t + 4800) | none => false) then s1
  else (s1.modSide sd fun x => { x with sw := { x.sw with clash := some s.now } }).sideReport sd evPubMacClash (beBytes 1 (p + 1) ++ zeros 15)

/-- A ring frame that is not forwarded (R271): from this module, for it alone, or forwarded before within 400 ms. -/
def State.ownStation (f : BitVec 48) : Bool := f == Config.stationMac .A || f == Config.stationMac .B

def ringKey (f : EthFrame) : Nat := f.src.toNat * 65536 + (f.hsr.getD 0).toNat

def State.ringDup (s : State) (sd : SideId) (f : EthFrame) (ns : Nat) : Bool :=
  match Tbl.find (s.side sd).sw.ringSeen (ringKey f) with
  | some t => decide (ns < t + 400000000)
  | none => false

/-- Whether a frame returns around the ring to the module that sent it. -/
def State.ringReturn (s : State) (f : EthFrame) : Bool := State.ownStation f.src || f.src.toNat == s.pubMac

/-- Cut-through (R259): express class, empty queue, output no faster than the input, admission for MAX_FRAME. -/
def State.cutsThrough (s : State) (sd : SideId) (inRate p cl maxFrame : Nat) : Bool :=
  decide (6 ≤ cl) && s.occupancy sd p cl == 0 && decide (s.portRate sd p ≤ inRate) && s.admitsFrame sd p cl (ceilDiv maxFrame 128)

/-- A received frame and one destination port: cut through, or stored when it is sound; the Bool says that it goes on. -/
def State.switchTo (s : State) (sd : SideId) (r : Bytes) (sound ring : Bool) (inPort : Nat) (f : EthFrame) (stamp p : Nat) : State × Bool :=
  let cl := frameClass r f
  let n := ceilDiv f.length 128
  let x : SwFrame := ⟨f, none, inPort, inPort, none, stamp, 0, n, n, !sound, false, ring, none⟩
  if s.cutsThrough sd (s.portRate sd inPort) p cl (prMax r) then ((s.joinQueue sd p cl x).cnt sd p 12 1, true)
  else if sound then s.storeFrame sd p cl x
  else (s, false)

/-- To several ports; the Bool says that it goes on somewhere. -/
def State.switchAll (s : State) (sd : SideId) (r : Bytes) (sound : Bool) (inPort : Nat) (f : EthFrame) (stamp : Nat) (ps : List Nat) : State × Bool :=
  ps.foldl (fun a p => let b := a.1.switchTo sd r sound false inPort f stamp p; (b.1, a.2 || b.2)) (s, false)

/-- A node of PRP is heard (R270): at most 2,048. -/
def State.hearNode (s : State) (sd : SideId) (mac ns : Nat) : State :=
  let t := (s.side sd).sw.nodes
  if Tbl.has t mac ∨ t.length < 2048 then s.modSide sd fun x => { x with sw := { x.sw with nodes := Tbl.put t mac ns } } else s

/-- A ring frame goes on to the other side's ring port, through the cross-link (R271); its number counts as forwarded once
it does. The Bool says that it goes on. -/
def State.ringForward (s : State) (sd : SideId) (r : Bytes) (sound : Bool) (f : EthFrame) (stamp : Nat) : State × Bool :=
  let ns := stamp / 65536
  if s.ringDup sd f ns then (s.cnt sd 0 13 1, false)
  else if State.ownStation f.dst then (s, false)
  else
    match s.xlinkPort sd f (frameClass r f) with
    | none => (s, false)
    | some xp =>
      let t := s.switchTo sd r sound true 0 f stamp xp
      if sound && t.2 then (t.1.modSide sd fun x => { x with sw := { x.sw with
        ringSeen := Tbl.put (x.sw.ringSeen.filter fun e => decide (ns < e.2 + 400000000)) (ringKey f) ns } }, true)
      else t

/-- FRAME_RECEIVE: a frame at an external port with link (R253), its first bit at the PCS at `ns`. -/
def State.receiveFrame (s0 : State) (sd : SideId) (p : Nat) (f : EthFrame) (ns : Nat) : State :=
  match s0.modActive.portRec sd p with
  | none => s0
  | some r =>
    if !s0.portLinked sd p then s0
    else
      let s := s0.crossTo sd ns
      let stamp := s.rxStamp sd (p + 1) ns
      let tns := stamp / 65536
      let size := decide (64 ≤ f.length ∧ f.length ≤ prMax r)
      let sound := f.fcsOk && size
      let cl := frameClass r f
      let s1 := if f.fcsOk then (s.cnt sd p 0 1).cnt sd p 1 f.length else s
      let s2 := if !size then s1.cnt sd p 3 1 else if !f.fcsOk then s1.cnt sd p 2 1 else s1
      let dropped (t : State) : State := t.mirrorFrame sd p cl false true f tns
      if f.pause then dropped (s2.cnt sd p 6 1)
      else if p = 0 && s.hsrOn && s.ringReturn f then dropped s2
      else if (match f.tci with | some _ => !prFlag r 3 | none => !prFlag r 2) then dropped (s2.cnt sd p 5 1)
      else
        let own := f.src.toNat == s.pubMac
        let s3 := if own then s2.cnt sd p 7 1 else s2
        let s4 := if own && sound && decide (p < 8) then { s3 with partnerSeen := true } else s3
        let s5 := if sound && prFlag r 0 then s4.hearNode sd f.src.toNat tns else s4
        let ring := if p = 0 && s.hsrOn && f.hsr.isSome then s5.ringForward sd r sound f stamp else (s5, false)
        let s6 := ring.1
        let ended (t : State) (on : Bool) : State := t.mirrorFrame sd p cl false (!sound || !(on || ring.2)) f tns
        match s6.classify sd p r f with
        | .pubMac => ended (s6.pubMacClash sd p) false
        | .lost => ended (s6.cnt sd p 4 1) false
        | .drop => ended s6 false
        | .to ports compute =>
          let ps := (upto 10).filter (bit ports) ++ (if compute then [s6.computePort sd f cl] else []) ++ (s6.xlinkPort sd f cl).toList
          let t := s6.switchAll sd r sound p f stamp ps
          ended t.1 t.2

/-! ### Transmission (R264, R266) -/

/-- The time a frame takes on a port, in ns, preamble and gap included. -/
def State.lineTime (s : State) (sd : SideId) (p length : Nat) : Nat := ceilDiv ((length + 20) * 8) (max 1 (s.portRate sd p))

/-! ### Transparent clocks and the module's own event messages (R283, R286) -/

/-- The PTP header of a frame: messageType, domainNumber, sequenceId, source port identity. -/
def ptpAt (f : EthFrame) (o n : Nat) : Bytes := sub f.head (ethEnd f.head + o) n
def ptpType (f : EthFrame) : Nat := u8 (ptpAt f 0 1) 0 % 16
def ptpDomainOf (f : EthFrame) : Nat := u8 (ptpAt f 4 1) 0
def ptpSeqOf (f : EthFrame) : Nat := u16 (ptpAt f 30 2) 0

/-- The key of an event message: its type, its sender and its sequence number. -/
def eventKey (f : EthFrame) : Bytes := beBytes 1 (ptpType f) ++ ptpAt f 20 10 ++ ptpAt f 30 2

/-- The event messages that a general message leaving port p follows, as the port they left and their key (R283): a
Follow_Up its Sync; a Pdelay_Resp_Follow_Up its Pdelay_Resp, and the Pdelay_Req that went the other way; a Delay_Resp the
Delay_Req that did. -/
def followed (f : EthFrame) (p inPort : Nat) : List (Nat × Bytes) :=
  let seq := ptpAt f 30 2
  let asker := ptpAt f 44 10
  match ptpType f with
  | 8 => [(p, [0] ++ ptpAt f 20 10 ++ seq)]
  | 9 => [(inPort, [1] ++ asker ++ seq)]
  | 10 => [(p, [3] ++ ptpAt f 20 10 ++ seq), (inPort, [2] ++ asker ++ seq)]
  | _ => []

/-- An entry of the transmit timestamp queue from a stamp in 2^−16 ns. -/
def stampEntry (stamp seq kind domain : Nat) : Bytes :=
  let ns := stamp / 65536
  txtsEntry (ns / 1000000000) (ns % 1000000000) (stamp % 65536) seq kind domain

/-- A PTP frame that a transparent-clock port forwards between external ports of its side (R283): the correction it carries
away. In two-step mode an event message leaves its residence time for the message that follows it up, and an entry in the
port's timestamp queue. -/
def State.transparent (s : State) (sd : SideId) (p : Nat) (x : SwFrame) (ns : Nat) : Option Int × State :=
  match s.modActive.timePort sd (p + 1) with
  | none => (none, s)
  | some r =>
    if u8 r 2 ≠ 2 ∨ x.f.etherType ≠ 0x88F7#16 ∨ 11 ≤ x.inPort ∨ x.via ≠ x.inPort then (none, s)
    else if x.f.ptpEvent then
      let tx := s.txStamp sd (p + 1) ns
      let c : Int := (tx : Int) - x.stamp + (if s.profile.peer then ((Config.pathDelay sd (x.inPort + 1) s.now).toNat : Int) else 0)
      if u8 r 3 = 0 then (some c, s)
      else (none, (s.modSide sd fun y =>
        let l := y.time.resid ++ [(p, eventKey x.f, c)]
        { y with time := { y.time with resid := l.drop (l.length - 64) } }).txtsPush sd p (stampEntry tx (ptpSeqOf x.f) (ptpType x.f) (ptpDomainOf x.f)))
    else
      let ks := followed x.f p x.inPort
      let mine (e : Nat × Bytes × Int) : Bool := ks.contains (e.1, e.2.1)
      let l := (s.side sd).time.resid.filter mine
      if l.isEmpty then (none, s)
      else (some (l.foldl (fun a e => a + e.2.2) 0), s.modSide sd fun y =>
        { y with time := { y.time with resid := y.time.resid.filter fun e => !mine e } })

/-- The follow-up of a two-step event message of the module: with the timestamp of the event (R286). -/
def PtpOut.followUp (m : PtpOut) (stamp : Nat) : Option PtpOut :=
  match m.msg with
  | 0 => some { m with msg := 8, twoStep := false, time := some stamp }
  | 3 => some { m with msg := 10, twoStep := false, time := some stamp }
  | _ => none

/-- A PTP message of the module leaves. A two-step event message leaves an entry in the port's queue; unless that is dropped
the message that follows it waits for the protocol engine to read the entry (R286). A one-step Sync message carries its
own time. -/
def State.ptpLeaves (s : State) (sd : SideId) (p ns : Nat) (m : PtpOut) : State :=
  let stamp := s.txStamp sd (p + 1) ns
  if 3 < m.msg then s.emit (.ptp sd (p + 1) m)
  else if m.twoStep then
    let e := stampEntry stamp m.seq m.msg m.domain
    let s1 := (s.emit (.ptp sd (p + 1) m)).txtsPush sd p e
    match s.txtsRoom sd p, m.followUp stamp with
    | true, some g => s1.modSide sd fun y => { y with time := { y.time with awaiting := y.time.awaiting ++ [(p, e, g)] } }
    | _, _ => s1
  else s.emit (.ptp sd (p + 1) (if m.msg = 0 then { m with time := some stamp } else m))

/-! ### Frames that leave their queues -/

/-- A frame has crossed the cross-link: to the other side's compute path, its ring port, or the port it was sent to (R17,
R254, R271). It keeps its ingress port and timestamp. -/
def State.crossFrame (s : State) (sd : SideId) (path cl : Nat) (x : SwFrame) (ns : Nat) : State :=
  if !s.forwards sd then s
  else
    let s1 := s.enterBy sd path cl false x.f ns
    let y := { x with via := path, ready := 0, left := x.cells, deferred := false, dest := none }
    let p := match x.dest with
      | some q => q
      | none => if x.ring then 0 else s1.computePort sd x.f cl
    let cuts := x.ring && s1.cutsThrough sd (s1.portRate sd path) 0 cl (match s1.modActive.portRec sd.other 0 with | some r => prMax r | none => 0)
    if cuts then (s1.joinQueue sd 0 cl y).cnt sd 0 12 1 else (s1.storeFrame sd p cl y).1

/-- A mirror copy has reached the end of its compute path: a stall's ring, or the management complex. -/
def State.deliverMirror (s : State) (sd : SideId) (x : SwFrame) (m : Nat) (copy : Bytes) : State :=
  if s.flag (Rg.mirrorState sd m) Fd.mirrorStateActive && s.flag (Rg.mirrorState sd m) Fd.mirrorStateToStall then
    let t := s.ringPut sd (s.rd (Rg.mirrorState sd m) Fd.mirrorStateRing) copy
    if t.2 then t.1 else t.1.cnt sd x.inPort 15 1
  else s

/-- A frame leaves its queue through its port. -/
def State.sendFrame (s : State) (sd : SideId) (p cl ns : Nat) (x : SwFrame) (rest : List SwFrame) : State :=
  let len := match x.mirror with
    | some (_, copy) => copy.length
    | none => x.f.length
  let s1 := ((s.putSwQueue sd p cl rest).modSide sd fun y =>
    { y with sw := { y.sw with busy := Tbl.put y.sw.busy p (ns + s.lineTime sd p len) } }).endStay sd
  let s2 := (s1.cnt sd p 8 1).cnt sd p 9 len
  match x.mirror with
  | some (m, copy) => s2.deliverMirror sd x m copy
  | none =>
    let s3 := if x.stomped then s2.cnt sd p 11 1 else s2
    let s4 := s3.mirrorFrame sd p cl true false x.f (if p < 11 then s.txStamp sd (p + 1) ns / 65536 else ns)
    if p < 11 ∨ p = 15 then
      match x.own with
      | some (.ptp _ _ m) => s4.ptpLeaves sd p ns m
      | some o => s4.emit o
      | none => let c := s4.transparent sd p x ns; c.2.emit (.forward sd (p + 1) x.f x.stomped c.1)
    else if p < 13 then if x.stomped then s4 else s4.crossFrame sd.other p cl x ns
    else s4

/-- The tick ends: a frame that waits on a gated port because of R266, with no opening long enough since it could have
started, is moved into a later tick, and counted once. -/
def State.deferGated (s : State) (sd : SideId) : State :=
  let t0 := tickStart s.now
  let s1 := s.crossTo sd (tickStart (s.now + 1))
  (upto 6).foldl (fun t p => (upto 8).foldl (fun (u : State) cl =>
    let held (x : SwFrame) : Bool :=
      let off := max (max x.ready (Tbl.getD (u.side sd).sw.busy p 0)) t0 - t0
      let dur := u.lineTime sd p x.f.length
      !x.deferred && !u.gateAllows sd p cl off dur && !u.gateAllowsLater sd p cl off dur
    let l := u.swQueue sd p cl
    let n := (l.filter held).length
    if n = 0 then u
    else (u.putSwQueue sd p cl (l.map fun x => if held x then { x with deferred := true } else x)).count (Rg.gateStatus sd p) Fd.gateStatusGateDeferred n) t) s1

/-- FRAME_TRANSMIT: the highest class whose gate is open sends its next frame (R264, R266). -/
def State.transmitFrame (s0 : State) (sd : SideId) (p ns : Nat) : State :=
  if !s0.portUp sd p || decide (ns < Tbl.getD (s0.side sd).sw.busy p 0) then s0
  else
    let s := s0.crossTo sd ns
    let off := ns - tickStart s.now
    let ready (cl : Nat) : Option (Nat × SwFrame × List SwFrame) := match s.swQueue sd p cl with
      | x :: rest => if s.gateAllows sd p cl off (s.lineTime sd p x.f.length) then some (cl, x, rest) else none
      | [] => none
    match [7, 6, 5, 4, 3, 2, 1, 0].findSome? ready with
    | some (cl, x, rest) => s.sendFrame sd p cl ns x rest
    | none => s

end Sys2Proof.Machine
end

