-- ==== Sys2Proof/Machine/Links.lean ====
section
/-! DEFINITION. Links, the lanes of the cross-link, the ring attachment, and PRP supervision (R16 to R18, R252, R269 to R272).
Ports count from 0 here. -/

namespace Sys2Proof.Machine

/-! ### Links and lanes (R18, R252, R269, R272) -/

/-- A port's link comes up or goes down. -/
def State.setLink (s : State) (sd : SideId) (p : Nat) (up lf rf : Bool) : State :=
  let r := Rg.portStatus sd p
  let was := s.flag r Fd.portStatusLink
  let fec := match s.modActive.portRec sd p with
    | some c => decide (p < 11) && prFec c != 0
    | none => false
  let speed : Nat × State :=
    if !up then (0, s)
    else if p < 11 then ((match s.modActive.portRec sd p with | some c => prSpeed c | none => 0), s)
    else if p < 13 then (6, s) else if p < 15 then (7, s) else (s.free.1.toNat % 8, s.free.2)
  let s1 := ((((((speed.2.setFlag r Fd.portStatusLink up).setFlag r Fd.portStatusLocalFault lf).setFlag r Fd.portStatusRemoteFault rf).setFlag
    r Fd.portStatusPcsLock up).setFlag r Fd.portStatusFecLock (up && fec)).wr r Fd.portStatusSpeed speed.1)
  let map := s1.rd (Rg.swStatus sd) Fd.swStatusLinkMap
  let s2 := s1.wr (Rg.swStatus sd) Fd.swStatusLinkMap (if bit map p then (if up then map else map - 2 ^ p) else if up then map + 2 ^ p else map)
  let s3 := if p = 11 then s2.setFlag (Rg.xlinkLanes sd) Fd.xlinkLanesPath12Up up
    else if p = 12 then s2.setFlag (Rg.xlinkLanes sd) Fd.xlinkLanesPath13Up up else s2
  if was && !up then s3.cnt sd p 14 1 else s3

/-- Whether a port can have link at all: configured with a speed and not held down (R250, R279). -/
def State.mayLink (s : State) (sd : SideId) (p : Nat) : Bool :=
  11 ≤ p || (s.portRate sd p != 0 && !s.flag (Rg.portStatus sd p) Fd.portStatusAdminDown)

/-- A path of the cross-link waits for the tick boundary that brings it up (R269). -/
def State.awaitPath (s : State) (upper : Bool) : State :=
  { s with xlink := { s.xlink with restoring := if s.xlink.restoring.contains upper then s.xlink.restoring else s.xlink.restoring ++ [upper] } }

/-- PORT_LINK_CHANGE. A path of the cross-link or a compute path that is down comes up at the next tick boundary (R269). -/
def State.portLink (s : State) (sd : SideId) (p : Nat) (up lf rf : Bool) : State :=
  if up && (p == 11 || p == 12) && !s.portLinked sd p then s.awaitPath (p == 12)
  else if p = 13 ∨ p = 14 then
    let down := (s.side sd).sw.down
    if up && down.contains p then s.modSide sd fun x => { x with sw := { x.sw with rising := x.sw.rising.filter (· != p) ++ [p] } }
    else (s.setLink sd p up lf rf).modSide sd fun x => { x with sw := { x.sw with
      down := if up || down.contains p then down else down ++ [p], rising := x.sw.rising.filter (· != p) } }
  else s.setLink sd p (up && s.mayLink sd p) lf rf

/-- The code of a lane in XS0_FOR; spares have none. -/
def laneCode : Lane → Option Nat
  | .path n => some n.val
  | .bell => some 8
  | .spare _ => none

/-- The lane a spare stands for: 15 none. -/
def State.spareFor (s : State) (k : Nat) : Nat :=
  if k = 0 then s.rd (Rg.xlinkLanes .A) Fd.xlinkLanesXs0For else s.rd (Rg.xlinkLanes .A) Fd.xlinkLanesXs1For

def State.setSpareFor (s : State) (k v : Nat) : State :=
  s.forSides fun sd t => if k = 0 then t.wr (Rg.xlinkLanes sd) Fd.xlinkLanesXs0For v else t.wr (Rg.xlinkLanes sd) Fd.xlinkLanesXs1For v

/-- Where the bell is carried when its own lane is lost: path 12, or path 13 when that is down (R18, R235). -/
def State.carryBell (s : State) : State :=
  s.forSides fun sd t =>
    let lost := t.xlink.lost.contains 8
    let p12 := t.flag (Rg.xlinkLanes sd) Fd.xlinkLanesPath12Up
    (t.setFlag (Rg.xlinkLanes sd) Fd.xlinkLanesBellOn12 (lost && p12)).setFlag (Rg.xlinkLanes sd) Fd.xlinkLanesBellOn13
      (lost && !p12 && t.flag (Rg.xlinkLanes sd) Fd.xlinkLanesPath13Up)

/-- A lane without a spare left: its path goes down, or the bell moves. -/
def State.loseLane (s : State) (code : Nat) : State :=
  let s1 := { s with xlink := { s.xlink with lost := s.xlink.lost ++ [code] } }
  let s2 := if code < 8 then s1.forSides fun sd t => t.setLink sd (if code < 4 then 11 else 12) false false false else s1
  s2.carryBell

/-- A failed lane at the tick boundary: a spare is mapped in its place (R18); the remapping goes to the Ledger (R323). -/
def State.remapLane (s : State) (code : Nat) : State :=
  match [0, 1].find? fun k => s.spareFor k == 15 && !s.xlink.badSpares.contains k with
  | some k => (s.setSpareFor k code).note evRemap (beBytes 8 s.now ++ beBytes 1 code ++ beBytes 1 k ++ zeros 6)
  | none => (s.loseLane code).note evRemap (beBytes 8 s.now ++ beBytes 1 code ++ beBytes 1 255 ++ zeros 6)

/-- One failure: a spare that stood for a lane leaves that lane without it. -/
def State.settleLane (s : State) (l : Lane) : State :=
  match l with
  | .spare n =>
    let f := s.spareFor n.val
    let s1 := { s with xlink := { s.xlink with badSpares := if s.xlink.badSpares.contains n.val then s.xlink.badSpares else s.xlink.badSpares ++ [n.val] } }
    if f = 15 then s1 else (s1.setSpareFor n.val 15).remapLane f
  | .path n =>
    match [0, 1].find? fun k => s.spareFor k == n.val with
    | some _ => s
    | none => if s.xlink.lost.contains n.val then s else s.remapLane n.val
  | .bell =>
    match [0, 1].find? fun k => s.spareFor k == 8 with
    | some _ => s
    | none => if s.xlink.lost.contains 8 then s else s.remapLane 8


/-- A path is back: flows whose class the other path still holds stay there (R269). -/
def State.returnFlows (s : State) (sd : SideId) (p : Nat) : State :=
  s.modSide sd fun x => { x with sw := { x.sw with stay := x.sw.stay.filter (fun e => e.1 != p) ++ x.sw.stays p } }

/-- A path comes back (R269): its lanes count as sound again and both sides see it up; flows of a class of which the other
path still holds cells stay there. -/
def State.restorePath (s : State) (upper : Bool) : State :=
  let p := if upper then 12 else 11
  let s1 := { s with xlink := { s.xlink with lost := s.xlink.lost.filter fun c => !(decide (c < 8) && (decide (4 ≤ c) == upper)) } }
  if s.xlink.unlocked then s
  else (s1.forSides fun sd t => (t.setLink sd p true false false).returnFlows sd p).carryBell

/-- The clocks of the sides lie too far apart (R247): both paths and the bell lane lose lock. -/
def State.unlockLink (s : State) : State :=
  (State.forSides { s with xlink := { s.xlink with unlocked := true, restoring := [] } } fun sd t =>
    (t.setLink sd 11 false false false).setLink sd 12 false false false).carryBell

/-- A compute path comes back at the tick boundary (R269). -/
def State.restoreCompute (s : State) (sd : SideId) (p : Nat) : State :=
  ((s.setLink sd p true false false).modSide sd fun x => { x with sw := { x.sw with down := x.sw.down.filter (· != p) } }).returnFlows sd p

/-! ### The ring attachment (R272) -/

/-- Ring frames cannot pass through the module at a side. -/
def State.ringCut (s : State) (sd : SideId) : Bool := s.hsrOn && (!(s.pathUp sd false || s.pathUp sd true) || !s.forwards sd.other)

/-- The ring opens or closes at a side. -/
def State.settleHsr (s : State) (sd : SideId) : State :=
  let was := s.flag (Rg.swStatus sd) Fd.swStatusHsrOpen
  if s.ringCut sd then
    if was then s else (s.setFlag (Rg.swStatus sd) Fd.swStatusHsrOpen true).sideReport sd evHsrOpen (zeros 16)
  else if was then s.setFlag (Rg.swStatus sd) Fd.swStatusHsrOpen false
  else s

/-- A lane fails: the tick boundary deals with it (R18). -/
def State.failLane (s : State) (l : Lane) : State :=
  { s with xlink := { s.xlink with failing := if s.xlink.failing.contains l then s.xlink.failing else s.xlink.failing ++ [l] } }

/-- The cross-link lane of a SerDes tile: XL0 to XL7, XB, XS0 and XS1 in this order. -/
def serdesLane (tile : Nat) : Option Lane :=
  if h : tile < 8 then some (.path ⟨tile, h⟩)
  else if tile = 8 then some .bell
  else if tile = 9 then some (.spare 0)
  else if tile = 10 then some (.spare 1)
  else none

/-- Lanes that have failed and paths that have recovered are dealt with at the tick boundary (R18, R269). -/
def State.settleLanes (s : State) : State :=
  let t := s.xlink.failing.foldl (fun (u : State) l => u.settleLane l) { s with xlink := { s.xlink with failing := [], restoring := [] } }
  (s.xlink.restoring.foldl (fun (u : State) p => u.restorePath p) t).forSides fun sd u =>
    let v := (u.side sd).sw.rising.foldl (fun (v : State) p => v.restoreCompute sd p) u
    (v.modSide sd fun x => { x with sw := { x.sw with rising := [] } }).settleHsr sd

/-! ### PRP supervision (R270) -/

/-- A supervision frame for a MAC goes to the PRP ports of a LAN, in the class of the port's default priority: those of the
other side through the cross-link. -/
def State.sendSupervision (s : State) (sd lan : SideId) (mac : Nat) : State :=
  let net := s.netTx sd
  let o : Output := .prpSupervision sd lan mac net.1
  let f := ownFrame o
  (upto 11).foldl (fun t p => match s.modActive.portRec lan p with
    | some r =>
      if prFlag r 0 && s.portLinked lan p then
        let cl := prClass r (u8 r 7 % 8)
        if lan = sd then t.sendOwn sd p cl o f else t.sendOther sd p cl o f
      else t
    | none => t) net.2

/-- Supervision frames leave every 2,000 ms, 9,600 ticks: the active side's on both LANs, the standby side's on its own. -/
def State.supervise (s : State) (sd : SideId) : State :=
  if (match (s.side sd).sw.supervised with | some t => decide (s.now < t + 9600 ∧ t ≤ s.now) | none => false) then s
  else
    let s1 := s.modSide sd fun x => { x with sw := { x.sw with supervised := some s.now } }
    let own := (Config.stationMac sd).toNat
    match (s.side sd).role with
    | .active => (bothSides.filter fun lan => s.prpOn lan).foldl (fun t lan => (t.sendSupervision sd lan s.pubMac).sendSupervision sd lan own) s1
    | .standby => if s.prpOn sd then s1.sendSupervision sd sd own else s1
    | _ => s

/-- Nodes not heard for 60 s are forgotten. -/
def State.expireNode (s : State) (sd : SideId) (mac : Nat) : State :=
  match Tbl.find (s.side sd).sw.nodes mac with
  | some t => if t + 60000000000 ≤ tickStart s.now then s.modSide sd fun x => { x with sw := { x.sw with nodes := Tbl.del x.sw.nodes mac } } else s
  | none => s

def State.expireNodes (s : State) (sd : SideId) : State := (Tbl.keys (s.side sd).sw.nodes).foldl (fun t m => t.expireNode sd m) s


end Sys2Proof.Machine
end

