-- ==== Sys2Proof/Machine/Frames.lean ====
section
/-! DEFINITION. Frames that the module builds: the release of replicated frames at T0 (R196, R198, R214, R238), PTP messages
(R281, R282, R286, R294) and segmented sends (R275). Ports count from 0 here, but for PTP ports. -/

namespace Sys2Proof.Machine

/-! ### Release at T0 (R196, R198) -/

/-- When the first replicated frame of a tick may be on the wire of a port, in ns. -/
def State.releaseAt (s : State) (sd : SideId) (p : Nat) : Nat :=
  match s.modActive.portRec sd p with
  | some r => tickStart s.now + releaseOffset (p + 1) (prSpeed r) (prFec r) / 1000
  | none => tickStart s.now

/-- A class-7 frame goes out on a port directly after what is on its wire, not before `earliest`. -/
def State.expressOut (s : State) (sd : SideId) (earliest : Nat) (f : EthFrame) (p : Nat) : State :=
  let start := max earliest (Tbl.getD (s.side sd).sw.busy p 0)
  let s1 := s.modSide sd fun x => { x with sw := { x.sw with busy := Tbl.put x.sw.busy p (start + s.lineTime sd p f.length) } }
  ((s1.cnt sd p 8 1).cnt sd p 9 f.length).mirrorFrame sd p 7 true false f (if p < 11 then s.txStamp sd (p + 1) start / 65536 else start)

/-- A replicated frame or telegram leaves the ports of a mask: on the ring's port with the HSR tag (R194). -/
def State.leavePorts (s : State) (sd : SideId) (o : Output) (f : EthFrame) (up : Nat) (earliest : Nat → Nat) : State :=
  let ring := if s.hsrOn && bit up 0 then 1 else 0
  let out (t : State) (mask : Nat) (r : Bool) : State := if mask = 0 then t else t.emit (o.leave sd mask r)
  ((upto 16).filter (bit up)).foldl (fun (t : State) p => t.expressOut sd (earliest p) f p) (out (out s ring true) (up - ring) false)

/-- A queued frame enters its switch by a compute path and leaves the ports whose link is up; on the rest it counts as
TOLL_DROP (R198). -/
def State.releaseFrame (s : State) (sd : SideId) (may : Bool) (q : QFrame) : State :=
  let up := if may then s.upPorts sd q.ports else 0
  let f := ownFrame q.out
  let s0 := s.enterBy sd (s.computePort sd f 7) 7 (up == 0) f (tickStart s.now)
  let s1 := s0.count (Rg.tollDrop sd) Fd.tollDropCount (popCount 16 q.ports - popCount 16 up)
  if up = 0 then s1 else s1.leavePorts sd q.out f up (s.releaseAt sd)

/-- Whether the other LAN's copy of a frame goes through the other switch: every telegram while that side does not publish
(R214), replicated frames when it is Out for a confined fault (R238). `serves` says that the other side publishes. -/
def State.secondCopy (s : State) (sd : SideId) (serves : Bool) (o : Output) : Bool :=
  s.forwards sd.other && !serves && (match o with
    | .telegram _ _ _ => true
    | _ => (s.side sd.other).role == .out && (s.side sd.other).duty.demote)

/-- A second copy crosses the cross-link and leaves the other side's ports whose link is up, unless it comes too late to
end within the window of a gated port (R198): those ports count it in TOLL_DROP. -/
def State.sendSecond (s : State) (sd : SideId) (q : QFrame) : State :=
  let o := sd.other
  let f := ownFrame q.out
  match s.xlinkPort sd f 7 with
  | none => s
  | some xp =>
    let s1 := s.expressOut sd (tickStart s.now) f xp
    let arrives := Tbl.getD (s1.side sd).sw.busy xp 0
    let s2 := s1.enterBy o xp 7 false f arrives
    let earliest (p : Nat) : Nat := max (s2.releaseAt o p) arrives
    let inTime (p : Nat) : Bool :=
      let start := max (earliest p) (Tbl.getD (s2.side o).sw.busy p 0)
      6 ≤ p || decide (start + s2.lineTime o p f.length - tickStart s.now ≤ openUntil (s2.gatesOf o p) 7 0 (tickLength s.now - 24))
    let up := listSum (((upto 16).filter fun p => bit (s2.upPorts o q.ports) p && inTime p).map fun p => 2 ^ p)
    let s3 := s2.count (Rg.tollDrop o) Fd.tollDropCount (popCount 16 q.ports - popCount 16 up)
    if up = 0 then s3 else s3.leavePorts o q.out f up earliest

/-- The toll gates open: the frames built in the last tick leave in their order (R195, R196). A side that may not publish
drops them all (R198). -/
def State.releaseFrames (s : State) (sd : SideId) (may otherServes : Bool) : State :=
  let q := (s.side sd).pubQueue
  let s1 := q.foldl (fun t f => t.releaseFrame sd may f) ((s.noteCells sd).modSide sd fun x => { x with pubQueue := [] })
  if may then q.foldl (fun t f => if s.secondCopy sd otherServes f.out then t.sendSecond sd f else t) s1 else s1

/-! ### PTP messages (R281, R282) -/

/-- The grandmaster that the module's Announce messages name (R281): the selected one, one step further, or the module. Under
C37.238 the TLVs received are forwarded (R280). -/
def State.grand (s : State) : PtpGrand :=
  let utc := s.rd Rg.timeUtc Fd.timeUtcOffset
  let l59 := s.flag Rg.timeUtc Fd.timeUtcLeap59
  let l61 := s.flag Rg.timeUtc Fd.timeUtcLeap61
  match s.master with
  | some (m, _) => ⟨m.gmIdentity.toNat, m.priority1.toNat, m.clockClass.toNat, m.accuracy.toNat, m.variance.toNat, m.priority2.toNat,
      m.steps.toNat + 1, utc, l59, l61, if u8 s.modActive.ptpRec 0 = 2 then m.tlvs else []⟩
  | none =>
    let r := s.ownRank
    ⟨s.clockIdentity, r.getD 0 0, r.getD 1 0, r.getD 2 0, r.getD 3 0, r.getD 4 0, 0, utc, l59, l61, []⟩

/-- The message of an interval: 0 Sync, 1 Announce, 2 the delay request or peer delay request of the profile. -/
def State.intervalMessage (s : State) (kind seq : Nat) (twoStep : Bool) : PtpOut :=
  match kind with
  | 0 => ⟨0, s.ptpDomain, seq, s.clockIdentity, twoStep, none, [], none⟩
  | 1 => ⟨11, s.ptpDomain, seq, s.clockIdentity, false, none, [], some s.grand⟩
  | _ => ⟨if s.profile.peer then 2 else 1, s.ptpDomain, seq, s.clockIdentity, twoStep, none, [], none⟩

/-- The module hands a port a PTP message, in class 6. -/
def State.queuePtp (s : State) (sd : SideId) (port : Nat) (m : PtpOut) : State :=
  let o : Output := .ptp sd port m
  s.sendOwn sd (port - 1) 6 o (ownFrame o)

/-- The protocol engine reads the timestamp queues of a side, which empties them, and sends what follows each two-step
message whose entry it finds (R286); it does so at each T0. -/
def State.engineReads (s : State) (sd : SideId) : State :=
  let t := s.modSide sd fun x => { x with time := { x.time with awaiting := [], txts := [] } }
  (s.side sd).time.awaiting.foldl (fun (u : State) q => if (s.txts sd q.1).contains q.2.1 then u.queuePtp sd (q.1 + 1) q.2.2 else u) t

/-- Whether a port sends the message of an interval: Sync and Announce as master, delay requests as slave, peer delay
requests in every role. -/
def State.ptpSends (s : State) (sd : SideId) (port kind : Nat) : Bool :=
  s.portLinked sd (port - 1) && (s.side sd).role != .out && s.engineHears sd && (match kind with
    | 2 => if s.profile.peer then s.timeRole sd port != 0 else s.portState sd port == 9
    | _ => s.portState sd port == 6)

/-- A port's message at its interval joins its queue. -/
def State.ptpSend (s : State) (sd : SideId) (port kind : Nat) : State :=
  match s.modActive.timePort sd port with
  | none => s
  | some r =>
    if !s.ptpSends sd port kind then s
    else
      let k := port * 4 + kind
      let seq := Tbl.getD (s.side sd).time.ptpSeq k 0
      (s.modSide sd fun x => { x with time := { x.time with ptpSeq := Tbl.put x.time.ptpSeq k ((seq + 1) % 65536) } }).queuePtp sd port
        (s.intervalMessage kind seq (u8 r 3 == 1))

/-- A PTP port answers a request (R294): a peer delay request in every role under a peer-to-peer profile, a delay request as
master under the end-to-end one. -/
def State.ptpAnswer (s : State) (sd : SideId) (port : Nat) (f : EthFrame) (stamp : Nat) : State :=
  match s.modActive.timePort sd port with
  | none => s
  | some r =>
    let asker := ptpAt f 20 10
    let m (msg : Nat) : PtpOut := ⟨msg, s.ptpDomain, ptpSeqOf f, s.clockIdentity, msg == 3 && u8 r 3 == 1, some stamp, asker, none⟩
    if (s.side sd).role = .out ∨ !s.engineHears sd ∨ u8 r 2 = 0 ∨ ptpDomainOf f ≠ s.ptpDomain then s
    else if ptpType f = 2 ∧ s.profile.peer then s.queuePtp sd port (m 3)
    else if ptpType f = 1 ∧ !s.profile.peer ∧ s.portState sd port = 6 then s.queuePtp sd port (m 9)
    else s

/-- A frame received in service: the switch takes it; a sound PTP request that reaches the protocol engine is answered. -/
def State.takeFrame (s : State) (sd : SideId) (p : Nat) (f : EthFrame) (ns : Nat) : State :=
  let t := s.receiveFrame sd p f ns
  match s.modActive.portRec sd p with
  | some r =>
    let taken := s.portLinked sd p && f.fcsOk && decide (64 ≤ f.length ∧ f.length ≤ prMax r) && !f.pause && f.etherType == 0x88F7#16
      && (match f.tci with | some _ => prFlag r 3 | none => prFlag r 2) && f.src.toNat != s.pubMac
    if taken then t.ptpAnswer sd (p + 1) f (s.rxStamp sd (p + 1) ns) else t
  | none => t

/-! ### Segmentation (R275) -/

/-- Bytes put into others at an offset. -/
def putAt (b : Bytes) (o : Nat) (x : Bytes) : Bytes := b.take o ++ x ++ b.drop (o + x.length)

/-- The one's complement sum of 16-bit words, the last byte padded with zero. -/
def onesSum : Bytes → Nat
  | [] => 0
  | [a] => a.toNat * 256
  | a :: b :: rest => let t := a.toNat * 256 + b.toNat + onesSum rest; t % 65536 + t / 65536

/-- The Internet checksum over bytes whose checksum field is zero. -/
def inetSum (b : Bytes) : Nat := 65535 - onesSum b

/-- The headers of a send: where IP starts, whether it is version 6, where TCP or UDP starts, which of them it is. -/
structure SendShape where
  ip : Nat
  six : Bool
  l4 : Nat
  tcp : Bool
  deriving DecidableEq, Repr

/-- What the headers are: none when they are not Ethernet, at most one tag, IPv4 or IPv6 without an extension header, TCP or
UDP, and nothing more. -/
def sendShape (b : BigSend) : Option SendShape :=
  let h := b.headers
  let l := ethEnd h
  let ty := u16 h (l - 2)
  let six := ty == 0x86DD
  let l4 := if six then l + 40 else l + 4 * (u8 h l % 16)
  let proto := if six then u8 h (l + 6) else u8 h (l + 9)
  let size := if proto = 6 then 4 * (u8 h (l4 + 12) / 16) else 8
  if (six && u8 h l / 16 == 6 || ty == 0x0800 && u8 h l / 16 == 4 && decide (5 ≤ u8 h l % 16)) && (proto == 6 || proto == 17)
      && h.length == l4 + size && decide (8 ≤ size) then some ⟨l, six, l4, proto == 6⟩ else none

/-- Whether the switch takes a send: its shape, if it does. -/
def State.takesSend (s : State) (sd : SideId) (p : Nat) (b : BigSend) : Option SendShape :=
  match s.modActive.portRec sd p with
  | some r =>
    if b.headers.length ≤ 256 ∧ b.payload.length ≤ 262144 ∧ 64 ≤ b.segSize
        ∧ b.headers.length + b.segSize + (if prFlag r 0 then 6 else 0) + 4 ≤ prMax r then sendShape b else none
  | none => none

/-- The flags of a TCP segment: FIN and PSH only on the last, CWR only on the first. -/
def segFlags (fl : Nat) (first last : Bool) : Nat :=
  fl - (if bit fl 0 && !last then 1 else 0) - (if bit fl 3 && !last then 8 else 0) - (if bit fl 7 && !first then 128 else 0)

/-- The headers of segment k, whose body starts at `off`, with the IP fields filled in. -/
def segIp (b : BigSend) (x : SendShape) (k : Nat) (body : Bytes) : Bytes :=
  let h := b.headers
  let n := h.length - x.ip + body.length
  if x.six then putAt h (x.ip + 4) (beBytes 2 (n - 40))
  else
    let h1 := putAt (putAt (putAt h (x.ip + 2) (beBytes 2 n)) (x.ip + 4) (beBytes 2 ((u16 h (x.ip + 4) + k) % 65536))) (x.ip + 10) (zeros 2)
    putAt h1 (x.ip + 10) (beBytes 2 (inetSum (sub h1 x.ip (x.l4 - x.ip))))

/-- The pseudo-header of the TCP and UDP checksums. -/
def pseudoHeader (h : Bytes) (x : SendShape) (n : Nat) : Bytes :=
  let proto := if x.tcp then 6 else 17
  if x.six then sub h (x.ip + 8) 32 ++ beBytes 4 n ++ beBytes 4 proto else sub h (x.ip + 12) 8 ++ beBytes 2 proto ++ beBytes 2 n

/-- A segment without trailer and FCS: every header filled in. -/
def segBytes (b : BigSend) (x : SendShape) (count k off : Nat) (body : Bytes) : Bytes :=
  let h := segIp b x k body
  let n := h.length - x.l4 + body.length
  let h1 := if x.tcp then
      putAt (putAt (putAt h (x.l4 + 4) (beBytes 4 ((u32 h (x.l4 + 4) + off) % 2 ^ 32))) (x.l4 + 13)
        (beBytes 1 (segFlags (u8 h (x.l4 + 13)) (k == 0) (k + 1 == count)))) (x.l4 + 16) (zeros 2)
    else putAt (putAt h (x.l4 + 4) (beBytes 2 n)) (x.l4 + 6) (zeros 2)
  let sum := inetSum (pseudoHeader h1 x n ++ h1.drop x.l4 ++ body)
  putAt h1 (x.l4 + (if x.tcp then 16 else 6)) (beBytes 2 (if sum = 0 && !x.tcp then 65535 else sum)) ++ body

/-- A frame padded to 60 bytes, with the redundancy control trailer of a LAN (R199). -/
def withRct (b : Bytes) (lan : SideId) (n : Nat) : Bytes :=
  let p := b ++ zeros (54 - b.length)
  p ++ beBytes 2 n ++ beBytes 2 ((10 + lan.code) * 4096 + (p.length - ethEnd b + 6) % 4096) ++ beBytes 2 0x88FB

/-- The class of a send, as PCP_MAP of its port gives it (R256). -/
def State.segClass (s : State) (sd : SideId) (p : Nat) (b : BigSend) : Nat := match s.modActive.portRec sd p with
  | some r => prClass r (if ethEnd b.headers = 18 then u8 b.headers 14 / 32 else u8 r 7 % 8)
  | none => 0

/-- One segment joins the queue of its port, as a PRP frame with its own trailer on a PRP port: the active side's also that
of the other LAN's port (R199). Class 6 is left to PTP and forwarded frames: a send takes at most class 5. -/
def State.sendSegment (s : State) (sd : SideId) (p : Nat) (bytes : Bytes) (cl : Nat) : State :=
  let prp := match s.modActive.portRec sd p with
    | some r => prFlag r 0
    | none => false
  if !prp then
    let o : Output := .frame sd (p + 1) (bytes ++ zeros (60 - bytes.length))
    s.sendOwn sd p cl o (ownFrame o)
  else
    let net := s.netTx sd
    let on (side : SideId) : Output := .frame side (p + 1) (withRct bytes side net.1.number)
    let s1 := net.2.sendOwn sd p cl (on sd) (ownFrame (on sd))
    if net.1.otherLan then s1.sendOther sd p cl (on sd.other) (ownFrame (on sd.other)) else s1

def State.sendSegments (s : State) (sd : SideId) (p : Nat) (b : BigSend) (x : SendShape) (count : Nat) : Nat → Nat → List Bytes → State
  | _, _, [] => s
  | k, off, body :: rest =>
    (s.sendSegment sd p (segBytes b x count k off body) (min 5 (s.segClass sd p b))).sendSegments sd p b x count (k + 1) (off + body.length) rest

/-- SEGMENT_SEND: a send that the switch does not take is refused to the management complex. While the other side is active a
side sends only replies (R199). -/
def State.segmentSend (s : State) (sd : SideId) (p : Nat) (b : BigSend) : State :=
  match s.takesSend sd p b with
  | none => s.emit (.sendRefused sd (p + 1))
  | some x =>
    if !s.portLinked sd p ∨ (s.side sd).role = .out ∨ ((s.side sd).role ≠ .active ∧ s.active.isSome ∧ !b.reply) then s
    else
      let l := pieces b.segSize b.payload
      (s.crossTo sd b.ns).sendSegments sd p b x l.length 0 0 l

end Sys2Proof.Machine
end

