-- ==== Sys2Proof/Machine/SwitchCmds.lean ====
section
/-! DEFINITION. The registers, commands and rows of the switch core (R252 to R279). -/

namespace Sys2Proof.Machine

/-! ### Registers -/

def State.swStatusWord (s : State) (sd : SideId) : Nat :=
  let w := s.regWord (Rg.swStatus sd)
  setBits (setBits w 15 15 (b2n (s.prpOn sd))) 14 14 (b2n s.hsrOn)

def State.gateStatusWord (s : State) (sd : SideId) (p off : Nat) : Nat :=
  let l := s.gatesOf sd p
  setBits (setBits (s.regWord (Rg.gateStatus sd p)) 31 26 (gateEntryAt l off)) 25 20 (l.length - 1)

/-! ### Commands (R279) -/

def cmdSwPortStatus (h : CmdHdr) (p : Bytes) (s : State) : CmdOut :=
  if u8 p 0 = 0 ∨ 16 < u8 p 0 ∨ 1 < u8 p 1 then refuse s .range
  else
    let n := u8 p 0 - 1
    let off := s.free.1.toNat % tickLength s.now
    let gated := decide (n < 6)
    let t0 := if gated then s.free.2 else s
    let body := beBytes 4 (s.regWord (Rg.portStatus h.side n)) ++ (if gated then beBytes 4 (s.gateStatusWord h.side n off) else [])
      ++ (upto 16).flatMap fun i => beBytes 8 (s.regWord (Rg.portCnt h.side (16 * n + i)))
    let t1 := if u8 p 1 = 0 then t0 else
      (upto 16).foldl (fun (t : State) i => t.putReg (Rg.portCnt h.side (16 * n + i)) 0)
        (if gated then t0.wr (Rg.gateStatus h.side n) Fd.gateStatusGateDeferred 0 else t0)
    done t1 body

def cmdSwSetPort (_ : CmdHdr) (p : Bytes) (s : State) : CmdOut :=
  if !portRange p then refuse s .range
  else if prFlag p 1 ∧ u8 p 1 ≠ 1 then refuse s .conflict
  else done (s.modifyModShadow fun c => c.putRec 0x09 (swPortIdx (u8 p 0) (u8 p 1)) p) []

def cmdSwSetFdb (_ : CmdHdr) (p : Bytes) (s : State) : CmdOut :=
  let first := u16 p 0
  let n := u16 p 2
  let e (k : Nat) : Bytes := sub p (4 + 16 * k) 16
  if n = 0 ∨ 60 < n ∨ 8192 < first + n ∨ !(upto n).all (fun k => fdbRange (e k)) then refuse s .range
  else done (s.modifyModShadow fun c => (upto n).foldl (fun d k => d.putRec 0x0A (swFdbIdx (u8 (e k) 10) (first + k)) (e k)) c) []

def cmdSwSetGates (_ : CmdHdr) (p : Bytes) (s : State) : CmdOut :=
  if !gatesRange p then refuse s .range
  else done (s.modifyModShadow fun c => c.putRec 0x0B (swPortIdx (u8 p 0) (u8 p 1)) p) []

def cmdSwSetQueue (_ : CmdHdr) (p : Bytes) (s : State) : CmdOut :=
  if !queueRange p then refuse s .range
  else done (s.modifyModShadow fun c => c.putRec 0x0C (swQueueIdx (u8 p 0) (u8 p 1) (u8 p 2)) p) []

def cmdSwReadConfig (h : CmdHdr) (p : Bytes) (s : State) : CmdOut :=
  let kind := u8 p 1
  let first := u16 p 3
  let n := u16 p 5
  if 1 < u8 p 0 ∨ 3 < kind ∨ 1 < u8 p 2 ∨ n = 0 ∨ 60 < n then refuse s .range
  else
    let c := if u8 p 0 = 0 then s.modActive else s.modShadow
    let ty := 0x09 + kind
    let size := match kind with | 1 => 8192 | 3 => 128 | _ => 16
    let recs := ((upto n).filter fun k => decide (first + k < size)).filterMap fun k => c.get ty (u8 p 2 * size + first + k)
    if recs.isEmpty then refuse s .state else done s ((fitItems h 0 recs).flatMap id)

/-- Whether a ring may take copies for a stall: enabled, owned by it, tagged with its PASID (R274, R191). -/
def State.ringServes (s : State) (sd : SideId) (stall r : Nat) : Bool :=
  s.flag (Rg.ringCfg sd r) Fd.ringCfgEnabled && s.rd (Rg.ringCfg sd r) Fd.ringCfgOwner == stall
    && s.pasidStall sd (s.regWord (Rg.ringPasid sd r) % 2 ^ 20) == some stall

def cmdSwMirrorSet (h : CmdHdr) (p : Bytes) (s : State) : CmdOut :=
  let m := u8 p 0
  let stall := u8 p 4
  let ring := u8 p 5
  if 3 < m ∨ u8 p 1 = 0 ∨ 3 < u8 p 1 ∨ 1 < u8 p 3 ∨ 63 < stall ∨ 63 < ring ∨ u32 p 8 < 2 ∨ 65536 < u32 p 8 then refuse s .range
  else if u8 p 3 = 1 && !s.ringServes h.side stall ring then refuse s .noRight
  else
    let r := Rg.mirrorState h.side m
    let s1 := s.putReg r (2 ^ 31 + at_ (u8 p 3) 30 + at_ stall 24 + at_ ring 18 + at_ (u8 p 1) 16)
    done (s1.modSide h.side fun x => { x with sw := { x.sw with
      mirrors := Tbl.put x.sw.mirrors m p, mirrorCount := x.sw.mirrorCount.filter fun e => e.1 / 16 != m } }) []

def State.clearMirror (s : State) (sd : SideId) (m : Nat) : State :=
  (s.putReg (Rg.mirrorState sd m) 0).modSide sd fun x => { x with sw := { x.sw with
    mirrors := Tbl.del x.sw.mirrors m, mirrorCount := x.sw.mirrorCount.filter fun e => e.1 / 16 != m } }

def cmdSwMirrorClear (h : CmdHdr) (p : Bytes) (s : State) : CmdOut :=
  if u8 p 0 = 255 then done ((upto 4).foldl (fun t m => t.clearMirror h.side m) s) []
  else if 3 < u8 p 0 then refuse s .range
  else done (s.clearMirror h.side (u8 p 0)) []

def cmdSwPortAdmin (h : CmdHdr) (p : Bytes) (s : State) : CmdOut :=
  if u8 p 0 = 0 ∨ 11 < u8 p 0 ∨ 1 < u8 p 1 then refuse s .range
  else
    let n := u8 p 0 - 1
    let s1 := s.setFlag (Rg.portStatus h.side n) Fd.portStatusAdminDown (u8 p 1 == 0)
    done (if u8 p 1 = 0 then s1.setLink h.side n false false false else s1) []

def cmdSwSetWake (h : CmdHdr) (p : Bytes) (s : State) : CmdOut :=
  done ((s.wr (Rg.wakeId h.side) Fd.wakeIdId (u48 p 0)).wr (Rg.wakeCode h.side) Fd.wakeCodeCode (u32 p 6)) []

def specSwPortStatus : CmdSpec := ⟨0x0800, always .observer, fun _ => false, lenIs 2, true, ownsNone, false, cmdSwPortStatus⟩
def specSwSetPort : CmdSpec := ⟨0x0801, always .engineer, fun _ => true, lenIs 16, true, ownsNone, true, cmdSwSetPort⟩
def specSwSetFdb : CmdSpec :=
  ⟨0x0802, always .engineer, fun _ => true, fun p => decide (4 ≤ p.length) && p.length == 4 + 16 * u16 p 2, true, ownsNone, true, cmdSwSetFdb⟩
def specSwSetGates : CmdSpec :=
  ⟨0x0803, always .engineer, fun _ => true, fun p => decide (4 ≤ p.length) && p.length == 4 + 4 * u8 p 2, true, ownsNone, true, cmdSwSetGates⟩
def specSwSetQueue : CmdSpec := ⟨0x0804, always .engineer, fun _ => true, lenIs 8, true, ownsNone, true, cmdSwSetQueue⟩
def specSwReadConfig : CmdSpec := ⟨0x0805, always .observer, fun _ => false, lenIs 7, true, ownsNone, false, cmdSwReadConfig⟩
def specSwMirrorSet : CmdSpec := ⟨0x0806, always .manager, fun _ => false, lenIs 12, true, ownsNone, true, cmdSwMirrorSet⟩
def specSwMirrorClear : CmdSpec := ⟨0x0807, always .manager, fun _ => false, lenIs 1, true, ownsNone, true, cmdSwMirrorClear⟩
def specSwPortAdmin : CmdSpec := ⟨0x0808, always .engineer, fun _ => false, lenIs 2, true, ownsNone, true, cmdSwPortAdmin⟩
def specSwSetWake : CmdSpec := ⟨0x0809, always .manager, fun _ => false, lenIs 10, true, ownsNone, true, cmdSwSetWake⟩

/-! ### Rows -/

def execSwPortStatus (h : CmdHdr) (p : Bytes) (s : State) : Host.Outcome State Fault Refusal := runCmd specSwPortStatus h p s
def execSwSetPort (h : CmdHdr) (p : Bytes) (s : State) : Host.Outcome State Fault Refusal := runCmd specSwSetPort h p s
def execSwSetFdb (h : CmdHdr) (p : Bytes) (s : State) : Host.Outcome State Fault Refusal := runCmd specSwSetFdb h p s
def execSwSetGates (h : CmdHdr) (p : Bytes) (s : State) : Host.Outcome State Fault Refusal := runCmd specSwSetGates h p s
def execSwSetQueue (h : CmdHdr) (p : Bytes) (s : State) : Host.Outcome State Fault Refusal := runCmd specSwSetQueue h p s
def execSwReadConfig (h : CmdHdr) (p : Bytes) (s : State) : Host.Outcome State Fault Refusal := runCmd specSwReadConfig h p s
def execSwMirrorSet (h : CmdHdr) (p : Bytes) (s : State) : Host.Outcome State Fault Refusal := runCmd specSwMirrorSet h p s
def execSwMirrorClear (h : CmdHdr) (p : Bytes) (s : State) : Host.Outcome State Fault Refusal := runCmd specSwMirrorClear h p s
def execSwPortAdmin (h : CmdHdr) (p : Bytes) (s : State) : Host.Outcome State Fault Refusal := runCmd specSwPortAdmin h p s
def execSwSetWake (h : CmdHdr) (p : Bytes) (s : State) : Host.Outcome State Fault Refusal := runCmd specSwSetWake h p s

def execPrpSupervision (sd : SideId) (s : State) : Host.Outcome State Fault Refusal := .next (s.supervise sd)
def execPrpNodeExpiry (sd : SideId) (mac : BitVec 48) (s : State) : Host.Outcome State Fault Refusal := .next (s.expireNode sd mac.toNat)

def execXlinkLaneFail (lane : Lane) (s : State) : Host.Outcome State Fault Refusal := .next (s.failLane lane)
/-- A recovered path comes up at the tick boundary (R269). -/
def execPathRestore (upper : Bool) (s : State) : Host.Outcome State Fault Refusal :=
  .next (s.awaitPath upper)

/-- The ring is open at the module, once ring frames can pass it no more (R272). -/
def execHsrRingOpen (sd : SideId) (s : State) : Host.Outcome State Fault Refusal := .next (if s.ringCut sd then s.settleHsr sd else s)

def execSegmentSend (sd : SideId) (port : Fin 16) (b : BigSend) (s : State) : Host.Outcome State Fault Refusal :=
  .next (s.segmentSend sd port.val b)

/-- A write of WAKE_ID stores it at once (R277). -/
def execWakeIdWrite (sd : SideId) (id : BitVec 48) (s : State) : Host.Outcome State Fault Refusal :=
  .next (s.wr (Rg.wakeId sd) Fd.wakeIdId id.toNat)
def execWakeCodeWrite (sd : SideId) (code : Word) (s : State) : Host.Outcome State Fault Refusal :=
  .next (s.wr (Rg.wakeCode sd) Fd.wakeCodeCode code.toNat)
def execPtpIntervalSend (sd : SideId) (port : Fin 11) (kind : Fin 3) (s : State) : Host.Outcome State Fault Refusal :=
  .next (s.ptpSend sd (port.val + 1) kind.val)

end Sys2Proof.Machine
end

