-- ==== Sys2Proof/Machine/Roles.lean ====
section
/-! DEFINITION. The roles of the sides and how a side gives up
control (R216 to R219), replay windows at a promotion (R402). -/

namespace Sys2Proof.Machine

/-! ### Roles -/

def rcSelf : Nat := 1
def rcDrill : Nat := 2
def rcHandover : Nat := 3
def rcSilent : Nat := 4
def rcSplit : Nat := 5
def rcHold : Nat := 6
def rcResynced : Nat := 7
def rcResyncFailed : Nat := 8
def rcTimeGuard : Nat := 9
def rcSideOut : Nat := 10

def State.duty (s : State) (sd : SideId) : DutySt := (s.side sd).duty
def State.modDuty (s : State) (sd : SideId) (f : DutySt → DutySt) : State := s.modSide sd fun x => { x with duty := f x.duty }
def State.modResync (s : State) (sd : SideId) (f : ResyncSt → ResyncSt) : State := s.modDuty sd fun d => { d with resync := f d.resync }

/-- LAST_CAUSE on both sides: the last role change of either. -/
def State.lastCause (s : State) (cause : Nat) : State := s.forSides fun sd t => t.wr (Rg.sideRoles sd) Fd.sideRolesLastCause cause

/-- A side works at all: it computes and publishes. -/
def State.computes (s : State) (sd : SideId) : Bool := (s.side sd).role == .active || (s.side sd).role == .standby

/-- The configuration store of a side that takes a role. -/
def State.storeFor (s : State) (sd : SideId) (r : Role) : State :=
  match r with
  | .active => s.adoptStore sd
  | .standby => s
  | _ => if s.computes sd then s.keepCopy sd else s

/-- A side's ROLE: a change raises MSI-X vector 66 of its endpoint (R380). A side that stops serving keeps the configuration
as it knows it; one that becomes Active brings its own (R427 to R429). -/
def State.putRole (s : State) (sd : SideId) (r : Role) : State :=
  let t := (s.storeFor sd r).modSide sd fun x => { x with role := r }
  if (s.side sd).role = r then t else t.raiseMsix sd 66

/-- A side takes a role. -/
def State.setRole (s : State) (sd : SideId) (r : Role) (cause : Nat) : State := (s.putRole sd r).lastCause cause

/-- The frames in the toll-gate queues are dropped (R198, R219). -/
def State.dropQueued (s : State) (sd : SideId) : State :=
  ((s.side sd).pubQueue.foldl (fun (t : State) f => t.count (Rg.tollDrop sd) Fd.tollDropCount (popCount 16 f.ports)) s).modSide sd
    fun x => { x with pubQueue := [] }

/-- What a side leaves behind when it stops serving: OUT_DATA, queued frames, CAN transmissions, the Till and the key
cache (R219, R453). -/
def State.stopSide (s : State) (sd : SideId) : State :=
  (((s.modSide sd fun x => { x with outData := none }).dropQueued sd).canDrop sd fun _ => true).zeroise sd

/-- The commands whose bell never comes are lost with a side (R225, R404): what it has not listed yet itself; the listed
ones that a side not active received are with the active side, which lists them all the same (R27). Outcomes and unlock
nonces are lost with the active side (R406, R360). -/
def State.loseCommands (s : State) (sd : SideId) (wasActive : Bool) : State :=
  let s1 := { s with waiting := s.waiting.filter fun w => w.hdr.side != sd || (w.listed && !wasActive) }
  if wasActive then { s1 with outcomes := [], nonces := [] } else s1

/-- The final status of a SIDE_JOIN (R248). -/
def State.answerJoin (s : State) (sd : SideId) (st : Status) : State :=
  match (s.duty sd).resync.hdr with
  | some h => ((s.noteOutcome h st s.now).crierFinal h.side h st []).modResync sd fun r => { r with hdr := none }
  | none => s

/-- A side demotes itself at once (R219): it claims Out and asserts DEMOTE. The last side of a leading module tells the
following one (R241). -/
def State.demote (s : State) (sd : SideId) (cause : Nat) : State :=
  if (s.side sd).role = .out then s
  else
    let was := (s.side sd).role == .active
    let s1 := (((s.answerJoin sd .state).setRole sd .out cause).tick1 (Rg.failoverCounts sd) Fd.failoverCountsDemotions).stopSide sd
    let s2 := s1.modDuty sd fun d => { d with demote := true, sealAt := none, promoteAt := none, leaveAt := none, resync := ResyncSt.idle }
    let s3 := (s2.wr (Rg.resyncStatus sd) Fd.resyncStatusPhase 0).endLeaseOf lkRestart sd.code
    let s4 := s3.loseCommands sd was
    if s4.pairMode = 1 && s4.pair.role == 1 && !s4.computes sd.other then s4.emit (.pairNotice sd) else s4

/-- A Standby or Joining side goes Out without a fault of its own. -/
def State.goOut (s : State) (sd : SideId) (cause : Nat) : State :=
  if (s.side sd).role = .out then s
  else
    let s1 := ((s.answerJoin sd .state).setRole sd .out cause).stopSide sd
    let s2 := s1.modDuty sd fun d => { d with sealAt := none, promoteAt := none, leaveAt := none, resync := ResyncSt.idle }
    ((s2.wr (Rg.resyncStatus sd) Fd.resyncStatusPhase 0).endLeaseOf lkRestart sd.code).loseCommands sd false

/-- The unit whose fault sends a side Out (R238). -/
def State.unitFailed (s : State) (sd : SideId) (unit : Nat) : State :=
  s.modSide sd fun x => { x with health := { x.health with failed := x.health.failed ++ [unit] } }

/-- A side fault (R9, R10, R218): the fault is logged and the side demotes. -/
def State.sideFault (s : State) (sd : SideId) (part : Nat) : State :=
  ((s.logFault sd part 0).unitFailed sd (partUnit part)).demote sd rcSelf

/-- A module fault (R9): both sides give up control; service passes to the partner module, if one is configured. -/
def State.moduleFault (s : State) (part : Nat) : State :=
  s.forSides fun sd t => (t.logFault sd part 0).demote sd rcSelf

/-! ### Replay windows (R402) -/

def evLockOut : Nat := 0x200F

/-- Raise one H: a rise past the largest number locks the principal out, which is recorded and reported once. -/
def State.raiseWindow (s : State) (sd : SideId) (n o : Nat) (p : Principal) : State :=
  let past := decide (4294967295 < p.high + n)
  let q := { p with high := min (p.high + n) 4294967295, map := 2 ^ 64 - 1 }
  let s1 := { s with principals := Tbl.put s.principals o q }
  if past && p.high != 4294967295 then
    (s1.sideEvent sd lcRefusedPrincipal 0 o (beBytes 4 o ++ beBytes 2 Status.replay.code ++ zeros 10)).crier sd evLockOut 1 0 0 (beBytes 4 o ++ zeros 12)
  else s1

/-- Raise every H, the whole map marked. -/
def State.raiseWindows (s : State) (sd : SideId) (n : Nat) : State :=
  s.principals.foldl (fun (t : State) e => t.raiseWindow sd n e.1 e.2) s

/-- ARGUMENT of a role-change notice: the roles of both sides (R41). -/
def State.roleArg (s : State) : Nat := s.sideA.role.code + s.sideB.role.code * 4

/-- A side becomes Active at T0 after a failure of the other (R221 to R223); its first bell carries the notices. -/
def State.promote (s : State) (sd : SideId) (cause : Nat) : State :=
  let s1 := (s.setRole sd .active cause).tick1 (Rg.failoverCounts sd) Fd.failoverCountsPromotions
  let s2 := (s1.modDuty sd fun d => { d with promoteAt := none, sealAt := none, resync := ResyncSt.idle }).raiseWindows sd 64
  let s3 := (s2.wr (Rg.resyncStatus sd) Fd.resyncStatusPhase 0).setFlag (Rg.bellStatus sd) Fd.bellStatusUnsealed false
  (s3.addNotice ⟨ntDemotion, 0, 0, s3.now, false⟩).addNotice ⟨ntRoleChange, 0, s3.roleArg, s3.now, false⟩

/-- Whether a side may promote (R224): its last computed tick is at most 3 ticks old, and it is Standby or left step only
through missing bells, or is in trial step (R436). -/
def State.mayPromote (s : State) (sd : SideId) : Bool :=
  ((s.side sd).role == .standby
    || ((s.side sd).role == .joining && ((s.duty sd).byLoss || (s.duty sd).resync.trial) && s.rd (Rg.resyncStatus sd) Fd.resyncStatusPhase == 0))
    && decide (s.now ≤ (s.duty sd).computed + 3)

/-- The standby side in step: adopts bells, is not unsealed. -/
def State.inStep (s : State) (sd : SideId) : Bool :=
  (s.side sd).role == .standby && !s.flag (Rg.bellStatus sd) Fd.bellStatusUnsealed

/-! ### The cross-link (R18, R235) -/

/-- The bell is carried on a spare lane or on a path. -/
def State.bellSpared (s : State) : Bool := s.xlink.lost.contains 8 || s.spareFor 0 == 8 || s.spareFor 1 == 8

/-! ### Registers -/

def State.sideSelfWord (s : State) (sd : SideId) : Nat :=
  let r := Rg.sideSelf sd
  at_ (b2n s.bellSpared) 11 + at_ (b2n (s.xlinkUp sd)) 10 + at_ (s.rd r Fd.sideSelfPeerSeen) 9 + at_ (s.rd r Fd.sideSelfArbSeen) 8
    + at_ (s.side sd).role.code 3 + at_ (b2n (s.white != sd)) 2 + sd.code

/-- The role of a side as another knows it. -/
def State.knownRole (s : State) (by_ of : SideId) : Role := if by_ = of then (s.side of).role else (s.side by_).peerRole

def State.sideRolesWord (s : State) (sd : SideId) : Nat :=
  let w := s.regWord (Rg.sideRoles sd)
  setBits (setBits (setBits w 6 6 (b2n (s.holdShown sd))) 3 2 (s.knownRole sd .B).code) 1 0 (s.knownRole sd .A).code

end Sys2Proof.Machine
end

