-- ==== Sys2Proof/Machine/Arbiter.lean ====
section
/-! DEFINITION. The Arbiter between the sides (R19 to R24, R220, R226 to R229, R236): what it sees of their lines, the
hand-over window, the application of output images. -/

namespace Sys2Proof.Machine

def evSkew : Nat := 0x100D
def evNoImage : Nat := 0x100E
def evSplit : Nat := 0x1012

def ArbSt.seen (a : ArbSt) : SideId → Role
  | .A => a.seenA
  | .B => a.seenB
def ArbSt.dem (a : ArbSt) : SideId → Bool
  | .A => a.demA
  | .B => a.demB
def ArbSt.silent (a : ArbSt) : SideId → Bool
  | .A => a.silentA
  | .B => a.silentB
def ArbSt.pulse (a : ArbSt) : SideId → Nat × Nat
  | .A => a.pulseA
  | .B => a.pulseB

def ArbSt.see (a : ArbSt) (sd : SideId) (r : Role) (dem : Bool) : ArbSt :=
  match sd with
  | .A => { a with seenA := r, demA := dem }
  | .B => { a with seenB := r, demB := dem }
def ArbSt.setSilent (a : ArbSt) (sd : SideId) (b : Bool) : ArbSt :=
  match sd with
  | .A => { a with silentA := b }
  | .B => { a with silentB := b }
def ArbSt.setPulse (a : ArbSt) (sd : SideId) (p : Nat × Nat) : ArbSt :=
  match sd with
  | .A => { a with pulseA := p }
  | .B => { a with pulseB := p }

def ArbSt.alive (a : ArbSt) : SideId → Bool × Nat
  | .A => a.aliveA
  | .B => a.aliveB
def ArbSt.setAlive (a : ArbSt) (sd : SideId) (p : Bool × Nat) : ArbSt :=
  match sd with
  | .A => { a with aliveA := p }
  | .B => { a with aliveB := p }

/-- A side claims Active to the Arbiter: neither demoting nor silent. -/
def ArbSt.claims (a : ArbSt) (sd : SideId) : Bool := a.seen sd == .active && !a.dem sd && !a.silent sd

/-- The side to follow (R228): of two that claim Active the White one. -/
def State.followNow (s : State) : Option SideId :=
  match s.arb.claims .A, s.arb.claims .B with
  | true, true => some s.white
  | true, false => some .A
  | false, true => some .B
  | false, false => none

/-- A hand-over window opens (R226). -/
def State.openWindow (s : State) : State :=
  let s1 := { s with arb := { s.arb with window := 2, before := s.arb.follow } }
  (s1.setFlag Rg.arbWindow Fd.arbWindowOpen true).tick1 Rg.arbWindow Fd.arbWindowWindows

/-- The events of R226, judged against what the Arbiter has just seen: the followed side no longer claims Active, or the
other side has begun to. With no side followed, the first to claim Active is followed at once. -/
def State.watchRoles (s : State) : State :=
  if s.arb.window ≠ 0 then s
  else match s.arb.follow with
    | none => { s with arb := { s.arb with follow := s.followNow, rival := false } }
    | some f =>
      let both := s.arb.claims f.other
      let s1 := { s with arb := { s.arb with rival := both } }
      if !s.arb.claims f || (both && !s.arb.rival) then s1.openWindow else s1

/-- The Arbiter sees a side's ROLE_CLAIM and DEMOTE and forwards a change to the other side (R220). -/
def State.arbSee (s : State) (sd : SideId) : State :=
  let r := (s.side sd).role
  let d := (s.duty sd).demote
  if s.arb.seen sd = r ∧ s.arb.dem sd = d then s
  else
    let s1 := { s with arb := s.arb.see sd r d }
    (s1.modSide sd.other fun x => { x with peerRole := r }).watchRoles

/-- A split in its outcome (R235) goes to the module Ledger and the Crier: through the active side, or with none through
`sd` while it is not Out. The module fault, after which no bell comes, is recorded at once. -/
def State.splitOutcome (s : State) (sd : SideId) (outcome : Nat) : State :=
  let body := beBytes 8 s.now ++ beBytes 1 sd.code ++ beBytes 1 outcome ++ zeros 6
  let by_ := s.active.getD (if (s.side sd).role = .out then sd.other else sd)
  (if outcome = 4 then s.moduleEvent evSplit 0 body else s.note evSplit body).crier by_ evSplit 0 0 0 body

/-- Neither line of a side has shown activity for 2 ticks, or one of them has not (R21). -/
def ArbSt.quiet (a : ArbSt) (sd : SideId) (now : Nat) : Bool := decide ((a.pulse sd).1 + 2 ≤ now) || decide ((a.alive sd).2 + 2 ≤ now)

/-- A side that works stops without a demotion (R235): a silent Standby or Joining side is treated as failed, and the
active one continues. What a silent active side brings about waits for its third missing bell (R223). -/
def State.peerSilent (s : State) (sd : SideId) : State :=
  let r := (s.side sd).role
  if (r = .standby ∨ r = .joining) ∧ (s.side sd.other).role = .active then
    ((s.goOut sd rcSilent).endLeaseOf lkDeepTest sd.code).splitOutcome sd 3
  else s

/-- ARB_SIDE_SILENT (R21): TICK_PULSE or ALIVE has shown no activity for 2 ticks. -/
def State.arbSilence (s : State) (sd : SideId) : State :=
  if !s.arb.silent sd && s.arb.quiet sd s.now then
    let s1 := { s with arb := s.arb.setSilent sd true }
    let s2 := (s1.setFlag (Rg.sideSelf sd.other) Fd.sideSelfPeerSeen false).wr Rg.arbTickSkew Fd.arbTickSkewSkew 0
    (s2.watchRoles).peerSilent sd
  else s

/-- The side whose pulse starts the Arbiter's tick (R20, R228): the followed one while it claims Active, then the other. -/
def State.aligned (s : State) : SideId :=
  match s.arb.follow with
  | some f => if s.arb.claims f then f else f.other
  | none => if s.arb.silentA || s.arb.demA then .B else .A

/-- The complete image of the tick before, from a side whose OUT_DATA is taken. -/
def State.imageFrom (s : State) (sd : SideId) : Option OutData :=
  match (s.side sd).outData with
  | some o => if o.tick + 1 = s.now then some o else none
  | none => none

/-- Whether OUT_DATA of a side is taken at this pulse (R216, R226, R228). -/
def State.takesFrom (s : State) (sd : SideId) : Bool :=
  let a := s.arb
  if a.window ≠ 0 then (a.seen sd == .active || a.seen sd == .standby) && !a.dem sd
  else a.follow == some sd && a.claims sd

/-- The hand-over rule of a channel (R227). -/
def State.handRule (s : State) (n : Nat) : Nat := bits (s.regWord Rg.arbHandover) (2 * n - 1) (2 * n - 2)

/-- Two complete images for a channel. The NEW image is that of the side not followed before the window; with none
followed before, the images act as under OR. -/
def State.combine (s : State) (n : Nat) (x y : Bool) : Bool :=
  match s.handRule n with
  | 0 => x || y
  | 1 => x && y
  | _ => match s.arb.before with
    | some .A => y
    | some .B => x
    | none => x || y

/-- The command of a channel in an image that holds it (R58). -/
def OutData.cmd (o : OutData) (n : Nat) : Option Bool := if bit o.heldCmds (n - 1) then none else some (bit o.cmds (n - 1))

/-- The permit of an instance in an image that holds it. -/
def OutData.permit (o : OutData) (i : Nat) : Option Bool := if o.heldPermits then none else some (bit o.permits i)

/-- Two images, or one, or none, as a rule combines them; none keeps what was. -/
def pick (rule : Bool → Bool → Bool) (a b : Option Bool) (was : Bool) : Bool := match a, b with
  | some x, some y => rule x y
  | some x, none => x
  | none, some y => y
  | none, none => was

/-- The Arbiter applies commands and processor permits (R24, R227), each from the images that hold it. -/
def State.applyImage (s : State) (a b : Option OutData) : State :=
  let s1 := (upto 32).foldl (fun (t : State) k =>
    let n := k + 1
    t.putCh n { t.ch n with cmd := pick (s.combine n) (a.bind (·.cmd n)) (b.bind (·.cmd n)) (t.ch n).cmd }) s
  let s2 := s1.instRecs.foldl (fun (t : State) e =>
    t.putInst e.1 { t.inst e.1 with proc := pick (· && ·) (a.bind (·.permit e.1)) (b.bind (·.permit e.1)) (t.inst e.1).proc }) s1
  ({ s2 with arb := { s2.arb with without := 0, noImage := false, applied := true } }).arbSettle

/-- Outputs are switched off after 48 ticks without an image (R229). -/
def State.imageLoss (s : State) : State :=
  (({ s with arb := { s.arb with noImage := true } }).setFlag Rg.arbWindow Fd.arbWindowNoImage true).arbSettle

/-- 48 ticks in a row, the one in progress among them, have brought no image (R229). -/
def State.noImageDue (s : State) : Bool := decide (48 ≤ s.arb.without + b2n (!s.arb.applied))

/-- The Arbiter counts the ticks that end without an image applied in them, pulses or none (R229): `n` of them, of which
the tick in progress is the first. -/
def State.countImage (s : State) (n : Nat) : State :=
  { s with arb := { s.arb with without := if s.arb.applied then n - 1 else s.arb.without + n, applied := false } }

/-- The images taken at a pulse. -/
def State.applyImages (s : State) : State :=
  let from_ (sd : SideId) : Option OutData := if s.takesFrom sd then s.imageFrom sd else none
  match from_ .A, from_ .B with
  | none, none =>
    let s1 := s.moduleEvent evNoImage 0 (beBytes 8 s.now ++ zeros 8)
    if s1.noImageDue ∧ !s1.arb.noImage then s1.imageLoss else s1
  | a, b => s.applyImage a b

/-- A pulse passes in the window; it closes at the second (R226, R228). -/
def State.passWindow (s : State) : State :=
  if s.arb.window = 0 then s
  else if s.arb.window = 1 then
    ({ s with arb := { s.arb with window := 0, before := none, follow := s.followNow, rival := s.arb.claims .A && s.arb.claims .B } }).setFlag Rg.arbWindow Fd.arbWindowOpen false
  else { s with arb := { s.arb with window := s.arb.window - 1 } }

/-- SKEW: side B's pulse less side A's of the same tick, in steps of 20 ns (R20). -/
def State.skewOf (s : State) : Option Int :=
  if s.arb.silentA || s.arb.silentB || s.arb.pulseA.1 != s.arb.pulseB.1 then none
  else some ((s.arb.pulseB.2 : Int) - (s.arb.pulseA.2 : Int))

def State.checkSkew (s : State) : State :=
  match s.skewOf with
  | none => s
  | some d =>
    let v := max (-32760) (min 32760 (d.tdiv 20 * 20))
    let s1 := s.wr Rg.arbTickSkew Fd.arbTickSkewSkew (ofSigned 16 v)
    if 1000 < d.natAbs then
      (s1.setFlag Rg.arbTickSkew Fd.arbTickSkewSkewFlag true).moduleEvent evSkew 0 (beBytes 8 s.now ++ beBytes 8 (ofSigned 64 d))
    else s1

/-- A side's self-diagnosis passes: no monitor of R218 has found a fault in it. -/
def State.selfOk (s : State) (sd : SideId) : Bool := !(s.duty sd).demote && (s.duty sd).leaveAt.isNone

/-- ALIVE toggles once per tick, with the side's TICK_PULSE, while its self-diagnosis passes (R19). -/
def State.toggleAlive (s : State) (sd : SideId) : State :=
  if s.selfOk sd then { s with arb := s.arb.setAlive sd (!(s.arb.alive sd).1, s.now) } else s

/-- ARB_TICK_PULSE: a side marks T0 of the work tick at `ns` of TAI. A side whose ALIVE still toggles is heard again. The
aligned side's pulse applies the output image of the tick before (R24) and freezes the input image (R22). -/
def State.arbPulse (s : State) (sd : SideId) (ns : Nat) : State :=
  let s0 := ((s.arbSee .A).arbSee .B).toggleAlive sd
  let s1 := { s0 with arb := s0.arb.setPulse sd (s.now, ns) }
  let heard := !s1.arb.quiet sd s.now
  let s2 := if heard then ({ s1 with arb := s1.arb.setSilent sd false }).setFlag (Rg.sideSelf sd.other) Fd.sideSelfPeerSeen true else s1
  let s3 := (s2.checkSkew).watchRoles
  if s3.aligned = sd then
    ((s3.applyImages.passWindow).freezeImage s.now).forSides fun d t =>
      if (t.duty d).inDown then t else t.setFlag (Rg.sideSelf d) Fd.sideSelfArbSeen true
  else s3

/-! ### Rows -/

def execRoleClaimChange (sd : SideId) (s : State) : Host.Outcome State Fault Refusal := .next (s.arbSee sd)
def execArbTickPulse (sd : SideId) (ns : Nat) (s : State) : Host.Outcome State Fault Refusal := .next (s.arbPulse sd ns)
def execArbSideSilent (sd : SideId) (s : State) : Host.Outcome State Fault Refusal := .next (s.arbSilence sd)

/-- The Arbiter counts ticks without an image on its own crystal, pulses or none (R229, R484); with no side in service there
are no ticks, and the row is all there is to count by. -/
def execNoImageTimeout (s : State) : Host.Outcome State Fault Refusal :=
  if s.arb.noImage then .next s
  else if s.noImageDue ∨ (s.sideA.role = .out ∧ s.sideB.role = .out) ∨ s.rd (Rg.powerStatus s.speaker) Fd.powerStatusState = 4 then
    .next s.imageLoss
  else .next s

end Sys2Proof.Machine
end

