-- ==== Sys2Proof/Machine/Sides.lean ====
section
/-! DEFINITION. Sides and pairs (R216 to R248): joining and resynchronisation, splits, the module pair and its
witnesses, the time guard, limits between the sides, and the side and pair commands. -/

namespace Sys2Proof.Machine

def evTimeGuard : Nat := 0x1010
def evTempDiff : Nat := 0x1011
def evEgressStop : Nat := 0x1013

/-! ### Resynchronisation (R231 to R233) -/

/-- A stream of the joiner: its own filed samples, the rest from the active side. -/
def copyStream (own act : StreamSt) : StreamSt := { act with filed := own.filed }

/-- Both copies of every scope with their VALID flags reach a joiner's configuration store (R427). -/
def State.copyConfig (s : State) (src dst : SideId) : State :=
  if (s.side src).lag.isSome then s.modSide dst fun x => { x with lag := (s.side src).lag }
  else s.writeNewRoot dst

/-- The replicated state reaches a joiner (R232), the configuration with it. Stall states, tallies, forces, sealed
subscriptions and the module Ledger are the module's already. -/
def State.copyState (s : State) (src dst : SideId) : State :=
  let a := s.side src
  let s1 := s.modSide dst fun x => { x with
    streams := a.streams.map fun e => (e.1, copyStream (Tbl.getD x.streams e.1 StreamSt.empty) e.2)
    chains := a.chains, groups := a.groups, condStore := a.condStore, tasks := a.tasks, cores := [], slices := a.slices
    presented := a.presented, goosePubs := a.goosePubs, gooseAcc := a.gooseAcc, svAsdus := a.svAsdus
    teleCount := a.teleCount, teleAcc := a.teleAcc, withheld := [], pubQueue := [] }
  let s2 := s1.wr (Rg.pubSeq dst) Fd.pubSeqNext (s1.rd (Rg.pubSeq src) Fd.pubSeqNext)
  let s3 := s2.subs.foldl (fun (t : State) e => t.putReg (Rg.streamState dst e.1) (t.regWord (Rg.streamState src e.1))) s2
  ((s3.copySlots src dst).modDuty dst fun d => { d with computed := (s3.duty src).computed, gap := (s3.duty src).gap }).copyConfig src dst

def State.phase (s : State) (sd : SideId) : Nat := s.rd (Rg.resyncStatus sd) Fd.resyncStatusPhase
def State.setPhase (s : State) (sd : SideId) (n : Nat) : State := s.wr (Rg.resyncStatus sd) Fd.resyncStatusPhase n

/-- BELL_VER of an image (R430). -/
def imageBellVer (h : Bytes) : Nat := u8 h 12

/-- Whether a side may start joining, lease and time guard apart (R231). -/
def State.joinReady (s : State) (sd : SideId) : Bool :=
  let mine := (s.side sd).image
  let theirs := (s.side sd.other).image
  let fits := if (s.duty sd).resync.trial then
      imageBellVer mine == imageBellVer theirs && decide (u8 mine 14 ≤ u8 theirs 13 ∧ u8 theirs 13 ≤ u8 mine 13)
    else mine == theirs
  s.pathUp sd false && s.pathUp sd true && s.bellCarried sd && (s.duty sd).tested && fits

/-- The time guard (R246): T0 within ±1 µs of the active side's. -/
def State.guardMet (s : State) (sd : SideId) : Bool := decide ((s.duty sd).t0Off.natAbs ≤ 1000)

/-- A side claims Joining and the bulk phase starts. -/
def State.startJoin (s : State) (sd : SideId) : State :=
  let s1 := s.putRole sd .joining
  let s2 := s1.modDuty sd fun d => { d with demote := false, splitOut := false, sealAt := none, promoteAt := none, resync :=
    { d.resync with start := s.now, final := none, retryAt := none, guarded := none, waits := false } }
  (s2.setPhase sd 1).wr (Rg.resyncStatus sd) Fd.resyncStatusPass 0

/-- Within 10 s of the first attempt (R246). -/
def guardOpen (first : Option Nat) (now : Nat) : Bool := match first with
  | some t => decide (now ≤ t + 48000)
  | none => false

/-- The first attempt that a refusal now counts from: an earlier one whose 10 s still run, else this one. -/
def guardFrom (first : Option Nat) (now : Nat) : Option Nat := if guardOpen first now then first else some now

/-- A join refused by the time guard is recorded (R246), with the origin of the packet that asked for it (R321), and
tried again. -/
def State.guardRefuses (s : State) (sd : SideId) (origin : Nat) : State :=
  let s1 := (s.lastCause rcTimeGuard).modResync sd fun r => { r with guarded := guardFrom r.guarded s.now, waits := false }
  let body := beBytes 1 sd.code ++ zeros 7 ++ beBytes 8 (ofSigned 64 (s.duty sd).t0Off)
  s1.ledger ⟨3, 0, 0, evTimeGuard, origin, body, false, true⟩

/-- A side that the update in progress has rebooted joins under the update's own lease (R431, R435, R438). -/
def State.updateJoins (s : State) (sd : SideId) : Bool :=
  (s.update.phase == 3 && s.update.first == sd) || (s.update.phase == 5 && s.update.first != sd)

/-- A rejoin that the module starts itself (R237, R233, R466, R476): within the lease of the side's restart or deep test
where it holds one, else it waits while another lease conflicts (R468). -/
def State.autoJoin (s : State) (sd : SideId) : State :=
  if (s.side sd).role ≠ .out ∨ !s.joinReady sd then s
  else if !s.guardMet sd then s.guardRefuses sd 0
  else if s.leases.any (fun l => (l.kind == lkRestart || l.kind == lkDeepTest) && l.side == sd.code) || s.updateJoins sd then s.startJoin sd
  else if s.leaseConflict lkRestart then s.modResync sd fun r => { r with waits := true }
  else (s.takeLease lkRestart sd.code 0).startJoin sd

/-- Rejoins that wait for a lease or whose retry is due (R233, R468). -/
def State.retryJoins (s : State) : State :=
  s.forSides fun sd t =>
    let r := (t.duty sd).resync
    if r.waits || (match r.retryAt with | some k => decide (k ≤ t.now) | none => false) then t.autoJoin sd else t

/-- A failed attempt (R233): Out again; the third ends the joining. -/
def State.attemptFail (s : State) (sd : SideId) : State :=
  let n := min 3 (s.rd (Rg.resyncStatus sd) Fd.resyncStatusAttempt + 1)
  let s1 := (((s.setRole sd .out rcResyncFailed).stopSide sd).setPhase sd 0).wr (Rg.resyncStatus sd) Fd.resyncStatusAttempt n
  if n = 3 then
    let s2 := ((s1.answerJoin sd .state).endLeaseOf lkRestart sd.code).endLeaseOf lkDeepTest sd.code
    s2.modResync sd fun _ => ResyncSt.idle
  else s1.modResync sd fun r => { r with final := none, retryAt := some (s.now + 4800) }

/-- Whether an attempt has run out of time (R233). -/
def State.attemptOver (s : State) (sd : SideId) : Bool :=
  let start := (s.duty sd).resync.start
  match s.phase sd with
  | 1 => decide (start + 2400 ≤ s.now)
  | 2 => decide (start + 4800 ≤ s.now) || decide (16 ≤ s.rd (Rg.resyncStatus sd) Fd.resyncStatusPass)
  | _ => false

/-- What a joining side does at the end of a tick (R232): a dirty pass, and the final copy once at most 192 KiB are left.
A migration in the
same Guard phase goes first, and the final copy waits for the next tick (R460). How much a tick leaves dirty is open. Without a link key no key material reaches the joiner and the attempt fails (R444). -/
def State.resyncTick (s : State) (sd : SideId) (migrates : Bool) : State :=
  if (s.side sd).role ≠ .joining then s
  else if s.attemptOver sd then s.attemptFail sd
  else if s.phase sd ≠ 2 then s
  else
    let f := s.free
    let kib := f.1.toNat % 2 ^ 23
    let s1 := (f.2.wr (Rg.resyncStatus sd) Fd.resyncStatusDirtyKib kib).tick1 (Rg.resyncStatus sd) Fd.resyncStatusPass
    if kib ≤ 192 ∧ !migrates then
      match s1.active with
      | some a =>
        if s1.xlink.link.isNone then s1.attemptFail sd
        else ((s1.copyState a sd).setPhase sd 3).modResync sd fun r => { r with final := some s.now }
      | none => s1
    else s1

/-- The joiner is in step: Standby from this bell on (R232). A side in trial step goes on claiming Joining (R436). -/
def State.joined (s : State) (sd : SideId) : State :=
  let r := (s.duty sd).resync
  let s1 := ((s.setPhase sd 0).tick1 (Rg.failoverCounts sd) Fd.failoverCountsResyncs).wr (Rg.resyncTime sd) Fd.resyncTimeLastTicks
    (min 65535 (s.now - r.start))
  let s2 := (s1.wr (Rg.resyncStatus sd) Fd.resyncStatusAttempt 0).setFlag (Rg.bellStatus sd) Fd.bellStatusUnsealed false
  if r.trial then s2.modResync sd fun x => { x with final := none }
  else
    let s3 := (s2.setRole sd .standby rcResynced).answerJoin sd .ok
    ((s3.endLeaseOf lkRestart sd.code).endLeaseOf lkDeepTest sd.code).modResync sd fun _ => ResyncSt.idle

/-- A standby side leaves step at once (R52): it claims Joining and resynchronises when bells are adopted again. `loss`:
through a missing bell alone (R224). -/
def State.leaveStep (s : State) (sd : SideId) (loss : Bool) : State :=
  let s1 := (s.putRole sd .joining).modSide sd fun x => { x with outData := none, duty := { x.duty with byLoss := loss } }
  ((s1.setFlag (Rg.bellStatus sd) Fd.bellStatusUnsealed true).setPhase sd 0).modResync sd fun r => { r with final := none, retryAt := none }

/-! ### Splits (R235) -/

/-- The cross-link has failed while the active side lives: the other side goes Out. -/
def State.splitSide (s : State) (sd : SideId) : State :=
  ((s.goOut sd rcSplit).modDuty sd fun d => { d with splitOut := true }).splitOutcome sd 1

/-! ### The pair (R239 to R245) -/

def State.moduleColour (s : State) : Nat := u8 s.modActive.pubRec 7
def State.pairWitnesses (s : State) : List Nat := (upto (u8 s.modActive.pubRec 8)).map fun i => u16 s.modActive.pubRec (17 + 2 * i)
def State.pairGm (s : State) : Nat := u64 s.modActive.pubRec 9

/-- Whether a witness is received (R243): a stream filed in this tick or the one before, an Announce within 2 s. -/
def State.witnessSeen (s : State) (e : Nat) : Bool :=
  if s.pair.egressStop then false
  else if bit e 15 then match s.pair.gmHeard with
    | some t => decide (s.now ≤ t + 9600)
    | none => false
  else bothSides.any fun sd => (s.stream sd (e % 1024)).filed.any fun f => decide (s.now ≤ tickOfNs f.arr + 1)

/-- Process port p (from 0) of a side transmits without fault. -/
def State.processPortOk (s : State) (sd : SideId) (p : Nat) : Bool :=
  s.portLinked sd p && !s.flag (Rg.portStatus sd p) Fd.portStatusRemoteFault

def State.egressOk (s : State) : Bool := bothSides.any fun sd => (upto 8).any fun p => s.processPortOk sd p

/-- Whether the module may publish as far as the pair goes. -/
def State.pairPublishes (s : State) : Bool := s.pairMode != 1 || (decide (s.pair.role ≤ 2) && !s.pair.egressStop)

/-- A module in mirror mode takes its bells from its partner (R38, R240). -/
def State.pairFollows (s : State) : Bool := s.pairMode == 1 && s.pair.role == 2

/-- Whether the module's Active side seals ticks: not while FOLLOW, ISOLATED or JOINING, but while the module is updated
out of its pair it computes from its own bells (R440). -/
def State.pairSeals (s : State) : Bool :=
  s.pairMode != 1 || decide (s.pair.role ≤ 1) || (s.update.pair && s.pair.role != 2 && decide (3 ≤ s.update.phase ∧ s.update.phase ≤ 5))

/-- A side's Smirnel path is up: switch port 16. -/
def State.smirnelUp (s : State) (sd : SideId) : Bool := s.portLinked sd 15

/-- The module's bells go over the Smirnel Link too (R38, R239): in mirror mode, LEAD or SOLO, with a path up. -/
def State.pairSends (s : State) : Bool :=
  s.pairMode == 1 && decide (s.pair.role ≤ 1) && bothSides.any s.smirnelUp

/-- A bell as a frame of port 16: class 7, its own check sequence within its length. -/
def bellFrame (b : Bytes) : EthFrame := ethOf b b.length

/-- A side puts a bell on its own Smirnel path. -/
def State.smirnelSend (s : State) (sd : SideId) (b : Bytes) : State :=
  if s.pairSends && s.smirnelUp sd then
    (((s.emit (.smirnelBell sd b)).cnt sd 15 8 1).cnt sd 15 9 b.length).mirrorFrame sd 15 7 true false (bellFrame b) (tickStart s.now)
  else s

def State.modPair (s : State) (f : PairSt → PairSt) : State := { s with pair := f s.pair }
def State.modJoin (s : State) (f : PairJoin → PairJoin) : State := s.modPair fun p => { p with join := f p.join }
def State.setPairRole (s : State) (r : Nat) : State := s.modPair fun p => { p with role := r }

/-- The side that must seal this tick itself seals it as in R221 and is Active from the next T0. -/
def State.sealNow (s : State) (sd : SideId) (w : Nat) : State := s.modDuty sd fun d => { d with sealAt := some w }

/-- The module takes up service alone (R244): its Active side, or its White side, seals this tick itself. -/
def State.pairPromote (s : State) : State :=
  let s1 := s.modPair fun p => { p with role := 0, low := 0, seen := 0, drifted := false }
  match s1.active with
  | some a => s1.sealNow a s1.now
  | none => if (s1.side s1.white).role = .out then s1 else s1.sealNow s1.white s1.now

/-! ### Joining a leading module (R231 to R233, R240, R246) -/

/-- The attempt fails (R233): ISOLATED again, a retry 4,800 ticks later, three times. -/
def State.pairJoinFail (s : State) : State :=
  let n := min 3 (s.pair.join.attempt + 1)
  let s1 := if n = 3 then s.endLeaseOf lkRestart 2 else s
  (s1.setPairRole 3).modJoin fun j => { j with phase := 0, final := none, attempt := n, retryAt := if n = 3 then none else some (s.now + 4800) }

/-- Whether the module may start joining, time guard apart (R231): the self-test of its Active side has passed, the
partner's bells carry its BELL_VER and BUILD_ID, its lease is granted. -/
def State.pairReady (s : State) : Bool :=
  (match s.active with | some a => (s.duty a).tested | none => false) && s.pair.join.fits
    && (s.leases.any (fun l => l.kind == lkRestart && l.side == 2) || !s.leaseConflict lkRestart)

/-- The module claims JOINING and the bulk phase starts, unless it is not ready or the time guard holds it back: it stays
ISOLATED until the next bell finds it so. -/
def State.pairJoin (s : State) : State :=
  let j := s.pair.join
  if !s.pairReady then s.setPairRole 3
  else if j.t0Off.natAbs ≤ 1000 then
    let t := if s.leases.any (fun l => l.kind == lkRestart && l.side == 2) then s else s.takeLease lkRestart 2 0
    (t.setPairRole 4).modJoin fun x => { x with phase := 1, start := s.now, pass := 0, final := none, retryAt := none, guarded := none }
  else
    let s1 := ((s.setPairRole 3).modJoin fun x => { x with
      guarded := guardFrom x.guarded s.now, t0Off := if 1000000 < x.t0Off.natAbs then 0 else x.t0Off }).lastCause rcTimeGuard
    if guardOpen j.guarded s.now then s1
    else s1.moduleReport evTimeGuard 0 (beBytes 1 2 ++ zeros 7 ++ beBytes 8 (ofSigned 64 j.t0Off))

/-- A bell of the partner arrives while the module does not follow (R244, R247): the Black module becomes ISOLATED if it
is not already and joins the White one; so does a module that its drift has isolated, and one updated out of the pair. -/
def State.pairReturns (s : State) (off : Int) : State :=
  let s1 := s.modJoin fun j => { j with t0Off := off }
  let j := s1.pair.join
  let waits := match j.retryAt with | some k => decide (s.now < k) | none => decide (j.attempt = 3) || guardOpen j.guarded s.now
  if s.pair.role = 4 then (if j.phase = 0 && !s.update.pair then s1.pairJoin else s1)
  else if s.pair.role = 2 ∨ s.pair.role = 1 then s1
  else if s.moduleColour = 1 ∨ s.pair.drifted then (if waits then s1.setPairRole 3 else s1.pairJoin)
  else s1

/-- A JOINING module at the end of a tick (R232, R233): dirty passes, the final copy once at most 192 KiB are left. -/
def State.pairJoinTick (s : State) : State :=
  let j := s.pair.join
  if s.pair.role ≠ 4 ∨ j.phase = 0 ∨ j.phase = 3 then s
  else if j.phase = 1 then (if j.start + 2400 ≤ s.now then s.pairJoinFail else s)
  else if j.start + 4800 ≤ s.now ∨ 16 ≤ j.pass then s.pairJoinFail
  else
    let f := s.free
    let kib := f.1.toNat % 2 ^ 23
    f.2.modJoin fun x => if kib ≤ 192 then { x with pass := x.pass + 1, phase := 3, final := some s.now } else { x with pass := x.pass + 1 }

/-- The evaluation of R244 at T0. -/
def State.pairEval (s : State) : State :=
  if s.pairMode ≠ 1 then { s with partnerSeen := false }
  else
    let ws := s.pairWitnesses
    let got := ws.map s.witnessSeen
    let r := (got.filter id).length
    let w := ws.length
    let mask := listSum ((List.zip (upto 15) got).map fun e => if e.2 then 2 ^ e.1 else 0)
    let p := s.pair
    let p1 : PairSt := { p with
      quiet := if s.partnerSeen then 0 else min 255 (p.quiet + 1)
      seen := if s.partnerSeen then p.seen + 1 else 0
      low := if 2 * r < w then p.low + 1 else 0
      portsBad := if s.egressOk then 0 else p.portsBad + 1
      egressStop := p.egressStop && !s.egressOk }
    let s1 := ({ s with pair := p1, partnerSeen := false }).forSides fun sd t =>
      (t.wr (Rg.witnessSeen sd) Fd.witnessSeenSeen mask).wr (Rg.pairStatus sd) Fd.pairStatusWSeen r
    let black := s.moduleColour == 1
    if p.role = 3 ∧ 8 ≤ p1.quiet ∧ (if black then w < 2 * r else w ≤ 2 * r) then s1.pairPromote
    else if p.role = 0 ∧ (8 ≤ p1.low ∨ (black ∧ 2 ≤ p1.seen)) then { s1 with pair := { p1 with role := 3, low := 0, seen := 0 } }
    else s1

/-- A pair hand-over takes effect (R248). -/
def State.pairHandover (s : State) : State :=
  match s.pair.handoverAt with
  | some t =>
    if t ≤ s.now then (s.modPair fun p => { p with handoverAt := none, role := if p.role = 1 then 2 else 1 }).endLeaseOf lkHandover 2
    else s
  | none => s

/-- The module enters service in a mirrored pair (R240): with a Smirnel path up the White module leads and the Black
follows, or joins where the White one's bells have been coming already; without one it is ISOLATED until its witnesses
speak (R244). -/
def State.pairStart (s : State) : State :=
  if s.pairMode ≠ 1 then s.setPairRole 0
  else if !bothSides.any s.smirnelUp then s.setPairRole 3
  else if s.moduleColour = 0 then s.setPairRole 1
  else if s.pair.bellTick ≠ 0 ∧ s.now ≤ s.pair.bellTick + 3 then (s.setPairRole 3).pairJoin
  else s.setPairRole 2

/-! ### Registers -/

def State.sideCfgWord (s : State) : Nat :=
  setBits (setBits (s.regWord Rg.sideCfg) 5 4 (s.pairMode % 4)) 3 3 (s.moduleColour % 2)

def State.pairStatusWord (s : State) (sd : SideId) : Nat :=
  at_ s.pairWitnesses.length 28 + at_ (s.rd (Rg.pairStatus sd) Fd.pairStatusWSeen) 24 + at_ s.pair.quiet 16
    + at_ (b2n (s.portLinked .A 15)) 7 + at_ (b2n (s.portLinked .B 15)) 6 + at_ (b2n s.egressOk) 5 + s.pair.role

def State.witnessWord (s : State) (i : Nat) : Nat := match s.pairWitnesses[i]? with
  | some e => 2 ^ 31 + at_ (e / 2 ^ 15) 30 + e % 1024
  | none => 0

def State.arbWindowWord (s : State) : Nat :=
  setBits (setBits (s.regWord Rg.arbWindow) 17 17 (b2n (s.holdShown .B))) 16 16 (b2n (s.holdShown .A))

/-! ### Commands (R248) -/

/-- REGION_STATUS: SLAVE_ERR is live; it is 0 on the active side. -/
def State.regionStatusWord (s : State) (sd : SideId) : Nat :=
  setBits (s.regWord (Rg.regionStatus sd)) 7 0 (if (s.side sd).role = .active then 0 else min 255 (s.duty sd).t0Off.natAbs)

/-- REGION_PPM: this side's reference less the other's, 0 while the cross-link is down. -/
def State.regionPpmWord (s : State) (sd : SideId) : Nat :=
  let d := Config.refDiff s.now
  if s.xlinkUp sd then ofSigned 16 (max (-32768) (min 32767 (if sd = .A then d else -d))) else 0

/-- The five registers of SIDE_STATUS. -/
def State.sideStatusOf (s : State) (sd : SideId) : Bytes :=
  beBytes 4 (s.sideSelfWord sd) ++ beBytes 4 (s.sideRolesWord sd) ++ beBytes 4 (s.regWord (Rg.failoverCounts sd))
    ++ beBytes 4 (s.regWord (Rg.resyncStatus sd)) ++ beBytes 4 (s.regionStatusWord sd)

/-- A reply of both sides: the other side's half is zeros with STATE while it is Out. -/
def State.bothHalves (s : State) (h : CmdHdr) (n : Nat) (f : SideId → Bytes) : CmdOut :=
  let out := (s.side h.side.other).role == .out
  let half (sd : SideId) : Bytes := if out && sd != h.side then zeros n else f sd
  ⟨s, if out then .state else .ok, half .A ++ half .B⟩

def cmdSideStatus (h : CmdHdr) (_ : Bytes) (s : State) : CmdOut := s.bothHalves h 20 s.sideStatusOf

def cmdSideHandover (h : CmdHdr) (_ : Bytes) (s : State) : CmdOut :=
  match s.active with
  | none => refuse s .state
  | some a =>
    if !s.inStep a.other ∨ s.handoverAt.isSome then refuse s .state
    else if s.drill.isSome then refuse s .busyTest
    else if s.leaseConflict lkHandover then refuse s .conflict
    else
      let arg := if a = .A then 2 + 3 * 4 else 3 + 2 * 4
      done ((({ s with handoverAt := some (s.now + 1) } : State).takeLease lkHandover 2 h.origin.toNat).addNotice
        ⟨ntRoleChange, 0, arg, s.now + 1, false⟩) []

def cmdSideJoin (h : CmdHdr) (p : Bytes) (s : State) : CmdOut :=
  if 1 < u8 p 0 then refuse s .range
  else
    let sd := sideArg p 0
    if (s.side sd).role ≠ .out ∨ !s.joinReady sd then refuse s .state
    else if !s.guardMet sd then refuse ((s.guardRefuses sd h.origin.toNat).modResync sd fun r => { r with hdr := some h }) .state
    else if s.leaseConflict lkRestart then refuse s .conflict
    else
      let s1 := (s.takeLease lkRestart sd.code h.origin.toNat).modResync sd fun r => { r with hdr := some h }
      ⟨(s1.wr (Rg.resyncStatus sd) Fd.resyncStatusAttempt 0).startJoin sd, .acceptedPending, []⟩

def cmdSideOut (_ : CmdHdr) (p : Bytes) (s : State) : CmdOut :=
  if 1 < u8 p 0 then refuse s .range
  else
    let sd := sideArg p 0
    let own := s.leases.any fun l => l.kind == lkRestart && l.side == sd.code
    if (s.side sd).role = .active ∨ (s.side sd).role = .out then refuse s .state
    else if !own && s.leaseConflict lkRestart then refuse s .conflict
    else done (s.goOut sd rcSideOut) []

def cmdSideSetColour (_ : CmdHdr) (p : Bytes) (s : State) : CmdOut :=
  if 1 < u8 p 0 then refuse s .range else done (s.wr Rg.sideCfg Fd.sideCfgColourNext (u8 p 0)) []

def pairEntries (p : Bytes) : List Nat := (upto (u8 p 2)).map fun i => u16 p (11 + 2 * i)

def cmdPairSet (_ : CmdHdr) (p : Bytes) (s : State) : CmdOut :=
  let n := u8 p 2
  if 2 < u8 p 0 ∨ 1 < u8 p 1 ∨ 15 < n ∨ (1 ≤ n ∧ n ≤ 2) ∨ (pairEntries p).any (fun e => bits e 14 10 != 0) then refuse s .range
  else if (pairEntries p).any fun e => !bit e 15 && (s.modShadow.get 0x04 (e % 1024)).isNone then refuse s .conflict
  else done (s.modifyModShadow fun c => c.putRec 0x12 0 (c.pubRec.take 6 ++ p)) []

def cmdPairStatus (h : CmdHdr) (_ : Bytes) (s : State) : CmdOut :=
  s.bothHalves h 8 fun sd => beBytes 4 (s.pairStatusWord sd) ++ beBytes 4 (s.regWord (Rg.witnessSeen sd))

/-- Both modules of the pair are in step as far as this one can tell: it leads or follows, and its Active side has missed
no bell. -/
def State.pairInStep (s : State) : Bool :=
  s.pairMode == 1 && (s.pair.role == 1 || s.pair.role == 2) && (match s.active with
    | some a => !s.flag (Rg.bellStatus a) Fd.bellStatusUnsealed
    | none => false)

def cmdPairHandover (h : CmdHdr) (_ : Bytes) (s : State) : CmdOut :=
  if !s.pairInStep then refuse s .state
  else if s.leaseConflict lkHandover then refuse s .conflict
  else done (((s.modPair fun p => { p with handoverAt := some (s.now + 1) }).takeLease lkHandover 2 h.origin.toNat).addNotice
    ⟨ntRoleChange, 0, s.roleArg, s.now + 1, false⟩) []

/-- A rule of 0b11 is refused; so is a change to a channel of a safety function. -/
def cmdArbSetHandover (_ : CmdHdr) (p : Bytes) (s : State) : CmdOut :=
  let v := u64 p 0
  let rule (w n : Nat) : Nat := bits w (2 * n + 1) (2 * n)
  if (upto 32).any fun n => rule v n == 3 then refuse s .range
  else if (upto 32).any fun n => s.isSafeChannel (n + 1) && rule v n != rule (s.regWord Rg.arbHandover) n then refuse s .safetyLocked
  else done (s.putReg Rg.arbHandover v) []

def specSideStatus : CmdSpec := ⟨0x0700, always .observer, fun _ => false, lenIs 0, true, ownsNone, false, cmdSideStatus⟩
def specSideHandover : CmdSpec := ⟨0x0701, always .manager, fun _ => true, lenIs 0, true, ownsNone, true, cmdSideHandover⟩
def specSideJoin : CmdSpec := ⟨0x0702, always .manager, fun _ => false, lenIs 1, true, ownsNone, true, cmdSideJoin⟩
def specSideOut : CmdSpec := ⟨0x0703, always .manager, fun _ => false, lenIs 1, true, ownsNone, true, cmdSideOut⟩
def specSideSetColour : CmdSpec := ⟨0x0704, always .manager, fun _ => true, lenIs 1, true, ownsNone, true, cmdSideSetColour⟩
def specPairSet : CmdSpec :=
  ⟨0x0705, always .manager, fun _ => true, fun p => decide (11 ≤ p.length) && p.length == 11 + 2 * u8 p 2, true, ownsNone, true, cmdPairSet⟩
def specPairStatus : CmdSpec := ⟨0x0706, always .observer, fun _ => false, lenIs 0, true, ownsNone, false, cmdPairStatus⟩
def specPairHandover : CmdSpec := ⟨0x0707, always .manager, fun _ => false, lenIs 0, true, ownsNone, true, cmdPairHandover⟩
def specArbSetHandover : CmdSpec := ⟨0x0708, always .engineer, fun _ => true, lenIs 8, true, ownsNone, true, cmdArbSetHandover⟩

def execSideStatus (h : CmdHdr) (p : Bytes) (s : State) : Host.Outcome State Fault Refusal := runCmd specSideStatus h p s
def execSideHandover (h : CmdHdr) (p : Bytes) (s : State) : Host.Outcome State Fault Refusal := runCmd specSideHandover h p s
def execSideJoin (h : CmdHdr) (p : Bytes) (s : State) : Host.Outcome State Fault Refusal := runCmd specSideJoin h p s
def execSideOut (h : CmdHdr) (p : Bytes) (s : State) : Host.Outcome State Fault Refusal := runCmd specSideOut h p s
def execSideSetColour (h : CmdHdr) (p : Bytes) (s : State) : Host.Outcome State Fault Refusal := runCmd specSideSetColour h p s
def execPairSet (h : CmdHdr) (p : Bytes) (s : State) : Host.Outcome State Fault Refusal := runCmd specPairSet h p s
def execPairStatus (h : CmdHdr) (p : Bytes) (s : State) : Host.Outcome State Fault Refusal := runCmd specPairStatus h p s
def execPairHandover (h : CmdHdr) (p : Bytes) (s : State) : Host.Outcome State Fault Refusal := runCmd specPairHandover h p s
def execArbSetHandover (h : CmdHdr) (p : Bytes) (s : State) : Host.Outcome State Fault Refusal := runCmd specArbSetHandover h p s

/-! ### Monitors (R218) -/

/-- A limit of R247 was exceeded. -/
def State.warn (s : State) (sd : SideId) : State := s.setFlag (Rg.regionStatus sd) Fd.regionStatusWarn true

/-- RAIL_DEV: the worst of a side's rails as they stand, in 0.1 %. -/
def State.worstRail (s : State) (sd : SideId) : Nat :=
  min 255 ((upto 8).foldl (fun m i => max m ((toSigned 16 (s.regWord (Rg.rail sd i) % 65536)).natAbs / 10)) 0)

/-- Outside ±3 % for 2 µs: a side fault. DEV is in 0.01 %. -/
def execRailFault (sd : SideId) (rail : Fin 8) (milliVolts dev : BitVec 16) (s : State) : Host.Outcome State Fault Refusal :=
  let s1 := s.putReg (Rg.rail sd rail.val) (milliVolts.toNat * 65536 + dev.toNat)
  let s2 := s1.wr (Rg.regionStatus sd) Fd.regionStatusRailDev (s1.worstRail sd)
  .next (if 300 < dev.toInt.natAbs then (s2.warn sd).sideFault sd (unitAddr 6 sd 0x1E) else s2)

/-- OCXO output lost or PLL unlocked: the reference is beyond its limit as well. -/
def execClockFault (sd : SideId) (s : State) : Host.Outcome State Fault Refusal :=
  .next ((s.warn sd).sideFault sd (unitAddr 6 sd 0x1C))

/-- Above 115 °C; the temperature is in 0.1 °C. -/
def execDieOvertemp (sd : SideId) (temp : BitVec 16) (s : State) : Host.Outcome State Fault Refusal :=
  let s1 := s.wr (Rg.powerTemp sd) Fd.powerTempDie temp.toNat
  .next (if 1150 < temp.toInt then s1.sideFault sd (unitAddr 5 sd 0x1F) else s1)

/-- IN_DATA has been down for 2 ticks: the side demotes at the next T0. When neither side hears the Arbiter any more, that
is the module fault of R235. -/
def execArbLinkLoss (sd : SideId) (s : State) : Host.Outcome State Fault Refusal :=
  let other := s.flag (Rg.sideSelf sd.other) Fd.sideSelfArbSeen
  let s1 := (((s.setFlag (Rg.sideSelf sd) Fd.sideSelfArbSeen false).unitFailed sd 0x1F).modDuty sd fun d => { d with
    leaveAt := some (s.now + 1, rcSelf), inDown := true })
  .next (if s.flag (Rg.sideSelf sd) Fd.sideSelfArbSeen && !other && (s.side sd).role != .out then s1.splitOutcome sd 4 else s1)

/-! ### Rows of joining, splits and the pair -/

/-- The bulk copy is complete: of a side, or over the Smirnel Link of a JOINING module; at the module it joins, the copy
makes a SOLO module LEAD again. -/
def execResyncBulkDone (sd : SideId) (s : State) : Host.Outcome State Fault Refusal :=
  if (s.side sd).role = .joining ∧ s.phase sd = 1 ∧ s.now < (s.duty sd).resync.start + 2400 then .next (s.setPhase sd 2)
  else if s.pairMode = 1 ∧ s.pair.role = 4 ∧ s.pair.join.phase = 1 ∧ s.now < s.pair.join.start + 2400 then
    .next (s.modJoin fun j => { j with phase := 2 })
  else if s.pairMode = 1 ∧ s.pair.role = 0 ∧ bothSides.any s.smirnelUp then .next (s.setPairRole 1)
  else .next s

def execResyncAttemptFail (sd : SideId) (s : State) : Host.Outcome State Fault Refusal :=
  .next (if (s.side sd).role = .joining ∧ s.attemptOver sd then s.attemptFail sd else s)

def execResyncRetry (sd : SideId) (s : State) : Host.Outcome State Fault Refusal :=
  .next (match (s.duty sd).resync.retryAt with
    | some k => if k ≤ s.now then s.autoJoin sd else s
    | none => s)

/-- The reference clocks of the sides differ by more than 300 ppm, in tenths of a ppm (R247). -/
def State.refBeyond (s : State) : Bool := decide (3000 < (Config.refDiff s.now).natAbs)

/-- The cross-link loses lock (R247): the side that is not active goes Out. -/
def State.loseLock (s : State) : State :=
  let t := ((s.warn .A).warn .B).unlockLink
  match s.active with
  | some a => if (s.side a.other).role = .out then t else t.splitSide a.other
  | none => t

/-- A side that went Out by a split rejoins (R237): at the tick boundary, once the link is up, where lock was lost. -/
def State.rejoinSplit (s : State) : State :=
  s.forSides fun sd t => if (t.duty sd).splitOut then (if s.xlink.unlocked then t.modResync sd fun r => { r with waits := true } else t.autoJoin sd) else t

/-- The cross-link trains again, between the same devices (R444), unless the clocks of the sides are still too far apart
(R247). -/
def execCrosslinkRecover (s : State) : Host.Outcome State Fault Refusal :=
  .next (if s.xlink.unlocked && s.refBeyond then s
    else
      let t := (s.trainLink s.xlink.trusted).rejoinSplit
      if s.xlink.unlocked then (State.awaitPath { t with xlink := { t.xlink with unlocked := false } } false).awaitPath true else t)

/-- T0 after a step to the leading time, beyond 1 ms, or as the slewing has it (R246). -/
def stepped (offset : Int) : Int := if 1000000 < offset.natAbs then 0 else offset

/-- The guard measures T0 of a side again (R246): within the limit the side joins; beyond 1 ms it steps to the active
time. Where the side is not held back but its module is, the measurement is that between the modules. -/
def execTimeGuardRetry (sd : SideId) (offset : Int) (s : State) : Host.Outcome State Fault Refusal :=
  let set (o : Int) : State := s.modDuty sd fun d => { d with t0Off := o }
  let within := decide (offset.natAbs ≤ 1000)
  .next (if guardOpen (s.duty sd).resync.guarded s.now && (s.side sd).role == .out then
      if within then (set offset).autoJoin sd else set (stepped offset)
    else if s.pairMode = 1 ∧ guardOpen s.pair.join.guarded s.now = true ∧ (s.side sd).role ≠ .out then
      if within then (s.modJoin fun j => { j with t0Off := offset }).pairJoin else s.modJoin fun j => { j with t0Off := stepped offset }
    else set offset)

/-- T0 beyond its limit for 16 ticks (R247): the standby side leaves step; between modules the following one is ISOLATED
until its partner's bells make it rejoin. Where the reference clocks are beyond theirs the cross-link loses lock. -/
def execT0DriftLimit (betweenModules : Bool) (s : State) : Host.Outcome State Fault Refusal :=
  .next (if betweenModules then
      if s.pairFollows then ((s.warn .A).warn .B).modPair fun p => { p with role := 3, drifted := true } else s
    else if s.refBeyond then s.loseLock
    else s.forSides fun sd t => if (t.side sd).role = .standby then (t.warn sd).leaveStep sd false else t)

/-- The sides differ by more than 25 K (R247): shown and recorded. -/
def execTempDiffWarn (kelvin : BitVec 8) (s : State) : Host.Outcome State Fault Refusal :=
  let s1 := s.forSides fun sd t => t.wr (Rg.regionStatus sd) Fd.regionStatusTempDiff kelvin.toNat
  .next (if 25 < kelvin.toNat then
      (s1.forSides fun sd t => t.warn sd).moduleEvent evTempDiff 0 (beBytes 1 kelvin.toNat ++ zeros 15)
    else s1)

/-- No bell over Smirnel for 3 ticks while the module's own cross-link is up (R242). -/
def execSmirnelLoss (s : State) : Host.Outcome State Fault Refusal :=
  .next (if s.pairMode ≠ 1 || !(s.xlinkUp .A && s.xlinkUp .B) then s
    else if s.pair.role = 2 then s.setPairRole 3 else if s.pair.role = 1 then s.setPairRole 0 else s)

/-- Every process port bad for 2 ticks (R245). -/
def execEgressFaultStop (s : State) : Host.Outcome State Fault Refusal :=
  .next (if s.pairMode = 1 && !s.egressOk && decide (2 ≤ s.pair.portsBad) && !s.pair.egressStop then
      ({ s with pair := { s.pair with egressStop := true } }).moduleReport evEgressStop 0 (zeros 16)
    else s)

end Sys2Proof.Machine
end

