-- ==== Sys2Proof/Machine/SetImage.lean ====
section
/-! DEFINITION. Set images (R416 to R420): the canonical image of a scope, its digest, the digest of the whole active
configuration, and reading blocks and images back. The form of the records of types 0x10 and 0x11 in an image, whose
own records name no index or kind, is the model's (see the assumption log). -/

namespace Sys2Proof.Machine

/-- The block types of a scope, ascending: a stall scope has the stall-scoped ones only (R417). -/
def stallTypes : List Nat := [0x20, 0x21, 0x22, 0x23, 0x24, 0x25, 0x26]
def moduleTypes : List Nat := ((upto 18).map (· + 1)) ++ stallTypes

/-- A record as it stands in an image: a rate entry follows its code, a CAN record its kind (0 timing, 1 filter, 2
buffer) in a slot of 16 bytes. -/
def recImage (ty idx : Nat) (r : Bytes) : Bytes :=
  match ty with
  | 0x10 => beBytes 2 idx ++ zeros 2 ++ r
  | 0x11 => beBytes 1 (if idx < 4096 then 0 else if idx < 8192 then 1 else 2) ++ fit 15 r
  | _ => r

/-- The record that an image's bytes stand for. -/
def recStored (ty : Nat) (b : Bytes) : Bytes :=
  match ty with
  | 0x10 => sub b 4 4
  | 0x11 => sub b 1 (if u8 b 0 = 0 then 9 else 12)
  | _ => b

/-- The length of the record that begins a byte string (R417). -/
def recLen (ty : Nat) (b : Bytes) : Nat :=
  match ty with
  | 0x01 => 40
  | 0x02 => 20
  | 0x03 => 64
  | 0x04 => 176 + 12 * u8 b 14
  | 0x05 => 96
  | 0x06 => 8 + 4 * u16 b 2
  | 0x07 => 16
  | 0x08 => 88 + (u8 b 18 + 7) / 8 * 8
  | 0x09 => 16
  | 0x0A => 16
  | 0x0B => 4 + 4 * u8 b 2
  | 0x0C => 8
  | 0x0D => 16
  | 0x0E => 8
  | 0x0F => 16
  | 0x10 => 8
  | 0x11 => 16
  | 0x12 => 17 + 2 * u8 b 8
  | 0x20 => 128
  | 0x21 => u32 b 4
  | 0x22 => 224 + 8 * u8 b 27
  | 0x23 => 96 + 8 * u8 b 23
  | 0x24 => 8
  | 0x25 => 24
  | _ => 8 + 8 * u8 b 2

/-- The index of a record; forwarding entries are numbered as they stand, side by side. -/
def recIdx (ty : Nat) (last : Option Nat) (b : Bytes) : Nat :=
  match ty with
  | 0x02 => u8 b 0 * 16 + u8 b 1
  | 0x03 => u8 b 0
  | 0x04 => u16 b 0
  | 0x05 => u16 b 0
  | 0x06 => u8 b 0
  | 0x07 => u16 b 0
  | 0x08 => u16 b 0
  | 0x09 => swPortIdx (u8 b 0) (u8 b 1)
  | 0x0A => match last with
    | some l => max (l + 1) (swFdbIdx (u8 b 10) 0)
    | none => swFdbIdx (u8 b 10) 0
  | 0x0B => swPortIdx (u8 b 0) (u8 b 1)
  | 0x0C => swQueueIdx (u8 b 0) (u8 b 1) (u8 b 2)
  | 0x0D => u8 b 0
  | 0x0E => u8 b 0
  | 0x0F => u8 b 0
  | 0x10 => u16 b 0
  | 0x11 => if u8 b 0 = 0 then canTimingIdx (u8 b 1) else if u8 b 0 = 1 then canFilterIdx (u8 b 1) (u8 b 2) else canBufferIdx (u8 b 1) (u8 b 2)
  | 0x22 => u16 b 0
  | 0x23 => u8 b 0
  | 0x24 => u8 b 1
  | 0x25 => u16 b 0
  | 0x26 => u8 b 1
  | _ => 0

/-! ### The canonical image (R419) -/

/-- CFG_FMT in force: the format of the running image. -/
def State.cfgFmt (s : State) : Nat := u8 (s.side s.speaker).image 15

def Scope.recImages (c : Scope) (ty : Nat) : List Bytes := (c.block ty).map fun e => recImage ty e.1 e.2

/-- One block with its header; nothing for a block without records. -/
def blockBytes (fmt stall ty : Nat) (recs : List Bytes) : Bytes :=
  if recs.isEmpty then []
  else
    let body := padTo 8 recs.flatten
    beBytes 1 ty ++ beBytes 1 stall ++ beBytes 1 fmt ++ zeros 1 ++ beBytes 4 (16 + body.length) ++ beBytes 4 recs.length ++ zeros 4 ++ body

def scopeTypes (stall : Nat) : List Nat := if stall = 0 then moduleTypes else stallTypes

/-- The image with DIGEST as zeros. -/
def Scope.rawImage (c : Scope) (fmt stall : Nat) : Bytes :=
  let blocks := ((scopeTypes stall).map fun ty => blockBytes fmt stall ty (c.recImages ty)).filter fun b => !b.isEmpty
  let body := blocks.flatten
  beBytes 2 0x4B43 ++ beBytes 1 fmt ++ beBytes 1 (b2n (stall != 0)) ++ beBytes 1 stall ++ zeros 3 ++ beBytes 4 (64 + body.length)
    ++ beBytes 2 blocks.length ++ zeros 50 ++ body

/-- DIGEST of a scope's image. -/
def Scope.imageDigest (c : Scope) (fmt stall : Nat) : Bytes := sha256 (c.rawImage fmt stall)

/-- The image with its DIGEST. -/
def Scope.image (c : Scope) (fmt stall : Nat) : Bytes :=
  let raw := c.rawImage fmt stall
  patch raw 16 (sha256 raw)

/-- The tenant stall scopes, ascending (R416). -/
def State.tenantScopes (_ : State) : List Nat := tenants

/-- The digest of the whole active configuration (R420). -/
def State.configDigest (s : State) : Bytes :=
  let fmt := s.cfgFmt
  sha256 (s.modActive.image fmt 0 ++ (s.tenantScopes.flatMap fun st => (s.stallScope st).image fmt st) ++ beBytes 4 (tableCrc s.safeActive))

/-! ### Reading an image back -/

/-- The records of a block: none when one is cut short or out of ascending order. -/
def readRecs (ty : Nat) : Nat → Option Nat → Bytes → Tbl Bytes → Option (Tbl Bytes × Bytes)
  | 0, _, b, acc => some (acc, b)
  | n + 1, last, b, acc =>
    let len := recLen ty b
    let r := b.take len
    let i := recIdx ty last r
    if len = 0 ∨ b.length < len then none
    else match last with
      | some l => if i ≤ l then none else readRecs ty n (some i) (b.drop len) (Tbl.put acc (recKey ty i) (recStored ty r))
      | none => readRecs ty n (some i) (b.drop len) (Tbl.put acc (recKey ty i) (recStored ty r))

/-- A block with its header at the front of a byte string: its TYPE, its records, the rest. -/
def readBlock (stall : Nat) (b : Bytes) (acc : Tbl Bytes) : Option (Nat × Tbl Bytes × Bytes) :=
  let ty := u8 b 0
  let len := u32 b 4
  if len < 16 ∨ b.length < len ∨ len % 8 ≠ 0 ∨ !(scopeTypes stall).contains ty ∨ u8 b 1 ≠ stall ∨ u8 b 3 ≠ 0 ∨ u32 b 12 ≠ 0 then none
  else match readRecs ty (u32 b 8) none (sub b 16 (len - 16)) acc with
    | some (t, rest) => if rest.length < 8 && allZero rest then some (ty, t, b.drop len) else none
    | none => none

/-- Blocks in ascending TYPE. -/
def readBlocks (stall : Nat) : Nat → Nat → Bytes → Tbl Bytes → Option (Tbl Bytes)
  | 0, _, b, acc => if b.isEmpty then some acc else none
  | n + 1, last, b, acc => match readBlock stall b acc with
    | some (ty, t, rest) => if ty ≤ last then none else readBlocks stall n ty rest t
    | none => none

/-- The indexes of a block's records as they stand. -/
def recIdxs (ty : Nat) : Nat → Option Nat → Bytes → List Nat
  | 0, _, _ => []
  | n + 1, last, b => recIdx ty last b :: recIdxs ty n (some (recIdx ty last b)) (b.drop (recLen ty b))

/-- The status that refuses a block which readBlock refuses: CONFLICT where two subscriptions use one slot (R65), RANGE
otherwise (R419). -/
def blockRefusal (b : Bytes) : Status :=
  if u8 b 0 = 0x04 ∧ hasDup (recIdxs 0x04 (min (u32 b 8) 1024) none (sub b 16 (u32 b 4 - 16))) = true then .conflict else .range

/-- The same for the blocks of an image: the first one refused decides. -/
def blocksRefusal (stall : Nat) : Nat → Bytes → Status
  | 0, _ => .range
  | n + 1, b => match readBlock stall b [] with
    | some (_, _, rest) => blocksRefusal stall n rest
    | none => blockRefusal b

/-- Every tap of a loaded tap set is written. -/
def markTaps (t : Tbl Bytes) : Tbl Bytes :=
  t.foldl (fun u e => if e.1 / 4294967296 = 0x06 then Tbl.put u (recKey tapMarkTy (e.1 % 4294967296)) (List.replicate (u16 e.2 2) 1) else u) t

/-- The header of a set image, its DIGEST among it, is right (R419). -/
def setHeadOk (fmt : Nat) (b : Bytes) : Bool :=
  u16 b 0 == 0x4B43 && u8 b 2 == fmt && u8 b 3 == b2n (u8 b 4 != 0) && decide (u8 b 4 ≤ 62 ∧ u32 b 8 = b.length ∧ 64 ≤ b.length
      ∧ b.length ≤ 7340032 ∧ u16 b 12 ≤ 64) && allZero (sub b 5 3) && allZero (sub b 14 2) && allZero (sub b 48 16)
    && sha256 (patch b 16 (zeros 32)) == sub b 16 32

/-- The stall a set image is for, and its records; none for an image that breaks R419 or whose DIGEST is wrong. -/
def readSetImage (fmt : Nat) (b : Bytes) : Option (Nat × Tbl Bytes) :=
  if setHeadOk fmt b then (readBlocks (u8 b 4) (u16 b 12) 0 (b.drop 64) []).map fun t => (u8 b 4, markTaps t) else none

/-- The status that refuses an image which readSetImage refuses. -/
def imageRefusal (fmt : Nat) (b : Bytes) : Status :=
  if setHeadOk fmt b then blocksRefusal (u8 b 4) (u16 b 12) (b.drop 64) else .range

/-- Replace the whole shadow scope by loaded records. -/
def State.loadShadow (s : State) (stall : Nat) (t : Tbl Bytes) : State :=
  s.modifyStallShadow stall fun c => { c with recs := t, loading := [], valid := false, digest := [] }

/-- The byte offset in a scope's image at which a record stands: 0 for the image as a whole. -/
def Scope.recOffset (c : Scope) (stall ty idx : Nat) : Nat :=
  let before := (scopeTypes stall).filter fun t => decide (t < ty)
  let blocks := before.map fun t => (blockBytes 0 stall t (c.recImages t)).length
  let recs := ((c.block ty).filter fun e => decide (e.1 < idx)).map fun e => (recImage ty e.1 e.2).length
  64 + listSum blocks + 16 + listSum recs

end Sys2Proof.Machine
end

