-- ==== Sys2Proof/Machine/ImageCheck.lean ====
section
/-! DEFINITION. The checks of a program image at validation (R116, R119, R136 to R138, R154, R170, R171). -/

namespace Sys2Proof.Machine

/-! ### The code area (R138, R154) -/

/-- The instructions of a code area in linear order, with the word at which each starts: none when a word is no defined
instruction or the area ends inside one. -/
def decodeCode : Nat → Nat → List Word → Option (List (Nat × HscInstr))
  | _, _, [] => some []
  | 0, _, _ => none
  | n + 1, i, w :: rest => match hscDecode w rest.head? with
    | none => none
    | some x => (decodeCode n (i + x.words) (rest.drop (x.words - 1))).map fun l => (i, x) :: l

def codeWords (code : Bytes) : List Word := (upto (code.length / 4)).map fun k => BitVec.ofNat 32 (u32 code (4 * k))

/-- LOOP bodies as first word and first word after. -/
def loopBodies (l : List (Nat × HscInstr)) : List (Nat × Nat) :=
  l.filterMap fun e => e.2.body.map fun b => (e.1 + e.2.words, e.1 + e.2.words + b)

/-- Branches as their own word and their target. -/
def branchTargets (l : List (Nat × HscInstr)) : List (Nat × Int) :=
  l.filterMap fun e => e.2.br.map fun b => (e.1, (e.1 : Int) + 1 + b)

/-- The static rules of LOOP bodies. -/
def loopsOk (n : Nat) (starts : List Nat) (bodies : List (Nat × Nat)) (brs : List (Nat × Int)) : Bool :=
  bodies.all fun b =>
    (b.2 == n || starts.contains b.2) && decide (b.2 ≤ n)
      && bodies.all (fun c => !(decide (b.1 ≤ c.1 ∧ c.1 < b.2)) || decide (c.2 ≤ b.2))
      && decide ((bodies.filter fun c => decide (c.1 ≤ b.1 ∧ b.1 < c.2)).length ≤ 4)
      && brs.all fun j => decide (b.1 ≤ j.1 ∧ j.1 < b.2) || !(decide ((b.1 : Int) ≤ j.2 ∧ j.2 < (b.2 : Int)))

/-- The RANGE checks of a code area with the ENTRY offsets of its tasks; on success its trigger lines. -/
def codeCheck (code : Bytes) (entries : List Nat) : Option (List Nat) :=
  let ws := codeWords code
  match decodeCode (ws.length + 1) 0 ws with
  | none => none
  | some l =>
    let starts := l.map (·.1)
    let brs := branchTargets l
    if code.length % 4 = 0 && brs.all (fun j => decide (0 ≤ j.2) && starts.contains j.2.toNat)
        && entries.all (fun e => e % 4 == 0 && starts.contains (e / 4)) && loopsOk ws.length starts (loopBodies l) brs then
      some (l.filterMap fun e => e.2.trig)
    else none

/-! ### The layout of an image (R136, R116) -/

def taskRange (r : Bytes) : Bool :=
  let t := readTask r
  decide (t.task ≤ 15 ∧ u8 r 1 ≤ 1 ∧ 1 ≤ t.period ∧ t.phase < t.period ∧ t.cluster ≤ 9 ∧ t.core ≤ 7 ∧ t.order ≤ 63 ∧ u8 r 9 = 0
      ∧ t.nInputs ≤ 1024 ∧ t.cIn + 17 ≤ t.wDecl ∧ t.wDecl ≤ 160000 ∧ t.inSize ≤ 65536 ∧ t.outSize ≤ 65536 ∧ t.retSize ≤ 262144 ∧ t.locSize ≤ 262144)
    && 4800 % t.period == 0 && t.outSize % 4 == 0 && t.retSize % 64 == 0 && t.locSize % 64 == 0 && allZero (sub r 48 16)

/-- A declaration's own fields (R119). -/
def declRange (b : Bytes) : Bool :=
  let d := readDecl b
  decide (u8 b 1 ≤ 1) && u16 b 6 == 0 &&
    (match d.kind with
      | 1 => decide (1 ≤ d.count ∧ d.count ≤ 256 ∧ d.source + d.count ≤ 8192)
      | 2 => decide (1 ≤ d.count ∧ d.count ≤ 64 ∧ d.source + d.count ≤ 1024)
      | 3 => decide (d.count = 1 ∧ d.source ≤ 2047)
      | 4 => decide (d.count = 1 ∧ d.source = 0)
      | 5 => decide (d.count = 1 ∧ 1 ≤ d.source ∧ d.source ≤ 2)
      | 6 => decide (d.count = 1 ∧ d.source ≤ 15)
      | _ => false)

/-- Where the declarations of an image end. -/
def declsEnd (img : Bytes) : Nat := 80 + 64 * imgTasks img + 8 * listSum ((tasksOf img).map (·.nInputs))

def rising : List Nat → Bool
  | [] => true
  | [_] => true
  | a :: b :: rest => decide (a < b) && rising (b :: rest)

/-- A region of the data area. -/
def regionIn (img : Bytes) (off len : Nat) : Bool :=
  len == 0 || decide (u32 img 16 ≤ off ∧ off + len ≤ u32 img 16 + u32 img 20)

/-- MAGIC, LENGTH, CRC, areas and regions, and every field of the scan header and task records in range. -/
def imageLayout (img : Bytes) : Bool :=
  let n := u32 img 4
  u16 img 0 == 0x4B48 && u8 img 3 == 0 && decide (n = img.length ∧ 1280 ≤ n ∧ n ≤ 1048576) && n % 64 == 0
    && u32 img 60 == crc32c (patch img 60 (zeros 4)) && allZero (sub img 32 28) && allZero (sub img 66 14)
    && u32 img 8 % 64 == 0 && u32 img 16 % 64 == 0 && u32 img 12 % 4 == 0
    && decide (4 ≤ u32 img 12 ∧ u32 img 12 ≤ 524288 ∧ u32 img 20 ≤ 524288 ∧ declsEnd img ≤ u32 img 8 ∧ u32 img 8 + u32 img 12 ≤ n
      ∧ (u32 img 20 = 0 ∨ declsEnd img ≤ u32 img 16) ∧ u32 img 16 + u32 img 20 ≤ n ∧ 1 ≤ imgTasks img ∧ imgTasks img ≤ 16)
    && (upto (imgTasks img)).all (fun k => taskRange (imgTaskRec img k)) && rising ((tasksOf img).map (·.task))
    && (tasksOf img).all fun t =>
        (t.init == 0 || regionIn img t.init t.retSize) && regionIn img t.failsafe t.outSize
          && regionIn img t.qualMap (ceilDiv t.outSize 32)
          && (upto t.nInputs).all fun k => declRange (sub img (80 + 64 * imgTasks img + 8 * (declsBefore img t.task + k)) 8)

/-! ### Inputs (R119) -/

/-- The bytes a declaration contributes, in the configuration of `s`; none when its source is not there. -/
def State.declSize (s : State) (stall : Nat) (img : Bytes) (d : InputDecl) : Option Nat :=
  match d.kind with
  | 1 => some (56 * d.count)
  | 2 => some (56 * d.count)
  | 3 =>
    match if stall = 63 then (s.teleRecs 1).find? fun e => u16 e.2 20 == d.source else none with
    | some e => some (16 + 4 * u8 e.2 16)
    | none => (s.modActive.get 0x08 d.source).map fun r =>
        16 + listSum ((upto (u8 r 18)).map fun k => if u8 r (88 + k) = 7 then 8 else 4)
  | 4 => some 16
  | 5 => some 5120
  | _ => ((tasksOf img).find? fun t => t.task == d.source).map (·.outSize)

/-- Whether what a declaration names is granted to the stall (R119, R173, R356). -/
def State.declGranted (s : State) (stall : Nat) (d : InputDecl) : Bool :=
  let owned (_ c : Nat) : Bool := match s.modActive.chanEntry c with
    | some (r, _) => subOwner r == stall
    | none => false
  match d.kind with
  | 1 => (upto d.count).all fun k => s.mayReadChannel stall (d.source + k) owned
  | 2 => (upto d.count).all fun k => s.mayReadGroup stall (d.source + k)
  | 3 =>
    if (s.teleRecs 1).any fun e => u16 e.2 20 == d.source then stall == 63 else s.mayReadGoose stall d.source
  | 5 => stall == 0 || (match s.grant stall with
    | some g => u8 g (37 + 4 * d.source) != 0 || u8 g (39 + 4 * d.source) != 0
    | none => false)
  | _ => true

/-- The declarations of a task: CONFLICT for a source that is not granted or not there, RANGE for a wrong IN_SIZE. -/
def State.inputsCheck (s : State) (stall : Nat) (img : Bytes) (t : Task) : Option Status :=
  let ds := declsOf img t
  if ds.any fun d => !s.declGranted stall d || (s.declSize stall img d).isNone then some .conflict
  else if t.inSize ≠ listSum (ds.map fun d => (s.declSize stall img d).getD 0) then some .range
  else none

/-! ### Placement (R116, R118, R137, R170, R171) -/

/-- What a program needs of a cluster's memory. -/
def clusterNeed (img : Bytes) (cluster : Nat) : Nat :=
  let ts := (tasksOf img).filter fun t => t.cluster == cluster
  if ts.isEmpty then 0
  else round64 (u32 img 12) + listSum (ts.map fun t => round64 t.inSize + round64 t.outSize + round64 t.retSize + round64 t.locSize)

/-- The program of a stall in the configuration of `s`: the first check that fails. -/
def State.programCheck (s : State) (stall : Nat) : Option Status :=
  match s.program stall with
  | none => none
  | some img =>
    let g := s.grant stall
    let ts := tasksOf img
    if u8 img 2 ≠ 1 then some .incompatible
    else if !imageLayout img then some .range
    else match codeCheck (imgCode img) (ts.map (·.entry)) with
      | none => some .range
      | some trigs =>
        let line (k : Nat) : Bool := match (s.stallScope stall).get 0x24 k with
          | some r => u8 r 2 == 5
          | none => false
        if !trigs.all line then some .conflict
        else if ts.any fun t => s.allTasks.any fun e => (e.1 != stall || e.2.task != t.task) && e.2.coreNo == t.coreNo && e.2.order == t.order then
          some .conflict
        else match ts.findSome? (s.inputsCheck stall img) with
          | some st => some st
          | none =>
            if (upto 10).any fun l => decide (65536 * gNum g (gMem l) < clusterNeed img l) then some .conflict
            else if 1000 * gNum g gCycles < cycleDemand ts then some .noResource
            else if (ts.map (·.coreNo)).eraseDups.any fun n => decide (160000 < s.coreLoad n) then some .noResource
            else none

end Sys2Proof.Machine
end

