-- ==== Sys2Proof/Machine/Validate.lean ====
section
/-! DEFINITION. Validation of a shadow scope (R422): every check the spec states for castling or validation. The order in
which they are made is the model's where the spec gives none: record ranges first, block by block, then the rest. -/

namespace Sys2Proof.Machine

/-- A check that failed: status, block type, stall, and the byte offset in the set image (CFG_FAIL). -/
structure VFail where
  status : Status
  ty : Nat
  stall : Nat
  offset : Nat
  deriving DecidableEq, Repr

/-- The module with a shadow scope in the place of its active scope. -/
def State.trial (s : State) (stall : Nat) : State :=
  if stall = 0 then { s with modActive := s.modShadow }
  else { s with stallActive := Tbl.put s.stallActive stall (s.stallShadowScope stall) }

/-! ### Ranges of records -/

/-- A station record (R418). -/
def stationRange (r : Bytes) : Bool :=
  let multi4 := decide (224 ≤ u8 r 4 ∧ u8 r 4 ≤ 239)
  decide (r.length = 64 ∧ u8 r 0 ≤ 1 ∧ u8 r 1 ≤ 3 ∧ 1024 ≤ u16 r 2 ∧ u8 r 8 ≤ 32 ∧ u8 r 9 ≤ 128 ∧ u16 r 10 < 4096)
    && allZero (sub r 48 16) && !multi4 && u32 r 4 != 0 && !decide (224 ≤ u8 r 12 ∧ u8 r 12 ≤ 239)
    && u8 r 16 != 0xFF && !allZero (sub r 16 16) && u8 r 32 != 0xFF

/-- The time record: D is 1 to 24 (R34). -/
def timeRange (r : Bytes) : Bool :=
  r.length == 40 && decide (1 ≤ u8 r 0 ∧ u8 r 0 ≤ 24) && (u8 r 1 == 50 || u8 r 1 == 60) && allZero (sub r 2 6) && ptpRange (sub r 8 32)

def pairRange (r : Bytes) : Bool :=
  let p := r.drop 6
  let n := u8 p 2
  decide (17 ≤ r.length) && r.length == 17 + 2 * n && !bit (u8 r 0) 0
    && decide (u8 p 0 ≤ 2 ∧ u8 p 1 ≤ 1 ∧ n ≤ 15 ∧ (n = 0 ∨ 3 ≤ n)) && (pairEntries p).all fun e => bits e 14 10 == 0

/-- The ranges of a record of any block; a stall-scoped record must name its own stall. -/
def recRange (stall ty idx : Nat) (r : Bytes) : Bool :=
  match ty with
  | 0x01 => timeRange r
  | 0x02 => timePortRange r
  | 0x03 => stationRange r
  | 0x04 => subRangeOk r
  | 0x05 => chainRangeOk r
  | 0x06 => tapHeadOk r
  | 0x07 => groupRangeOk r
  | 0x08 => gooseSubRange r
  | 0x09 => portRange r
  | 0x0A => fdbRange r
  | 0x0B => gatesRange r
  | 0x0C => queueRange r
  | 0x0D => fioRange r
  | 0x0E => wfRangeOk r
  | 0x0F => dramRangeOk r
  | 0x10 => decide (idx ≤ 4095 ∧ u16 r 0 ≤ 4800 ∧ 1 ≤ u8 r 2 ∧ u8 r 3 = 0)
  | 0x11 =>
    if idx < 4096 then (u8 r 0 == 1 || u8 r 0 == 2) && canTimingRange (u64 r 1)
    else if idx < 8192 then canFilterRange r else canBufferRange r
  | 0x12 => pairRange r
  | 0x20 => grantRange (grantInForce stall r) && u8 r 0 == stall
  | 0x21 => true
  | 0x22 => goosePubRange r && u8 r 2 == stall && decide ((Config.pubFrameLength r).toNat ≤ 1522)
  | 0x23 => svPubRange r && u8 r 1 == stall && decide ((Config.pubFrameLength r).toNat ≤ 1522)
  | 0x24 => lineRangeOk r && u8 r 0 == stall
  | 0x25 => captRangeOk r && u8 r 2 == stall
  | 0x26 => snapshotRange r && u8 r 0 == stall
  | _ => true

/-- A failure at a record of a scope. -/
def Scope.failAt (c : Scope) (stall ty idx : Nat) (st : Status) : VFail := ⟨st, ty, stall, c.recOffset stall ty idx⟩

/-- The first record of a block for which a test gives a status. -/
def Scope.firstIn (c : Scope) (stall ty : Nat) (f : Nat → Bytes → Option Status) : Option VFail :=
  (c.block ty).findSome? fun e => (f e.1 e.2).map fun st => c.failAt stall ty e.1 st

def wrongIf (b : Bool) (st : Status) : Option Status := if b then some st else none

/-- Every record of a scope in range. -/
def Scope.rangesCheck (c : Scope) (stall : Nat) : Option VFail :=
  (scopeTypes stall).findSome? fun ty => c.firstIn stall ty fun i r => wrongIf (!recRange stall ty i r) .range

/-! ### Grants (R176, R187, R502) -/

/-- The reserve of stalls 0 and 63, and the pools they share (R187, R502). -/
def State.reserveCheck (s : State) (stall : Nat) (g : Bytes) : Option Status :=
  let other := 63 - stall
  let want (f : Bytes → Nat) : Nat := max (gNum (s.grant stall) f) (f g)
  let mem := listSum ((upto 10).map fun l => want (gMem l))
  let pool (f : Bytes → Nat) (limit : Nat) : Bool :=
    decide (limit < s.heldSum f ((0 :: 63 :: tenants).filter fun o => o != stall) + want f)
  if 800 < want gCycles + s.held gCycles other ∨ 6 < mem + s.heldMem other ∨ (stall = 63 ∧ (400 < want gCycles ∨ 4 < mem)) then some .noResource
  else if (upto 10).any fun l => decide (31 < s.heldSum (gMem l) (allStalls.filter fun o => o != stall) + want (gMem l)) then some .noResource
  else if pool gGoose 512 then some .noResource
  else if stall = 0 ∧ (pool gSv 64 ∨ pool gCapture 256) then some .noResource
  else if stall = 63 ∧ 8192 < s.heldSum gEq tenants + want gEq + max (eqUnder s.modActive 0) (eqUnder s.modShadow 0) then some .noResource
  else none

/-- The grant record of a stall's new scope under R176, in the configuration `t` (`s` holds the grants of now). -/
def grantCheck (s t : State) (stall : Nat) (g : Bytes) : Option Status :=
  if stall = 0 then
    if t.grantConflict 0 g then some .conflict else s.reserveCheck 0 g
  else if stall = 63 then
    if u8 g 20 ≠ 0 ∨ gCapture g ≠ 0 then some .range
    else if t.grantConflict 63 g then some .conflict else s.reserveCheck 63 g
  else if t.grantConflict stall g then some .conflict
  else match s.poolsCheck stall g with
    | some _ => some .noResource
    | none => if gEq g < eqUnder s.modActive stall then some .noResource else none

/-! ### The blocks of a stall -/

/-- A member or channel value lies in the task's output image (R200, R211). -/
def State.inOut (s : State) (stall task off : Nat) : Bool := match s.program stall with
  | none => true
  | some img => match (tasksOf img).find? fun t => t.task == task with
    | some t => decide (off + 4 ≤ t.outSize)
    | none => false

/-- The source of a capture record is granted and its host ring is the stall's own (R305); rings 0 to 3 are stall 0's
(R381). -/
def State.captGranted (t : State) (stall : Nat) (r : Bytes) : Bool :=
  let ch := u16 r 4
  let owned (_ c : Nat) : Bool := match t.modActive.chanEntry c with
    | some (x, _) => subOwner x == stall
    | none => false
  (u8 r 3 == 3 || t.mayReadChannel stall ch owned) &&
    (if u8 r 10 < 128 then (stall == 0 && decide (u8 r 10 < 4)) || bothSides.any fun sd => (t.ringsOf sd stall).contains (u8 r 10) else true)

/-- The snapshot set of a stall names only what it may (R319). -/
def State.snapGranted (t : State) (stall : Nat) (r : Bytes) : Bool :=
  let owned (_ c : Nat) : Bool := match t.modActive.chanEntry c with
    | some (x, _) => subOwner x == stall
    | none => false
  stall == 0 || (!snapshotRegs r && (upto (u8 r 2)).all fun k =>
    let e := sub r (8 + 8 * k) 8
    u8 e 0 != 2 || t.mayReadChannel stall (u32 e 4) owned)

/-- A publication names a port whose frames may be too short for it (R252). -/
def State.portTooShort (t : State) (ports : Nat) : Bool :=
  bothSides.any fun sd => (upto 10).any fun p => bit ports p && (match t.modActive.portRec sd p with
    | some r => decide (prMax r < 1522)
    | none => false)

/-- The checks of the GOOSE publications of a stall's new scope `c` (R200, R252). -/
def goosePubCheck (t : State) (stall : Nat) (c : Scope) (g : Option Bytes) : Option VFail :=
  c.firstIn stall 0x22 (fun _ r => wrongIf (t.portTooShort (u16 r 24)) .range)
  <|> c.firstIn stall 0x22 (fun _ r => wrongIf ((gpMembers r).any fun m => u8 m 2 != 7 && !t.inOut stall (u8 r 3) (u16 m 0)) .conflict)
  <|> (wrongIf (decide (gNum g gGoose < (c.block 0x22).length)) .noResource).map fun x => c.failAt stall 0x22 0 x

/-- The publications, lines, captures and snapshots of a stall's new scope `c` under its grant `g`, in the configuration `t`
that holds them, and the CAN buffers that the grant gives it or leaves to stall 0 (R371). -/
def stallBlocks (t : State) (stall : Nat) (c : Scope) (g : Option Bytes) : Option VFail :=
  let at0 (ty : Nat) (st : Option Status) : Option VFail := st.map fun x => c.failAt stall ty 0 x
  let limit (ty : Nat) (f : Bytes → Nat) : Option VFail :=
    at0 ty (wrongIf (decide (gNum g f < (c.block ty).length)) .noResource)
  at0 0x20 (wrongIf (stall != 0 && t.canConflict t.modActive) .conflict)
  <|> goosePubCheck t stall c g
  <|> c.firstIn stall 0x23 (fun _ r => wrongIf (t.portTooShort (u16 r 20)) .range)
  <|> c.firstIn stall 0x23 (fun _ r => wrongIf ((upto (u8 r 23)).any fun k =>
        !t.inOut stall (u8 r 2) (u16 r (96 + 8 * k)) || !t.inOut stall (u8 r 2) (u16 r (98 + 8 * k))) .conflict)
  <|> limit 0x23 gSv
  <|> c.firstIn stall 0x24 (fun _ r => wrongIf (!lineGranted t.modActive g t.safeChannelMask r) .conflict)
  <|> c.firstIn stall 0x25 (fun _ r => wrongIf (!t.captGranted stall r) .conflict)
  <|> limit 0x25 gCapture
  <|> c.firstIn stall 0x26 (fun _ r => wrongIf (!t.snapGranted stall r) .conflict)

/-- The stall-scoped blocks of a stall's new scope `c`, in the configuration `t` that holds it. -/
def stallCheck (s t : State) (stall : Nat) (c : Scope) : Option VFail :=
  let g := c.get 0x20 0
  let at0 (ty : Nat) (st : Option Status) : Option VFail := st.map fun x => c.failAt stall ty 0 x
  (match g with
    | some b => at0 0x20 (grantCheck s t stall b)
    | none => at0 0x20 (wrongIf (stall != 0) .range))
  <|> at0 0x21 (t.programCheck stall)
  <|> stallBlocks t stall c g

/-! ### Publication windows (R197) -/

/-- Picoseconds of one bit at a SPEED. -/
def bitTime (speed : Nat) : Nat := match speed with
  | 1 => 1000
  | 2 => 100
  | 3 => 40
  | _ => 10

/-- Bytes on the wire, 20 of overhead each, of the replicated frames and telegrams of a tick index on a port (from 0). -/
def State.wireBytes (t : State) (p i : Nat) : Nat :=
  let l := t.frameLengths (fun m => bit m p) i ++ t.teleLengths (fun m => bit m p) i
  listSum l + 20 * l.length

/-- The publication window of a gate list in ns: none when class 7 is closed at offset 0. -/
def windowOf (l : List (Nat × Nat)) : Option Nat :=
  let open_ := l.takeWhile fun e => bit e.1 7
  if open_.isEmpty then none
  else if open_.length = l.length then some 208309
  else some (8 * listSum (open_.map (·.2)))

/-- A port with replicated frames whose window is closed or too short. -/
def State.windowCheck (t : State) : Option VFail :=
  bothSides.findSome? fun sd => (upto 6).findSome? fun p =>
    match t.modActive.portRec sd p with
    | none => none
    | some r =>
      let need := listMax ((upto 4800).map (t.wireBytes p))
      if prSpeed r = 0 ∨ need = 0 then none
      else
        let i := swPortIdx sd.code (p + 1)
        let ps := need * 8 * bitTime (prSpeed r) + releaseOffset (p + 1) (prSpeed r) (prFec r)
        match t.modActive.get 0x0B i with
        | none => if 208309 * 1000 < ps then some (t.modActive.failAt 0 0x09 i .noResource) else none
        | some g => match windowOf (gateEntries g) with
          | none => some (t.modActive.failAt 0 0x0B i .conflict)
          | some w => if w * 1000 < ps then some (t.modActive.failAt 0 0x0B i .noResource) else none

/-! ### The module scope -/

/-- The ports that any publication names. -/
def State.pubPorts (t : State) : Nat :=
  ((t.goosePubRecs.map fun e => u16 e.2.2 24) ++ t.svPubRecs.map fun e => u16 e.2.2 20).foldl (· ||| ·) 0

/-- Cross-checks of the module scope `c`, in the configuration `t` that holds it. -/
def moduleCheck (s t : State) (c : Scope) : Option VFail :=
  let subs := svSubs c
  let first (ty : Nat) (b : Bool) (st : Status) : Option VFail := (wrongIf b st).map fun x => c.failAt 0 ty 0 x
  let hsr (sd : SideId) (p : Nat) : Bool := match c.portRec sd p with
    | some r => prFlag r 1
    | none => false
  c.firstIn 0 0x04 (fun _ r => wrongIf ((subChans r).any fun e => (c.get 0x05 (chanNumber e)).isNone) .conflict)
  <|> first 0x04 (subsConflict subs) .conflict
  <|> first 0x04 (decide (8192 < eqTotal c)) .noResource
  <|> first 0x04 (((upto 63).map (· + 1)).any fun st => decide (t.streamEqBudget st < eqUnder c st)) .noResource
  <|> c.firstIn 0 0x05 (fun _ r => c.chainCross r)
  <|> c.firstIn 0 0x07 (fun _ r => c.groupCross r)
  <|> first 0x05 (decide (5120000 < c.condDemand)) .noResource
  <|> first 0x08 (hasDup ((c.block 0x08).map fun e => (sub e.2 4 8, sub e.2 24 64))) .conflict
  <|> c.firstIn 0 0x08 (fun i _ => wrongIf ((t.teleRecs 1).any fun e => u16 e.2 20 == i) .conflict)
  <|> first 0x09 (hsr .A 0 != hsr .B 0 || bothSides.any fun sd => (upto 11).any fun p => p != 0 && hsr sd p) .conflict
  <|> c.firstIn 0 0x09 (fun _ r => wrongIf (u8 r 1 != 0 && bit t.pubPorts (u8 r 1 - 1) && decide (prMax r < 1522)) .range)
  <|> c.firstIn 0 0x0C (fun i r => wrongIf ((c.block 0x0C).any fun e => e.1 / 8 == i / 8 && u8 e.2 4 != u8 r 4) .range)
  <|> first 0x0C (bothSides.any fun sd => decide (65536 < t.minSum sd - listSum ((upto 16).map t.minExpress))) .noResource
  <|> c.firstIn 0 0x0D (fun i _ => wrongIf (t.isSafeChannel i) .conflict)
  <|> first 0x0F (decide (16384 < c.dramMib)) .noResource
  <|> first 0x11 (t.canConflict c) .conflict
  <|> c.firstIn 0 0x12 (fun _ r => wrongIf ((pairEntries (r.drop 6)).any fun e => !bit e 15 && (c.get 0x04 (e % 1024)).isNone) .conflict)
  <|> stallCheck s t 0 c
  <|> t.windowCheck
  <|> first 0x01 ((upto 80).any fun n => decide (160000 < t.coreLoad n)) .noResource

/-- Validation of the shadow of a scope (R422): 0 for the module scope. -/
def State.validate (s : State) (stall : Nat) : Option VFail :=
  let c := s.stallShadowScope stall
  let t := s.trial stall
  if 7340032 < (c.rawImage s.cfgFmt stall).length then some ⟨.noResource, 0, stall, 0⟩
  else c.rangesCheck stall <|> (if stall = 0 then moduleCheck s t c else stallCheck s t stall c <|> t.windowCheck)

/-! ### The safety table (R359) -/

/-- The channels an instance names as inputs. -/
def instInputs (r : Bytes) : List Nat :=
  let pair := if u8 r 4 < 16 then [2 * u8 r 4 + 1, 2 * u8 r 4 + 2] else []
  ((pair ++ [u8 r 5, u8 r 8]).filter fun n => n != 0) ++ if u8 r 1 = 1 then (upto (u8 r 13)).map fun k => u8 r (24 + k) % 64 else []

/-- An instance record's own fields (R358). -/
def instRange (r : Bytes) : Bool :=
  let f := u8 r 1
  decide (u8 r 0 ≤ 31 ∧ 1 ≤ f ∧ f ≤ 4 ∧ u8 r 2 ≤ 1 ∧ 1 ≤ u8 r 3 ∧ u8 r 3 ≤ 32 ∧ (u8 r 4 ≤ 15 ∨ u8 r 4 = 255) ∧ u8 r 5 ≤ 32
      ∧ 10 ≤ u16 r 6 ∧ u16 r 6 ≤ 2000 ∧ u8 r 8 ≤ 32 ∧ u8 r 9 ≤ 1 ∧ 10 ≤ u16 r 10 ∧ u16 r 10 ≤ 500
      ∧ (u8 r 12 ≤ 31 ∨ u8 r 12 = 255) ∧ u8 r 13 ≤ 8 ∧ u8 r 14 ≤ 15 ∧ u8 r 15 = 0)
    && allZero (sub r 18 6) && (f == 1 || f == 4 || u8 r 4 != 255) && (f != 4 || u8 r 8 != 0)
    && (upto (u8 r 13)).all fun k => decide (1 ≤ u8 r (24 + k) % 64 ∧ u8 r (24 + k) % 64 ≤ 32) && !bit (u8 r (24 + k)) 6

def teleRange (r : Bytes) : Bool :=
  let sub_ := u8 r 1 == 1
  decide (u8 r 0 ≤ 63 ∧ u8 r 1 ≤ 1 ∧ 1 ≤ u16 r 2 ∧ u32 r 4 ≠ 0 ∧ 1 ≤ u8 r 16 ∧ u8 r 16 ≤ 16 ∧ u8 r 17 ≤ 3 ∧ 1 ≤ u8 r 18 ∧ u8 r 18 ≤ 48)
    && !bit (u16 r 14) 12 && allZero (sub r 26 6)
    && (if sub_ then u8 r 19 == 0 && decide (u16 r 20 ≤ 2047 ∧ 10 ≤ u16 r 22 ∧ u16 r 22 ≤ 10000)
        else decide (u8 r 19 ≤ 15 ∧ u16 r 22 = 0 ∧ u16 r 24 < 1024) && u16 r 20 % 4 == 0)

/-- Whether the LOCK_INST of an SF1 record is 0xFF or names an SF3 instance of the table (R358). -/
def lockRange (b r : Bytes) : Bool :=
  u8 r 1 != 1 || u8 r 12 == 255 || (safeInstances b).any fun x => u8 x 0 == u8 r 12 && u8 x 1 == 3

/-- RANGE of a table: header, records, stall 63's record. -/
def tableRange (b : Bytes) : Bool :=
  let h := safeHead b
  safePresent b && decide (u8 b 2 = 1 ∧ h.nInst ≤ 32 ∧ h.nTele ≤ 128 ∧ h.nChan ≤ 32 ∧ h.length = b.length ∧ safeGrantAt b + 128 ≤ b.length)
    && allZero (sub b 6 2) && allZero (sub b 24 8) && (upto 16).all (fun k => decide (bits h.pairs (2 * k + 1) (2 * k) ≤ 2))
    && (safeChannels b).all fioRange && (safeInstances b).all (fun r => instRange r && lockRange b r) && (safeTelegrams b).all teleRange
    && (match safeGrant b with
      | some g => grantRange (grantInForce 63 g) && u8 g 0 == 63
      | none => false)

/-- CONFLICT of a table, in the configuration `t` that holds it: every instance of it counts, enabled or not (R359). -/
def tableConflict (t : State) (b : Bytes) : Bool :=
  let is := safeInstances b
  let outs := (is.map fun r => u8 r 3).eraseDups
  let prim (n : Nat) : Nat := (is.filter fun r => u8 r 1 != 4 && u8 r 3 == n).length
  let four (n : Nat) : Nat := (is.filter fun r => u8 r 1 == 4 && u8 r 3 == n).length
  let ins := is.flatMap instInputs
  let mask := (safeHead b).safeCh
  let chans (f : Nat → Bool) : List Nat := ((safeChannels b).filter fun r => f (u8 r 1)).map fun r => u8 r 0
  let safeOuts := chans (· == 3)
  let ids (d : Nat) : List Nat := ((safeTelegrams b).filter fun r => u8 r 1 == d).map fun r => u16 r 2
  (outs ++ safeOuts).any (fun n => prim n != 1 || decide (1 < four n))
    || (outs ++ ins).any (fun n => !bit mask (n - 1)) || (outs ++ safeOuts).any (ins ++ chans fun m => m == 1 || m == 2).contains
    || allStalls.any (fun st => st != 63 && ((gNum (t.grant st) gField &&& mask) != 0 || (gNum (t.shadowGrant st) gField &&& mask) != 0))
    || (safeTelegrams b).any (fun r => u8 r 1 == 1 && (t.modActive.get 0x08 (u16 r 20)).isSome)
    || hasDup (ids 0) || hasDup (ids 1)

/-- The shadow safety table under R359, R350, R502 and the checks of stall 63's program image; with it those of stall 63's
scope, which comes into force with the table, and of the publication windows, which its telegrams share (R197). -/
def State.validateTable (s : State) : Option Status :=
  let b := s.safeShadow
  let c := s.stallShadowScope 63
  let t := { s with safeActive := b, stallActive := Tbl.put s.stallActive 63 c }
  if !tableRange b then some .range
  else if tableConflict t b then some .conflict
  else match t.grant 63 with
    | none => some .range
    | some g => match grantCheck s t 63 g with
      | some st => some st
      | none => match t.programCheck 63 with
        | some st => some st
        | none => if (t.tasks 63).any fun k => decide (48 < k.period) then some .range
          else (c.rangesCheck 63 <|> stallBlocks t 63 c (some g) <|> t.windowCheck).map (·.status)

end Sys2Proof.Machine
end

