-- ==== Sys2Proof/Machine/ConfigCmds.lean ====
section
/-! DEFINITION. Writing, validating and castling configuration (R421 to R427, R441), and safety castling (R361). -/

namespace Sys2Proof.Machine

/-! ### Notices -/

/-- The bytes of a notice (R41). -/
def noticeBytes (n : Notice) : Bytes := beBytes 1 n.ty ++ beBytes 1 n.stall ++ zeros 2 ++ beBytes 4 n.arg ++ beBytes 8 n.tick

/-- The CHANGE record of a listed notice (R324). -/
def State.noticeRecord (s : State) (n : Notice) : State :=
  s.ledger ⟨0, n.stall, noticeRank n.ty + 1, lcChange, 0, recBody (changeBody 0xFFFF 0 n.ty (noticeBytes n)), true, false⟩

/-! ### Castling (R424 to R426) -/

/-- Ports whose SPEED, FEC or FLAGS a castling has changed go down and retrain (R252). -/
def State.retrainPorts (s : State) (old : Scope) : State :=
  let sig (c : Scope) (sd : SideId) (p : Nat) : Option (Nat × Nat × Nat) := (c.portRec sd p).map fun r => (prSpeed r, prFec r, u8 r 6)
  s.forSides fun sd t => (upto 11).foldl (fun (u : State) p =>
    if sig old sd p = sig u.modActive sd p then u else u.setLink sd p false false false) t

/-- The shadow that a castling leaves: the old active copy, VALID, with its digest. -/
def Scope.asShadow (c : Scope) (fmt stall : Nat) : Scope := { c with loading := [], valid := true, digest := c.imageDigest fmt stall }

/-- Every shadow loses VALID but the one just castled; its digest stays, to tell that only a castling took it (R426). -/
def State.devalue (s : State) : State :=
  { s with modShadow := { s.modShadow with valid := false }
           stallShadow := s.stallShadow.map fun (e : Nat × Scope) => (e.1, { e.2 with valid := false }) }

/-- The copies of a scope have changed places in their slots (R428). -/
def State.swapSlots (s : State) (stall : Nat) : State :=
  { s with oddScopes := if s.oddScopes.contains stall then s.oddScopes.filter (· != stall) else s.oddScopes ++ [stall] }

/-- What every castling does: the count, the slots, the broken validations, the notice; each side keeps what stood before
until its root record is written (R429). -/
def State.castled (s old : State) (ty stall : Nat) : State :=
  let s1 := { s with validations := s.validations.map fun (e : Nat × Validation) => (e.1, { e.2 with broken := true }) }
  (((s1.keptFrom old).swapSlots stall).tick1 Rg.cfgState Fd.cfgStateCastlings).noticeRecord ⟨ty, stall, 0, s.now, false⟩

/-- COND_DEMAND_SH shows the demand of the module scope's shadow (R112). -/
def State.showDemand (s : State) (stall : Nat) (c : Scope) : State :=
  if stall = 0 then s.wr Rg.condDemandSh Fd.condDemandShShadow (min 8388607 c.condDemand) else s

/-- The module scope's copies change places; port retraining, CAN, channels, chains, streams and publications follow. -/
def State.castleModule (s : State) (origin : Nat) : State :=
  let old := s.modActive
  let oldImg := s.program 0
  let s0 := (s.stopCapts old s.modShadow).devalue
  let s1 := { s0 with modActive := { s0.modShadow with valid := false }, modShadow := old.asShadow s.cfgFmt 0 }
  let s2 := ((((((((s1.keepBuckets old).showDemand 0 old).castledStreams old).castledChains old).castledPublications old s1.modActive).castledCapts old s1.modActive).castledCan
    old).castledProgram 0 oldImg origin).buildSlices 0
  State.castled { s2.retrainPorts old with moduleCastled := some s.now } s ntModuleCastling 0

def State.castleStall (s : State) (stall origin : Nat) : State :=
  let old := s.stallScope stall
  let oldImg := s.program stall
  let s0 := (s.stopCapts old (s.stallShadowScope stall)).devalue
  let new := s0.stallShadowScope stall
  let s1 := { s0 with stallActive := Tbl.put s0.stallActive stall { new with valid := false }
                      stallShadow := Tbl.put s0.stallShadow stall (old.asShadow s.cfgFmt stall) }
  (((((s1.castledPublications old new).castledCapts old new).castledProgram stall oldImg origin).buildSlices stall).resizeRegion stall (grantLedger stall (old.get 0x20 0))).castled s ntStallCastling stall

def State.castleScope (s : State) (stall origin : Nat) : State :=
  if stall = 0 then s.castleModule origin else s.castleStall stall origin

/-- Both sides are in step: an Active side and a Standby one that adopts its bells. -/
def State.bothInStep (s : State) : Bool := match s.active with
  | some a => s.inStep a.other
  | none => false

/-- An update is in progress (R431). -/
def State.updating (s : State) : Bool := decide (1 ≤ s.update.phase ∧ s.update.phase ≤ 5)

/-- Whether the sender is a Manager: the module itself counts as one. -/
def State.isManager (s : State) (h : CmdHdr) : Bool := match Tbl.find s.principals h.origin.toNat with
  | some p => u8 p.record 4 == 4
  | none => h.origin == 0

/-- The tasks of the shadow declare something that is no longer there or granted: after a module castling of the same bell
that is CONFLICT (R426). -/
def State.declaresGone (s : State) (stall : Nat) : Bool :=
  let t := s.trial stall
  match t.program stall with
  | none => false
  | some img => (tasksOf img).any fun k => (declsOf img k).any fun d => !t.declGranted stall d || (t.declSize stall img d).isNone

/-- The checks of R423. -/
def State.castleCheck (s : State) (h : CmdHdr) (stall : Nat) (solo : Bool) (digest : Bytes) : Option Status :=
  let c := s.stallShadowScope stall
  if !c.valid then
    some (if stall != 0 && s.moduleCastled == some s.now && c.digest == digest && s.declaresGone stall then .conflict else .state)
  else if c.digest ≠ digest then some .conflict
  else if !s.bothInStep && !(solo && s.isManager h) then some .conflict
  else if s.leaseConflict lkCastle then some .conflict
  else if s.updating then some .conflict
  else none

/-! ### Commands (R441) -/

/-- The scope and stall parameters: module 0 with stall 0, or stall 1 with 1 to 62. -/
def scopeArgs (p : Bytes) (off : Nat) : Bool :=
  (u8 p off == 0 && u8 p (off + 1) == 0) || (u8 p off == 1 && decide (1 ≤ u8 p (off + 1) ∧ u8 p (off + 1) ≤ 62))

def State.cfgStateWord (s : State) : Nat :=
  at_ (b2n s.modShadow.valid) 31 + at_ (b2n (!s.validations.isEmpty)) 30 + at_ (b2n (s.waiting.any fun w => w.op == 0x0205)) 29
    + at_ s.cfgFmt 16 + s.rd Rg.cfgState Fd.cfgStateCastlings

def State.cfgStallValidWord (s : State) : Nat := listSum (tenants.map fun st => if (s.stallShadowScope st).valid then 2 ^ st else 0)

def State.cfgDigestWord (s : State) : Nat := u64 s.configDigest 0

def cmdCfgStatus (h : CmdHdr) (_ : Bytes) (s : State) : CmdOut :=
  let item (st : Nat) : Bytes :=
    let c := s.stallShadowScope st
    beBytes 1 st ++ beBytes 1 (b2n c.valid) ++ zeros 2 ++ (if c.valid then fit 32 c.digest else zeros 32)
  let out := fitItems h 36 ((upto 63).map item)
  done s (beBytes 4 s.cfgStateWord ++ zeros 4 ++ beBytes 8 s.cfgStallValidWord ++ beBytes 8 s.cfgDigestWord ++ beBytes 8 (s.regWord Rg.cfgFail)
    ++ beBytes 1 out.length ++ beBytes 1 (if out.length = 63 then 0xFF else out.length) ++ zeros 2 ++ out.flatten)

/-- Chunks come in order from offset 0; the block is installed when it is complete, whole as R419 lays it out. -/
def cmdCfgLoadBlock (_ : CmdHdr) (p : Bytes) (s : State) : CmdOut :=
  let stall := u8 p 1
  let ty := u8 p 2
  let off := u32 p 4
  let total := u32 p 8
  let chunk := p.drop 12
  if !scopeArgs p 0 ∨ !(scopeTypes stall).contains ty ∨ u8 p 3 ≠ 0 ∨ total < off + chunk.length ∨ 7340032 < total then refuse s .range
  else
    let c := s.stallShadowScope stall
    let before := if off = 0 then [] else Tbl.getD c.loading ty []
    if before.length ≠ off then refuse s .range
    else
      let got := before ++ chunk
      let base := if off = 0 then c.clearBlock ty else c
      if got.length < total then
        done (s.modifyStallShadow stall fun _ => { base with loading := Tbl.put base.loading ty got, valid := false, digest := [] }) []
      else match readBlock stall got base.recs with
        | some (t, recs, rest) =>
          if t = ty ∧ rest.isEmpty then
            let kept := Tbl.del base.loading ty
            done (s.modifyStallShadow stall fun _ => { base with recs := markTaps recs, loading := kept, valid := false, digest := [] }) []
          else refuse s .range
        | none => refuse s (blockRefusal got)

/-- A FROM_HOST ring of stall 0 (R381). -/
def State.fromHostOf0 (s : State) (sd : SideId) (r : Nat) : Bool :=
  decide (r < 64) && s.rd (Rg.ringCfg sd r) Fd.ringCfgKind == 2 && s.rd (Rg.ringCfg sd r) Fd.ringCfgOwner == 0

/-- A load whose whole image both sides hold (R421). -/
def RingLoad.held (l : RingLoad) : Bool := !l.update && l.got.length == l.length

/-- At its bell an image that both sides hold replaces its shadow scope, or is refused (R421, R419, R65). -/
def State.placeImage (s : State) (l : RingLoad) : CmdOut :=
  let t := { s with ringLoads := dropFirst (fun x => x == l) s.ringLoads }
  match readSetImage s.cfgFmt l.got with
  | none => refuse t (imageRefusal s.cfgFmt l.got)
  | some (stall, recs) =>
    let body := changeBody 0x0202 0 l.hdr.seq.toNat (beBytes 1 l.ring ++ zeros 3 ++ beBytes 4 l.length)
    done ((t.loadShadow stall recs).abandonValidations.ledger ⟨0, l.hdr.stall.toNat, 0, lcChange, l.hdr.origin.toNat, recBody body, true, false⟩) []

/-- CFG_LOAD_RING starts a load; in the bell that lists it the image is there. -/
def cmdCfgLoadRing (h : CmdHdr) (p : Bytes) (s : State) : CmdOut :=
  match s.ringLoads.find? fun l => l.hdr == h && l.held with
  | some l => s.placeImage l
  | none =>
  if !s.fromHostOf0 h.side (u8 p 0) then refuse s .noRight
  else if u24 p 1 ≠ 0 ∨ u32 p 4 < 64 ∨ 7340032 < u32 p 4 then refuse s .range
  else ⟨{ s with ringLoads := s.ringLoads ++ [⟨h, false, u8 p 0, 0, u32 p 4, []⟩] }, .acceptedPending, []⟩

def cmdCfgCopy (_ : CmdHdr) (p : Bytes) (s : State) : CmdOut :=
  let stall := u8 p 1
  if !scopeArgs p 0 then refuse s .range
  else
    let recs := (s.stallScope stall).recs
    done (s.loadShadow stall recs) []

/-- The final status of a command that was answered ACCEPTED_PENDING (R406). -/
def State.final (s : State) (h : CmdHdr) (st : Status) (body : Bytes) : State := (s.noteOutcome h st s.now).crierFinal h.side h st body

/-- A validation ends (R422): CFG_FAIL and the final status, or VALID with its digest. -/
def State.endValidation (s : State) (stall : Nat) : State :=
  match Tbl.find s.validations stall with
  | none => s
  | some v =>
    let s1 := { s with validations := Tbl.del s.validations stall }
    if v.broken then s1.final v.hdr .conflict []
    else
      let s1 := s1.showDemand stall s.modShadow
      match s.validate stall with
      | some f =>
        (s1.putReg Rg.cfgFail (at_ f.status.code 48 + at_ f.ty 40 + at_ f.stall 32 + f.offset)).final v.hdr f.status
          (beBytes 1 f.ty ++ beBytes 1 f.stall ++ beBytes 4 f.offset)
      | none =>
        let c := s.stallShadowScope stall
        let good := { c with valid := true, digest := c.imageDigest s.cfgFmt stall }
        (if stall = 0 then { s1 with modShadow := good } else { s1 with stallShadow := Tbl.put s1.stallShadow stall good }).final v.hdr .ok []

/-- A validation ends within 2,400 ticks of its bell (R422). -/
def State.validationsEnd (s : State) : State :=
  s.validations.foldl (fun (t : State) e => if e.2.start + 2400 ≤ s.now then t.endValidation e.1 else t) s

/-- A validation already running for the scope ends first. -/
def cmdCfgValidate (h : CmdHdr) (p : Bytes) (s : State) : CmdOut :=
  let stall := u8 p 1
  if !scopeArgs p 0 then refuse s .range
  else
    let s1 := s.endValidation stall
    ⟨{ s1 with validations := Tbl.put s1.validations stall ⟨h, s.now, false⟩ }, .acceptedPending, []⟩

def cmdCastle (h : CmdHdr) (p : Bytes) (s : State) : CmdOut :=
  let stall := u8 p 1
  if !scopeArgs p 0 ∨ 1 < u8 p 2 ∨ u8 p 3 ≠ 0 then refuse s .range
  else match s.castleCheck h stall (bit (u8 p 2) 0) (sub p 4 32) with
    | some st => refuse s st
    | none => done (s.castleScope stall h.origin.toNat) []

def cmdCfgRead (_ : CmdHdr) (p : Bytes) (s : State) : CmdOut :=
  let stall := u8 p 2
  let n := u16 p 8
  if 1 < u8 p 0 ∨ !scopeArgs p 1 ∨ u8 p 3 ≠ 0 ∨ n = 0 ∨ 1000 < n then refuse s .range
  else
    let img := (if u8 p 0 = 0 then s.stallScope stall else s.stallShadowScope stall).image s.cfgFmt stall
    if img.length < u32 p 4 + n then refuse s .range else done s (sub img (u32 p 4) n)

/-- Manager for the module scope, Engineer for a stall scope. -/
def scopeRole : Bytes → Option CmdRole := fun p => some (if u8 p 0 = 0 then .manager else .engineer)

def specCfgStatus : CmdSpec := ⟨0x0200, always .observer, fun _ => false, lenIs 0, true, ownsNone, false, cmdCfgStatus⟩
def specCfgLoadBlock : CmdSpec :=
  ⟨0x0201, scopeRole, fun _ => true, fun p => decide (13 ≤ p.length ∧ p.length ≤ 1004), true, ownsNone, true, cmdCfgLoadBlock⟩
/-- Listed only when both sides hold the image: the row below makes its record. -/
def specCfgLoadRing : CmdSpec := ⟨0x0202, always .manager, fun _ => false, lenIs 8, true, ownsNone, false, cmdCfgLoadRing⟩
def specCfgCopy : CmdSpec := ⟨0x0203, scopeRole, fun _ => true, lenIs 2, true, ownsNone, true, cmdCfgCopy⟩
def specCfgValidate : CmdSpec := ⟨0x0204, scopeRole, fun _ => true, lenIs 2, true, ownsNone, true, cmdCfgValidate⟩
def specCastle : CmdSpec := ⟨0x0205, scopeRole, fun _ => true, lenIs 36, true, ownsNone, true, cmdCastle⟩
def specCfgRead : CmdSpec := ⟨0x0206, always .observer, fun _ => false, lenIs 10, true, ownsNone, false, cmdCfgRead⟩

def execCfgStatus (h : CmdHdr) (p : Bytes) (s : State) : Host.Outcome State Fault Refusal := runCmd specCfgStatus h p s
def execCfgLoadBlock (h : CmdHdr) (p : Bytes) (s : State) : Host.Outcome State Fault Refusal := runCmd specCfgLoadBlock h p s
def execCfgLoadRing (h : CmdHdr) (p : Bytes) (s : State) : Host.Outcome State Fault Refusal := runCmd specCfgLoadRing h p s
def execCfgCopy (h : CmdHdr) (p : Bytes) (s : State) : Host.Outcome State Fault Refusal := runCmd specCfgCopy h p s
def execCfgValidate (h : CmdHdr) (p : Bytes) (s : State) : Host.Outcome State Fault Refusal := runCmd specCfgValidate h p s
def execCastle (h : CmdHdr) (p : Bytes) (s : State) : Host.Outcome State Fault Refusal := runCmd specCastle h p s
def execCfgRead (h : CmdHdr) (p : Bytes) (s : State) : Host.Outcome State Fault Refusal := runCmd specCfgRead h p s

/-! ### Rows -/

def execValidationDone (stall : Fin 64) (s : State) : Host.Outcome State Fault Refusal := .next (s.endValidation stall.val)

/-- The receiving side can copy an image to the other side: over the cross-link, unless that side is Out (R421, R427). -/
def State.copyReaches (s : State) : Bool := bothSides.any (fun sd => (s.side sd).role == .out) || (s.xlinkUp .A && s.xlinkUp .B)

/-- The receiving side has read a whole image from a ring (R421): a bad one is refused; a good one is held by both sides,
and the command waits for its bell. -/
def State.imageHeld (s : State) (l : RingLoad) (image : Bytes) : State :=
  match readSetImage s.cfgFmt image with
  | none => s.final l.hdr (imageRefusal s.cfgFmt image) []
  | some _ => { s with
      ringLoads := s.ringLoads ++ [{ l with got := image }]
      waiting := s.waiting ++ [{ hdr := l.hdr, op := 0x0202, params := beBytes 1 l.ring ++ zeros 3 ++ beBytes 4 l.length, tick := 0
                                 answered := true, listed := true }] }

def execCfgRingImageHeld (image : Bytes) (s : State) : Host.Outcome State Fault Refusal :=
  .next (match s.ringLoads.find? fun l => !l.update && !l.held && l.length == image.length && s.copyReaches with
    | some l => ({ s with ringLoads := dropFirst (fun x => x == l) s.ringLoads }).imageHeld l image
    | none => s)

/-! ### Safety castling (R361) -/

def State.safeCastleCheck (s : State) (h : CmdHdr) (crc : Nat) : Option Status :=
  if !s.unlocked h.origin.toNat ∨ s.safePw.isNone then some .safetyPassword
  else if !s.forces.isEmpty then some .safetyLocked
  else if tableCrc s.safeShadow ≠ crc ∨ crc32c (patch s.safeShadow 8 (zeros 4)) ≠ crc then some .conflict
  else match s.validateTable with
    | some st => some st
    | none => if s.leaseConflict lkSafetyCastle ∨ s.updating then some .conflict else none

/-- The tables change places on both sides and in the Arbiter, and with them the GOOSE publications of stall 63, which no
other castling exchanges; unlocks end; changed instances, subscriptions and control blocks start afresh. The CHANGE
record carries the old and new CRCs. -/
def State.safeCastle (s : State) (origin : Nat) : State :=
  let old := s.safeActive
  let oldImg := s.program 63
  let was := s.stallScope 63
  let new := s.stallShadowScope 63
  let s1 := { s with safeActive := s.safeShadow, safeShadow := old, unlocks := []
                     stallActive := Tbl.put s.stallActive 63 new, stallShadow := Tbl.put s.stallShadow 63 was }
  let s2 := ((((s1.castledProgram 63 oldImg origin).buildSlices 63).startInsts old false).castledTelegrams old).castledPublications was new
  (((s2.keptFrom s).swapSlots 63).tick1 Rg.cfgState Fd.cfgStateCastlings).noticeRecord ⟨ntSafetyCastling, 63, 0, s.now, false⟩

def cmdSafeCastle (h : CmdHdr) (p : Bytes) (s : State) : CmdOut :=
  match s.safeCastleCheck h (u32 p 0) with
  | some st => refuse s st
  | none => done ((s.safeCastle h.origin.toNat).ledger ⟨0, 63, 0, lcChange, h.origin.toNat,
      recBody (changeBody 0x0D05 0 h.seq.toNat (beBytes 4 (tableCrc s.safeActive) ++ beBytes 4 (tableCrc s.safeShadow))), true, false⟩) []

/-- The CHANGE record of a SAFE_CASTLE that has been applied is made by the command itself. -/
def specSafeCastle : CmdSpec := ⟨0x0D05, always .safetyEngineer, fun _ => true, lenIs 4, false, fun _ _ st => st == 63, true, cmdSafeCastle⟩
def execSafeCastle (h : CmdHdr) (p : Bytes) (s : State) : Host.Outcome State Fault Refusal := runCmd specSafeCastle h p s

end Sys2Proof.Machine
end

