-- ==== Sys2Proof/Machine/Health.lean ====
section
/-! DEFINITION. Health, spares and maintenance (R456 to R471), and the failures of scan cores and clusters (R126, R127). -/

namespace Sys2Proof.Machine

/-! ### Scan cores and clusters (R114, R127, R459, R460) -/

def State.modHealth (s : State) (sd : SideId) (f : HealthSt → HealthSt) : State := s.modSide sd fun x => { x with health := f x.health }

/-- The physical position of logical core c of a cluster: the idle position has replaced the one it names. -/
def State.corePos (s : State) (sd : SideId) (l c : Nat) : Nat :=
  let r := Rg.clusterMap sd l
  if s.flag r Fd.clusterMapSpareUsed && s.rd r Fd.clusterMapIdlePos == c then 8 else c

/-- Clusters in service whose idle core is unused. -/
def State.countSpareCores (s : State) (sd : SideId) : State :=
  s.wr (Rg.healthSpares sd) Fd.healthSparesSpareCores
    ((upto 10).filter fun l => !s.flag (Rg.clusterMap sd l) Fd.clusterMapSpareUsed).length

/-- The stalls that a side's migrations of tick w name. -/
def DutySt.named (d : DutySt) (w : Nat) : List Nat := (d.migrated.filter fun e => e.1 == w).flatMap (·.2)

/-- The migration notice names the stalls (R57); those of the last ticks are kept until they have been compared. -/
def State.nameStalls (s : State) (sd : SideId) (l : List Nat) : State :=
  s.modDuty sd fun d => { d with migrated :=
    (d.migrated.filter fun e => decide (s.now < e.1 + 4) && e.1 != s.now) ++ [(s.now, (d.named s.now ++ l).eraseDups)] }

/-- Every activation of a cluster in this tick is aborted with DISCARD: those in progress or queued, and those that have
committed already. -/
def State.discardCluster (s : State) (sd : SideId) (l : Nat) : State :=
  (upto 8).foldl (fun (t : State) c =>
    ((t.discardCore sd (8 * l + c) .discard).takeBack sd (8 * l + c)).nameStalls sd (s.stallsOn s.now (8 * l + c))) s

/-- A cluster fails (R127): its migration falls in a Guard phase. -/
def State.clusterFails (s : State) (sd : SideId) (l : Nat) (bad : Bool) : State :=
  let unit := 3 + s.physCluster sd l
  let s1 := (s.logFault sd (unitAddr 4 sd unit) 0).discardCluster sd l
  if s1.rd (Rg.healthSpares sd) Fd.healthSparesSpareClusters ≤ (s1.side sd).health.migrating.length then
    (s1.unitFailed sd unit).demote sd rcSelf
  else s1.modHealth sd fun h => { h with migrating := h.migrating ++ [(l, bad)] }

/-- A scan core fails: its spare takes over from the next tick, or the fault is the cluster's (R10). -/
def State.coreFails (s : State) (sd : SideId) (n : Nat) (reason : AbortReason) : State :=
  let l := n / 8
  let c := n % 8
  let r := Rg.clusterMap sd l
  let unit := 3 + s.physCluster sd l
  let s1 := s.logFault sd (tileAddr sd unit (s.corePos sd l c)) 0
  let s2 := (s1.discardCore sd n reason).nameStalls sd (s.stallsOn s.now n)
  if s.flag r Fd.clusterMapSpareUsed then s2.clusterFails sd l false
  else
    let s3 := ((s2.setFlag r Fd.clusterMapSpareUsed true).wr r Fd.clusterMapIdlePos c).countSpareCores sd
    s3.partEvent sd lcSpareIn (tileAddr sd unit 8) 0

/-- The stalls with a task on a cluster. -/
def State.stallsIn (s : State) (l : Nat) : List Nat := allStalls.filter fun st => (s.tasks st).any fun t => t.cluster == l

/-- A stall of a standby side takes its state from the active side (R57, R59): its tasks, their presented images, the
state of its publications and of its CAN buffers. -/
def State.copyStall (s : State) (src dst : SideId) (stall : Nat) : State :=
  let a := s.side src
  let mine (ty : Nat) (i : Nat) : Bool := ((s.stallScope stall).get ty i).isSome
  let merge {α : Type} (keep : Nat → Bool) (x y : Tbl α) : Tbl α :=
    (y.filter fun e => keep e.1).foldl (fun l e => Tbl.put l e.1 e.2) (x.filter fun e => !keep e.1)
  (s.tasks stall).foldl (fun (t : State) k => t.putTaskSt dst stall k.task (t.taskSt src stall k.task)) <|
    s.modSide dst fun x => { x with
      presented := merge (fun k => k / 16 == stall) x.presented a.presented
      goosePubs := merge (mine 0x22) x.goosePubs a.goosePubs
      svAsdus := merge (mine 0x23) x.svAsdus a.svAsdus
      teleCount := if stall = 63 then a.teleCount else x.teleCount }

/-- The stalls a standby side must take over from the active side. -/
def State.healStalls (s : State) (sd : SideId) : State :=
  match s.active with
  | some a =>
    if a ≠ sd ∧ (s.side sd).role = .standby then
      let l := (s.side sd).health.stale
      let s1 := l.foldl (fun (t : State) st => t.copyStall a sd st) s
      s1.modSide sd fun x => { x with health := { x.health with stale := [] }, withheld := x.withheld.filter fun st => !l.contains st }
    else s
  | none => s

/-- A side whose copies of some stalls can not be trusted (R461, R59): a standby side takes them from the active side; an
active side with an in-step standby hands the Active role over, its notice in the next bell, and then takes them as
Standby; without one it resets them. -/
def State.giveUp (s : State) (sd : SideId) (stalls : List Nat) : State :=
  let stale (t : State) : State := t.modHealth sd fun h => { h with stale := (h.stale ++ stalls).eraseDups }
  let bell := if s.open_ then s.now + 1 else s.now
  match (s.side sd).role with
  | .active =>
    if s.inStep sd.other then
      let arg := if sd = .A then 2 + 3 * 4 else 3 + 2 * 4
      (stale { s with handoverAt := some (bell + 1) }).addNotice ⟨ntRoleChange, 0, arg, bell + 1, false⟩
    else stalls.foldl (fun (t : State) st => t.addNotice ⟨ntStallReset, st, 0, bell, false⟩) s
  | .standby => stale s
  | _ => s

/-- The spare clusters of a side, lower physical number first: neither in service nor retired. -/
def State.spareClusters (s : State) (sd : SideId) : List Nat :=
  (upto 12).filter fun p => !(upto 10).any (fun l => s.physCluster sd l == p) && !(s.side sd).health.retired.contains p

/-- The migration of a Guard phase (R460): the lower spare cluster takes the logical number; its own idle core may be gone. -/
def State.migrate (s : State) (sd : SideId) : State :=
  match (s.side sd).health.migrating, s.spareClusters sd with
  | (l, bad) :: rest, phys :: spares =>
    let idle := match Tbl.find (s.side sd).health.spareIdle phys with
      | some c => 2 ^ 8 + c * 16
      | none => 8 * 16
    let s1 := (s.putReg (Rg.clusterMap sd l) (2 ^ 9 + idle + phys)).wr (Rg.healthSpares sd) Fd.healthSparesSpareClusters spares.length
    let s2 := ((s1.countSpareCores sd).modHealth sd fun h =>
      { h with migrating := rest, retired := h.retired ++ [s.physCluster sd l] }).partEvent sd lcSpareIn (unitAddr 4 sd (3 + phys)) 0
    if bad then s2.giveUp sd (s2.stallsIn l) else s2
  | _, _ => s

/-- At a boot spare clusters come in before the self-test ends (R462). -/
def State.migrateAll (s : State) (sd : SideId) : State := (s.side sd).health.migrating.foldl (fun (t : State) _ => t.migrate sd) s

/-- Clusters still waiting for their migration lose this tick too. -/
def State.discardWaiting (s : State) (sd : SideId) : State :=
  (s.side sd).health.migrating.foldl (fun (t : State) e => t.discardCluster sd e.1) s

/-! ### Other parts -/

/-- A conditioning lane group is retired: the group under rotating test serves in its place and the test stops (R459);
without a spare the side has failed (R10). A group that the rotating test holds has failed in two consecutive ticks: the
first of them is recorded before the fault (R456, R464); no other group comes in. -/
def State.laneGroupFails (s : State) (sd : SideId) (g : Nat) : State :=
  let r := Rg.healthSpares sd
  let t := Rg.healthTest sd
  let tested := s.flag t Fd.healthTestRotationOn && s.rd t Fd.healthTestLaneGroup == g
  let s0 := if tested then s.partEvent sd lcTestFail (tileAddr sd 0x02 g) 0 else s
  let s1 := s0.logFault sd (tileAddr sd 0x02 g) 0
  if s.flag r Fd.healthSparesSpareLaneGroup then
    let s2 := (s1.setFlag r Fd.healthSparesSpareLaneGroup false).setFlag t Fd.healthTestRotationOn false
    if tested then s2 else s2.partEvent sd lcSpareIn (tileAddr sd 0x02 (s.rd t Fd.healthTestLaneGroup)) 0
  else s1.sideFault sd (unitAddr 4 sd 0x02)

/-- A management core fails: the fifth takes over (R459). Where the fifth itself fails as the spare, nothing else changes. -/
def State.mgmtCoreFails (s : State) (sd : SideId) (core : Nat) : State :=
  let r := Rg.healthSpares sd
  let s0 := s.logFault sd (tileAddr sd 0x00 core) 0
  let s1 := s0.modSide sd fun x => { x with console := [] }
  if s.flag r Fd.healthSparesSpareMgmt && core == 4 then s0.setFlag r Fd.healthSparesSpareMgmt false
  else if s.flag r Fd.healthSparesSpareMgmt then
    (s1.setFlag r Fd.healthSparesSpareMgmt false).partEvent sd lcSpareIn (tileAddr sd 0x00 4) 0
  else s1.sideFault sd (unitAddr 4 sd 0x00)

/-- A sector of the non-volatile store gives way to a spare one; with none left writes fail, a side fault (R9). -/
def State.retireSector (s : State) (sd : SideId) (part : Nat) : State :=
  let r := Rg.healthSpares sd
  let left := s.rd r Fd.healthSparesSpareSectors
  if left = 0 then s.sideFault sd (unitAddr 4 sd 0x1A)
  else (s.wr r Fd.healthSparesSpareSectors (left - 1)).partEvent sd lcSpareIn part 0

/-- The records in a lost 4 KiB sector of a segment are records no more; pads stand where they stood. -/
def LSeg.loseSector (x : LSeg) (k : Nat) : LSeg :=
  let cut (a : Nat × List LRec) (r : LRec) : Nat × List LRec :=
    let stop := a.1 + r.length
    let lost := decide (a.1 < 4096 * (k + 1) ∧ 4096 * k < stop)
    (stop, a.2 ++ [if lost then { r with cls := 3, code := 0, body := zeros r.body.length } else r])
  { x with recs := (x.recs.foldl cut (32, [])).2 }

/-- An uncorrectable sector of the store (R458): one of the module area or of the configuration store is copied from the
other side; one of the side area is lost with its records; a key slot in it becomes BAD. Which lies in a sector is the
construction of the unit. -/
def State.loseSector (s : State) (sd : SideId) (sector : Nat) : State :=
  let s1 := (upto 64).foldl (fun (t : State) k => if Config.keySector sd k == sector then t.slotBad sd k else t) s
  match Config.sideSector sd sector with
  | none => s1
  | some i => s1.modSide sd fun x => { x with sideArea := { x.sideArea with
      segs := x.sideArea.segs.map fun g => if g.place == i / 16 then g.loseSector (i % 16) else g } }

/-- A spare cluster fails: it is a spare no more (R10). A cluster that waited to migrate to it has no spare left. -/
def State.spareFails (s : State) (sd : SideId) (phys : Nat) : State :=
  let s1 := (s.logFault sd (unitAddr 4 sd (3 + phys)) 0).modHealth sd fun h => { h with retired := h.retired ++ [phys] }
  let left := (s1.spareClusters sd).length
  let s2 := s1.wr (Rg.healthSpares sd) Fd.healthSparesSpareClusters left
  match (s2.side sd).health.migrating.drop left with
  | e :: _ => (s2.unitFailed sd (3 + s2.physCluster sd e.1)).demote sd rcSelf
  | [] => s2

/-- A core of a spare cluster fails: the cluster has one to lose. -/
def State.spareCoreFails (s : State) (sd : SideId) (phys core : Nat) : State :=
  let s1 := s.logFault sd (tileAddr sd (3 + phys) core) 0
  if (Tbl.find (s.side sd).health.spareIdle phys).isSome then s1.spareFails sd phys
  else s1.modHealth sd fun h => { h with spareIdle := Tbl.put h.spareIdle phys core }

/-- A part of a scan cluster fails: a core when the tile names one, else the cluster (R9). A part retired already changes
nothing. -/
def State.clusterPart (s : State) (sd : SideId) (part : Nat) : State :=
  let phys := partUnit part - 3
  let tile := partTile part
  match (upto 10).find? fun l => s.physCluster sd l == phys with
  | none =>
    if (s.side sd).health.retired.contains phys then s
    else if 8 < tile then s.spareFails sd phys
    else s.spareCoreFails sd phys tile
  | some l =>
    let r := Rg.clusterMap sd l
    let idle := s.rd r Fd.clusterMapIdlePos
    if 8 < tile then s.clusterFails sd l false
    else if !s.flag r Fd.clusterMapSpareUsed ∧ tile = idle then
      ((s.logFault sd (tileAddr sd (3 + phys) tile) 0).setFlag r Fd.clusterMapSpareUsed true).countSpareCores sd
    else if s.flag r Fd.clusterMapSpareUsed ∧ tile = idle then s
    else s.coreFails sd (8 * l + (if tile = 8 then idle else tile)) .discard

/-- A part of a side fails at level 2 to 4 (R9, R10): its spare takes over, or the fault is that of the part above it.
A cross-link lane without a spare left has the effect of R18. The Bool says that the part's own level or R18 took it. -/
def State.retirePart (s : State) (sd : SideId) (part : Nat) : State × Bool :=
  let u := partUnit part
  let r := Rg.healthSpares sd
  if 3 ≤ u ∧ u ≤ 0x0E then (s.clusterPart sd part, true)
  else if u = 0x1A ∧ partLevel part = 2 then ((s.logFault sd part 0).retireSector sd part, true)
  else if u = 0x11 ∧ partTile part ≤ 10 then
    ((serdesLane (partTile part)).elim s (s.logFault sd part 0).failLane, true)
  else if u = 0x02 ∧ partTile part ≤ 32 ∧ s.flag r Fd.healthSparesSpareLaneGroup then (s.laneGroupFails sd (partTile part), true)
  else if u = 0x00 ∧ partTile part ≤ 4 ∧ s.flag r Fd.healthSparesSpareMgmt then (s.mgmtCoreFails sd (partTile part), true)
  else (s.logFault sd part 0, false)

/-- A side's part fails for good: what no spare of its level or above takes is a side fault. -/
def State.partFails (s : State) (sd : SideId) (part : Nat) : State :=
  let r := s.retirePart sd part
  if r.2 then r.1 else (r.1.unitFailed sd (partUnit part)).demote sd rcSelf

/-- An uncorrectable word (R458): the array's fault, and that of the tile or unit that holds it. -/
def State.uncorrectable (s : State) (sd : SideId) (part word : Nat) : State :=
  let u := partUnit part
  let s1 := s.logFault sd part (2 * 2 ^ 30 + word % 2 ^ 29)
  if u = 0x1A then (s1.loseSector sd (part % 2 ^ 14)).retireSector sd part
  else if u = 0x19 then s1.sideFault sd (unitAddr 6 sd u)
  else
    let s2 := s1.logFault sd (partAddr 2 sd.code u (partTile part) (part % 2 ^ 14)) 0
    if 3 ≤ u ∧ u ≤ 0x0E then s2.clusterPart sd part
    else if u = 0x02 ∧ partTile part ≤ 32 then s2.laneGroupFails sd (partTile part)
    else if u = 0x00 ∧ partTile part ≤ 4 then s2.mgmtCoreFails sd (partTile part)
    else s2.sideFault sd (unitAddr 4 sd u)

/-- Where corrected errors are counted: the page of DRAM; the row and the column of an SRAM macro. -/
def correctedKeys (part word : Nat) : List Nat :=
  let w := word % 2 ^ 29
  let place (k : Nat) : Nat := part * 2 ^ 32 + k
  if partUnit part = 0x19 then [place (w / 512)] else [place (2 * Config.macroRow w), place (2 * Config.macroColumn w + 1)]

/-- The corrected errors of the last 24 h at a place, this one included. -/
def State.correctedAt (s : State) (sd : SideId) (k : Nat) : List Nat :=
  ((Tbl.getD (s.side sd).health.corrected k []).filter fun t => decide (s.now < t + 414720000)) ++ [s.now]

/-- A row or column enters the repair log of its macro, once (R458). -/
def HealthSt.enter (h : HealthSt) (part k : Nat) : HealthSt :=
  { h with repair := Tbl.put h.repair part ((Tbl.getD h.repair part []) ++ [k]).eraseDups }

/-- A corrected error (R458): counted and recorded; three in one page, row or column within 24 h are a repeated one. A row
that has reached three is entered in the repair log, else the column that has. -/
def State.correctedErr (s : State) (sd : SideId) (part word nbits : Nat) : State :=
  let s1 := (s.tick1 (Rg.healthCorrected sd) Fd.healthCorrectedCount).logFaultAs sd lcCorrected part (word % 2 ^ 29)
  if partUnit part = 0x1A then (if 3 ≤ nbits then s1.retireSector sd part else s1)
  else
    let keys := correctedKeys part word
    let full := keys.find? fun k => decide (3 ≤ (s1.correctedAt sd k).length)
    let seen (t : State) (k : Nat) (c : Tbl (List Nat)) : Tbl (List Nat) :=
      if full.isSome then Tbl.del c k else Tbl.put c k (t.correctedAt sd k)
    let s2 := keys.foldl (fun (t : State) k => t.modHealth sd fun h => { h with corrected := seen t k h.corrected }) s1
    match full with
    | none => s2
    | some k =>
      let s3 := s2.logFaultAs sd lcCorrected part (2 ^ 30 + word % 2 ^ 29)
      if partUnit part = 0x19 then s3 else s3.modHealth sd fun h => h.enter part (k % 2 ^ 32)

/-- The rows and the columns that the repair log of a macro replaces, against its spares (R9). -/
def rowsOf (l : List Nat) : Nat := (l.filter (· % 2 == 0)).length
def columnsOf (l : List Nat) : Nat := (l.filter (· % 2 == 1)).length
def spareRows (part : Nat) : Nat := 2 + Config.moreSpareRows part
def spareColumns (part : Nat) : Nat := 2 + Config.moreSpareColumns part

/-- At a boot each side applies its repair log (R462): a macro that needs more rows or columns than it has spare retires
its tile; MACROS_EXHAUSTED counts the macros with no spare row or column left. -/
def State.applyRepair (s : State) (sd : SideId) : State :=
  let log := (s.side sd).health.repair
  let spent := log.filter fun e => decide (spareRows e.1 ≤ rowsOf e.2) || decide (spareColumns e.1 ≤ columnsOf e.2)
  let beyond := log.filter fun e => decide (spareRows e.1 < rowsOf e.2) || decide (spareColumns e.1 < columnsOf e.2)
  let s1 := s.wr (Rg.healthSpares sd) Fd.healthSparesMacrosExhausted (min 2047 spent.length)
  let s2 := beyond.foldl (fun (t : State) e =>
    let r := (t.logFault sd e.1 0).retirePart sd e.1
    if r.2 then r.1 else r.1.modHealth sd fun h => { h with unfit := true }) s1
  s2.migrateAll sd

/-- The rotating test moves on and test programs complete their passes (R456); `HEALTH_TEST` shows them. -/
def State.rotateTests (s : State) (sd : SideId) : State :=
  let r := Rg.healthTest sd
  let s1 := if s.flag r Fd.healthTestRotationOn then s.wr r Fd.healthTestLaneGroup ((s.rd r Fd.healthTestLaneGroup + 1) % 33) else s
  let age := s.now - (s.side sd).health.boot
  let s2 := s1.wr r Fd.healthTestPatrolPct (age % 414720000 * 100 / 414720000)
  if 0 < age ∧ age % 4800 = 0 then s2.tick1 r Fd.healthTestSparePasses else s2

/-- HEALTH_SPARES with the spare lanes that are usable now. -/
def State.healthSparesWord (s : State) (sd : SideId) : Nat :=
  setBits (s.regWord (Rg.healthSpares sd)) 24 23 ([0, 1].filter fun k => s.spareFor k == 15 && !s.xlink.badSpares.contains k).length

/-! ### Commands (R471) -/

/-- Spares remaining at a level (R9). -/
def State.sparesAt (s : State) (sd : SideId) (level : Nat) : Nat :=
  let w := s.healthSparesWord sd
  match level with
  | 2 => bits w 21 11
  | 3 => bits w 29 26 + bits w 25 25 + bits w 24 23
  | 4 => bits w 31 30 + bits w 22 22
  | 6 => b2n (s.inStep sd.other)
  | _ => 0

def cmdHealthReport (_ : CmdHdr) (p : Bytes) (s : State) : CmdOut :=
  if 1 < u8 p 0 ∨ 7 < u8 p 1 then refuse s .range
  else
    let sd := sideArg p 0
    let levels := if u8 p 1 = 0 then [1, 2, 3, 4, 5, 6, 7] else [u8 p 1]
    done s ((levels.flatMap fun l => beBytes 2 (s.sparesAt sd l) ++ beBytes 2 (min 65535 ((s.side sd).health.found.getD (l - 1) 0)))
      ++ beBytes 4 (s.healthSparesWord sd) ++ beBytes 4 (s.regWord (Rg.healthFaults sd)) ++ beBytes 4 (s.regWord (Rg.healthTest sd)))

def cmdHealthFaults (h : CmdHdr) (p : Bytes) (s : State) : CmdOut :=
  if 1 < u8 p 0 ∨ 63 < u8 p 1 ∨ u8 p 2 = 0 ∨ 64 < u8 p 2 then refuse s .range
  else
    let sd := sideArg p 0
    let n := min (u8 p 2) (min 64 (s.rd (Rg.faultHead sd) Fd.faultHeadTotal))
    done s ((fitItems h 0 ((upto n).map fun k => beBytes 8 (s.regWord (Rg.faultLog sd ((u8 p 1 + 64 - k) % 64))))).flatMap id)

def cmdHealthDeepTest (h : CmdHdr) (p : Bytes) (s : State) : CmdOut :=
  if 1 < u8 p 0 then refuse s .range
  else
    let sd := sideArg p 0
    if !s.inStep sd then refuse s .state
    else if s.leaseConflict lkDeepTest then refuse s .conflict
    else
      let s1 := ((s.takeLease lkDeepTest sd.code h.origin.toNat).goOut sd rcSideOut).setFlag (Rg.healthTest sd) Fd.healthTestDeepTest true
      let s2 := s1.modDuty sd fun d => { d with tested := false, resync := { d.resync with hdr := some h } }
      ⟨s2.partEvent sd lcDeepTest (unitAddr 6 sd 0x1F) 0, .acceptedPending, []⟩

/-- Whether a part address names a part (R11, R12). -/
def partKnown (a : Nat) : Bool :=
  let u := partUnit a
  decide (1 ≤ partLevel a ∧ partLevel a ≤ 7) && (match partDomain a with
    | 0 | 1 => decide (partLevel a ≤ 6)
    | 2 => decide (u ≤ 1)
    | _ => decide (u ≤ 3) || u == 0x1F)

/-- The last result of a part's test, 0 passed and 1 failed, and its tick: that of its rotation for a lane group, else a
tick that nothing fixes. -/
def cmdHealthTestUnit (_ : CmdHdr) (p : Bytes) (s : State) : CmdOut :=
  let a := u32 p 0
  let sd : SideId := if partDomain a = 1 then .B else .A
  let g := s.rd (Rg.healthTest sd) Fd.healthTestLaneGroup
  let rotating := s.flag (Rg.healthTest sd) Fd.healthTestRotationOn
  let lane := decide (partDomain a ≤ 1) && partUnit a == 0x02 && decide (partTile a ≤ 32)
  if !partKnown a then refuse s .range
  else if lane && rotating && partTile a == g then refuseWith s .busyTest (beBytes 8 (s.now + 1))
  else
    let failed := (upto 64).any fun i => s.regWord (Rg.faultLog sd i) / 2 ^ 32 == a
    if lane && rotating then done s (beBytes 1 (b2n failed) ++ zeros 7 ++ beBytes 8 (s.now - (g + 33 - partTile a) % 33))
    else done s.free.2 (beBytes 1 (b2n failed) ++ zeros 7 ++ beBytes 8 (s.now - s.free.1.toNat))

def cmdMaintLeases (_ : CmdHdr) (_ : Bytes) (s : State) : CmdOut :=
  done s ((upto 4).flatMap fun i => beBytes 8 (s.leaseWord i) ++ beBytes 8 (match s.leases[i]? with
    | some l => l.start
    | none => 0))

def specHealthReport : CmdSpec := ⟨0x1200, always .observer, fun _ => false, lenIs 2, true, ownsNone, false, cmdHealthReport⟩
def specHealthFaults : CmdSpec := ⟨0x1201, always .observer, fun _ => false, lenIs 3, true, ownsNone, false, cmdHealthFaults⟩
def specHealthDeepTest : CmdSpec := ⟨0x1202, always .manager, fun _ => true, lenIs 1, true, ownsNone, true, cmdHealthDeepTest⟩
def specHealthTestUnit : CmdSpec := ⟨0x1203, always .engineer, fun _ => false, lenIs 4, true, ownsNone, false, cmdHealthTestUnit⟩
def specMaintLeases : CmdSpec := ⟨0x1204, always .observer, fun _ => false, lenIs 0, true, ownsNone, false, cmdMaintLeases⟩

def execHealthReport (h : CmdHdr) (p : Bytes) (s : State) : Host.Outcome State Fault Refusal := runCmd specHealthReport h p s
def execHealthFaults (h : CmdHdr) (p : Bytes) (s : State) : Host.Outcome State Fault Refusal := runCmd specHealthFaults h p s
def execHealthDeepTest (h : CmdHdr) (p : Bytes) (s : State) : Host.Outcome State Fault Refusal := runCmd specHealthDeepTest h p s
def execHealthTestUnit (h : CmdHdr) (p : Bytes) (s : State) : Host.Outcome State Fault Refusal := runCmd specHealthTestUnit h p s
def execMaintLeases (h : CmdHdr) (p : Bytes) (s : State) : Host.Outcome State Fault Refusal := runCmd specMaintLeases h p s

/-! ### Rows -/

def execCoreFailure (c : CoreRef) (s : State) : Host.Outcome State Fault Refusal := .next (s.coreFails c.side c.core.val .discard)

def execClusterFailure (sd : SideId) (cluster : Fin 10) (uncorrectable : Bool) (s : State) : Host.Outcome State Fault Refusal :=
  .next (s.clusterFails sd cluster.val uncorrectable)

/-- An activation still running at 195.0 µs (R125, R126): WINDOW, and its core counts as faulty. -/
def execWindowAbort (c : CoreRef) (s : State) : Host.Outcome State Fault Refusal :=
  .next (if (s.coreSt c.side c.core.val).cur.isSome then s.coreFails c.side c.core.val .window else s)

def execCorrectedError (sd : SideId) (part word : Word) (nbits : BitVec 3) (s : State) : Host.Outcome State Fault Refusal :=
  .next (s.correctedErr sd part.toNat word.toNat nbits.toNat)
def execUncorrectableError (sd : SideId) (part word : Word) (s : State) : Host.Outcome State Fault Refusal :=
  .next (s.uncorrectable sd part.toNat word.toNat)

/-- A hardware fault that a unit or a test slice reports (R9, R10, R456), at the level its part address gives: an array,
a tile or unit with its spares, a whole side, or a part of the module, the Arbiter die among them. -/
def execUnitFault (sd : SideId) (part : Word) (s : State) : Host.Outcome State Fault Refusal :=
  let a := part.toNat
  .next (if 2 ≤ partDomain a then s.moduleFault a
    else if partLevel a = 1 then s.uncorrectable sd a 0
    else if partLevel a ≤ 4 then s.partFails sd a
    else s.sideFault sd a)

/-- Which management core failed is open. -/
def execMgmtCoreFail (sd : SideId) (s : State) : Host.Outcome State Fault Refusal :=
  .next (s.free.2.mgmtCoreFails sd (s.free.1.toNat % 5))

/-- A deep test ends (R466): on a pass the side rejoins within the same lease. -/
def execDeepTestDone (sd : SideId) (pass : Bool) (s : State) : Host.Outcome State Fault Refusal :=
  if !s.flag (Rg.healthTest sd) Fd.healthTestDeepTest then .next s
  else
    let s1 := (s.setFlag (Rg.healthTest sd) Fd.healthTestDeepTest false).partEvent sd lcDeepTest (unitAddr 6 sd 0x1F) (1 + b2n (!pass))
    let s2 := s1.modDuty sd fun d => { d with tested := pass }
    .next (if pass then
        if s2.joinReady sd && s2.guardMet sd then s2.startJoin sd
        else s2.modResync sd fun r => { r with retryAt := some (s.now + 4800) }
      else ((s2.logFault sd (unitAddr 6 sd 0x1F) 0).answerJoin sd .internal).endLeaseOf lkDeepTest sd.code)

/-- More than 10 errors in a second on an idle spare lane (R456). -/
def execPrbsLaneErrors (sd : SideId) (lane : Fin 2) (errors : BitVec 16) (s : State) : Host.Outcome State Fault Refusal :=
  if s.spareFor lane.val ≠ 15 then .next s
  else
    let s1 := s.count (Rg.xlinkLanes sd) Fd.xlinkLanesPrbsErrs errors.toNat
    .next (if 10 < errors.toNat ∧ !s.xlink.badSpares.contains lane.val then
        ({ s1 with xlink := { s1.xlink with badSpares := s1.xlink.badSpares ++ [lane.val] } }).logFault sd (tileAddr sd 0x11 (9 + lane.val)) 0
      else s1)

end Sys2Proof.Machine
end

