-- ==== Sys2Proof/Machine/Hyrra.lean ====
section
/-! DEFINITION. The commands of Hyrra Scan Code: each runs its instruction on the activation in progress on a core. -/

namespace Sys2Proof.Machine

/-- NOP (R147): does nothing for one cycle. -/
def execNop (core : CoreRef) (s : State) : Host.Outcome State Fault Refusal :=
  runHsc core actNop s

/-- HALT (R162): ends the activation and commits pending lines and held requests. -/
def execHalt (core : CoreRef) (s : State) : Host.Outcome State Fault Refusal :=
  runHsc core actHalt s

/-- MFS (R147): copies a special register to a general register. -/
def execMfs (core : CoreRef) (d sp : BitVec 5) (s : State) : Host.Outcome State Fault Refusal :=
  runHscIf (decide (sp.toNat ≤ 3)) core (actMfs d sp) s

/-- ADD (R147): integer add. -/
def execAdd (core : CoreRef) (d a b : BitVec 5) (s : State) : Host.Outcome State Fault Refusal :=
  runHsc core (actAdd d a b) s

/-- SUB (R147): integer subtract. -/
def execSub (core : CoreRef) (d a b : BitVec 5) (s : State) : Host.Outcome State Fault Refusal :=
  runHsc core (actSub d a b) s

/-- AND (R147): bitwise and. -/
def execAnd (core : CoreRef) (d a b : BitVec 5) (s : State) : Host.Outcome State Fault Refusal :=
  runHsc core (actAnd d a b) s

/-- OR (R147): bitwise or. -/
def execOr (core : CoreRef) (d a b : BitVec 5) (s : State) : Host.Outcome State Fault Refusal :=
  runHsc core (actOr d a b) s

/-- XOR (R147): bitwise exclusive or. -/
def execXor (core : CoreRef) (d a b : BitVec 5) (s : State) : Host.Outcome State Fault Refusal :=
  runHsc core (actXor d a b) s

/-- SHL (R147): shift left by register. -/
def execShl (core : CoreRef) (d a b : BitVec 5) (s : State) : Host.Outcome State Fault Refusal :=
  runHsc core (actShl d a b) s

/-- SHR (R147): logical shift right by register. -/
def execShr (core : CoreRef) (d a b : BitVec 5) (s : State) : Host.Outcome State Fault Refusal :=
  runHsc core (actShr d a b) s

/-- SRA (R147): arithmetic shift right by register. -/
def execSra (core : CoreRef) (d a b : BitVec 5) (s : State) : Host.Outcome State Fault Refusal :=
  runHsc core (actSra d a b) s

/-- MUL (R147): low 32 bits of a product. -/
def execMul (core : CoreRef) (d a b : BitVec 5) (s : State) : Host.Outcome State Fault Refusal :=
  runHsc core (actMul d a b) s

/-- MULH (R147): high 32 bits of a signed product. -/
def execMulh (core : CoreRef) (d a b : BitVec 5) (s : State) : Host.Outcome State Fault Refusal :=
  runHsc core (actMulh d a b) s

/-- MULHU (R147): high 32 bits of an unsigned product. -/
def execMulhu (core : CoreRef) (d a b : BitVec 5) (s : State) : Host.Outcome State Fault Refusal :=
  runHsc core (actMulhu d a b) s

/-- DIV (R147): signed division. -/
def execDiv (core : CoreRef) (d a b : BitVec 5) (s : State) : Host.Outcome State Fault Refusal :=
  runHsc core (actDiv d a b) s

/-- DIVU (R147): unsigned division. -/
def execDivu (core : CoreRef) (d a b : BitVec 5) (s : State) : Host.Outcome State Fault Refusal :=
  runHsc core (actDivu d a b) s

/-- REM (R147): signed remainder. -/
def execRem (core : CoreRef) (d a b : BitVec 5) (s : State) : Host.Outcome State Fault Refusal :=
  runHsc core (actRem d a b) s

/-- REMU (R147): unsigned remainder. -/
def execRemu (core : CoreRef) (d a b : BitVec 5) (s : State) : Host.Outcome State Fault Refusal :=
  runHsc core (actRemu d a b) s

/-- MIN (R147): signed minimum. -/
def execMin (core : CoreRef) (d a b : BitVec 5) (s : State) : Host.Outcome State Fault Refusal :=
  runHsc core (actMin d a b) s

/-- MAX (R147): signed maximum. -/
def execMax (core : CoreRef) (d a b : BitVec 5) (s : State) : Host.Outcome State Fault Refusal :=
  runHsc core (actMax d a b) s

/-- MINU (R147): unsigned minimum. -/
def execMinu (core : CoreRef) (d a b : BitVec 5) (s : State) : Host.Outcome State Fault Refusal :=
  runHsc core (actMinu d a b) s

/-- MAXU (R147): unsigned maximum. -/
def execMaxu (core : CoreRef) (d a b : BitVec 5) (s : State) : Host.Outcome State Fault Refusal :=
  runHsc core (actMaxu d a b) s

/-- ADDI (R147): add sign-extended immediate. -/
def execAddi (core : CoreRef) (d a : BitVec 5) (imm : BitVec 11) (s : State) : Host.Outcome State Fault Refusal :=
  runHsc core (actAddi d a imm) s

/-- ANDI (R147): bitwise and with immediate. -/
def execAndi (core : CoreRef) (d a : BitVec 5) (imm : BitVec 11) (s : State) : Host.Outcome State Fault Refusal :=
  runHsc core (actAndi d a imm) s

/-- ORI (R147): bitwise or with immediate. -/
def execOri (core : CoreRef) (d a : BitVec 5) (imm : BitVec 11) (s : State) : Host.Outcome State Fault Refusal :=
  runHsc core (actOri d a imm) s

/-- XORI (R147): bitwise exclusive or with immediate. -/
def execXori (core : CoreRef) (d a : BitVec 5) (imm : BitVec 11) (s : State) : Host.Outcome State Fault Refusal :=
  runHsc core (actXori d a imm) s

/-- SHLI (R147): shift left by immediate. -/
def execShli (core : CoreRef) (d a : BitVec 5) (imm : BitVec 11) (s : State) : Host.Outcome State Fault Refusal :=
  runHscIf (decide (imm.toNat < 32)) core (actShli d a imm) s

/-- SHRI (R147): logical shift right by immediate. -/
def execShri (core : CoreRef) (d a : BitVec 5) (imm : BitVec 11) (s : State) : Host.Outcome State Fault Refusal :=
  runHscIf (decide (imm.toNat < 32)) core (actShri d a imm) s

/-- SRAI (R147): arithmetic shift right by immediate. -/
def execSrai (core : CoreRef) (d a : BitVec 5) (imm : BitVec 11) (s : State) : Host.Outcome State Fault Refusal :=
  runHscIf (decide (imm.toNat < 32)) core (actSrai d a imm) s

/-- LI (R147): loads the extension word into a register. -/
def execLi (core : CoreRef) (d : BitVec 5) (x : Word) (s : State) : Host.Outcome State Fault Refusal :=
  runHsc core (actLi d x) s

/-- FADD (R148): binary32 add. -/
def execFadd (core : CoreRef) (d a b : BitVec 5) (s : State) : Host.Outcome State Fault Refusal :=
  runHsc core (actFadd d a b) s

/-- FSUB (R148): binary32 subtract. -/
def execFsub (core : CoreRef) (d a b : BitVec 5) (s : State) : Host.Outcome State Fault Refusal :=
  runHsc core (actFsub d a b) s

/-- FMUL (R148): binary32 multiply. -/
def execFmul (core : CoreRef) (d a b : BitVec 5) (s : State) : Host.Outcome State Fault Refusal :=
  runHsc core (actFmul d a b) s

/-- FDIV (R148): binary32 divide. -/
def execFdiv (core : CoreRef) (d a b : BitVec 5) (s : State) : Host.Outcome State Fault Refusal :=
  runHsc core (actFdiv d a b) s

/-- FSQRT (R148): binary32 square root. -/
def execFsqrt (core : CoreRef) (d a : BitVec 5) (s : State) : Host.Outcome State Fault Refusal :=
  runHsc core (actFsqrt d a) s

/-- FABS (R148): binary32 absolute value. -/
def execFabs (core : CoreRef) (d a : BitVec 5) (s : State) : Host.Outcome State Fault Refusal :=
  runHsc core (actFabs d a) s

/-- FNEG (R148): binary32 negation. -/
def execFneg (core : CoreRef) (d a : BitVec 5) (s : State) : Host.Outcome State Fault Refusal :=
  runHsc core (actFneg d a) s

/-- FMIN (R148): binary32 minimum. -/
def execFmin (core : CoreRef) (d a b : BitVec 5) (s : State) : Host.Outcome State Fault Refusal :=
  runHsc core (actFmin d a b) s

/-- FMAX (R148): binary32 maximum. -/
def execFmax (core : CoreRef) (d a b : BitVec 5) (s : State) : Host.Outcome State Fault Refusal :=
  runHsc core (actFmax d a b) s

/-- FMA (R148): fused multiply-add. -/
def execFma (core : CoreRef) (d a b : BitVec 5) (s : State) : Host.Outcome State Fault Refusal :=
  runHsc core (actFma d a b) s

/-- FNMS (R148): fused negative multiply-subtract. -/
def execFnms (core : CoreRef) (d a b : BitVec 5) (s : State) : Host.Outcome State Fault Refusal :=
  runHsc core (actFnms d a b) s

/-- ITOF (R148): converts int32 to binary32. -/
def execItof (core : CoreRef) (d a : BitVec 5) (s : State) : Host.Outcome State Fault Refusal :=
  runHsc core (actItof d a) s

/-- UTOF (R148): converts uint32 to binary32. -/
def execUtof (core : CoreRef) (d a : BitVec 5) (s : State) : Host.Outcome State Fault Refusal :=
  runHsc core (actUtof d a) s

/-- FTOI (R148): converts binary32 to int32 toward zero. -/
def execFtoi (core : CoreRef) (d a : BitVec 5) (s : State) : Host.Outcome State Fault Refusal :=
  runHsc core (actFtoi d a) s

/-- FTOIN (R148): converts binary32 to int32 to nearest even. -/
def execFtoin (core : CoreRef) (d a : BitVec 5) (s : State) : Host.Outcome State Fault Refusal :=
  runHsc core (actFtoin d a) s

/-- CADD (R150): complex add. -/
def execCadd (core : CoreRef) (d a b : BitVec 4) (s : State) : Host.Outcome State Fault Refusal :=
  runHsc core (actCadd d a b) s

/-- CSUB (R150): complex subtract. -/
def execCsub (core : CoreRef) (d a b : BitVec 4) (s : State) : Host.Outcome State Fault Refusal :=
  runHsc core (actCsub d a b) s

/-- CMUL (R150): complex multiply by fused steps. -/
def execCmul (core : CoreRef) (d a b : BitVec 4) (s : State) : Host.Outcome State Fault Refusal :=
  runHsc core (actCmul d a b) s

/-- CCONJ (R150): complex conjugate. -/
def execCconj (core : CoreRef) (d a : BitVec 4) (s : State) : Host.Outcome State Fault Refusal :=
  runHsc core (actCconj d a) s

/-- CMAG (R150): complex magnitude. -/
def execCmag (core : CoreRef) (d : BitVec 5) (a : BitVec 4) (s : State) : Host.Outcome State Fault Refusal :=
  runHsc core (actCmag d a) s

/-- CARG (R150): complex argument. -/
def execCarg (core : CoreRef) (d : BitVec 5) (a : BitVec 4) (s : State) : Host.Outcome State Fault Refusal :=
  runHsc core (actCarg d a) s

/-- CSCALE (R150): scales a complex value by a real. -/
def execCscale (core : CoreRef) (d a : BitVec 4) (b : BitVec 5) (s : State) : Host.Outcome State Fault Refusal :=
  runHsc core (actCscale d a b) s

/-- CMAKE (R150): builds a complex value from two registers. -/
def execCmake (core : CoreRef) (d : BitVec 4) (a b : BitVec 5) (s : State) : Host.Outcome State Fault Refusal :=
  runHsc core (actCmake d a b) s

/-- CRE (R150): extracts the real part. -/
def execCre (core : CoreRef) (d : BitVec 5) (a : BitVec 4) (s : State) : Host.Outcome State Fault Refusal :=
  runHsc core (actCre d a) s

/-- CIM (R150): extracts the imaginary part. -/
def execCim (core : CoreRef) (d : BitVec 5) (a : BitVec 4) (s : State) : Host.Outcome State Fault Refusal :=
  runHsc core (actCim d a) s

/-- CMOV (R150): copies a complex register. -/
def execCmov (core : CoreRef) (d a : BitVec 4) (s : State) : Host.Outcome State Fault Refusal :=
  runHsc core (actCmov d a) s

/-- EQ (R151): sets a flag on signed equality. -/
def execEq (core : CoreRef) (d : BitVec 3) (a b : BitVec 5) (s : State) : Host.Outcome State Fault Refusal :=
  runHsc core (actEq d a b) s

/-- NE (R151): sets a flag on inequality. -/
def execNe (core : CoreRef) (d : BitVec 3) (a b : BitVec 5) (s : State) : Host.Outcome State Fault Refusal :=
  runHsc core (actNe d a b) s

/-- LT (R151): sets a flag on signed less-than. -/
def execLt (core : CoreRef) (d : BitVec 3) (a b : BitVec 5) (s : State) : Host.Outcome State Fault Refusal :=
  runHsc core (actLt d a b) s

/-- LE (R151): sets a flag on signed less-or-equal. -/
def execLe (core : CoreRef) (d : BitVec 3) (a b : BitVec 5) (s : State) : Host.Outcome State Fault Refusal :=
  runHsc core (actLe d a b) s

/-- ULT (R151): sets a flag on unsigned less-than. -/
def execUlt (core : CoreRef) (d : BitVec 3) (a b : BitVec 5) (s : State) : Host.Outcome State Fault Refusal :=
  runHsc core (actUlt d a b) s

/-- ULE (R151): sets a flag on unsigned less-or-equal. -/
def execUle (core : CoreRef) (d : BitVec 3) (a b : BitVec 5) (s : State) : Host.Outcome State Fault Refusal :=
  runHsc core (actUle d a b) s

/-- FEQ (R151): sets a flag on binary32 equality. -/
def execFeq (core : CoreRef) (d : BitVec 3) (a b : BitVec 5) (s : State) : Host.Outcome State Fault Refusal :=
  runHsc core (actFeq d a b) s

/-- FLT (R151): sets a flag on binary32 less-than. -/
def execFlt (core : CoreRef) (d : BitVec 3) (a b : BitVec 5) (s : State) : Host.Outcome State Fault Refusal :=
  runHsc core (actFlt d a b) s

/-- FLE (R151): sets a flag on binary32 less-or-equal. -/
def execFle (core : CoreRef) (d : BitVec 3) (a b : BitVec 5) (s : State) : Host.Outcome State Fault Refusal :=
  runHsc core (actFle d a b) s

/-- FUN (R151): sets a flag when either operand is a NaN. -/
def execFun (core : CoreRef) (d : BitVec 3) (a b : BitVec 5) (s : State) : Host.Outcome State Fault Refusal :=
  runHsc core (actFun d a b) s

/-- PAND (R151): predicate and. -/
def execPand (core : CoreRef) (d a b : BitVec 3) (s : State) : Host.Outcome State Fault Refusal :=
  runHsc core (actPand d a b) s

/-- POR (R151): predicate or. -/
def execPor (core : CoreRef) (d a b : BitVec 3) (s : State) : Host.Outcome State Fault Refusal :=
  runHsc core (actPor d a b) s

/-- PXOR (R151): predicate exclusive or. -/
def execPxor (core : CoreRef) (d a b : BitVec 3) (s : State) : Host.Outcome State Fault Refusal :=
  runHsc core (actPxor d a b) s

/-- PANDN (R151): predicate and-not. -/
def execPandn (core : CoreRef) (d a b : BitVec 3) (s : State) : Host.Outcome State Fault Refusal :=
  runHsc core (actPandn d a b) s

/-- PNOT (R151): predicate not. -/
def execPnot (core : CoreRef) (d a : BitVec 3) (s : State) : Host.Outcome State Fault Refusal :=
  runHsc core (actPnot d a) s

/-- PSET (R151): sets a flag from a register being non-zero. -/
def execPset (core : CoreRef) (d : BitVec 3) (a : BitVec 5) (s : State) : Host.Outcome State Fault Refusal :=
  runHsc core (actPset d a) s

/-- PGET (R151): copies a flag to a register. -/
def execPget (core : CoreRef) (d : BitVec 5) (a : BitVec 3) (s : State) : Host.Outcome State Fault Refusal :=
  runHsc core (actPget d a) s

/-- SEL (R151): selects a general register on a flag. -/
def execSel (core : CoreRef) (d : BitVec 5) (p : BitVec 3) (a b : BitVec 5) (s : State) : Host.Outcome State Fault Refusal :=
  runHsc core (actSel d p a b) s

/-- CSEL (R151): selects a complex register on a flag. -/
def execCsel (core : CoreRef) (d : BitVec 4) (p : BitVec 3) (a b : BitVec 4) (s : State) : Host.Outcome State Fault Refusal :=
  runHsc core (actCsel d p a b) s

/-- BR (R152): branches on a predicate. -/
def execBr (core : CoreRef) (pred : PredRef) (off : BitVec 16) (s : State) : Host.Outcome State Fault Refusal :=
  runHsc core (actBr pred off) s

/-- LOOP (R153): runs a counted loop body with a charged back edge. -/
def execLoop (core : CoreRef) (r : BitVec 5) (body : BitVec 16) (ext : Word) (s : State) : Host.Outcome State Fault Refusal :=
  runHscIf (decide (body ≠ 0) && (r != 0 || decide (ext.toNat < 65536))) core (actLoop r body ext) s

/-- LD (R155): loads from a segment at the selected width. -/
def execLd (core : CoreRef) (width : BitVec 3) (d base : BitVec 5) (seg : SegCode) (off : BitVec 11) (s : State) : Host.Outcome State Fault Refusal :=
  runHscIf (ldOk width.toNat d) core (actLd width d base seg off) s

/-- ST (R155): stores to a segment at the selected width. -/
def execSt (core : CoreRef) (width : BitVec 3) (d base : BitVec 5) (seg : SegCode) (off : BitVec 11) (s : State) : Host.Outcome State Fault Refusal :=
  runHscIf (stOk width.toNat d) core (actSt width d base seg off) s

/-- VCOPY (R156): copies words element by element. -/
def execVcopy (core : CoreRef) (src dst : SegCode) (d a b : BitVec 5) (s : State) : Host.Outcome State Fault Refusal :=
  runHsc core (actVcopy src dst d a b) s

/-- VSUM (R156): sums a vector of the selected type. -/
def execVsum (core : CoreRef) (seg : SegCode) (ty : BitVec 3) (d a b : BitVec 5) (s : State) : Host.Outcome State Fault Refusal :=
  runHscIf (decide (ty.toNat ≤ 3) && (ty.toNat != 3 || pOk d)) core (actVsum seg ty d a b) s

/-- VMAX (R156): finds the largest element and its index. -/
def execVmax (core : CoreRef) (seg : SegCode) (ty : BitVec 3) (d a b : BitVec 5) (s : State) : Host.Outcome State Fault Refusal :=
  runHscIf ((ty.toNat == 0 || ty.toNat == 4 || ty.toNat == 1 || ty.toNat == 5) && decide (d.toNat ≤ 30)) core (actVmax seg ty d a b) s

/-- TRIG (R159): requests an acquisition trigger mark, released at commit. -/
def execTrig (core : CoreRef) (a : BitVec 5) (line : BitVec 4) (s : State) : Host.Outcome State Fault Refusal :=
  runHsc core (actTrig a line) s

/-- LOG (R160): requests a stall message record, released at commit. -/
def execLog (core : CoreRef) (seg : SegCode) (msg : BitVec 9) (a b : BitVec 5) (s : State) : Host.Outcome State Fault Refusal :=
  runHsc core (actLog seg msg a b) s

/-- TON (R165): on-delay timer block call. -/
def execTon (core : CoreRef) (inst : BitVec 16) (s : State) : Host.Outcome State Fault Refusal :=
  runHsc core (actTon inst) s

/-- TOF (R165): off-delay timer block call. -/
def execTof (core : CoreRef) (inst : BitVec 16) (s : State) : Host.Outcome State Fault Refusal :=
  runHsc core (actTof inst) s

/-- TP (R165): pulse timer block call. -/
def execTp (core : CoreRef) (inst : BitVec 16) (s : State) : Host.Outcome State Fault Refusal :=
  runHsc core (actTp inst) s

/-- CTU (R166): up counter block call. -/
def execCtu (core : CoreRef) (inst : BitVec 16) (s : State) : Host.Outcome State Fault Refusal :=
  runHsc core (actCtu inst) s

/-- CTD (R166): down counter block call. -/
def execCtd (core : CoreRef) (inst : BitVec 16) (s : State) : Host.Outcome State Fault Refusal :=
  runHsc core (actCtd inst) s

/-- CTUD (R166): up/down counter block call. -/
def execCtud (core : CoreRef) (inst : BitVec 16) (s : State) : Host.Outcome State Fault Refusal :=
  runHsc core (actCtud inst) s

/-- R_TRIG (R166): rising edge block call. -/
def execRTrig (core : CoreRef) (inst : BitVec 16) (s : State) : Host.Outcome State Fault Refusal :=
  runHsc core (actRTrig inst) s

/-- F_TRIG (R166): falling edge block call. -/
def execFTrig (core : CoreRef) (inst : BitVec 16) (s : State) : Host.Outcome State Fault Refusal :=
  runHsc core (actFTrig inst) s

/-- HYST (R167): hysteresis comparator block call. -/
def execHyst (core : CoreRef) (inst : BitVec 16) (s : State) : Host.Outcome State Fault Refusal :=
  runHsc core (actHyst inst) s

/-- SEQ (R168): sequence components block call. -/
def execSeq (core : CoreRef) (s : State) : Host.Outcome State Fault Refusal :=
  runHsc core actSeq s

/-- IMP (R168): impedance from phasors block call. -/
def execImp (core : CoreRef) (s : State) : Host.Outcome State Fault Refusal :=
  runHsc core actImp s

/-- ROC (R168): rate of change block call. -/
def execRoc (core : CoreRef) (inst : BitVec 16) (s : State) : Host.Outcome State Fault Refusal :=
  runHsc core (actRoc inst) s

end Sys2Proof.Machine
end

