-- ==== Sys2Proof/Machine/RegAt.lean ====
section
/-! DEFINITION. Finding the register at an address (R6, R413). -/

namespace Sys2Proof.Machine

/-- Bytes from one element to the next; an array of one counts its own width. -/
def RegDesc.span (d : RegDesc) : Nat := if d.count ≤ 1 then d.width / 8 else d.stride

/-- Whether an address on side A lies in a register of this description. -/
def RegDesc.holds (d : RegDesc) (a : Nat) : Bool :=
  decide (d.base ≤ a ∧ a < d.base + d.span * d.count) && decide ((a - d.base) % d.span < d.width / 8)

/-- The description that holds an address of side A, with the element's index. -/
def regAt (a : Nat) : Option (RegDesc × Nat) := (regTable.find? fun d => d.holds a).map fun d => (d, (a - d.base) / d.span)

/-- Whether a register's key names a mirrored register. -/
def mirroredKey (k : Nat) : Bool :=
  match regAt (k % 2 ^ 31) with
  | some e => e.1.mirrored
  | none => false

end Sys2Proof.Machine
end

