-- ==== Sys2Proof/Machine/UpdOps.lean ====
section
/-! DEFINITION. Firmware updates (R430 to R440): images, NOR states, restores, the compatibility rules, hand-overs, how an
update ends. -/

namespace Sys2Proof.Machine

/-! ### Phases and NOR states -/

def upIdle : Nat := 0
def upStoring : Nat := 1
def upScheduled : Nat := 2
def upFirst : Nat := 3
def upCopy : Nat := 4
def upSecond : Nat := 5
def upDone : Nat := 6
def upFailed : Nat := 7
def upCancelled : Nat := 8
def upIncompatible : Nat := 9

def norProven : Nat := 0
def norWriting : Nat := 1
def norStored : Nat := 2
def norGambit : Nat := 3
def norRestoring : Nat := 4
def norBad : Nat := 5

def State.nor (s : State) (sd : SideId) : Nat := s.rd (Rg.norState sd) Fd.norStateState
def State.setNor (s : State) (sd : SideId) (n : Nat) : State := s.wr (Rg.norState sd) Fd.norStateState n
def State.modUpdate (s : State) (f : UpdSt → UpdSt) : State := { s with update := f s.update }

/-- STORED_VER: of the stored image; VERSION reads 0 while WRITING or BAD. -/
def State.storedVerWord (s : State) (sd : SideId) : Nat :=
  let n := s.nor sd
  (if n = norWriting ∨ n = norBad then 0 else u24 (s.side sd).stored 8 * 256) + imageBellVer (s.side sd).stored

def State.updStateWord (s : State) : Nat :=
  let u := s.update
  at_ u.phase 28 + at_ u.first.code 27 + at_ (b2n u.outage) 26 + at_ (b2n u.authorised) 25 + at_ (b2n u.pair) 24
    + (match u.windowEnd with | some e => min 65535 (ceilDiv (e - s.now) 4800) | none => 0)

def State.updTimeWord (s : State) : Nat := at_ s.update.delay 48 + s.update.atSecond

/-- KIB_WRITTEN of a side. -/
def State.setKib (s : State) (sd : SideId) (bytes : Nat) : State := s.wr (Rg.updProgress sd) Fd.updProgressKibWritten (bytes / 1024)

/-- The side that is not updated first. -/
def UpdSt.second (u : UpdSt) : SideId := u.first.other

/-! ### Images (R430, R432) -/

/-- How far an image is written without a gap. -/
def coverage (blocks : Tbl Bytes) : Nat := blocks.foldl (fun n e => if e.1 ≤ n then max n (e.1 + e.2.length) else n) 0

/-- The bytes written so far. -/
def written (blocks : Tbl Bytes) : Nat := listSum (blocks.map fun e => e.2.length)

/-- The image the blocks make. -/
def assemble (length : Nat) (blocks : Tbl Bytes) : Bytes := blocks.foldl (fun b e => fit length (patch b e.1 e.2)) (zeros length)

/-- A block of the new image is written; complete, the image is STORED (R432). -/
def State.writeBlock (s : State) (off : Nat) (data : Bytes) : State :=
  let x := s.update.first
  let blocks := Tbl.put s.update.blocks off data
  let s1 := (s.modUpdate fun u => { u with blocks := blocks }).setKib x (written blocks)
  if s.update.length ≤ coverage blocks then
    (s1.modSide x fun y => { y with stored := assemble s.update.length blocks }).setNor x norStored
  else s1.setNor x norWriting

/-- The compatibility rules of R434 for an image against the image the other side runs, and its CFG_MIN alone (R439). -/
def compatible (new other : Bytes) (fmt : Nat) : Bool :=
  imageBellVer new == imageBellVer other && decide (u8 new 14 ≤ u8 other 13 ∧ u8 other 13 ≤ u8 new 13)
    && decide (u8 new 16 ≤ fmt ∧ fmt ≤ u8 new 15)
def cfgReads (new : Bytes) (fmt : Nat) : Bool := decide (u8 new 16 ≤ fmt)

/-! ### Restores and endings (R431, R433) -/

/-- The other side's PROVEN image is written over a side's stored image in the background (R433). -/
def State.restoreNor (s : State) (sd : SideId) : State :=
  (s.modSide sd fun x => { x with stored := (s.side sd.other).stored }).setNor sd norRestoring

/-- A side boots an image of another configuration format (R437): it writes its own copies of every scope into the two spare
set slots; those of the old format stay. -/
def State.spareCopies (s : State) (sd : SideId) (new : Bytes) : State :=
  let old := u8 (s.side sd).image 15
  if u8 new 15 = old then s else s.modSide sd fun x => { x with spareFmt := some old }

/-- Only the copies in the format in force are left (R437, R438). -/
def State.freeSpare (s : State) (sd : SideId) : State := s.modSide sd fun x => { x with spareFmt := none }

/-- An update ends (R431): its leases, its forward copies (R451), its ring loads; set copies in another format than the one
in force. -/
def State.endUpdate (s : State) (phase : Nat) : State :=
  let s0 := (s.modUpdate fun u => { u with phase := phase, blocks := [], windowEnd := none }).dropForward (phase == upDone)
  let s1 := s0.forSides fun sd t => t.freeSpare sd
  let loads := s.ringLoads.filter fun l => l.update
  let s2 := loads.foldl (fun (t : State) l => t.final l.hdr .state []) { s1 with ringLoads := s.ringLoads.filter fun l => !l.update }
  (s2.endLease lkUpdate).endLease lkPairUpdate

/-- A side runs its gambit (R435): the window runs from the loader's start. -/
def State.startGambit (s : State) (sd : SideId) (phase : Nat) : State :=
  (s.setNor sd norGambit).modUpdate fun u => { u with phase := phase, windowEnd := some (s.now + u.window * 4800), trial := 0 }

/-! ### Hand-overs (R230, R434, R438) -/

/-- The former standby side is Active and the former active side Standby, or Out after an update hand-over (R438). -/
def State.swapRoles (s : State) : State :=
  match s.active with
  | none => s
  | some a =>
    let b := a.other
    let upd := s.update.phase == upCopy && s.update.first == b
    if s.inStep b ∨ upd then
      let s1 := ((s.setRole b .active rcHandover).modDuty b fun d => { d with resync := ResyncSt.idle, promoteAt := none, sealAt := none })
      let s2 := if upd then (s1.setRole a .out rcHandover).modSide a fun x => { x with outData := none } else s1.setRole a .standby rcHandover
      { s2 with nonces := [] }
    else s

/-- A hand-over that falls due at this T0; its lease ends. -/
def State.dueHandover (s : State) : State :=
  match s.handoverAt with
  | some t => if t ≤ s.now then ({ s.swapRoles with handoverAt := none }).endLeaseOf lkHandover 2 else s
  | none => s

end Sys2Proof.Machine
end

