-- ==== Sys2Proof/Machine/Power.lean ====
section
/-! DEFINITION. Power, start-up, resets and the orderly stop (R472 to R498). -/

namespace Sys2Proof.Machine

def evBoot : Nat := 0x0430
def evPowerDip : Nat := 0x0431
def evOrderlyStop : Nat := 0x0432
def evGateWait : Nat := 0x0433
def evHoldupLow : Nat := 0x0434

/-! ### States -/

def State.modPower (s : State) (f : PowSt → PowSt) : State := { s with power := f s.power }

/-- STATE of POWER_STATUS; it reads 2 in a state in which nothing can read it. -/
def powerCode : PowerMode → Nat
  | .service => 3
  | .stopping => 4
  | _ => 2

/-- The module enters a power state. -/
def State.setMode (s : State) (m : PowerMode) : State :=
  (s.modPower fun p => { p with mode := m }).forSides fun sd t => t.wr (Rg.powerStatus sd) Fd.powerStatusState (powerCode m)

/-- A flag of POWER_STATUS on both sides. -/
def State.powerFlag (s : State) (f : Fld) (b : Bool) : State := s.forSides fun sd t => t.setFlag (Rg.powerStatus sd) f b

/-! ### What a boot keeps (R5, R428, R481) -/

/-- Registers whose value lies in a non-volatile store, by address on side A: CFG_STATE, SIDE_CFG, the wake registers, the
Ledger sequence numbers, the key slots, NOR_STATE, STOPS and BOOT_COUNT. -/
def keptAddr (a : Nat) : Bool :=
  [0x40, 0x70004, 0x80020, 0x80028, 0x8002C, 0xB0000, 0xB0010, 0x110010, 0x13000C, 0x130010].contains a
    || decide (0x100010 ≤ a ∧ a < 0x100500)

/-- Registers the Arbiter holds. -/
def arbiterAddr (a : Nat) : Bool := decide (0xC0000 ≤ a ∧ a < 0xC0200) || [0xD0008, 0xD0020, 0xD0028].contains a

def sideOfKey (k : Nat) : SideId := if k < 2 ^ 31 then .A else .B

/-- The registers that a module boot leaves. -/
def State.moduleRegs (s : State) (arbiter : Bool) : Tbl (BitVec 64) :=
  s.regs.filter fun e => keptAddr (e.1 % 2 ^ 31) || (!arbiter && arbiterAddr (e.1 % 2 ^ 31))

/-- The registers that a boot of one side leaves: all but that side's own. -/
def State.sideRegs (s : State) (sd : SideId) : Tbl (BitVec 64) :=
  s.regs.filter fun e => keptAddr (e.1 % 2 ^ 31) || mirroredKey e.1 || sideOfKey e.1 != sd

/-- A side as it comes up: its keys, its Ledger area, its stored image and its repair log; it runs the image given. -/
def Side.booted (x : Side) (image : Bytes) (now : Nat) : Side :=
  { Side.reset with
    peerRole := x.peerRole, keys := x.keys, sealedKeys := x.sealedKeys, forward := x.forward, roots := { x.roots with puf := none }
    sideArea := x.sideArea, mailSeq := x.mailSeq, image := image, stored := x.stored, cfgRoots := x.cfgRoots, lag := x.lag, spareFmt := x.spareFmt
    health := { HealthSt.reset with repair := x.health.repair, boot := now }
    duty := { DutySt.reset with t0Off := x.duty.t0Off, resync := { ResyncSt.idle with trial := x.duty.resync.trial } } }

/-- RESET_CAUSE and the BOOT record of a side; DIPS and CRC_ERRS are not kept. -/
def State.bootRecord (s : State) (sd : SideId) (cause : Nat) : State :=
  let n := (s.rd (Rg.resetCause sd) Fd.resetCauseBootCount + 1) % 65536
  let s1 := (s.putReg (Rg.resetCause sd) (n * 65536 + cause)).wr (Rg.powerEvents sd) Fd.powerEventsDips 0
  (s1.wr (Rg.norState sd) Fd.norStateCrcErrs 0).sideReport sd evBoot (beBytes 4 cause ++ beBytes 4 n ++ zeros 8)

/-- The stalls as the run-state map keeps them (R477); before the stored configuration is installed the map stands. -/
def State.runStates (s : State) : Tbl Nat :=
  if s.power.fresh then s.power.runMap
  else (allStalls.filter fun st => s.stallState st != stEmpty).map fun st => (st, s.stallState st)

/-- At boot each H is its stored value plus 4,096, the whole map marked (R402). -/
def State.bootWindows (s : State) (sd : SideId) : State :=
  ({ s with principals := s.principals.map fun (e : Nat × Principal) => (e.1, { e.2 with high := e.2.kept }) }).raiseWindows sd 4096

/-- A scope as its image is stored: chunks of a load in progress are lost. -/
def Scope.kept (c : Scope) : Scope := { c with loading := [] }

/-- What the update record says at a module boot (R480): STORING ends with CANCELLED and a restore; with S ahead the first
side runs the other side's image from RAM; with S passed this boot is the activation of R434. -/
def State.bootUpdate (s : State) : State :=
  let u := s.update
  let x := u.first
  let y := (s.side u.second).stored
  let fromPeer (t : State) : State := t.modSide x fun z => { z with image := y }
  if u.phase = upStoring then (fromPeer (s.restoreNor x)).endUpdate upCancelled
  else if u.phase = upScheduled then
    if s.now < u.atSecond * 4800 then fromPeer s
    else if compatible (s.side x).stored y s.cfgFmt || (u.outage && u.authorised && cfgReads (s.side x).stored s.cfgFmt) then
      (s.startGambit x upFirst).modResync x fun r => { r with trial := !(u.outage && u.authorised) }
    else (fromPeer (s.restoreNor x)).endUpdate upIncompatible
  else s

/-- The module boots with a cause (R477, R481): everything that no store keeps is lost; every stall with a grant comes up
Created. -/
def State.bootModule (s : State) (cause : Nat) (arbiter : Bool) : State :=
  let white := if s.flag Rg.sideCfg Fd.sideCfgColourNext then SideId.B else SideId.A
  let keep := fun (e : Nat × Scope) => (e.1, e.2.kept)
  let s1 : State := { State.reset with
    pending := s.pending, out := s.out, freeCount := s.freeCount, now := s.now, regs := s.moduleRegs arbiter, white := white
    sideA := (s.sideA.ownCopy s.cfgStore).booted s.sideA.stored s.now, sideB := (s.sideB.ownCopy s.cfgStore).booted s.sideB.stored s.now
    oddScopes := s.oddScopes
    principals := s.principals, modActive := s.modActive, modShadow := s.modShadow.kept
    stallActive := s.stallActive, stallShadow := s.stallShadow.map keep
    safeActive := s.safeActive, safeShadow := s.safeShadow, safePw := s.safePw, update := s.update
    leases := s.leases.filter fun (l : Lease) => l.kind == lkUpdate || l.kind == lkPairUpdate
    power := { PowSt.reset with runMap := s.runStates, clockA := s.power.clockA, clockB := s.power.clockB }
    regions := s.regions, freed := s.freed, ledgerFresh := s.ledgerFresh, arb := if arbiter then ArbSt.reset else s.arb }
  let s2 := s1.stallActive.foldl (fun (t : State) e => t.setStallState e.1 stCreated) s1
  let s3 := if arbiter then s2.startInsts [] true else s2
  let s4 := (s3.setMode .booting).powerFlag Fd.powerStatusAuxOn true
  let s5 := s4.forSides fun sd t => (t.bootRecord sd cause).applyRepair sd
  (s5.bootWindows s5.speaker).bootUpdate

/-- One side boots with a cause: it demotes or leaves, its queue is committed, its endpoint's link goes down (R387). -/
def State.bootSide (s : State) (sd : SideId) (cause : Nat) (image : Bytes) : State :=
  let s1 := if (s.side sd).role = .active then s.demote sd rcSelf else s.goOut sd rcSideOut
  let s2 := (s1.linkDown sd).modSide sd fun x => { x with sideQueue := 0 }
  let s3 := { s2 with regs := s2.sideRegs sd, xlink := { s2.xlink with link := none } }.modSide sd fun x => x.booted image s.now
  let s4 := (s3.wr (Rg.powerStatus sd) Fd.powerStatusState (powerCode s.power.mode)).setFlag (Rg.powerStatus sd) Fd.powerStatusAuxOn
    (s.flag (Rg.powerStatus sd.other) Fd.powerStatusAuxOn)
  (s4.bootRecord sd cause).applyRepair sd

/-- The endpoint of a side without power: its link is down and its rings are empty; nothing records it. -/
def State.endpointOff (s : State) (sd : SideId) : State :=
  let s1 := (upto 64).foldl (fun (t : State) r => t.ringClear sd r) s
  (((s1.setFlag (Rg.hlStatus sd) Fd.hlStatusLinkUp false).wr (Rg.hlStatus sd) Fd.hlStatusGen 0).wr
    (Rg.hlStatus sd) Fd.hlStatusWidth 0).setFlag (Rg.hlStatus sd) Fd.hlStatusBusMaster false

/-- The switch core loses its power: no port has link (R276). -/
def State.switchOff (s : State) (sd : SideId) : State :=
  ((upto 16).foldl (fun (t : State) p => t.setFlag (Rg.portStatus sd p) Fd.portStatusLink false) s).wr (Rg.swStatus sd) Fd.swStatusLinkMap 0

/-- The sides fall silent: nothing is powered but what Off or Parked leaves. -/
def State.unpower (s : State) (m : PowerMode) : State :=
  let s1 := s.forSides fun sd t => (((t.zeroise sd).modSide sd fun x =>
    { x with role := .out, peerRole := .out, outData := none, pubQueue := [], sw := SwSt.reset }).switchOff sd).endpointOff sd
  let s2 := (s1.imageLoss.modPower fun p => { p with runMap := s.runStates, stopAt := none, inputBack := false, fresh := true }).setMode m
  if m = .parked then
    (s2.forSides fun sd t => t.putReg (Rg.wakeStatus sd) 0).modPower fun p => { p with deafA := false, deafB := false }
  else s2.powerFlag Fd.powerStatusAuxOn false

/-! ### Installing the stored configuration (R477) -/

/-- At the first bell of the module the stored configuration takes effect as a castling of all of it would. -/
def State.installStored (s : State) : State :=
  if s.power.fresh then
    let none_ := Scope.empty
    let s1 := s.modPower fun p => { p with fresh := false }
    let s2 := ((((s1.castledStreams none_).castledChains none_).castledPublications none_ s1.modActive).castledCapts none_ s1.modActive).castledCan none_
    let s3 := s2.stallActive.foldl (fun (t : State) e => (t.castledPublications none_ e.2).castledCapts none_ e.2) s2
    let s4 := allStalls.foldl State.buildSlices (s3.castledTelegrams [])
    allStalls.foldl (fun (t : State) st => if (t.program st).isSome && t.stallState st == stCreated then t.setStallState st stLoaded else t) s4
  else s

/-! ### Roles at start-up (R476) -/

/-- The first side claims Active: the module is in service. -/
def State.enterService (s : State) (sd : SideId) : State :=
  let s1 := (s.putRole sd .active).modSide sd fun x => { x with duty := { x.duty with demote := false, computed := s.now, resync := ResyncSt.idle } }
  let s2 := (s1.modSide sd.other fun x => { x with peerRole := .active }).setMode .service
  s2.pairStart

/-- The first side of an outage update starts alone on its new image (R439). -/
def State.outageBoot (s : State) (sd : SideId) : Bool :=
  s.update.phase == upFirst && s.update.first == sd && s.update.outage && s.update.authorised

/-- A side whose self-test has passed joins the Active one (R476); it is tried again at every T0 until it may. -/
def State.startupJoin (s : State) (sd : SideId) : State :=
  if !(s.duty sd).tested || (s.side sd).role != .out || s.rd (Rg.resetCause sd) Fd.resetCauseCause == 5 then s
  else (s.modResync sd fun r => { r with waits := true }).autoJoin sd

/-- A side that has passed its self-test takes its place: Joining, as soon as it may, when the other is Active; Active when it
is White, or Black past the timeout, and then the other one joins it if it has passed its own. A side that its watchdog
has rebooted waits for SIDE_JOIN (R481). -/
def State.takePlace (s : State) (sd : SideId) (late : Bool) : State :=
  if !(s.duty sd).tested || (s.side sd).role != .out then s
  else if (s.side sd.other).role = .active then s.startupJoin sd
  else if s.white = sd || late || s.outageBoot sd then (s.enterService sd).startupJoin sd.other
  else s

/-! ### The service gate (R478) -/

/-- The gate is open. -/
def State.gateOpen (s : State) : Bool := s.flag (Rg.powerStatus s.speaker) Fd.powerStatusGateOpen

def State.openGate (s : State) (manual : Bool) (ms : Nat) : State :=
  let s1 := (s.powerFlag Fd.powerStatusGateOpen true).powerFlag Fd.powerStatusGateManual manual
  (s1.forSides fun sd t => t.putReg (Rg.gateTime sd) (min ms 4294967295)).modPower fun p => { p with startDue := true }

/-- Why the gate opens by itself: with a side Active, its timebase locked (manual false), or free running allowed. -/
def State.gateReason (s : State) : Option Bool :=
  match s.active with
  | none => none
  | some sd => if s.freeRunStart || s.timeSource == 2 then some true else if (s.servo sd).mode = 2 then some false else none

/-- The origin-0 STALL_STARTs of the bell after the gate opens: stalls that were Running or Resetting at the last stop. -/
def State.listStarts (s : State) : State :=
  if s.power.startDue && !s.power.fresh then
    let due := s.power.runMap.filter fun e => e.2 == stRunning || e.2 == stResetting
    due.foldl (fun (t : State) e => t.ownCmd 0x0304 (beBytes 1 e.1) 0) (s.modPower fun p => { p with startDue := false })
  else s

/-- Milliseconds since a side booted, by the ticks. -/
def State.bootMs (s : State) : Nat := (s.now - (s.side s.speaker).health.boot) * 1000 / 4800

/-! ### The orderly stop (R482 to R486) -/

/-- The first tick whose T0 is at or after an instant. -/
def firstTickFrom (ns : Nat) : Nat := let w := tickOfNs ns; if tickStart w < ns then w + 1 else w

/-- A stop is chosen: the earliest one governs. -/
def State.chooseStop (s : State) (t : Nat) (after : StopEnd) : State :=
  match s.power.stopAt with
  | some old => if old ≤ t then s else s.modPower fun p => { p with stopAt := some t, after := after }
  | none => s.modPower fun p => { p with stopAt := some t, after := after }

/-- Both sides enter the orderly stop at this bell: nothing is computed any more. What is validated but not applied is
lost (R486); a castling is completed (R429); records made up to now are admitted and will be committed. -/
def State.enterStop (s : State) (after : StopEnd) : State :=
  let s1 := (s.modPower fun p => { p with stopAt := none, after := after }).setMode .stopping
  let s2 := s1.forSides fun sd t => (t.tick1 (Rg.powerEvents sd) Fd.powerEventsStops).sideReport sd evOrderlyStop (beBytes 8 s.now ++ zeros 8)
  let s3 := s2.forSides fun sd t => if s.computes sd then t.writeRoot sd else t
  s3.admitAll

/-- POWER_HALT at the bell of the stop tick (R483): commands listed after it are refused with STATE. -/
def State.powerHaltAt (s : State) (tick : Nat) : State :=
  let due := s.waiting.filter fun w => decide (w.tick ≤ tick)
  let s1 := { s with waiting := s.waiting.filter fun w => decide (tick < w.tick) }
  let s2 := due.foldl (fun (t : State) w =>
    (t.ledger ⟨0, w.hdr.stall.toNat, 0, lcRefusedAtBell, w.hdr.origin.toNat,
      recBody (changeBody w.op Status.state.code w.hdr.seq.toNat w.params), true, false⟩).noteOutcome w.hdr .state tick) s1
  s2.enterStop s.power.after

/-- What the configuration store keeps of the replay windows at the stop (R402). -/
def State.storeWindows (s : State) : State :=
  { s with principals := s.principals.map fun (e : Nat × Principal) => (e.1, { e.2 with kept := e.2.high }) }

/-- The times the sides store (R479): the instant of the stop on each side's own timebase. -/
def State.storeClocks (s : State) : State :=
  let at0 := tickStart s.now
  let off (sd : SideId) : Nat := ((at0 : Int) + (s.duty sd).t0Off).toNat
  s.modPower fun p => { p with clockA := off .A, clockB := off .B }

/-- The end of the orderly stop (R484, R485). -/
def State.endStop (s : State) (input : Bool) : State :=
  let s1 := ((s.flushQueues.storeWindows).storeClocks).forSides fun sd t => t.zeroise sd
  if !input then s1.unpower .off
  else if s.power.inputBack then s1.bootModule 9 false
  else match s.power.after with
    | .off => s1.bootModule 9 false
    | .parked => s1.unpower .parked
    | .boot c => s1.bootModule c false

/-- Remove the newest n records, given newest first, with the pads written before them: how many are left to remove, the
rest. -/
def stripNewest : Nat → List LRec → Nat × List LRec
  | 0, l => (0, l)
  | k + 1, [] => (k + 1, [])
  | k + 1, r :: rest => if r.cls = 3 then stripNewest (k + 1) rest else stripNewest k rest

/-- Remove the last n records of a region, given with its newest segment first. -/
def dropNewest : Nat → List LSeg → List LSeg
  | _, [] => []
  | k, x :: rest =>
    if k = 0 then x :: rest
    else
      let r := stripNewest k x.recs.reverse
      if r.2.isEmpty then dropNewest r.1 rest
      else { x with recs := r.2.reverse, used := listSum (r.2.map LRec.length) } :: rest

/-- A region whose last n records were not committed (R330): they are no records; where the controller was writing one of
them, that and everything after it in its segment is a pad. -/
def LRegion.uncommitted (g : LRegion) (n : Nat) (writing sideArea : Bool) (stall seq tick : Nat) : LRegion :=
  let l := Sys2Proof.Machine.dropNewest n g.segs.reverse
  match writing && decide (0 < n), l with
  | true, x :: rest => { g with segs := (x.padded sideArea stall seq tick :: rest).reverse }
  | _, _ => { g with segs := l.reverse }

/-- Staging queues not yet committed are lost (R481, cause 2); SEQ continues from the highest committed one (R320). The
controller was writing the oldest of each queue (R330). -/
def State.loseQueues (s : State) : State :=
  let count (owner : Nat) : Nat := (s.ledgerQueue.filter (· == owner)).length
  let seq := s.regWord Rg.ledgerSeq - s.ledgerQueue.length
  let s1 := { s with regions := s.regions.map fun (e : Nat × LRegion) =>
                       (e.1, e.2.uncommitted (count e.1) (s.ledgerQueue.head? == some e.1) false e.1 seq s.now)
                     ledgerQueue := [] }
  (s1.putReg Rg.ledgerSeq seq).forSides fun sd t =>
    let n := (t.side sd).sideQueue
    let q := t.regWord (Rg.ledgerSideSeq sd) - n
    (t.modSide sd fun x => { x with sideArea := x.sideArea.uncommitted n true true 0 q t.now, sideQueue := 0 }).putReg (Rg.ledgerSideSeq sd) q

/-! ### Front LEDs (R494) -/

def ledRun (s : State) : Nat :=
  match s.power.mode with
  | .stopping => 6
  | .booting => 3
  | .service => if s.gateOpen then 1 else 3
  | .parked => 5
  | .off => 0

/-- A side is Out after a side fault or a split. -/
def State.outByFault (s : State) (sd : SideId) : Bool := (s.side sd).role == .out && ((s.duty sd).demote || (s.duty sd).splitOut)

def ledSide (s : State) (sd : SideId) : Nat :=
  match (s.side sd).role with
  | .active => 1
  | .standby => 2
  | .joining => 4
  | .out => if s.outByFault sd then 6 else if (s.duty sd).tested || s.flag (Rg.healthTest sd) Fd.healthTestDeepTest then 7 else 0

def ledSync (s : State) (sd : SideId) : Nat :=
  match (s.servo sd).mode with
  | 0 => if s.anyRunning && s.timeSource != 2 then 9 else 0
  | 3 => if s.flag (Rg.timeStatus sd) Fd.timeStatusHoldLong then 8 else 6
  | 1 => 3
  | _ => 1

def ledSafe (s : State) : Nat :=
  if s.instRecs.any fun e => (s.inst e.1).latched then 9
  else if s.unlocks.any fun e => decide (s.now < e.2) then 8
  else if s.instRecs.isEmpty then 0
  else if s.nSafe ≠ 0 then 6
  else 1

/-- The spare counts of HEALTH_SPARES. -/
def State.spareCounts (s : State) (sd : SideId) : List Nat :=
  let w := s.healthSparesWord sd
  [bits w 31 30, bits w 29 26, bits w 25 25, bits w 24 23, bits w 22 22, bits w 21 11]

def ledFault (s : State) : Nat :=
  if bothSides.any (fun sd => s.outByFault sd) || s.flag (Rg.powerStatus s.speaker) Fd.powerStatusHoldupLow then 9
  else if bothSides.any fun sd => s.setupKeyIn sd && s.rd (Rg.keyStatus sd) Fd.keyStatusRoot != 0 then 11
  else if bothSides.any fun sd => (s.spareCounts sd).contains 0 then 10
  else if bothSides.any fun sd => s.healthSparesWord sd / 2 ^ 11 != (Rg.healthSpares sd).reset / 2 ^ 11 then 6
  else 0

/-- LED_STATE: the LEDs follow the side that the Arbiter follows. -/
def State.ledStateWord (s : State) : Nat :=
  let sd := s.arb.follow.getD s.speaker
  at_ (ledRun s) 24 + at_ (ledSide s .A) 20 + at_ (ledSide s .B) 16 + at_ (ledSync s sd) 12 + at_ (if s.forces.isEmpty then 0 else 6) 8
    + at_ (ledSafe s) 4 + ledFault s

/-! ### Commands (R498) -/

def State.powerRegs (s : State) (sd : SideId) : Bytes :=
  ([Rg.powerStatus sd, Rg.powerInput sd, Rg.powerInput2 sd, Rg.powerEvents sd, Rg.resetCause sd, Rg.startTimes sd, Rg.gateTime sd,
    Rg.powerTemp sd, Rg.auxStatus sd].flatMap fun r => beBytes 4 (s.regWord r)) ++ beBytes 4 s.ledStateWord
    ++ (upto 8).flatMap fun i => beBytes 4 (s.regWord (Rg.rail sd i))

def cmdPowerStatus (h : CmdHdr) (_ : Bytes) (s : State) : CmdOut := s.bothHalves h 72 s.powerRegs

/-- A restart of the module or parking is refused while one of these leases is held. -/
def State.restartBarred (s : State) : Bool := [lkUpdate, lkPairUpdate, lkRestart, lkDeepTest].any fun k => s.leaseHeld k

def cmdPowerRestart (h : CmdHdr) (p : Bytes) (s : State) : CmdOut :=
  match u8 p 0 with
  | 0 => if s.restartBarred then refuse s .conflict else done (s.enterStop (.boot 3)) []
  | 1 | 2 =>
    let sd : SideId := if u8 p 0 = 1 then .A else .B
    if (s.side sd).role = .active then refuse s .state
    else if s.leaseConflict lkRestart then refuse s .conflict
    else
      let s1 := s.bootSide sd 4 (s.side sd).stored
      done (s1.takeLease lkRestart sd.code h.origin.toNat) []
  | _ => refuse s .range

def cmdPowerPark (_ : CmdHdr) (_ : Bytes) (s : State) : CmdOut :=
  if s.restartBarred then refuse s .conflict else done (s.enterStop .parked) []

def cmdServiceGo (_ : CmdHdr) (_ : Bytes) (s : State) : CmdOut :=
  if s.gateOpen || s.active.isNone then refuse s .state else done (s.openGate true s.bootMs) []

def specPowerStatus : CmdSpec := ⟨0x1300, always .observer, fun _ => false, lenIs 0, true, ownsNone, false, cmdPowerStatus⟩
def specPowerRestart : CmdSpec := ⟨0x1301, always .manager, fun p => u8 p 0 == 0, lenIs 1, true, ownsNone, true, cmdPowerRestart⟩
def specPowerPark : CmdSpec := ⟨0x1302, always .manager, fun _ => true, lenIs 0, true, ownsNone, true, cmdPowerPark⟩
def specServiceGo : CmdSpec := ⟨0x1303, always .manager, fun _ => true, lenIs 0, true, ownsNone, true, cmdServiceGo⟩
/-- A received POWER_HALT is refused with NO_RIGHT. -/
def specPowerHalt : CmdSpec := ⟨0x1310, fun _ => none, fun _ => true, lenIs 8, true, ownsNone, false, fun _ _ s => refuse s .noRight⟩

def execPowerStatus (h : CmdHdr) (p : Bytes) (s : State) : Host.Outcome State Fault Refusal := runCmd specPowerStatus h p s
def execPowerRestart (h : CmdHdr) (p : Bytes) (s : State) : Host.Outcome State Fault Refusal := runCmd specPowerRestart h p s
def execPowerPark (h : CmdHdr) (p : Bytes) (s : State) : Host.Outcome State Fault Refusal := runCmd specPowerPark h p s
def execServiceGo (h : CmdHdr) (p : Bytes) (s : State) : Host.Outcome State Fault Refusal := runCmd specServiceGo h p s

/-- The module's own POWER_HALT: only for the stop tick that the active side has chosen. -/
def execPowerHalt (stopTick : DWord) (s : State) : Host.Outcome State Fault Refusal :=
  .next (if s.power.mode = .service ∧ s.active.isSome ∧ s.power.stopAt = some stopTick.toNat then s.powerHaltAt stopTick.toNat else s)

/-! ### Rows of power and start-up -/

/-- The time a side starts from, in ns (R479): its real-time clock, else the time stored at the last stop. -/
def rtcTime (rtc : Option (BitVec 48 × Word)) (stored : Nat) : Nat :=
  match rtc with
  | some t => t.1.toNat * 1000000000 + t.2.toNat
  | none => stored

def execPowerGood (holdupOk : Bool) (rtcA rtcB : Option (BitVec 48 × Word)) (s : State) : Host.Outcome State Fault Refusal :=
  if s.power.mode = .off ∨ s.power.mode = .booting then
    let a := rtcTime rtcA s.power.clockA
    let b := rtcTime rtcB s.power.clockB
    let white := if s.flag Rg.sideCfg Fd.sideCfgColourNext then SideId.B else SideId.A
    let behind : Int := if white = .A then (b : Int) - a else (a : Int) - b
    let clocks := s.modPower fun p => { p with clockA := a, clockB := b }
    let s0 : State := { clocks with now := tickOfNs (if white = .A then a else b) }
    let s1 := ((s0.bootModule 0 true).modDuty white.other fun d => { d with t0Off := behind }).modDuty white fun d => { d with t0Off := 0 }
    let s2 := (s1.setFlag (Rg.powerStatus .A) Fd.powerStatusRtcLost rtcA.isNone).setFlag (Rg.powerStatus .B) Fd.powerStatusRtcLost rtcB.isNone
    let s3 := (s2.powerFlag Fd.powerStatusHoldupOk holdupOk).powerFlag Fd.powerStatusHoldupLow (!holdupOk)
    .next (if holdupOk then s3 else s3.forSides fun sd t => t.sideReport sd evHoldupLow (zeros 16))
  else .next s

/-- The image the other side can send (R433): it is powered, its stored image is PROVEN, the cross-link is up. -/
def State.canDonate (s : State) (sd : SideId) : Bool :=
  s.xlinkUp sd && s.nor sd.other == norProven

/-- The loader of a side hands over: its roots are there (R442, R443), or their lack is a side fault; where both loaders
have, the cross-link trains. -/
def State.handOver (s : State) (sd : SideId) (rootOk pufOk trusted : Bool) : State :=
  let s1 := (s.nativeRoot sd rootOk).pufRoot sd pufOk
  if (s1.side sd).roots.native.isNone then (s1.sideFault sd (unitAddr 4 sd 0x16)).modHealth sd fun h => { h with unfit := true }
  else if s1.rd (Rg.keyStatus sd.other) Fd.keyStatusRoot = 1 then s1.trainLink trusted
  else s1

/-- The fields of a firmware image's header that the loader judges (R430). -/
def headerGood (b : Bytes) : Bool :=
  u16 b 0 == 0x4B46 && u8 b 2 == 1 && decide (u8 b 3 ≤ 3 ∧ 224 ≤ u32 b 4 ∧ u32 b 4 ≤ 33554432) && u8 b 11 == 0 && allZero (sub b 17 15)
    && allZero (sub b 80 48)

/-- The loader takes an image whose header is good and whose signing key is not revoked (R454). -/
def State.loadable (s : State) (sd : SideId) : Bool :=
  headerGood (s.side sd).stored && !s.revoked sd (imageKeyId (s.side sd).stored)

/-- The loader has finished, `verified` being what it found of the signature (R430): it hands over, or asks for a peer restore; without a verified image and without a donor the
side stays Out with NOR_STATE BAD. -/
def execLoaderVerify (sd : SideId) (verified : Bool) (report : LoaderReport) (s : State) : Host.Outcome State Fault Refusal :=
  let s1 := s.wr (Rg.startTimes sd) Fd.startTimesLoaderMs report.ms.toNat
  .next (if verified && s.loadable sd then s1.handOver sd report.rootOk report.pufOk report.trusted else if s.canDonate sd then s1 else s1.setNor sd norBad)

def execSelftestComplete (sd : SideId) (pass : Bool) (ms : BitVec 16) (retired : List Word) (s : State) : Host.Outcome State Fault Refusal :=
  let s1 := s.wr (Rg.startTimes sd) Fd.startTimesSelftestMs ms.toNat
  let r := retired.foldl (fun (a : State × Bool) p => let q := a.1.retirePart sd p.toNat; (q.1, a.2 && q.2)) (s1, true)
  let good := pass && r.2 && !(s.side sd).health.unfit && (!s.onForward sd || s.slotsSound sd)
  let s2 := (r.1.migrateAll sd).modDuty sd fun d => { d with tested := good }
  .next (if good then (s2.loadCache sd).takePlace sd (decide (3000 ≤ ms.toNat)) else s2)

def execStartRoleTimeout (s : State) : Host.Outcome State Fault Refusal :=
  .next (if s.active.isSome then s else s.takePlace s.white.other true)

def execServiceGateOpen (ms : Word) (s : State) : Host.Outcome State Fault Refusal :=
  .next (if s.gateOpen then s else match s.gateReason with
    | some manual => s.openGate manual ms.toNat
    | none => s)

def execGateWait (s : State) : Host.Outcome State Fault Refusal :=
  .next (if s.gateOpen || s.power.gateWaited || (s.power.mode != .service && s.power.mode != .booting) then s
    else (s.sideReport s.speaker evGateWait (zeros 16)).modPower fun p => { p with gateWaited := true })

/-! ### Rows of power loss -/

/-- PF_WARN at an instant of TAI in ns (R482). -/
def execPfWarnAssert (ns : Nat) (s : State) : Host.Outcome State Fault Refusal :=
  let ok := s.flag (Rg.powerStatus s.speaker) Fd.powerStatusHoldupOk
  let s1 := s.powerFlag Fd.powerStatusPfWarn true
  let t := if ok then firstTickFrom (ns + 10000000) else tickOfNs ns + 1
  .next (if s.power.mode = .service && s.active.isSome then s1.chooseStop (max t (s.now + 1)) .off else s1)

/-- The warning clears (R473); in service, before T0 of the stop tick, this is a dip (R482). -/
def execPowerDip (s : State) : Host.Outcome State Fault Refusal :=
  let s1 := s.powerFlag Fd.powerStatusPfWarn false
  .next (if s.power.mode = .booting then s1
    else if s.power.mode = .service && s.flag (Rg.powerStatus s.speaker) Fd.powerStatusPfWarn then
      let s2 := if s.power.after = .off then s1.modPower fun p => { p with stopAt := none } else s1
      s2.forSides fun sd t => (t.tick1 (Rg.powerEvents sd) Fd.powerEventsDips).sideReport sd evPowerDip (beBytes 8 s.now ++ zeros 8)
    else s)

def execOrderlyStopEnd (inputPresent : Bool) (s : State) : Host.Outcome State Fault Refusal :=
  .next (if s.power.mode = .stopping then s.endStop inputPresent else s)

/-- The input returns: the stop runs on; the boot that follows has cause 9 (R485). -/
def execInputReturnInStop (s : State) : Host.Outcome State Fault Refusal :=
  .next (if s.power.mode = .stopping then (s.powerFlag Fd.powerStatusPfWarn false).modPower fun p => { p with inputBack := true } else s)

/-- The input fails in Parked, or in Booting before a side is in service (R474). -/
def execParkedInputLoss (s : State) : Host.Outcome State Fault Refusal :=
  .next (if s.power.mode = .parked ∨ (s.power.mode = .booting ∧ s.active.isNone) then s.flushQueues.unpower .off else s)

/-! ### Rows of resets (R481) -/

/-- RESET_REQ_N released after 10 ms to 5 s: an orderly stop from the next bell, then a boot; from Parked a boot. -/
def execResetReq (s : State) : Host.Outcome State Fault Refusal :=
  .next (match s.power.mode with
    | .service => s.chooseStop (s.now + 1) (.boot 1)
    | .booting => s.flushQueues.bootModule 1 false
    | .parked => s.bootModule 8 true
    | _ => s)

/-- RESET_REQ_N low beyond 5 s: module and Arbiter at once. -/
def execResetReqLong (s : State) : Host.Outcome State Fault Refusal :=
  .next (if s.power.mode = .off then s else s.loseQueues.bootModule 2 true)

def execWakeReq (s : State) : Host.Outcome State Fault Refusal := .next (if s.power.mode = .parked then s.bootModule 8 true else s)

def State.deaf (s : State) : SideId → Bool
  | .A => s.power.deafA
  | .B => s.power.deafB
def State.setDeaf (s : State) (sd : SideId) (b : Bool) : State :=
  match sd with
  | .A => s.modPower fun p => { p with deafA := b }
  | .B => s.modPower fun p => { p with deafB := b }

/-- A wake pattern at a detector (R276, R277). -/
def State.wakePattern (s : State) (sd : SideId) (id code : Nat) : State :=
  let want := s.regWord (Rg.wakeCode sd)
  if s.power.mode ≠ .parked ∨ s.deaf sd ∨ want = 0 ∨ id ≠ s.regWord (Rg.wakeId sd) then s
  else if code = want then (s.setFlag (Rg.wakeStatus sd) Fd.wakeStatusWokeHere true).bootModule 8 true
  else s.tick1 (Rg.wakeStatus sd) Fd.wakeStatusBadCodes

def execWakePattern (sd : SideId) (id : BitVec 48) (code : Word) (s : State) : Host.Outcome State Fault Refusal :=
  .next (s.wakePattern sd id.toNat code.toNat)

/-- The wake codes of the patterns for a wake ID in a frame's data (R276): 6 bytes of 0xFF, 16 times the ID, the code. -/
def wakeCodes (id : Bytes) : Bytes → List Nat
  | [] => []
  | b :: rest =>
    let x := b :: rest
    if x.take 102 = List.replicate 6 255 ++ (List.replicate 16 id).flatten ∧ 106 ≤ (x.take 106).length then u32 x 102 :: wakeCodes id rest
    else wakeCodes id rest

/-- The code that decides: the side's own where it stands in the frame, else the first. -/
def findPattern (id : Bytes) (want : Nat) (b : Bytes) : Option Nat :=
  let l := wakeCodes id b
  if l.contains want then some want else l.head?

/-- A frame at a wake detector: with a correct FCS and a pattern it counts as one; every other frame is discarded. -/
def State.hearWake (s : State) (sd : SideId) (f : EthFrame) : State :=
  let id := s.regWord (Rg.wakeId sd)
  match f.fcsOk, findPattern (beBytes 6 id) (s.regWord (Rg.wakeCode sd)) f.head with
  | true, some code => s.wakePattern sd id code
  | _, _ => s

/-- Whether the switch cores are powered. -/
def State.switchPowered (s : State) : Bool := s.power.mode != .parked && s.power.mode != .off

def execFrameReceive (sd : SideId) (port : Fin 11) (f : EthFrame) (ns : Nat) (s : State) : Host.Outcome State Fault Refusal :=
  .next (if s.switchPowered then s.takeFrame sd port.val f ns else if port.val = 10 then s.hearWake sd f else s)

def execFrameTransmit (sd : SideId) (port : Fin 16) (ns : Nat) (s : State) : Host.Outcome State Fault Refusal :=
  .next (if s.switchPowered then s.transmitFrame sd port.val ns else s)

/-- A link changes. A compute path of the switch core that goes down is a fault of its side (R269). -/
def execPortLinkChange (sd : SideId) (port : Fin 16) (up lf rf : Bool) (s : State) : Host.Outcome State Fault Refusal :=
  let t := s.portLink sd port.val up lf rf
  .next (if (port.val = 13 ∨ port.val = 14) ∧ !up then t.sideFault sd (unitAddr 4 sd 0x10) else t)

/-- Eight wrong codes within 60 s: the detector ignores patterns for 60 s (R277). -/
def execWakeLockout (sd : SideId) (s : State) : Host.Outcome State Fault Refusal :=
  .next (if s.power.mode = .parked ∧ 8 ≤ s.rd (Rg.wakeStatus sd) Fd.wakeStatusBadCodes then
      (s.setFlag (Rg.wakeStatus sd) Fd.wakeStatusLocked true).setDeaf sd true
    else s)
def execWakeLockoutEnd (sd : SideId) (s : State) : Host.Outcome State Fault Refusal := .next (s.setDeaf sd false)

/-! ### Rows of AUX_3V3 and temperature (R491, R495) -/

def execAuxOvercurrent (s : State) : Host.Outcome State Fault Refusal :=
  .next (if s.flag (Rg.powerStatus s.speaker) Fd.powerStatusAuxOn then
      (s.powerFlag Fd.powerStatusAuxOn false).powerFlag Fd.powerStatusAuxOvercurrent true
    else s)

def execAuxRetry (s : State) : Host.Outcome State Fault Refusal :=
  .next (if s.power.mode = .off then s else s.powerFlag Fd.powerStatusAuxOn true)

/-- Above 110 °C TEMP_WARN sets; the temperature is in 0.1 °C. -/
def execJunctionTempWarn (sd : SideId) (temp : BitVec 16) (s : State) : Host.Outcome State Fault Refusal :=
  let s1 := s.wr (Rg.powerTemp sd) Fd.powerTempDie temp.toNat
  .next (if 1100 < temp.toInt then s1.setFlag (Rg.powerStatus sd) Fd.powerStatusTempWarn true else s1)

/-- The management watchdog: the side demotes at the next T0 and reboots with cause 5 (R218, R481). `leaveAt` adds 16 to
the LAST_CAUSE of a demotion that a reboot follows. -/
def execWatchdogExpiry (sd : SideId) (s : State) : Host.Outcome State Fault Refusal :=
  .next (s.modDuty sd fun d => { d with leaveAt := some (s.now + 1, 16 + rcSelf) })

end Sys2Proof.Machine
end

