-- ==== Sys2Proof/Machine/Update.lean ====
section
/-! DEFINITION. The firmware update: its commands, its activation, gambits, the second side, restores (R431 to R441), and
loads of images from Porter rings (R421, R432). -/

namespace Sys2Proof.Machine

/-! ### Activation and gambits -/

/-- The update is abandoned before the boot of its first side: its NOR is restored, it keeps running (R433). -/
def State.abandonUpdate (s : State) (phase : Nat) : State := (s.restoreNor s.update.first).endUpdate phase

/-- An outage starts (R439): the donor stays Out, every stall starts over as after a module restart (R477). -/
def State.outageStart (s : State) : State :=
  let y := s.update.second
  let s1 := ((s.goOut y rcSideOut).modPower fun p => { p with runMap := s.runStates, fresh := true, startDue := false, gateWaited := false }).setMode .booting
  let s2 := s1.powerFlag Fd.powerStatusGateOpen false
  let s3 := { s2 with forces := [], tally := [], waiting := [], validations := [] }
  allStalls.foldl (fun (t : State) st => if t.stallState st = stEmpty then t else t.putReg (Rg.stallState st) stCreated) s3

/-- At the last bell before S an Active first side lists its hand-over (R230, R434), unless that would be refused. -/
def State.updateHandover (s : State) : State :=
  let u := s.update
  if u.phase = upScheduled ∧ s.now + 1 = u.atSecond * 4800 ∧ s.active = some u.first ∧ !(u.outage && u.authorised) ∧ s.inStep u.second
      ∧ s.drill.isNone ∧ s.handoverAt.isNone then
    { s with handoverAt := some (s.now + 1) }.addNotice ⟨ntRoleChange, 0, (if u.first = SideId.A then 2 + 3 * 4 else 3 + 2 * 4), s.now + 1, false⟩
  else s

/-- At tick S × 4,800 (R434): the first side, its role handed over, reboots into the new image if that fits. DESIGN CHOICE: a
hand-over that a drill refuses is not made, and the side reboots all the same (log entry 278). -/
def State.activate (s : State) : State :=
  let u := s.update
  let x := u.first
  let y := u.second
  if (s.side y).role ≠ .active ∧ (s.side y).role ≠ .standby then s.abandonUpdate upFailed
  else
    let outage := u.outage && u.authorised
    let s1 := s.dueHandover
    let s2 := if u.pair && s1.pair.role == 2 then s1.setPairRole 4 else s1
    let new := (s.side x).stored
    if outage && cfgReads new s.cfgFmt then (((s2.outageStart.startGambit x upFirst).spareCopies x new).bootSide x 6 new).modResync x fun r => { r with trial := false }
    else if !outage && compatible new (s.side y).image s.cfgFmt then
      (((s2.startGambit x upFirst).spareCopies x new).bootSide x 6 new).modResync x fun r => { r with trial := true }
    else ((s2.restoreNor x).bootSide x 7 (s.side y).image).endUpdate upIncompatible

/-- The activation falls due. -/
def State.activationDue (s : State) : Bool := s.update.phase == upScheduled && decide (s.update.atSecond * 4800 ≤ s.now)

/-- The first side falls back (R435): it reboots on the other side's image; after an outage both sides restart (R439). -/
def State.fallBack (s : State) : State :=
  let x := s.update.first
  let old := (s.side s.update.second).image
  let s1 := (s.restoreNor x).endUpdate upFailed
  if s.update.outage && s.update.authorised then s1.bootModule 7 false
  else (s1.bootSide x 7 old).modResync x fun r => { r with trial := false }

/-- The second side fails on the new image (R438): it restores it from the first once; the second failure leaves it Out. -/
def State.secondFails (s : State) : State :=
  let y := s.update.second
  if s.update.failedOnce then (s.goOut y rcSideOut).endUpdate upFailed
  else ((s.restoreNor y).bootSide y 7 (s.side y.other).stored).modUpdate fun u =>
    { u with failedOnce := true, trial := 0, windowEnd := some (s.now + u.window * 4800) }

/-- The first side confirms (R435, R438): PROVEN; the Active side lists a hand-over to it, and copying begins. -/
def State.confirmFirst (s : State) : State :=
  let x := s.update.first
  let y := x.other
  let s1 := (((s.setNor x norProven).modUpdate fun u => { u with phase := upCopy, windowEnd := none, trial := 0, copied := none }).modResync x
    fun r => { r with trial := false }).setNor y norWriting
  if (s.side x).role = .active then s1
  else
    let arg := if x = .A then 3 else 3 * 4
    let bell := if s.open_ then s.now + 1 else s.now
    { s1 with handoverAt := some (bell + 1) }.addNotice ⟨ntRoleChange, 0, arg, bell + 1, false⟩

/-- The second side confirms: the update is DONE. -/
def State.confirmSecond (s : State) : State := (s.setNor s.update.second norProven).endUpdate upDone

/-- Whether the side under test has all that R435 asks. -/
def State.gambitReady (s : State) : Bool :=
  let sd := if s.update.phase = upFirst then s.update.first else s.update.second
  (s.duty sd).tested && decide (48000 ≤ s.update.trial) && (match s.update.windowEnd with | some e => decide (s.now ≤ e) | none => false)

def State.confirm (s : State) : State :=
  if !s.gambitReady then s
  else if s.update.phase = upFirst then s.confirmFirst
  else if s.update.phase = upSecond then s.confirmSecond
  else s

/-- The gambit window has ended (R435). -/
def State.windowOver (s : State) : State :=
  match s.update.windowEnd with
  | some e =>
    if s.now < e then s
    else if s.update.phase = upFirst then s.fallBack
    else if s.update.phase = upSecond then s.secondFails
    else s
  | none => s

/-- Whether a tick counts towards confirmation: in trial step, in step as Standby, or Active after an outage. -/
def State.trialTick (s : State) : Bool :=
  let u := s.update
  if u.phase = upFirst then
    if u.outage && u.authorised then (s.side u.first).role == .active
    else (s.side u.first).role == .joining && (s.duty u.first).resync.trial && s.phase u.first == 0
      && !s.flag (Rg.bellStatus u.first) Fd.bellStatusUnsealed
  else if u.phase = upSecond then s.inStep u.second
  else false

/-- Count this tick (R435, R436). -/
def State.countTrial (s : State) : State :=
  let u := s.update
  if s.trialTick then
    let sd := if u.phase = upFirst then u.first else u.second
    (s.modUpdate fun x => { x with trial := x.trial + 1 }).wr (Rg.updProgress sd) Fd.updProgressTrialKticks (min 65535 ((u.trial + 1) / 1000))
  else s

/-- A mismatch or an unsealed tick of a side in trial step restarts its count after a new resynchronisation (R436). -/
def State.trialBroken (s : State) (sd : SideId) : State :=
  if s.update.phase = upFirst && s.update.first == sd && (s.duty sd).resync.trial then (s.modUpdate fun u => { u with trial := 0 }).startJoin sd
  else s

/-- A side that promotes out of trial step counts as confirmed; the update halts with FAILED (R436). -/
def State.promotedGambit (s : State) (sd : SideId) : State :=
  if s.update.phase = upFirst ∧ s.update.first = sd then (s.setNor sd norProven).endUpdate upFailed else s

/-- The first TAI second boundary at least SECOND_DELAY after the copy (R438). -/
def secondRebootAt (copied delay : Nat) : Nat := ceilDiv (copied + delay * 4800) 4800 * 4800

def State.secondReboot (s : State) : State :=
  match s.update.copied with
  | some c =>
    if s.update.phase = upCopy ∧ secondRebootAt c s.update.delay ≤ s.now then
      let y := s.update.second
      ((s.startGambit y upSecond).spareCopies y (s.side y).stored).bootSide y 6 (s.side y).stored
    else s
  | none => s

/-! ### Loads from rings (R421, R432) -/

/-- The blocks of a buffer of an image: 4,092 bytes and a CRC-32C each, the last one as long as what is left. -/
def State.ringBlocks (s : State) (off left : Nat) : Nat → Bytes → State × Nat × Bool
  | 0, _ => (s, 0, true)
  | n + 1, b =>
    if left = 0 ∨ b.isEmpty then (s, 0, true)
    else
      let k := min 4092 left
      let data := b.take k
      if data.length = k ∧ crc32c data = u32 b k ∧ k + 4 ≤ b.length then
        let r := (s.writeBlock off data).ringBlocks (off + k) (left - k) n (b.drop (k + 4))
        (r.1, k + r.2.1, r.2.2)
      else (s.tick1 (Rg.norState s.update.first) Fd.norStateCrcErrs, 0, false)

/-- One load takes the buffers its ring holds. A bad block ends an image load with RANGE. -/
def State.pumpLoad (s : State) (l : RingLoad) : Nat → State
  | 0 => { s with ringLoads := s.ringLoads ++ [l] }
  | n + 1 =>
    let sd := l.hdr.side
    match (s.ring sd l.ring).descs with
    | [] => { s with ringLoads := s.ringLoads ++ [l] }
    | d :: _ =>
      if !s.ringRuns sd l.ring ∨ (!l.update && !s.copyReaches) then { s with ringLoads := s.ringLoads ++ [l] }
      else
        let b := d.buffer.take d.len
        let s1 := (s.movedBytes sd b.length).completeHead sd l.ring b.length 0
        if l.update then
          let r := s1.ringBlocks l.offset l.length (b.length + 1) b
          if !r.2.2 then r.1.final l.hdr .range []
          else if l.length ≤ r.2.1 then r.1.final l.hdr .ok []
          else r.1.pumpLoad { l with offset := l.offset + r.2.1, length := l.length - r.2.1 } n
        else
          let got := l.got ++ b
          if l.length ≤ got.length then
            s1.imageHeld l (got.take l.length)
          else s1.pumpLoad { l with got := got } n

/-- Every load in turn. -/
def State.pumpLoads (s : State) : State :=
  (s.ringLoads.filter fun l => !l.held).foldl (fun (t : State) l => t.pumpLoad l ((t.ring l.hdr.side l.ring).descs.length))
    { s with ringLoads := s.ringLoads.filter RingLoad.held }

/-! ### Commands (R441) -/

def State.updSideRegs (s : State) (sd : SideId) : Bytes :=
  beBytes 4 (s.regWord (Rg.norState sd)) ++ beBytes 4 (s.storedVerWord sd) ++ beBytes 4 (s.regWord (Rg.updProgress sd)) ++ fit 128 (s.side sd).image

def cmdUpdStatus (_ : CmdHdr) (_ : Bytes) (s : State) : CmdOut :=
  done s (beBytes 4 s.updStateWord ++ beBytes 8 s.updTimeWord ++ s.updSideRegs .A ++ s.updSideRegs .B)

def cmdUpdBegin (h : CmdHdr) (p : Bytes) (s : State) : CmdOut :=
  let n := u32 p 1
  if 1 < u8 p 0 ∨ n < 224 ∨ 33554432 < n then refuse s .range
  else
    let x := sideArg p 0
    let y := x.other
    if s.updating then refuse s .conflict
    else if s.nor y ≠ norProven ∨ !s.computes y then refuse s .state
    else if s.leaseConflict lkUpdate then refuse s .conflict
    else
      let s1 := { s with update := { UpdSt.reset with phase := upStoring, first := x, length := n } }
      done (((s1.setNor x norWriting).setKib x 0).takeLease lkUpdate x.code h.origin.toNat) []

/-- An image may be written while it is being stored. -/
def State.storing (s : State) : Bool := s.update.phase == upStoring

def cmdUpdWrite (_ : CmdHdr) (p : Bytes) (s : State) : CmdOut :=
  let data := p.drop 8
  if !s.storing then refuse s .state
  else if s.update.length < u32 p 0 + data.length then refuse s .range
  else if crc32c data ≠ u32 p 4 then refuse (s.tick1 (Rg.norState s.update.first) Fd.norStateCrcErrs) .range
  else done (s.writeBlock (u32 p 0) data) []

def cmdUpdWriteRing (h : CmdHdr) (p : Bytes) (s : State) : CmdOut :=
  if !s.fromHostOf0 h.side (u8 p 0) then refuse s .noRight
  else if !s.storing then refuse s .state
  else if u24 p 1 ≠ 0 ∨ u32 p 8 = 0 ∨ s.update.length < u32 p 4 + u32 p 8 then refuse s .range
  else ⟨{ s with ringLoads := s.ringLoads ++ [⟨h, true, u8 p 0, u32 p 4, u32 p 8, []⟩] }, .acceptedPending, []⟩

def cmdUpdSchedule (_ : CmdHdr) (p : Bytes) (s : State) : CmdOut :=
  let u := s.update
  let at0 := u64 p 0
  let flags := u8 p 12
  if u16 p 8 < 30 ∨ 600 < u16 p 8 ∨ 3 < flags ∨ 2 ^ 48 ≤ at0 then refuse s .range
  else if (u.phase ≠ upStoring ∧ u.phase ≠ upScheduled) ∨ s.nor u.first ≠ norStored then refuse s .state
  else if bit flags 1 && s.pairMode != 1 then refuse s .state
  else if at0 ≤ s.now / 4800 + 1 then refuse s .late
  else
    let s1 := s.modUpdate fun x =>
      { x with phase := upScheduled, atSecond := at0, window := u16 p 8, delay := u16 p 10, outage := bit flags 0, authorised := false, pair := bit flags 1 }
    let kind := if bit flags 1 then lkPairUpdate else lkUpdate
    let held := s1.leases.map fun (l : Lease) => if l.kind = lkUpdate ∨ l.kind = lkPairUpdate then { l with kind := kind } else l
    done ({ s1 with leases := held }.forwardSeal) []

def cmdUpdAuthoriseOutage (_ : CmdHdr) (p : Bytes) (s : State) : CmdOut :=
  let u := s.update
  let sec := s.now / 4800
  if u.phase = upScheduled ∧ u.outage ∧ u.atSecond = u64 p 0 ∧ sec + 1 ≤ u.atSecond ∧ u.atSecond ≤ sec + 3600 then
    done (s.modUpdate fun x => { x with authorised := true }) []
  else refuse s .state

def cmdUpdCancel (_ : CmdHdr) (_ : Bytes) (s : State) : CmdOut :=
  if s.update.phase = upStoring ∨ s.update.phase = upScheduled then done (s.abandonUpdate upCancelled) [] else refuse s .state

def specUpdStatus : CmdSpec := ⟨0x1100, always .observer, fun _ => false, lenIs 0, true, ownsNone, false, cmdUpdStatus⟩
def specUpdBegin : CmdSpec := ⟨0x1101, always .updater, fun _ => false, lenIs 5, true, ownsNone, true, cmdUpdBegin⟩
def specUpdWrite : CmdSpec :=
  ⟨0x1102, always .updater, fun _ => false, fun p => decide (9 ≤ p.length ∧ p.length ≤ 968), true, ownsNone, true, cmdUpdWrite⟩
def specUpdWriteRing : CmdSpec := ⟨0x1103, always .updater, fun _ => false, lenIs 12, true, ownsNone, true, cmdUpdWriteRing⟩
def specUpdSchedule : CmdSpec := ⟨0x1104, always .updater, fun _ => true, lenIs 13, true, ownsNone, true, cmdUpdSchedule⟩
def specUpdAuthoriseOutage : CmdSpec := ⟨0x1105, always .manager, fun _ => true, lenIs 8, true, ownsNone, true, cmdUpdAuthoriseOutage⟩
def specUpdCancel : CmdSpec := ⟨0x1106, always .updater, fun _ => true, lenIs 0, true, ownsNone, true, cmdUpdCancel⟩

def execUpdStatus (h : CmdHdr) (p : Bytes) (s : State) : Host.Outcome State Fault Refusal := runCmd specUpdStatus h p s
def execUpdBegin (h : CmdHdr) (p : Bytes) (s : State) : Host.Outcome State Fault Refusal := runCmd specUpdBegin h p s
def execUpdWrite (h : CmdHdr) (p : Bytes) (s : State) : Host.Outcome State Fault Refusal := runCmd specUpdWrite h p s
def execUpdWriteRing (h : CmdHdr) (p : Bytes) (s : State) : Host.Outcome State Fault Refusal := runCmd specUpdWriteRing h p s
def execUpdSchedule (h : CmdHdr) (p : Bytes) (s : State) : Host.Outcome State Fault Refusal := runCmd specUpdSchedule h p s
def execUpdAuthoriseOutage (h : CmdHdr) (p : Bytes) (s : State) : Host.Outcome State Fault Refusal := runCmd specUpdAuthoriseOutage h p s
def execUpdCancel (h : CmdHdr) (p : Bytes) (s : State) : Host.Outcome State Fault Refusal := runCmd specUpdCancel h p s

/-! ### Rows -/

/-- A side whose stored image has failed the loader (R433): a gambit falls back; any other boot runs the other side's
image from RAM. Without a donor it stays Out, BAD. -/
def execPeerRestore (sd : SideId) (s : State) : Host.Outcome State Fault Refusal :=
  .next (if (s.side sd).role ≠ .out then s
    else if !s.canDonate sd then s.setNor sd norBad
    else if s.update.phase = upFirst ∧ s.update.first = sd then s.fallBack
    else if s.update.phase = upSecond ∧ s.update.second = sd then s.secondFails
    else (s.restoreNor sd).bootSide sd 7 (s.side sd.other).stored)

def execNorRestoreDone (sd : SideId) (s : State) : Host.Outcome State Fault Refusal :=
  .next (if s.nor sd = norRestoring then (s.setNor sd norProven).setKib sd (u32 (s.side sd).stored 4) else s)

def execUpdateActivation (s : State) : Host.Outcome State Fault Refusal := .next (if s.activationDue then s.activate else s)
def execGambitConfirm (s : State) : Host.Outcome State Fault Refusal := .next s.confirm
def execGambitWindowExpiry (s : State) : Host.Outcome State Fault Refusal := .next s.windowOver

/-- The first side's image is in the second side's NOR (R438). -/
def execSecondSideCopyDone (s : State) : Host.Outcome State Fault Refusal :=
  let y := s.update.second
  .next (if s.update.phase = upCopy ∧ s.update.copied.isNone then
      (((s.modSide y fun z => { z with stored := (s.side y.other).image }).setNor y norStored).setKib y (u32 (s.side y.other).image 4)).modUpdate
        fun u => { u with copied := some s.now }
    else s)

def execSecondSideReboot (s : State) : Host.Outcome State Fault Refusal := .next s.secondReboot

end Sys2Proof.Machine
end

