-- ==== Sys2Proof/Machine/Regs.lean ====
section
/-! DEFINITION. Reading and writing registers (R6 to R8, R26, R377 to R379, R412 to R415): what every register shows, the
rules of an access, REG_READ, REG_WRITE, REG_MODIFY and the BAR0 accesses. -/

namespace Sys2Proof.Machine

/-! ### What a register shows -/

/-- Words of a frame record as a register holds them: word i at bits 32i and up. -/
def wordsValue (b : Bytes) : Nat := listSum ((upto (b.length / 4)).map fun i => u32 b (4 * i) * 2 ^ (32 * i))

def State.tickCfgWord (s : State) : Nat := at_ (u8 s.modShadow.timeRec 0) 16 + s.sealDelay
def State.svBudgetWord (s : State) : Nat := at_ (eqTotal s.modShadow) 16 + eqTotal s.modActive
def State.condCfgWord (s : State) : Nat :=
  at_ (b2n (s.modShadow.nominal == 60)) 16 + at_ (4800 / s.modActive.nominal) 8 + b2n (s.modActive.nominal == 60)

def State.scanStatusWord (s : State) (sd : SideId) : Nat :=
  let spares := Rg.healthSpares sd
  let clusters := 10 - (s.side sd).health.migrating.length
  at_ (b2n (!s.forces.isEmpty)) 31 + at_ s.forces.length 22 + at_ (8 * clusters) 15 + at_ (s.rd spares Fd.healthSparesSpareCores) 11
    + at_ clusters 7 + at_ (s.rd spares Fd.healthSparesSpareClusters) 5

def State.acqStatusWord (s : State) (sd : SideId) : Nat :=
  let n (st : Nat) : Nat := ((upto 256).filter fun c => s.captState sd c == st).length
  at_ (n csOverflowed) 16 + n csRunning

/-- Where in the tick a live read of a gate falls is open. -/
def State.readInstant (s : State) : Nat := (Config.freeWord s.freeCount).toNat % tickLength s.now

/-- Registers that show what the configuration in force asks for: until the stored configuration is installed at the first
bell (R477) they show their reset values (R5). -/
def configBases : List Nat :=
  [0x50, 0x10008, 0x20004, 0x30000, 0x30004, 0x40000, 0x40100, 0x50000, 0x50004, 0x50008, 0x50040, 0x50200, 0x50300, 0x6000C, 0x8000C,
    0xA0004, 0x70040, 0x70080, 0xE0008]

/-- The state as the registers that show something of the configuration beside other fields see it: with nothing
configured until the stored configuration is installed (R5, R477). -/
def State.installed (s : State) : State :=
  if s.power.fresh then { s with modActive := Scope.empty, stallActive := [] } else s

/-- The value of element i of the register at `base` on a side, by way of a path (0 the interpreter, 1 PCIe) that has its
own time shadow. Registers that only show other state are computed from it; the rest stand as stored. -/
def State.regShown (s : State) (path : Nat) (sd : SideId) (base i stored : Nat) : Nat :=
  if s.power.fresh && configBases.contains base then stored else
  match base with
  | 0x00000000 => moduleIdentWord
  | 0x00000004 => s.fwVersionWord sd
  | 0x00000008 => Config.serial.toNat
  | 0x00000010 => s.sideSelfWord sd
  | 0x00000014 => s.protoVersionWord sd
  | 0x00000024 => s.cmdPendingWord sd
  | 0x00000040 => s.cfgStateWord
  | 0x00000048 => s.cfgStallValidWord
  | 0x00000050 => s.cfgDigestWord
  | 0x00010000 => s.now
  | 0x00010008 => s.tickCfgWord
  | 0x00020004 => s.svBudgetWord
  | 0x00030000 => s.condCfgWord
  | 0x00030004 => s.modActive.condDemand
  | 0x00040000 => s.scanStatusWord sd
  | 0x00040100 => s.coreLoad i
  | 0x00041000 => s.installed.taskStateWord sd (i / 16) (i % 16)
  | 0x00050000 => s.stallPoolWord
  | 0x00050004 => s.stallPool2Word
  | 0x00050008 => s.stallPool3Word
  | 0x00050040 => s.clusterMemWord i
  | 0x00050100 => s.stallStateWord i
  | 0x00050200 => s.stallGrantWord i
  | 0x00050300 => s.stallDemandWord i
  | 0x00060000 => s.pubMac
  | 0x0006000C => s.pubLoadWord
  | 0x00061000 => s.goosePubWord i
  | 0x00062000 => s.gooseSubWord i
  | 0x00070000 => s.sideRolesWord sd
  | 0x00070004 => s.installed.sideCfgWord
  | 0x00070020 => s.installed.pairStatusWord sd
  | 0x00070028 => s.regionStatusWord sd
  | 0x0007002C => s.regionPpmWord sd
  | 0x00070040 => s.witnessWord i
  | 0x00070080 => s.pairGm
  | 0x000D0028 => s.arbWindowWord
  | 0x00080000 => s.installed.swStatusWord sd
  | 0x00080004 => s.cellsUsed sd
  | 0x0008000C => s.minSum sd
  | 0x00080180 => s.installed.gateStatusWord sd i s.readInstant
  | 0x00090000 => s.readClock.1.2.1
  | 0x00090004 => (s.timeShadow sd path).1 % 2 ^ 32
  | 0x00090008 => (s.timeShadow sd path).2 * 2 ^ 16 + (s.timeShadow sd path).1 / 2 ^ 32
  | 0x00090020 => s.timeStatusWord sd
  | 0x00090028 => s.timeFreqWord sd
  | 0x00090100 => beNat (s.installed.portAsym sd (i + 1))
  | 0x00090200 => s.txtsStatusWord sd i
  | 0x00090300 => beNat (Tbl.getD (s.side sd).time.txtsHead i (zeros 16))
  | 0x000A0000 => s.acqStatusWord sd
  | 0x000A0004 => s.modActive.dramMib
  | 0x000A1000 => s.captStateShown sd i * 2 ^ 29
  | 0x000B0008 => s.ledgerOldestWord
  | 0x000B0018 => s.ledgerQueueWord sd
  | 0x000B1000 => s.ledgerRegionWord i
  | 0x000C0004 => s.fioLevelWord
  | 0x000C0100 => s.fioChWord (i + 1)
  | 0x000C1000 => s.teleSealedWord i
  | 0x000D0100 => s.safeStatusWord
  | 0x000D0108 => s.safeCrcWord
  | 0x000D0200 => s.sfWord i
  | 0x000E0008 => (s.modActive.canTiming (ctrlOf sd)).getD 0
  | 0x000E0010 => s.canRxqWord sd
  | 0x000E0100 => wordsValue (Tbl.getD (s.can sd).heads i (zeros 80))
  | 0x000E1000 => s.mbStatusWord sd i
  | 0x000E2000 => wordsValue (Tbl.getD (s.can sd).frames i (zeros 80))
  | 0x00100000 => s.keyStatusWord sd
  | 0x00100010 => s.keySignerWord sd i
  | 0x00110000 => s.updStateWord
  | 0x00110008 => s.updTimeWord
  | 0x00110014 => s.storedVerWord sd
  | 0x00120000 => s.healthSparesWord sd
  | 0x00120400 => s.leaseWord i
  | 0x00130028 => s.ledStateWord
  | _ => stored

/-- The bits of a register with one of some access codes. -/
def RegDesc.mask (d : RegDesc) (want : Access → Bool) : Nat :=
  listSum (d.fields.map fun f => if want f.2.2 then (2 ^ (f.1 - f.2.1 + 1) - 1) * 2 ^ f.2.1 else 0)

/-- The register element behind an address: where it is kept and its word there. -/
structure Place where
  desc : RegDesc
  idx : Nat
  side : SideId
  word : Nat

/-- The address of the element on side A. -/
def Place.base (p : Place) : Nat := p.desc.base + p.desc.span * p.idx

/-- The element as State keeps it. -/
def Place.reg (p : Place) : Reg := ⟨(if p.desc.mirrored then 0 else sideBase p.side) + p.base, p.desc.reset p.side p.idx⟩

/-- The side an address selects (R8). -/
def addrSide (a : Nat) : SideId := if a / 2 ^ 31 % 2 = 1 then .B else .A

/-- The place of an aligned 32-bit word of the register space. -/
def placeOf (a : Nat) : Option Place :=
  let x := a % 2 ^ 31
  (regAt x).map fun e => ⟨e.1, e.2, addrSide a, (x - e.1.base) % e.1.span / 4⟩

/-- The words that the spec states reserved: they read 0 (R413). -/
def reservedWord (a : Nat) : Bool :=
  let x := a % 2 ^ 31
  x == 0x44 || (decide (0x4100C ≤ x ∧ x < 0x4100C + 16 * 1024) && (x - 0x4100C) % 16 == 0)
    || (decide (0xF1018 ≤ x ∧ x < 0xF1018 + 32 * 64) && ((x - 0xF1018) % 32 == 0 || (x - 0xF1018) % 32 == 4))

/-- What a read of the word shows; WO and WS fields read 0 (R6). -/
def State.placeWord (s : State) (path : Nat) (p : Place) : Nat :=
  let v := s.regShown path p.side p.desc.base p.idx (s.regWord p.reg)
  let hidden := p.desc.mask fun c => match c with | .wo => true | .ws => true | _ => false
  (v - (v &&& hidden)) / 2 ^ (32 * p.word) % 2 ^ 32

/-- The value at an address without the effects of a read: what a snapshot stores (R319). -/
def State.peekWord (s : State) (a : Nat) : Nat :=
  match placeOf (a - a % 4) with
  | some p => s.placeWord 0 p
  | none => 0

/-! ### The rules of an access (R414) -/

/-- The aligned words that an access touches. -/
def wordsOf (a width : Nat) : List Nat := if width = 8 then [a, a + 4] else [a - a % 4]

/-- A word whose 32-bit read pops a queue, and TIME_NS. -/
def popsQueue (p : Place) : Bool := (p.desc.base == 0x90300 || p.desc.base == 0xE0100) && p.word == 0
def isTimeNs (p : Place) : Bool := p.desc.base == 0x90000

def hasAccess (d : RegDesc) (want : Access → Bool) : Bool := d.fields.any fun f => want f.2.2
def isRc : Access → Bool
  | .rc => true
  | _ => false
/-- Fields a write acts on. -/
def isWritable : Access → Bool
  | .rw => true
  | .w1c => true
  | .wo => true
  | .ws => true
  | _ => false
def sideEffects : Access → Bool
  | .w1c => true
  | .wo => true
  | .ws => true
  | _ => false

/-- Rule 1, 4 and R413: width, alignment, block boundary, block. -/
def shapeCheck (a width count : Nat) : Option Status :=
  let x := a % 2 ^ 31
  if !([1, 2, 4, 8].contains width) then some .width
  else if a % width ≠ 0 then some .misaligned
  else if 0x14 ≤ x / 65536 then some .range
  else if (x + width * count - 1) / 65536 ≠ x / 65536 then some .width
  else none

/-- A register of the other side (R379, rule 8). -/
def State.reachCheck (s : State) (by_ : SideId) (p : Place) : Option Status :=
  if p.desc.mirrored || p.side == by_ then none
  else if s.flag (Rg.healthTest p.side) Fd.healthTestDeepTest then some .busyTest
  else if (s.side p.side).role = .out ∨ !s.xlinkUp by_ then some .state
  else none

/-- The first status among checks. -/
def firstStatus {α : Type} (f : α → Option Status) : List α → Option Status
  | [] => none
  | x :: rest => match f x with
    | some st => some st
    | none => firstStatus f rest

def arbiterBlock (a : Nat) : Bool := a % 2 ^ 31 / 65536 == 0x0D

def State.readWordCheck (s : State) (by_ : SideId) (width a : Nat) : Option Status :=
  match placeOf a with
  | none => if reservedWord a then none else some .range
  | some p =>
    match s.reachCheck by_ p with
    | some st => some st
    | none =>
      if arbiterBlock a && !s.flag (Rg.sideSelf by_) Fd.sideSelfArbSeen then some .state
      else if width < 4 && (hasAccess p.desc isRc || isTimeNs p || popsQueue p) then some .sideEffect
      else none

/-- Every part of a read is checked before any part is executed (rule 9). -/
def State.readCheck (s : State) (by_ : SideId) (a width count : Nat) : Option Status :=
  match shapeCheck a width count with
  | some st => some st
  | none => firstStatus (s.readWordCheck by_ width) ((upto count).flatMap fun i => wordsOf (a + width * i) width)

/-- One 32-bit read with its effects: RC fields of the word clear, queues pop, TIME_NS latches. -/
def State.readWord (s : State) (path a : Nat) : State × Nat :=
  match placeOf a with
  | none => (s, 0)
  | some p =>
    if isTimeNs p then
      let r := s.readClock
      (r.2.latchTime p.side path r.1.1 r.1.2.2, r.1.2.1)
    else
      let s1 := if p.desc.base = 0x90300 ∧ p.word = 0 then s.txtsPop p.side p.idx
        else if p.desc.base = 0xE0100 ∧ p.word = 0 then s.rxqPop p.side p.idx else s
      let v := s1.placeWord path p
      let s2 := if p.desc.base = 0x80180 then { s1 with freeCount := s1.freeCount + 1 } else s1
      let rc := p.desc.mask isRc &&& ((2 ^ 32 - 1) * 2 ^ (32 * p.word))
      let old := s2.regWord p.reg
      (if old &&& rc = 0 then s2 else s2.putReg p.reg (old - (old &&& rc)), v)

/-- One access: a narrow one takes its bytes of the word, little-endian (R3); 8 bytes are two words, the lower first. -/
def State.readAccess (s : State) (path a width : Nat) : State × Nat :=
  if width = 8 then
    let lo := s.readWord path a
    let hi := lo.1.readWord path (a + 4)
    (hi.1, hi.2 * 2 ^ 32 + lo.2)
  else
    let r := s.readWord path (a - a % 4)
    (r.1, r.2 / 2 ^ (8 * (a % 4)) % 2 ^ (8 * width))

def State.readMany (s : State) (path a width : Nat) : Nat → State × List Nat
  | 0 => (s, [])
  | n + 1 =>
    let r := s.readAccess path a width
    let t := r.1.readMany path (a + width) width n
    (t.1, r.2 :: t.2)

/-! ### Writing -/

/-- Whether an access by command or BAR0 touches a mirrored or Arbiter register. -/
def touchesMirrored (a width count : Nat) : Bool :=
  ((upto count).flatMap fun i => wordsOf (a + width * i) width).any fun w => match placeOf w with
    | some p => p.desc.mirrored
    | none => false

def State.writeWordCheck (s : State) (by_ : SideId) (command : Bool) (width a : Nat) : Option Status :=
  match placeOf a with
  | none => if reservedWord a then none else some .range
  | some p =>
    match s.reachCheck by_ p with
    | some st => some st
    | none =>
      let x := a % 2 ^ 31
      if command && arbiterBlock a && x != 0xD0008 && x != 0xD0028 then some .safetyLocked
      else if width < 4 && hasAccess p.desc sideEffects then some .sideEffect
      else if command && !hasAccess p.desc isWritable then some .readOnly
      else none

def State.writeCheck (s : State) (by_ : SideId) (command : Bool) (a width count : Nat) : Option Status :=
  match shapeCheck a width count with
  | some st => some st
  | none => firstStatus (s.writeWordCheck by_ command width) ((upto count).flatMap fun i => wordsOf (a + width * i) width)

/-- The fields of a register take the written bits of a mask: RW and WO store, W1C clears (R6); all others stand. -/
def RegDesc.merge (d : RegDesc) (old v m : Nat) : Nat :=
  let store := d.mask (fun c => match c with | .rw => true | .wo => true | _ => false) &&& m
  let clear := d.mask (fun c => match c with | .w1c => true | _ => false) &&& m &&& v
  let kept := old - (old &&& store)
  (kept - (kept &&& clear)) + (v &&& store)

/-- The actions of WS fields (R290, R386). -/
def State.writeActs (s : State) (p : Place) (v origin : Nat) : State :=
  if p.desc.base = 0x9001C then
    let r := Rg.timeSetCtrl
    let cancel := bits v Fd.timeSetCtrlCancel.hi Fd.timeSetCtrlCancel.lo = 1
    let go := bits v Fd.timeSetCtrlGo.hi Fd.timeSetCtrlGo.lo = 1
    let s1 := if cancel ∧ s.flag r Fd.timeSetCtrlPending then s.cancelTime else s
    if go then s1.timeGo origin else s1
  else if p.desc.base = 0xF1008 && bits v Fd.ringCfgReset.hi Fd.ringCfgReset.lo == 1 then s.resetRing p.side p.idx
  else s

/-- Write bytes of one word: `v` and the mask `m` lie within the word. -/
def State.writeWord (s : State) (a v m origin : Nat) : State :=
  match placeOf a with
  | none => s
  | some p =>
    let k := 2 ^ (32 * p.word)
    (s.putReg p.reg (p.desc.merge (s.regWord p.reg) (v * k) (m * k))).writeActs p (v * k) origin

def State.writeAccess (s : State) (a width v origin : Nat) : State :=
  if width = 8 then (s.writeWord a (v % 2 ^ 32) (2 ^ 32 - 1) origin).writeWord (a + 4) (v / 2 ^ 32 % 2 ^ 32) (2 ^ 32 - 1) origin
  else
    let sh := 2 ^ (8 * (a % 4))
    s.writeWord (a - a % 4) (v % 2 ^ (8 * width) * sh) ((2 ^ (8 * width) - 1) * sh) origin

/-! ### Commands (R412) -/

/-- Whether reading a word changes the state of its side: RC fields clear, a queue pops. -/
def State.readChanges (s : State) (a : Nat) : Bool := match placeOf a with
  | some q => popsQueue q || s.regWord q.reg &&& (q.desc.mask isRc &&& ((2 ^ 32 - 1) * 2 ^ (32 * q.word))) != 0
  | none => false

/-- REG_READ makes a SIDE_CHANGE record when what it reads changes (R324); the count says how many values the reply holds (R395): only they are read. -/
def cmdRegRead (h : CmdHdr) (p : Bytes) (s : State) : CmdOut :=
  let a := u32 p 0
  let width := u8 p 4
  let count := u8 p 5
  if count = 0 ∨ 126 < count then refuse s .range
  else match s.readCheck h.side a width count with
    | some st => refuse s st
    | none =>
      let n := min count ((replyLimit h - 56) / width)
      let r := s.readMany 0 a width n
      let t := if ((upto n).flatMap fun i => wordsOf (a + width * i) width).any s.readChanges then
          r.1.sideEvent h.side lcSideChange h.stall.toNat h.origin.toNat (changeBody 0x0100 0 h.seq.toNat p)
        else r.1
      done t (beBytes 4 a ++ beBytes 1 width ++ beBytes 1 n ++ zeros 2 ++ r.2.flatMap fun v => beBytes width v)

/-- The least role of a register write (R412). -/
def regRole : Bytes → Option CmdRole := fun p =>
  let a := u32 p 0 % 2 ^ 31
  let last := a + max 1 (u8 p 4) * max 1 (u8 p 5) - 1
  some (if a / 65536 = 0x10 then .manager else if a / 65536 = 0x11 then .updater
    else if a ≤ 0x9001F ∧ 0x90010 ≤ last then .manager else .engineer)

def modifyRole : Bytes → Option CmdRole := fun p => regRole (p.take 4 ++ [4, 1])

def cmdRegWrite (h : CmdHdr) (p : Bytes) (s : State) : CmdOut :=
  let a := u32 p 0
  let width := u8 p 4
  let count := u8 p 5
  if count = 0 ∨ 126 < count then refuse s .range
  else match s.writeCheck h.side (h.transport != .bar0) a width count with
    | some st => refuse s st
    | none =>
      done ((upto count).foldl (fun (t : State) i => t.writeAccess (a + width * i) width (beNat (sub p (8 + width * i) width)) h.origin.toNat) s) []

/-- REG_MODIFY: SIDE_EFFECT unless every masked bit lies in an RW field. -/
def cmdRegModify (h : CmdHdr) (p : Bytes) (s : State) : CmdOut :=
  let a := u32 p 0
  let mask := u32 p 4
  let value := u32 p 8
  match shapeCheck a 4 1 with
  | some st => refuse s st
  | none =>
    match placeOf a with
    | none => if reservedWord a then done s [] else refuse s .range
    | some q =>
      match s.reachCheck h.side q with
      | some st => refuse s st
      | none =>
        if arbiterBlock a then refuse s .safetyLocked
        else if !hasAccess q.desc isWritable then refuse s .readOnly
        else
          let rw := q.desc.mask (fun c => match c with | .rw => true | _ => false) / 2 ^ (32 * q.word) % 2 ^ 32
          if mask &&& rw ≠ mask then refuse s .sideEffect else done (s.writeWord a (value &&& mask) mask h.origin.toNat) []

def specRegRead : CmdSpec := ⟨0x0100, always .observer, fun _ => false, lenIs 8, true, ownsNone, false, cmdRegRead⟩
def specRegWrite : CmdSpec :=
  ⟨0x0101, regRole, fun p => touchesMirrored (u32 p 0) (u8 p 4) (u8 p 5), fun p => decide (8 ≤ p.length) && p.length == 8 + u8 p 4 * u8 p 5, true,
    ownsNone, true, cmdRegWrite⟩
def specRegModify : CmdSpec := ⟨0x0102, modifyRole, fun p => touchesMirrored (u32 p 0) 4 1, lenIs 12, true, ownsNone, true, cmdRegModify⟩

def execRegRead (h : CmdHdr) (p : Bytes) (s : State) : Host.Outcome State Fault Refusal := runCmd specRegRead h p s
def execRegWrite (h : CmdHdr) (p : Bytes) (s : State) : Host.Outcome State Fault Refusal := runCmd specRegWrite h p s
def execRegModify (h : CmdHdr) (p : Bytes) (s : State) : Host.Outcome State Fault Refusal := runCmd specRegModify h p s

/-! ### BAR0 (R378, R379, R415) -/

/-- The register address of a BAR0 offset. -/
def bar0Addr (off : Nat) : Option Nat :=
  if off < 0x00800000 then some off else if off < 0x01000000 then some (0x80000000 + (off - 0x00800000)) else none

/-- The BAR0 offset of a register address. -/
def bar0Offset (a : Nat) : Nat := a % 2 ^ 31 + (if a / 2 ^ 31 % 2 = 1 then 0x00800000 else 0)

/-- A refused read returns all ones and is recorded (R415). -/
def State.bar0Refuse (s : State) (sd : SideId) (off width : Nat) (st : Status) : State :=
  (s.emit (.barRead sd (BitVec.ofNat 64 (2 ^ (8 * min (max width 1) 8) - 1)))).hlError sd off st

/-- The doorbell pages read HEAD at offset 4 and 0 elsewhere (R382). -/
def State.doorbellRead (s : State) (sd : SideId) (off width : Nat) : Nat :=
  let page := (off - 0x01000000) / 4096
  let x := (off - 0x01000000) % 4096
  if x / 4 = 1 then s.rd (Rg.ringPtr sd page) Fd.ringPtrHead / 2 ^ (8 * (x % 4)) % 2 ^ (8 * width)
  else if x = 0 ∧ width = 8 then s.rd (Rg.ringPtr sd page) Fd.ringPtrHead * 2 ^ 32 else 0

/-- A word of the MSI-X table or of the pending bits by its BAR0 offset. -/
def State.msixRead (s : State) (sd : SideId) (off : Nat) : Nat :=
  if off < 0x01FF8000 then let i := (off - 0x01FF0000) / 4; s.msixWord sd (i / 4) (i % 4) else s.pendingWord sd ((off - 0x01FF8000) / 4)

/-- Whether a BAR0 offset lies in the MSI-X table. -/
def inMsixTable (off : Nat) : Bool := decide (0x01FF0000 ≤ off ∧ off < 0x01FF0800)

/-- The bytes of a width at an offset of 32-bit words, little-endian. -/
def wordsAt (word : Nat → Nat) (off width : Nat) : Nat :=
  if width = 8 then word (off + 4) * 2 ^ 32 + word off else word (off - off % 4) / 2 ^ (8 * (off % 4)) % 2 ^ (8 * width)

/-- A read through BAR0. -/
def State.bar0Read (s : State) (sd : SideId) (off width : Nat) : State :=
  if !([1, 2, 4, 8].contains width) then s.bar0Refuse sd off width .width
  else match bar0Addr off with
    | some a =>
      match if s.deepTest sd then some .busyTest else s.readCheck sd a width 1 with
      | some st => s.bar0Refuse sd off width st
      | none => let r := s.readAccess 1 a width; r.1.emit (.barRead sd (BitVec.ofNat 64 r.2))
    | none =>
      if off % width ≠ 0 then s.bar0Refuse sd off width .misaligned
      else if off < 0x01040000 then s.emit (.barRead sd (BitVec.ofNat 64 (s.doorbellRead sd off width)))
      else if inMsixTable off ∨ (0x01FF8000 ≤ off ∧ off < 0x01FF8010) then
        s.emit (.barRead sd (BitVec.ofNat 64 (wordsAt (s.msixRead sd) off width)))
      else s.bar0Refuse sd off width .range

/-! ### BAR2 and the configuration space (R333, R377) -/

/-- The bytes of a segment from an offset in it; what no record fills is zero. -/
def LSeg.from_ (x : LSeg) (sideArea : Bool) (owner off : Nat) : Bytes := fit 8 (sub (x.header sideArea owner ++ x.recs.flatMap LRec.bytes) off 8)

/-- A region's segments by place, the empty ones with their EPOCH. -/
def LRegion.segAt (g : LRegion) (place : Nat) : Option LSeg :=
  match g.segs.find? fun x => x.place == place with
  | some x => some x
  | none => (g.spare.find? fun e => e.1 == place).map fun e => ⟨e.1, e.2, 0, [], 0⟩

/-- The 8 bytes at an offset of the module area: of the segment there, of a region or given back. -/
def State.moduleArea (s : State) (off : Nat) : Bytes :=
  let k := off / 65536
  match s.regions.findSome? fun e => (e.2.segAt k).map fun x => (e.1, x) with
  | some (owner, x) => x.from_ false owner (off % 65536)
  | none => match s.freed.find? fun x => x.place == k with
    | some x => x.from_ false (match x.recs with | r :: _ => r.stall | [] => 0) (off % 65536)
    | none => zeros 8

/-- The 8 bytes at an offset of a side area. -/
def State.sideAreaAt (s : State) (sd : SideId) (off : Nat) : Bytes := match (s.side sd).sideArea.segAt (off / 65536) with
  | some x => x.from_ true 0 (off % 65536)
  | none => zeros 8

/-- A read through BAR2, in one instant (R333): the module area, from 0x0C000000 the side area, which end before the window
does. -/
def State.bar2Read (s : State) (sd : SideId) (off width : Nat) : State :=
  if !([1, 2, 4, 8].contains width) then s.bar0Refuse sd (2 ^ 31 + off % 2 ^ 31) width .width
  else if off % width ≠ 0 then s.bar0Refuse sd (2 ^ 31 + off % 2 ^ 31) width .misaligned
  else if off < 0x0E000000 then
    let b := if off < 0x0C000000 then s.moduleArea off else s.sideAreaAt sd (off - 0x0C000000)
    s.emit (.barRead sd (BitVec.ofNat 64 (beNat (b.take width).reverse)))
  else
    let lo := s.free
    let hi := lo.2.free
    hi.2.emit (.barRead sd (BitVec.ofNat 64 ((lo.1.toNat + hi.1.toNat * 2 ^ 32) % 2 ^ (8 * width))))

/-- The device ID, the class code and the subsystem device ID of a side's function (R377). -/
def pcieDevice : Nat := 0x9610
def pcieClass : Nat := 0x088000
def pcieSubsystem (sd : SideId) : Nat := sd.code

/-- A word of the configuration space: PCIe places the IDs; every other bit is open. -/
def configWord (sd : SideId) (off open_ : Nat) : Nat :=
  if off = 0x00 then pcieDevice * 2 ^ 16 + open_ % 2 ^ 16
  else if off = 0x08 then pcieClass * 2 ^ 8 + open_ % 2 ^ 8
  else if off = 0x2C then pcieSubsystem sd * 2 ^ 16 + open_ % 2 ^ 16
  else open_ % 2 ^ 32

/-- A configuration read of 1, 2 or 4 bytes. -/
def State.configRead (s : State) (sd : SideId) (off width : Nat) : State :=
  let f := s.free
  f.2.emit (.barRead sd (BitVec.ofNat 64 (wordsAt (fun a => configWord sd a f.1.toNat) (off - off % width) (min 4 width))))

def execRegisterRead (sd : SideId) (src : HostRead) (width : BitVec 4) (s : State) : Host.Outcome State Fault Refusal :=
  .next (match src with
    | .bar0 off => s.bar0Read sd off.toNat width.toNat
    | .bar2 off => s.bar2Read sd off.toNat width.toNat
    | .config off => s.configRead sd off.toNat width.toNat)

/-- A write through BAR0 by register address, or by offset to the MSI-X table, where no register lies. To a mirrored or Arbiter
register it waits for the bell that carries it (R8), as a REG_WRITE with
the origin of R321; a refused one is discarded and recorded in HL_ERR. -/
def State.bar0Write (s : State) (sd : SideId) (a width v : Nat) : State :=
  if inMsixTable a && width == 4 && a % 4 == 0 then s.msixWrite sd ((a - 0x01FF0000) / 4) (v % 2 ^ 32)
  else match if s.deepTest sd then some .busyTest else s.writeCheck sd false a width 1 with
  | some st => s.hlError sd (bar0Offset a) st
  | none =>
    let origin := 0xFFFFFF00 + sd.code
    if touchesMirrored a width 1 then
      let h : CmdHdr := ⟨sd, .bar0, BitVec.ofNat 32 origin, 0, 0, 0, 0, 0⟩
      let params := beBytes 4 a ++ beBytes 1 width ++ beBytes 1 1 ++ zeros 2 ++ beBytes width v
      s.listOwn { hdr := h, op := 0x0101, params := params, tick := 0, answered := false, listed := true }
    else s.writeAccess a width v origin

/-- REGISTER_WRITE: through BAR0, or by command as REG_WRITE of one value. -/
def execRegisterWrite (h : CmdHdr) (addr : Word) (width : BitVec 4) (value : DWord) (s : State) : Host.Outcome State Fault Refusal :=
  match h.transport with
  | .bar0 => .next (s.bar0Write h.side addr.toNat width.toNat value.toNat)
  | _ => runCmd specRegWrite h (beBytes 4 addr.toNat ++ beBytes 1 width.toNat ++ beBytes 1 1 ++ zeros 2 ++ beBytes width.toNat value.toNat) s

end Sys2Proof.Machine
end

