-- ==== Sys2Proof/Machine/Specs.lean ====
section
/-! DEFINITION. The opcodes of the bell (R63) and the table of every opcode (R63, R83, R113, R135, R193, R215, R248, R279,
R298, R314, R334, R362, R376, R389, R412, R441, R455, R471, R498). -/

namespace Sys2Proof.Machine

/-! ### Tick and bell commands (R63, R499) -/

/-- READ_TICK. -/
def cmdReadTick (h : CmdHdr) (_ : Bytes) (s : State) : CmdOut :=
  let t := tickStart s.now
  done s (beBytes 8 s.now ++ beBytes 8 (t / 1000000000) ++ beBytes 4 (t % 1000000000) ++ beBytes 2 (tickIndex s.now)
    ++ beBytes 1 s.sealDelay ++ beBytes 1 (s.side h.side).role.code)

/-- READ_BELL: the bell of a tick as the answering side sent or adopted it. -/
def cmdReadBell (h : CmdHdr) (p : Bytes) (s : State) : CmdOut :=
  match (s.duty h.side).bells.find? fun e => e.1 == u64 p 0 with
  | some e => done s e.2
  | none => refuse s .range

/-- The digests a side has of a tick: zeros when it did not compute it. -/
def State.digestsOf (s : State) (sd : SideId) (w : Nat) : Bytes :=
  match (s.duty sd).digests.find? fun d => d.tick == w with
  | some d => beBytes 8 d.valid ++ d.values.flatMap (beBytes 8)
  | none => zeros 520

/-- READ_DIGESTS: of the last 16 ticks whose Collect phase is over. -/
def cmdReadDigests (h : CmdHdr) (p : Bytes) (s : State) : CmdOut :=
  let w := u64 p 0
  if s.now ≤ w ∨ w + 16 < s.now then refuse s .range
  else
    let r := s.bothHalves h 520 fun sd => s.digestsOf sd w
    { r with body := beBytes 8 w ++ r.body }

/-- SET_SEAL_DELAY: D of the time parameters in the shadow set (R35). -/
def cmdSetSealDelay (_ : CmdHdr) (p : Bytes) (s : State) : CmdOut :=
  if 1 ≤ u8 p 0 ∧ u8 p 0 ≤ 24 then done (s.modifyModShadow fun c => c.putRec 0x01 0 (patch c.timeRec 0 (p.take 1))) []
  else refuse s .range

def specReadTick : CmdSpec := ⟨0x0940, always .observer, fun _ => false, lenIs 0, true, ownsNone, false, cmdReadTick⟩
def specReadBell : CmdSpec := ⟨0x0941, always .observer, fun _ => false, lenIs 8, true, ownsNone, false, cmdReadBell⟩
def specReadDigests : CmdSpec := ⟨0x0942, always .observer, fun _ => false, lenIs 8, true, ownsNone, false, cmdReadDigests⟩
def specSetSealDelay : CmdSpec := ⟨0x0943, always .engineer, fun _ => true, lenIs 1, true, ownsNone, true, cmdSetSealDelay⟩

def execReadTick (h : CmdHdr) (p : Bytes) (s : State) : Host.Outcome State Fault Refusal := runCmd specReadTick h p s
def execReadBell (h : CmdHdr) (p : Bytes) (s : State) : Host.Outcome State Fault Refusal := runCmd specReadBell h p s
def execReadDigests (h : CmdHdr) (p : Bytes) (s : State) : Host.Outcome State Fault Refusal := runCmd specReadDigests h p s
def execSetSealDelay (h : CmdHdr) (p : Bytes) (s : State) : Host.Outcome State Fault Refusal := runCmd specSetSealDelay h p s

/-! ### Every opcode -/

def specsHost : List CmdSpec :=
  [specIdentify, specEcho, specCmdOutcome, specOriginSet, specOriginDelete, specOriginRead, specCmdStatus,
   specCrierNote, specRegRead, specRegWrite, specRegModify, specHlRingSet, specHlRingReset, specHlStatus]

def specsConfig : List CmdSpec :=
  [specCfgStatus, specCfgLoadBlock, specCfgLoadRing, specCfgCopy, specCfgValidate, specCastle, specCfgRead,
   specSafeCastle, specStallCreate, specStallDelete, specStallResize, specStallDropShadow, specStallStart,
   specStallStop, specStallReset, specStallRead, specStallStatus, specStallPool, specStallMapPasid,
   specStallUnmapPasid]

def specsIntake : List CmdSpec :=
  [specSvSubscribe, specSvUnsubscribe, specSvReadSub, specSvStreamStatus, specSvReadSamples, specSvReanchor,
   specSvAnchor, specCondSetChain, specCondSetTaps, specCondSetGroup, specCondStop, specCondStart, specCondReadChain,
   specCondReadOutput, specCondReadGroup, specCondSetNominal, specCondDemand]

def specsScan : List CmdSpec :=
  [specScanReadTask, specScanTaskStatus, specScanCoreLoad, specForceSet, specForceClear, specForceList,
   specScanSetForceMax, specGoosePubSet, specGoosePubRead, specGooseSubSet, specGooseSubRead, specGooseStatus,
   specSvpubSet, specSvpubRead, specPubSetMac]

def specsSides : List CmdSpec :=
  [specSideStatus, specSideHandover, specSideJoin, specSideOut, specSideSetColour, specPairSet, specPairStatus,
   specPairHandover, specArbSetHandover, specSwPortStatus, specSwSetPort, specSwSetFdb, specSwSetGates,
   specSwSetQueue, specSwReadConfig, specSwMirrorSet, specSwMirrorClear, specSwPortAdmin, specSwSetWake,
   specTimeRead, specTimeSet, specTimeCancelSet, specTimeSetParams, specTimeSetPort, specTimePortStatus,
   specTimeReadTxts, specTimeUtc]

def specsRecords : List CmdSpec :=
  [specAcqSetLine, specAcqSetChannel, specAcqSetWavefront, specAcqSetDram, specAcqStart, specAcqStop, specAcqTrigger,
   specAcqChannelStatus, specAcqReadDram, specLedgerStatus, specReadRecords, specLedgerSetRate,
   specLedgerSetSnapshot, specLedgerExport, specLedgerNote, specLedgerCodes]

def specsField : List CmdSpec :=
  [specFioSetChannel, specFioReadChannel, specFioStatus, specFioClearFault, specFioReadImage, specSafeChallenge,
   specSafeUnlock, specSafeLock, specSafeSetPassword, specSafeLoad, specSafeReset, specSafeStatus, specSafeReadTable,
   specTeleStatus, specCanSetTiming, specCanSetFilter, specCanSetBuffer, specCanStatus, specCanReadQueue, specCanSend]

def specsService : List CmdSpec :=
  [specUpdStatus, specUpdBegin, specUpdWrite, specUpdWriteRing, specUpdSchedule, specUpdAuthoriseOutage,
   specUpdCancel, specKeyStatus, specKeyImport, specKeyErase, specKeyDeviceCert, specKeyRevokeSigner,
   specHealthReport, specHealthFaults, specHealthDeepTest, specHealthTestUnit, specMaintLeases, specPowerStatus,
   specPowerRestart, specPowerPark, specServiceGo, specPowerHalt]

def specsBell : List CmdSpec := [specReadTick, specReadBell, specReadDigests, specSetSealDelay]

/-- The opcode tables. -/
def cmdTable : List CmdSpec :=
  specsHost ++ specsConfig ++ specsIntake ++ specsScan ++ specsSides ++ specsRecords ++ specsField ++ specsService ++ specsBell

/-- The command of an opcode. -/
def cmdOf (op : Nat) : Option CmdSpec := cmdTable.find? fun c => c.op == op

end Sys2Proof.Machine
end

