-- ==== Sys2Proof/Machine/Bell.lean ====
section
/-! DEFINITION. The bell (R35, R38 to R55): what it carries and in what order, its bytes, its seal by the active side, its
adoption by the standby side, the seal that a surviving side makes itself, and the Collect phase's digests. -/

namespace Sys2Proof.Machine

/-! ### Notices (R41, R45) -/

/-- Insertion by precedence, then by stall. -/
def insertNotice (n : Notice) : List Notice → List Notice
  | [] => [n]
  | x :: rest =>
    if noticeRank n.ty < noticeRank x.ty ∨ (noticeRank n.ty = noticeRank x.ty ∧ n.stall < x.stall) then n :: x :: rest
    else x :: insertNotice n rest

def sortNotices (l : List Notice) : List Notice := l.foldl (fun acc n => insertNotice n acc) []

/-- The tick a listed notice names: never one that has passed. -/
def Notice.at (n : Notice) (w : Nat) : Notice := { n with tick := max n.tick w }

/-- What a listed notice does at its bell: a stall reset (R128, R180), counted where R128 asks for it (R181); roles change
at T0. Each makes a CHANGE record. -/
def State.applyNotice (s : State) (n : Notice) : State :=
  let s1 := s.noticeRecord n
  if n.ty ≠ ntStallReset then s1
  else
    let t := if n.auto then s1.tallyReset n.stall else if s1.stallState n.stall = stRunning then s1.resetStall n.stall else s1
    if t.stallState n.stall = stResetting then { t with noticeReset := t.noticeReset ++ [n.stall] } else t

/-- The notice of an executed castling. -/
def castleNotice (w : Nat) (c : WaitCmd) : List Notice :=
  if c.op = 0x0205 then [⟨if u8 c.params 1 = 0 then ntModuleCastling else ntStallCastling, u8 c.params 1, 0, w, false⟩]
  else if c.op = 0x0D05 then [⟨ntSafetyCastling, 63, 0, w, false⟩]
  else []

/-! ### Commands (R43, R44, R46) -/

/-- A command record of the bell (R41). -/
def cmdRecord (a : SideId) (c : WaitCmd) : Bytes :=
  beBytes 4 c.hdr.origin.toNat ++ beBytes 4 c.hdr.seq.toNat ++ beBytes 2 c.op ++ beBytes 1 c.hdr.stall.toNat
    ++ beBytes 1 (b2n (c.hdr.side != a)) ++ beBytes 2 c.params.length ++ zeros 2 ++ padTo 8 c.params

/-- The commands due that go into a bell, and those left: at most 32 records and 2,048 bytes, in their order, the first
that does not fit and all later ones left (R44). A castling whose notice has no room (`ok`) is left by itself (R45). -/
def fillCommands (ok : WaitCmd → Bool) : Nat → Nat → List WaitCmd → List WaitCmd × List WaitCmd
  | _, _, [] => ([], [])
  | n, used, c :: rest =>
    if !ok c then
      let r := fillCommands ok n used rest
      (r.1, c :: r.2)
    else if n < 32 ∧ used + cmdSize c.params ≤ 2048 then
      let r := fillCommands ok (n + 1) (used + cmdSize c.params) rest
      (c :: r.1, r.2)
    else ([], c :: rest)

/-- The notices of a bell by precedence (R45), those of the castlings due among them: at most four. -/
def noticeSlots (w : Nat) (pending : List Notice) (cands : List WaitCmd) : List Notice :=
  (sortNotices (pending ++ cands.flatMap (castleNotice w))).take 4

/-- A command whose tick has passed, or whose bell is full, is refused with LATE (R46). -/
def State.refuseLate (s : State) (c : WaitCmd) : State :=
  let s1 := ((s.freeCastle c.op c.hdr.origin.toNat).noteOutcome c.hdr .late s.now)
  let s2 := if c.listed then s1.tick1 (Rg.bellDefer s.speaker) Fd.bellDeferLateRefused else s1
  if c.answered then s2.crierFinal c.hdr.side c.hdr .late [] else s2.reply c.hdr c.op .late 0 []

/-- A waiting command executes. -/
def State.runWaiting (s : State) (c : WaitCmd) : State := match cmdOf c.op with
  | some k => s.executeQueued k c
  | none => s

/-- What the commands of a bell leave behind: the state, the notices of the castlings among them, the stall resets that
wait for a castling of their stall (R182). -/
structure BellRun where
  s : State
  notices : List Notice
  resets : List Notice

/-- The stall that a castling installs (R182). -/
def castledStall (c : WaitCmd) : Option Nat := if c.op = 0x0205 ∧ u8 c.params 1 ≠ 0 then some (u8 c.params 1) else if c.op = 0x0D05 then some 63 else none

/-- A listed command executes; a castling adds its notice, and its stall's reset follows it. -/
def runListed (w : Nat) (r : BellRun) (c : WaitCmd) : BellRun :=
  match cmdOf c.op with
  | none => r
  | some k =>
    let good := castleLease c.op != 0 && (k.run c.hdr c.params (r.s.freeCastle c.op c.hdr.origin.toNat)).status.good
    let mine (n : Notice) : Bool := castledStall c == some n.stall
    ⟨(r.resets.filter mine).foldl State.applyNotice (r.s.executeQueued k c),
      if good then r.notices ++ castleNotice w c else r.notices, r.resets.filter fun n => !mine n⟩

/-- The read-only commands, and those on side-local registers, of the bell of tick w (R43, R403). -/
def State.runUnlisted (s : State) (w : Nat) : State :=
  let due := s.waiting.filter fun c => !c.listed && decide (c.tick ≤ w)
  let s1 := { s with waiting := s.waiting.filter fun c => c.listed || decide (w < c.tick) }
  due.foldl (fun (t : State) c => if c.tick ≠ 0 ∧ c.tick ≠ w then t.refuseLate c else t.runWaiting c) s1

/-! ### The sealed sample tick (R34, R35) -/

/-- Which sample tick work tick w seals: w − D, but none that is sealed already; a fall of D leaves ticks behind that
are never sealed. -/
def State.prepSeal (s : State) (w : Nat) : State :=
  let k := w - s.sealDelay
  if w < s.sealDelay then { s with sampleTick := none, noSeal := 2, skipped := 0 }
  else match s.sealedUpto with
    | none => { s with sampleTick := some k, noSeal := 0, skipped := 0 }
    | some p =>
      if k ≤ p then { s with sampleTick := none, noSeal := s.noSeal + 1, skipped := 0 }
      else
        let follows := bothSides.any fun sd => (s.duty sd).computed + 1 == w
        { s with sampleTick := some k, noSeal := 0, skipped := if follows then min 23 (k - p - 1) else 0 }

def State.markSealed (s : State) : State := match s.sampleTick with
  | some k => { s with sealedUpto := some k }
  | none => s

/-! ### A side's tick up to its Scan phase -/

/-- COND_END_MAX: the Condition phase begins at 3.0 µs and takes at most the demand of the set, spread over 128 lanes at
1.25 GHz (R36, R112); when it ends is a free value between. -/
def State.condEnd (s : State) (sd : SideId) : State :=
  let f := s.free
  f.2.raise (Rg.phaseHw sd) Fd.phaseHwCondEndMax (300 + f.1.toNat % (s.modActive.condDemand / 1600 + 2))

/-- The seal, the Condition phase and the release of tasks of work tick w on a side (R36); after a gap every chain starts
over first (R225). -/
def State.computeTick (s : State) (sd : SideId) (w : Nat) (present : List Nat) : State :=
  let s1 := match s.sampleTick with
    | some k =>
      let g := if (s.duty sd).gap then (s.conditionGap sd).modDuty sd fun d => { d with gap := false } else s
      let m := (upto s.skipped).foldl (fun (t : State) i => t.sealStreams sd w (k - s.skipped + i) []) g
      ((m.sealStreams sd w k present).condition sd w k).thresholdMarks sd w k
    | none => s.conditionNone sd
  let s2 := (((s1.condEnd sd).gatherAll sd).releaseTasks sd w).discardWaiting sd
  s2.modDuty sd fun d => { d with computed := w }

/-- The field-input edges of the image that work tick w uses (R300, R301); the first edge leaves the level before it. -/
def State.fieldMarks (s : State) (w : Nat) : State :=
  let img := s.imageFor w
  allChans.foldl (fun (t : State) n =>
    if bit (u32 img 4) (n - 1) then
      let before := match s.imageOf (w - 2) with
        | some p => bit (u32 p 0) (n - 1)
        | none => !bit (u32 img 0) (n - 1)
      t.fieldMark n (!before) (tickStart (w - 1 - u8 img (62 + 2 * n)) + u8 img (63 + 2 * n) * 1000)
    else t) s

/-! ### GOOSE, telegram and CAN entries -/

/-- Entry of a telegram subscription (R355). -/
def State.isTele (s : State) (e : Nat × Nat × Nat × Nat) : Bool := (s.teleRecs 1).any fun r => u16 r.2 20 == e.1

/-- A sealed entry is done with on a side. -/
def State.settleEntry (s : State) (sd : SideId) (e : Nat × Nat × Nat × Nat) : State :=
  if s.isTele e then s.settleTele sd e else s.settleGoose sd e

def State.holdsEntry (s : State) (sd : SideId) (e : Nat × Nat × Nat × Nat) : Bool :=
  if s.isTele e then s.holdsTele sd e else s.holdsGoose sd e

/-- The t field of an accepted frame in 1/65,536 ns of TAI (R300). -/
def State.frameTime (s : State) (t : Nat) : Nat :=
  (t / 2 ^ 32 + s.utcOffset) * 1000000000 * 65536 + t / 256 % 2 ^ 24 * 1000000000 / 256

/-- Seal an entry on a side; a new frame of a subscription places its marks. -/
def State.sealEntry (s : State) (sd : SideId) (w : Nat) (e : Nat × Nat × Nat × Nat) : State :=
  if s.isTele e then s.sealTele sd w e
  else
    let new := !bit e.2.1 0 && (match s.gooseAccOf sd e.1 with
      | some a => a.fresh || (s.gooseSub e.1).isNone
      | none => false)
    let s1 := s.sealGoose sd w e
    match s.gooseAccOf sd e.1 with
    | some a => if new then s1.gooseMark e.1 (s.frameTime a.time.toNat) else s1
    | none => s1

/-- The module takes the bells of its partner: it follows, or joins with its final copy made (R239, R240). -/
def State.pairTakes (s : State) : Bool := s.pairFollows || (s.pairMode == 1 && s.pair.role == 4 && s.pair.join.phase == 3)

/-- A side that will adopt the bell of this tick: in step, in trial step, or with its final copy made (R51, R232, R436); in
a module that takes its partner's bells, the Active side too (R38). -/
def State.adopts (s : State) (sd : SideId) : Bool :=
  match (s.side sd).role with
  | .active => s.pairTakes
  | .standby => true
  | .joining => s.phase sd == 3 || ((s.duty sd).resync.trial && s.phase sd == 0 && !s.flag (Rg.bellStatus sd) Fd.bellStatusUnsealed)
  | _ => false

/-- The side that seals takes up entries and CAN frames; a side that adopts does so with the bell. -/
def State.sealInputs (s : State) (sd : SideId) (w : Nat) (es : List (Nat × Nat × Nat × Nat)) (frames : List CanHeld) : State :=
  let s1 := es.foldl (fun (t : State) e =>
    let u := (t.sealEntry sd w e).settleEntry sd e
    if u.adopts sd.other then u else u.settleEntry sd.other e) s
  s1.sealCan w frames

/-- CAN frames while they fit: at most 64, in the bytes that remain. -/
def fillCan : Nat → Nat → List CanHeld → List CanHeld
  | _, _, [] => []
  | n, room, f :: rest =>
    let size := (canEntryBytes f).length
    if n < 64 ∧ size ≤ room then f :: fillCan (n + 1) (room - size) rest else []

/-! ### The bytes (R40) -/

/-- A map with one bit for each number, bit (s mod 8) of byte floor(s / 8). -/
def presenceMap (present : List Nat) : Bytes :=
  (upto 128).map fun i => BitVec.ofNat 8 (listSum ((upto 8).map fun b => if present.contains (8 * i + b) then 2 ^ b else 0))

/-- What the active side places in a bell. -/
structure BellParts where
  flags : Nat
  config : Bytes
  present : List Nat
  notices : List Notice
  cmds : List WaitCmd
  entries : List (Nat × Nat × Nat × Nat)
  can : List CanHeld

/-- The bell of tick w as the active side `a` sends it. -/
def State.bellBytes (s : State) (a : SideId) (w : Nat) (b : BellParts) : Bytes :=
  let ds := (s.duty a).digests.find? fun d => d.tick + 1 == w
  let valid := match ds with | some d => d.valid | none => 0
  let values := match ds with | some d => d.values.flatMap (beBytes 8) | none => zeros 512
  let intake := match s.sampleTick with | some k => s.intakeDigest a w k b.present | none => crc64 []
  let sample := match s.sampleTick with | some k => k | none => 2 ^ 64 - 1
  let cmds := b.cmds.flatMap (cmdRecord a)
  let can := b.can.flatMap canEntryBytes
  let len := 716 + 16 * b.notices.length + cmds.length + 12 * b.entries.length + can.length
  let body := beBytes 2 0x4B42 ++ beBytes 1 (imageBellVer (s.side a).image) ++ beBytes 1 b.flags ++ beBytes 2 len
    ++ beBytes 1 s.sealDelay ++ beBytes 1 (a.code + at_ (b2n (s.white != a)) 2 + at_ (s.moduleColour % 2) 3)
    ++ beBytes 8 w ++ beBytes 8 sample ++ beBytes 8 (crc64 (s.imageFor w)) ++ beBytes 8 intake ++ b.config
    ++ beBytes 8 (Config.buildId (s.side a).image).toNat
    ++ beBytes 1 b.notices.length ++ beBytes 1 b.cmds.length ++ beBytes 2 b.entries.length ++ beBytes 1 b.can.length ++ zeros 3
    ++ presenceMap b.present ++ beBytes 8 valid ++ values
    ++ b.notices.flatMap noticeBytes ++ cmds ++ b.entries.flatMap gooseEntryBytes ++ can
  body ++ beBytes 4 (crc32c body)

/-- A bell is kept: the last 16 (R63). -/
def State.keepBell (s : State) (sd : SideId) (w : Nat) (b : Bytes) (at_ : Nat) : State :=
  let s1 := s.modDuty sd fun d => let l := (d.bells.filter fun e => e.1 != w) ++ [(w, b)]; { d with bells := l.drop (l.length - 16) }
  (s1.wr (Rg.bellStatus sd) Fd.bellStatusBellLen b.length).wr (Rg.bellStatus sd) Fd.bellStatusBellAt (min at_ 16383)

/-! ### The seal of the active side (R39, R44, R47) -/

/-- FLAGS of the bell. -/
def State.bellFlags (s : State) (a : SideId) : Nat :=
  b2n (s.pairSends && s.smirnelUp a) + at_ (b2n s.bellSpared) 1 + at_ (b2n s.deferred) 2 + at_ (b2n (s.inHoldover a)) 3

/-- A notice that a command has just caused is listed in the same bell while there is room. -/
def State.listNew (s : State) (w room : Nat) : State × List Notice :=
  let sorted := sortNotices s.notices
  let l := (sorted.take room).map fun n => n.at w
  (l.foldl State.applyNotice { s with notices := sorted.drop room }, l)

/-- The forces that reach their expiry at this bell are listed (R133), before the commands that wait for it: a force set
again in the same bell is a new one (R131). -/
def State.listExpiries (s : State) : State :=
  s.forces.foldl (fun (t : State) e =>
    if e.2.expiry ≤ s.now ∧ !(t.waiting.any fun c => c.op == 0x0511 && c.hdr.transport == .internal && u16 c.params 0 == e.1) then
      { t with waiting := t.ownWait 0x0511 (beBytes 2 e.1) 0 :: t.waiting }
    else t) s

/-- What a listing leaves behind: the state, the bell's notices and commands, how many were carried to a later bell. -/
structure Listing where
  s : State
  notices : List Notice
  cmds : List WaitCmd
  carried : Nat

/-- The notices and commands of the bell of tick w take effect in their order (R44 to R47): a stall's reset after the
castling of the same stall (R182). -/
def State.runBell (s : State) (w : Nat) (notices : List Notice) (cmds : List WaitCmd) : BellRun :=
  let stalls := cmds.filterMap castledStall
  let after (n : Notice) : Bool := n.ty == ntStallReset && stalls.contains n.stall
  cmds.foldl (runListed w) ⟨(notices.filter fun n => !after n).foldl State.applyNotice s, [], notices.filter after⟩

/-- The active side lists what is due at the bell of tick w, and it takes effect. -/
def State.listBell (s : State) (w : Nat) : Listing :=
  let due := s.waiting.filter fun c => c.listed && decide (c.tick ≤ w)
  let cands := due.filter fun c => c.tick == 0 || c.tick == w
  let slots := noticeSlots w s.notices cands
  let fill := fillCommands (fun c => (castleNotice w c).all slots.contains) 0 0 cands
  let refused := (due.filter fun c => c.tick != 0 && c.tick != w) ++ fill.2.filter fun c => c.tick != 0
  let now := (sortNotices s.notices).filter slots.contains
  let s1 := { s with
    notices := s.notices.filter fun n => !slots.contains n
    waiting := (refused ++ fill.1).foldl List.erase s.waiting }
  let listed := now.map fun n => n.at w
  let ran := (refused.foldl State.refuseLate s1).runBell w listed fill.1
  let n2 := ran.s.listNew w (4 - now.length - ran.notices.length)
  ⟨n2.1, sortNotices (listed ++ ran.notices ++ n2.2), fill.1, n2.1.notices.length + (fill.2.filter fun c => c.tick == 0).length⟩

/-- The active side seals work tick w: notices and commands take effect; it sends the bell and starts its tick. -/
def State.sealBell (s : State) (a : SideId) (w : Nat) : State :=
  let config := s.configDigest.take 8
  let flags := s.bellFlags a
  let l := s.listExpiries.listBell w
  -- inputs
  let s4 := l.s.prepSeal w
  let present := match s4.sampleTick with | some k => s4.presence a w k | none => []
  let all := s4.gooseEntries a w ++ (s4.teleSweep a w).teleEntries a w
  let entries := all.take 256
  let held := s4.canToSeal a w
  let room := 8192 - 716 - 16 * l.notices.length - (l.cmds.flatMap (cmdRecord a)).length - 12 * entries.length
  let can := fillCan 0 room held
  let left := l.carried + (all.length - entries.length) + (held.length - can.length)
  let bell := s4.bellBytes a w ⟨flags, config, present, l.notices, l.cmds, entries, can⟩
  let f := s4.free
  let s5 := (((f.2.forSides fun sd t => t.teleSweep sd w).emit (.bell bell)).smirnelSend a bell).keepBell a w bell
    (f.1.toNat % (101 + bell.length * 8 / 56))
  let s6 := (s5.count (Rg.bellDefer a) Fd.bellDeferDeferred left).sealInputs a w entries can
  let s7 := { s6 with deferred := decide (0 < left), holdover := s.inHoldover a }
  ((s7.fieldMarks w).computeTick a w present).markSealed

/-! ### Adoption (R51) -/

/-- Where the GOOSE entries of a bell start. -/
def bellGooseAt (b : Bytes) : Nat :=
  (upto (u8 b 0x39)).foldl (fun o _ => o + 16 + (u16 b (o + 12) + 7) / 8 * 8) (0x02C8 + 16 * u8 b 0x38)

/-- The GOOSE entries of a bell. -/
def bellEntries (b : Bytes) : List (Nat × Nat × Nat × Nat) :=
  (upto (u16 b 0x3A)).map fun i => let o := bellGooseAt b + 12 * i; (u16 b o, u16 b (o + 2), u32 b (o + 4), u32 b (o + 8))

/-- The slots a bell marks present. -/
def bellPresent (b : Bytes) : List Nat := (upto 1024).filter fun n => bit (u8 b (0x40 + n / 8)) (n % 8)

/-- The bell that the other side has sent for the tick in progress. -/
def State.bellSent (s : State) (sd : SideId) : Option Bytes :=
  ((s.duty sd.other).bells.find? fun e => e.1 == s.now).map (·.2)

/-- A side holds the samples of every present stream, with the same digest. -/
def State.holdsSamples (s : State) (sd : SideId) (b : Bytes) : Bool :=
  match s.sampleTick with
  | none => true
  | some k =>
    let present := bellPresent b
    (s.subs.all fun e => !present.contains e.1 || !s.assigns s.now e.1 e.2 k || (s.heldSamples sd s.now e.1 e.2 k).isSome)
      && s.intakeDigest sd s.now k present == u64 b 0x20

/-- The checks of R51. CONFIG_DIGEST is equal while both sides share one configuration; a side in trial step skips
BUILD_ID (R436); without IN_DATA a side has no copy of the field-input image (R23). -/
def State.bellOk (s : State) (sd : SideId) (b : Bytes) : Bool :=
  let x := s.side sd
  u64 b 8 == s.now && u8 b 2 == imageBellVer x.image
    && ((s.duty sd).resync.trial || u64 b 0x30 == (Config.buildId x.image).toNat)
    && (s.flag (Rg.sideSelf sd) Fd.sideSelfArbSeen || (s.imageOf (s.now - 1)).isNone) && u64 b 0x18 == crc64 (s.imageFor s.now)
    && s.holdsSamples sd b && (bellEntries b).all (s.holdsEntry sd)

/-- A bell is adopted: the run of missing ones ends (R52, R53). -/
def State.bellSeen (s : State) (sd : SideId) : State :=
  (s.wr (Rg.bellStatus sd) Fd.bellStatusMissRun 0).modDuty sd fun d => { d with lost := false, unheard := 0 }

/-- A side adopts the bell of the tick in progress and computes it; a leading module's standby side relays it (R239). -/
def State.adoptBell (s : State) (sd : SideId) (b : Bytes) (ns : Nat) : State :=
  let s1 := (bellEntries b).foldl (fun (t : State) e => t.settleEntry sd e) s
  ((((s1.bellSeen sd).slaveOffset sd ns).keepBell sd s.now b ns).smirnelSend sd b).computeTick sd s.now (bellPresent b)

/-- A tick without an adopted bell is counted, once. -/
def State.unadopted (s : State) (sd : SideId) (missed : Bool) : State :=
  let late := missed || s.flag (Rg.bellStatus sd) Fd.bellStatusUnsealed
  let s1 := if missed then s.tick1 (Rg.bellErrs sd) Fd.bellErrsMissed else s
  let s2 := if late then s1.tick1 (Rg.bellErrs sd) Fd.bellErrsUnsealedTicks else s1
  (s2.wr (Rg.bellStatus sd) Fd.bellStatusMissRun (min 3 (s.rd (Rg.bellStatus sd) Fd.bellStatusMissRun + 1))).modDuty sd
    fun x => { x with missed := some s.now, unheard := if missed then x.unheard + 1 else 0 }

/-- A work tick without an adopted bell (R52): the side is unsealed; it leaves step, or its attempt or its trial starts
over (R232, R436). The Active side of a following module is unsealed and joins again when bells return. -/
def State.bellMissing (s : State) (sd : SideId) : State :=
  let d := s.duty sd
  let r := (s.side sd).role
  if r = .out ∨ (r = .active ∧ !s.pairTakes) ∨ d.computed = s.now ∨ d.missed = some s.now then s
  else
    let s1 := s.unadopted sd true
    if r = .active then s1.setFlag (Rg.bellStatus sd) Fd.bellStatusUnsealed true
    else if r = .standby then s1.leaveStep sd true
    else if s.phase sd = 3 then s1.attemptFail sd
    else if s.adopts sd then (s1.setFlag (Rg.bellStatus sd) Fd.bellStatusUnsealed true).trialBroken sd
    else s1

/-- A side that left step hears bells again: it resynchronises from the active side (R52). It has not adopted this one. -/
def State.hearBell (s : State) (sd : SideId) : State :=
  let s1 := if (s.duty sd).missed = some s.now then s else (s.unadopted sd false).modDuty sd fun x => { x with lost := false }
  if s.phase sd = 0 && (s.duty sd).resync.retryAt.isNone && s.active.isSome && (s.duty sd).sealAt.isNone && (s.duty sd).promoteAt.isNone
    then s1.startJoin sd else s1

/-! ### The bells of a leading module (R38, R239, R240) -/

/-- The notices of a bell. -/
def bellNotices (b : Bytes) : List Notice :=
  (upto (u8 b 0x38)).map fun i => let o := 0x02C8 + 16 * i; ⟨u8 b o, u8 b (o + 1), u32 b (o + 4), u64 b (o + 8), false⟩

/-- A stall-reset notice of the leading module's bell as this module takes it: caused by R128 where its own tally, which
counts the same sealed events, asks for it too (R128, R181). -/
def State.followNotice (s : State) (n : Notice) : Notice :=
  { n with auto := s.notices.any fun m => m.resets n.stall && m.auto }

/-- The command record at an offset of a bell: its sender replies, so this module has nobody to answer. -/
def bellCommand (b : Bytes) (o : Nat) : WaitCmd :=
  { hdr := ⟨.A, .internal, .ofNat 32 (u32 b o), .ofNat 32 (u32 b (o + 4)), .ofNat 8 (u8 b (o + 10)), 0, 0, 0⟩
    op := u16 b (o + 8), params := sub b (o + 16) (u16 b (o + 12)), tick := 0, answered := false, listed := true }

/-- The commands of a bell in their order. -/
def bellCommands (b : Bytes) : List WaitCmd :=
  ((upto (u8 b 0x39)).foldl (fun (acc : List WaitCmd × Nat) _ =>
    (acc.1 ++ [bellCommand b acc.2], acc.2 + 16 + (u16 b (acc.2 + 12) + 7) / 8 * 8)) ([], 0x02C8 + 16 * u8 b 0x38)).1

/-- The CAN entry at an offset of a bell. -/
def bellCanAt (b : Bytes) (o : Nat) : CanHeld :=
  let f := u8 b (o + 1)
  ⟨u8 b o, u32 b (o + 8), ⟨bit f 0, bit f 1, bit f 2, bit f 3, bit f 4, BitVec.ofNat 29 (u32 b (o + 4)), sub b (o + 12) (u8 b (o + 2))⟩⟩

/-- The CAN entries of a bell. -/
def bellCan (b : Bytes) : List CanHeld :=
  ((upto (u8 b 0x3C)).foldl (fun (acc : List CanHeld × Nat) _ =>
    (acc.1 ++ [bellCanAt b acc.2], acc.2 + 12 + (u8 b (acc.2 + 2) + 3) / 4 * 4)) ([], bellGooseAt b + 12 * u16 b 0x3A)).1

/-- The digests a bell carries: those of the tick before. -/
def bellDigests (b : Bytes) : DigestSet := ⟨u64 b 8 - 1, u64 b 0xC0, (upto 64).map fun t => u64 b (0xC8 + 8 * t)⟩

/-- What a bell of the leading module does to this one, once: notices and commands in the order listed, the sealed inputs.
A castling's notice comes with its command; of this module's own notices only stall resets wait for the leading module's
bell, which alone lists (R38, R128). -/
def State.applyBell (s : State) (sd : SideId) (b : Bytes) : State :=
  let w := s.now
  let l := (bellNotices b).filter fun n => noticeRank n.ty < 2 || n.ty == ntStallReset
  let own := s.notices.filter fun m => m.ty == ntStallReset && !l.any (fun n => n.resets m.stall)
  let s2 := (({ s with notices := own } : State).runBell w (l.map s.followNotice) (bellCommands b)).s
  let s3 := (s2.prepSeal w).sealInputs sd w (bellEntries b) (bellCan b)
  (({ s3 with deferred := bit (u8 b 3) 2, holdover := bit (u8 b 3) 3 }).fieldMarks w).markSealed

/-- A joining module is in step once its digests of its first computed tick are those of the leading one (R232, R240). -/
def State.pairJoined (s : State) (a : SideId) (b : Bytes) : State :=
  match s.pair.role == 4, s.pair.join.final, (s.duty a).digests.find? fun d => d.tick + 1 == s.now with
  | true, some j, some d =>
    if j + 2 ≠ s.now then s
    else if d == bellDigests b then
      ((s.modPair fun p => { p with role := 2, drifted := false, join := { PairJoin.idle with t0Off := p.join.t0Off, fits := p.join.fits } }).endLeaseOf
        lkRestart 2).setFlag (Rg.bellStatus a) Fd.bellStatusUnsealed false
    else s.pairJoinFail
  | _, _, _ => s

/-- The first bell of a tick that comes over the Smirnel Link is checked against this module's configuration too; the other
side of the module takes the copy that the first one forwards. -/
def State.takeBell (s : State) (sd : SideId) (b : Bytes) (ns : Nat) : State :=
  let first := !bothSides.any fun x => (s.duty x).computed == s.now
  if !s.bellOk sd b || (first && sub b 0x28 8 != s.configDigest.take 8) then s
  else
    let s1 := if first then (s.pairJoined sd b).applyBell sd b else s
    s1.adoptBell sd b ns

/-- A bell of the partner on a side's Smirnel path, its T0 offset measured. -/
def State.smirnelBell (s : State) (sd : SideId) (b : Bytes) (off : Int) (ns : Nat) : State :=
  if s.pairMode ≠ 1 || !s.smirnelUp sd then s
  else
    let image := (s.side sd).image
    let fits := u8 b 2 == imageBellVer image && u64 b 0x30 == (Config.buildId image).toNat
    let s1 := (s.enterBy sd 15 7 false (bellFrame b) (tickStart s.now + ns)).modPair fun p => { p with bellTick := s.now, join := { p.join with fits := fits } }
    let unsealed := match s1.active with | some a => s1.flag (Rg.bellStatus a) Fd.bellStatusUnsealed | none => false
    if s1.pairFollows && unsealed then s1.pairJoin
    else if !s1.pairTakes then s1.pairReturns off
    else if !s1.open_ || (s1.duty sd).computed == s1.now then s1
    else if s1.adopts sd && decide (ns ≤ 3000) && (s1.duty sd).missed != some s1.now then s1.takeBell sd b ns
    else s1

/-! ### A side seals by itself (R221 to R223) -/

/-- What a side has accepted and filed up to T0 of tick w. -/
def State.upToT0 (s : State) (sd : SideId) (w : Nat) : State :=
  s.modSide sd fun x => { x with
    gooseAcc := x.heldAtT0.goose, teleAcc := x.heldAtT0.tele
    streams := x.streams.map fun (e : Nat × StreamSt) => (e.1, { e.2 with filed := e.2.filed.filter fun a => decide (a.arr < tickStart w) }) }

/-- A stream takes back the samples that came after T0: those of a tick that has been sealed meanwhile are late (R50). -/
def State.takeLate (s : State) (sd : SideId) (slot : Nat) (after : List Filed) : State :=
  if after.isEmpty then s
  else
    let l := after.map fun a => { a with late := a.late || s.sealedAlready a.tick }
    let n := (l.filter (·.late)).length - (after.filter (·.late)).length
    let x := s.stream sd slot
    ((s.putStream sd slot { x with filed := x.filed ++ l }).count (Rg.lateCount sd) Fd.lateCountLateSamples n).count (Rg.streamLate sd slot)
      Fd.streamLateLate n

/-- A side has sealed tick w from what it held at T0: what it has accepted and filed since, as `x` holds it, stays for later
seals. -/
def State.afterT0 (s : State) (sd : SideId) (w : Nat) (x : Side) (es : List (Nat × Nat × Nat × Nat)) : State :=
  let s1 := s.modSide sd fun y => { y with gooseAcc := x.gooseAcc, teleAcc := x.teleAcc }
  x.streams.foldl (fun (t : State) e => t.takeLate sd e.1 (e.2.filed.filter fun a => decide (tickStart w ≤ a.arr)))
    (es.foldl (fun (t : State) e => t.settleEntry sd e) s1)

/-- The seal of the tick in progress on a side's own inputs as they stood at T0: no commands are listed; the side becomes
Active at the next T0. DESIGN CHOICE: its HOLDOVER flag is that of the last bell (log entry 277). -/
def State.selfSeal (s : State) (sd : SideId) : State :=
  let w := s.now
  let s0 := s.upToT0 sd w
  let present := match s0.sampleTick with | some k => s0.presence sd w k | none => []
  let es := (s0.gooseEntries sd w ++ s0.teleEntries sd w).take 256
  let s1 := s0.sealInputs sd w es ((s0.canToSeal sd w).filter fun h => canBefore (tickStart w) h)
  let s2 := (s1.setFlag (Rg.sideRoles sd) Fd.sideRolesSelfSealed true).modDuty sd fun d => { d with sealAt := none, promoteAt := some (w + 1) }
  ((((s2.fieldMarks w).computeTick sd w present).markSealed).bellSeen sd).afterT0 sd w (s.side sd) es

/-! ### Digests (R55) -/

/-- The digest of a stall's output image as Collect presents it. -/
def State.outDigest (s : State) (sd : SideId) (stall : Nat) : Nat :=
  crc64 ((upto 16).flatMap fun t => Tbl.getD (s.side sd).presented (taskKey stall t) [])

/-- The digests of work tick w: the last 16 ticks are kept. -/
def State.formDigests (s : State) (sd : SideId) (w : Nat) : State :=
  let runs (st : Nat) : Bool := s.stallState st == stRunning
  let d : DigestSet := ⟨w, listSum ((upto 64).map fun st => if runs st then 2 ^ st else 0),
    (upto 64).map fun st => if runs st then s.outDigest sd st else 0⟩
  s.modDuty sd fun x => let l := (x.digests.filter fun e => e.tick != w) ++ [d]; { x with digests := l.drop (l.length - 16) }

end Sys2Proof.Machine
end

