-- ==== Sys2Proof/Machine/Packets.lean ====
section
/-! DEFINITION. Command packets as they arrive (R385, R390 to R393, R400 to R407): framing, the checks of R400 in order,
replay windows, the queue of a side, and commands that wait for their bell. -/

namespace Sys2Proof.Machine

/-! ### The replay window (R401, R402) -/

/-- Whether the window accepts a sequence number. -/
def Principal.accepts (p : Principal) (n : Nat) : Bool :=
  n != 0 && (decide (p.high < n) || (decide (p.high ≤ n + 63) && !bit p.map (p.high - n)))

/-- The number is marked; the configuration store keeps H at every 4,096th accepted number. -/
def Principal.mark (p : Principal) (n : Nat) : Principal :=
  let q : Principal :=
    if p.high < n then
      let by_ := n - p.high
      { p with high := n, map := if 64 ≤ by_ then 1 else (p.map * 2 ^ by_ + 1) % 2 ^ 64 }
    else { p with map := p.map ||| 2 ^ (p.high - n) }
  if 4096 ≤ q.taken + 1 then { q with kept := q.high, taken := 0 } else { q with taken := q.taken + 1 }

/-! ### Fields of a packet (R393) -/

def pkLength (b : Bytes) : Nat := u16 b 4
def pkOp (b : Bytes) : Nat := u16 b 16
def pkSlot (p : Principal) : Nat := u8 p.record 6

/-- The header fields that execution needs. -/
def pkHdr (sd : SideId) (t : Transport) (ring : Fin 64) (b : Bytes) : CmdHdr :=
  { side := sd, transport := t, origin := BitVec.ofNat 32 (u32 b 8), seq := BitVec.ofNat 32 (u32 b 12), stall := BitVec.ofNat 8 (u8 b 6)
    applyTick := BitVec.ofNat 64 (u64 b 20), replyMax := BitVec.ofNat 16 (u16 b 28), ring := ring }

/-- The parameters of a packet. -/
def pkParams (b : Bytes) : Bytes := sub b 32 (pkLength b - 48)

/-- The bit of a transport in TRANSPORTS (R396). -/
def transportBit : Transport → Nat
  | .udp _ => 0
  | .mailbox _ => 1
  | _ => 2

/-! ### Discards and unsigned replies -/

/-- A mailbox command without a reply completes with USED 0. -/
def State.dropFlight (s : State) (h : CmdHdr) : State :=
  match h.transport with
  | .mailbox n => if s.inFlight h.side h.ring.val n then s.mailboxReply h.side h.ring.val n [] else s
  | _ => s

/-- A packet is discarded without reply. -/
def State.discardPacket (s : State) (h : CmdHdr) : State := (s.tick1 (Rg.cmdDrop h.side) Fd.cmdDropDiscarded).dropFlight h

def State.refusedPacket (s : State) (h : CmdHdr) : State := s.tick1 (Rg.cmdCounts h.side) Fd.cmdCountsRefused

/-- A failure at checks 2 to 4: an unsigned reply, at most 100 a second for each side. -/
def State.unsigned (s : State) (h : CmdHdr) (op : Nat) (st : Status) : State :=
  let s1 := s.refusedPacket h
  if (s.side h.side).unsignedSent < 100 then
    (s1.modSide h.side fun x => { x with unsignedSent := x.unsignedSent + 1 }).replyKey none h op st 0 []
  else s1.discardPacket h

/-! ### The checks (R400) -/

/-- The principal of a packet, when check 4 passes. -/
def State.authentic (s : State) (h : CmdHdr) (b : Bytes) : Option Principal :=
  match Tbl.find s.principals h.origin.toNat with
  | none => none
  | some p =>
    if bit (u8 p.record 7) (transportBit h.transport) then
      match s.principalKey h.side h.origin.toNat with
      | some key => if tagOf key (b.take (b.length - 16)) = b.drop (b.length - 16) then some p else none
      | none => none
    else none

/-- The rule of R192 for a mailbox packet. -/
def State.pasidWrong (s : State) (h : CmdHdr) : Bool :=
  (match h.transport with | .mailbox _ => true | _ => false)
    && s.pasidStall h.side (s.rd (Rg.ringPasid h.side h.ring.val) Fd.ringPasidPasid) != some h.stall.toNat

/-- The state that the listed commands waiting before this one will leave at its bell (R405). -/
def State.foreseen (h : CmdHdr) (s : State) : State :=
  let bell := if h.applyTick = 0 then s.now + 1 else h.applyTick.toNat
  (s.waiting.filter fun c => c.listed && decide (c.tick ≤ bell)).foldl State.runWaiting s

/-- Checks 5 to 8 of an authentic packet; what passes waits for its bell. -/
def State.judgePacket (s : State) (h : CmdHdr) (b : Bytes) (p : Principal) : State :=
  let op := pkOp b
  let s0 := s.loadTill h.side (pkSlot p)
  if !p.accepts h.seq.toNat then
    ((s0.refusedPacket h).refusedPrincipal h .replay).reply h op .replay 0 (beBytes 4 p.high)
  else
    let s1 := { s0 with principals := Tbl.put s0.principals h.origin.toNat (p.mark h.seq.toNat) }
    match cmdOf op with
    | none => (s1.refusedPacket h).turnAway h op .unknownOpcode []
    | some c =>
      if s1.pasidWrong h then
        (((s1.refusedPacket h).tick1 (Rg.pasidRefused h.side) Fd.pasidRefusedCount).refusedPrincipal h .noRight).turnAway h op .noRight []
      else
        let ok := (s1.barred c h (pkParams b)).isNone
        let s2 := if ok then s1.tick1 (Rg.cmdCounts h.side) Fd.cmdCountsAccepted else s1.refusedPacket h
        s2.take c h (pkParams b) (s2.hold (State.foreseen h) c h (pkParams b))

/-- The checks of R400 on a packet, in order. -/
def State.checkPacket (s : State) (h : CmdHdr) (b : Bytes) : State :=
  let len := pkLength b
  let max_ := u16 b 28
  if u16 b 0 ≠ 0x4B56 ∨ len < 48 ∨ u8 b 3 ≠ 0 ∨ b.length < 32 then s.discardPacket h
  else if 1056 < len ∨ len ≠ b.length ∨ (max_ ≠ 0 ∧ (max_ < 48 ∨ 9216 < max_)) then s.unsigned h (pkOp b) .badLength
  else if u8 b 2 ≠ 1 then s.unsigned h (pkOp b) .badVersion
  else match s.authentic h b with
    | none => (s.refusedPrincipal h .badAuth).unsigned h (pkOp b) .badAuth
    | some p => s.judgePacket h b p

/-! ### Arrival (R391, R392, R407) -/

/-- Whether the module hears packets at all: not while it is off, parked or stopping. -/
def State.hears (s : State) : Bool := s.power.mode == .service || s.power.mode == .booting

/-- The interpreter takes the packet that has waited longest on a side, while its share of the tick lasts (R407). -/
def State.takePacket (s : State) (sd : SideId) : State :=
  match (s.side sd).rxQueue, s.cmdBudget with
  | e :: rest, n + 1 => (({ s with cmdBudget := n } : State).modSide sd fun x => { x with rxQueue := rest }).checkPacket e.1 e.2
  | _, _ => s

/-- What waits on the sides, taken in turn, at most n packets. -/
def State.takePackets (s : State) (sd : SideId) : Nat → State
  | 0 => s
  | n + 1 => if (s.side sd).rxQueue.isEmpty then (s.takePacket sd.other).takePackets sd n else (s.takePacket sd).takePackets sd.other n

/-- The commands that the interpreter takes in a tick: 50,000 a second for the module (R407). -/
def commandShare (w : Nat) : Nat := (tickIndex w + 1) * 50000 / 4800 - tickIndex w * 50000 / 4800

/-- A tick begins: the interpreter goes on with the packets that wait. -/
def State.readQueues (s : State) : State :=
  let n := commandShare s.now
  ({ s with cmdBudget := n } : State).takePackets .A n

/-- A packet joins its side's queue, and is taken at once when nothing waits before it; a full queue drops it (R407). -/
def State.queuePacket (s : State) (h : CmdHdr) (b : Bytes) : State :=
  if 1024 ≤ (s.side h.side).rxQueue.length then (s.tick1 (Rg.cmdDrop h.side) Fd.cmdDropQueueFull).dropFlight h
  else (s.modSide h.side fun x => { x with rxQueue := x.rxQueue ++ [(h, b)] }).takePacket h.side

/-- The bytes from the first one that may start a magic. -/
def fromMagic : Bytes → Bytes
  | [] => []
  | [x] => if x = 0x4B then [x] else []
  | x :: y :: rest => if x = 0x4B ∧ y = 0x56 then x :: y :: rest else fromMagic (y :: rest)

/-- The packets that are complete on the console. -/
def State.readConsole (s : State) (sd : SideId) : Nat → State
  | 0 => s
  | n + 1 =>
    let b := fromMagic (s.side sd).console
    let s1 := s.modSide sd fun x => { x with console := b }
    let len := max 6 (pkLength b)
    if b.length < len then s1
    else
      let s2 := s1.modSide sd fun x => { x with console := b.drop len }
      (s2.queuePacket (pkHdr sd .console 0 (b.take len)) (b.take len)).readConsole sd n

/-- COMMAND_PACKET: a datagram on a port (counted from 0), or bytes on the console. A datagram to another address or port than
the station's command port is no command packet (R390, R391). -/
def State.commandPacket (s : State) (sd : SideId) (t : Transport) (port : Nat) (fragment : Bool) (b : Bytes) : State :=
  if !s.hears then s
  else match t with
    | .udp a =>
      let h := pkHdr sd t 0 b
      if !s.forStation sd a then s
      else if port < 8 ∨ 10 < port ∨ fragment ∨ pkLength b ≠ b.length then s.discardPacket h else s.queuePacket h b
    | .console => (s.modSide sd fun x => { x with console := x.console ++ b }).readConsole sd (b.length + 1)
    | _ => s

def execCommandPacket (side : SideId) (transport : Transport) (port : Fin 16) (fragment : Bool) (packet : Bytes) (s : State) :
    Host.Outcome State Fault Refusal := .next (s.commandPacket side transport port.val fragment packet)

/-- CONSOLE_GAP_TIMEOUT: the packet in progress is discarded. -/
def execConsoleGapTimeout (side : SideId) (s : State) : Host.Outcome State Fault Refusal :=
  .next (if (s.side side).console.isEmpty then s
    else (s.tick1 (Rg.cmdDrop side) Fd.cmdDropDiscarded).modSide side fun x => { x with console := [] })

/-- MAILBOX_COMMAND: the Porter reads the packet of the next descriptor of a mailbox ring. -/
def State.mailboxCommand (s : State) (sd : SideId) (ring : Fin 64) : State :=
  let r := ring.val
  let x := s.ring sd r
  if !s.hears || !s.ringRuns sd r || s.rd (Rg.ringCfg sd r) Fd.ringCfgKind != 3 then s
  else match x.descs[x.flight.length]? with
    | none => s
    | some d =>
      if d.len < 9216 then s
      else
        let b := d.buffer.take (max 32 (pkLength d.buffer))
        let n := (s.side sd).mailSeq
        let s1 := (s.putRing sd r { x with flight := x.flight ++ [(n, none)] }).modSide sd fun y => { y with mailSeq := n + 1 }
        (s1.movedBytes sd b.length).queuePacket (pkHdr sd (.mailbox n) ring b) b

def execMailboxCommand (side : SideId) (ring : Fin 64) (s : State) : Host.Outcome State Fault Refusal := .next (s.mailboxCommand side ring)

/-! ### Commands at their bell -/

/-- COMMAND_APPLY: what a side holds for the bell of the tick in progress, and has not executed, executes in order. -/
def State.applyDue (s : State) (sd : SideId) : State :=
  let due (c : WaitCmd) : Bool := c.hdr.side == sd && c.tick == s.now && c.tick != 0 && (!c.listed || s.active.isSome)
  (s.waiting.filter due).foldl State.runWaiting { s with waiting := s.waiting.filter fun c => !due c }

def execCommandApply (side : SideId) (s : State) : Host.Outcome State Fault Refusal := .next (s.applyDue side)

end Sys2Proof.Machine
end

