-- ==== Sys2Proof/Machine/Tick.lean ====
section
/-! DEFINITION. The work tick (R32, R36): what TICK_START closes and what it opens, the bell's rows (R51 to R53), digest
comparison, drills and migration notices (R56 to R59), a demotion learned (R220 to R223). -/

namespace Sys2Proof.Machine

/-! ### The end of a tick: Scan, Collect, Guard -/

/-- The active side stopped before it computed tick k (R223, R225; DEDUCED): neither its pulse nor its ALIVE has moved in
that tick, and the other side has missed its bell. -/
def State.ceasedIn (s : State) (sd : SideId) (k : Nat) : Bool :=
  let p := (s.arb.pulse sd).1
  (s.side sd).role == .active && p != 0 && decide (p < k) && decide ((s.arb.alive sd).2 < k) && (s.duty sd.other).missed == some k

/-- A side's frames and outputs leave the module: it is in service, or seals for itself until it is Active; a side that the
Arbiter hears no more has stopped (R223). -/
def State.serves (s : State) (sd : SideId) : Bool :=
  (s.computes sd || (s.duty sd).promoteAt.isSome) && !s.arb.silent sd && !s.ceasedIn sd (s.now - 1)

/-- COLLECT_END_MAX: the Collect phase runs between 195.0 and 203.0 µs (R36); when it ends is a free value between. -/
def State.collectEnd (s : State) (sd : SideId) : State :=
  let f := s.free
  f.2.raise (Rg.phaseHw sd) Fd.phaseHwCollectEndMax (19500 + f.1.toNat % 801)

/-- Scan and Collect of the tick in progress on a side (R36). A side that does not serve builds its frames for their
sequence numbers only (R195). -/
def State.collectSide (s : State) (sd : SideId) : State :=
  let w := s.now
  let s1 := ((s.runScan sd).presentAll sd).formDigests sd w
  let s2 := (s1.collectPublications sd w).collectTelegrams sd w
  let s3 := s2.canCollect sd
  let s4 := if s3.serves sd then let o := s3.outDataOf sd w; s3.modSide sd fun x => { x with outData := some o }
    else s3.modSide sd fun x => { x with pubQueue := [], outData := none }
  (((s4.takeSnapshots sd w fun t a => t.peekWord a).acquire sd w s4.sampleTick).exportAll sd).collectEnd sd

/-- The sides that have computed the tick in progress. -/
def State.computing (s : State) : List SideId :=
  bothSides.filter fun sd => (s.duty sd).computed == s.now && (s.side sd).role != .out

/-- n ticks pass that no side computed (R225): they are counted, the chains will start over, and the repeat schedules of
the control blocks, which are counted in ticks, have not advanced. -/
def State.loseTicks (s : State) (sd : SideId) (n : Nat) : State :=
  let s1 := (s.count (Rg.failoverCounts sd) Fd.failoverCountsUncomputed n).modDuty sd fun d => { d with gap := true, lostUpto := s.now }
  s1.modSide sd fun x => { x with goosePubs := x.goosePubs.map fun e => (e.1, { e.2 with due := e.2.due + n }) }

/-- A tick that no side computed (R225). -/
def State.uncomputed (s : State) : State :=
  s.forSides fun sd t => if (t.side sd).role = .out then t else t.loseTicks sd 1

/-- The tallies that have reached their limit in this tick (R128). -/
def State.limitTallies (s : State) : State :=
  ((s.aborted.map (· / 16)).eraseDups).foldl State.tallyLimit { s with aborted := [] }

/-- Sides that have adopted no bell by the end of the tick (R52). -/
def State.missBells (s : State) : State := s.forSides fun sd t => if (t.side sd).role = .active && !t.pairTakes then t else t.bellMissing sd

/-- The joining of a module ends with a tick in which it should have computed and did not (R233). -/
def State.pairLapse (s : State) : State :=
  match s.pair.join.final with
  | some j => if s.pair.role = 4 ∧ s.pair.join.phase = 3 ∧ j < s.now ∧ s.computing.isEmpty then s.pairJoinFail else s
  | none => s

/-- A side that ceased in the tick in progress has not computed it. -/
def State.dropCeased (s : State) : State :=
  s.forSides fun sd t => if t.ceasedIn sd t.now then t.modDuty sd fun d => { d with computed := 0 } else t

/-- A side in service that a tick left unsealed consumes the numbers of the frames it did not build (R195, R52): its counter
stands where that of the side which computed the tick does. -/
def State.keepPrp (s : State) (l : List SideId) : State :=
  match l with
  | [a] => if (s.side a.other).role = .out then s
    else s.wr (Rg.pubSeq a.other) Fd.pubSeqNext (s.rd (Rg.pubSeq a) Fd.pubSeqNext)
  | _ => s

/-- The tick in progress ends: sides whose bell never came are unsealed; Scan, Collect and Guard run. -/
def State.closeTick (s : State) : State :=
  if !s.open_ then s
  else
    let s1 := ((s.forSides fun sd t => t.deferGated sd).missBells).dropCeased
    let l := s1.computing
    let s2 := if l.isEmpty then s1.uncomputed else l.foldl State.writeRoot ((l.foldl State.collectSide s1).keepPrp l)
    let s3 := (s2.endResets.limitTallies).admitAll
    let migrates := bothSides.any fun sd => !(s3.side sd).health.migrating.isEmpty
    let s4 := s3.forSides fun sd t => (t.migrate sd).resyncTick sd migrates
    { (s4.pairLapse.pairJoinTick).countTrial with open_ := false }

/-! ### Release at T0 (R196, R214, R238) -/

/-- What the last tick built leaves at T0. -/
def State.releaseSide (s : State) (sd : SideId) : State :=
  let open_ := !s.holdPublish sd && s.pairPublishes
  let may := s.serves sd && open_
  (s.releaseFrames sd may (s.serves sd.other)).canRelease sd may (open_ && (s.side sd).role == .joining)

/-! ### Drills (R57 to R59) -/

def evDrill : Nat := 0x1014

def drillCode : DrillFault → Nat
  | .none => 0
  | .part _ => 1
  | .sideFault _ => 2

def drillAddress : DrillFault → Nat
  | .none => 0
  | .part a => a.toNat
  | .sideFault a => a.toNat

/-- The stalls of a mask. -/
def maskStalls (m : Nat) : List Nat := allStalls.filter fun t => bit m t

/-- The standby side takes stalls over from the active side and publishes them again. -/
def State.takeStalls (s : State) (a b : SideId) (l : List Nat) : State :=
  (l.foldl (fun (t : State) st => t.copyStall a b st) s).modSide b fun x => { x with withheld := x.withheld.filter fun st => !l.contains st }

/-- A side retires what its verdict names; a side fault, that of a part no spare takes among them (R10), sends it Out. -/
def State.drillRetire (s : State) (sd : SideId) (f : DrillFault) : State :=
  match f with
  | .none => s
  | .part a =>
    let r := s.retirePart sd a.toNat
    if r.2 then r.1 else (r.1.unitFailed sd (partUnit a.toNat)).demote sd rcDrill
  | .sideFault a => ((s.logFault sd a.toNat 0).unitFailed sd (partUnit a.toNat)).demote sd rcDrill

/-- VERDICT as a side shows it. -/
def verdictCode (own other : DrillFault) : Nat :=
  match own, other with
  | .none, .none => 1
  | .none, _ => 3
  | _, .none => 2
  | _, _ => 4

/-- The outcome of a drill at the bell of tick w + 3 (R59). -/
def State.drillOutcome (s : State) (d : DrillSt) (fa fb : DrillFault) : State :=
  let own (sd : SideId) : DrillFault := if sd = .A then fa else fb
  let l := maskStalls d.stalls
  let body := beBytes 8 d.tick ++ beBytes 8 d.stalls ++ beBytes 1 (drillCode fa) ++ beBytes 1 (drillCode fb) ++ zeros 2 ++ beBytes 4 (drillAddress fa)
    ++ beBytes 4 (drillAddress fb) ++ zeros 4
  let s1 := ({ s with drill := none }).note evDrill body
  let s2 := s1.forSides fun sd t => ((t.setFlag (Rg.bellStatus sd) Fd.bellStatusDrill false).setFlag (Rg.drillStatus sd)
    Fd.drillStatusActive false).wr (Rg.drillStatus sd) Fd.drillStatusVerdict (verdictCode (own sd) (own sd.other))
  match s2.active with
  | none => s2
  | some a =>
    let b := a.other
    let heal (t : State) : State :=
      if (t.side b).role = .standby then t.takeStalls a b l
      else t.modSide b fun x => { x with withheld := x.withheld.filter fun st => !l.contains st }
    match own a, own b with
    | .none, f => heal (s2.drillRetire b f)
    | f, .none => ((s2.drillRetire a f).giveUp a l).modSide b fun x => { x with withheld := x.withheld.filter fun st => !l.contains st }
    | f, g => heal ((s2.drillRetire b g).drillRetire a f)

/-- The outcome falls due with the verdicts exchanged. -/
def State.drillDue (s : State) : State :=
  match s.drill with
  | some d => match d.verdict with
    | some v => if d.tick + 3 ≤ s.now then s.drillOutcome d v.1 v.2 else s
    | none => s
  | none => s

/-- A mismatch starts a drill, or joins the one in progress (R59); the standby side withholds the stalls (R58). -/
def State.startDrill (s : State) (b : SideId) (w : Nat) (l : List Nat) : State :=
  let mask := listSum (l.map fun t => 2 ^ t)
  let s1 := s.modSide b fun x => { x with withheld := (x.withheld ++ l).eraseDups }
  match s1.drill with
  | some d => { s1 with drill := some { d with stalls := d.stalls ||| mask } }
  | none =>
    ({ s1 with drill := some ⟨w, mask, none⟩ }).forSides fun sd t =>
      let t1 := (t.setFlag (Rg.bellStatus sd) Fd.bellStatusDrill true).setFlag (Rg.drillStatus sd) Fd.drillStatusActive true
      (t1.wr (Rg.drillStatus sd) Fd.drillStatusStall (l.headD 0)).wr (Rg.drillStatus sd) Fd.drillStatusTickLow (w % 2 ^ 22)

/-- The stalls that the migrations of tick w name. -/
def State.namedStalls (s : State) (w : Nat) : List Nat := (bothSides.flatMap fun sd => (s.duty sd).named w).eraseDups

/-- Two digest sets mismatch on a stall (R56). -/
def digestClash (x y : DigestSet) (t : Nat) : Bool :=
  bit x.valid t != bit y.valid t || (bit x.valid t && x.values.getD t 0 != y.values.getD t 0)

/-- The echo of the standby side (R56): the tick, DIGEST_VALID, 64 digests, CRC-32C, 532 bytes in all. -/
def echoBytes (d : DigestSet) : Bytes :=
  let body := beBytes 8 d.tick ++ beBytes 8 d.valid ++ (upto 64).flatMap fun t => beBytes 8 (d.values.getD t 0)
  body ++ beBytes 4 (crc32c body)

/-- What an echo says, if it is intact. -/
def readEcho (b : Bytes) : Option DigestSet :=
  if b.length = 532 ∧ u32 b 528 = crc32c (b.take 528) then some ⟨u64 b 0, u64 b 8, (upto 64).map fun t => u64 b (16 + 8 * t)⟩ else none

/-- The side that adopts bells returns its echo of the tick before on the bell lane. -/
def State.sendEcho (s : State) (b : SideId) : State :=
  match (s.duty b).digests.find? fun d => d.tick + 1 == s.now with
  | some d => s.modDuty b fun x => { x with echo := echoBytes d }
  | none => s

/-- Both sides compare the digests of the tick before (R56, R57): the active side's as its bell carries them, the other's
as its echo does. -/
def State.compareDigests (s : State) : State :=
  let w := s.now - 1
  let set (sd : SideId) : Option DigestSet := (if s.active = some sd then (s.duty sd).digests.find? (fun d => d.tick == w)
    else readEcho (s.duty sd).echo).filter fun d => d.tick == w
  match s.active with
  | none => s
  | some a =>
    let b := a.other
    match set a, set b with
    | some x, some y =>
      let l := allStalls.filter fun t => digestClash x y t
      match (s.side b).role with
      | .standby =>
        let named := s.namedStalls w
        let held := l ++ (s.side b).health.stale ++ s.drill.elim [] fun d => maskStalls d.stalls
        let s0 := s.modSide b fun z => { z with withheld := z.withheld.filter fun st => !named.contains st || held.contains st }
        if l.isEmpty then s0
        else
          let s1 := s0.forSides fun sd t => t.putReg (Rg.mismatchMap sd) (t.regWord (Rg.mismatchMap sd) ||| listSum (l.map fun t => 2 ^ t))
          if l.all named.contains && named.all l.contains then
            (s1.takeStalls a b l).forSides fun sd t => ((t.wr (Rg.drillStatus sd) Fd.drillStatusVerdict 5).wr (Rg.drillStatus sd)
              Fd.drillStatusStall (l.headD 0)).wr (Rg.drillStatus sd) Fd.drillStatusTickLow (w % 2 ^ 22)
          else s1.startDrill b w l
      | .joining =>
        let r := (s.duty b).resync
        if s.phase b = 3 && (match r.final with | some j => j + 1 == w | none => false) then
          if l.isEmpty then s.joined b else s.attemptFail b
        else if r.trial && s.phase b == 0 && !l.isEmpty then s.trialBroken b
        else s
      | _ => s
    | _, _ => s

/-! ### The start of a tick -/

/-- Whether a TICK_START is in order: the next number or a later one, by the new time where a step is due; any number where
time is not in use. -/
def State.tickOk (s : State) (w : Nat) : Bool :=
  decide ((match s.stepDue with | some x => x.before | none => s.now) < w) || s.power.mode != .service

/-- The work tick takes its number; a staged time write applies at its boundary (R32, R290). -/
def State.turn (s : State) (w : Nat) : State := { s.applyStep with now := w }

/-- TIME_STEP_APPLY: the second boundary has come: the tick in progress ends and the staged time is loaded (R290). -/
def execTimeStepApply (s : State) : Host.Outcome State Fault Refusal :=
  .next (if s.stepDue.isSome then s.closeTick.applyStep else s)

/-- A stall without a BUDGET or ACCESS abort in the whole second before loses its count of automatic resets (R181); every
tally starts again (R128). -/
def State.secondTallies (s : State) : State :=
  let s1 := allStalls.foldl (fun (t : State) st =>
    if s.abortedSec.contains st then t else t.wr (Rg.stallState st) Fd.stallStateAutoResets 0) s
  { s1 with tally := [], abortedSec := [] }

/-- A new TAI second, and what counts by it (R128, R181, R329, R400, R409); each side's 1PPS output rises (R296). -/
def State.newSecond (s : State) (before : Nat) : State :=
  if s.now / 4800 = before / 4800 then s
  else s.secondTallies.floodSecond.forSides fun sd t =>
    let u := t.modSide sd fun x => { x with unsignedSent := 0, crierSent := 0 }
    if u.power.mode = .off ∨ u.power.mode = .parked then u else u.emit (.pps sd (u.now / 4800))

/-- Entries of the duplicate filter older than 400 ms (R74). -/
def State.expireDups (s : State) (sd : SideId) : State :=
  s.modSide sd fun x => { x with dups := x.dups.filterMap fun (e : Nat × List (Nat × Nat)) =>
    let kept := e.2.filter fun q => decide (s.now < q.2 + 1920)
    if kept.isEmpty then none else some (e.1, kept) }

/-- Everything that only time brings about, at T0. -/
def State.timers (s : State) : State :=
  let s2 := (s.drainQueues.forSides fun sd t => t.admitSideFloods sd).retryJoins
  let s3 := s2.forSides fun sd t =>
    let t1 := ((((t.engineReads sd).expireDups sd).expireNodes sd).svFailureRuns sd).rotateTests sd
    let u := t1.modSide sd fun x => { x with heldAtT0 := ⟨x.gooseAcc, x.teleAcc⟩ }
    (Tbl.keys (u.side sd).rings).foldl (fun (v : State) r => v.ringTimeout sd r) u
  let s4 := ((Tbl.keys s3.unlocks).foldl State.unlockExpiry s3.lockoutEnd).validationsEnd
  s4.shareServo.holdLong.utcTick

/-- A demotion due at this T0 (R218), a reboot after it when a watchdog asked for one (R481). -/
def State.leaveDue (s : State) (sd : SideId) : State :=
  match (s.duty sd).leaveAt with
  | some (t, cause) =>
    if t ≤ s.now then
      let s1 := s.demote sd (cause % 16)
      if 16 ≤ cause then s1.bootSide sd 5 (s1.side sd).stored else s1.modDuty sd fun d => { d with leaveAt := none }
    else s
  | none => s

/-- The side that has sealed a tick itself, or completed the last bell, becomes Active (R221, R222). -/
def State.promoteDue (s : State) (sd : SideId) : State :=
  match (s.duty sd).promoteAt with
  | some t =>
    if t ≤ s.now ∧ (s.active.isNone ∨ s.active = some sd) then
      let cause := if (s.duty sd.other).demote then s.rd (Rg.sideRoles sd.other) Fd.sideRolesLastCause else rcSilent
      (s.promote sd cause).promotedGambit sd
    else s
  | none => s

/-- Roles, drills and the pair at T0. -/
def State.rolesDue (s : State) : State :=
  let s1 := if s.activationDue then s.activate else s.updateHandover
  let s2 := ((s1.forSides fun sd t => t.leaveDue sd).drillDue).dueHandover
  ((s2.forSides fun sd t => (t.promoteDue sd).healStalls sd).pairHandover).pairEval

/-- The PRP counter of a side's first tick in service (R195). -/
def State.firstPrp (s : State) (a : SideId) (w : Nat) : State :=
  if (s.duty a).digests.isEmpty && (s.duty a).bells.isEmpty then s.wr (Rg.pubSeq a) Fd.pubSeqNext (w % 65536) else s

/-- The side that must seal tick w by itself does so (R222, R223). -/
def State.sealDue (s : State) (sd : SideId) (w : Nat) : State :=
  match (s.duty sd).sealAt with
  | some k => if k ≤ w ∧ (s.active.isNone ∨ s.active = some sd) then s.selfSeal sd else s
  | none => s

/-- The bell of tick w, or the seal of a side that must seal by itself. An active side that has stopped rings none (R223). -/
def State.ringBell (s : State) (w : Nat) : State :=
  let s1 := match s.active with
    | some a =>
      if !s.arb.silent a && !s.ceasedIn a (w - 1) && s.pairSeals && (s.duty a).sealAt.isNone then ((s.firstPrp a w).installStored.listStarts).sealBell a w else s.prepSeal w
    | none => s.prepSeal w
  s1.forSides fun sd t => t.sealDue sd w

/-- Failed lanes are dealt with (R18). When both paths go while the bell lane still works no bell will be missing, so the
split rules apply at this boundary (R18, R235; DEDUCED). -/
def State.settleCrosslink (s : State) : State :=
  let t := s.settleLanes
  match s.active with
  | some a =>
    let b := a.other
    let served := (t.side b).role == .standby || (t.side b).role == .joining
    if served && s.xlinkUp b && !t.xlinkUp b && !t.xlink.lost.contains 8 then t.splitSide b else t
  | none => t

/-- T0 of work tick w in service. -/
def State.openTick (s : State) (w : Nat) : State :=
  let s1 := ((s.rolesDue).loadGates).settleCrosslink
  let s2 := (s1.timers).forSides fun sd t => t.releaseSide sd
  let s3 := ((s2.pumpLoads).windowOver).secondReboot
  if s3.power.mode = .service then { (s3.ringBell w).runUnlisted w with open_ := true } else s3.runUnlisted w

/-- T0 of a tick in which the module enters its orderly stop (R483): the last tick's frames leave, nothing is computed. -/
def State.haltTick (s : State) (w : Nat) : State := (s.drainQueues.forSides fun sd t => t.releaseSide sd).powerHaltAt w

/-- TICK_START. -/
def State.startTick (s : State) (w : Nat) : State :=
  if !s.tickOk w then s
  else
    let s0 := s.closeTick
    let s1 := ((s0.countImage (if s0.stepDue.isSome then 1 else w - s.now)).turn w).newSecond s.now
    match s1.power.mode with
    | .service => if (match s1.power.stopAt with | some t => decide (t ≤ w) | none => false) then s1.haltTick w else (s1.openTick w).readQueues
    | .booting => ((s1.settleCrosslink.timers).runUnlisted w).readQueues
    | _ => s1

def execTickStart (w : DWord) (s : State) : Host.Outcome State Fault Refusal := .next (s.startTick w.toNat)

/-! ### The rows of the bell -/

/-- BELL_RECEIVE over the cross-link: an adopting side adopts a bell that it holds by 3.0 µs and that passes every check; a
bell that fails counts as missing at the deadline. A Joining side hears it only. -/
def State.receiveBell (s : State) (sd : SideId) (intact : Bool) (ns : Nat) : State :=
  match s.bellSent sd with
  | none => s
  | some b =>
    if !s.open_ || !intact || !s.bellCarried sd || (s.duty sd).computed == s.now then s
    else if s.adopts sd then
      if ns ≤ 3000 && (s.duty sd).missed != some s.now && s.bellOk sd b then s.adoptBell sd b ns else s
    else if (s.side sd).role = .joining then s.hearBell sd
    else s

/-- BELL_RECEIVE: over the cross-link, or over the side's Smirnel path with the bytes the partner sent and the T0 offset
that their arrival shows. -/
def execBellReceive (sd : SideId) (intact : Bool) (arrival : BellArrival) (s : State) : Host.Outcome State Fault Refusal :=
  .next (match arrival.smirnel with
    | none => s.receiveBell sd intact arrival.ns
    | some e => if intact then s.smirnelBell sd e.1 e.2 arrival.ns else s)

/-- BELL_DEADLINE: 3.0 µs after T0 without an adopted bell (R52). -/
def execBellDeadline (sd : SideId) (s : State) : Host.Outcome State Fault Refusal :=
  .next (if s.open_ then s.bellMissing sd else s)

/-! ### A bell that stays away (R53, R223, R235) -/

def evBellLoss : Nat := 0x2015

/-- The ticks since the side's last one in which its silent partner was the only other to compute: no side computed them
(R223, R225; DEDUCED: a partner whose pulses have ceased has computed none of them). Those counted already are not counted
again. -/
def State.silentGap (s : State) (sd : SideId) : State :=
  let n := s.now - 1 - max (s.duty sd).computed (s.duty sd).lostUpto
  if n = 0 then s else s.loseTicks sd n

/-- What the side does about it, in the order of R235: the Arbiter unheard by both sides, the active side demoted or
silent, the cross-link failed. -/
def State.bellLost (s : State) (sd : SideId) : State :=
  let o := sd.other
  let heard (x : SideId) : Bool := s.flag (Rg.sideSelf x) Fd.sideSelfArbSeen
  if !heard sd && !heard o then
    let s0 := s.splitOutcome sd 4
    let s1 := if (s.side o).role = .active then s0.demote o rcHold else s0.goOut o rcHold
    s1.goOut sd rcHold
  else if (s.duty o).demote then
    if s.mayPromote sd then (s.sealNow sd (s.now + 1)).splitOutcome sd 5 else s
  else if !s.flag (Rg.sideSelf sd) Fd.sideSelfPeerSeen then
    if s.mayPromote sd then
      let t := if (s.side o).role = .active then ((s.setRole o .out rcSilent).loseCommands o true).silentGap sd else s
      (t.selfSeal sd).splitOutcome sd 2
    else s
  else if !s.xlinkUp sd then s.splitSide sd
  else s

/-- BELL_LOSS: three work ticks in a row without a bell that the side could adopt or hear. -/
def execBellLoss (sd : SideId) (s : State) : Host.Outcome State Fault Refusal :=
  let due := decide (3 ≤ (s.duty sd).unheard) && !(s.duty sd).lost && (s.side sd).role == .joining
  .next (if due && (s.duty sd).promoteAt.isNone then
      ((s.sideReport sd evBellLoss (beBytes 8 s.now ++ zeros 8)).modDuty sd fun d => { d with lost := true }).bellLost sd
    else s)

/-! ### Digests, drills, migrations -/

/-- DIGEST_ECHO: the echo comes back, and both sides compare. -/
def execDigestEcho (s : State) : Host.Outcome State Fault Refusal :=
  .next (if s.open_ then (match s.active with | some a => s.sendEcho a.other | none => s).compareDigests else s)

/-- DRILL_VERDICT: the outcome takes effect at the bell of tick w + 3, or at once when that has come. -/
def execDrillVerdict (faultA faultB : DrillFault) (s : State) : Host.Outcome State Fault Refusal :=
  .next (match s.drill with
    | some d => ({ s with drill := some { d with verdict := some (faultA, faultB) } }).drillDue
    | none => s)

/-- MIGRATION_NOTICE: the stalls that a side's migration of this tick names are withheld on the standby side. -/
def execMigrationNotice (sd : SideId) (s : State) : Host.Outcome State Fault Refusal :=
  .next (match s.active with
    | some a => s.modSide a.other fun x => { x with withheld := (x.withheld ++ (s.duty sd).named s.now).eraseDups }
    | none => s)

/-! ### A demotion learned (R220 to R222) -/

/-- What a side that takes over does, `ns` after T0 of the tick in progress (R221, R222). News after 203.0 µs counts as
news before the next T0. -/
def State.takeOver (s : State) (sd : SideId) (ns : Nat) : State :=
  if 203000 ≤ ns then s.sealNow sd (s.now + 1)
  else if (s.duty sd).computed = s.now then s.modDuty sd fun x => { x with promoteAt := some (s.now + 1) }
  else if ns < 3000 ∧ s.open_ then s.selfSeal sd
  else (s.bellMissing sd).sealNow sd (s.now + 1)

/-- The surviving side learns of the demotion of its active side; the outcome of R235 is recorded. -/
def State.learnDemotion (s : State) (sd : SideId) (ns : Nat) : State :=
  let d := s.duty sd
  let ready := (s.duty sd.other).demote && (s.side sd).role != .active && d.sealAt.isNone && d.promoteAt.isNone && s.mayPromote sd
  if !ready then s else (s.takeOver sd ns).splitOutcome sd 5

/-- The following module takes the lead when the leading one's last side demotes itself (R241). The notice has come before
3.0 µs of the tick unless the side has missed the tick's bell. -/
def execPairDemotionNotice (s : State) : Host.Outcome State Fault Refusal :=
  .next (match s.active with
    | some a => if s.pairFollows then (s.takeOver a (if (s.duty a).missed = some s.now then 3000 else 0)).setPairRole 1 else s
    | none => if s.pairFollows then s.setPairRole 1 else s)

def execPeerDemotionLearned (sd : SideId) (ns : Nat) (s : State) : Host.Outcome State Fault Refusal := .next (s.learnDemotion sd ns)

end Sys2Proof.Machine
end

