-- ==== Sys2Proof/Machine/Dispatch.lean ====
section
/-! DEFINITION. One arm per command: each calls its meaning. -/

namespace Sys2Proof.Machine

/-- The effect of a command on everything but the queue. -/
def exec (i : Instr) (s : State) : Host.Outcome State Fault Refusal :=
  match i with
  | .powerGood holdupOk rtcA rtcB => Sys2Proof.Machine.execPowerGood holdupOk rtcA rtcB s
  | .loaderVerify side verified report => Sys2Proof.Machine.execLoaderVerify side verified report s
  | .selftestComplete side pass ms retired => Sys2Proof.Machine.execSelftestComplete side pass ms retired s
  | .startRoleTimeout => Sys2Proof.Machine.execStartRoleTimeout s
  | .serviceGateOpen ms => Sys2Proof.Machine.execServiceGateOpen ms s
  | .gateWait => Sys2Proof.Machine.execGateWait s
  | .pfWarnAssert ns => Sys2Proof.Machine.execPfWarnAssert ns s
  | .powerDip => Sys2Proof.Machine.execPowerDip s
  | .powerHalt stopTick => Sys2Proof.Machine.execPowerHalt stopTick s
  | .orderlyStopEnd inputPresent => Sys2Proof.Machine.execOrderlyStopEnd inputPresent s
  | .inputReturnInStop => Sys2Proof.Machine.execInputReturnInStop s
  | .parkedInputLoss => Sys2Proof.Machine.execParkedInputLoss s
  | .resetReq => Sys2Proof.Machine.execResetReq s
  | .resetReqLong => Sys2Proof.Machine.execResetReqLong s
  | .wakeReq => Sys2Proof.Machine.execWakeReq s
  | .wakePattern side id code => Sys2Proof.Machine.execWakePattern side id code s
  | .wakeLockout side => Sys2Proof.Machine.execWakeLockout side s
  | .wakeLockoutEnd side => Sys2Proof.Machine.execWakeLockoutEnd side s
  | .auxOvercurrent => Sys2Proof.Machine.execAuxOvercurrent s
  | .auxRetry => Sys2Proof.Machine.execAuxRetry s
  | .junctionTempWarn side temp => Sys2Proof.Machine.execJunctionTempWarn side temp s
  | .railFault side rail milliVolts dev => Sys2Proof.Machine.execRailFault side rail milliVolts dev s
  | .clockFault side => Sys2Proof.Machine.execClockFault side s
  | .dieOvertemp side temp => Sys2Proof.Machine.execDieOvertemp side temp s
  | .arbLinkLoss side => Sys2Proof.Machine.execArbLinkLoss side s
  | .watchdogExpiry side => Sys2Proof.Machine.execWatchdogExpiry side s
  | .peerDemotionLearned side ns => Sys2Proof.Machine.execPeerDemotionLearned side ns s
  | .roleClaimChange side => Sys2Proof.Machine.execRoleClaimChange side s
  | .arbTickPulse side ns => Sys2Proof.Machine.execArbTickPulse side ns s
  | .arbSideSilent side => Sys2Proof.Machine.execArbSideSilent side s
  | .noImageTimeout => Sys2Proof.Machine.execNoImageTimeout s
  | .fieldEdgeAccept ch level tagTick tagUs => Sys2Proof.Machine.execFieldEdgeAccept ch level tagTick tagUs s
  | .discrepancyTimeout inst => Sys2Proof.Machine.execDiscrepancyTimeout inst s
  | .feedbackTimeout inst => Sys2Proof.Machine.execFeedbackTimeout inst s
  | .permitDisagreeTimeout inst => Sys2Proof.Machine.execPermitDisagreeTimeout inst s
  | .outputShort ch => Sys2Proof.Machine.execOutputShort ch s
  | .shortRetry ch => Sys2Proof.Machine.execShortRetry ch s
  | .shortRetryClear ch => Sys2Proof.Machine.execShortRetryClear ch s
  | .openLoadDetect ch => Sys2Proof.Machine.execOpenLoadDetect ch s
  | .openLoadClear ch => Sys2Proof.Machine.execOpenLoadClear ch s
  | .wireBreakDeclare ch => Sys2Proof.Machine.execWireBreakDeclare ch s
  | .wireBreakClear ch => Sys2Proof.Machine.execWireBreakClear ch s
  | .fieldSupplyChange centiVolts => Sys2Proof.Machine.execFieldSupplyChange centiVolts s
  | .tickStart w => Sys2Proof.Machine.execTickStart w s
  | .comparatorPickup side chan comp => Sys2Proof.Machine.execComparatorPickup side chan comp s
  | .comparatorDropout side chan comp => Sys2Proof.Machine.execComparatorDropout side chan comp s
  | .chainSettled side chan => Sys2Proof.Machine.execChainSettled side chan s
  | .settlingEnd side chan => Sys2Proof.Machine.execSettlingEnd side chan s
  | .streamAbsent side slot => Sys2Proof.Machine.execStreamAbsent side slot s
  | .activationStart core => Sys2Proof.Machine.execActivationStart core s
  | .bellReceive side intact arrival => Sys2Proof.Machine.execBellReceive side intact arrival s
  | .bellDeadline side => Sys2Proof.Machine.execBellDeadline side s
  | .bellLoss side => Sys2Proof.Machine.execBellLoss side s
  | .digestEcho => Sys2Proof.Machine.execDigestEcho s
  | .drillVerdict faultA faultB => Sys2Proof.Machine.execDrillVerdict faultA faultB s
  | .migrationNotice side => Sys2Proof.Machine.execMigrationNotice side s
  | .tallyLimit stall => Sys2Proof.Machine.execTallyLimit stall s
  | .windowAbort core => Sys2Proof.Machine.execWindowAbort core s
  | .coreFailure core => Sys2Proof.Machine.execCoreFailure core s
  | .clusterFailure side cluster uncorrectable => Sys2Proof.Machine.execClusterFailure side cluster uncorrectable s
  | .forceExpiry handle => Sys2Proof.Machine.execForceExpiry handle s
  | .gooseRepeat side index => Sys2Proof.Machine.execGooseRepeat side index s
  | .gooseSubExpiry index => Sys2Proof.Machine.execGooseSubExpiry index s
  | .gooseFrameCheck side f ns => Sys2Proof.Machine.execGooseFrameCheck side f ns s
  | .telegramReceive side lan f => Sys2Proof.Machine.execTelegramReceive side lan f s
  | .telegramWatchdog tele => Sys2Proof.Machine.execTelegramWatchdog tele s
  | .svFrameIntake side port f ingress => Sys2Proof.Machine.execSvFrameIntake side port f ingress s
  | .svFailureRun side slot reason => Sys2Proof.Machine.execSvFailureRun side slot reason s
  | .dupEntryExpiry side src seqNo => Sys2Proof.Machine.execDupEntryExpiry side src seqNo s
  | .frameReceive side port f ns => Sys2Proof.Machine.execFrameReceive side port f ns s
  | .frameTransmit side port ns => Sys2Proof.Machine.execFrameTransmit side port ns s
  | .prpSupervision side => Sys2Proof.Machine.execPrpSupervision side s
  | .prpNodeExpiry side mac => Sys2Proof.Machine.execPrpNodeExpiry side mac s
  | .xlinkLaneFail lane => Sys2Proof.Machine.execXlinkLaneFail lane s
  | .pathRestore upper => Sys2Proof.Machine.execPathRestore upper s
  | .crosslinkRecover => Sys2Proof.Machine.execCrosslinkRecover s
  | .hsrRingOpen side => Sys2Proof.Machine.execHsrRingOpen side s
  | .portLinkChange side port up localFault remoteFault => Sys2Proof.Machine.execPortLinkChange side port up localFault remoteFault s
  | .prbsLaneErrors side lane errors => Sys2Proof.Machine.execPrbsLaneErrors side lane errors s
  | .segmentSend side port send => Sys2Proof.Machine.execSegmentSend side port send s
  | .servoUpdate theta => Sys2Proof.Machine.execServoUpdate theta s
  | .announceReceive m => Sys2Proof.Machine.execAnnounceReceive m s
  | .holdoverEntry => Sys2Proof.Machine.execHoldoverEntry s
  | .holdLong => Sys2Proof.Machine.execHoldLong s
  | .timeStepApply => Sys2Proof.Machine.execTimeStepApply s
  | .ppsInputEdge theta => Sys2Proof.Machine.execPpsInputEdge theta s
  | .timeGuardRetry side offset => Sys2Proof.Machine.execTimeGuardRetry side offset s
  | .t0DriftLimit betweenModules => Sys2Proof.Machine.execT0DriftLimit betweenModules s
  | .smirnelLoss => Sys2Proof.Machine.execSmirnelLoss s
  | .pairDemotionNotice => Sys2Proof.Machine.execPairDemotionNotice s
  | .egressFaultStop => Sys2Proof.Machine.execEgressFaultStop s
  | .resyncBulkDone side => Sys2Proof.Machine.execResyncBulkDone side s
  | .resyncAttemptFail side => Sys2Proof.Machine.execResyncAttemptFail side s
  | .resyncRetry side => Sys2Proof.Machine.execResyncRetry side s
  | .wavefrontEdge side input rising t64 => Sys2Proof.Machine.execWavefrontEdge side input rising t64 s
  | .destOverflow side dram dest => Sys2Proof.Machine.execDestOverflow side dram dest s
  | .canFrameReceive side f ns => Sys2Proof.Machine.execCanFrameReceive side f ns s
  | .canBusOff side => Sys2Proof.Machine.execCanBusOff side s
  | .canBusOffRecovery side => Sys2Proof.Machine.execCanBusOffRecovery side s
  | .canBusRejoin side => Sys2Proof.Machine.execCanBusRejoin side s
  | .canArbitrationLoss side error => Sys2Proof.Machine.execCanArbitrationLoss side error s
  | .canTxDone side => Sys2Proof.Machine.execCanTxDone side s
  | .doorbellWrite side ring tail filled => Sys2Proof.Machine.execDoorbellWrite side ring tail filled s
  | .mailboxCommand side ring => Sys2Proof.Machine.execMailboxCommand side ring s
  | .toHostTimeout side ring => Sys2Proof.Machine.execToHostTimeout side ring s
  | .dmaError side ring => Sys2Proof.Machine.execDmaError side ring s
  | .msixHoldoffEnd side ring => Sys2Proof.Machine.execMsixHoldoffEnd side ring s
  | .ringResetDone side ring => Sys2Proof.Machine.execRingResetDone side ring s
  | .functionLevelReset side => Sys2Proof.Machine.execFunctionLevelReset side s
  | .pcieLinkUp side gen width busMaster => Sys2Proof.Machine.execPcieLinkUp side gen width busMaster s
  | .commandPacket side transport port fragment packet => Sys2Proof.Machine.execCommandPacket side transport port fragment packet s
  | .commandApply side => Sys2Proof.Machine.execCommandApply side s
  | .consoleGapTimeout side => Sys2Proof.Machine.execConsoleGapTimeout side s
  | .correctedError side part word bits => Sys2Proof.Machine.execCorrectedError side part word bits s
  | .uncorrectableError side part word => Sys2Proof.Machine.execUncorrectableError side part word s
  | .slotTagFail side slot => Sys2Proof.Machine.execSlotTagFail side slot s
  | .mgmtCoreFail side => Sys2Proof.Machine.execMgmtCoreFail side s
  | .deepTestDone side pass => Sys2Proof.Machine.execDeepTestDone side pass s
  | .validationDone stall => Sys2Proof.Machine.execValidationDone stall s
  | .cfgRingImageHeld image => Sys2Proof.Machine.execCfgRingImageHeld image s
  | .peerRestore side => Sys2Proof.Machine.execPeerRestore side s
  | .norRestoreDone side => Sys2Proof.Machine.execNorRestoreDone side s
  | .updateActivation => Sys2Proof.Machine.execUpdateActivation s
  | .gambitConfirm => Sys2Proof.Machine.execGambitConfirm s
  | .gambitWindowExpiry => Sys2Proof.Machine.execGambitWindowExpiry s
  | .secondSideCopyDone => Sys2Proof.Machine.execSecondSideCopyDone s
  | .secondSideReboot => Sys2Proof.Machine.execSecondSideReboot s
  | .safeUnlockExpiry origin => Sys2Proof.Machine.execSafeUnlockExpiry origin s
  | .safeLockoutEnd => Sys2Proof.Machine.execSafeLockoutEnd s
  | .maskRefresh side => Sys2Proof.Machine.execMaskRefresh side s
  | .timeNsRead side bar0 sec ns frac => Sys2Proof.Machine.execTimeNsRead side bar0 sec ns frac s
  | .txtsEntryRead side port => Sys2Proof.Machine.execTxtsEntryRead side port s
  | .rxqHeadRead side queue => Sys2Proof.Machine.execRxqHeadRead side queue s
  | .timeSetGo side => Sys2Proof.Machine.execTimeSetGo side s
  | .timeSetCancel side => Sys2Proof.Machine.execTimeSetCancel side s
  | .ringCfgReset side ring => Sys2Proof.Machine.execRingCfgReset side ring s
  | .wakeIdWrite side id => Sys2Proof.Machine.execWakeIdWrite side id s
  | .wakeCodeWrite side code => Sys2Proof.Machine.execWakeCodeWrite side code s
  | .registerWrite h addr width value => Sys2Proof.Machine.execRegisterWrite h addr width value s
  | .identify h p => Sys2Proof.Machine.execIdentify h p s
  | .echo h p => Sys2Proof.Machine.execEcho h p s
  | .cmdOutcome h p => Sys2Proof.Machine.execCmdOutcome h p s
  | .originSet h p => Sys2Proof.Machine.execOriginSet h p s
  | .originDelete h p => Sys2Proof.Machine.execOriginDelete h p s
  | .originRead h p => Sys2Proof.Machine.execOriginRead h p s
  | .cmdStatus h p => Sys2Proof.Machine.execCmdStatus h p s
  | .crierNote h code ledgerSeq body => Sys2Proof.Machine.execCrierNote h code ledgerSeq body s
  | .regRead h p => Sys2Proof.Machine.execRegRead h p s
  | .regWrite h p => Sys2Proof.Machine.execRegWrite h p s
  | .regModify h p => Sys2Proof.Machine.execRegModify h p s
  | .cfgStatus h p => Sys2Proof.Machine.execCfgStatus h p s
  | .cfgLoadBlock h p => Sys2Proof.Machine.execCfgLoadBlock h p s
  | .cfgLoadRing h p => Sys2Proof.Machine.execCfgLoadRing h p s
  | .cfgCopy h p => Sys2Proof.Machine.execCfgCopy h p s
  | .cfgValidate h p => Sys2Proof.Machine.execCfgValidate h p s
  | .castle h p => Sys2Proof.Machine.execCastle h p s
  | .cfgRead h p => Sys2Proof.Machine.execCfgRead h p s
  | .stallCreate h p => Sys2Proof.Machine.execStallCreate h p s
  | .stallDelete h p => Sys2Proof.Machine.execStallDelete h p s
  | .stallResize h p => Sys2Proof.Machine.execStallResize h p s
  | .stallDropShadow h p => Sys2Proof.Machine.execStallDropShadow h p s
  | .stallStart h p => Sys2Proof.Machine.execStallStart h p s
  | .stallStop h p => Sys2Proof.Machine.execStallStop h p s
  | .stallReset h p => Sys2Proof.Machine.execStallReset h p s
  | .stallRead h p => Sys2Proof.Machine.execStallRead h p s
  | .stallStatus h p => Sys2Proof.Machine.execStallStatus h p s
  | .stallPool h p => Sys2Proof.Machine.execStallPool h p s
  | .stallMapPasid h p => Sys2Proof.Machine.execStallMapPasid h p s
  | .stallUnmapPasid h p => Sys2Proof.Machine.execStallUnmapPasid h p s
  | .svSubscribe h p => Sys2Proof.Machine.execSvSubscribe h p s
  | .svUnsubscribe h p => Sys2Proof.Machine.execSvUnsubscribe h p s
  | .svReadSub h p => Sys2Proof.Machine.execSvReadSub h p s
  | .svStreamStatus h p => Sys2Proof.Machine.execSvStreamStatus h p s
  | .svReadSamples h p => Sys2Proof.Machine.execSvReadSamples h p s
  | .svReanchor h p => Sys2Proof.Machine.execSvReanchor h p s
  | .svAnchor h p => Sys2Proof.Machine.execSvAnchor h p s
  | .condSetChain h p => Sys2Proof.Machine.execCondSetChain h p s
  | .condSetTaps h p => Sys2Proof.Machine.execCondSetTaps h p s
  | .condSetGroup h p => Sys2Proof.Machine.execCondSetGroup h p s
  | .condStop h p => Sys2Proof.Machine.execCondStop h p s
  | .condStart h p => Sys2Proof.Machine.execCondStart h p s
  | .condReadChain h p => Sys2Proof.Machine.execCondReadChain h p s
  | .condReadOutput h p => Sys2Proof.Machine.execCondReadOutput h p s
  | .condReadGroup h p => Sys2Proof.Machine.execCondReadGroup h p s
  | .condSetNominal h p => Sys2Proof.Machine.execCondSetNominal h p s
  | .condDemand h p => Sys2Proof.Machine.execCondDemand h p s
  | .scanReadTask h p => Sys2Proof.Machine.execScanReadTask h p s
  | .scanTaskStatus h p => Sys2Proof.Machine.execScanTaskStatus h p s
  | .scanCoreLoad h p => Sys2Proof.Machine.execScanCoreLoad h p s
  | .forceSet h p => Sys2Proof.Machine.execForceSet h p s
  | .forceClear h p => Sys2Proof.Machine.execForceClear h p s
  | .forceList h p => Sys2Proof.Machine.execForceList h p s
  | .scanSetForceMax h p => Sys2Proof.Machine.execScanSetForceMax h p s
  | .goosePubSet h p => Sys2Proof.Machine.execGoosePubSet h p s
  | .goosePubRead h p => Sys2Proof.Machine.execGoosePubRead h p s
  | .gooseSubSet h p => Sys2Proof.Machine.execGooseSubSet h p s
  | .gooseSubRead h p => Sys2Proof.Machine.execGooseSubRead h p s
  | .gooseStatus h p => Sys2Proof.Machine.execGooseStatus h p s
  | .svpubSet h p => Sys2Proof.Machine.execSvpubSet h p s
  | .svpubRead h p => Sys2Proof.Machine.execSvpubRead h p s
  | .pubSetMac h p => Sys2Proof.Machine.execPubSetMac h p s
  | .sideStatus h p => Sys2Proof.Machine.execSideStatus h p s
  | .sideHandover h p => Sys2Proof.Machine.execSideHandover h p s
  | .sideJoin h p => Sys2Proof.Machine.execSideJoin h p s
  | .sideOut h p => Sys2Proof.Machine.execSideOut h p s
  | .sideSetColour h p => Sys2Proof.Machine.execSideSetColour h p s
  | .pairSet h p => Sys2Proof.Machine.execPairSet h p s
  | .pairStatus h p => Sys2Proof.Machine.execPairStatus h p s
  | .pairHandover h p => Sys2Proof.Machine.execPairHandover h p s
  | .arbSetHandover h p => Sys2Proof.Machine.execArbSetHandover h p s
  | .swPortStatus h p => Sys2Proof.Machine.execSwPortStatus h p s
  | .swSetPort h p => Sys2Proof.Machine.execSwSetPort h p s
  | .swSetFdb h p => Sys2Proof.Machine.execSwSetFdb h p s
  | .swSetGates h p => Sys2Proof.Machine.execSwSetGates h p s
  | .swSetQueue h p => Sys2Proof.Machine.execSwSetQueue h p s
  | .swReadConfig h p => Sys2Proof.Machine.execSwReadConfig h p s
  | .swMirrorSet h p => Sys2Proof.Machine.execSwMirrorSet h p s
  | .swMirrorClear h p => Sys2Proof.Machine.execSwMirrorClear h p s
  | .swPortAdmin h p => Sys2Proof.Machine.execSwPortAdmin h p s
  | .swSetWake h p => Sys2Proof.Machine.execSwSetWake h p s
  | .timeRead h p => Sys2Proof.Machine.execTimeRead h p s
  | .timeSet h p => Sys2Proof.Machine.execTimeSet h p s
  | .timeCancelSet h p => Sys2Proof.Machine.execTimeCancelSet h p s
  | .timeSetParams h p => Sys2Proof.Machine.execTimeSetParams h p s
  | .timeSetPort h p => Sys2Proof.Machine.execTimeSetPort h p s
  | .timePortStatus h p => Sys2Proof.Machine.execTimePortStatus h p s
  | .timeReadTxts h p => Sys2Proof.Machine.execTimeReadTxts h p s
  | .timeUtc h p => Sys2Proof.Machine.execTimeUtc h p s
  | .readTick h p => Sys2Proof.Machine.execReadTick h p s
  | .readBell h p => Sys2Proof.Machine.execReadBell h p s
  | .readDigests h p => Sys2Proof.Machine.execReadDigests h p s
  | .setSealDelay h p => Sys2Proof.Machine.execSetSealDelay h p s
  | .acqSetLine h p => Sys2Proof.Machine.execAcqSetLine h p s
  | .acqSetChannel h p => Sys2Proof.Machine.execAcqSetChannel h p s
  | .acqSetWavefront h p => Sys2Proof.Machine.execAcqSetWavefront h p s
  | .acqSetDram h p => Sys2Proof.Machine.execAcqSetDram h p s
  | .acqStart h p => Sys2Proof.Machine.execAcqStart h p s
  | .acqStop h p => Sys2Proof.Machine.execAcqStop h p s
  | .acqTrigger h p => Sys2Proof.Machine.execAcqTrigger h p s
  | .acqChannelStatus h p => Sys2Proof.Machine.execAcqChannelStatus h p s
  | .acqReadDram h p => Sys2Proof.Machine.execAcqReadDram h p s
  | .ledgerStatus h p => Sys2Proof.Machine.execLedgerStatus h p s
  | .readRecords h p => Sys2Proof.Machine.execReadRecords h p s
  | .ledgerSetRate h p => Sys2Proof.Machine.execLedgerSetRate h p s
  | .ledgerSetSnapshot h p => Sys2Proof.Machine.execLedgerSetSnapshot h p s
  | .ledgerExport h p => Sys2Proof.Machine.execLedgerExport h p s
  | .ledgerNote h p => Sys2Proof.Machine.execLedgerNote h p s
  | .ledgerCodes h p => Sys2Proof.Machine.execLedgerCodes h p s
  | .fioSetChannel h p => Sys2Proof.Machine.execFioSetChannel h p s
  | .fioReadChannel h p => Sys2Proof.Machine.execFioReadChannel h p s
  | .fioStatus h p => Sys2Proof.Machine.execFioStatus h p s
  | .fioClearFault h p => Sys2Proof.Machine.execFioClearFault h p s
  | .fioReadImage h p => Sys2Proof.Machine.execFioReadImage h p s
  | .teleStatus h p => Sys2Proof.Machine.execTeleStatus h p s
  | .safeChallenge h p => Sys2Proof.Machine.execSafeChallenge h p s
  | .safeUnlock h p => Sys2Proof.Machine.execSafeUnlock h p s
  | .safeLock h p => Sys2Proof.Machine.execSafeLock h p s
  | .safeSetPassword h p => Sys2Proof.Machine.execSafeSetPassword h p s
  | .safeLoad h p => Sys2Proof.Machine.execSafeLoad h p s
  | .safeCastle h p => Sys2Proof.Machine.execSafeCastle h p s
  | .safeReset h p => Sys2Proof.Machine.execSafeReset h p s
  | .safeStatus h p => Sys2Proof.Machine.execSafeStatus h p s
  | .safeReadTable h p => Sys2Proof.Machine.execSafeReadTable h p s
  | .canSetTiming h p => Sys2Proof.Machine.execCanSetTiming h p s
  | .canSetFilter h p => Sys2Proof.Machine.execCanSetFilter h p s
  | .canSetBuffer h p => Sys2Proof.Machine.execCanSetBuffer h p s
  | .canStatus h p => Sys2Proof.Machine.execCanStatus h p s
  | .canReadQueue h p => Sys2Proof.Machine.execCanReadQueue h p s
  | .canSend h p => Sys2Proof.Machine.execCanSend h p s
  | .hlRingSet h p => Sys2Proof.Machine.execHlRingSet h p s
  | .hlRingReset h p => Sys2Proof.Machine.execHlRingReset h p s
  | .hlStatus h p => Sys2Proof.Machine.execHlStatus h p s
  | .keyStatus h p => Sys2Proof.Machine.execKeyStatus h p s
  | .keyImport h p => Sys2Proof.Machine.execKeyImport h p s
  | .keyErase h p => Sys2Proof.Machine.execKeyErase h p s
  | .keyDeviceCert h p => Sys2Proof.Machine.execKeyDeviceCert h p s
  | .keyRevokeSigner h p => Sys2Proof.Machine.execKeyRevokeSigner h p s
  | .updStatus h p => Sys2Proof.Machine.execUpdStatus h p s
  | .updBegin h p => Sys2Proof.Machine.execUpdBegin h p s
  | .updWrite h p => Sys2Proof.Machine.execUpdWrite h p s
  | .updWriteRing h p => Sys2Proof.Machine.execUpdWriteRing h p s
  | .updSchedule h p => Sys2Proof.Machine.execUpdSchedule h p s
  | .updAuthoriseOutage h p => Sys2Proof.Machine.execUpdAuthoriseOutage h p s
  | .updCancel h p => Sys2Proof.Machine.execUpdCancel h p s
  | .healthReport h p => Sys2Proof.Machine.execHealthReport h p s
  | .healthFaults h p => Sys2Proof.Machine.execHealthFaults h p s
  | .healthDeepTest h p => Sys2Proof.Machine.execHealthDeepTest h p s
  | .healthTestUnit h p => Sys2Proof.Machine.execHealthTestUnit h p s
  | .maintLeases h p => Sys2Proof.Machine.execMaintLeases h p s
  | .powerStatus h p => Sys2Proof.Machine.execPowerStatus h p s
  | .powerRestart h p => Sys2Proof.Machine.execPowerRestart h p s
  | .powerPark h p => Sys2Proof.Machine.execPowerPark h p s
  | .serviceGo h p => Sys2Proof.Machine.execServiceGo h p s
  | .nop core => Sys2Proof.Machine.execNop core s
  | .halt core => Sys2Proof.Machine.execHalt core s
  | .mfs core d sp => Sys2Proof.Machine.execMfs core d sp s
  | .add core d a b => Sys2Proof.Machine.execAdd core d a b s
  | .sub core d a b => Sys2Proof.Machine.execSub core d a b s
  | .and core d a b => Sys2Proof.Machine.execAnd core d a b s
  | .or core d a b => Sys2Proof.Machine.execOr core d a b s
  | .xor core d a b => Sys2Proof.Machine.execXor core d a b s
  | .shl core d a b => Sys2Proof.Machine.execShl core d a b s
  | .shr core d a b => Sys2Proof.Machine.execShr core d a b s
  | .sra core d a b => Sys2Proof.Machine.execSra core d a b s
  | .mul core d a b => Sys2Proof.Machine.execMul core d a b s
  | .mulh core d a b => Sys2Proof.Machine.execMulh core d a b s
  | .mulhu core d a b => Sys2Proof.Machine.execMulhu core d a b s
  | .div core d a b => Sys2Proof.Machine.execDiv core d a b s
  | .divu core d a b => Sys2Proof.Machine.execDivu core d a b s
  | .rem core d a b => Sys2Proof.Machine.execRem core d a b s
  | .remu core d a b => Sys2Proof.Machine.execRemu core d a b s
  | .min core d a b => Sys2Proof.Machine.execMin core d a b s
  | .max core d a b => Sys2Proof.Machine.execMax core d a b s
  | .minu core d a b => Sys2Proof.Machine.execMinu core d a b s
  | .maxu core d a b => Sys2Proof.Machine.execMaxu core d a b s
  | .addi core d a imm => Sys2Proof.Machine.execAddi core d a imm s
  | .andi core d a imm => Sys2Proof.Machine.execAndi core d a imm s
  | .ori core d a imm => Sys2Proof.Machine.execOri core d a imm s
  | .xori core d a imm => Sys2Proof.Machine.execXori core d a imm s
  | .shli core d a imm => Sys2Proof.Machine.execShli core d a imm s
  | .shri core d a imm => Sys2Proof.Machine.execShri core d a imm s
  | .srai core d a imm => Sys2Proof.Machine.execSrai core d a imm s
  | .li core d x => Sys2Proof.Machine.execLi core d x s
  | .fadd core d a b => Sys2Proof.Machine.execFadd core d a b s
  | .fsub core d a b => Sys2Proof.Machine.execFsub core d a b s
  | .fmul core d a b => Sys2Proof.Machine.execFmul core d a b s
  | .fdiv core d a b => Sys2Proof.Machine.execFdiv core d a b s
  | .fsqrt core d a => Sys2Proof.Machine.execFsqrt core d a s
  | .fabs core d a => Sys2Proof.Machine.execFabs core d a s
  | .fneg core d a => Sys2Proof.Machine.execFneg core d a s
  | .fmin core d a b => Sys2Proof.Machine.execFmin core d a b s
  | .fmax core d a b => Sys2Proof.Machine.execFmax core d a b s
  | .fma core d a b => Sys2Proof.Machine.execFma core d a b s
  | .fnms core d a b => Sys2Proof.Machine.execFnms core d a b s
  | .itof core d a => Sys2Proof.Machine.execItof core d a s
  | .utof core d a => Sys2Proof.Machine.execUtof core d a s
  | .ftoi core d a => Sys2Proof.Machine.execFtoi core d a s
  | .ftoin core d a => Sys2Proof.Machine.execFtoin core d a s
  | .cadd core d a b => Sys2Proof.Machine.execCadd core d a b s
  | .csub core d a b => Sys2Proof.Machine.execCsub core d a b s
  | .cmul core d a b => Sys2Proof.Machine.execCmul core d a b s
  | .cconj core d a => Sys2Proof.Machine.execCconj core d a s
  | .cmag core d a => Sys2Proof.Machine.execCmag core d a s
  | .carg core d a => Sys2Proof.Machine.execCarg core d a s
  | .cscale core d a b => Sys2Proof.Machine.execCscale core d a b s
  | .cmake core d a b => Sys2Proof.Machine.execCmake core d a b s
  | .cre core d a => Sys2Proof.Machine.execCre core d a s
  | .cim core d a => Sys2Proof.Machine.execCim core d a s
  | .cmov core d a => Sys2Proof.Machine.execCmov core d a s
  | .eq core d a b => Sys2Proof.Machine.execEq core d a b s
  | .ne core d a b => Sys2Proof.Machine.execNe core d a b s
  | .lt core d a b => Sys2Proof.Machine.execLt core d a b s
  | .le core d a b => Sys2Proof.Machine.execLe core d a b s
  | .ult core d a b => Sys2Proof.Machine.execUlt core d a b s
  | .ule core d a b => Sys2Proof.Machine.execUle core d a b s
  | .feq core d a b => Sys2Proof.Machine.execFeq core d a b s
  | .flt core d a b => Sys2Proof.Machine.execFlt core d a b s
  | .fle core d a b => Sys2Proof.Machine.execFle core d a b s
  | .fun core d a b => Sys2Proof.Machine.execFun core d a b s
  | .pand core d a b => Sys2Proof.Machine.execPand core d a b s
  | .por core d a b => Sys2Proof.Machine.execPor core d a b s
  | .pxor core d a b => Sys2Proof.Machine.execPxor core d a b s
  | .pandn core d a b => Sys2Proof.Machine.execPandn core d a b s
  | .pnot core d a => Sys2Proof.Machine.execPnot core d a s
  | .pset core d a => Sys2Proof.Machine.execPset core d a s
  | .pget core d a => Sys2Proof.Machine.execPget core d a s
  | .sel core d p a b => Sys2Proof.Machine.execSel core d p a b s
  | .csel core d p a b => Sys2Proof.Machine.execCsel core d p a b s
  | .br core pred off => Sys2Proof.Machine.execBr core pred off s
  | .loop core r body ext => Sys2Proof.Machine.execLoop core r body ext s
  | .ld core width d base seg off => Sys2Proof.Machine.execLd core width d base seg off s
  | .st core width d base seg off => Sys2Proof.Machine.execSt core width d base seg off s
  | .vcopy core src dst d a b => Sys2Proof.Machine.execVcopy core src dst d a b s
  | .vsum core seg ty d a b => Sys2Proof.Machine.execVsum core seg ty d a b s
  | .vmax core seg ty d a b => Sys2Proof.Machine.execVmax core seg ty d a b s
  | .trig core a line => Sys2Proof.Machine.execTrig core a line s
  | .log core seg msg a b => Sys2Proof.Machine.execLog core seg msg a b s
  | .ton core inst => Sys2Proof.Machine.execTon core inst s
  | .tof core inst => Sys2Proof.Machine.execTof core inst s
  | .tp core inst => Sys2Proof.Machine.execTp core inst s
  | .ctu core inst => Sys2Proof.Machine.execCtu core inst s
  | .ctd core inst => Sys2Proof.Machine.execCtd core inst s
  | .ctud core inst => Sys2Proof.Machine.execCtud core inst s
  | .rTrig core inst => Sys2Proof.Machine.execRTrig core inst s
  | .fTrig core inst => Sys2Proof.Machine.execFTrig core inst s
  | .hyst core inst => Sys2Proof.Machine.execHyst core inst s
  | .seq core => Sys2Proof.Machine.execSeq core s
  | .imp core => Sys2Proof.Machine.execImp core s
  | .roc core inst => Sys2Proof.Machine.execRoc core inst s
  | .unitFault side part => Sys2Proof.Machine.execUnitFault side part s
  | .registerRead side src width => Sys2Proof.Machine.execRegisterRead side src width s
  | .bar2Write side offset => Sys2Proof.Machine.execBar2Write side offset s
  | .tempDiffWarn kelvin => Sys2Proof.Machine.execTempDiffWarn kelvin s
  | .ptpIntervalSend side port kind => Sys2Proof.Machine.execPtpIntervalSend side port kind s

end Sys2Proof.Machine
end

