-- ==== Sys2Proof/Machine/HyrraEncode.lean ====
section
/-! DEFINITION. The encoder of Hyrra Scan Code, from the format tables of R145 and the opcode tables of R147 to R164, and
what each instruction is once decoded. -/

namespace Sys2Proof.Machine

/-- A word of format A, I or L (R145): opcode, d, a, b, function. -/
def wordA (op d a b fn : Nat) : Word := BitVec.ofNat 32 (op * 2 ^ 26 + d * 2 ^ 21 + a * 2 ^ 16 + b * 2 ^ 11 + fn)

/-- A word of format K (R145): block type and instance. -/
def wordK (ty : Nat) (inst : BitVec 16) : Word := BitVec.ofNat 32 (0x28 * 2 ^ 26 + ty * 2 ^ 18 + inst.toNat)

/-- The 2-bit code of a segment (R145). -/
def segCode : SegCode → Nat
  | .inp => 0
  | .out => 1
  | .ret => 2
  | .loc => 3

/-- The words of an instruction: the instruction word, and its extension word where one follows (R145). None for a
command that is no Hyrra instruction. -/
def hscEncode (i : Instr) : Option (Word × Option Word) :=
  match i with
  | .nop _ => some (wordA 0x00 0 0 0 0, none)
  | .halt _ => some (wordA 0x00 0 0 0 1, none)
  | .mfs _ d sp => some (wordA 0x00 d.toNat sp.toNat 0 2, none)
  | .add _ d a b => some (wordA 0x01 d.toNat a.toNat b.toNat 0x00, none)
  | .sub _ d a b => some (wordA 0x01 d.toNat a.toNat b.toNat 0x01, none)
  | .and _ d a b => some (wordA 0x01 d.toNat a.toNat b.toNat 0x02, none)
  | .or _ d a b => some (wordA 0x01 d.toNat a.toNat b.toNat 0x03, none)
  | .xor _ d a b => some (wordA 0x01 d.toNat a.toNat b.toNat 0x04, none)
  | .shl _ d a b => some (wordA 0x01 d.toNat a.toNat b.toNat 0x05, none)
  | .shr _ d a b => some (wordA 0x01 d.toNat a.toNat b.toNat 0x06, none)
  | .sra _ d a b => some (wordA 0x01 d.toNat a.toNat b.toNat 0x07, none)
  | .mul _ d a b => some (wordA 0x01 d.toNat a.toNat b.toNat 0x08, none)
  | .mulh _ d a b => some (wordA 0x01 d.toNat a.toNat b.toNat 0x09, none)
  | .mulhu _ d a b => some (wordA 0x01 d.toNat a.toNat b.toNat 0x0A, none)
  | .div _ d a b => some (wordA 0x01 d.toNat a.toNat b.toNat 0x0B, none)
  | .divu _ d a b => some (wordA 0x01 d.toNat a.toNat b.toNat 0x0C, none)
  | .rem _ d a b => some (wordA 0x01 d.toNat a.toNat b.toNat 0x0D, none)
  | .remu _ d a b => some (wordA 0x01 d.toNat a.toNat b.toNat 0x0E, none)
  | .min _ d a b => some (wordA 0x01 d.toNat a.toNat b.toNat 0x0F, none)
  | .max _ d a b => some (wordA 0x01 d.toNat a.toNat b.toNat 0x10, none)
  | .minu _ d a b => some (wordA 0x01 d.toNat a.toNat b.toNat 0x11, none)
  | .maxu _ d a b => some (wordA 0x01 d.toNat a.toNat b.toNat 0x12, none)
  | .addi _ d a imm => some (wordA 0x02 d.toNat a.toNat 0 imm.toNat, none)
  | .andi _ d a imm => some (wordA 0x02 d.toNat a.toNat 1 imm.toNat, none)
  | .ori _ d a imm => some (wordA 0x02 d.toNat a.toNat 2 imm.toNat, none)
  | .xori _ d a imm => some (wordA 0x02 d.toNat a.toNat 3 imm.toNat, none)
  | .shli _ d a imm => some (wordA 0x02 d.toNat a.toNat 4 imm.toNat, none)
  | .shri _ d a imm => some (wordA 0x02 d.toNat a.toNat 5 imm.toNat, none)
  | .srai _ d a imm => some (wordA 0x02 d.toNat a.toNat 6 imm.toNat, none)
  | .li _ d x => some (wordA 0x03 d.toNat 0 0 0, some x)
  | .fadd _ d a b => some (wordA 0x08 d.toNat a.toNat b.toNat 0x00, none)
  | .fsub _ d a b => some (wordA 0x08 d.toNat a.toNat b.toNat 0x01, none)
  | .fmul _ d a b => some (wordA 0x08 d.toNat a.toNat b.toNat 0x02, none)
  | .fdiv _ d a b => some (wordA 0x08 d.toNat a.toNat b.toNat 0x03, none)
  | .fmin _ d a b => some (wordA 0x08 d.toNat a.toNat b.toNat 0x07, none)
  | .fmax _ d a b => some (wordA 0x08 d.toNat a.toNat b.toNat 0x08, none)
  | .fma _ d a b => some (wordA 0x08 d.toNat a.toNat b.toNat 0x09, none)
  | .fnms _ d a b => some (wordA 0x08 d.toNat a.toNat b.toNat 0x0A, none)
  | .fsqrt _ d a => some (wordA 0x08 d.toNat a.toNat 0 0x04, none)
  | .fabs _ d a => some (wordA 0x08 d.toNat a.toNat 0 0x05, none)
  | .fneg _ d a => some (wordA 0x08 d.toNat a.toNat 0 0x06, none)
  | .itof _ d a => some (wordA 0x08 d.toNat a.toNat 0 0x10, none)
  | .utof _ d a => some (wordA 0x08 d.toNat a.toNat 0 0x11, none)
  | .ftoi _ d a => some (wordA 0x08 d.toNat a.toNat 0 0x12, none)
  | .ftoin _ d a => some (wordA 0x08 d.toNat a.toNat 0 0x13, none)
  | .cadd _ d a b => some (wordA 0x0C d.toNat a.toNat b.toNat 0x0, none)
  | .csub _ d a b => some (wordA 0x0C d.toNat a.toNat b.toNat 0x1, none)
  | .cmul _ d a b => some (wordA 0x0C d.toNat a.toNat b.toNat 0x2, none)
  | .cconj _ d a => some (wordA 0x0C d.toNat a.toNat 0 0x3, none)
  | .cmag _ d a => some (wordA 0x0C d.toNat a.toNat 0 0x4, none)
  | .carg _ d a => some (wordA 0x0C d.toNat a.toNat 0 0x5, none)
  | .cscale _ d a b => some (wordA 0x0C d.toNat a.toNat b.toNat 0x6, none)
  | .cmake _ d a b => some (wordA 0x0C d.toNat a.toNat b.toNat 0x7, none)
  | .cre _ d a => some (wordA 0x0C d.toNat a.toNat 0 0x8, none)
  | .cim _ d a => some (wordA 0x0C d.toNat a.toNat 0 0x9, none)
  | .cmov _ d a => some (wordA 0x0C d.toNat a.toNat 0 0xA, none)
  | .eq _ d a b => some (wordA 0x10 d.toNat a.toNat b.toNat 0x0, none)
  | .ne _ d a b => some (wordA 0x10 d.toNat a.toNat b.toNat 0x1, none)
  | .lt _ d a b => some (wordA 0x10 d.toNat a.toNat b.toNat 0x2, none)
  | .le _ d a b => some (wordA 0x10 d.toNat a.toNat b.toNat 0x3, none)
  | .ult _ d a b => some (wordA 0x10 d.toNat a.toNat b.toNat 0x4, none)
  | .ule _ d a b => some (wordA 0x10 d.toNat a.toNat b.toNat 0x5, none)
  | .feq _ d a b => some (wordA 0x10 d.toNat a.toNat b.toNat 0x8, none)
  | .flt _ d a b => some (wordA 0x10 d.toNat a.toNat b.toNat 0x9, none)
  | .fle _ d a b => some (wordA 0x10 d.toNat a.toNat b.toNat 0xA, none)
  | .fun _ d a b => some (wordA 0x10 d.toNat a.toNat b.toNat 0xB, none)
  | .pand _ d a b => some (wordA 0x11 d.toNat a.toNat b.toNat 0x0, none)
  | .por _ d a b => some (wordA 0x11 d.toNat a.toNat b.toNat 0x1, none)
  | .pxor _ d a b => some (wordA 0x11 d.toNat a.toNat b.toNat 0x2, none)
  | .pandn _ d a b => some (wordA 0x11 d.toNat a.toNat b.toNat 0x3, none)
  | .pnot _ d a => some (wordA 0x11 d.toNat a.toNat 0 0x4, none)
  | .pset _ d a => some (wordA 0x11 d.toNat a.toNat 0 0x5, none)
  | .pget _ d a => some (wordA 0x11 d.toNat a.toNat 0 0x6, none)
  | .sel _ d p a b => some (wordA 0x12 d.toNat a.toNat b.toNat p.toNat, none)
  | .csel _ d p a b => some (wordA 0x12 d.toNat a.toNat b.toNat (8 + p.toNat), none)
  | .br _ pr off => some (wordA 0x18 (b2n pr.neg * 16 + pr.flag.toNat) 0 0 0 ||| off.zeroExtend 32, none)
  | .loop _ r body ext => some (wordA 0x19 r.toNat 0 0 0 ||| body.zeroExtend 32, if r = 0 then some ext else none)
  | .vcopy _ src dst d a b => some (wordA 0x1A d.toNat a.toNat b.toNat (segCode src * 512 + segCode dst * 128), none)
  | .vsum _ seg ty d a b => some (wordA 0x1A d.toNat a.toNat b.toNat (segCode seg * 512 + ty.toNat * 16 + 1), none)
  | .vmax _ seg ty d a b => some (wordA 0x1A d.toNat a.toNat b.toNat (segCode seg * 512 + ty.toNat * 16 + 2), none)
  | .ld _ width d base seg off => some (wordA 0x20 d.toNat base.toNat (segCode seg * 8 + width.toNat) off.toNat, none)
  | .st _ width d base seg off => some (wordA 0x21 d.toNat base.toNat (segCode seg * 8 + width.toNat) off.toNat, none)
  | .ton _ inst => some (wordK 0x01 inst, none)
  | .tof _ inst => some (wordK 0x02 inst, none)
  | .tp _ inst => some (wordK 0x03 inst, none)
  | .ctu _ inst => some (wordK 0x10 inst, none)
  | .ctd _ inst => some (wordK 0x11 inst, none)
  | .ctud _ inst => some (wordK 0x12 inst, none)
  | .rTrig _ inst => some (wordK 0x20 inst, none)
  | .fTrig _ inst => some (wordK 0x21 inst, none)
  | .hyst _ inst => some (wordK 0x28 inst, none)
  | .roc _ inst => some (wordK 0x38 inst, none)
  | .seq _ => some (wordK 0x30 0, none)
  | .imp _ => some (wordK 0x31 0, none)
  | .trig _ a line => some (wordA 0x30 0 a.toNat 0 line.toNat, none)
  | .log _ seg msg a b => some (wordA 0x31 0 a.toNat b.toNat (segCode seg * 512 + msg.toNat), none)
  | _ => none

/-- What an instruction is once decoded: its length, what it does, and what validation needs of it (R138). None where
its fields make no defined instruction. -/
def hscMeaning (i : Instr) : Option HscInstr :=
  match i with
  | .nop _ => one true actNop
  | .halt _ => one true actHalt
  | .mfs _ d sp => one (decide (sp.toNat ≤ 3)) (actMfs d sp)
  | .add _ d a b => one true (actAdd d a b)
  | .sub _ d a b => one true (actSub d a b)
  | .and _ d a b => one true (actAnd d a b)
  | .or _ d a b => one true (actOr d a b)
  | .xor _ d a b => one true (actXor d a b)
  | .shl _ d a b => one true (actShl d a b)
  | .shr _ d a b => one true (actShr d a b)
  | .sra _ d a b => one true (actSra d a b)
  | .mul _ d a b => one true (actMul d a b)
  | .mulh _ d a b => one true (actMulh d a b)
  | .mulhu _ d a b => one true (actMulhu d a b)
  | .div _ d a b => one true (actDiv d a b)
  | .divu _ d a b => one true (actDivu d a b)
  | .rem _ d a b => one true (actRem d a b)
  | .remu _ d a b => one true (actRemu d a b)
  | .min _ d a b => one true (actMin d a b)
  | .max _ d a b => one true (actMax d a b)
  | .minu _ d a b => one true (actMinu d a b)
  | .maxu _ d a b => one true (actMaxu d a b)
  | .addi _ d a imm => one true (actAddi d a imm)
  | .andi _ d a imm => one true (actAndi d a imm)
  | .ori _ d a imm => one true (actOri d a imm)
  | .xori _ d a imm => one true (actXori d a imm)
  | .shli _ d a imm => one (decide (imm.toNat < 32)) (actShli d a imm)
  | .shri _ d a imm => one (decide (imm.toNat < 32)) (actShri d a imm)
  | .srai _ d a imm => one (decide (imm.toNat < 32)) (actSrai d a imm)
  | .li _ d x => some ⟨2, actLi d x, none, none, none⟩
  | .fadd _ d a b => one true (actFadd d a b)
  | .fsub _ d a b => one true (actFsub d a b)
  | .fmul _ d a b => one true (actFmul d a b)
  | .fdiv _ d a b => one true (actFdiv d a b)
  | .fmin _ d a b => one true (actFmin d a b)
  | .fmax _ d a b => one true (actFmax d a b)
  | .fma _ d a b => one true (actFma d a b)
  | .fnms _ d a b => one true (actFnms d a b)
  | .fsqrt _ d a => one true (actFsqrt d a)
  | .fabs _ d a => one true (actFabs d a)
  | .fneg _ d a => one true (actFneg d a)
  | .itof _ d a => one true (actItof d a)
  | .utof _ d a => one true (actUtof d a)
  | .ftoi _ d a => one true (actFtoi d a)
  | .ftoin _ d a => one true (actFtoin d a)
  | .cadd _ d a b => one true (actCadd d a b)
  | .csub _ d a b => one true (actCsub d a b)
  | .cmul _ d a b => one true (actCmul d a b)
  | .cconj _ d a => one true (actCconj d a)
  | .cmag _ d a => one true (actCmag d a)
  | .carg _ d a => one true (actCarg d a)
  | .cscale _ d a b => one true (actCscale d a b)
  | .cmake _ d a b => one true (actCmake d a b)
  | .cre _ d a => one true (actCre d a)
  | .cim _ d a => one true (actCim d a)
  | .cmov _ d a => one true (actCmov d a)
  | .eq _ d a b => one true (actEq d a b)
  | .ne _ d a b => one true (actNe d a b)
  | .lt _ d a b => one true (actLt d a b)
  | .le _ d a b => one true (actLe d a b)
  | .ult _ d a b => one true (actUlt d a b)
  | .ule _ d a b => one true (actUle d a b)
  | .feq _ d a b => one true (actFeq d a b)
  | .flt _ d a b => one true (actFlt d a b)
  | .fle _ d a b => one true (actFle d a b)
  | .fun _ d a b => one true (actFun d a b)
  | .pand _ d a b => one true (actPand d a b)
  | .por _ d a b => one true (actPor d a b)
  | .pxor _ d a b => one true (actPxor d a b)
  | .pandn _ d a b => one true (actPandn d a b)
  | .pnot _ d a => one true (actPnot d a)
  | .pset _ d a => one true (actPset d a)
  | .pget _ d a => one true (actPget d a)
  | .sel _ d p a b => one true (actSel d p a b)
  | .csel _ d p a b => one true (actCsel d p a b)
  | .br _ pr off => some ⟨1, actBr pr off, some off.toInt, none, none⟩
  | .loop _ r body ext => if body ≠ 0 ∧ (r = 0 → ext.toNat < 65536) then some ⟨if r = 0 then 2 else 1, actLoop r body (if r = 0 then ext else 0), none, some body.toNat, none⟩ else none
  | .vcopy _ src dst d a b => one true (actVcopy src dst d a b)
  | .vsum _ seg ty d a b => one (decide (ty.toNat ≤ 3) && (ty.toNat != 3 || pOk d)) (actVsum seg ty d a b)
  | .vmax _ seg ty d a b => one ((ty.toNat == 0 || ty.toNat == 4 || ty.toNat == 1 || ty.toNat == 5) && decide (d.toNat ≤ 30)) (actVmax seg ty d a b)
  | .ld _ width d base seg off => one (ldOk width.toNat d) (actLd width d base seg off)
  | .st _ width d base seg off => one (stOk width.toNat d) (actSt width d base seg off)
  | .ton _ inst => one true (actTon inst)
  | .tof _ inst => one true (actTof inst)
  | .tp _ inst => one true (actTp inst)
  | .ctu _ inst => one true (actCtu inst)
  | .ctd _ inst => one true (actCtd inst)
  | .ctud _ inst => one true (actCtud inst)
  | .rTrig _ inst => one true (actRTrig inst)
  | .fTrig _ inst => one true (actFTrig inst)
  | .hyst _ inst => one true (actHyst inst)
  | .roc _ inst => one true (actRoc inst)
  | .seq _ => one true actSeq
  | .imp _ => one true actImp
  | .trig _ a line => some ⟨1, actTrig a line, none, none, some line.toNat⟩
  | .log _ seg msg a b => one true (actLog seg msg a b)
  | _ => none

end Sys2Proof.Machine
end

