-- ==== Sys2Proof/Safety.lean ====
section
/-! DEFINITION. What counts as a safe outcome of a step: the machine goes on. -/

namespace Sys2Proof

/-- The step answers a next state. -/
def Completes (o : Host.Outcome Machine.State Machine.Fault Machine.Refusal) : Prop := ∃ t, o = .next t

/-- The step answers exactly this next state. -/
def CompletesWith (o : Host.Outcome Machine.State Machine.Fault Machine.Refusal) (P : Machine.State → Prop) : Prop :=
  ∃ t, o = .next t ∧ P t

end Sys2Proof
end

