-- ==== Sys2Proof/WellFormed.lean ====
section
/-! DEFINITION. Which commands are well-formed: what an outside sender must respect in the operands that a type alone does
not bound. A Hyrra command must be a defined instruction (R138); a command packet's header and parameters stay inside R393. -/

namespace Sys2Proof

open Machine

/-- STALL is a stall ID; REPLY_MAX is 0 or 48 to 9,216 (R393). -/
def hdrWf (h : CmdHdr) : Bool :=
  decide (h.stall.toNat < 64) && (h.replyMax == 0 || decide (48 ≤ h.replyMax.toNat ∧ h.replyMax.toNat ≤ 9216))

/-- A request carries at most 1,008 bytes of parameters (R393). -/
def cmdWf (h : CmdHdr) (p : Bytes) : Bool := hdrWf h && decide (p.length ≤ 1008)

/-- An instant inside a tick, in ns after its T0: a tick lasts at most 208,334 ns (R4). -/
def inTick (ns : Nat) : Bool := decide (ns < 208334)

/-- A register access is 1, 2, 4 or 8 bytes wide (R414). -/
def widthOk (w : BitVec 4) : Bool := w == 1 || w == 2 || w == 4 || w == 8

/-- Nanoseconds of a second. -/
def nsOk (ns : Word) : Bool := decide (ns.toNat < 1000000000)

/-- A real-time clock reading, where there is one. -/
def rtcOk (r : Option (BitVec 48 × Word)) : Bool :=
  match r with
  | some t => nsOk t.2
  | none => true

/-- An SV frame that parsed holds as many ASDUs as noASDU says (R64). -/
def svWf (f : SvFrame) : Bool := !f.wellFormed || decide (f.noAsdu = f.asdus.length)

/-- A frame's bytes without FCS are no more than the frame: all of them, or no fewer than the first 128. -/
def ethWf (f : EthFrame) : Bool := decide (f.head.length ≤ f.length ∧ min 128 (f.length - 4) ≤ f.head.length)

/-- A GOOSE frame is no longer than the largest frame a port takes (R252). -/
def gooseWf (f : GooseFrame) : Bool := decide (f.length ≤ 9216)

/-- A CAN frame (R365): 8 bytes, or 64 with FD; an 11-bit identifier without IDE; no remote frame with FD, no bit rate
switch and no ESI without it. -/
def canWf (f : CanFrame) : Bool :=
  decide (f.data.length ≤ (if f.fdf then 64 else 8)) && (f.ide || decide (f.id.toNat < 2048)) && !(f.fdf && f.rtr)
    && (f.fdf || (!f.brs && !f.esi))

/-- A well-formed command. -/
def Instr.wf (i : Instr) : Bool :=
  match i with
  | .powerGood _ a b => rtcOk a && rtcOk b
  | .loaderVerify _ _ _ => true
  | .selftestComplete _ _ _ _ => true
  | .startRoleTimeout => true
  | .serviceGateOpen _ => true
  | .gateWait => true
  | .pfWarnAssert _ => true
  | .powerDip => true
  | .powerHalt _ => true
  | .orderlyStopEnd _ => true
  | .inputReturnInStop => true
  | .parkedInputLoss => true
  | .resetReq => true
  | .resetReqLong => true
  | .wakeReq => true
  | .wakePattern _ _ _ => true
  | .wakeLockout _ => true
  | .wakeLockoutEnd _ => true
  | .auxOvercurrent => true
  | .auxRetry => true
  | .junctionTempWarn _ _ => true
  | .railFault _ _ _ _ => true
  | .clockFault _ => true
  | .dieOvertemp _ _ => true
  | .arbLinkLoss _ => true
  | .watchdogExpiry _ => true
  | .peerDemotionLearned _ ns => inTick ns
  | .roleClaimChange _ => true
  | .arbTickPulse _ ns => inTick ns
  | .arbSideSilent _ => true
  | .noImageTimeout => true
  | .fieldEdgeAccept _ _ _ _ => true
  | .discrepancyTimeout _ => true
  | .feedbackTimeout _ => true
  | .permitDisagreeTimeout _ => true
  | .outputShort _ => true
  | .shortRetry _ => true
  | .shortRetryClear _ => true
  | .openLoadDetect _ => true
  | .openLoadClear _ => true
  | .wireBreakDeclare _ => true
  | .wireBreakClear _ => true
  | .fieldSupplyChange _ => true
  | .tickStart _ => true
  | .comparatorPickup _ _ _ => true
  | .comparatorDropout _ _ _ => true
  | .chainSettled _ _ => true
  | .settlingEnd _ _ => true
  | .streamAbsent _ _ => true
  | .activationStart _ => true
  | .bellReceive _ _ a => inTick a.ns
  | .bellDeadline _ => true
  | .bellLoss _ => true
  | .digestEcho => true
  | .drillVerdict _ _ => true
  | .migrationNotice _ => true
  | .tallyLimit _ => true
  | .windowAbort _ => true
  | .coreFailure _ => true
  | .clusterFailure _ _ _ => true
  | .forceExpiry _ => true
  | .gooseRepeat _ _ => true
  | .gooseSubExpiry _ => true
  | .gooseFrameCheck _ f _ => gooseWf f
  | .telegramReceive _ _ f => decide (f.payload.length ≤ 1500)
  | .telegramWatchdog _ => true
  | .svFrameIntake _ _ f _ => svWf f
  | .svFailureRun _ _ _ => true
  | .dupEntryExpiry _ _ _ => true
  | .frameReceive _ _ f _ => ethWf f
  | .frameTransmit _ _ _ => true
  | .prpSupervision _ => true
  | .prpNodeExpiry _ _ => true
  | .xlinkLaneFail _ => true
  | .pathRestore _ => true
  | .crosslinkRecover => true
  | .hsrRingOpen _ => true
  | .portLinkChange _ _ _ _ _ => true
  | .prbsLaneErrors _ _ _ => true
  | .segmentSend _ _ _ => true
  | .servoUpdate _ => true
  | .announceReceive _ => true
  | .holdoverEntry => true
  | .holdLong => true
  | .timeStepApply => true
  | .ppsInputEdge _ => true
  | .timeGuardRetry _ _ => true
  | .t0DriftLimit _ => true
  | .smirnelLoss => true
  | .pairDemotionNotice => true
  | .egressFaultStop => true
  | .resyncBulkDone _ => true
  | .resyncAttemptFail _ => true
  | .resyncRetry _ => true
  | .wavefrontEdge _ _ _ _ => true
  | .destOverflow _ _ _ => true
  | .canFrameReceive _ f _ => canWf f
  | .canBusOff _ => true
  | .canBusOffRecovery _ => true
  | .canBusRejoin _ => true
  | .canArbitrationLoss _ _ => true
  | .canTxDone _ => true
  | .doorbellWrite _ _ _ _ => true
  | .mailboxCommand _ _ => true
  | .toHostTimeout _ _ => true
  | .dmaError _ _ => true
  | .msixHoldoffEnd _ _ => true
  | .ringResetDone _ _ => true
  | .functionLevelReset _ => true
  | .pcieLinkUp _ _ _ _ => true
  | .commandPacket _ _ _ _ p => decide (p.length ≤ 9216)
  | .commandApply _ => true
  | .consoleGapTimeout _ => true
  | .correctedError _ _ _ _ => true
  | .uncorrectableError _ _ _ => true
  | .slotTagFail _ _ => true
  | .mgmtCoreFail _ => true
  | .deepTestDone _ _ => true
  | .validationDone _ => true
  | .cfgRingImageHeld _ => true
  | .peerRestore _ => true
  | .norRestoreDone _ => true
  | .updateActivation => true
  | .gambitConfirm => true
  | .gambitWindowExpiry => true
  | .secondSideCopyDone => true
  | .secondSideReboot => true
  | .safeUnlockExpiry _ => true
  | .safeLockoutEnd => true
  | .maskRefresh _ => true
  | .timeNsRead _ _ _ ns _ => nsOk ns
  | .txtsEntryRead _ _ => true
  | .rxqHeadRead _ _ => true
  | .timeSetGo _ => true
  | .timeSetCancel _ => true
  | .ringCfgReset _ _ => true
  | .wakeIdWrite _ _ => true
  | .wakeCodeWrite _ _ => true
  | .registerWrite h _ width _ => hdrWf h && widthOk width
  | .identify h p => cmdWf h p
  | .echo h p => cmdWf h p
  | .cmdOutcome h p => cmdWf h p
  | .originSet h p => cmdWf h p
  | .originDelete h p => cmdWf h p
  | .originRead h p => cmdWf h p
  | .cmdStatus h p => cmdWf h p
  | .crierNote h _ _ body => hdrWf h && decide (body.length ≤ 256)
  | .regRead h p => cmdWf h p
  | .regWrite h p => cmdWf h p
  | .regModify h p => cmdWf h p
  | .cfgStatus h p => cmdWf h p
  | .cfgLoadBlock h p => cmdWf h p
  | .cfgLoadRing h p => cmdWf h p
  | .cfgCopy h p => cmdWf h p
  | .cfgValidate h p => cmdWf h p
  | .castle h p => cmdWf h p
  | .cfgRead h p => cmdWf h p
  | .stallCreate h p => cmdWf h p
  | .stallDelete h p => cmdWf h p
  | .stallResize h p => cmdWf h p
  | .stallDropShadow h p => cmdWf h p
  | .stallStart h p => cmdWf h p
  | .stallStop h p => cmdWf h p
  | .stallReset h p => cmdWf h p
  | .stallRead h p => cmdWf h p
  | .stallStatus h p => cmdWf h p
  | .stallPool h p => cmdWf h p
  | .stallMapPasid h p => cmdWf h p
  | .stallUnmapPasid h p => cmdWf h p
  | .svSubscribe h p => cmdWf h p
  | .svUnsubscribe h p => cmdWf h p
  | .svReadSub h p => cmdWf h p
  | .svStreamStatus h p => cmdWf h p
  | .svReadSamples h p => cmdWf h p
  | .svReanchor h p => cmdWf h p
  | .svAnchor h p => cmdWf h p
  | .condSetChain h p => cmdWf h p
  | .condSetTaps h p => cmdWf h p
  | .condSetGroup h p => cmdWf h p
  | .condStop h p => cmdWf h p
  | .condStart h p => cmdWf h p
  | .condReadChain h p => cmdWf h p
  | .condReadOutput h p => cmdWf h p
  | .condReadGroup h p => cmdWf h p
  | .condSetNominal h p => cmdWf h p
  | .condDemand h p => cmdWf h p
  | .scanReadTask h p => cmdWf h p
  | .scanTaskStatus h p => cmdWf h p
  | .scanCoreLoad h p => cmdWf h p
  | .forceSet h p => cmdWf h p
  | .forceClear h p => cmdWf h p
  | .forceList h p => cmdWf h p
  | .scanSetForceMax h p => cmdWf h p
  | .goosePubSet h p => cmdWf h p
  | .goosePubRead h p => cmdWf h p
  | .gooseSubSet h p => cmdWf h p
  | .gooseSubRead h p => cmdWf h p
  | .gooseStatus h p => cmdWf h p
  | .svpubSet h p => cmdWf h p
  | .svpubRead h p => cmdWf h p
  | .pubSetMac h p => cmdWf h p
  | .sideStatus h p => cmdWf h p
  | .sideHandover h p => cmdWf h p
  | .sideJoin h p => cmdWf h p
  | .sideOut h p => cmdWf h p
  | .sideSetColour h p => cmdWf h p
  | .pairSet h p => cmdWf h p
  | .pairStatus h p => cmdWf h p
  | .pairHandover h p => cmdWf h p
  | .arbSetHandover h p => cmdWf h p
  | .swPortStatus h p => cmdWf h p
  | .swSetPort h p => cmdWf h p
  | .swSetFdb h p => cmdWf h p
  | .swSetGates h p => cmdWf h p
  | .swSetQueue h p => cmdWf h p
  | .swReadConfig h p => cmdWf h p
  | .swMirrorSet h p => cmdWf h p
  | .swMirrorClear h p => cmdWf h p
  | .swPortAdmin h p => cmdWf h p
  | .swSetWake h p => cmdWf h p
  | .timeRead h p => cmdWf h p
  | .timeSet h p => cmdWf h p
  | .timeCancelSet h p => cmdWf h p
  | .timeSetParams h p => cmdWf h p
  | .timeSetPort h p => cmdWf h p
  | .timePortStatus h p => cmdWf h p
  | .timeReadTxts h p => cmdWf h p
  | .timeUtc h p => cmdWf h p
  | .readTick h p => cmdWf h p
  | .readBell h p => cmdWf h p
  | .readDigests h p => cmdWf h p
  | .setSealDelay h p => cmdWf h p
  | .acqSetLine h p => cmdWf h p
  | .acqSetChannel h p => cmdWf h p
  | .acqSetWavefront h p => cmdWf h p
  | .acqSetDram h p => cmdWf h p
  | .acqStart h p => cmdWf h p
  | .acqStop h p => cmdWf h p
  | .acqTrigger h p => cmdWf h p
  | .acqChannelStatus h p => cmdWf h p
  | .acqReadDram h p => cmdWf h p
  | .ledgerStatus h p => cmdWf h p
  | .readRecords h p => cmdWf h p
  | .ledgerSetRate h p => cmdWf h p
  | .ledgerSetSnapshot h p => cmdWf h p
  | .ledgerExport h p => cmdWf h p
  | .ledgerNote h p => cmdWf h p
  | .ledgerCodes h p => cmdWf h p
  | .fioSetChannel h p => cmdWf h p
  | .fioReadChannel h p => cmdWf h p
  | .fioStatus h p => cmdWf h p
  | .fioClearFault h p => cmdWf h p
  | .fioReadImage h p => cmdWf h p
  | .teleStatus h p => cmdWf h p
  | .safeChallenge h p => cmdWf h p
  | .safeUnlock h p => cmdWf h p
  | .safeLock h p => cmdWf h p
  | .safeSetPassword h p => cmdWf h p
  | .safeLoad h p => cmdWf h p
  | .safeCastle h p => cmdWf h p
  | .safeReset h p => cmdWf h p
  | .safeStatus h p => cmdWf h p
  | .safeReadTable h p => cmdWf h p
  | .canSetTiming h p => cmdWf h p
  | .canSetFilter h p => cmdWf h p
  | .canSetBuffer h p => cmdWf h p
  | .canStatus h p => cmdWf h p
  | .canReadQueue h p => cmdWf h p
  | .canSend h p => cmdWf h p
  | .hlRingSet h p => cmdWf h p
  | .hlRingReset h p => cmdWf h p
  | .hlStatus h p => cmdWf h p
  | .keyStatus h p => cmdWf h p
  | .keyImport h p => cmdWf h p
  | .keyErase h p => cmdWf h p
  | .keyDeviceCert h p => cmdWf h p
  | .keyRevokeSigner h p => cmdWf h p
  | .updStatus h p => cmdWf h p
  | .updBegin h p => cmdWf h p
  | .updWrite h p => cmdWf h p
  | .updWriteRing h p => cmdWf h p
  | .updSchedule h p => cmdWf h p
  | .updAuthoriseOutage h p => cmdWf h p
  | .updCancel h p => cmdWf h p
  | .healthReport h p => cmdWf h p
  | .healthFaults h p => cmdWf h p
  | .healthDeepTest h p => cmdWf h p
  | .healthTestUnit h p => cmdWf h p
  | .maintLeases h p => cmdWf h p
  | .powerStatus h p => cmdWf h p
  | .powerRestart h p => cmdWf h p
  | .powerPark h p => cmdWf h p
  | .serviceGo h p => cmdWf h p
  | .nop core => (hscMeaning (.nop core)).isSome
  | .halt core => (hscMeaning (.halt core)).isSome
  | .mfs core d sp => (hscMeaning (.mfs core d sp)).isSome
  | .add core d a b => (hscMeaning (.add core d a b)).isSome
  | .sub core d a b => (hscMeaning (.sub core d a b)).isSome
  | .and core d a b => (hscMeaning (.and core d a b)).isSome
  | .or core d a b => (hscMeaning (.or core d a b)).isSome
  | .xor core d a b => (hscMeaning (.xor core d a b)).isSome
  | .shl core d a b => (hscMeaning (.shl core d a b)).isSome
  | .shr core d a b => (hscMeaning (.shr core d a b)).isSome
  | .sra core d a b => (hscMeaning (.sra core d a b)).isSome
  | .mul core d a b => (hscMeaning (.mul core d a b)).isSome
  | .mulh core d a b => (hscMeaning (.mulh core d a b)).isSome
  | .mulhu core d a b => (hscMeaning (.mulhu core d a b)).isSome
  | .div core d a b => (hscMeaning (.div core d a b)).isSome
  | .divu core d a b => (hscMeaning (.divu core d a b)).isSome
  | .rem core d a b => (hscMeaning (.rem core d a b)).isSome
  | .remu core d a b => (hscMeaning (.remu core d a b)).isSome
  | .min core d a b => (hscMeaning (.min core d a b)).isSome
  | .max core d a b => (hscMeaning (.max core d a b)).isSome
  | .minu core d a b => (hscMeaning (.minu core d a b)).isSome
  | .maxu core d a b => (hscMeaning (.maxu core d a b)).isSome
  | .addi core d a imm => (hscMeaning (.addi core d a imm)).isSome
  | .andi core d a imm => (hscMeaning (.andi core d a imm)).isSome
  | .ori core d a imm => (hscMeaning (.ori core d a imm)).isSome
  | .xori core d a imm => (hscMeaning (.xori core d a imm)).isSome
  | .shli core d a imm => (hscMeaning (.shli core d a imm)).isSome
  | .shri core d a imm => (hscMeaning (.shri core d a imm)).isSome
  | .srai core d a imm => (hscMeaning (.srai core d a imm)).isSome
  | .li core d x => (hscMeaning (.li core d x)).isSome
  | .fadd core d a b => (hscMeaning (.fadd core d a b)).isSome
  | .fsub core d a b => (hscMeaning (.fsub core d a b)).isSome
  | .fmul core d a b => (hscMeaning (.fmul core d a b)).isSome
  | .fdiv core d a b => (hscMeaning (.fdiv core d a b)).isSome
  | .fsqrt core d a => (hscMeaning (.fsqrt core d a)).isSome
  | .fabs core d a => (hscMeaning (.fabs core d a)).isSome
  | .fneg core d a => (hscMeaning (.fneg core d a)).isSome
  | .fmin core d a b => (hscMeaning (.fmin core d a b)).isSome
  | .fmax core d a b => (hscMeaning (.fmax core d a b)).isSome
  | .fma core d a b => (hscMeaning (.fma core d a b)).isSome
  | .fnms core d a b => (hscMeaning (.fnms core d a b)).isSome
  | .itof core d a => (hscMeaning (.itof core d a)).isSome
  | .utof core d a => (hscMeaning (.utof core d a)).isSome
  | .ftoi core d a => (hscMeaning (.ftoi core d a)).isSome
  | .ftoin core d a => (hscMeaning (.ftoin core d a)).isSome
  | .cadd core d a b => (hscMeaning (.cadd core d a b)).isSome
  | .csub core d a b => (hscMeaning (.csub core d a b)).isSome
  | .cmul core d a b => (hscMeaning (.cmul core d a b)).isSome
  | .cconj core d a => (hscMeaning (.cconj core d a)).isSome
  | .cmag core d a => (hscMeaning (.cmag core d a)).isSome
  | .carg core d a => (hscMeaning (.carg core d a)).isSome
  | .cscale core d a b => (hscMeaning (.cscale core d a b)).isSome
  | .cmake core d a b => (hscMeaning (.cmake core d a b)).isSome
  | .cre core d a => (hscMeaning (.cre core d a)).isSome
  | .cim core d a => (hscMeaning (.cim core d a)).isSome
  | .cmov core d a => (hscMeaning (.cmov core d a)).isSome
  | .eq core d a b => (hscMeaning (.eq core d a b)).isSome
  | .ne core d a b => (hscMeaning (.ne core d a b)).isSome
  | .lt core d a b => (hscMeaning (.lt core d a b)).isSome
  | .le core d a b => (hscMeaning (.le core d a b)).isSome
  | .ult core d a b => (hscMeaning (.ult core d a b)).isSome
  | .ule core d a b => (hscMeaning (.ule core d a b)).isSome
  | .feq core d a b => (hscMeaning (.feq core d a b)).isSome
  | .flt core d a b => (hscMeaning (.flt core d a b)).isSome
  | .fle core d a b => (hscMeaning (.fle core d a b)).isSome
  | .fun core d a b => (hscMeaning (.fun core d a b)).isSome
  | .pand core d a b => (hscMeaning (.pand core d a b)).isSome
  | .por core d a b => (hscMeaning (.por core d a b)).isSome
  | .pxor core d a b => (hscMeaning (.pxor core d a b)).isSome
  | .pandn core d a b => (hscMeaning (.pandn core d a b)).isSome
  | .pnot core d a => (hscMeaning (.pnot core d a)).isSome
  | .pset core d a => (hscMeaning (.pset core d a)).isSome
  | .pget core d a => (hscMeaning (.pget core d a)).isSome
  | .sel core d p a b => (hscMeaning (.sel core d p a b)).isSome
  | .csel core d p a b => (hscMeaning (.csel core d p a b)).isSome
  | .br core pred off => (hscMeaning (.br core pred off)).isSome
  | .loop core r body ext => (hscMeaning (.loop core r body ext)).isSome
  | .ld core width d base seg off => (hscMeaning (.ld core width d base seg off)).isSome
  | .st core width d base seg off => (hscMeaning (.st core width d base seg off)).isSome
  | .vcopy core src dst d a b => (hscMeaning (.vcopy core src dst d a b)).isSome
  | .vsum core seg ty d a b => (hscMeaning (.vsum core seg ty d a b)).isSome
  | .vmax core seg ty d a b => (hscMeaning (.vmax core seg ty d a b)).isSome
  | .trig core a line => (hscMeaning (.trig core a line)).isSome
  | .log core seg msg a b => (hscMeaning (.log core seg msg a b)).isSome
  | .ton core inst => (hscMeaning (.ton core inst)).isSome
  | .tof core inst => (hscMeaning (.tof core inst)).isSome
  | .tp core inst => (hscMeaning (.tp core inst)).isSome
  | .ctu core inst => (hscMeaning (.ctu core inst)).isSome
  | .ctd core inst => (hscMeaning (.ctd core inst)).isSome
  | .ctud core inst => (hscMeaning (.ctud core inst)).isSome
  | .rTrig core inst => (hscMeaning (.rTrig core inst)).isSome
  | .fTrig core inst => (hscMeaning (.fTrig core inst)).isSome
  | .hyst core inst => (hscMeaning (.hyst core inst)).isSome
  | .seq core => (hscMeaning (.seq core)).isSome
  | .imp core => (hscMeaning (.imp core)).isSome
  | .roc core inst => (hscMeaning (.roc core inst)).isSome
  | .unitFault _ _ => true
  | .registerRead _ _ width => widthOk width
  | .bar2Write _ _ => true
  | .tempDiffWarn _ => true
  | .ptpIntervalSend _ _ _ => true

end Sys2Proof
end

