-- ==== Sys2Proof/Certificates/Slice0/Obligations.lean ====
section
/-! DEFINITION. The statements about the model, each a Prop, and the words they share. A statement whose conclusion is
`exec c s = .next t` says that the command completes, and with what. -/

namespace Sys2Proof.Claims

open Machine

/-! ### Words for Hyrra Scan Code -/

/-- Activation `a` runs on a core, and BUD pays for an instruction of `cost` cycles (R124). -/
def Runs (s : State) (c : CoreRef) (a : Act) (cost : Nat) : Prop :=
  (s.coreSt c.side c.core.val).cur = some a ∧ a.status = .running ∧ cost ≤ a.bud

/-- The activation with the instruction's cost taken from BUD and the place of the next instruction moved past its words
(R124). -/
def paid (a : Act) (cost words : Nat) : Act := { a with bud := a.bud - cost, pc := a.pc + 4 * words }

/-- The instruction leaves the activation as `x`; a loop body that ends here takes its back edge (R153), and the
activation goes on, commits or aborts. -/
def ends (s : State) (c : CoreRef) (x : Act) : State := s.finish c.side c.core.val x.settle

/-- Gd := val (Ga, Gb), no flag, nothing else. -/
def GeneralOp (op : CoreRef → BitVec 5 → BitVec 5 → BitVec 5 → Instr) (cost : Nat) (val : Word → Word → Word) : Prop :=
  ∀ (s : State) (c : CoreRef) (d x y : BitVec 5) (a : Act), Runs s c a cost →
    exec (op c d x y) s = .next (ends s c ((paid a cost 1).wg d (val (a.rg x) (a.rg y))))

/-- Division and remainder: divisor 0 gives 0 and sets IDZ, FLG bit 0; otherwise the value, no flag. -/
def DivideOp (op : CoreRef → BitVec 5 → BitVec 5 → BitVec 5 → Instr) (val : Word → Word → Word) : Prop :=
  ∀ (s : State) (c : CoreRef) (d x y : BitVec 5) (a : Act), Runs s c a 12 →
    (a.rg y = 0 →
      exec (op c d x y) s = .next (ends s c (({ paid a 12 1 with flg := a.flg ||| 1 }).wg d 0))) ∧
    (a.rg y ≠ 0 → exec (op c d x y) s = .next (ends s c ((paid a 12 1).wg d (val (a.rg x) (a.rg y)))))

/-- Gd := val (Ga, imm11). -/
def ImmediateOp (op : CoreRef → BitVec 5 → BitVec 5 → BitVec 11 → Instr) (ok : BitVec 11 → Prop)
    (val : Word → BitVec 11 → Word) : Prop :=
  ∀ (s : State) (c : CoreRef) (d x : BitVec 5) (i : BitVec 11) (a : Act), Runs s c a 1 → ok i →
    exec (op c d x i) s = .next (ends s c ((paid a 1 1).wg d (val (a.rg x) i)))

/-- Gd := the value of a binary32 operation of two operands, its exceptions put into FLG. -/
def FloatOp (op : CoreRef → BitVec 5 → BitVec 5 → BitVec 5 → Instr) (cost : Nat)
    (f : Word → Word → Word → Word × FpFlags) : Prop :=
  ∀ (s : State) (c : CoreRef) (d x y : BitVec 5) (a : Act), Runs s c a cost →
    exec (op c d x y) s = .next (ends s c
      (({ paid a cost 1 with flg := a.flg ||| (f (a.rg d) (a.rg x) (a.rg y)).2.word }).wg d (f (a.rg d) (a.rg x) (a.rg y)).1))

/-- Gd := the value of a binary32 operation of one operand. -/
def FloatOp1 (op : CoreRef → BitVec 5 → BitVec 5 → Instr) (cost : Nat) (f : Word → Word × FpFlags) : Prop :=
  ∀ (s : State) (c : CoreRef) (d x : BitVec 5) (a : Act), Runs s c a cost →
    exec (op c d x) s = .next (ends s c
      (({ paid a cost 1 with flg := a.flg ||| (f (a.rg x)).2.word }).wg d (f (a.rg x)).1))

/-- Fd := val (Ga, Gb); a write of F0 is discarded. -/
def CompareOp (op : CoreRef → BitVec 3 → BitVec 5 → BitVec 5 → Instr) (val : Word → Word → Bool) : Prop :=
  ∀ (s : State) (c : CoreRef) (d : BitVec 3) (x y : BitVec 5) (a : Act), Runs s c a 1 →
    exec (op c d x y) s = .next (ends s c ((paid a 1 1).wf d (val (a.rg x) (a.rg y))))

/-- Fd := val (Fa, Fb). -/
def PredicateOp (op : CoreRef → BitVec 3 → BitVec 3 → BitVec 3 → Instr) (val : Bool → Bool → Bool) : Prop :=
  ∀ (s : State) (c : CoreRef) (d x y : BitVec 3) (a : Act), Runs s c a 1 →
    exec (op c d x y) s = .next (ends s c ((paid a 1 1).wf d (val (a.rf x) (a.rf y))))

/-- Whether a binary32 pattern is a NaN. -/
def isNaN (w : Word) : Prop := 0x7F800000 < w.toNat % 2147483648

/-- Whether a NaN pattern is a signalling one: its quiet bit is clear. -/
def isSignalling (w : Word) : Prop := isNaN w ∧ w.toNat / 4194304 % 2 = 0

/-- The value of a binary32 pattern that is no NaN as a place in their order, −0 and +0 alike. -/
def place (w : Word) : Int := if w.toNat < 2147483648 then w.toNat else -((w.toNat % 2147483648 : Nat) : Int)

/-- The same with −0 below +0 (R149). -/
def placeSigned (w : Word) : Int := if w.toNat < 2147483648 then w.toNat else -((w.toNat % 2147483648 : Nat) : Int) - 1

/-- The effective address of R143 for a scale: G[base] + offset × scale in 32-bit unsigned arithmetic. -/
def address (a : Act) (base : BitVec 5) (off : BitVec 11) (scale : Nat) : Nat :=
  (((a.rg base).toNat : Int) + off.toInt * scale).emod 4294967296 |>.toNat

/-- The checks of R144 that a program can fail: inside the segment, aligned, no store to IN. -/
def InSegment (a : Act) (seg : SegCode) (at0 width align : Nat) (store : Bool) : Prop :=
  at0 + width ≤ a.segSize seg ∧ at0 % align = 0 ∧ ¬ (store = true ∧ seg = .inp)

/-- The check of R144 that only a corrupt slice table fails: the resolved address lies in the stall's pitches. -/
def InPitches (a : Act) (seg : SegCode) (at0 width : Nat) : Prop := a.segBase seg + at0 + width ≤ a.slice.limit

/-- The access may take place (R144). -/
def Allowed (a : Act) (seg : SegCode) (at0 width align : Nat) (store : Bool) : Prop :=
  InSegment a seg at0 width align store ∧ InPitches a seg at0 width

/-- The activation's row of the slice table is sound: its segments lie in the stall's pitches (R144). -/
def SoundRow (a : Act) : Prop := a.memFault = false ∧ ∀ seg, a.segBase seg + a.segSize seg ≤ a.slice.limit

/-- The side whose computation of the tick is the module's: the active one, or with none the one that has computed the tick
itself (R221, R222). -/
def Serves (s : State) (sd : SideId) : Prop :=
  s.active = some sd ∨ (s.active = none ∧ (s.side sd).role ≠ .out ∧ (s.side sd).duty.computed = s.now)

/-- The byte of a segment at an address. -/
def byteAt (a : Act) (seg : SegCode) (k : Nat) : Nat := (memRead (a.segMem seg) k).toNat

/-- A big-endian value of 1, 2 or 4 bytes of a segment (R143). -/
def half (a : Act) (seg : SegCode) (k : Nat) : Nat := byteAt a seg k * 256 + byteAt a seg (k + 1)
def word (a : Act) (seg : SegCode) (k : Nat) : Nat := half a seg k * 65536 + half a seg (k + 2)

/-- The segments are in their one canonical form. -/
def Canonical (a : Act) : Prop := memWf a.inp = true ∧ memWf a.out = true ∧ memWf a.ret = true ∧ memWf a.loc = true

/-- The activation after a store of `bytes` at an address: exactly those bytes of that segment changed. -/
def Stored (x y : Act) (seg : SegCode) (at0 : Nat) (bytes : List Nat) : Prop :=
  ∃ m : Mem, y = x.withSeg seg m ∧ memWf m = true ∧
    (∀ k < bytes.length, (memRead m (at0 + k)).toNat = bytes.getD k 0) ∧
    ∀ k, (k < at0 ∨ at0 + bytes.length ≤ k) → memRead m k = memRead (x.segMem seg) k

/-- A load: the register file becomes `y`. -/
def LoadOp (width : BitVec 3) (scale bytes align : Nat) (ok : BitVec 5 → Prop) (put : Act → BitVec 5 → SegCode → Nat → Act → Act) : Prop :=
  ∀ (s : State) (c : CoreRef) (d base : BitVec 5) (seg : SegCode) (off : BitVec 11) (a : Act), Runs s c a 2 → ok d →
    Allowed a seg (address a base off scale) bytes align false →
    exec (.ld c width d base seg off) s = .next (ends s c (put a d seg (address a base off scale) (paid a 2 1)))

/-- A store of the bytes that `val` takes from the activation. -/
def StoreOp (width : BitVec 3) (scale align : Nat) (ok : BitVec 5 → Prop) (val : Act → BitVec 5 → List Nat) : Prop :=
  ∀ (s : State) (c : CoreRef) (d base : BitVec 5) (seg : SegCode) (off : BitVec 11) (a : Act), Runs s c a 1 → ok d → Canonical a →
    Allowed a seg (address a base off scale) (val a d).length align true →
    ∃ y, Stored (paid a 1 1) y seg (address a base off scale) (val a d) ∧
      exec (.st c width d base seg off) s = .next (ends s c y)

/-- The four big-endian bytes of a word. -/
def bytes4 (w : Word) : List Nat := [w.toNat / 16777216, w.toNat / 65536 % 256, w.toNat / 256 % 256, w.toNat % 256]

/-- The count of a vector operation, clamped, and the flag that says so (R156). -/
def count (w : Word) : Nat := if w.toNat ≤ 4096 then w.toNat else 4096
def clampFlag (n limit : Nat) : Word := if limit < n then 32 else 0

/-- Every element of a vector is inside its segment. -/
def Elements (a : Act) (seg : SegCode) (at0 n size : Nat) (store : Bool) : Prop :=
  at0 + n * size ≤ a.segSize seg ∧ at0 + n * size ≤ 4294967296 ∧ at0 % 4 = 0 ∧ ¬ (store = true ∧ seg = .inp ∧ 0 < n) ∧
    InPitches a seg at0 (n * size)

/-- Element i of a vector of words. -/
def element (a : Act) (seg : SegCode) (at0 i : Nat) : Word := BitVec.ofNat 32 (word a seg (at0 + 4 * i))

/-- A running binary32 sum with its exceptions. -/
def runningSum (step : Word → Word → Word × FpFlags) (xs : List Word) : Word × Word :=
  xs.foldl (fun r x => ((step r.1 x).1, r.2 ||| (step r.1 x).2.word)) (0, 0)

/-- The words of a vector. -/
def elements (a : Act) (seg : SegCode) (at0 n : Nat) : List Word := (List.range n).map (element a seg at0)

/-- The order of VMAX for an element type (R156). -/
def rank (ty : Nat) (w : Word) : Int :=
  if ty = 0 then w.toInt else if ty = 4 then w.toNat else if ty = 1 then placeSigned w else (w.toNat % 2147483648 : Nat)

/-- The elements that VMAX compares. -/
def compared (ty : Nat) (w : Word) : Prop := (ty = 1 ∨ ty = 5) → ¬ isNaN w

/-- The stateful block of one slot keeps its state in these 16 bytes of RET (R163, R501). -/
def slotBytes (a : Act) (inst : BitVec 16) : Bytes := memReadBytes a.ret (16 * inst.toNat) 16

/-- The activation after a block call: the block's slot bytes, the registers it writes. -/
def BlockOp (op : CoreRef → BitVec 16 → Instr) (cost : Nat) (next : Bytes → Act → Bytes) (regs : Bytes → Act → List (BitVec 5 × Word)) : Prop :=
  ∀ (s : State) (c : CoreRef) (inst : BitVec 16) (a : Act), Runs s c a cost → Allowed a .ret (16 * inst.toNat) 16 4 true →
    exec (op c inst) s = .next (ends s c
      ({ (regs (slotBytes a inst) a).foldl (fun x r => x.wg r.1 r.2) (paid a cost 1) with
          ret := memWriteBytes a.ret (16 * inst.toNat) (next (slotBytes a inst) a) }))

/-- The uint32 at an offset of a state. -/
def natAt (b : Bytes) (k : Nat) : Nat :=
  (((b.getD k 0).toNat * 256 + (b.getD (k + 1) 0).toNat) * 256 + (b.getD (k + 2) 0).toNat) * 256 + (b.getD (k + 3) 0).toNat

/-- The bool at an offset of a state: any byte but 0 is 1 (R501). -/
def boolAt (b : Bytes) (k : Nat) : Bool := decide (b.getD k 0 ≠ 0)

def asWord (b : Bool) : Word := if b then 1 else 0
def asByte (b : Bool) : Byte := if b then 1 else 0

/-- The bytes of a state: a word, two bools, zeros. -/
def stateBytes (n : Nat) (p q : Bool) : Bytes := beBytes 4 (n % 4294967296) ++ [asByte p, asByte q] ++ zeros 10

/-- TON of R165: ET, Q. -/
def tonOf (i : Bool) (pt et : Nat) (prev : Bool) : Nat × Bool :=
  let e := if i ∧ prev then min ((et + 1) % 4294967296) pt else 0
  (e, i && decide (pt ≤ e))

/-- TOF of R165: ET, RUN, Q. -/
def tofOf (i : Bool) (pt et : Nat) (prev run : Bool) : Nat × Bool × Bool :=
  let e := if i then 0 else if prev then 0 else if run then (et + 1) % 4294967296 else et
  let r := if i then false else if prev then true else run
  let r' := if r ∧ pt ≤ e then false else r
  (e, r', i || r')

/-- TP of R165: ET, RUN. -/
def tpOf (i : Bool) (pt et : Nat) (prev run : Bool) : Nat × Bool :=
  if run then ((et + 1) % 4294967296, decide ((et + 1) % 4294967296 < pt))
  else if i = true ∧ prev = false ∧ 0 < pt then (0, true)
  else if i then (et, false) else (0, false)

/-- CV of a counter: two's complement in the first four bytes. -/
def cvAt (b : Bytes) : Int := if natAt b 0 < 2147483648 then natAt b 0 else (natAt b 0 : Int) - 4294967296

/-- An instruction's word in format A (R145): opcode, d, a, b, function code. -/
def FormatA (i : Instr) (op d a b fn : Nat) : Prop :=
  hscEncode i = some (BitVec.ofNat 32 (op * 2 ^ 26 + d * 2 ^ 21 + a * 2 ^ 16 + b * 2 ^ 11 + fn), none)

/-- The core an instruction runs on, and its cycles at issue, as the tables of R147 to R164 give them; LOG adds the length
term of R160. -/
def cycles (a : Act) (i : Instr) : Option (CoreRef × Nat) :=
  match i with
  | .nop c | .halt c | .mfs c _ _ | .add c _ _ _ | .sub c _ _ _ | .and c _ _ _ | .or c _ _ _ | .xor c _ _ _
  | .shl c _ _ _ | .shr c _ _ _ | .sra c _ _ _ | .min c _ _ _ | .max c _ _ _ | .minu c _ _ _ | .maxu c _ _ _
  | .addi c _ _ _ | .andi c _ _ _ | .ori c _ _ _ | .xori c _ _ _ | .shli c _ _ _ | .shri c _ _ _ | .srai c _ _ _
  | .fabs c _ _ | .fneg c _ _ | .fmin c _ _ _ | .fmax c _ _ _ | .cconj c _ _ | .cmake c _ _ _ | .cre c _ _
  | .cim c _ _ | .cmov c _ _ | .eq c _ _ _ | .ne c _ _ _ | .lt c _ _ _ | .le c _ _ _ | .ult c _ _ _ | .ule c _ _ _
  | .feq c _ _ _ | .flt c _ _ _ | .fle c _ _ _ | .fun c _ _ _ | .pand c _ _ _ | .por c _ _ _ | .pxor c _ _ _
  | .pandn c _ _ _ | .pnot c _ _ | .pset c _ _ | .pget c _ _ | .sel c _ _ _ _ | .csel c _ _ _ _ | .st c _ _ _ _ _ => some (c, 1)
  | .mul c _ _ _ | .mulh c _ _ _ | .mulhu c _ _ _ | .li c _ _ | .fadd c _ _ _ | .fsub c _ _ _ | .fmul c _ _ _
  | .itof c _ _ | .utof c _ _ | .ftoi c _ _ | .ftoin c _ _ | .cadd c _ _ _ | .csub c _ _ _ | .cscale c _ _ _
  | .br c _ _ | .loop c _ _ _ | .ld c _ _ _ _ _ => some (c, 2)
  | .fma c _ _ _ | .fnms c _ _ _ => some (c, 3)
  | .cmul c _ _ _ | .trig c _ _ | .rTrig c _ | .fTrig c _ => some (c, 4)
  | .ctu c _ | .ctd c _ | .hyst c _ => some (c, 5)
  | .ton c _ | .tof c _ | .tp c _ => some (c, 6)
  | .ctud c _ => some (c, 7)
  | .vcopy c _ _ _ _ _ | .vsum c _ _ _ _ _ | .vmax c _ _ _ _ _ => some (c, 8)
  | .div c _ _ _ | .divu c _ _ _ | .rem c _ _ _ | .remu c _ _ _ | .fdiv c _ _ _ | .fsqrt c _ _ | .roc c _ => some (c, 12)
  | .cmag c _ _ => some (c, 14)
  | .seq c => some (c, 18)
  | .carg c _ _ => some (c, 20)
  | .imp c => some (c, 30)
  | .log c _ _ _ y => some (c, 8 + ((if 256 < (a.rg y).toNat then 256 else (a.rg y).toNat) + 15) / 16)
  | _ => none

/-- A branch taken to `target` (R152): it ends the loops whose bodies do not hold the target (R154), innermost first. -/
def jumped (a : Act) (target : Nat) : Act :=
  { a with pc := target, loops := a.loops.dropWhile fun l => !(decide (l.start ≤ target) && decide (target < l.stop)) }

/-! ### Words for commands -/

/-- The side takes the command and it executes at this bell: the checks of rights and length pass (R398 to R400), the side
is not in deep self-test (R466), APPLY_TICK is 0 (R403). -/
def Takes (s : State) (c : CmdSpec) (h : CmdHdr) (p : Bytes) : Prop :=
  s.barred c h p = none ∧ (isOutside h && s.deepTest h.side) = false ∧ h.applyTick = 0

/-- What follows the effect `t` of an executed command (R404, R406, R422, R324): validations that the write broke end, the
change record waits for the Ledger, the outcome is kept, the reply leaves with the tick of this bell; so does a reply that
returns what it read with STATE for a side that is Out. -/
def settled (s : State) (c : CmdSpec) (h : CmdHdr) (p : Bytes) (t : State) (st : Status) (body : Bytes) : State :=
  ((t.abandonValidations.changeRecord c h p st false).noteOutcome h st s.now).replyKey
    (s.principalKey h.side h.origin.toNat) h c.op st 
    (if (st = .ok ∨ st = .acceptedPending) ∨ (st = .state ∧ body ≠ []) then s.now else 0) body

/-- The command executes with an effect and a reply body wherever `ok` holds. -/
def Does (i : CmdHdr → Bytes → Instr) (c : CmdSpec) (ok : State → CmdHdr → Bytes → Prop)
    (eff : State → CmdHdr → Bytes → State) (body : State → CmdHdr → Bytes → Bytes) : Prop :=
  ∀ (s : State) (h : CmdHdr) (p : Bytes), Takes s c h p → ok s h p →
    exec (i h p) s = .next (settled s c h p (eff s h p) .ok (body s h p))

/-- The command reads: its reply carries `body` and nothing else of the module changes. -/
def Reads (i : CmdHdr → Bytes → Instr) (c : CmdSpec) (ok : State → CmdHdr → Bytes → Prop)
    (body : State → CmdHdr → Bytes → Bytes) : Prop := Does i c ok (fun s _ _ => s) body

/-- The command is refused, without effect, wherever `bad` holds. -/
def Refuses (i : CmdHdr → Bytes → Instr) (c : CmdSpec) (bad : State → CmdHdr → Bytes → Prop) (st : Status) : Prop :=
  ∀ (s : State) (h : CmdHdr) (p : Bytes), Takes s c h p → bad s h p →
    exec (i h p) s = .next (settled s c h p s st [])

/-- The command is accepted and its final status will follow (R406). -/
def Accepts (i : CmdHdr → Bytes → Instr) (c : CmdSpec) (ok : State → CmdHdr → Bytes → Prop)
    (eff : State → CmdHdr → Bytes → State) : Prop :=
  ∀ (s : State) (h : CmdHdr) (p : Bytes), Takes s c h p → ok s h p →
    exec (i h p) s = .next (settled s c h p (eff s h p) .acceptedPending [])

/-- The module scope's shadow with other records: VALID and its digest go, a validation in progress is broken (R422). -/
def shadowed (s : State) (f : Tbl Bytes → Tbl Bytes) : State :=
  { s with
    modShadow := { s.modShadow with recs := f s.modShadow.recs, valid := false, digest := [] }
    validations := Tbl.upd s.validations 0 fun v => { v with broken := true } }

/-- The same for the scope that holds a stall's blocks: the module's for stall 0 (R416). -/
def stallShadowed (s : State) (stall : Nat) (f : Tbl Bytes → Tbl Bytes) : State :=
  if stall = 0 then shadowed s f
  else
    { s with
      stallShadow := Tbl.put s.stallShadow stall { (Tbl.getD s.stallShadow stall Scope.empty) with
        recs := f (Tbl.getD s.stallShadow stall Scope.empty).recs, valid := false, digest := [] }
      validations := Tbl.upd s.validations stall fun v => { v with broken := true } }

/-- A record put into a block of R417. -/
def withRecord (ty idx : Nat) (r : Bytes) (t : Tbl Bytes) : Tbl Bytes := Tbl.put t (ty * 4294967296 + idx) r

/-- A SET command: its record goes into the module scope's shadow where its fields are in range, RANGE elsewhere. -/
def SetsRecord (i : CmdHdr → Bytes → Instr) (c : CmdSpec) (ok : Bytes → Bool) (ty : Nat) (idx : Bytes → Nat)
    (record : State → Bytes → Bytes) : Prop :=
  Does i c (fun _ _ p => ok p = true) (fun s _ p => shadowed s (withRecord ty (idx p) (record s p))) (fun _ _ _ => []) ∧
  Refuses i c (fun _ _ p => ok p = false) .range

/-- A SET command of a stall's block. -/
def SetsStallRecord (i : CmdHdr → Bytes → Instr) (c : CmdSpec) (ok : Bytes → Bool) (stall : Bytes → Nat) (ty : Nat)
    (idx : Bytes → Nat) : Prop :=
  Does i c (fun _ _ p => ok p = true) (fun s _ p => stallShadowed s (stall p) (withRecord ty (idx p) p)) (fun _ _ _ => []) ∧
  Refuses i c (fun _ _ p => ok p = false) .range

/-- The items of a list that a reply holds (R395). -/
def listed (h : CmdHdr) (l : List Bytes) : Bytes := (fitItems h 0 l).flatten

end Sys2Proof.Claims

open Sys2Proof Sys2Proof.Machine Sys2Proof.Claims

/-! ## Hyrra Scan Code -/

/-- R147: the three-register integer operations. -/
def Obligations.IntegerOperations : Prop :=
  GeneralOp .add 1 (fun x y => BitVec.ofInt 32 (x.toInt + y.toInt)) ∧
  GeneralOp .sub 1 (fun x y => BitVec.ofInt 32 (x.toInt - y.toInt)) ∧
  GeneralOp .and 1 (fun x y => x &&& y) ∧
  GeneralOp .or 1 (fun x y => x ||| y) ∧
  GeneralOp .xor 1 (fun x y => x ^^^ y) ∧
  GeneralOp .shl 1 (fun x y => BitVec.ofNat 32 (x.toNat * 2 ^ (y.toNat % 32))) ∧
  GeneralOp .shr 1 (fun x y => BitVec.ofNat 32 (x.toNat / 2 ^ (y.toNat % 32))) ∧
  GeneralOp .sra 1 (fun x y => BitVec.ofInt 32 (x.toInt / 2 ^ (y.toNat % 32))) ∧
  GeneralOp .mul 2 (fun x y => BitVec.ofNat 32 (x.toNat * y.toNat)) ∧
  GeneralOp .mulh 2 (fun x y => BitVec.ofInt 32 (x.toInt * y.toInt / 2 ^ 32)) ∧
  GeneralOp .mulhu 2 (fun x y => BitVec.ofNat 32 (x.toNat * y.toNat / 2 ^ 32)) ∧
  DivideOp .div (fun x y => BitVec.ofInt 32 (x.toInt.tdiv y.toInt)) ∧
  DivideOp .divu (fun x y => BitVec.ofNat 32 (x.toNat / y.toNat)) ∧
  DivideOp .rem (fun x y => BitVec.ofInt 32 (x.toInt.tmod y.toInt)) ∧
  DivideOp .remu (fun x y => BitVec.ofNat 32 (x.toNat % y.toNat)) ∧
  GeneralOp .min 1 (fun x y => if x.toInt ≤ y.toInt then x else y) ∧
  GeneralOp .max 1 (fun x y => if x.toInt ≤ y.toInt then y else x) ∧
  GeneralOp .minu 1 (fun x y => if x.toNat ≤ y.toNat then x else y) ∧
  GeneralOp .maxu 1 (fun x y => if x.toNat ≤ y.toNat then y else x)

/-- R147: NOP, MFS, the immediate forms, LI. A shift immediate of 32 or more, and a special register above 3, make no
defined instruction (R138).
That MFS reads BUD after its own charge is log entry 21. -/
def Obligations.ImmediateOperations : Prop :=
  ImmediateOp .addi (fun _ => True) (fun x i => BitVec.ofInt 32 (x.toInt + i.toInt)) ∧
  ImmediateOp .andi (fun _ => True) (fun x i => BitVec.ofNat 32 (x.toNat &&& i.toNat)) ∧
  ImmediateOp .ori (fun _ => True) (fun x i => BitVec.ofNat 32 (x.toNat ||| i.toNat)) ∧
  ImmediateOp .xori (fun _ => True) (fun x i => BitVec.ofNat 32 (x.toNat ^^^ i.toNat)) ∧
  ImmediateOp .shli (fun i => i.toNat < 32) (fun x i => BitVec.ofNat 32 (x.toNat * 2 ^ i.toNat)) ∧
  ImmediateOp .shri (fun i => i.toNat < 32) (fun x i => BitVec.ofNat 32 (x.toNat / 2 ^ i.toNat)) ∧
  ImmediateOp .srai (fun i => i.toNat < 32) (fun x i => BitVec.ofInt 32 (x.toInt / 2 ^ i.toNat)) ∧
  (∀ s c d w a, Runs s c a 2 → exec (.li c d w) s = .next (ends s c ((paid a 2 2).wg d w))) ∧
  (∀ s c a, Runs s c a 1 → exec (.nop c) s = .next (ends s c (paid a 1 1))) ∧
  (∀ s c d a, Runs s c a 1 →
    exec (.mfs c d 0) s = .next (ends s c ((paid a 1 1).wg d (BitVec.ofNat 32 a.tick))) ∧
    exec (.mfs c d 1) s = .next (ends s c ((paid a 1 1).wg d (BitVec.ofNat 32 a.per))) ∧
    exec (.mfs c d 2) s = .next (ends s c ((paid a 1 1).wg d (BitVec.ofNat 32 (a.bud - 1)))) ∧
    exec (.mfs c d 3) s = .next (ends s c ((paid a 1 1).wg d a.flg)))

/-- R148: the binary32 operations complete with the value and the exceptions of their IEEE 754 operation. -/
def Obligations.FloatOperations : Prop :=
  FloatOp .fadd 2 (fun _ x y => fAdd x y) ∧ FloatOp .fsub 2 (fun _ x y => fSub x y) ∧
  FloatOp .fmul 2 (fun _ x y => fMul x y) ∧ FloatOp .fdiv 12 (fun _ x y => fDiv x y) ∧
  FloatOp1 .fsqrt 12 fSqrt ∧ FloatOp1 .fabs 1 fAbs ∧ FloatOp1 .fneg 1 fNeg ∧
  FloatOp .fmin 1 (fun _ x y => fMin x y) ∧ FloatOp .fmax 1 (fun _ x y => fMax x y) ∧
  FloatOp .fma 3 (fun d x y => fFma x y d) ∧ FloatOp .fnms 3 (fun d x y => fFma (fFlip x) y d) ∧
  FloatOp1 .itof 2 (fun x => (BitVec.ofNat 32 (fpOfInt fmt32 x.toInt), noFlags)) ∧
  FloatOp1 .utof 2 (fun x => (BitVec.ofNat 32 (fpOfInt fmt32 x.toNat), noFlags)) ∧
  FloatOp1 .ftoi 2 (fun x => w32 (fpToInt32 fmt32 false x.toNat)) ∧
  FloatOp1 .ftoin 2 (fun x => w32 (fpToInt32 fmt32 true x.toNat))

/-- R149: what holds of the binary32 results whatever the operands: one NaN pattern, sign operations, minimum and
maximum, saturating conversions, a zero times an infinity. -/
def Obligations.FloatRules : Prop :=
  (∀ x y z : Word,
    (isNaN (fAdd x y).1 → (fAdd x y).1 = 0x7FC00000) ∧ (isNaN (fSub x y).1 → (fSub x y).1 = 0x7FC00000) ∧
    (isNaN (fMul x y).1 → (fMul x y).1 = 0x7FC00000) ∧ (isNaN (fDiv x y).1 → (fDiv x y).1 = 0x7FC00000) ∧
    (isNaN (fSqrt x).1 → (fSqrt x).1 = 0x7FC00000) ∧ (isNaN (fFma x y z).1 → (fFma x y z).1 = 0x7FC00000)) ∧
  (∀ x y : Word, (isNaN x ∨ isNaN y) →
    (fAdd x y).1 = 0x7FC00000 ∧ (fSub x y).1 = 0x7FC00000 ∧ (fMul x y).1 = 0x7FC00000 ∧ (fDiv x y).1 = 0x7FC00000 ∧
    ((fAdd x y).2.nv = true ↔ isSignalling x ∨ isSignalling y)) ∧
  (∀ x : Word, ¬ isNaN x → fAbs x = (x &&& 0x7FFFFFFF, noFlags) ∧ fNeg x = (x ^^^ 0x80000000, noFlags)) ∧
  (∀ x : Word, isNaN x → (fAbs x).1 = 0x7FC00000 ∧ (fNeg x).1 = 0x7FC00000 ∧ ((fNeg x).2.nv = true ↔ isSignalling x)) ∧
  (∀ x y : Word, ¬ isNaN x → ¬ isNaN y →
    (fMin x y).1 = (if placeSigned x ≤ placeSigned y then x else y) ∧
    (fMax x y).1 = (if placeSigned x ≤ placeSigned y then y else x)) ∧
  (∀ x y : Word, isNaN x → ¬ isNaN y → (fMin x y).1 = y ∧ (fMax x y).1 = y ∧ (fMin y x).1 = y ∧ (fMax y x).1 = y) ∧
  (∀ x y : Word, isNaN x → isNaN y → (fMin x y).1 = 0x7FC00000 ∧ (fMax x y).1 = 0x7FC00000) ∧
  (∀ (x : Word) (near : Bool), isNaN x → fpToInt32 fmt32 near x.toNat = (0, { nv := true })) ∧
  (∀ (x : Word) (near : Bool), 0x4F000000 ≤ x.toNat → x.toNat ≤ 0x7F800000 →
    fpToInt32 fmt32 near x.toNat = (0x7FFFFFFF, { nv := true })) ∧
  (∀ (x : Word) (near : Bool), 0xCF000001 ≤ x.toNat → x.toNat ≤ 0xFF800000 →
    fpToInt32 fmt32 near x.toNat = (0x80000000, { nv := true })) ∧
  (∀ x y z : Word, x.toNat % 2147483648 = 0 → y.toNat % 2147483648 = 0x7F800000 →
    (fFma x y z).1 = 0x7FC00000 ∧ (fFma x y z).2.nv = true ∧ (fFma y x z).1 = 0x7FC00000 ∧ (fFma y x z).2.nv = true)

/-- R150: the complex operations, step by step in the stated order. -/
def Obligations.ComplexOperations : Prop :=
  (∀ s c (d x y : BitVec 4) a, Runs s c a 2 →
    exec (.cadd c d x y) s = .next (ends s c
      (({ paid a 2 1 with flg := a.flg ||| (((fAdd (a.rp x).re (a.rp y).re).2.join (fAdd (a.rp x).im (a.rp y).im).2).word) }).wp d
        ⟨(fAdd (a.rp x).re (a.rp y).re).1, (fAdd (a.rp x).im (a.rp y).im).1⟩)) ∧
    exec (.csub c d x y) s = .next (ends s c
      (({ paid a 2 1 with flg := a.flg ||| (((fSub (a.rp x).re (a.rp y).re).2.join (fSub (a.rp x).im (a.rp y).im).2).word) }).wp d
        ⟨(fSub (a.rp x).re (a.rp y).re).1, (fSub (a.rp x).im (a.rp y).im).1⟩))) ∧
  (∀ s c (d x y : BitVec 4) a, Runs s c a 4 → ∃ flags : Word,
    exec (.cmul c d x y) s = .next (ends s c
      (({ paid a 4 1 with flg := a.flg ||| flags }).wp d
        ⟨(fFma (a.rp x).re (a.rp y).re (fFlip (fMul (a.rp x).im (a.rp y).im).1)).1,
          (fFma (a.rp x).re (a.rp y).im (fMul (a.rp x).im (a.rp y).re).1).1⟩)) ∧
    flags = (((fMul (a.rp x).im (a.rp y).im).2.join
        (fFma (a.rp x).re (a.rp y).re (fFlip (fMul (a.rp x).im (a.rp y).im).1)).2).join
      ((fMul (a.rp x).im (a.rp y).re).2.join (fFma (a.rp x).re (a.rp y).im (fMul (a.rp x).im (a.rp y).re).1).2)).word) ∧
  (∀ s c (d x : BitVec 4) a, Runs s c a 1 →
    exec (.cconj c d x) s = .next (ends s c
      (({ paid a 1 1 with flg := a.flg ||| (fNeg (a.rp x).im).2.word }).wp d ⟨(a.rp x).re, (fNeg (a.rp x).im).1⟩)) ∧
    exec (.cmov c d x) s = .next (ends s c ((paid a 1 1).wp d (a.rp x)))) ∧
  (∀ s c (d : BitVec 5) (x : BitVec 4) a, Runs s c a 1 →
    exec (.cre c d x) s = .next (ends s c ((paid a 1 1).wg d (a.rp x).re)) ∧
    exec (.cim c d x) s = .next (ends s c ((paid a 1 1).wg d (a.rp x).im))) ∧
  (∀ s c (d : BitVec 4) (x y : BitVec 5) a, Runs s c a 1 →
    exec (.cmake c d x y) s = .next (ends s c ((paid a 1 1).wp d ⟨a.rg x, a.rg y⟩))) ∧
  (∀ s c (d x : BitVec 4) (y : BitVec 5) a, Runs s c a 2 →
    exec (.cscale c d x y) s = .next (ends s c
      (({ paid a 2 1 with flg := a.flg ||| (((fMul (a.rp x).re (a.rg y)).2.join (fMul (a.rp x).im (a.rg y)).2).word) }).wp d
        ⟨(fMul (a.rp x).re (a.rg y)).1, (fMul (a.rp x).im (a.rg y)).1⟩))) ∧
  (∀ s c (d : BitVec 5) (x : BitVec 4) a, Runs s c a 14 → ∃ flags : Word,
    exec (.cmag c d x) s = .next (ends s c
      (({ paid a 14 1 with flg := a.flg ||| flags }).wg d
        (fSqrt (fFma (a.rp x).re (a.rp x).re (fMul (a.rp x).im (a.rp x).im).1).1).1)) ∧
    flags = (((fMul (a.rp x).im (a.rp x).im).2.join (fFma (a.rp x).re (a.rp x).re (fMul (a.rp x).im (a.rp x).im).1).2).join
      (fSqrt (fFma (a.rp x).re (a.rp x).re (fMul (a.rp x).im (a.rp x).im).1).1).2).word) ∧
  (∀ s c (d : BitVec 5) (x : BitVec 4) a, Runs s c a 20 →
    exec (.carg c d x) s = .next (ends s c
      (({ paid a 20 1 with flg := a.flg ||| (fpAtan2 fmt32 (a.rp x).im.toNat (a.rp x).re.toNat).2.word }).wg d
        (BitVec.ofNat 32 (fpAtan2 fmt32 (a.rp x).im.toNat (a.rp x).re.toNat).1))))

/-- R151: integer compares are signed or unsigned, binary32 compares are false on a NaN and take the zeros as equal; PAND to
CSEL; every cost is one cycle; the words of opcodes 0x10 to 0x12; a write of F0 is discarded. -/
def Obligations.PredicateOperations : Prop :=
  (∀ c (d : BitVec 3) (x y : BitVec 5),
    FormatA (.eq c d x y) 0x10 d.toNat x.toNat y.toNat 0x000 ∧ FormatA (.ne c d x y) 0x10 d.toNat x.toNat y.toNat 0x001 ∧
    FormatA (.lt c d x y) 0x10 d.toNat x.toNat y.toNat 0x002 ∧ FormatA (.le c d x y) 0x10 d.toNat x.toNat y.toNat 0x003 ∧
    FormatA (.ult c d x y) 0x10 d.toNat x.toNat y.toNat 0x004 ∧ FormatA (.ule c d x y) 0x10 d.toNat x.toNat y.toNat 0x005 ∧
    FormatA (.feq c d x y) 0x10 d.toNat x.toNat y.toNat 0x008 ∧ FormatA (.flt c d x y) 0x10 d.toNat x.toNat y.toNat 0x009 ∧
    FormatA (.fle c d x y) 0x10 d.toNat x.toNat y.toNat 0x00A ∧ FormatA (.fun c d x y) 0x10 d.toNat x.toNat y.toNat 0x00B) ∧
  (∀ c (d x y : BitVec 3),
    FormatA (.pand c d x y) 0x11 d.toNat x.toNat y.toNat 0x000 ∧ FormatA (.por c d x y) 0x11 d.toNat x.toNat y.toNat 0x001 ∧
    FormatA (.pxor c d x y) 0x11 d.toNat x.toNat y.toNat 0x002 ∧ FormatA (.pandn c d x y) 0x11 d.toNat x.toNat y.toNat 0x003 ∧
    FormatA (.pnot c d x) 0x11 d.toNat x.toNat 0 0x004) ∧
  (∀ c (f p : BitVec 3) (d x y : BitVec 5) (m n o : BitVec 4),
    FormatA (.pset c f x) 0x11 f.toNat x.toNat 0 0x005 ∧ FormatA (.pget c d f) 0x11 d.toNat f.toNat 0 0x006 ∧
    FormatA (.sel c d p x y) 0x12 d.toNat x.toNat y.toNat p.toNat ∧
    FormatA (.csel c m p n o) 0x12 m.toNat n.toNat o.toNat (8 + p.toNat)) ∧
  (∀ (a : Act) (v : Bool), a.wf 0 v = a) ∧
  CompareOp .eq (fun x y => decide (x.toInt = y.toInt)) ∧ CompareOp .ne (fun x y => decide (x.toInt ≠ y.toInt)) ∧
  CompareOp .lt (fun x y => decide (x.toInt < y.toInt)) ∧ CompareOp .le (fun x y => decide (x.toInt ≤ y.toInt)) ∧
  CompareOp .ult (fun x y => decide (x.toNat < y.toNat)) ∧ CompareOp .ule (fun x y => decide (x.toNat ≤ y.toNat)) ∧
  CompareOp .feq (fun x y => decide (¬ 0x7F800000 < x.toNat % 2147483648 ∧ ¬ 0x7F800000 < y.toNat % 2147483648 ∧ place x = place y)) ∧
  CompareOp .flt (fun x y => decide (¬ 0x7F800000 < x.toNat % 2147483648 ∧ ¬ 0x7F800000 < y.toNat % 2147483648 ∧ place x < place y)) ∧
  CompareOp .fle (fun x y => decide (¬ 0x7F800000 < x.toNat % 2147483648 ∧ ¬ 0x7F800000 < y.toNat % 2147483648 ∧ place x ≤ place y)) ∧
  CompareOp .fun (fun x y => decide (0x7F800000 < x.toNat % 2147483648 ∨ 0x7F800000 < y.toNat % 2147483648)) ∧
  PredicateOp .pand (fun x y => x && y) ∧ PredicateOp .por (fun x y => x || y) ∧
  PredicateOp .pxor (fun x y => x ^^ y) ∧ PredicateOp .pandn (fun x y => x && !y) ∧
  (∀ s c (d x : BitVec 3) a, Runs s c a 1 → exec (.pnot c d x) s = .next (ends s c ((paid a 1 1).wf d (!a.rf x)))) ∧
  (∀ s c (d : BitVec 3) (x : BitVec 5) a, Runs s c a 1 →
    exec (.pset c d x) s = .next (ends s c ((paid a 1 1).wf d (decide (a.rg x ≠ 0))))) ∧
  (∀ s c (d : BitVec 5) (x : BitVec 3) a, Runs s c a 1 →
    exec (.pget c d x) s = .next (ends s c ((paid a 1 1).wg d (if a.rf x then 1 else 0)))) ∧
  (∀ s c (d : BitVec 5) (p : BitVec 3) (x y : BitVec 5) a, Runs s c a 1 →
    exec (.sel c d p x y) s = .next (ends s c ((paid a 1 1).wg d (if a.rf p then a.rg x else a.rg y)))) ∧
  (∀ s c (d : BitVec 4) (p : BitVec 3) (x y : BitVec 4) a, Runs s c a 1 →
    exec (.csel c d p x y) s = .next (ends s c ((paid a 1 1).wp d (if a.rf p then a.rp x else a.rp y))))

/-- R139: G0 reads 0 and F0 reads 1 whatever was written; a write changes the one register it names. -/
def Obligations.RegisterFile : Prop :=
  (∀ (a : Act) (v : Word), a.rg 0 = 0 ∧ a.wg 0 v = a) ∧
  (∀ (a : Act) (v : Bool), a.rf 0 = true ∧ a.wf 0 v = a) ∧
  (∀ (a : Act) (r q : BitVec 5) (v : Word), r ≠ 0 → (a.wg r v).rg q = if q = r then v else a.rg q) ∧
  (∀ (a : Act) (r q : BitVec 3) (v : Bool), r ≠ 0 → (a.wf r v).rf q = if q = r then v else a.rf q) ∧
  (∀ (a : Act) (r q : BitVec 4) (v : Cplx), (a.wp r v).rp q = if q = r then v else a.rp q)

/-- R152 to R154: a branch taken goes to its target and ends the loops whose bodies do not hold it; LOOP pushes a
counted body, or skips it; the end of a body takes its back edge, innermost first, each for one cycle. -/
def Obligations.BranchesAndLoops : Prop :=
  (∀ c (pr : PredRef) (off : BitVec 16), hscEncode (.br c pr off) =
    some (BitVec.ofNat 32 (0x18 * 2 ^ 26 + b2n pr.neg * 2 ^ 25 + pr.flag.toNat * 2 ^ 21 + off.toNat), none)) ∧
  (∀ s c (off : BitVec 16) a, Runs s c a 2 → ∀ target, target = ((a.pc + 4 : Int) + 4 * off.toInt).emod 4294967296 →
    exec (.br c ⟨false, 0⟩ off) s = .next (s.putCore c.side c.core.val
      { s.coreSt c.side c.core.val with cur := some (jumped (paid a 2 1) target.toNat) })) ∧
  (∀ s c (pr : PredRef) (off : BitVec 16) a, Runs s c a 2 →
    (a.rf pr.flag = pr.neg → exec (.br c pr off) s = .next (ends s c (paid a 2 1))) ∧
    (a.rf pr.flag ≠ pr.neg → ∀ target, target = ((a.pc + 4 : Int) + 4 * off.toInt).emod 4294967296 →
      exec (.br c pr off) s = .next (s.putCore c.side c.core.val
        { s.coreSt c.side c.core.val with cur := some (jumped (paid a 2 1) target.toNat) }))) ∧
  (∀ s c (r : BitVec 5) (body : BitVec 16) (ext : Word) a, Runs s c a 2 → body ≠ 0 → (r = 0 → ext.toNat < 65536) →
    ∀ words n, words = (if r = 0 then 2 else 1) → n = (if r = 0 then ext.toNat else (a.rg r).toNat) →
    (n = 0 → exec (.loop c r body ext) s = .next (ends s c
      { paid a 2 words with pc := a.pc + 4 * words + 4 * body.toNat })) ∧
    (n ≠ 0 → exec (.loop c r body ext) s = .next (ends s c
      { paid a 2 words with
          flg := a.flg ||| clampFlag n 65535
          loops := ⟨a.pc + 4 * words, a.pc + 4 * words + 4 * body.toNat, if 65535 < n then 65535 else n⟩ :: a.loops }))) ∧
  (∀ a : Act, a.status = .running →
    ((∀ l, a.loops.head? = some l → a.pc ≠ l.stop) → a.settle = a) ∧
    (∀ l rest, a.loops = l :: rest → a.pc = l.stop → a.bud = 0 → a.settle = a.abort .budget) ∧
    (∀ l rest, a.loops = l :: rest → a.pc = l.stop → 0 < a.bud → 1 < l.left →
      a.settle = { a with bud := a.bud - 1, pc := l.start, loops := { l with left := l.left - 1 } :: rest }) ∧
    (∀ l rest, a.loops = l :: rest → a.pc = l.stop → 0 < a.bud → l.left ≤ 1 →
      a.settle = ({ a with bud := a.bud - 1, loops := rest } : Act).settle))

/-- R143, R144, R155: the loads, every width. -/
def Obligations.Loads : Prop :=
  LoadOp 0 4 4 4 (fun _ => True) (fun a d seg k x => x.wg d (BitVec.ofNat 32 (word a seg k))) ∧
  LoadOp 1 1 1 1 (fun _ => True) (fun a d seg k x => x.wg d (BitVec.ofNat 32 (byteAt a seg k))) ∧
  LoadOp 2 1 1 1 (fun _ => True) (fun a d seg k x =>
    x.wg d (BitVec.ofInt 32 (if byteAt a seg k < 128 then byteAt a seg k else (byteAt a seg k : Int) - 256))) ∧
  LoadOp 3 2 2 2 (fun _ => True) (fun a d seg k x => x.wg d (BitVec.ofNat 32 (half a seg k))) ∧
  LoadOp 4 2 2 2 (fun _ => True) (fun a d seg k x =>
    x.wg d (BitVec.ofInt 32 (if half a seg k < 32768 then half a seg k else (half a seg k : Int) - 65536))) ∧
  LoadOp 5 4 8 4 (fun d => d.toNat ≤ 30) (fun a d seg k x =>
    (x.wg d (BitVec.ofNat 32 (word a seg k))).wg (d + 1) (BitVec.ofNat 32 (word a seg (k + 4)))) ∧
  LoadOp 6 4 8 4 (fun d => d.toNat < 16) (fun a d seg k x =>
    x.wp (d.truncate 4) ⟨BitVec.ofNat 32 (word a seg k), BitVec.ofNat 32 (word a seg (k + 4))⟩)

/-- R143, R144, R155: the stores, every width: the bytes written, the address computed, every other byte unchanged. -/
def Obligations.Stores : Prop :=
  StoreOp 0 4 4 (fun _ => True) (fun a d => bytes4 (a.rg d)) ∧
  StoreOp 1 1 1 (fun _ => True) (fun a d => [(a.rg d).toNat % 256]) ∧
  StoreOp 3 2 2 (fun _ => True) (fun a d => [(a.rg d).toNat / 256 % 256, (a.rg d).toNat % 256]) ∧
  StoreOp 5 4 4 (fun d => d.toNat ≤ 30) (fun a d => bytes4 (a.rg d) ++ bytes4 (a.rg (d + 1))) ∧
  StoreOp 6 4 4 (fun d => d.toNat < 16) (fun a d => bytes4 (a.rp (d.truncate 4)).re ++ bytes4 (a.rp (d.truncate 4)).im)

/-- R144: an access outside its segment, misaligned, or a store to IN aborts the activation with ACCESS; so does one that
a corrupt slice table resolves outside the stall's pitches, which is recorded as a memory fault. -/
def Obligations.RefusedAccesses : Prop :=
  ∀ s c (width : BitVec 3) (d base : BitVec 5) (seg : SegCode) (off : BitVec 11) a scale bytes align,
    (width = 0 ∧ scale = 4 ∧ bytes = 4 ∧ align = 4) ∨ (width = 1 ∧ scale = 1 ∧ bytes = 1 ∧ align = 1) ∨
      (width = 3 ∧ scale = 2 ∧ bytes = 2 ∧ align = 2) ∨ (width = 5 ∧ d.toNat ≤ 30 ∧ scale = 4 ∧ bytes = 8 ∧ align = 4) ∨
      (width = 6 ∧ d.toNat < 16 ∧ scale = 4 ∧ bytes = 8 ∧ align = 4) →
    (Runs s c a 2 → ¬ InSegment a seg (address a base off scale) bytes align false →
      exec (.ld c width d base seg off) s = .next (s.abortAct c.side c.core.val ((paid a 2 1).abort .access) .access)) ∧
    (Runs s c a 1 → ¬ InSegment a seg (address a base off scale) bytes align true →
      exec (.st c width d base seg off) s = .next (s.abortAct c.side c.core.val ((paid a 1 1).abort .access) .access)) ∧
    (Runs s c a 2 → InSegment a seg (address a base off scale) bytes align false →
      ¬ InPitches a seg (address a base off scale) bytes → exec (.ld c width d base seg off) s =
        .next (s.abortAct c.side c.core.val ({ paid a 2 1 with memFault := true }.abort .access) .access)) ∧
    (Runs s c a 1 → InSegment a seg (address a base off scale) bytes align true →
      ¬ InPitches a seg (address a base off scale) bytes → exec (.st c width d base seg off) s =
        .next (s.abortAct c.side c.core.val ({ paid a 1 1 with memFault := true }.abort .access) .access))

/-- R156, R157: VSUM and VMAX of a vector inside its segment that BUD pays for.
The order of the check and the charge of an element is log entry 19. -/
def Obligations.VectorResults : Prop :=
  (
    (∀ s c (seg : SegCode) (d x y : BitVec 5) a n, n = count (a.rg y) → Runs s c a (8 + n) →
      Elements a seg (a.rg x).toNat n 4 false →
      exec (.vsum c seg 0 d x y) s = .next (ends s c
        (({ paid a (8 + n) 1 with flg := a.flg ||| clampFlag (a.rg y).toNat 4096 }).wg d
          ((elements a seg (a.rg x).toNat n).foldl (· + ·) 0))) ∧
      exec (.vsum c seg 1 d x y) s = .next (ends s c
        (({ paid a (8 + n) 1 with flg := a.flg ||| clampFlag (a.rg y).toNat 4096 |||
              (runningSum fAdd (elements a seg (a.rg x).toNat n)).2 }).wg d
          (runningSum fAdd (elements a seg (a.rg x).toNat n)).1)) ∧
      exec (.vsum c seg 2 d x y) s = .next (ends s c
        (({ paid a (8 + n) 1 with flg := a.flg ||| clampFlag (a.rg y).toNat 4096 |||
              (runningSum (fun r e => fFma e e r) (elements a seg (a.rg x).toNat n)).2 }).wg d
          (runningSum (fun r e => fFma e e r) (elements a seg (a.rg x).toNat n)).1))) ∧
    (∀ s c (seg : SegCode) (d x y : BitVec 5) a n, n = count (a.rg y) → Runs s c a (8 + 2 * n) → d.toNat < 16 →
      Elements a seg (a.rg x).toNat n 8 false → ∃ flags : Word,
      exec (.vsum c seg 3 d x y) s = .next (ends s c
        (({ paid a (8 + 2 * n) 1 with flg := flags }).wp (d.truncate 4)
          ⟨(runningSum fAdd ((List.range n).map fun i => element a seg (a.rg x).toNat (2 * i))).1,
            (runningSum fAdd ((List.range n).map fun i => element a seg (a.rg x).toNat (2 * i + 1))).1⟩))) ∧
    (∀ s c (seg : SegCode) (ty : BitVec 3) (d x y : BitVec 5) a n,
      (ty = 0 ∨ ty = 4 ∨ ty = 1 ∨ ty = 5) → d.toNat ≤ 30 → n = count (a.rg y) → Runs s c a (8 + n) →
      Elements a seg (a.rg x).toNat n 4 false →
      (∀ i < n, compared ty.toNat (element a seg (a.rg x).toNat i) →
        (∀ j < n, compared ty.toNat (element a seg (a.rg x).toNat j) →
          rank ty.toNat (element a seg (a.rg x).toNat j) ≤ rank ty.toNat (element a seg (a.rg x).toNat i) ∧
          (j < i → rank ty.toNat (element a seg (a.rg x).toNat j) < rank ty.toNat (element a seg (a.rg x).toNat i))) →
        exec (.vmax c seg ty d x y) s = .next (ends s c
          ((({ paid a (8 + n) 1 with flg := a.flg ||| clampFlag (a.rg y).toNat 4096 }).wg d
            (element a seg (a.rg x).toNat i)).wg (d + 1) (BitVec.ofNat 32 i)))) ∧
      ((∀ i < n, ¬ compared ty.toNat (element a seg (a.rg x).toNat i)) →
        exec (.vmax c seg ty d x y) s = .next (ends s c
          ((({ paid a (8 + n) 1 with flg := a.flg ||| clampFlag (a.rg y).toNat 4096 }).wg d
            (if ty = 0 then 0x80000000 else if ty = 4 then 0 else 0xFF800000)).wg (d + 1) 0xFFFFFFFF))))) ∧
  -- a vector that BUD cannot pay for to its end aborts with BUDGET, BUD at 0 (R124, R158)
  ∀ s c (seg : SegCode) (d x y : BitVec 5) a n, n = count (a.rg y) → Runs s c a 8 → a.bud < 8 + n →
    Elements a seg (a.rg x).toNat n 4 false →
    ∃ z : Act, z.bud = 0 ∧ z.out = a.out ∧ z.ret = a.ret ∧ z.g = a.g ∧ z.stall = a.stall ∧ z.task = a.task ∧ z.budget = a.budget ∧
      exec (.vsum c seg 0 d x y) s = .next (s.abortAct c.side c.core.val z .budget) ∧
      exec (.vmax c seg 0 (d &&& 15) x y) s = .next (s.abortAct c.side c.core.val z .budget)

/-- R156, R157: VCOPY word by word in ascending order: a copy to a higher address of the same segment that overlaps its
source repeats the leading words; every other copy takes the words as they stood; no other byte changes. -/
def Obligations.VectorCopy : Prop :=
  ∀ s c (src dst : SegCode) (d x y : BitVec 5) a n, n = count (a.rg y) → Runs s c a (8 + n) → Canonical a →
    Elements a src (a.rg x).toNat n 4 false → Elements a dst (a.rg d).toNat n 4 true →
    ∃ m : Mem, memWf m = true ∧
      exec (.vcopy c src dst d x y) s = .next (ends s c
        (({ paid a (8 + n) 1 with flg := a.flg ||| clampFlag (a.rg y).toNat 4096 } : Act).withSeg dst m)) ∧
      (∀ i < n, ∀ k < 4, memRead m ((a.rg d).toNat + 4 * i + k) =
        memRead (a.segMem src) ((a.rg x).toNat + 4 * (if src = dst ∧ (a.rg x).toNat < (a.rg d).toNat
          then i % (((a.rg d).toNat - (a.rg x).toNat) / 4) else i) + k)) ∧
      (∀ k, (k < (a.rg d).toNat ∨ (a.rg d).toNat + 4 * n ≤ k) → memRead m k = memRead (a.segMem dst) k)

/-- R159 to R161: TRIG and LOG hold a request, at most 4 and 8, beyond which it is dropped with QFULL. -/
def Obligations.TriggerAndLog : Prop :=
  (∀ s c (x : BitVec 5) (line : BitVec 4) a, Runs s c a 4 →
    exec (.trig c x line) s = .next (ends s c
      (if trigCount a.held < 4 then { paid a 4 1 with held := a.held ++ [.trig line.toNat (a.rg x)] }
       else { paid a 4 1 with flg := a.flg ||| 64 }))) ∧
  (∀ s c (seg : SegCode) (msg : BitVec 9) (x y : BitVec 5) a len,
    len = (if 256 < (a.rg y).toNat then 256 else (a.rg y).toNat) → Runs s c a (8 + (len + 15) / 16) →
    ((a.rg x).toNat + len ≤ a.segSize seg → InPitches a seg (a.rg x).toNat len →
      exec (.log c seg msg x y) s = .next (ends s c
        (if logCount a.held < 8 then
          { paid a (8 + (len + 15) / 16) 1 with
              flg := a.flg ||| clampFlag (a.rg y).toNat 256
              held := a.held ++ [.log msg.toNat ((List.range len).map fun k => memRead (a.segMem seg) ((a.rg x).toNat + k))] }
         else { paid a (8 + (len + 15) / 16) 1 with flg := a.flg ||| clampFlag (a.rg y).toNat 256 ||| 64 }))) ∧
    ((a.segSize seg < (a.rg x).toNat + len ∨ ¬ InPitches a seg (a.rg x).toNat len) → ∃ z : Act, z.bud = a.bud - (8 + (len + 15) / 16) ∧ z.stall = a.stall ∧ z.task = a.task ∧
      exec (.log c seg msg x y) s = .next (s.abortAct c.side c.core.val z .access)))

/-- R163 to R167, R501: the blocks of one slot: their outputs and the state bytes they write; a slot beyond RET aborts
with ACCESS.
That ET wraps in TON at PT 0xFFFFFFFF is log entry 208. -/
def Obligations.BlockLibrary : Prop :=
  BlockOp .ton 6
    (fun b a => let r := tonOf (decide (a.rg 1 ≠ 0)) (a.rg 2).toNat (natAt b 0) (boolAt b 4); stateBytes r.1 (decide (a.rg 1 ≠ 0)) false)
    (fun b a => let r := tonOf (decide (a.rg 1 ≠ 0)) (a.rg 2).toNat (natAt b 0) (boolAt b 4); [(1, asWord r.2), (2, BitVec.ofNat 32 r.1)]) ∧
  BlockOp .tof 6
    (fun b a => let r := tofOf (decide (a.rg 1 ≠ 0)) (a.rg 2).toNat (natAt b 0) (boolAt b 4) (boolAt b 5)
                stateBytes r.1 (decide (a.rg 1 ≠ 0)) r.2.1)
    (fun b a => let r := tofOf (decide (a.rg 1 ≠ 0)) (a.rg 2).toNat (natAt b 0) (boolAt b 4) (boolAt b 5)
                [(1, asWord r.2.2), (2, BitVec.ofNat 32 r.1)]) ∧
  BlockOp .tp 6
    (fun b a => let r := tpOf (decide (a.rg 1 ≠ 0)) (a.rg 2).toNat (natAt b 0) (boolAt b 4) (boolAt b 5)
                stateBytes r.1 (decide (a.rg 1 ≠ 0)) r.2)
    (fun b a => let r := tpOf (decide (a.rg 1 ≠ 0)) (a.rg 2).toNat (natAt b 0) (boolAt b 4) (boolAt b 5)
                [(1, asWord r.2), (2, BitVec.ofNat 32 r.1)]) ∧
  (∀ cv : Bytes → Act → Int, cv = (fun b a => if a.rg 2 ≠ 0 then 0
      else if a.rg 1 ≠ 0 ∧ boolAt b 4 = false then (if cvAt b < 2147483647 then cvAt b + 1 else 2147483647) else cvAt b) →
    BlockOp .ctu 5 (fun b a => stateBytes (cv b a % 4294967296).toNat (decide (a.rg 1 ≠ 0)) false)
      (fun b a => [(1, asWord (decide ((a.rg 3).toInt ≤ cv b a))), (2, BitVec.ofInt 32 (cv b a))])) ∧
  (∀ cv : Bytes → Act → Int, cv = (fun b a => if a.rg 2 ≠ 0 then (a.rg 3).toInt
      else if a.rg 1 ≠ 0 ∧ boolAt b 4 = false then (if -2147483648 < cvAt b then cvAt b - 1 else -2147483648) else cvAt b) →
    BlockOp .ctd 5 (fun b a => stateBytes (cv b a % 4294967296).toNat (decide (a.rg 1 ≠ 0)) false)
      (fun b a => [(1, asWord (decide (cv b a ≤ 0))), (2, BitVec.ofInt 32 (cv b a))])) ∧
  (∀ cv : Bytes → Act → Int, cv = (fun b a => if a.rg 3 ≠ 0 then 0 else if a.rg 4 ≠ 0 then (a.rg 5).toInt
      else if (a.rg 1 ≠ 0 ∧ boolAt b 4 = false) ∧ ¬ (a.rg 2 ≠ 0 ∧ boolAt b 5 = false) then
        (if cvAt b < 2147483647 then cvAt b + 1 else 2147483647)
      else if (a.rg 2 ≠ 0 ∧ boolAt b 5 = false) ∧ ¬ (a.rg 1 ≠ 0 ∧ boolAt b 4 = false) then
        (if -2147483648 < cvAt b then cvAt b - 1 else -2147483648) else cvAt b) →
    BlockOp .ctud 7 (fun b a => stateBytes (cv b a % 4294967296).toNat (decide (a.rg 1 ≠ 0)) (decide (a.rg 2 ≠ 0)))
      (fun b a => [(1, asWord (decide ((a.rg 5).toInt ≤ cv b a))), (2, asWord (decide (cv b a ≤ 0))), (3, BitVec.ofInt 32 (cv b a))])) ∧
  BlockOp .rTrig 4 (fun _ a => stateBytes 0 (decide (a.rg 1 ≠ 0)) false)
    (fun b a => [(1, asWord (decide (a.rg 1 ≠ 0) && !boolAt b 4))]) ∧
  BlockOp .fTrig 4 (fun _ a => stateBytes 0 (decide (a.rg 1 ≠ 0)) false)
    (fun b a => [(1, asWord (boolAt b 4 && !decide (a.rg 1 ≠ 0)))]) ∧
  (∀ q : Bytes → Act → Bool, q = (fun b a =>
      if ¬ 0x7F800000 < (a.rg 1).toNat % 2147483648 ∧ ¬ 0x7F800000 < (a.rg 2).toNat % 2147483648 ∧ place (a.rg 2) < place (a.rg 1) then true
      else if ¬ 0x7F800000 < (a.rg 1).toNat % 2147483648 ∧ ¬ 0x7F800000 < (a.rg 3).toNat % 2147483648 ∧ place (a.rg 1) < place (a.rg 3) then false
      else boolAt b 4) →
    BlockOp .hyst 5 (fun b a => stateBytes 0 (q b a) false) (fun b a => [(1, asWord (q b a))])) ∧
  (∀ s c (inst : BitVec 16) a, a.retSize < 16 * inst.toNat + 16 →
    (Runs s c a 6 →
      exec (.ton c inst) s = .next (s.abortAct c.side c.core.val ((paid a 6 1).abort .access) .access) ∧
      exec (.tof c inst) s = .next (s.abortAct c.side c.core.val ((paid a 6 1).abort .access) .access) ∧
      exec (.tp c inst) s = .next (s.abortAct c.side c.core.val ((paid a 6 1).abort .access) .access)))

/-- R168: SEQ, IMP and ROC.
FILL and HEAD out of range: log entry 209. -/
def Obligations.MeasurementBlocks : Prop :=
  (∀ s c a, Runs s c a 18 →
    ∀ al al2 : Cplx, al = ⟨0xBF000000, 0x3F5DB3D7⟩ → al2 = ⟨0xBF000000, 0xBF5DB3D7⟩ →
    ∃ flags : Word, ∀ zero pos neg : Cplx,
      zero = (cScale (cAdd (cAdd (a.rp 1) (a.rp 2)).v (a.rp 3)).v 0x3EAAAAAB).v →
      pos = (cScale (cAdd (cAdd (a.rp 1) (cMul al (a.rp 2)).v).v (cMul al2 (a.rp 3)).v).v 0x3EAAAAAB).v →
      neg = (cScale (cAdd (cAdd (a.rp 1) (cMul al2 (a.rp 2)).v).v (cMul al (a.rp 3)).v).v 0x3EAAAAAB).v →
      exec (.seq c) s = .next (ends s c
        (((({ paid a 18 1 with flg := a.flg ||| flags }).wp 1 zero).wp 2 (if a.rg 1 = 0 then pos else neg)).wp 3
          (if a.rg 1 = 0 then neg else pos)))) ∧
  (∀ s c a, Runs s c a 30 →
    ∀ l : Cplx, l = (cAdd (a.rp 2) (cMul (a.rp 4) (a.rp 3)).v).v →
    ∀ d : Word, d = (fFma l.re l.re (fMul l.im l.im).1).1 →
    ∃ flags : Word,
      (fpLt fmt32 (a.rg 1).toNat d.toNat = true →
        exec (.imp c) s = .next (ends s c
          ((({ paid a 30 1 with flg := a.flg ||| flags }).wp 1
            (cScale (cMul (a.rp 1) (cConj l).v).v (fDiv 0x3F800000 d).1).v).wg 1 1))) ∧
      (fpLt fmt32 (a.rg 1).toNat d.toNat = false →
        exec (.imp c) s = .next (ends s c
          ((({ paid a 30 1 with flg := a.flg ||| flags }).wp 1 ⟨0, 0⟩).wg 1 0)))) ∧
  (∀ s c (inst : BitVec 16) a, Runs s c a 12 → Allowed a .ret (16 * inst.toNat) 272 4 true →
    ∀ b, b = memReadBytes a.ret (16 * inst.toNat) 272 →
    ∀ w, w = (if (a.rg 2).toNat < 1 then 1 else if 64 < (a.rg 2).toNat then 64 else (a.rg 2).toNat) →
    ∀ fill, fill = (if natAt b 260 = w then (if natAt b 256 ≤ 64 then natAt b 256 else 64) else 0) →
    ∀ head, head = natAt b 264 % 64 →
    ∃ (flags : Word) (ret : Mem),
      (w ≤ fill →
        exec (.roc c inst) s = .next (ends s c
          ({ ((paid a 12 1).wg 1 (fMul (fSub (a.rg 1) (BitVec.ofNat 32 (natAt b (4 * ((head + 64 - w) % 64))))).1
              (fDiv 0x45960000 (BitVec.ofNat 32 (fpOfInt fmt32 ((w * a.per : Nat) : Int)))).1).1).wg 2 1 with
                flg := a.flg ||| flags, ret := ret }))) ∧
      (fill < w →
        exec (.roc c inst) s = .next (ends s c
          ({ ((paid a 12 1).wg 1 0).wg 2 0 with flg := a.flg ||| flags, ret := ret }))) ∧
      (memWf a.ret = true → memWf ret = true ∧ memReadBytes ret (16 * inst.toNat + 4 * head) 4 = beBytes 4 (a.rg 1).toNat ∧
        memReadBytes ret (16 * inst.toNat + 256) 16
          = beBytes 4 (if fill + 1 ≤ 64 then fill + 1 else 64) ++ beBytes 4 w ++ beBytes 4 ((head + 1) % 64) ++ zeros 4 ∧
        ∀ k, (k < 16 * inst.toNat ∨ 16 * inst.toNat + 272 ≤ k) → memRead ret k = memRead a.ret k))

/-- R117, R118, R124, R140: a core that is free starts the next released activation of its queue: BUD is W_DECL − C_in − 16,
every register and FLG is 0, the input image is copied, OUT and RET are the last committed ones.
A core with nothing to start is left as it is (log entry 20). -/
def Obligations.ActivationStarts : Prop :=
  ∀ (s : State) (c : CoreRef),
    ((s.coreSt c.side c.core.val).cur ≠ none ∨ (s.coreSt c.side c.core.val).queue = [] → exec (.activationStart c) s = .next s) ∧
    ∀ stall task rest (t : Task), (s.coreSt c.side c.core.val).cur = none → (s.coreSt c.side c.core.val).failed = false →
      (s.coreSt c.side c.core.val).queue = (stall, task) :: rest → s.task stall task = some t →
      ∃ (u : State) (a : Act), exec (.activationStart c) s = .next u ∧ (u.coreSt c.side c.core.val).cur = some a ∧
        (u.coreSt c.side c.core.val).queue = rest ∧ u.regs = s.regs ∧ u.side c.side.other = s.side c.side.other ∧
        a.stall = stall ∧ a.task = t.task ∧ a.pc = t.entry ∧ a.bud = t.wDecl - t.cIn - 16 ∧ a.budget = a.bud ∧ a.flg = 0 ∧ a.loops = [] ∧
        a.held = [] ∧ (∀ r, a.rg r = 0) ∧ a.inp = memOf (s.inputImage c.side stall t) ∧
        a.out = (s.taskSt c.side stall t.task).out ∧ a.ret = (s.taskSt c.side stall t.task).ret ∧
        (u.taskSt c.side stall task).gather = [] ∧ (u.taskSt c.side stall task).fresh = false

/-- R123, R161, R162: HALT commits OUT and RET in one step, ends the activation, and releases the held requests in issue
order; no other task, core or side changes. -/
def Obligations.HaltCommits : Prop :=
  ∀ s c a, Runs s c a 1 → ∃ t, exec (.halt c) s = .next t ∧
    (t.taskSt c.side a.stall a.task).out = a.out ∧ (t.taskSt c.side a.stall a.task).ret = a.ret ∧
    (t.taskSt c.side a.stall a.task).held = false ∧
    (t.coreSt c.side c.core.val).cur = none ∧
    (t.coreSt c.side c.core.val).time = (s.coreSt c.side c.core.val).time + (a.cIn + (a.budget - (a.bud - 1)) + 16) ∧
    (∀ k ≠ taskKey a.stall a.task, Tbl.find (t.side c.side).tasks k = Tbl.find (s.side c.side).tasks k) ∧
    (∀ n ≠ c.core.val, t.coreSt c.side n = s.coreSt c.side n) ∧
    t.side c.side.other = s.side c.side.other ∧ t.out = s.out ∧
    (a.held = [] → t.ledgerPend = s.ledgerPend ∧ (t.side c.side).marks = (s.side c.side).marks) ∧
    (∀ msg payload, a.held = [.log msg payload] → Serves s c.side →
      t.ledgerPend = s.ledgerPend ++ [⟨1, a.stall, a.task, 0x0800 + msg, 0x80000000 + 16 * a.stall + a.task, recBody payload, false, false⟩]) ∧
    (∀ line arg, a.held = [.trig line arg] → ∃ mark, (t.side c.side).marks = (s.side c.side).marks ++ [mark] ∧
      mark.stall = a.stall ∧ mark.line = line)

/-- R123, R125, R128: an abort keeps the last committed OUT and RET, shows HELD, records its reason; BUDGET and ACCESS
count toward the stall's tally, once for the module; WINDOW and DISCARD do not. -/
def Obligations.AbortDiscards : Prop :=
  ∀ (s : State) (sd : SideId) (n : Nat) (a : Act) (r : AbortReason) (t : State),
    n < 80 → a.stall < 64 → a.task < 16 → t = s.abortAct sd n a r →
    (t.taskSt sd a.stall a.task).out = (s.taskSt sd a.stall a.task).out ∧
    (t.taskSt sd a.stall a.task).ret = (s.taskSt sd a.stall a.task).ret ∧
    (t.taskSt sd a.stall a.task).held = true ∧
    (t.coreSt sd n).cur = none ∧
    (t.coreSt sd n).time = (s.coreSt sd n).time + a.cIn + (a.budget - a.bud) ∧
    t.rd (Rg.taskState sd (taskKey a.stall a.task)) Fd.taskStateLastAbort = abortCode r ∧
    t.ledgerPend = s.ledgerPend ∧ (t.side sd).marks = (s.side sd).marks ∧ (a.memFault = false → t.out = s.out) ∧
    ((r = .budget ∨ r = .access) → Serves s sd → taskKey a.stall a.task ∉ s.aborted →
      Tbl.getD t.tally a.stall 0 = Tbl.getD s.tally a.stall 0 + 1) ∧
    (¬ ((r = .budget ∨ r = .access) ∧ Serves s sd ∧ taskKey a.stall a.task ∉ s.aborted) → t.tally = s.tally) ∧
    (∀ k ≠ a.stall, Tbl.find t.tally k = Tbl.find s.tally k)

/-- R124, R146 to R164: an instruction whose cost in the cycle tables exceeds BUD aborts with BUDGET before it has any
effect. -/
def Obligations.CycleTable : Prop :=
  ∀ (s : State) (c : CoreRef) (a : Act) (i : Instr) (k : Nat),
    (hscMeaning i).isSome = true → cycles a i = some (c, k) →
    (s.coreSt c.side c.core.val).cur = some a → a.status = .running → a.bud < k →
    exec i s = .next (s.abortAct c.side c.core.val (a.abort .budget) .budget)

/-- R138, R145, R155, R156: a word that is no defined instruction is the one stop of the model: a Hyrra command whose fields
make one is refused as such. Every other command completes: each Hyrra command that is a defined instruction, and every
command, event, register access and start of an activation, answers a next state in every state.
Log entries 17 and 18. -/
def Obligations.UndefinedWords : Prop :=
  (∀ s c (d b : BitVec 5) seg off, exec (.ld c 7 d b seg off) s = .fault .undefinedInstruction) ∧
  (∀ s c (width : BitVec 3) (d b : BitVec 5) seg off, (width = 2 ∨ width = 4 ∨ width = 7) →
    exec (.st c width d b seg off) s = .fault .undefinedInstruction) ∧
  (∀ s c (b : BitVec 5) seg off, exec (.ld c 5 31 b seg off) s = .fault .undefinedInstruction) ∧
  (∀ s c (seg : SegCode) (ty : BitVec 3) (d x y : BitVec 5), 3 < ty.toNat → exec (.vsum c seg ty d x y) s = .fault .undefinedInstruction) ∧
  (∀ s c (seg : SegCode) (d x y : BitVec 5), exec (.vmax c seg 2 d x y) s = .fault .undefinedInstruction) ∧
  (∀ s c (d sp : BitVec 5), 3 < sp.toNat → exec (.mfs c d sp) s = .fault .undefinedInstruction) ∧
  (∀ s c (d x : BitVec 5) (i : BitVec 11), 32 ≤ i.toNat → exec (.shli c d x i) s = .fault .undefinedInstruction) ∧
  (∀ s c (r : BitVec 5) ext, exec (.loop c r 0 ext) s = .fault .undefinedInstruction) ∧
  (∀ s c (body : BitVec 16) (ext : Word), 65536 ≤ ext.toNat → exec (.loop c 0 body ext) s = .fault .undefinedInstruction) ∧
  (∀ s i, ((hscMeaning i).isSome = true ∨ ∀ a, cycles a i = none) → ∃ t, exec i s = .next t) ∧
  (∀ s i, exec i s = .fault .undefinedInstruction ∨ ∃ t, exec i s = .next t)

/-- R139: a Hyrra command touches its own core, its task, and what a commit or an abort records; nothing else. Where a
corrupt slice table refuses an access, the side records a memory fault as well (R144).
A core without an activation: log entry 20. -/
def Obligations.HyrraFrame : Prop :=
  ∀ (s t : State) (i : Instr) (a : Act) (c : CoreRef) (k : Nat), cycles a i = some (c, k) → exec i s = .next t →
    t = { s with regs := t.regs, sideA := t.sideA, sideB := t.sideB, ledgerPend := t.ledgerPend, tally := t.tally, aborted := t.aborted
                 abortedSec := t.abortedSec, out := t.out, freeCount := t.freeCount } ∧
    t.side c.side.other = s.side c.side.other ∧
    ((∀ b, (s.coreSt c.side c.core.val).cur = some b → SoundRow b) → t.out = s.out ∧ t.freeCount = s.freeCount ∧
      t.side c.side = { s.side c.side with cores := (t.side c.side).cores, tasks := (t.side c.side).tasks, marks := (t.side c.side).marks }) ∧
    (∀ n ≠ c.core.val, t.coreSt c.side n = s.coreSt c.side n) ∧
    ((s.coreSt c.side c.core.val).cur = none → t = s)

/-- What holds of every activation and every committed image: memory in canonical form, BUD within the budget, the
reserved bits of FLG 0, at most 4 TRIG and 8 LOG requests held (R124, R141, R143, R161). -/
def Sys2Proof.Claims.ActOk (a : Act) : Prop :=
  Canonical a ∧ a.bud ≤ a.budget ∧ a.flg.toNat < 128 ∧ trigCount a.held ≤ 4 ∧ logCount a.held ≤ 8 ∧ a.status = .running

def Sys2Proof.Claims.ScanOk (s : State) : Prop :=
  (∀ sd n a, (s.coreSt sd n).cur = some a → ActOk a) ∧
  (∀ sd stall task, memWf (s.taskSt sd stall task).out = true ∧ memWf (s.taskSt sd stall task).ret = true)

/-- Every step of a Hyrra command, or of the start of an activation, keeps the scan's invariant. -/
def Obligations.ScanInvariant : Prop :=
  ∀ (s t : State) (i : Instr) (rest : List Instr),
    s.pending = i :: rest → ((hscEncode i).isSome = true ∨ ∃ c, i = .activationStart c) → ScanOk s → step s = .next t → ScanOk t

/-- R145: decoding the words of a well-formed Hyrra instruction gives that instruction back, every operand at every
value. A word without an extension decodes the same whatever word follows it. -/
def Obligations.HyrraRoundTrip : Prop :=
  ∀ (i : Instr) (w : Word) (x : Option Word) (m : HscInstr), hscEncode i = some (w, x) → hscMeaning i = some m →
    (x = none → ∀ e, hscDecode w e = some m) ∧ (∀ e, x = some e → hscDecode w x = some m)
/-! ## Commands -/

/-- R398 to R400, R403, R466: which commands execute at once, which are refused or wait.
A row is its command at its bell (log entry 7). -/
def Obligations.CommandAdmission : Prop :=
  ∀ (s : State) (c : CmdSpec) (h : CmdHdr) (p : Bytes),
    (Takes s c h p → s.submit c h p = settled s c h p (c.run h p s).s (c.run h p s).status (c.run h p s).body) ∧
    (∀ st, s.barred c h p = some st → ∃ t : State, s.submit c h p = t.turnAway h c.op st [] ∧
      t.modActive = s.modActive ∧ t.modShadow = s.modShadow ∧ t.principals = s.principals ∧ t.waiting = s.waiting ∧ t.forces = s.forces) ∧
    (s.barred c h p = none → (isOutside h && s.deepTest h.side) = true →
      s.submit c h p = s.turnAway h c.op .busyTest (zeros 8)) ∧
    (s.barred c h p = none → (isOutside h && s.deepTest h.side) = false → h.applyTick.toNat ≠ 0 → h.applyTick.toNat ≤ s.now →
      ∃ t : State, s.submit c h p = t.turnAway h c.op .late [] ∧ t.waiting = s.waiting ∧ t.modShadow = s.modShadow) ∧
    (s.barred c h p = none → (isOutside h && s.deepTest h.side) = false → s.now + 414720000 < h.applyTick.toNat →
      ∃ t : State, s.submit c h p = t.turnAway h c.op .range [] ∧ t.waiting = s.waiting ∧ t.modShadow = s.modShadow) ∧
    (s.barred c h p = none → (isOutside h && s.deepTest h.side) = false → s.now < h.applyTick.toNat →
      h.applyTick.toNat ≤ s.now + 414720000 → c.listed p = false → (c.run h p s).status = .ok → (s.waitingOn h.side).length < 256 →
      (s.submit c h p).waiting = s.waiting ++ [{
        hdr := h, op := c.op, params := p, tick := h.applyTick.toNat,
        answered := decide (h.applyTick.toNat ≠ s.now + 1), listed := false }])

/-- R398, R399: a principal whose role is below the least role of a command, or whose scope is another stall, is refused
with NO_RIGHT; an origin without a record with BAD_AUTH. -/
def Obligations.CommandRights : Prop :=
  ∀ (s : State) (c : CmdSpec) (h : CmdHdr) (p : Bytes), h.transport ≠ .internal → h.transport ≠ .bar0 →
    (Tbl.find s.principals h.origin.toNat = none → s.barred c h p = some .badAuth) ∧
    (∀ pr r least, Tbl.find s.principals h.origin.toNat = some pr → roleOf (u8 pr.record 4) = some r → c.role p = some least →
      (meets r least = false → s.barred c h p = some .noRight) ∧
      (u8 pr.record 5 ≠ 255 → u8 pr.record 5 ≠ h.stall.toNat → s.barred c h p = some .noRight) ∧
      (c.stall0 = true → h.stall.toNat ≠ 0 → s.barred c h p = some .noRight) ∧
      (h.stall.toNat ≠ 0 → c.owns s p h.stall.toNat = false → s.barred c h p = some .noRight) ∧
      (meets r least = true → (u8 pr.record 5 = 255 ∨ u8 pr.record 5 = h.stall.toNat) → (c.stall0 = true → h.stall.toNat = 0) →
        (h.stall.toNat ≠ 0 → c.owns s p h.stall.toNat = true) →
        s.barred c h p = if c.lenOk p then none else some .badLength)) ∧
    (∀ pr, Tbl.find s.principals h.origin.toNat = some pr → c.role p = none → s.barred c h p = some .noRight)

/-- R398: the least roles of the commands, and which roles meet them; a command without one comes only from the module, with
origin 0, and is refused with NO_RIGHT in a packet. -/
def Obligations.LeastRoles : Prop :=
  (∀ p, specSafeUnlock.role p = some .safetyEngineer ∧ specSafeCastle.role p = some .safetyEngineer ∧
    specStallCreate.role p = some .manager ∧ specOriginSet.role p = some .manager ∧ specKeyImport.role p = some .manager ∧
    specStallStart.role p = some .engineer ∧ specForceSet.role p = some .engineer ∧ specSwSetPort.role p = some .engineer ∧
    specAcqStart.role p = some .operator ∧ specSafeReset.role p = some .operator ∧ specEcho.role p = some .observer ∧
    specUpdBegin.role p = some .updater ∧ specSvAnchor.role p = none ∧ specTimeUtc.role p = none ∧ specLedgerNote.role p = none) ∧
  (∀ r, meets r .observer = true) ∧
  (∀ r, meets r .operator = true ↔ r ≠ .observer ∧ r ≠ .updater) ∧
  (∀ r, meets r .engineer = true ↔ r = .engineer ∨ r = .manager) ∧
  (∀ r, meets r .manager = true ↔ r = .manager) ∧
  (∀ r, meets r .safetyEngineer = true ↔ r = .safetyEngineer) ∧
  (∀ r, meets r .updater = true ↔ r = .updater) ∧
  (∀ (s : State) c (h : CmdHdr) p pr, h.transport ≠ .internal → h.transport ≠ .bar0 → Tbl.find s.principals h.origin.toNat = some pr →
    c.role p = none → s.barred c h p = some .noRight) ∧
  (∀ (s : State) op p tick, (s.ownWait op p tick).hdr.origin = 0 ∧ (s.ownWait op p tick).hdr.transport = .internal)

/-- R393, R395, R199: the reply to a command over UDP or the console is one packet through the side that received it, with
the fields of the reply column; a reply that does not fit is BAD_LENGTH without parameters. One over UDP takes the side's
next number, goes from the address and port that the request went to, to those it came from, and that of the active side
leaves on both LANs where the other side can forward. The reply to a mailbox command whose ring was reset is lost (R386). -/
def Obligations.ReplyPacket : Prop :=
  ∀ (s : State) (key : Bytes) (h : CmdHdr) (op : Nat) (st : Status) (apply : Nat) (body : Bytes),
    ∃ packet,
      (h.transport = .console → s.replyKey (some key) h op st apply body = { s with out := s.out ++ [.reply h.side .console packet none] }) ∧
      (∀ a, h.transport = .udp a → s.replyKey (some key) h op st apply body =
        (s.modSide h.side fun x => { x with sw := { x.sw with rct := ((s.side h.side).sw.rct + 1) % 65536 } }).emit
          (.reply h.side (.udp a) packet (some ⟨⟨(Config.stationMac h.side).toNat, (s.side h.side).sw.rct,
            (s.side h.side).role == .active && s.forwards h.side.other⟩,
            (match s.station h.side with | some r => u16 r 10 % 4096 | none => 0), ⟨a.dst, a.dstPort, a.src, a.srcPort⟩⟩))) ∧
      (∀ n, h.transport = .mailbox n → s.inFlight h.side h.ring.val n = false → s.replyKey (some key) h op st apply body = s) ∧
      packet.take 8 = [0x4B, 0x56, 1, 1] ++ beBytes 2 packet.length ++ beBytes 1 h.stall.toNat ++ beBytes 1 h.side.code ∧
      (packet.drop 8).take 8 = beBytes 4 h.origin.toNat ++ beBytes 4 h.seq.toNat ∧
      (packet.drop 16).take 12 = beBytes 2 op ++
        beBytes 2 (if 48 + body.length ≤ replyLimit h then st.code else Status.badLength.code) ++ beBytes 8 apply ∧
      (packet.drop 28).take (packet.length - 44) = zeros 4 ++ (if 48 + body.length ≤ replyLimit h then body else []) ∧
      packet.drop (packet.length - 16) = (hmacSha256 key (packet.take (packet.length - 16))).take 16

/-- R404, R406: what follows a command's effect changes nothing of the module but its records, outcomes, answers and the
registers that count them; the outcome of the sequence number is kept, at most 64 for a principal. -/
def Obligations.SettlingFrame : Prop :=
  ∀ (s t : State) (c : CmdSpec) (h : CmdHdr) (p : Bytes) (st : Status) (body : Bytes) (u : State),
    u = settled s c h p t st body →
    u = { t with regs := u.regs, sideA := u.sideA, sideB := u.sideB, ledgerPend := u.ledgerPend, outcomes := u.outcomes,
                 out := u.out, validations := u.validations, freeCount := u.freeCount } ∧
    (∀ sd, u.side sd = { t.side sd with rings := (u.side sd).rings, sideArea := (u.side sd).sideArea, sideQueue := (u.side sd).sideQueue,
                                        sideBuckets := (u.side sd).sideBuckets, msix := (u.side sd).msix,
                                        sideDrops := (u.side sd).sideDrops, crierSeq := (u.side sd).crierSeq, crierSent := (u.side sd).crierSent,
                                        sw := { (t.side sd).sw with rct := (u.side sd).sw.rct } }) ∧
    (∃ o, (Tbl.getD u.outcomes h.origin.toNat []).getLast? = some o ∧ o.seq = h.seq.toNat ∧ o.status = st ∧ o.tick = s.now) ∧
    (Tbl.getD u.outcomes h.origin.toNat []).length ≤ 64 ∧
    ((∀ e ∈ t.validations, e.2.broken = false) → u.validations = t.validations)

/-- R396, R406, R408, R412, R499: the session commands.
A row is its command at its bell (log entry 7). -/
def Obligations.SessionCommands : Prop :=
  (∀ id, id = (fun (s : State) sd => beBytes 4 (0x96100000 + Config.hwRev.toNat * 256) ++ beBytes 8 Config.serial.toNat
      ++ beBytes 4 (u24 (s.side sd).image 8 * 256) ++ beBytes 4 (65536 + u16 (s.side sd).image 12)) →
    Reads .identify specIdentify (fun s h _ => (s.side h.side.other).role ≠ .out)
      (fun s h _ => id s .A ++ id s .B ++ beBytes 1 (s.side h.side).role.code ++ zeros 3)) ∧
  Reads .echo specEcho (fun _ _ _ => True) (fun _ _ p => p) ∧
  (∀ o, Reads .cmdOutcome specCmdOutcome
      (fun s h p => (Tbl.getD s.outcomes h.origin.toNat []).find? (fun x => x.seq == u32 p 0) = some o)
      (fun _ _ _ => beBytes 4 o.seq ++ beBytes 2 o.status.code ++ zeros 2 ++ beBytes 8 (if o.status.good then o.tick else 0))) ∧
  Refuses .cmdOutcome specCmdOutcome
    (fun s h p => (Tbl.getD s.outcomes h.origin.toNat []).find? (fun x => x.seq == u32 p 0) = none) .range ∧
  (∀ (new : State → Bytes → Principal), new = (fun s p => match Tbl.find s.principals (u32 p 0) with
      | some old => if u8 old.record 6 = u8 p 6 then { old with record := p } else ⟨p, 0, 0, 0, 0⟩
      | none => ⟨p, 0, 0, 0, 0⟩) →
    Does .originSet specOriginSet
      (fun s _ p => s.principalRange p = true ∧ managed (Tbl.put s.principals (u32 p 0) (new s p)) = true ∧
        (Tbl.put s.principals (u32 p 0) (new s p)).length ≤ 256)
      (fun s _ p => { s with principals := Tbl.put s.principals (u32 p 0) (new s p) }) (fun _ _ _ => []) ∧
    Refuses .originSet specOriginSet
      (fun s _ p => s.principalRange p = true ∧ managed (Tbl.put s.principals (u32 p 0) (new s p)) = false) .conflict) ∧
  Does .originDelete specOriginDelete
    (fun s _ p => Tbl.has s.principals (u32 p 0) = true ∧ managed (Tbl.del s.principals (u32 p 0)) = true)
    (fun s _ p => { s with principals := Tbl.del s.principals (u32 p 0) }) (fun _ _ _ => []) ∧
  Refuses .originDelete specOriginDelete
    (fun s _ p => Tbl.has s.principals (u32 p 0) = true ∧ managed (Tbl.del s.principals (u32 p 0)) = false) .conflict ∧
  Reads .originRead specOriginRead (fun _ _ p => 1 ≤ u8 p 1 ∧ u8 p 1 ≤ 31)
    (fun s h p => listed h ((((Tbl.vals s.principals).map (·.record)).drop (u8 p 0)).take (u8 p 1))) ∧
  Reads .cmdStatus specCmdStatus (fun _ _ _ => True) (fun s _ _ => [SideId.A, .B].flatMap fun sd =>
    beBytes 4 (s.regWord (Rg.cmdCounts sd)) ++ beBytes 4 (s.regWord (Rg.cmdDrop sd)) ++ beBytes 4 (s.regWord (Rg.crierStats sd))
      ++ beBytes 4 (s.waiting.filter fun w => w.hdr.side == sd && w.tick != 0).length) ∧
  (∀ s h code seq body pr, h.transport = .internal → Tbl.find s.principals h.origin.toNat = some pr → crierCovers pr h.stall.toNat = true →
    exec (.crierNote h code seq body) s = .next (s.notifyOne h.side h.origin.toNat h.stall.toNat pr false
      (noteBody code.toNat (if seq = 0 then 255 else 0) (s.rd (Rg.resetCause h.side) Fd.resetCauseBootCount % 256) seq.toNat 0 0
        (body.take 256))))

/-- R414, R378, R379: register reads, writes and modifies by command.
A row is its command at its bell (log entry 7). -/
def Obligations.RegisterCommands : Prop :=
  Does .regRead specRegRead
    (fun s h p => 1 ≤ u8 p 5 ∧ u8 p 5 ≤ 126 ∧ s.readCheck h.side (u32 p 0) (u8 p 4) (u8 p 5) = none)
    (fun s h p =>
      if ∃ i < min (u8 p 5) ((replyLimit h - 56) / u8 p 4), ∃ a ∈ wordsOf (u32 p 0 + u8 p 4 * i) (u8 p 4), s.readChanges a = true then
        (s.readMany 0 (u32 p 0) (u8 p 4) (min (u8 p 5) ((replyLimit h - 56) / u8 p 4))).1.sideEvent h.side lcSideChange h.stall.toNat
          h.origin.toNat (changeBody 0x0100 0 h.seq.toNat p)
      else (s.readMany 0 (u32 p 0) (u8 p 4) (min (u8 p 5) ((replyLimit h - 56) / u8 p 4))).1)
    (fun s h p => beBytes 4 (u32 p 0) ++ beBytes 1 (u8 p 4) ++ beBytes 1 (min (u8 p 5) ((replyLimit h - 56) / u8 p 4)) ++ zeros 2 ++
      (s.readMany 0 (u32 p 0) (u8 p 4) (min (u8 p 5) ((replyLimit h - 56) / u8 p 4))).2.flatMap fun v => beBytes (u8 p 4) v) ∧
  Does .regWrite specRegWrite
    (fun s h p => 1 ≤ u8 p 5 ∧ u8 p 5 ≤ 126 ∧
      s.writeCheck h.side (h.transport != .bar0) (u32 p 0) (u8 p 4) (u8 p 5) = none)
    (fun s h p => (List.range (u8 p 5)).foldl
      (fun t i => t.writeAccess (u32 p 0 + u8 p 4 * i) (u8 p 4) (beNat (sub p (8 + u8 p 4 * i) (u8 p 4))) h.origin.toNat) s)
    (fun _ _ _ => []) ∧
  (∀ (sel : Access → Bool), (∀ a, sel a = true ↔ a = .rw) →
    Does .regModify specRegModify
      (fun s h p => shapeCheck (u32 p 0) 4 1 = none ∧ ∃ q, placeOf (u32 p 0) = some q ∧ s.reachCheck h.side q = none ∧
        arbiterBlock (u32 p 0) = false ∧ hasAccess q.desc isWritable = true ∧
        u32 p 4 &&& (q.desc.mask sel / 2 ^ (32 * q.word) % 2 ^ 32) = u32 p 4)
      (fun s h p => s.writeWord (u32 p 0) (u32 p 8 &&& u32 p 4) (u32 p 4) h.origin.toNat) (fun _ _ _ => [])) ∧
  (∀ s h p st, Takes s specRegRead h p → 1 ≤ u8 p 5 → u8 p 5 ≤ 126 → s.readCheck h.side (u32 p 0) (u8 p 4) (u8 p 5) = some st →
    exec (.regRead h p) s = .next (settled s specRegRead h p s st [])) ∧
  (∀ s h p st, Takes s specRegWrite h p → 1 ≤ u8 p 5 → u8 p 5 ≤ 126 →
    s.writeCheck h.side (h.transport != .bar0) (u32 p 0) (u8 p 4) (u8 p 5) = some st →
    exec (.regWrite h p) s = .next (settled s specRegWrite h p s st []))

/-- R416 to R426: the configuration commands.
A row is its command at its bell (log entry 7). -/
def Obligations.ConfigCommands : Prop :=
  (∀ item, item = (fun (s : State) st => beBytes 1 st ++ beBytes 1 (b2n (s.stallShadowScope st).valid) ++ zeros 2 ++
      (if (s.stallShadowScope st).valid then fit 32 (s.stallShadowScope st).digest else zeros 32)) →
    Reads .cfgStatus specCfgStatus (fun _ _ _ => True) (fun s h _ =>
      beBytes 4 s.cfgStateWord ++ zeros 4 ++ beBytes 8 s.cfgStallValidWord ++ beBytes 8 s.cfgDigestWord ++ beBytes 8 (s.regWord Rg.cfgFail)
        ++ beBytes 1 (fitItems h 36 ((List.range 63).map (item s))).length
        ++ beBytes 1 (if (fitItems h 36 ((List.range 63).map (item s))).length = 63 then 255 else (fitItems h 36 ((List.range 63).map (item s))).length)
        ++ zeros 2 ++ (fitItems h 36 ((List.range 63).map (item s))).flatten)) ∧
  Does .cfgCopy specCfgCopy (fun _ _ p => scopeArgs p 0 = true)
    (fun s _ p => s.loadShadow (u8 p 1) (s.stallScope (u8 p 1)).recs) (fun _ _ _ => []) ∧
  Refuses .cfgCopy specCfgCopy (fun _ _ p => scopeArgs p 0 = false) .range ∧
  Accepts .cfgValidate specCfgValidate (fun _ _ p => scopeArgs p 0 = true)
    (fun s h p => { s.endValidation (u8 p 1) with
      validations := Tbl.put (s.endValidation (u8 p 1)).validations (u8 p 1) ⟨h, s.now, false⟩ }) ∧
  Does .castle specCastle
    (fun s h p => scopeArgs p 0 = true ∧ u8 p 2 ≤ 1 ∧ u8 p 3 = 0 ∧ s.castleCheck h (u8 p 1) (bit (u8 p 2) 0) (sub p 4 32) = none)
    (fun s h p => s.castleScope (u8 p 1) h.origin.toNat) (fun _ _ _ => []) ∧
  (∀ st, Refuses .castle specCastle
    (fun s h p => scopeArgs p 0 = true ∧ u8 p 2 ≤ 1 ∧ u8 p 3 = 0 ∧ s.castleCheck h (u8 p 1) (bit (u8 p 2) 0) (sub p 4 32) = some st) st) ∧
  (∀ (img : State → Bytes → Bytes), img = (fun s p =>
      (if u8 p 0 = 0 then s.stallScope (u8 p 2) else s.stallShadowScope (u8 p 2)).image s.cfgFmt (u8 p 2)) →
    Reads .cfgRead specCfgRead
      (fun s _ p => u8 p 0 ≤ 1 ∧ scopeArgs p 1 = true ∧ u8 p 3 = 0 ∧ 1 ≤ u16 p 8 ∧ u16 p 8 ≤ 1000 ∧
        u32 p 4 + u16 p 8 ≤ (img s p).length)
      (fun s _ p => sub (img s p) (u32 p 4) (u16 p 8))) ∧
  Accepts .cfgLoadRing specCfgLoadRing
    (fun s h p => (∀ l ∈ s.ringLoads, l.hdr = h → l.held = false) ∧ s.fromHostOf0 h.side (u8 p 0) = true ∧ u24 p 1 = 0 ∧ 64 ≤ u32 p 4 ∧ u32 p 4 ≤ 7340032)
    (fun s h p => { s with ringLoads := s.ringLoads ++ [⟨h, false, u8 p 0, 0, u32 p 4, []⟩] }) ∧
  (∀ (before : State → Bytes → Bytes), before = (fun s p =>
      if u32 p 4 = 0 then [] else Tbl.getD (s.stallShadowScope (u8 p 1)).loading (u8 p 2) []) →
    Does .cfgLoadBlock specCfgLoadBlock
      (fun s _ p => scopeArgs p 0 = true ∧ (scopeTypes (u8 p 1)).contains (u8 p 2) = true ∧ u8 p 3 = 0 ∧ u32 p 8 ≤ 7340032 ∧
        (before s p).length = u32 p 4 ∧ (before s p ++ p.drop 12).length < u32 p 8)
      (fun s _ p => s.modifyStallShadow (u8 p 1) fun c =>
        { (if u32 p 4 = 0 then c.clearBlock (u8 p 2) else c) with
          loading := Tbl.put (if u32 p 4 = 0 then c.clearBlock (u8 p 2) else c).loading (u8 p 2) (before s p ++ p.drop 12),
          valid := false, digest := [] })
      (fun _ _ _ => []))

/-- R174 to R193: the stall commands.
A row is its command at its bell (log entry 7). -/
def Obligations.StallCommands : Prop :=
  Does .stallStart specStallStart
    (fun s _ p => u8 p 0 ≤ 63 ∧ s.leaseHeld lkTimeStep = false ∧ s.stallState (u8 p 0) = stLoaded)
    (fun s _ p => ((s.initTasks (u8 p 0)).setStallState (u8 p 0) stRunning).freshSerials (u8 p 0)) (fun _ _ _ => []) ∧
  Reads .stallStart specStallStart
    (fun s _ p => u8 p 0 ≤ 63 ∧ s.leaseHeld lkTimeStep = false ∧ s.stallState (u8 p 0) = stRunning) (fun _ _ _ => []) ∧
  Refuses .stallStart specStallStart (fun s _ p => u8 p 0 ≤ 63 ∧ s.leaseHeld lkTimeStep = true) .conflict ∧
  Does .stallStop specStallStop
    (fun s _ p => u8 p 0 ≤ 62 ∧ (s.stallState (u8 p 0) = stRunning ∨ s.stallState (u8 p 0) = stFaulted ∨
      (s.stallState (u8 p 0) = stResetting ∧ u8 p 0 ∈ s.noticeReset)))
    (fun s _ p => (s.dropActs (u8 p 0)).setStallState (u8 p 0) stLoaded) (fun _ _ _ => []) ∧
  Reads .stallStop specStallStop (fun s _ p => u8 p 0 ≤ 62 ∧ s.stallState (u8 p 0) = stLoaded) (fun _ _ _ => []) ∧
  Refuses .stallStop specStallStop
    (fun s _ p => u8 p 0 ≤ 62 ∧ s.stallState (u8 p 0) = stResetting ∧ u8 p 0 ∉ s.noticeReset) .state ∧
  Refuses .stallStop specStallStop (fun _ _ p => u8 p 0 = 63) .safetyLocked ∧
  Does .stallReset specStallReset (fun s _ p => u8 p 0 ≤ 63 ∧ s.stallState (u8 p 0) = stRunning)
    (fun s _ p => (({ (s.initTasks (u8 p 0)) with tally := Tbl.del (s.initTasks (u8 p 0)).tally (u8 p 0) } : State).dropActs
      (u8 p 0)).setStallState (u8 p 0) stResetting) (fun _ _ _ => []) ∧
  Does .stallReset specStallReset (fun s _ p => u8 p 0 ≤ 63 ∧ s.stallState (u8 p 0) = stFaulted)
    (fun s _ p => (s.resetStall (u8 p 0)).wr (Rg.stallState (u8 p 0)) Fd.stallStateAutoResets 0) (fun _ _ _ => []) ∧
  Refuses .stallReset specStallReset
    (fun s _ p => u8 p 0 ≤ 63 ∧ s.stallState (u8 p 0) ≠ stRunning ∧ s.stallState (u8 p 0) ≠ stFaulted) .state ∧
  (∀ (scope : Bytes → Scope), scope = (fun p => { Scope.empty with recs := Tbl.put Scope.empty.recs (0x20 * 4294967296 + 0) p, valid := false, digest := [] }) →
    Does .stallCreate specStallCreate
      (fun s _ p => 1 ≤ u8 p 0 ∧ u8 p 0 ≤ 62 ∧ grantRange p = true ∧ s.stallState (u8 p 0) = stEmpty ∧
        s.grantConflict (u8 p 0) p = false ∧ s.poolsCheck (u8 p 0) p = none)
      (fun s _ p => ((({ s with
          stallActive := Tbl.put s.stallActive (u8 p 0) (scope p), stallShadow := Tbl.put s.stallShadow (u8 p 0) (scope p)
          regions := Tbl.del s.regions (u8 p 0) } : State).resizeRegion (u8 p 0) 0).putReg (Rg.stallState (u8 p 0)) 0).setStallState (u8 p 0) stCreated)
      (fun _ _ _ => [])) ∧
  Refuses .stallCreate specStallCreate
    (fun s _ p => 1 ≤ u8 p 0 ∧ u8 p 0 ≤ 62 ∧ grantRange p = true ∧ s.stallState (u8 p 0) ≠ stEmpty) .state ∧
  Does .stallDelete specStallDelete
    (fun s _ p => 1 ≤ u8 p 0 ∧ u8 p 0 ≤ 62 ∧ (s.stallState (u8 p 0) = stCreated ∨ s.stallState (u8 p 0) = stLoaded ∨ s.stallState (u8 p 0) = stFaulted))
    (fun s h p => s.deleteStall (u8 p 0) h.origin.toNat) (fun _ _ _ => []) ∧
  Refuses .stallDelete specStallDelete (fun s _ p => 1 ≤ u8 p 0 ∧ u8 p 0 ≤ 62 ∧ s.stallState (u8 p 0) = stRunning) .state ∧
  Does .stallResize specStallResize
    (fun s _ p => 1 ≤ u8 p 0 ∧ u8 p 0 ≤ 62 ∧ grantRange p = true ∧ s.stallState (u8 p 0) ≠ stEmpty ∧
      s.grantConflict (u8 p 0) p = false ∧ s.poolsCheck (u8 p 0) p = none)
    (fun s _ p => stallShadowed s (u8 p 0) (withRecord 0x20 0 p)) (fun _ _ _ => []) ∧
  (∀ g, Does .stallDropShadow specStallDropShadow
    (fun s _ p => 1 ≤ u8 p 0 ∧ u8 p 0 ≤ 62 ∧ s.stallState (u8 p 0) ≠ stEmpty ∧ s.grant (u8 p 0) = some g)
    (fun s _ p => stallShadowed s (u8 p 0) (withRecord 0x20 0 g)) (fun _ _ _ => [])) ∧
  (∀ g, Reads .stallRead specStallRead
    (fun s _ p => u8 p 0 ≤ 63 ∧ u8 p 1 ≤ 1 ∧ (if u8 p 1 = 0 then s.grant (u8 p 0) else s.shadowGrant (u8 p 0)) = some g) (fun _ _ _ => g)) ∧
  Reads .stallStatus specStallStatus (fun _ _ p => u8 p 0 ≤ 63) (fun s _ p =>
    beBytes 4 (s.stallStateWord (u8 p 0)) ++ beBytes 4 (s.stallGrantWord (u8 p 0)) ++ beBytes 4 (s.stallDemandWord (u8 p 0))) ∧
  Reads .stallPool specStallPool (fun _ _ _ => True) (fun s _ _ =>
    beBytes 4 s.stallPoolWord ++ beBytes 4 s.stallPool2Word ++ beBytes 4 s.stallPool3Word ++
      (List.range 10).flatMap fun l => beBytes 4 (s.clusterMemWord l)) ∧
  (∀ i, Does .stallMapPasid specStallMapPasid
    (fun s h p => u32 p 0 ≤ 0xFFFFF ∧ u8 p 4 ≤ 62 ∧ s.pasidEntry h.side (u32 p 0) = none ∧
      (List.range 256).find? (fun i => !s.flag (Rg.pasidMap h.side i) Fd.pasidMapValid) = some i)
    (fun s h p => s.putReg (Rg.pasidMap h.side i) (2 ^ 31 + u8 p 4 * 2 ^ 20 + u32 p 0)) (fun _ _ _ => [])) ∧
  (∀ i, Does .stallUnmapPasid specStallUnmapPasid
    (fun s h p => s.pasidEntry h.side (u32 p 0) = some i ∧
      ∀ r < 64, ¬ (s.flag (Rg.ringCfg h.side r) Fd.ringCfgEnabled = true ∧ s.regWord (Rg.ringPasid h.side r) % 2 ^ 20 = u32 p 0))
    (fun s h _ => s.putReg (Rg.pasidMap h.side i) 0) (fun _ _ _ => []))

/-- R178 to R180: what a stall's start, reset and fault leave: its state, its tasks' memory afresh, no other stall. -/
def Obligations.StallLife : Prop :=
  (∀ (s : State) (st : Nat), st < 64 →
    (s.startStall st).stallState st = 3 ∧ (s.resetStall st).stallState st = 5 ∧ (s.resetStall st).tally = Tbl.del s.tally st ∧
    (∀ k < 64, k ≠ st → (s.startStall st).stallState k = s.stallState k ∧ (s.resetStall st).stallState k = s.stallState k)) ∧
  (∀ (s : State) (st : Nat) (img : Bytes) (k : Task), s.program st = some img → (tasksOf img).getLast? = some k → ∀ sd,
    ((s.initTasks st).taskSt sd st k.task).out = failsafeOf img k ∧ ((s.initTasks st).taskSt sd st k.task).ret = initOf img k ∧
    ((s.initTasks st).taskSt sd st k.task).held = false) ∧
  (∀ (s : State) (st : Nat), st < 64 → s.stallState st ≠ 3 → s.tallyReset st = s) ∧
  (∀ (s : State) (st : Nat), st < 64 → s.stallState st = 3 → s.faultLimit st ≠ 0 →
    s.faultLimit st ≤ min (s.rd (Rg.stallState st) Fd.stallStateAutoResets + 1) 255 → (s.tallyReset st).stallState st = 4) ∧
  (∀ (s : State) (st : Nat), st < 64 → s.stallState st = 5 → (s.endResets).stallState st = 3)

/-- R416, R417, R422: the SET commands of the stream, conditioning, publication, acquisition and field blocks put their
record into the shadow they name and clear its VALID.
A row is its command at its bell (log entry 7). -/
def Obligations.ShadowRecords : Prop :=
  (Does .gooseSubSet specGooseSubSet
    (fun s _ p => gooseSubRange p = true ∧ ∀ e ∈ s.modShadow.block 0x08, e.1 = u16 p 0 ∨ sub e.2 4 8 ≠ sub p 4 8 ∨ sub e.2 24 64 ≠ sub p 24 64)
    (fun s _ p => shadowed s (withRecord 0x08 (u16 p 0) p)) (fun _ _ _ => [])) ∧
  SetsStallRecord .goosePubSet specGoosePubSet goosePubRange (fun p => u8 p 2) 0x22 (fun p => u16 p 0) ∧
  SetsStallRecord .svpubSet specSvpubSet svPubRange (fun p => u8 p 1) 0x23 (fun p => u8 p 0) ∧
  SetsRecord .pubSetMac specPubSetMac (fun p => !bit (u8 p 0) 0) 0x12 (fun _ => 0) (fun s p => p ++ s.modShadow.pubRec.drop 6) ∧
  SetsStallRecord .acqSetLine specAcqSetLine lineRangeOk (fun p => u8 p 0) 0x24 (fun p => u8 p 1) ∧
  SetsStallRecord .acqSetChannel specAcqSetChannel captRangeOk (fun p => u8 p 2) 0x25 (fun p => u16 p 0) ∧
  SetsRecord .acqSetWavefront specAcqSetWavefront wfRangeOk 0x0E (fun p => u8 p 0) (fun _ p => p) ∧
  SetsRecord .acqSetDram specAcqSetDram dramRangeOk 0x0F (fun p => u8 p 0) (fun _ p => p) ∧
  SetsStallRecord .ledgerSetSnapshot specLedgerSetSnapshot snapshotRange (fun p => u8 p 0) 0x26 (fun p => u8 p 1) ∧
  SetsRecord .condSetNominal specCondSetNominal (fun p => u8 p 0 == 50 || u8 p 0 == 60) 0x01 (fun _ => 0)
    (fun s p => patch s.modShadow.timeRec 1 (p.take 1)) ∧
  Does .condSetChain specCondSetChain (fun _ _ p => u8 p 0 = 1 ∧ chainRangeOk (p.drop 1) = true)
    (fun s _ p => shadowed s (withRecord 0x05 (u16 (p.drop 1) 0) (p.drop 1))) (fun _ _ _ => []) ∧
  Refuses .condSetChain specCondSetChain
    (fun s _ p => u8 p 0 = 0 ∧ chainRangeOk (p.drop 1) = true ∧ s.chainStopped (u16 (p.drop 1) 0) = false) .chainRunning ∧
  Does .condSetGroup specCondSetGroup (fun _ _ p => u8 p 0 = 1 ∧ groupRangeOk (p.drop 1) = true)
    (fun s _ p => shadowed s (withRecord 0x07 (u16 (p.drop 1) 0) (p.drop 1))) (fun _ _ _ => []) ∧
  (∀ c, Does .condSetTaps specCondSetTaps
    (fun s _ p => u8 p 0 = 1 ∧ tapHeadOk (sub p 1 8) = true ∧ u16 p 11 ≤ 248 ∧ u16 p 9 + u16 p 11 ≤ u16 (sub p 1 8) 2 ∧
      s.modShadow.withTaps (sub p 1 8) (u16 p 9) (p.drop 13) = some c)
    (fun s _ _ => { s with modShadow := c, validations := Tbl.upd s.validations 0 fun v => { v with broken := true } })
    (fun _ _ _ => [])) ∧
  (∀ (c : State → CmdHdr → Bytes → Scope), c = (fun s h p => s.modShadow.putRec 0x04 (subSlot (patch p 169 [h.stall])) (patch p 169 [h.stall])) →
    Does .svSubscribe specSvSubscribe
      (fun s h p => subRangeOk (patch p 169 [h.stall]) = true ∧
        (∀ o, s.modShadow.get 0x04 (subSlot (patch p 169 [h.stall])) = some o → subKey o = subKey (patch p 169 [h.stall])) ∧
        subsConflict (svSubs (c s h p)) = false ∧ eqTotal (c s h p) ≤ 8192 ∧
        (h.stall = 0 ∨ eqUnder (c s h p) h.stall.toNat ≤ s.streamEqBudget h.stall.toNat))
      (fun s h p => shadowed s (withRecord 0x04 (subSlot (patch p 169 [h.stall])) (patch p 169 [h.stall]))) (fun _ _ _ => [])) ∧
  Refuses .svSubscribe specSvSubscribe
    (fun s h p => subRangeOk (patch p 169 [h.stall]) = true ∧
      ∃ o, s.modShadow.get 0x04 (subSlot (patch p 169 [h.stall])) = some o ∧ subKey o ≠ subKey (patch p 169 [h.stall])) .conflict ∧
  Does .svUnsubscribe specSvUnsubscribe
    (fun s _ p => u16 p 0 ≤ 1023 ∧ (s.modShadow.get 0x04 (u16 p 0)).isSome = true)
    (fun s _ p => shadowed s fun t => Tbl.del t (0x04 * 4294967296 + u16 p 0)) (fun _ _ _ => [])

/-- R416, R417, R422: the same of the switch, time, CAN, Ledger and field blocks.
A row is its command at its bell (log entry 7). -/
def Obligations.ShadowRecordsOfUnits : Prop :=
  (Does .swSetPort specSwSetPort (fun _ _ p => portRange p = true ∧ (prFlag p 1 = true → u8 p 1 = 1))
    (fun s _ p => shadowed s (withRecord 0x09 (swPortIdx (u8 p 0) (u8 p 1)) p)) (fun _ _ _ => [])) ∧
  Does .swSetFdb specSwSetFdb
    (fun _ _ p => 1 ≤ u16 p 2 ∧ u16 p 2 ≤ 60 ∧ u16 p 0 + u16 p 2 ≤ 8192 ∧ ∀ k < u16 p 2, fdbRange (sub p (4 + 16 * k) 16) = true)
    (fun s _ p => s.modifyModShadow fun c => (List.range (u16 p 2)).foldl
      (fun d k => d.putRec 0x0A (swFdbIdx (u8 (sub p (4 + 16 * k) 16) 10) (u16 p 0 + k)) (sub p (4 + 16 * k) 16)) c) (fun _ _ _ => []) ∧
  SetsRecord .swSetGates specSwSetGates gatesRange 0x0B (fun p => swPortIdx (u8 p 0) (u8 p 1)) (fun _ p => p) ∧
  SetsRecord .swSetQueue specSwSetQueue queueRange 0x0C (fun p => swQueueIdx (u8 p 0) (u8 p 1) (u8 p 2)) (fun _ p => p) ∧
  SetsRecord .timeSetParams specTimeSetParams ptpRange 0x01 (fun _ => 0) (fun s p => sub s.modShadow.timeRec 0 8 ++ p) ∧
  SetsRecord .timeSetPort specTimeSetPort timePortRange 0x02 (fun p => timePortIdx (if u8 p 0 = 0 then .A else .B) (u8 p 1)) (fun _ p => p) ∧
  SetsRecord .canSetTiming specCanSetTiming (fun p => (u8 p 0 == 1 || u8 p 0 == 2) && canTimingRange (u64 p 1)) 0x11
    (fun p => canTimingIdx (u8 p 0)) (fun _ p => p) ∧
  SetsRecord .canSetFilter specCanSetFilter canFilterRange 0x11 (fun p => canFilterIdx (u8 p 0) (u8 p 1)) (fun _ p => p) ∧
  SetsRecord .canSetBuffer specCanSetBuffer canBufferRange 0x11 (fun p => canBufferIdx (u8 p 0) (u8 p 1)) (fun _ p => p) ∧
  Does .ledgerSetRate specLedgerSetRate
    (fun _ _ p => 1 ≤ u16 p 2 ∧ u16 p 2 ≤ 248 ∧ u16 p 0 + u16 p 2 ≤ 4096 ∧ p.length = 4 + 4 * u16 p 2 ∧
      ∀ k < u16 p 2, u16 (sub p (4 + 4 * k) 4) 0 ≤ 4800 ∧ u8 (sub p (4 + 4 * k) 4) 2 ≠ 0 ∧ u8 (sub p (4 + 4 * k) 4) 3 = 0)
    (fun s _ p => s.modifyModShadow fun c => (List.range (u16 p 2)).foldl
      (fun d k => d.putRec 0x10 (u16 p 0 + k) (sub p (4 + 4 * k) 4)) c) (fun _ _ _ => []) ∧
  Does .fioSetChannel specFioSetChannel (fun s _ p => fioRange p = true ∧ s.isSafeChannel (u8 p 0) = false)
    (fun s _ p => shadowed s (withRecord 0x0D (u8 p 0) p)) (fun _ _ _ => []) ∧
  Refuses .fioSetChannel specFioSetChannel (fun s _ p => fioRange p = true ∧ s.isSafeChannel (u8 p 0) = true) .conflict ∧
  (∀ (es : Bytes → List Nat), es = (fun p => pairEntries p) →
    Does .pairSet specPairSet
      (fun s _ p => u8 p 0 ≤ 2 ∧ u8 p 1 ≤ 1 ∧ u8 p 2 ≤ 15 ∧ (u8 p 2 = 0 ∨ 3 ≤ u8 p 2) ∧
        ∀ e ∈ es p, bits e 14 10 = 0 ∧ (bit e 15 = true ∨ (s.modShadow.get 0x04 (e % 1024)).isSome = true))
      (fun s _ p => shadowed s (withRecord 0x12 0 (s.modShadow.pubRec.take 6 ++ p))) (fun _ _ _ => []))

/-- R106, R113, R210, R215, R314, R339: commands that read records and registers change nothing.
A row is its command at its bell (log entry 7). -/
def Obligations.ReadCommands : Prop :=
  (∀ r, Reads .svReadSub specSvReadSub (fun s _ p => u16 p 0 ≤ 1023 ∧ u8 p 2 ≤ 1 ∧ (s.setScope (u8 p 2)).get 0x04 (u16 p 0) = some r) (fun _ _ _ => r)) ∧
  (∀ r, Reads .condReadChain specCondReadChain (fun s _ p => u16 p 0 ≤ 8191 ∧ u8 p 2 ≤ 1 ∧ (s.setScope (u8 p 2)).get 0x05 (u16 p 0) = some r) (fun _ _ _ => r)) ∧
  (∀ r, Reads .gooseSubRead specGooseSubRead (fun s _ p => u16 p 0 ≤ 2047 ∧ u8 p 2 ≤ 1 ∧ (s.setScope (u8 p 2)).get 0x08 (u16 p 0) = some r) (fun _ _ _ => r)) ∧
  (∀ r, Reads .goosePubRead specGoosePubRead (fun s h p => u16 p 0 ≤ 511 ∧ u8 p 2 ≤ 1 ∧ s.findPub (u8 p 2) 0x22 h.stall.toNat (u16 p 0) = some r) (fun _ _ _ => r)) ∧
  (∀ r, Reads .svpubRead specSvpubRead (fun s h p => u8 p 0 ≤ 63 ∧ u8 p 1 ≤ 1 ∧ s.findPub (u8 p 1) 0x23 h.stall.toNat (u8 p 0) = some r) (fun _ _ _ => r)) ∧
  Reads .svStreamStatus specSvStreamStatus (fun _ _ p => okRange (u16 p 0) (u16 p 2) 64 1023 = true) (fun s h p =>
    listed h ((List.range (u16 p 2)).map fun i =>
      beBytes 4 (s.regWord (Rg.streamState h.side (u16 p 0 + i))) ++ beBytes 4 (s.regWord (Rg.streamMiss h.side (u16 p 0 + i))))) ∧
  Reads .svReadSamples specSvReadSamples
    (fun s h p => u16 p 0 ≤ 1023 ∧ s.sealedAlready (u64 p 2) = true ∧ s.now ≤ u64 p 2 + 64 ∧
      (s.stream h.side (u16 p 0)).sealed_.find? (fun q => q.tick == u64 p 2) = none)
    (fun _ _ p => beBytes 2 (u16 p 0) ++ zeros 2 ++ beBytes 8 (u64 p 2) ++ zeros 4) ∧
  (∀ q, Reads .svReadSamples specSvReadSamples
    (fun s h p => u16 p 0 ≤ 1023 ∧ s.sealedAlready (u64 p 2) = true ∧ s.now ≤ u64 p 2 + 64 ∧
      (s.stream h.side (u16 p 0)).sealed_.find? (fun q => q.tick == u64 p 2) = some q)
    (fun _ h p => beBytes 2 (u16 p 0) ++ beBytes 2 (fitItems h 16 (q.samples.flatMap fun e => e.entries.map (storeEntry e.cnt))).length
      ++ beBytes 8 (u64 p 2) ++ beBytes 1 (b2n q.present) ++ zeros 3 ++ (fitItems h 16 (q.samples.flatMap fun e => e.entries.map (storeEntry e.cnt))).flatten)) ∧
  (∀ l r, Reads .condReadOutput specCondReadOutput
    (fun s h p => u16 p 0 ≤ 8191 ∧ (s.side h.side).condStore.getLast? = some l ∧ u64 p 2 ≤ l.1 ∧ l.1 ≤ u64 p 2 + 8 ∧
      s.condRecord h.side (u16 p 0) (u64 p 2) = some r) (fun _ _ _ => r)) ∧
  (∀ l r, Reads .condReadGroup specCondReadGroup
    (fun s h p => u16 p 0 ≤ 1023 ∧ (s.side h.side).condStore.getLast? = some l ∧ u64 p 2 ≤ l.1 ∧ l.1 ≤ u64 p 2 + 8 ∧
      s.condRecord h.side (65536 + u16 p 0) (u64 p 2) = some r) (fun _ _ _ => r)) ∧
  (∀ (rates : State → Bytes → List (Nat × Nat)), rates = (fun s p =>
      ((s.setScope (u8 p 0)).block 0x05).filterMap fun e => ((s.setScope (u8 p 0)).chanEntry e.1).map fun q => (u8 q.1 12, chTapset e.2)) →
    Reads .condDemand specCondDemand (fun _ _ p => u8 p 0 ≤ 1) (fun s _ p =>
      beBytes 4 (s.setScope (u8 p 0)).condDemand ++ ((List.range 6).flatMap fun r => beBytes 2 ((rates s p).filter fun q => q.1 == r).length)
        ++ zeros 4 ++ beBytes 8 (listSum (((List.range 64).filter fun t => (rates s p).any fun q => q.1 != 0 && q.2 == t).map fun t => 2 ^ t)))) ∧
  Reads .gooseStatus specGooseStatus (fun _ _ p => u8 p 0 ≤ 1 ∧ okRange (u16 p 1) (u16 p 3) 64 (if u8 p 0 = 0 then 511 else 2047) = true)
    (fun s h p => listed h ((List.range (u16 p 3)).map fun k =>
      beBytes 8 (if u8 p 0 = 0 then s.goosePubWord (u16 p 1 + k) else s.gooseSubWord (u16 p 1 + k)))) ∧
  Reads .acqChannelStatus specAcqChannelStatus (fun _ _ p => okRange (u16 p 0) (u16 p 2) 64 255 = true) (fun s h p =>
    [SideId.A, .B].flatMap fun sd => ((chanSpan p).take ((replyLimit h - 48) / 16)).flatMap fun c =>
      beBytes 4 (s.captStateShown sd c * 2 ^ 29) ++ beBytes 4 (s.regWord (Rg.captSeq sd c))) ∧
  (∀ (img : Bytes) (k : Nat) (t : Task), Reads .scanReadTask specScanReadTask
    (fun s _ p => u8 p 0 ≤ 63 ∧ u8 p 1 ≤ 15 ∧ u8 p 2 ≤ 1 ∧ s.programIn (u8 p 2) (u8 p 0) = some img ∧
      (List.range (imgTasks img)).find? (fun k => (readTask (imgTaskRec img k)).task == u8 p 1) = some k ∧ t = readTask (imgTaskRec img k))
    (fun _ _ _ => sub img 64 16 ++ imgTaskRec img k ++ sub img (80 + 64 * imgTasks img + 8 * declsBefore img t.task) (8 * t.nInputs))) ∧
  (∀ (ts : State → Bytes → List (Nat × Nat × Task)) (idx : State → Bytes → List Nat), ts = (fun s p => s.placements (u8 p 1) (u8 p 0)) →
    idx = (fun s p => if (ts s p).isEmpty then [] else ((List.range 4800).filter fun i =>
      demandAt ((ts s p).map (·.2.2)) i == cycleDemand ((ts s p).map (·.2.2))).take 16) →
    Reads .scanCoreLoad specScanCoreLoad (fun _ _ p => u8 p 0 ≤ 79 ∧ u8 p 1 ≤ 1) (fun s _ p =>
      beBytes 1 (u8 p 0) ++ beBytes 1 (u8 p 1) ++ beBytes 1 (ts s p).length ++ beBytes 1 (idx s p).length
        ++ beBytes 4 (cycleDemand ((ts s p).map (·.2.2)))
        ++ ((idx s p ++ List.replicate (16 - (idx s p).length) 65535).flatMap fun i => beBytes 2 i)
        ++ (ts s p).flatMap fun e => beBytes 1 e.2.1 ++ beBytes 1 e.2.2.task ++ beBytes 1 e.2.2.order ++ [0] ++ beBytes 2 e.2.2.period
            ++ beBytes 2 e.2.2.phase ++ beBytes 4 e.2.2.wDecl)) ∧
  Reads .hlStatus specHlStatus (fun _ _ _ => True) (fun s h _ =>
    beBytes 4 (s.regWord (Rg.hlStatus h.side)) ++ beBytes 4 (s.regWord (Rg.hlErr h.side)) ++ beBytes 4 (s.regWord (Rg.hlErrAddr h.side))
      ++ (List.range 64).flatMap fun r => beBytes 4 (s.regWord (Rg.ringCfg h.side r)) ++ beBytes 4 (s.regWord (Rg.ringPasid h.side r))
        ++ beBytes 4 (s.regWord (Rg.ringPtr h.side r)))

/-- R333, R362, R376, R441, R455, R471, R498: the same of the units.
A row is its command at its bell (log entry 7). -/
def Obligations.ReadCommandsOfUnits : Prop :=
  (Reads .fioReadChannel specFioReadChannel (fun _ _ p => 1 ≤ u8 p 0 ∧ u8 p 0 ≤ 32 ∧ u8 p 1 = 0) (fun s _ p => s.fioRec (u8 p 0))) ∧
  Reads .fioStatus specFioStatus (fun _ _ _ => True) (fun s _ _ =>
    beBytes 4 (s.regWord Rg.fioSupply) ++ beBytes 4 s.fioLevelWord ++ beBytes 4 (s.regWord Rg.fioFault) ++
      allChans.flatMap fun n => beBytes 4 (s.fioChWord n)) ∧
  (∀ img, Reads .fioReadImage specFioReadImage (fun s _ p => s.imageOf (u64 p 0) = some img) (fun _ _ _ => img)) ∧
  Reads .teleStatus specTeleStatus (fun _ _ p => okRange (u8 p 0) (u8 p 1) 64 63 = true) (fun s h p =>
    listed h ((List.range (u8 p 1)).map fun k => beBytes 8 (s.teleSealedWord (u8 p 0 + k)) ++
      [SideId.A, .B].flatMap fun sd => beBytes 4 (s.regWord (Rg.teleErrs sd (u8 p 0 + k))))) ∧
  Reads .safeStatus specSafeStatus (fun _ _ _ => True) (fun s _ _ =>
    beBytes 4 s.safeStatusWord ++ beBytes 8 s.safeCrcWord ++ (List.range 32).flatMap fun i => beBytes 4 (s.sfWord i)) ∧
  Reads .safeReadTable specSafeReadTable
    (fun s _ p => u8 p 0 ≤ 1 ∧ 1 ≤ u16 p 5 ∧ u16 p 5 ≤ 1000 ∧
      u32 p 1 + u16 p 5 ≤ (if u8 p 0 = 0 then s.safeActive else s.safeShadow).length ∧
      u32 p 1 + u16 p 5 ≤ u32 (if u8 p 0 = 0 then s.safeActive else s.safeShadow) 12)
    (fun s _ p => sub (if u8 p 0 = 0 then s.safeActive else s.safeShadow) (u32 p 1) (u16 p 5)) ∧
  Reads .canStatus specCanStatus (fun _ _ _ => True) (fun s h _ => listed h ([SideId.A, .B].flatMap fun sd =>
    [beBytes 4 (s.regWord (Rg.canStatus sd)), beBytes 4 (s.canRxqWord sd)] ++ (List.range 64).map fun b => beBytes 4 (s.mbStatusWord sd b))) ∧
  Reads .ledgerStatus specLedgerStatus (fun _ _ _ => True) (fun s _ _ => [SideId.A, .B].flatMap fun sd =>
    beBytes 8 (s.regWord Rg.ledgerSeq) ++ beBytes 8 s.ledgerOldestWord ++ beBytes 8 (s.regWord (Rg.ledgerSideSeq sd))
      ++ beBytes 4 (s.ledgerQueueWord sd) ++ beBytes 4 (s.regWord (Rg.ledgerDrops sd)) ++ beBytes 4 (s.regWord (Rg.ledgerDrops2 sd))) ∧
  Reads .ledgerCodes specLedgerCodes (fun _ _ p => 1 ≤ u16 p 2 ∧ u16 p 2 ≤ 256 ∧ u16 p 0 + u16 p 2 ≤ 4096) (fun s h p =>
    listed h ((List.range (u16 p 2)).map fun k => codeName (u16 p 0 + k) ++ beBytes 1 (b2n (decide (0x0400 ≤ u16 p 0 + k ∧ u16 p 0 + k ≤ 0x07FF)))
      ++ beBytes 2 (s.codeRate (u16 p 0 + k)).1 ++ beBytes 1 (s.codeRate (u16 p 0 + k)).2
      ++ [SideId.A, .B].flatMap fun sd => beBytes 4 (s.regWord (Rg.ledgerCodeDrop sd (u16 p 0 + k))))) ∧
  (∀ (mine : State → CmdHdr → Bytes → List LRec) (out : State → CmdHdr → Bytes → List LRec),
    mine = (fun s h p => (s.areaRecords h.side (u8 p 0)).filter fun r => decide (u64 p 2 ≤ r.seq) && (u8 p 1 == 255 || r.stall == u8 p 1)
      && (h.stall == 0 || r.stall == h.stall.toNat)) →
    out = (fun s h p => takeRecords (u16 p 10) (min 8192 (replyLimit h - 57)) (mine s h p)) →
    Reads .readRecords specReadRecords
      (fun s h p => u8 p 0 ≤ 1 ∧ (u8 p 1 ≤ 63 ∨ u8 p 1 = 255) ∧ 1 ≤ u16 p 10 ∧ u16 p 10 ≤ 255 ∧ mine s h p ≠ [])
      (fun s h p => (out s h p).flatMap LRec.bytes ++ beBytes 8 (match (out s h p).getLast? with | some r => r.seq + 1 | none => u64 p 2)
        ++ beBytes 1 (b2n (decide (1 ≤ u64 p 2) && decide (u64 p 2 < s.nextSeq h.side (u8 p 0)) &&
          !((s.areaRecords h.side (u8 p 0)).any fun r => r.seq == u64 p 2))))) ∧
  Reads .timePortStatus specTimePortStatus (fun _ _ p => portArgs p = true) (fun s _ p =>
    beBytes 1 (s.portState (sideArg p 0) (u8 p 1)) ++ beBytes 6 (Config.pathDelay (sideArg p 0) (u8 p 1) s.now).toNat
      ++ beBytes 4 (ofSigned 32 (satSigned 32 (Tbl.getD (s.side (sideArg p 0)).time.portTheta (u8 p 1) 0)))
      ++ s.portAsym (sideArg p 0) (u8 p 1) ++ beBytes 4 (s.txtsStatusWord (sideArg p 0) (u8 p 1 - 1))) ∧
  (∀ (size : Bytes → Nat) (recs : State → Bytes → List Bytes), size = (fun p => if u8 p 1 = 1 then 8192 else if u8 p 1 = 3 then 128 else 16) →
    recs = (fun s p => ((List.range (u16 p 5)).filter fun k => decide (u16 p 3 + k < size p)).filterMap fun k =>
      (if u8 p 0 = 0 then s.modActive else s.modShadow).get (0x09 + u8 p 1) (u8 p 2 * size p + u16 p 3 + k)) →
    Reads .swReadConfig specSwReadConfig
      (fun s _ p => u8 p 0 ≤ 1 ∧ u8 p 1 ≤ 3 ∧ u8 p 2 ≤ 1 ∧ 1 ≤ u16 p 5 ∧ u16 p 5 ≤ 60 ∧ recs s p ≠ []) (fun s h p => listed h (recs s p))) ∧
  Reads .keyStatus specKeyStatus (fun _ _ _ => True) (fun s h _ => listed h ([SideId.A, .B].flatMap fun sd =>
    [beBytes 4 (s.keyStatusWord sd)] ++ ((List.range 4).map fun i => beBytes 4 (s.keySignerWord sd i))
      ++ ((List.range 64).map fun k => beBytes 8 (s.regWord (Rg.keySlot sd k)) ++ beBytes 8 (s.regWord (Rg.keyStalls sd k))))) ∧
  Reads .keyDeviceCert specKeyDeviceCert (fun _ _ p => u8 p 0 ≤ 1) (fun s _ p =>
    Config.devicePublic (deviceSeed (sideArg p 0) ((s.side (sideArg p 0)).roots.native.getD [])) ++ Config.deviceCert (sideArg p 0)) ∧
  Reads .updStatus specUpdStatus (fun _ _ _ => True)
    (fun s _ _ => beBytes 4 s.updStateWord ++ beBytes 8 s.updTimeWord ++ s.updSideRegs .A ++ s.updSideRegs .B) ∧
  Reads .healthReport specHealthReport (fun _ _ p => u8 p 0 ≤ 1 ∧ u8 p 1 ≤ 7) (fun s _ p =>
    ((if u8 p 1 = 0 then [1, 2, 3, 4, 5, 6, 7] else [u8 p 1]).flatMap fun l =>
      beBytes 2 (s.sparesAt (sideArg p 0) l) ++ beBytes 2 (min 65535 ((s.side (sideArg p 0)).health.found.getD (l - 1) 0)))
      ++ beBytes 4 (s.healthSparesWord (sideArg p 0)) ++ beBytes 4 (s.regWord (Rg.healthFaults (sideArg p 0)))
      ++ beBytes 4 (s.regWord (Rg.healthTest (sideArg p 0)))) ∧
  Reads .healthFaults specHealthFaults (fun _ _ p => u8 p 0 ≤ 1 ∧ u8 p 1 ≤ 63 ∧ 1 ≤ u8 p 2 ∧ u8 p 2 ≤ 64) (fun s h p =>
    listed h ((List.range (min (u8 p 2) (min 64 (s.rd (Rg.faultHead (sideArg p 0)) Fd.faultHeadTotal)))).map fun k =>
      beBytes 8 (s.regWord (Rg.faultLog (sideArg p 0) ((u8 p 1 + 64 - k) % 64))))) ∧
  Reads .maintLeases specMaintLeases (fun _ _ _ => True) (fun s _ _ => (List.range 4).flatMap fun i =>
    beBytes 8 (s.leaseWord i) ++ beBytes 8 (match s.leases[i]? with | some l => l.start | none => 0)) ∧
  Reads .sideStatus specSideStatus (fun s h _ => (s.side h.side.other).role ≠ .out) (fun s _ _ => s.sideStatusOf .A ++ s.sideStatusOf .B) ∧
  Reads .pairStatus specPairStatus (fun s h _ => (s.side h.side.other).role ≠ .out) (fun s _ _ => [SideId.A, .B].flatMap fun sd =>
    beBytes 4 (s.pairStatusWord sd) ++ beBytes 4 (s.regWord (Rg.witnessSeen sd))) ∧
  Reads .powerStatus specPowerStatus (fun s h _ => (s.side h.side.other).role ≠ .out) (fun s _ _ => s.powerRegs .A ++ s.powerRegs .B)

/-- R103, R72, R300 to R308, R363 to R376: starts, stops, triggers, anchors, destructive reads.
A row is its command at its bell (log entry 7). -/
def Obligations.SignalCommands : Prop :=
  (Does .condStop specCondStop (fun _ _ p => okRange (u16 p 0) (u16 p 2) 1024 8191 = true)
    (fun s _ p => (chanSpan p).foldl State.condStop s) (fun _ _ _ => [])) ∧
  Does .condStart specCondStart (fun _ _ p => okRange (u16 p 0) (u16 p 2) 1024 8191 = true)
    (fun s _ p => (chanSpan p).foldl State.condStart s) (fun _ _ _ => []) ∧
  (∀ r, Does .svReanchor specSvReanchor
    (fun s _ p => u16 p 0 ≤ 1023 ∧ s.modActive.get 0x04 (u16 p 0) = some r ∧ subFreeRun r = true)
    (fun s _ p => s.forSides fun sd t => t.putStream sd (u16 p 0) { t.stream sd (u16 p 0) with wantAnchor := true }) (fun _ _ _ => [])) ∧
  (∀ r, Refuses .svReanchor specSvReanchor
    (fun s _ p => u16 p 0 ≤ 1023 ∧ s.modActive.get 0x04 (u16 p 0) = some r ∧ subFreeRun r = false) .state) ∧
  (∀ r, Does .svAnchor specSvAnchor (fun s _ p => s.modActive.get 0x04 (u16 p 0) = some r)
    (fun s h p => ({ s with
      anchors := Tbl.put s.anchors (u16 p 0) ((Tbl.getD s.anchors (u16 p 0) [] ++ [(⟨u32 p 4, tickStart (u64 p 8) + u32 p 16, s.now⟩ : Anchor)]).drop
        ((Tbl.getD s.anchors (u16 p 0) []).length + 1 - 2)) } : State).forSides fun sd t =>
      if h.side = sd ∧ t.pair.role ≠ 2 then t else t.putStream sd (u16 p 0) { t.stream sd (u16 p 0) with wantAnchor := false, devs := [] })
    (fun _ _ _ => [])) ∧
  (∀ (rs : State → Bytes → List (Nat × Bytes)), rs = (fun s p => (chanSpan p).filterMap fun c => (s.captRec c).map fun r => (c, r)) →
    Does .acqStart specAcqStart
      (fun s _ p => okRange (u16 p 0) (u16 p 2) 256 255 = true ∧ (∀ c ∈ chanSpan p, (s.captRec c).isSome = true) ∧
        (∀ e ∈ rs s p, s.startsWaiting e.1 = [] ∧ (∃ sd ∈ s.serving, s.captState sd e.1 ≠ csRunning) ∧ s.destReady s.speaker e.2 = true))
      (fun s _ p => (rs s p).foldl (fun t e => t.serving.foldl (fun u sd => u.captStart sd e.1 e.2) t) s) (fun _ _ _ => [])) ∧
  Does .acqStop specAcqStop
    (fun s _ p => okRange (u16 p 0) (u16 p 2) 256 255 = true ∧ ∀ c ∈ chanSpan p, (∀ t ∈ s.startsWaiting c, t ≤ s.nextBell) ∧
      (s.startsWaiting c ≠ [] ∨ ∃ sd ∈ s.serving, s.captState sd c = csRunning))
    (fun s _ p => (chanSpan p).foldl (fun t c => match t.captRec c with
      | some r => t.serving.foldl (fun u sd => u.captStop sd c r) t
      | none => t) s) (fun _ _ _ => []) ∧
  (∀ (named : State → CmdHdr → Nat → List Nat), named = (fun s h l =>
      (if h.stall.toNat = 0 then List.range 64 else [h.stall.toNat]).filter fun st => (s.lineRec st l).isSome) →
    Does .acqTrigger specAcqTrigger (fun s h p => ∀ l ∈ (List.range 16).filter (bit (u16 p 0)), named s h l ≠ [])
      (fun s h p => ((List.range 16).filter (bit (u16 p 0))).foldl (fun t l => (named s h l).foldl
        (fun u st => u.tickMark 6 st l h.origin.toNat 0 (tickStart (s.now - s.sealDelay) * 65536)) t) s) (fun _ _ _ => [])) ∧
  (∀ (l out : State → CmdHdr → Bytes → List Bytes), l = (fun s h p => Tbl.getD (s.side h.side).dram (u8 p 0) []) →
    out = (fun s h p => takeWhole (min (u16 p 1) (replyLimit h - 48)) (l s h p)) →
    Does .acqReadDram specAcqReadDram (fun s h p => u8 p 0 ≤ 15 ∧ 1 ≤ u16 p 1 ∧ u16 p 1 ≤ 1008 ∧ l s h p ≠ [])
      (fun s h p => s.modSide h.side fun y => { y with dram := Tbl.put y.dram (u8 p 0) ((l s h p).drop (out s h p).length) })
      (fun s h p => (out s h p).flatten)) ∧
  (∀ (l out : State → CmdHdr → Bytes → List Bytes), l = (fun s h p => Tbl.getD (s.can h.side).queues (u8 p 0) []) →
    out = (fun s h p => fitItems h 0 ((l s h p).take (u8 p 1))) →
    Does .canReadQueue specCanReadQueue (fun _ _ p => u8 p 0 ≤ 1 ∧ 1 ≤ u8 p 1 ∧ u8 p 1 ≤ 12)
      (fun s h p => s.putCan h.side { s.can h.side with queues := Tbl.put (s.can h.side).queues (u8 p 0) ((l s h p).drop (out s h p).length) })
      (fun s h p => (out s h p).flatten)) ∧
  (∀ r, Does .canSend specCanSend
    (fun s h p => u8 p 0 ≤ 63 ∧ s.canOwner (ctrlOf h.side) 0 (u8 p 0) = 0 ∧
      s.modActive.get 0x11 (canBufferIdx (ctrlOf h.side) (u8 p 0)) = some r ∧ u8 r 2 = 1 ∧ u8 r 4 = 255 ∧ s.holdPublish h.side = false)
    (fun s h p => s.canRequest h.side (u8 p 0) ⟨recordFrame (p.drop 1), u8 r 3⟩) (fun _ _ _ => [])) ∧
  Does .ledgerExport specLedgerExport
    (fun s h p => u8 p 0 ≤ 63 ∧ u8 p 1 ≤ 1 ∧ s.rd (Rg.ringCfg h.side (u8 p 0)) Fd.ringCfgOwner = h.stall.toNat ∧
      s.ringRuns h.side (u8 p 0) = true ∧ s.rd (Rg.ringCfg h.side (u8 p 0)) Fd.ringCfgKind = 1)
    (fun s h p => s.putRing h.side (u8 p 0) { s.ring h.side (u8 p 0) with export_ := some (u8 p 1, h.stall.toNat, u64 p 2) }) (fun _ _ _ => []) ∧
  Does .ledgerNote specLedgerNote (fun _ _ p => 26 ≤ p.length)
    (fun s _ p => { s with ledgerPend := s.ledgerPend ++ [⟨0, 0, 0, 0x0012, 0, recBody p, false, false⟩] }) (fun _ _ _ => [])

/-- R131 to R135: the force commands and the two scan commands that write.
A row is its command at its bell (log entry 7). -/
def Obligations.ForceCommands : Prop :=
  (∀ k, Does .forceSet specForceSet
    (fun s h p => (u8 p 0 = 3 → s.isSafeChannel (u32 p 4) = false) ∧ s.feedsSafety (u8 p 1) (u8 p 2) (u32 p 4) = false ∧
      (u8 p 1 ≤ 63 → s.stallState (u8 p 1) = stLoaded ∨ s.stallState (u8 p 1) = stRunning) ∧
      s.forceRange (forceOfParams h p s.now) (u32 p 16) = true ∧ s.forceOn (forceOfParams h p s.now) = some k)
    (fun s h p => { s with
      forces := Tbl.put s.forces k (forceOfParams h p s.now),
      ledgerPend := s.ledgerPend ++ [⟨3, u8 p 1, 0, evForceReplaced, h.origin.toNat, recBody (forceBody k (forceOfParams h p s.now)), false, false⟩] })
    (fun _ _ _ => beBytes 2 k)) ∧
  (∀ k, Does .forceSet specForceSet
    (fun s h p => (u8 p 0 = 3 → s.isSafeChannel (u32 p 4) = false) ∧ s.feedsSafety (u8 p 1) (u8 p 2) (u32 p 4) = false ∧
      (u8 p 1 ≤ 63 → s.stallState (u8 p 1) = stLoaded ∨ s.stallState (u8 p 1) = stRunning) ∧
      s.forceRange (forceOfParams h p s.now) (u32 p 16) = true ∧ s.forceOn (forceOfParams h p s.now) = none ∧ s.freeHandle = some k)
    (fun s h p => { s with
      forces := Tbl.put s.forces k (forceOfParams h p s.now),
      ledgerPend := s.ledgerPend ++ [⟨3, u8 p 1, 0, evForceSet, h.origin.toNat, recBody (forceBody k (forceOfParams h p s.now)), false, false⟩] })
    (fun _ _ _ => beBytes 2 k)) ∧
  Refuses .forceSet specForceSet (fun s _ p => u8 p 0 = 3 ∧ s.isSafeChannel (u32 p 4) = true) .safetyLocked ∧
  (∀ f, Does .forceClear specForceClear (fun s h p => u16 p 0 ≠ 0xFFFF ∧ Tbl.find s.forces (u16 p 0) = some f ∧ h.origin ≠ 0)
    (fun s h p => { s with
      forces := Tbl.del s.forces (u16 p 0),
      ledgerPend := s.ledgerPend ++ [⟨3, f.stall, 0, evForceCleared, h.origin.toNat, recBody (forceBody (u16 p 0) f), false, false⟩] }) (fun _ _ _ => [])) ∧
  Refuses .forceClear specForceClear (fun s h p => u16 p 0 ≠ 0xFFFF ∧ Tbl.find s.forces (u16 p 0) = none ∧ h.origin ≠ 0) .range ∧
  (∀ f, Does .forceClear specForceClear
    (fun s h p => u16 p 0 ≠ 0xFFFF ∧ Tbl.find s.forces (u16 p 0) = some f ∧ h.origin = 0 ∧ f.expiry ≤ s.now)
    (fun s _ p => { s with
      forces := Tbl.del s.forces (u16 p 0),
      ledgerPend := s.ledgerPend ++ [⟨3, f.stall, 0, evForceExpired, 0, recBody (forceBody (u16 p 0) f), false, false⟩] }) (fun _ _ _ => [])) ∧
  (∀ f, Reads .forceClear specForceClear
    (fun s h p => u16 p 0 ≠ 0xFFFF ∧ Tbl.find s.forces (u16 p 0) = some f ∧ h.origin = 0 ∧ s.now < f.expiry) (fun _ _ _ => [])) ∧
  Reads .forceList specForceList (fun _ _ p => 1 ≤ u16 p 2 ∧ u16 p 2 ≤ 64)
    (fun s h p => listed h (((s.forces.filter fun e => decide (u16 p 0 ≤ e.1)).take (u16 p 2)).map forceItem)) ∧
  Does .scanSetForceMax specScanSetForceMax (fun _ _ p => 1 ≤ u16 p 0 ∧ u16 p 0 ≤ 1440)
    (fun s _ p => s.wr Rg.scanCfg Fd.scanCfgForceMax (u16 p 0)) (fun _ _ _ => []) ∧
  Refuses .scanSetForceMax specScanSetForceMax (fun _ _ p => u16 p 0 = 0 ∨ 1440 < u16 p 0) .range ∧
  Does .scanTaskStatus specScanTaskStatus (fun _ _ p => u8 p 0 ≤ 63)
    (fun s h p => (List.range 16).foldl (fun u t =>
      (u.wr (Rg.taskUsed h.side (taskKey (u8 p 0) t)) Fd.taskUsedUsedMax 0).wr (Rg.taskTally h.side (taskKey (u8 p 0) t)) Fd.taskTallyAborts 0) s)
    (fun s h p => (List.range 16).flatMap fun t => beBytes 4 (s.taskStateWord h.side (u8 p 0) t)
      ++ beBytes 4 (s.regWord (Rg.taskUsed h.side (taskKey (u8 p 0) t))) ++ beBytes 4 (s.regWord (Rg.taskTally h.side (taskKey (u8 p 0) t)))) ∧
  (∀ s (handle : BitVec 8) f, Tbl.find s.forces handle.toNat = some f → f.expiry ≤ s.now →
    exec (.forceExpiry handle) s = .next { s with
      forces := Tbl.del s.forces handle.toNat,
      ledgerPend := s.ledgerPend ++ [⟨3, f.stall, 0, evForceExpired, 0, recBody (forceBody handle.toNat f), false, false⟩] })

/-- R351, R360, R361: the safety commands: a challenge, a proof, the password, the table, the reset of latched instances.
A row is its command at its bell (log entry 7). -/
def Obligations.SafetyCommands : Prop :=
  (∀ (nonce : State → Bytes), nonce = (fun s => (List.range 16).map fun i => Config.freeByte (s.freeCount + i)) →
    Does .safeChallenge specSafeChallenge (fun _ _ _ => True)
      (fun s h _ => { s with freeCount := s.freeCount + 16, nonces := Tbl.put s.nonces h.origin.toNat (nonce s, s.now + 288000) })
      (fun s _ _ => nonce s ++ beBytes 8 (s.now + 288000))) ∧
  (∀ salt v nonce expiry, Does .safeUnlock specSafeUnlock
    (fun s h p => s.lockedOut = false ∧ s.safePw = some (salt, v) ∧ Tbl.find s.nonces h.origin.toNat = some (nonce, expiry) ∧
      s.now < expiry ∧ safeProof v nonce h.origin.toNat = p)
    (fun s h _ => { s with nonces := Tbl.del s.nonces h.origin.toNat, unlocks := Tbl.put s.unlocks h.origin.toNat (s.now + 4320000) })
    (fun _ _ _ => [])) ∧
  Refuses .safeUnlock specSafeUnlock (fun s _ _ => s.lockedOut = true) .safetyPassword ∧
  Does .safeLock specSafeLock (fun _ _ _ => True) (fun s h _ => { s with unlocks := Tbl.del s.unlocks h.origin.toNat }) (fun _ _ _ => []) ∧
  Does .safeSetPassword specSafeSetPassword (fun s h _ => (s.safePw = none ∧ h.transport = .console) ∨ (s.safePw ≠ none ∧ s.unlocked h.origin.toNat = true))
    (fun s _ p => { s with safePw := some (p.take 16, p.drop 16) }) (fun _ _ _ => []) ∧
  Refuses .safeSetPassword specSafeSetPassword (fun s h _ => s.safePw = none ∧ h.transport ≠ .console) .noRight ∧
  Refuses .safeLoad specSafeLoad (fun s h _ => s.unlocked h.origin.toNat = false) .safetyPassword ∧
  Does .safeLoad specSafeLoad
    (fun s h p => s.unlocked h.origin.toNat = true ∧ u32 p 0 + (p.drop 8).length ≤ u32 p 4 ∧ u32 p 0 ≠ 0 ∧ u32 p 0 + (p.drop 8).length ≤ s.safeShadow.length)
    (fun s _ p => { s with
      safeShadow := patch s.safeShadow (u32 p 0) (p.drop 8),
      validations := Tbl.upd s.validations 63 fun v => { v with broken := true } }) (fun _ _ _ => []) ∧
  Does .safeCastle specSafeCastle (fun s h p => s.safeCastleCheck h (u32 p 0) = none)
    (fun s h _ => (s.safeCastle h.origin.toNat).ledger ⟨0, 63, 0, 0x0010, h.origin.toNat,
      recBody (changeBody 0x0D05 0 h.seq.toNat (beBytes 4 (tableCrc s.safeActive) ++ beBytes 4 (tableCrc s.safeShadow))), true, false⟩)
    (fun _ _ _ => []) ∧
  (∀ st, Refuses .safeCastle specSafeCastle (fun s h p => s.safeCastleCheck h (u32 p 0) = some st) st) ∧
  (∀ (named : State → Bytes → List (Nat × Bytes)), named = (fun s p => s.instRecs.filter fun e => bit (u32 p 0) e.1 && (s.inst e.1).latched) →
    Does .safeReset specSafeReset (fun s _ p => ∀ e ∈ named s p, s.resetReady e.1 e.2 = true)
      (fun s _ p => ((named s p).foldl (fun t e => t.resetInst e.1 e.2) s).arbSettle) (fun _ _ _ => []) ∧
    Does .safeReset specSafeReset
      (fun s _ p => (∃ e ∈ named s p, s.resetReady e.1 e.2 = true) ∧ ∃ e ∈ named s p, s.resetReady e.1 e.2 = false)
      (fun s h p => (((named s p).foldl (fun t e => t.resetInst e.1 e.2) s).arbSettle).ledger
        ⟨0, h.stall.toNat, 0, 0x0011, h.origin.toNat, recBody (commandChange 0x0D06 .state h p), true, false⟩) (fun _ _ _ => []) ∧
    Refuses .safeReset specSafeReset (fun s _ p => named s p ≠ [] ∧ ∀ e ∈ named s p, s.resetReady e.1 e.2 = false) .state) ∧
  Does .fioClearFault specFioClearFault (fun _ _ _ => True)
    (fun s _ p => (allChans.foldl (fun t n =>
      if bit (u32 p 0) (n - 1) then t.putCh n { t.ch n with short := false, retries := 0 } else t) s).arbSettle) (fun _ _ _ => []) ∧
  (∀ (s : State) origin, (s.safeCastle origin).safeActive = s.safeShadow ∧ (s.safeCastle origin).safeShadow = s.safeActive ∧
    (s.safeCastle origin).unlocks = [])

/-- R232 to R248: the side and pair commands.
A row is its command at its bell (log entry 7). -/
def Obligations.SideCommands : Prop :=
  (∀ a, Does .sideHandover specSideHandover
    (fun s _ _ => s.active = some a ∧ s.inStep a.other = true ∧ s.handoverAt = none ∧ s.drill = none ∧ s.leaseConflict lkHandover = false)
    (fun s h _ => ({ s with
      handoverAt := some (s.now + 1),
      leases := s.leases ++ [{ kind := 5, side := 2, origin := h.origin.toNat, start := s.now }] } : State).addNotice
        ⟨4, 0, if a = .A then 14 else 11, s.now + 1, false⟩) (fun _ _ _ => [])) ∧
  Refuses .sideHandover specSideHandover (fun s _ _ => s.active = none) .state ∧
  Accepts .sideJoin specSideJoin
    (fun s _ p => u8 p 0 ≤ 1 ∧ (s.side (sideArg p 0)).role = .out ∧ s.joinReady (sideArg p 0) = true ∧ s.guardMet (sideArg p 0) = true ∧
      s.leaseConflict lkRestart = false)
    (fun s h p => ((((s.takeLease lkRestart (sideArg p 0).code h.origin.toNat).modResync (sideArg p 0) fun r => { r with hdr := some h }).wr
      (Rg.resyncStatus (sideArg p 0)) Fd.resyncStatusAttempt 0).startJoin (sideArg p 0))) ∧
  Refuses .sideJoin specSideJoin (fun s _ p => u8 p 0 ≤ 1 ∧ (s.side (sideArg p 0)).role ≠ .out) .state ∧
  Does .sideOut specSideOut
    (fun s _ p => u8 p 0 ≤ 1 ∧ (s.side (sideArg p 0)).role ≠ .active ∧ (s.side (sideArg p 0)).role ≠ .out ∧
      ((∃ l ∈ s.leases, l.kind = lkRestart ∧ l.side = (sideArg p 0).code) ∨ s.leaseConflict lkRestart = false))
    (fun s _ p => s.goOut (sideArg p 0) rcSideOut) (fun _ _ _ => []) ∧
  Refuses .sideOut specSideOut (fun s _ p => u8 p 0 ≤ 1 ∧ (s.side (sideArg p 0)).role = .active) .state ∧
  (∀ (s : State) (sd : SideId), ((s.goOut sd rcSideOut).side sd).role = .out) ∧
  Does .sideSetColour specSideSetColour (fun _ _ p => u8 p 0 ≤ 1)
    (fun s _ p => s.wr Rg.sideCfg Fd.sideCfgColourNext (u8 p 0)) (fun _ _ _ => []) ∧
  Does .pairHandover specPairHandover
    (fun s _ _ => s.pairInStep = true ∧ s.leaseConflict lkHandover = false)
    (fun s h _ => ({ s with
      pair := { s.pair with handoverAt := some (s.now + 1) },
      leases := s.leases ++ [{ kind := 5, side := 2, origin := h.origin.toNat, start := s.now }] } : State).addNotice
        ⟨4, 0, s.roleArg, s.now + 1, false⟩) (fun _ _ _ => []) ∧
  Refuses .pairHandover specPairHandover (fun s _ _ => s.pairInStep = false) .state ∧
  Does .arbSetHandover specArbSetHandover
    (fun s _ p => ∀ n < 32, bits (u64 p 0) (2 * n + 1) (2 * n) ≠ 3 ∧
      (s.isSafeChannel (n + 1) = true → bits (u64 p 0) (2 * n + 1) (2 * n) = bits (s.regWord Rg.arbHandover) (2 * n + 1) (2 * n)))
    (fun s _ p => s.putReg Rg.arbHandover (u64 p 0)) (fun _ _ _ => [])

/-- R255 to R298: the time and switch commands that are no record of a shadow.
A row is its command at its bell (log entry 7). -/
def Obligations.TimeAndSwitchCommands : Prop :=
  (Does .timeUtc specTimeUtc (fun _ _ _ => True)
    (fun s _ p => ((s.wr Rg.timeUtc Fd.timeUtcOffset (u16 p 0)).setFlag Rg.timeUtc Fd.timeUtcLeap59 (bit (u16 p 2) 0)).setFlag
      Rg.timeUtc Fd.timeUtcLeap61 (bit (u16 p 2) 1)) (fun _ _ _ => [])) ∧
  Does .timeSet specTimeSet (fun s _ p => s.timeSetRefusal (u64 p 0) (u32 p 8) = none)
    (fun s h p => ((s.wr Rg.timeSetSec Fd.timeSetSecSec (u64 p 0)).wr Rg.timeSetNs Fd.timeSetNsNs (u32 p 8)).stageTime (u64 p 0) (u32 p 8) h.origin.toNat)
    (fun _ _ _ => []) ∧
  (∀ st, Refuses .timeSet specTimeSet (fun s _ p => s.timeSetRefusal (u64 p 0) (u32 p 8) = some st) st) ∧
  Does .timeCancelSet specTimeCancelSet (fun s _ _ => s.staged ≠ none)
    (fun s _ _ => ({ s with staged := none, leases := s.leases.filter fun l => l.kind != lkTimeStep } : State).setFlag
      Rg.timeSetCtrl Fd.timeSetCtrlPending false) (fun _ _ _ => []) ∧
  Refuses .timeCancelSet specTimeCancelSet (fun s _ _ => s.staged = none) .state ∧
  Does .timeRead specTimeRead (fun _ _ _ => True) (fun s _ _ => { s with freeCount := s.freeCount + 2 })
    (fun s h _ => beBytes 6 s.readClock.1.1 ++ beBytes 4 s.readClock.1.2.1 ++ beBytes 2 s.readClock.1.2.2
      ++ beBytes 1 (s.readClock.2.timeStatusWord h.side % 8) ++ beBytes 4 (s.readClock.2.regWord (Rg.timeOffset h.side))
      ++ beBytes 4 (s.readClock.2.timeFreqWord h.side) ++ beBytes 1 s.readClock.2.utcOffset
      ++ beBytes 1 (bits (s.readClock.2.timeStatusWord h.side) 10 6)) ∧
  (∀ (out : State → CmdHdr → Bytes → List Bytes), out = (fun s h p => fitItems h 0 ((s.txts (sideArg p 0) (u8 p 1 - 1)).take (u8 p 2))) →
    Does .timeReadTxts specTimeReadTxts (fun _ _ p => portArgs p = true ∧ 1 ≤ u8 p 2 ∧ u8 p 2 ≤ 16)
      (fun s h p => s.putTxts (sideArg p 0) (u8 p 1 - 1) ((s.txts (sideArg p 0) (u8 p 1 - 1)).drop (out s h p).length))
      (fun s h p => (out s h p).flatten)) ∧
  Does .swMirrorSet specSwMirrorSet
    (fun s h p => u8 p 0 ≤ 3 ∧ 1 ≤ u8 p 1 ∧ u8 p 1 ≤ 3 ∧ u8 p 3 ≤ 1 ∧ u8 p 4 ≤ 63 ∧ u8 p 5 ≤ 63 ∧ 2 ≤ u32 p 8 ∧ u32 p 8 ≤ 65536 ∧
      (u8 p 3 = 1 → s.ringServes h.side (u8 p 4) (u8 p 5) = true))
    (fun s h p => (s.putReg (Rg.mirrorState h.side (u8 p 0))
        (2 ^ 31 + u8 p 3 * 2 ^ 30 + u8 p 4 * 2 ^ 24 + u8 p 5 * 2 ^ 18 + u8 p 1 * 2 ^ 16)).modSide h.side fun x => { x with sw := { x.sw with
      mirrors := Tbl.put x.sw.mirrors (u8 p 0) p, mirrorCount := x.sw.mirrorCount.filter fun e => e.1 / 16 != u8 p 0 } }) (fun _ _ _ => []) ∧
  Does .swMirrorClear specSwMirrorClear (fun _ _ p => u8 p 0 ≤ 3)
    (fun s h p => (s.putReg (Rg.mirrorState h.side (u8 p 0)) 0).modSide h.side fun x => { x with sw := { x.sw with
      mirrors := Tbl.del x.sw.mirrors (u8 p 0), mirrorCount := x.sw.mirrorCount.filter fun e => e.1 / 16 != u8 p 0 } }) (fun _ _ _ => []) ∧
  Does .swPortAdmin specSwPortAdmin (fun _ _ p => 1 ≤ u8 p 0 ∧ u8 p 0 ≤ 11 ∧ u8 p 1 = 1)
    (fun s h p => s.setFlag (Rg.portStatus h.side (u8 p 0 - 1)) Fd.portStatusAdminDown false) (fun _ _ _ => []) ∧
  Does .swPortAdmin specSwPortAdmin (fun _ _ p => 1 ≤ u8 p 0 ∧ u8 p 0 ≤ 11 ∧ u8 p 1 = 0)
    (fun s h p => (s.setFlag (Rg.portStatus h.side (u8 p 0 - 1)) Fd.portStatusAdminDown true).setLink h.side (u8 p 0 - 1) false false false)
    (fun _ _ _ => []) ∧
  Does .swSetWake specSwSetWake (fun _ _ _ => True)
    (fun s h p => (s.wr (Rg.wakeId h.side) Fd.wakeIdId (u48 p 0)).wr (Rg.wakeCode h.side) Fd.wakeCodeCode (u32 p 6)) (fun _ _ _ => []) ∧
  Reads .swPortStatus specSwPortStatus (fun _ _ p => 7 ≤ u8 p 0 ∧ u8 p 0 ≤ 16 ∧ u8 p 1 = 0)
    (fun s h p => beBytes 4 (s.regWord (Rg.portStatus h.side (u8 p 0 - 1))) ++
      (List.range 16).flatMap fun i => beBytes 8 (s.regWord (Rg.portCnt h.side (16 * (u8 p 0 - 1) + i)))) ∧
  Does .swPortStatus specSwPortStatus (fun _ _ p => 7 ≤ u8 p 0 ∧ u8 p 0 ≤ 16 ∧ u8 p 1 = 1)
    (fun s h p => (List.range 16).foldl (fun t i => t.putReg (Rg.portCnt h.side (16 * (u8 p 0 - 1) + i)) 0) s)
    (fun s h p => beBytes 4 (s.regWord (Rg.portStatus h.side (u8 p 0 - 1))) ++
      (List.range 16).flatMap fun i => beBytes 8 (s.regWord (Rg.portCnt h.side (16 * (u8 p 0 - 1) + i)))) ∧
  (∀ (out : State → CmdHdr → Bytes → Nat), out = (fun s _ _ => s.free.1.toNat % tickLength s.now) →
    Does .swPortStatus specSwPortStatus (fun _ _ p => 1 ≤ u8 p 0 ∧ u8 p 0 ≤ 6 ∧ u8 p 1 = 0)
      (fun s _ _ => { s with freeCount := s.freeCount + 1 })
      (fun s h p => beBytes 4 (s.regWord (Rg.portStatus h.side (u8 p 0 - 1))) ++ beBytes 4 (s.gateStatusWord h.side (u8 p 0 - 1) (out s h p)) ++
        (List.range 16).flatMap fun i => beBytes 8 (s.regWord (Rg.portCnt h.side (16 * (u8 p 0 - 1) + i)))))

/-- R381 to R389, R432 to R439, R449 to R454, R465, R466, R478, R498: host link, keys, updates, health, power.
A row is its command at its bell (log entry 7). -/
def Obligations.MaintenanceCommands : Prop :=
  (Does .hlRingSet specHlRingSet
    (fun s h p => ringRecRange p = true ∧ s.flag (Rg.ringCfg h.side (u8 p 0)) Fd.ringCfgEnabled = false ∧
      (u8 p 3 = 1 → s.ringMayEnable h.side p = true))
    (fun s h p => s.ringDefine h.side p) (fun _ _ _ => [])) ∧
  Refuses .hlRingSet specHlRingSet (fun s h p => ringRecRange p = true ∧
    s.flag (Rg.ringCfg h.side (u8 p 0)) Fd.ringCfgEnabled = true ∧ s.ringSame h.side p = false) .state ∧
  Does .hlRingReset specHlRingReset (fun _ _ p => u8 p 0 ≤ 63)
    (fun s h p => (s.resetRing h.side (u8 p 0)).setFlag (Rg.ringCfg h.side (u8 p 0)) Fd.ringCfgResetDone true) (fun _ _ _ => []) ∧
  (∀ key, Does .keyImport specKeyImport (fun s _ p => s.importCheck s.speaker p = .ok key)
    (fun s _ p => s.forSides fun sd t => match t.importCheck sd p with
      | .ok k => t.writeSlot sd p k
      | .error _ => t) (fun _ _ _ => [])) ∧
  (∀ st, Refuses .keyImport specKeyImport (fun s _ p => s.importCheck s.speaker p = .error st) st) ∧
  Does .keyErase specKeyErase
    (fun s _ p => u8 p 0 ≤ 63 ∧ s.slotFlag s.speaker (u8 p 0) Fd.keySlotValid = true ∧ s.requiredSlot (u8 p 0) = false ∧
      s.unwrapSlots s.speaker ≠ [u8 p 0] ∧ s.slotNamed (u8 p 0) = false)
    (fun s _ p => s.forSides fun d t => t.clearSlot d (u8 p 0)) (fun _ _ _ => []) ∧
  (∀ (s : State) sd k, Tbl.has ((s.clearSlot sd k).side sd).keys k = false) ∧
  Does .keyRevokeSigner specKeyRevokeSigner
    (fun s _ p => u8 p 0 ≤ 3 ∧ Config.signerPresent s.speaker (u8 p 0) = true ∧
      (∀ d, imageKeyId (s.side d).image ≠ u8 p 0 ∧ imageKeyId (s.side d).stored ≠ u8 p 0) ∧
      ∃ j < 4, j ≠ u8 p 0 ∧ Config.signerPresent s.speaker j = true ∧ s.revoked s.speaker j = false)
    (fun s _ p => s.forSides fun d t => t.setFlag (Rg.keySigner d (u8 p 0)) Fd.keySignerRevoked true) (fun _ _ _ => []) ∧
  Does .updBegin specUpdBegin
    (fun s _ p => u8 p 0 ≤ 1 ∧ 224 ≤ u32 p 1 ∧ u32 p 1 ≤ 33554432 ∧ s.updating = false ∧ s.nor (sideArg p 0).other = norProven ∧
      s.computes (sideArg p 0).other = true ∧ s.leaseConflict lkUpdate = false)
    (fun s h p => (((({ s with update := { UpdSt.reset with phase := upStoring, first := sideArg p 0, length := u32 p 1 } } : State).setNor
      (sideArg p 0) norWriting).setKib (sideArg p 0) 0).takeLease lkUpdate (sideArg p 0).code h.origin.toNat)) (fun _ _ _ => []) ∧
  Does .updWrite specUpdWrite
    (fun s _ p => s.storing = true ∧ u32 p 0 + (p.drop 8).length ≤ s.update.length ∧ crc32c (p.drop 8) = u32 p 4)
    (fun s _ p => s.writeBlock (u32 p 0) (p.drop 8)) (fun _ _ _ => []) ∧
  Accepts .updWriteRing specUpdWriteRing
    (fun s h p => s.fromHostOf0 h.side (u8 p 0) = true ∧ s.storing = true ∧ u24 p 1 = 0 ∧ u32 p 8 ≠ 0 ∧ u32 p 4 + u32 p 8 ≤ s.update.length)
    (fun s h p => { s with ringLoads := s.ringLoads ++ [⟨h, true, u8 p 0, u32 p 4, u32 p 8, []⟩] }) ∧
  Does .updSchedule specUpdSchedule
    (fun s _ p => 30 ≤ u16 p 8 ∧ u16 p 8 ≤ 600 ∧ u8 p 12 ≤ 1 ∧ u64 p 0 < 2 ^ 48 ∧ (s.update.phase = upStoring ∨ s.update.phase = upScheduled) ∧
      s.nor s.update.first = norStored ∧ s.now / 4800 + 1 < u64 p 0 ∧ (∀ l ∈ s.leases, l.kind ≠ lkPairUpdate))
    (fun s _ p => ({ s with update := { s.update with
      phase := upScheduled, atSecond := u64 p 0, window := u16 p 8, delay := u16 p 10, outage := u8 p 12 == 1, authorised := false, pair := false } } : State).forwardSeal)
    (fun _ _ _ => []) ∧
  Refuses .updSchedule specUpdSchedule
    (fun s _ p => 30 ≤ u16 p 8 ∧ u16 p 8 ≤ 600 ∧ u8 p 12 ≤ 1 ∧ u64 p 0 < 2 ^ 48 ∧ (s.update.phase = upStoring ∨ s.update.phase = upScheduled) ∧
      s.nor s.update.first = norStored ∧ u64 p 0 ≤ s.now / 4800 + 1) .late ∧
  Does .updAuthoriseOutage specUpdAuthoriseOutage
    (fun s _ p => s.update.phase = upScheduled ∧ s.update.outage = true ∧ s.update.atSecond = u64 p 0 ∧
      s.now / 4800 + 1 ≤ s.update.atSecond ∧ s.update.atSecond ≤ s.now / 4800 + 3600)
    (fun s _ _ => { s with update := { s.update with authorised := true } }) (fun _ _ _ => []) ∧
  Does .updCancel specUpdCancel (fun s _ _ => s.update.phase = upStoring ∨ s.update.phase = upScheduled)
    (fun s _ _ => s.abandonUpdate upCancelled) (fun _ _ _ => []) ∧
  Accepts .healthDeepTest specHealthDeepTest
    (fun s _ p => u8 p 0 ≤ 1 ∧ s.inStep (sideArg p 0) = true ∧ s.leaseConflict lkDeepTest = false)
    (fun s h p => ((((s.takeLease lkDeepTest (sideArg p 0).code h.origin.toNat).goOut (sideArg p 0) rcSideOut).setFlag
        (Rg.healthTest (sideArg p 0)) Fd.healthTestDeepTest true).modDuty (sideArg p 0) fun d =>
          { d with tested := false, resync := { d.resync with hdr := some h } }).partEvent (sideArg p 0) lcDeepTest (unitAddr 6 (sideArg p 0) 0x1F) 0) ∧
  (∀ (sd : Bytes → SideId), sd = (fun p => if partDomain (u32 p 0) = 1 then .B else .A) →
    Does .healthTestUnit specHealthTestUnit
      (fun s _ p => partKnown (u32 p 0) = true ∧ s.flag (Rg.healthTest (sd p)) Fd.healthTestRotationOn = false)
      (fun s _ _ => { s with freeCount := s.freeCount + 1 })
      (fun s _ p => beBytes 1 (b2n ((List.range 64).any fun i => s.regWord (Rg.faultLog (sd p) i) / 2 ^ 32 == u32 p 0)) ++ zeros 7 ++
        beBytes 8 (s.now - (Config.freeWord s.freeCount).toNat))) ∧
  Does .powerRestart specPowerRestart (fun s _ p => u8 p 0 = 0 ∧ s.restartBarred = false) (fun s _ _ => s.enterStop (.boot 3)) (fun _ _ _ => []) ∧
  Refuses .powerRestart specPowerRestart (fun s _ p => u8 p 0 = 0 ∧ s.restartBarred = true) .conflict ∧
  Does .powerPark specPowerPark (fun s _ _ => s.restartBarred = false) (fun s _ _ => s.enterStop .parked) (fun _ _ _ => []) ∧
  Does .serviceGo specServiceGo (fun s _ _ => s.gateOpen = false ∧ s.active ≠ none) (fun s _ _ => s.openGate true s.bootMs) (fun _ _ _ => []) ∧
  Refuses .serviceGo specServiceGo (fun s _ _ => s.gateOpen = true) .state


/-! ## Events of power, sides and field -/

/-- R472 to R481, R276, R277: the module powers up, verifies, tests, takes its places, opens its gate; resets and wake-up.
Rows whose condition does not hold change nothing (log entry 9). What wakes with code 0 and when WAKE_STATUS clears is log entry 176. -/
def Obligations.PowerUp : Prop :=
  ∀ (s : State),
    (∀ ok a b, s.power.mode = .off ∨ s.power.mode = .booting → ∃ t, exec (.powerGood ok a b) s = .next t ∧
      t.power.mode = .booting ∧ t.sideA.role = .out ∧ t.sideB.role = .out ∧ t.forces = [] ∧ t.waiting = [] ∧ t.modActive = s.modActive ∧
      t.safeActive = s.safeActive ∧ t.stallActive = s.stallActive ∧ t.power.clockA = rtcTime a s.power.clockA ∧
      t.power.clockB = rtcTime b s.power.clockB ∧
      ∀ sd, t.flag (Rg.powerStatus sd) Fd.powerStatusHoldupOk = ok ∧ t.flag (Rg.powerStatus sd) Fd.powerStatusHoldupLow = !ok) ∧
    (∀ sd (r : LoaderReport), s.loadable sd = true → exec (.loaderVerify sd true r) s = .next
      ((s.wr (Rg.startTimes sd) Fd.startTimesLoaderMs r.ms.toNat).handOver sd r.rootOk r.pufOk r.trusted)) ∧
    (∀ sd puf link, (s.side sd).roots.native = none →
      ((s.handOver sd false puf link).side sd).health.unfit = true ∧ ((s.handOver sd false puf link).side sd).role = .out) ∧
    (∀ sd root puf link, (s.side sd).roots.native ≠ none →
      ((s.handOver sd root puf link).side sd).role = (s.side sd).role ∧
        (s.handOver sd root puf link).rd (Rg.keyStatus sd) Fd.keyStatusRoot = 1) ∧
    (∀ sd ok (r : LoaderReport), (ok = false ∨ s.loadable sd = false) → s.canDonate sd = true →
      exec (.loaderVerify sd ok r) s = .next (s.wr (Rg.startTimes sd) Fd.startTimesLoaderMs r.ms.toNat)) ∧
    (∀ sd ok (r : LoaderReport), (ok = false ∨ s.loadable sd = false) → s.canDonate sd = false → exec (.loaderVerify sd ok r) s =
      .next ((s.wr (Rg.startTimes sd) Fd.startTimesLoaderMs r.ms.toNat).wr (Rg.norState sd) Fd.norStateState norBad)) ∧
    (∀ sd ms, (s.side sd).health.unfit = false → (s.onForward sd = false ∨ s.slotsSound sd = true) →
      exec (.selftestComplete sd true ms []) s = .next
      (((((s.wr (Rg.startTimes sd) Fd.startTimesSelftestMs ms.toNat).migrateAll sd).modDuty sd fun d => { d with tested := true }).loadCache
        sd).takePlace sd
        (decide (3000 ≤ ms.toNat)))) ∧
    (∀ sd ms, exec (.selftestComplete sd false ms []) s = .next
      (((s.wr (Rg.startTimes sd) Fd.startTimesSelftestMs ms.toNat).migrateAll sd).modDuty sd fun d => { d with tested := false })) ∧
    (s.active = none → exec .startRoleTimeout s = .next (s.takePlace s.white.other true)) ∧
    (∀ sd, (s.duty sd).tested = true → (s.side sd).role = .out → (s.side sd.other).role ≠ .active →
      ((s.takePlace sd true).side sd).role = .active ∧ (s.takePlace sd true).power.mode = .service) ∧
    (∀ ms m, s.gateOpen = false → s.gateReason = some m → exec (.serviceGateOpen ms) s = .next (s.openGate m ms.toNat)) ∧
    (∀ m ms, (s.openGate m ms).gateOpen = true) ∧
    (s.gateOpen = false → s.power.gateWaited = false → (s.power.mode = .service ∨ s.power.mode = .booting) → exec .gateWait s = .next
      { s.sideReport s.speaker 0x0433 (zeros 16) with
        power := { (s.sideReport s.speaker 0x0433 (zeros 16)).power with gateWaited := true } }) ∧
    (s.power.mode = .service → s.power.stopAt = none → exec .resetReq s = .next
      { s with power := { s.power with stopAt := some (s.now + 1), after := .boot 1 } }) ∧
    (s.power.mode = .parked → exec .resetReq s = .next (s.bootModule 8 true) ∧ exec .wakeReq s = .next (s.bootModule 8 true)) ∧
    (s.power.mode ≠ .off → exec .resetReqLong s = .next (s.loseQueues.bootModule 2 true)) ∧
    (∀ sd id code, s.power.mode = .parked → s.deaf sd = false → s.regWord (Rg.wakeCode sd) = code.toNat → code.toNat ≠ 0 →
      s.regWord (Rg.wakeId sd) = id.toNat → exec (.wakePattern sd id code) s =
        .next ((s.setFlag (Rg.wakeStatus sd) Fd.wakeStatusWokeHere true).bootModule 8 true)) ∧
    (∀ sd id code, s.power.mode = .parked → s.deaf sd = false → s.regWord (Rg.wakeCode sd) ≠ code.toNat → s.regWord (Rg.wakeCode sd) ≠ 0 →
      s.regWord (Rg.wakeId sd) = id.toNat → exec (.wakePattern sd id code) s = .next (s.tick1 (Rg.wakeStatus sd) Fd.wakeStatusBadCodes)) ∧
    (s.power.mode = .parked → 8 ≤ s.rd (Rg.wakeStatus .A) Fd.wakeStatusBadCodes → exec (.wakeLockout .A) s = .next
      { s.setFlag (Rg.wakeStatus .A) Fd.wakeStatusLocked true with power := { s.power with deafA := true } }) ∧
    exec (.wakeLockoutEnd .A) s = .next { s with power := { s.power with deafA := false } } ∧
    exec (.wakeLockoutEnd .B) s = .next { s with power := { s.power with deafB := false } } ∧
    (s.power.mode ≠ .off → exec .auxRetry s = .next
      ((s.setFlag (Rg.powerStatus .A) Fd.powerStatusAuxOn true).setFlag (Rg.powerStatus .B) Fd.powerStatusAuxOn true))

/-- R482 to R486, R474, R490, R491: warning, dip, orderly stop, loss of the input; what a boot leaves.
Rows whose condition does not hold change nothing (log entry 9). -/
def Obligations.PowerDown : Prop :=
  ∀ (s : State),
    (∀ ns, s.power.mode = .service → s.active ≠ none → s.power.stopAt = none →
      s.flag (Rg.powerStatus s.speaker) Fd.powerStatusHoldupOk = true → s.now < firstTickFrom (ns + 10000000) →
      exec (.pfWarnAssert ns) s = .next
        { (s.setFlag (Rg.powerStatus .A) Fd.powerStatusPfWarn true).setFlag (Rg.powerStatus .B) Fd.powerStatusPfWarn true with
          power := { s.power with stopAt := some (firstTickFrom (ns + 10000000)), after := .off } }) ∧
    (∀ ns, ns ≤ tickStart (firstTickFrom ns) ∧ ∀ w, ns ≤ tickStart w → firstTickFrom ns ≤ w) ∧
    (s.power.mode = .service → s.flag (Rg.powerStatus s.speaker) Fd.powerStatusPfWarn = true → s.power.after = .off →
      ∃ t, exec .powerDip s = .next t ∧ t.power.stopAt = none ∧
        ∀ sd, t.flag (Rg.powerStatus sd) Fd.powerStatusPfWarn = false ∧
          t.rd (Rg.powerEvents sd) Fd.powerEventsDips = min 65535 (s.rd (Rg.powerEvents sd) Fd.powerEventsDips + 1)) ∧
    (s.power.mode = .booting → exec .powerDip s = .next
      ((s.setFlag (Rg.powerStatus .A) Fd.powerStatusPfWarn false).setFlag (Rg.powerStatus .B) Fd.powerStatusPfWarn false)) ∧
    (∀ w, s.power.mode = .service → s.active ≠ none → s.power.stopAt = some w.toNat →
      ∃ t, exec (.powerHalt w) s = .next t ∧ t.power.mode = .stopping ∧ t.power.stopAt = none ∧
        t.waiting = s.waiting.filter (fun c => decide (w.toNat < c.tick)) ∧ t.power.after = s.power.after) ∧
    (s.power.mode = .stopping → ∃ t, exec (.orderlyStopEnd false) s = .next t ∧ t.power.mode = .off ∧ t.ledgerQueue = [] ∧
      (∀ sd, (t.side sd).role = .out ∧ (t.side sd).cache = [] ∧ (t.side sd).till = [] ∧ (t.side sd).sideQueue = 0) ∧ t.arb.noImage = true) ∧
    (s.power.mode = .stopping → s.power.inputBack = true → ∃ t, exec (.orderlyStopEnd true) s = .next t ∧ t.power.mode = .booting) ∧
    (s.power.mode = .stopping → exec .inputReturnInStop s = .next
      { (s.setFlag (Rg.powerStatus .A) Fd.powerStatusPfWarn false).setFlag (Rg.powerStatus .B) Fd.powerStatusPfWarn false with
        power := { s.power with inputBack := true } }) ∧
    (s.power.mode = .parked → ∃ t, exec .parkedInputLoss s = .next t ∧ t.power.mode = .off ∧ ∀ sd, (t.side sd).role = .out) ∧
    (s.flag (Rg.powerStatus s.speaker) Fd.powerStatusAuxOn = true → exec .auxOvercurrent s = .next
      ((((s.setFlag (Rg.powerStatus .A) Fd.powerStatusAuxOn false).setFlag (Rg.powerStatus .B) Fd.powerStatusAuxOn false).setFlag
        (Rg.powerStatus .A) Fd.powerStatusAuxOvercurrent true).setFlag (Rg.powerStatus .B) Fd.powerStatusAuxOvercurrent true)) ∧
    (∀ sd (temp : BitVec 16), 1100 < temp.toInt → exec (.junctionTempWarn sd temp) s = .next
      ((s.wr (Rg.powerTemp sd) Fd.powerTempDie temp.toNat).setFlag (Rg.powerStatus sd) Fd.powerStatusTempWarn true)) ∧
    (∀ sd (temp : BitVec 16), temp.toInt ≤ 1100 →
      exec (.junctionTempWarn sd temp) s = .next (s.wr (Rg.powerTemp sd) Fd.powerTempDie temp.toNat)) ∧
    (∀ cause arb, (s.bootModule cause arb).power.mode = .booting ∧ (s.bootModule cause arb).now = s.now ∧
      (s.bootModule cause arb).forces = [] ∧ (s.bootModule cause arb).waiting = [] ∧ (s.bootModule cause arb).unlocks = [] ∧
      (s.bootModule cause arb).modActive = s.modActive ∧ (s.bootModule cause arb).safePw = s.safePw ∧
      (∀ sd, ((s.bootModule cause arb).side sd).role = .out ∧ ((s.bootModule cause arb).side sd).keys = (s.side sd).keys))

/-- R9, R10, R21, R52, R218 to R223, R231 to R248: faults of a side, joining, the pair.
Rows whose condition does not hold change nothing (log entry 9). The instant 203.0 µs is log entry 102. -/
def Obligations.SideEvents : Prop :=
  ∀ (s : State),
    (∀ sd (part : Word), 2 ≤ partDomain part.toNat → exec (.unitFault sd part) s = .next
      (((s.logFault .A part.toNat 0).demote .A rcSelf).logFault .B part.toNat 0 |>.demote .B rcSelf)) ∧
    (∀ sd (part : Word), partDomain part.toNat ≤ 1 → partLevel part.toNat = 1 →
      exec (.unitFault sd part) s = .next (s.uncorrectable sd part.toNat 0)) ∧
    (∀ sd (part : Word), partDomain part.toNat ≤ 1 → partLevel part.toNat ≠ 1 → partLevel part.toNat ≤ 4 →
      3 ≤ partUnit part.toNat → partUnit part.toNat ≤ 14 → exec (.unitFault sd part) s = .next (s.clusterPart sd part.toNat)) ∧
    (∀ sd (part : Word), partDomain part.toNat ≤ 1 → partLevel part.toNat ≠ 1 → partLevel part.toNat ≤ 4 → 14 < partUnit part.toNat →
      (partUnit part.toNat ≠ 0x1A ∨ partLevel part.toNat ≠ 2) → (partUnit part.toNat ≠ 0x11 ∨ 10 < partTile part.toNat) →
      exec (.unitFault sd part) s = .next (s.sideFault sd part.toNat)) ∧
    (∀ sd (part : Word), partDomain part.toNat ≤ 1 → partLevel part.toNat = 2 → partUnit part.toNat = 0x1A →
      exec (.unitFault sd part) s = .next ((s.logFault sd part.toNat 0).retireSector sd part.toNat)) ∧
    (∀ sd part, s.rd (Rg.healthSpares sd) Fd.healthSparesSpareSectors = 0 →
      s.retireSector sd part = s.sideFault sd (unitAddr 4 sd 0x1A)) ∧
    (∀ sd (part : Word) lane, partDomain part.toNat ≤ 1 → partLevel part.toNat ≠ 1 → partLevel part.toNat ≤ 4 → partUnit part.toNat = 0x11 →
      serdesLane (partTile part.toNat) = some lane →
      exec (.unitFault sd part) s = .next ((s.logFault sd part.toNat 0).failLane lane)) ∧
    (∀ sd (part : Word), partDomain part.toNat ≤ 1 → 5 ≤ partLevel part.toNat →
      exec (.unitFault sd part) s = .next (s.sideFault sd part.toNat)) ∧
    (∀ sd part, s.sideFault sd part = ((s.logFault sd part 0).unitFailed sd (partUnit part)).demote sd rcSelf) ∧
    (∀ sd, exec (.clockFault sd) s = .next
      ((s.setFlag (Rg.regionStatus sd) Fd.regionStatusWarn true).sideFault sd (unitAddr 6 sd 0x1C))) ∧
    (∀ sd (temp : BitVec 16), 1150 < temp.toInt → exec (.dieOvertemp sd temp) s = .next
      ((s.wr (Rg.powerTemp sd) Fd.powerTempDie temp.toNat).sideFault sd (unitAddr 5 sd 0x1F))) ∧
    (∀ sd (temp : BitVec 16), temp.toInt ≤ 1150 →
      exec (.dieOvertemp sd temp) s = .next (s.wr (Rg.powerTemp sd) Fd.powerTempDie temp.toNat)) ∧
    (∀ sd (rail : Fin 8) (mv dev : BitVec 16) (r t : State), r = s.putReg (Rg.rail sd rail.val) (mv.toNat * 65536 + dev.toNat) →
        t = r.wr (Rg.regionStatus sd) Fd.regionStatusRailDev (r.worstRail sd) →
      min 255 (dev.toInt.natAbs / 10) ≤ r.worstRail sd ∧ exec (.railFault sd rail mv dev) s =
        .next (if 300 < dev.toInt.natAbs then (t.setFlag (Rg.regionStatus sd) Fd.regionStatusWarn true).sideFault sd (unitAddr 6 sd 0x1E) else t)) ∧
    (∀ sd cause, (s.side sd).role ≠ .out → ((s.demote sd cause).side sd).role = .out ∧ ((s.demote sd cause).duty sd).demote = true ∧
      ((s.demote sd cause).side sd.other).role = (s.side sd.other).role) ∧
    (∀ sd (t : State), t = (((s.setFlag (Rg.sideSelf sd) Fd.sideSelfArbSeen false).unitFailed sd 0x1F).modDuty sd fun d =>
        { d with leaveAt := some (s.now + 1, rcSelf), inDown := true }) →
      (s.flag (Rg.sideSelf sd.other) Fd.sideSelfArbSeen = true → exec (.arbLinkLoss sd) s = .next t) ∧
      (s.flag (Rg.sideSelf sd) Fd.sideSelfArbSeen = true → s.flag (Rg.sideSelf sd.other) Fd.sideSelfArbSeen = false → (s.side sd).role ≠ .out →
        exec (.arbLinkLoss sd) s = .next (t.splitOutcome sd 4))) ∧
    (∀ sd, exec (.watchdogExpiry sd) s = .next (s.modDuty sd fun d => { d with leaveAt := some (s.now + 1, 16 + rcSelf) })) ∧
    (∀ sd ns, (s.duty sd.other).demote = true → (s.side sd).role = .standby → (s.duty sd).sealAt = none → (s.duty sd).promoteAt = none →
      s.mayPromote sd = true →
      (203000 ≤ ns → exec (.peerDemotionLearned sd ns) s =
        .next ((s.modDuty sd fun d => { d with sealAt := some (s.now + 1) }).splitOutcome sd 5)) ∧
      (ns < 203000 → (s.duty sd).computed = s.now → exec (.peerDemotionLearned sd ns) s =
        .next ((s.modDuty sd fun d => { d with promoteAt := some (s.now + 1) }).splitOutcome sd 5)) ∧
      (ns < 3000 → (s.duty sd).computed ≠ s.now → s.open_ = true →
        exec (.peerDemotionLearned sd ns) s = .next ((s.selfSeal sd).splitOutcome sd 5))) ∧
    (∀ k : BitVec 8, k.toNat ≤ 25 → exec (.tempDiffWarn k) s = .next
      ((s.wr (Rg.regionStatus .A) Fd.regionStatusTempDiff k.toNat).wr (Rg.regionStatus .B) Fd.regionStatusTempDiff k.toNat)) ∧
    (∀ k : BitVec 8, 25 < k.toNat → ∃ t, exec (.tempDiffWarn k) s = .next t ∧
      ∀ sd, t.flag (Rg.regionStatus sd) Fd.regionStatusWarn = true ∧ t.rd (Rg.regionStatus sd) Fd.regionStatusTempDiff = k.toNat) ∧
    (∀ sd off k, (s.duty sd).resync.guarded = some k → s.now ≤ k + 48000 → (s.side sd).role = .out → off.natAbs ≤ 1000 → exec (.timeGuardRetry sd off) s =
      .next ((s.modDuty sd fun d => { d with t0Off := off }).autoJoin sd)) ∧
    (∀ sd off k, (s.duty sd).resync.guarded = some k → s.now ≤ k + 48000 → (s.side sd).role = .out → 1000 < off.natAbs → exec (.timeGuardRetry sd off) s =
      .next (s.modDuty sd fun d => { d with t0Off := if 1000000 < off.natAbs then 0 else off })) ∧
    (∀ sd loss, (s.side sd).role = .standby → ((s.leaveStep sd loss).side sd).role = .joining ∧
      (s.leaveStep sd loss).flag (Rg.bellStatus sd) Fd.bellStatusUnsealed = true ∧ ((s.leaveStep sd loss).duty sd).byLoss = loss) ∧
    (s.refBeyond = true → exec (.t0DriftLimit false) s = .next s.loseLock) ∧
    (s.refBeyond = false → s.sideA.role = .active → s.sideB.role = .standby → exec (.t0DriftLimit false) s =
      .next ((s.setFlag (Rg.regionStatus .B) Fd.regionStatusWarn true).leaveStep .B false)) ∧
    (s.pairMode = 1 → s.pair.role = 2 → exec (.t0DriftLimit true) s = .next
      { (s.setFlag (Rg.regionStatus .A) Fd.regionStatusWarn true).setFlag (Rg.regionStatus .B) Fd.regionStatusWarn true with
        pair := { s.pair with role := 3, drifted := true } }) ∧
    (s.xlink.unlocked = true → s.refBeyond = true → exec .crosslinkRecover s = .next s) ∧
    (s.xlink.unlocked = true → s.refBeyond = false → ∃ t, exec .crosslinkRecover s = .next t ∧ t.xlink.unlocked = false) ∧
    (s.xlink.unlocked = false → (s.duty .A).splitOut = false → (s.duty .B).splitOut = true →
      exec .crosslinkRecover s = .next ((s.trainLink s.xlink.trusted).autoJoin .B)) ∧
    ((s.trainLink false).xlink.link = none ∧ (s.trainLink true).xlink.link ≠ none) ∧
    (∀ sd, (s.side sd).role = .joining → s.phase sd = 1 → s.now < (s.duty sd).resync.start + 2400 →
      exec (.resyncBulkDone sd) s = .next (s.wr (Rg.resyncStatus sd) Fd.resyncStatusPhase 2)) ∧
    (∀ sd, (s.side sd).role ≠ .joining → s.pairMode = 1 → s.pair.role = 4 → s.pair.join.phase = 1 → s.now < s.pair.join.start + 2400 →
      exec (.resyncBulkDone sd) s = .next { s with pair := { s.pair with join := { s.pair.join with phase := 2 } } }) ∧
    (∀ sd, (s.side sd).role = .joining → s.attemptOver sd = true → exec (.resyncAttemptFail sd) s = .next (s.attemptFail sd)) ∧
    (∀ sd, (s.side sd).role = .joining → ((s.attemptFail sd).side sd).role = .out) ∧
    (∀ sd k, (s.duty sd).resync.retryAt = some k → k ≤ s.now → exec (.resyncRetry sd) s = .next (s.autoJoin sd)) ∧
    (s.pairMode = 1 → s.xlinkUp .A = true → s.xlinkUp .B = true →
      (s.pair.role = 2 → exec .smirnelLoss s = .next { s with pair := { s.pair with role := 3 } }) ∧
      (s.pair.role = 1 → exec .smirnelLoss s = .next { s with pair := { s.pair with role := 0 } })) ∧
    (s.pairMode = 1 → s.pair.role = 2 →
      (s.active = none → exec .pairDemotionNotice s = .next { s with pair := { s.pair with role := 1 } }) ∧
      (∀ a, s.active = some a → (s.duty a).missed ≠ some s.now → (s.duty a).computed ≠ s.now → s.open_ = true →
        exec .pairDemotionNotice s = .next { s.selfSeal a with pair := { (s.selfSeal a).pair with role := 1 } }) ∧
      (∀ a, s.active = some a → (s.duty a).computed = s.now → exec .pairDemotionNotice s =
        .next { s.modDuty a (fun d => { d with promoteAt := some (s.now + 1) }) with pair := { s.pair with role := 1 } }) ∧
      (∀ a, s.active = some a → (s.duty a).missed = some s.now → (s.duty a).computed ≠ s.now → exec .pairDemotionNotice s =
        .next { s.modDuty a (fun d => { d with sealAt := some (s.now + 1) }) with pair := { s.pair with role := 1 } })) ∧
    (s.pairMode = 1 → s.egressOk = false → 2 ≤ s.pair.portsBad → s.pair.egressStop = false → exec .egressFaultStop s = .next
      (({ s with pair := { s.pair with egressStop := true } } : State).moduleReport evEgressStop 0 (zeros 16))) ∧
    (∀ d fa fb, s.drill = some d → s.now < d.tick + 3 →
      exec (.drillVerdict fa fb) s = .next { s with drill := some { d with verdict := some (fa, fb) } }) ∧
    (∀ d fa fb, s.drill = some d → d.tick + 3 ≤ s.now → exec (.drillVerdict fa fb) s = .next
      (({ s with drill := some { d with verdict := some (fa, fb) } } : State).drillOutcome { d with verdict := some (fa, fb) } fa fb)) ∧
    (∀ sd a, s.active = some a → exec (.migrationNotice sd) s =
      .next (s.modSide a.other fun x => { x with withheld := (x.withheld ++ (s.duty sd).named s.now).eraseDups }))

/-- R19 to R24, R226 to R229, R338 to R351, R360: the Arbiter, the field channels and the safety instances.
Rows whose condition does not hold change nothing (log entry 9). -/
def Obligations.FieldEvents : Prop :=
  ∀ (s : State),
    (∀ sd, s.arb.seen sd = (s.side sd).role → s.arb.dem sd = (s.duty sd).demote → exec (.roleClaimChange sd) s = .next s) ∧
    (∀ sd, s.arb.seen sd ≠ (s.side sd).role → exec (.roleClaimChange sd) s = .next
      ((({ s with arb := s.arb.see sd (s.side sd).role (s.duty sd).demote } : State).modSide sd.other fun x =>
        { x with peerRole := (s.side sd).role }).watchRoles)) ∧
    (s.arb.window = 0 → s.arb.follow = none → s.watchRoles = { s with arb := { s.arb with follow := s.followNow, rival := false } }) ∧
    (∀ f, s.arb.window = 0 → s.arb.follow = some f → (s.arb.claims f = false ∨ (s.arb.claims f.other = true ∧ s.arb.rival = false)) →
      s.watchRoles.arb.window = 2 ∧ s.watchRoles.arb.before = some f ∧ s.watchRoles.arb.follow = some f ∧
        s.watchRoles.flag Rg.arbWindow Fd.arbWindowOpen = true) ∧
    (∀ f, s.arb.window = 0 → s.arb.follow = some f → s.arb.claims f = true → (s.arb.claims f.other = false ∨ s.arb.rival = true) →
      s.watchRoles = { s with arb := { s.arb with rival := s.arb.claims f.other } }) ∧
    (s.arb.window ≠ 0 → s.watchRoles = s) ∧
    (∀ sd ns, ∃ t, exec (.arbTickPulse sd ns) s = .next t ∧ t.arb.pulse sd = (s.now, ns) ∧ t.sideA.role = s.sideA.role ∧
      t.sideB.role = s.sideB.role ∧ t.modActive = s.modActive ∧ t.safeActive = s.safeActive) ∧
    (∀ sd, s.arb.silent sd = false → ((s.arb.pulse sd).1 + 2 ≤ s.now ∨ (s.arb.alive sd).2 + 2 ≤ s.now) →
      ∀ t : State, t = ((({ s with arb := s.arb.setSilent sd true } : State).setFlag (Rg.sideSelf sd.other) Fd.sideSelfPeerSeen false).wr
        Rg.arbTickSkew Fd.arbTickSkewSkew 0).watchRoles →
      (((t.side sd).role = .standby ∨ (t.side sd).role = .joining) → (t.side sd.other).role = .active →
        ∃ u, exec (.arbSideSilent sd) s = .next u ∧ (u.side sd).role = .out ∧ (u.side sd.other).role = .active) ∧
      ((t.side sd.other).role ≠ .active → exec (.arbSideSilent sd) s = .next t)) ∧
    (s.arb.noImage = false → 48 ≤ s.arb.without + b2n (!s.arb.applied) → exec .noImageTimeout s = .next
      ((({ s with arb := { s.arb with noImage := true } } : State).setFlag Rg.arbWindow Fd.arbWindowNoImage true).arbSettle)) ∧
    (∀ n, 1 ≤ n → n ≤ 32 → (s.imageLoss.ch n).on = false) ∧
    (∀ n, 1 ≤ n → n ≤ 32 → (s.arbSettle.ch n).on = true → (s.arbSettle.ch n).short = false ∧ (s.arbSettle.ch n).retrying = false ∧
      s.arb.noImage = false) ∧
    (∀ (ch : Fin 32) level tick us, ((s.ch (ch.val + 1)).level = level ∨ s.power.mode = .off ∨ s.power.mode = .parked) →
      exec (.fieldEdgeAccept ch level tick us) s = .next s) ∧
    (∀ (ch : Fin 32) (level : Bool) (tick : DWord) (us : BitVec 8) (c : ArbCh), c = s.ch (ch.val + 1) → c.level ≠ level → s.instRecs = [] →
      s.power.mode ≠ .off → s.power.mode ≠ .parked → (s.fioMode (ch.val + 1) = 1 ∨ s.fioMode (ch.val + 1) = 2) →
      exec (.fieldEdgeAccept ch level tick us) s = .next
        ((s.putCh (ch.val + 1) { c with
          level := level, changed := true, multi := c.changed, broken := c.broken && !level
          tagTick := if c.changed then c.tagTick else tick.toNat, tagUs := if c.changed then c.tagUs else us.toNat }).arbSettle)) ∧
    (∀ (ch : Fin 32) (c : ArbCh), c = s.ch (ch.val + 1) →
      (c.on = true → c.retries < 3 →
        exec (.outputShort ch) s = .next ((s.putCh (ch.val + 1) { c with on := false, openLoad := false, retrying := true }).settleFrom s.onMask)) ∧
      (c.on = true → 3 ≤ c.retries → exec (.outputShort ch) s = .next
        (((s.putCh (ch.val + 1) { c with on := false, openLoad := false, retrying := false, short := true }).putReg Rg.fioFault
          (s.regWord Rg.fioFault ||| 2 ^ ch.val)).settleFrom s.onMask)) ∧
      (c.retrying = true → exec (.shortRetry ch) s = .next
        ((s.putCh (ch.val + 1) { c with retrying := false, retries := c.retries + 1 }).arbSettle)) ∧
      (c.on = true → c.retrying = false → exec (.shortRetryClear ch) s = .next (s.putCh (ch.val + 1) { c with retries := 0 })) ∧
      (bit (u8 (s.fioRec (ch.val + 1)) 2) 1 = true → c.on = true → s.supply = 2 → exec (.openLoadDetect ch) s = .next
        ((s.putCh (ch.val + 1) { c with openLoad := true }).putReg Rg.fioFault (s.regWord Rg.fioFault ||| 2 ^ ch.val))) ∧
      ((c.on = false ∨ s.supply = 2) → exec (.openLoadClear ch) s = .next (s.putCh (ch.val + 1) { c with openLoad := false })) ∧
      (c.on = true → s.supply ≠ 2 → exec (.openLoadClear ch) s = .next s) ∧
      (bit (u8 (s.fioRec (ch.val + 1)) 2) 0 = true → (s.fioMode (ch.val + 1) = 1 ∨ s.fioMode (ch.val + 1) = 2) → s.supply = 2 →
        (c.level = false → exec (.wireBreakDeclare ch) s = .next (((s.putCh (ch.val + 1) { c with broken := true }).putReg Rg.fioFault
          (s.regWord Rg.fioFault ||| 2 ^ ch.val)).arbSettle)) ∧
        exec (.wireBreakClear ch) s = .next ((s.putCh (ch.val + 1) { c with broken := false }).arbSettle))) ∧
    (∀ v : BitVec 16, exec (.fieldSupplyChange v) s = .next
      (((s.wr Rg.fioSupply Fd.fioSupplyVoltage v.toNat).wr Rg.fioSupply Fd.fioSupplyState (supplyOf s.supply v.toNat)).arbSettle)) ∧
    (supplyOf 0 1949 = 1 ∧ supplyOf 0 1950 = 2 ∧ supplyOf 0 1029 = 0 ∧ supplyOf 2 1920 = 2 ∧ supplyOf 2 1919 = 1 ∧ supplyOf 1 999 = 0) ∧
    (∀ (i : Fin 32) r, s.instRecs.find? (fun e => e.1 == i.val) = some (i.val, r) →
      ((sfFunc r = 2 ∨ sfFunc r = 3) → (s.inst i.val).edges ≠ [] →
        (∀ (mark : State → Nat → State), mark = (fun t n => (t.putCh n { t.ch n with discrepant := true }).putReg Rg.fioFault
            (t.regWord Rg.fioFault ||| 2 ^ (n - 1))) →
          exec (.discrepancyTimeout i) s = .next (((mark (mark s (sfPair r).1) (sfPair r).2).putInst i.val
            { s.inst i.val with latched := true, cause := 2, disc := true, safeSeen := false, edges := [] }).arbSettle))) ∧
      (sfFunc r = 4 → s.feedbackOk r (s.ch (sfOutput r)).on = false → exec (.feedbackTimeout i) s = .next
        ((((s.putCh (u8 r 8) { s.ch (u8 r 8) with feedback := true }).putReg Rg.fioFault
          (s.regWord Rg.fioFault ||| 2 ^ (u8 r 8 - 1))).latch i.val 3).arbSettle)) ∧
      (s.hwPermit i.val r ≠ (s.inst i.val).proc → exec (.permitDisagreeTimeout i) s = .next ((s.latch i.val 4).arbSettle))) ∧
    (∀ i cause, ((s.latch i cause).inst i).latched = true) ∧
    (∀ o : Word, s.unlocked o.toNat = false → exec (.safeUnlockExpiry o) s = .next { s with unlocks := Tbl.del s.unlocks o.toNat }) ∧
    (s.lockedOut = false → exec .safeLockoutEnd s = .next { s with safeLockout := none })

/-! ## Events of the tick, the streams, the scan -/

/-- R32 to R63: TICK_START, the bell at the side that adopts it, the digests compared; R62: their commands.
Rows whose condition does not hold change nothing (log entry 9). The order within a tick of the model is log entry 13; what READ_BELL and READ_DIGESTS reach is log entries 77 and 78. -/
def Obligations.TickAndBell : Prop :=
  ∀ (s : State),
    (∀ w : DWord, w.toNat ≤ s.now → s.power.mode = .service → s.staged = none → exec (.tickStart w) s = .next s) ∧
    (∀ (w : DWord) (u : State), s.tickOk w.toNat = true → u = ((s.closeTick.countImage (if s.closeTick.stepDue.isSome then 1 else w.toNat - s.now)).turn w.toNat).newSecond s.now →
      (u.power.mode = .service → (∀ t, u.power.stopAt = some t → w.toNat < t) → exec (.tickStart w) s = .next (u.openTick w.toNat).readQueues) ∧
      (u.power.mode = .service → (∃ t, u.power.stopAt = some t ∧ t ≤ w.toNat) → exec (.tickStart w) s = .next (u.haltTick w.toNat)) ∧
      (u.power.mode = .booting → exec (.tickStart w) s = .next (u.settleCrosslink.timers.runUnlisted w.toNat).readQueues) ∧
      (u.power.mode = .off ∨ u.power.mode = .parked ∨ u.power.mode = .stopping → exec (.tickStart w) s = .next u)) ∧
    (∀ w, s.staged = none → s.turn w = { s with now := w }) ∧
    s.closeTick.open_ = false ∧
    (∀ w, (s.haltTick w).power.mode = .stopping) ∧
    (∀ sd ns b, s.bellSent sd = some b → s.open_ = true → (s.duty sd).computed ≠ s.now → s.adopts sd = true → s.bellOk sd b = true →
      (s.duty sd).missed ≠ some s.now → ns ≤ 3000 → s.bellCarried sd = true →
      exec (.bellReceive sd true ⟨ns, none⟩) s = .next (s.adoptBell sd b ns)) ∧
    (∀ sd b ns, ((s.adoptBell sd b ns).duty sd).computed = s.now) ∧
    (∀ sd ns x, exec (.bellReceive sd false ⟨ns, x⟩) s = .next s) ∧
    (∀ sd ns e, s.pairMode ≠ 1 → exec (.bellReceive sd true ⟨ns, some e⟩) s = .next s) ∧
    (∀ sd ns, s.bellCarried sd = false → exec (.bellReceive sd true ⟨ns, none⟩) s = .next s) ∧
    (∀ sd ns, (s.side sd).role = .standby → 3000 < ns → exec (.bellReceive sd true ⟨ns, none⟩) s = .next s) ∧
    (∀ sd ns b, s.bellSent sd = some b → (s.side sd).role = .standby → s.bellOk sd b = false → exec (.bellReceive sd true ⟨ns, none⟩) s = .next s) ∧
    (∀ sd, s.open_ = true → (s.side sd).role = .standby → (s.duty sd).computed ≠ s.now → (s.duty sd).missed ≠ some s.now →
      ∃ t, exec (.bellDeadline sd) s = .next t ∧ (t.side sd).role = .joining ∧ t.flag (Rg.bellStatus sd) Fd.bellStatusUnsealed = true ∧
        t.rd (Rg.bellStatus sd) Fd.bellStatusMissRun = min 3 (s.rd (Rg.bellStatus sd) Fd.bellStatusMissRun + 1) ∧
        (t.duty sd).missed = some s.now ∧ (t.duty sd).unheard = (s.duty sd).unheard + 1) ∧
    (∀ sd, s.open_ = false → exec (.bellDeadline sd) s = .next s) ∧
    (∀ sd, 3 ≤ (s.duty sd).unheard → (s.duty sd).lost = false → (s.side sd).role = .joining →
      (s.duty sd).promoteAt = none → exec (.bellLoss sd) s = .next
        (((s.sideReport sd evBellLoss (beBytes 8 s.now ++ zeros 8)).modDuty sd fun d => { d with lost := true }).bellLost sd)) ∧
    (∀ sd, (s.duty sd).unheard < 3 → exec (.bellLoss sd) s = .next s) ∧
    (s.open_ = false → exec .digestEcho s = .next s) ∧
    (∀ (x y : DigestSet), s.open_ = true → s.sideA.role = .active → s.sideB.role = .standby → s.drill = none →
      s.sideA.duty.digests.find? (fun d => d.tick == s.now - 1) = some x → s.sideB.duty.digests.find? (fun d => d.tick == s.now - 1) = some y →
      s.namedStalls (s.now - 1) = [] → 0 < s.now → readEcho (echoBytes y) = some y →
      ((∀ t < 64, digestClash x y t = false) → exec .digestEcho s = .next (s.modDuty .B fun d => { d with echo := echoBytes y })) ∧
      ((∃ t < 64, digestClash x y t = true) → ∃ t, exec .digestEcho s = .next t ∧
        t.drill = some ⟨s.now - 1, listSum (((List.range 64).filter fun k => digestClash x y k).map fun k => 2 ^ k), none⟩ ∧
        (∀ sd, t.flag (Rg.bellStatus sd) Fd.bellStatusDrill = true ∧ t.flag (Rg.drillStatus sd) Fd.drillStatusActive = true) ∧
        (∀ k < 64, digestClash x y k = true → k ∈ t.sideB.withheld))) ∧
    (∀ (x y : DigestSet) (t : Nat), digestClash x y t = true ↔
      bit x.valid t ≠ bit y.valid t ∨ (bit x.valid t = true ∧ x.values.getD t 0 ≠ y.values.getD t 0)) ∧
    Reads .readTick specReadTick (fun _ _ _ => True) (fun s h _ =>
      beBytes 8 s.now ++ beBytes 8 (tickStart s.now / 1000000000) ++ beBytes 4 (tickStart s.now % 1000000000) ++ beBytes 2 (s.now % 4800)
        ++ beBytes 1 s.sealDelay ++ beBytes 1 (s.side h.side).role.code) ∧
    (∀ b, Reads .readBell specReadBell (fun s h p => (s.duty h.side).bells.find? (fun e => e.1 == u64 p 0) = some (u64 p 0, b)) (fun _ _ _ => b)) ∧
    Refuses .readBell specReadBell (fun s h p => (s.duty h.side).bells.find? (fun e => e.1 == u64 p 0) = none) .range ∧
    Reads .readDigests specReadDigests
      (fun s h p => u64 p 0 < s.now ∧ s.now ≤ u64 p 0 + 16 ∧ (s.side h.side.other).role ≠ .out)
      (fun s _ p => beBytes 8 (u64 p 0) ++ (s.digestsOf .A (u64 p 0) ++ s.digestsOf .B (u64 p 0))) ∧
    SetsRecord .setSealDelay specSetSealDelay (fun p => decide (1 ≤ u8 p 0 ∧ u8 p 0 ≤ 24)) 0x01 (fun _ => 0)
      (fun s p => patch s.modShadow.timeRec 0 (p.take 1))

/-- R68 to R79, R95 to R102, R127, R128: streams, comparators and chains, failed cores and clusters, tallies.
Rows whose condition does not hold change nothing (log entry 9). The place of check 12 is log entry 36. -/
def Obligations.StreamAndScanEvents : Prop :=
  ∀ (s : State),
    (∀ sd port (f : SvFrame) arr, (∀ e ∈ s.subs, u48 e.2 4 ≠ f.dst.toNat ∨ u16 e.2 10 ≠ f.appId.toNat) →
      exec (.svFrameIntake sd port f arr) s = .next s) ∧
    (∀ sd port (f : SvFrame) arr k r, s.svStream f = (true, some (k, r)) →
      (2048 < f.length → exec (.svFrameIntake sd port f arr) s = .next (s.svDiscardFor sd (some k) .length)) ∧
      (f.length ≤ 2048 → (∃ q, f.redundancy = some q ∧ s.dupSeen sd f.src.toNat q.toNat = true) →
        exec (.svFrameIntake sd port f arr) s = .next (s.svDiscardFor sd (some k) .dupPrp)) ∧
      (f.length ≤ 2048 → (∀ q, f.redundancy = some q → s.dupSeen sd f.src.toNat q.toNat = false) →
        (∀ why, s.svCheck sd r f = some why → exec (.svFrameIntake sd port f arr) s = .next (s.svDiscardFor sd (some k) why)) ∧
        (s.svCheck sd r f = none → exec (.svFrameIntake sd port f arr) s = .next (s.svFile sd k r f arr)))) ∧
    (∀ sd (f : SvFrame) r, (f.wellFormed = false → s.svCheck sd r f = some .format) ∧
      (s.svCheck sd r f = none → f.asdus.length = u8 r 13 ∧ f.sim = subFlag r 4 ∧
        ∀ a ∈ f.asdus, a.svId = subSvid r ∧ a.confRev.toNat = u32 r 16 ∧ a.smpCnt.toNat < subWrap r)) ∧
    (∀ sd slot, (s.svDiscardFor sd slot .length) = match slot with
      | none => s.tick1 (Rg.svDiscard sd SvReason.length.index) Fd.svDiscardCount
      | some k => (s.tick1 (Rg.svDiscard sd SvReason.length.index) Fd.svDiscardCount).tick1 (Rg.streamErr sd k) Fd.streamErrDiscarded) ∧
    (∀ sd (slot : Fin 1024) (reason : BitVec 4) start, Tbl.find (s.stream sd slot.val).runs reason.toNat = some (start, false) →
      (s.now < start + 47 → exec (.svFailureRun sd slot reason) s = .next s) ∧
      (start + 47 ≤ s.now → exec (.svFailureRun sd slot reason) s = .next
        (((s.putStream sd slot.val { s.stream sd slot.val with runs := Tbl.put (s.stream sd slot.val).runs reason.toNat (start, true) }).setFlag
          (Rg.streamState sd slot.val) (if reason.toNat = 9 then Fd.streamStateAuthBad else Fd.streamStateIdBad) true).crier sd evSvFailure 1 0 0
            (beBytes 2 slot.val ++ beBytes 1 reason.toNat ++ zeros 13)))) ∧
    (∀ sd (slot : Fin 1024) r, s.modActive.get 0x04 slot.val = some r → s.streamState sd slot.val = stPresent →
      (u8 r 15 ≤ s.rd (Rg.streamState sd slot.val) Fd.streamStateMissRun → exec (.streamAbsent sd slot) s = .next
        ((s.wr (Rg.streamState sd slot.val) Fd.streamStateState stAbsent).putStream sd slot.val { s.stream sd slot.val with held := [] })) ∧
      (s.rd (Rg.streamState sd slot.val) Fd.streamStateMissRun < u8 r 15 → exec (.streamAbsent sd slot) s = .next s)) ∧
    (∀ sd src no kept, kept = (Tbl.getD (s.side sd).dups src.toNat []).filter (fun e => !(e.1 == no.toNat && decide (e.2 + 1920 ≤ s.now))) →
      exec (.dupEntryExpiry sd src no) s = .next
        (s.modSide sd fun x => { x with dups := Tbl.set x.dups src.toNat (if kept.isEmpty then none else some kept) })) ∧
    (∀ sd (ch : Fin 8192) (i : Fin 4) x r c, s.chain sd ch.val = some x → s.modActive.get 0x05 ch.val = some r →
      c = x.comps.getD i.val CompSt.empty →
      (∀ (fires : Nat → Nat → Bool → State), fires = (fun dir frac picked =>
          (s.putChain sd ch.val { x with
            comps := x.comps.set i.val { c with picked := picked, run := 0 }
            status := u32 (stampEvent (idleRecord x.status) i.val dir frac picked) 36 }).stampRecord sd ch.val
              fun b => stampEvent b i.val dir frac picked) →
        (c.picked = false → cmpP (chComp r i.val) ≤ c.run → exec (.comparatorPickup sd ch i) s =
          .next (fires 1 (crossing c.hist (cmpP (chComp r i.val)) (cmpTh (chComp r i.val))) true)) ∧
        (c.picked = true → exec (.comparatorPickup sd ch i) s = .next s) ∧
        (c.picked = true → cmpQ (chComp r i.val) ≤ c.run → exec (.comparatorDropout sd ch i) s =
          .next (fires 0 (crossing c.hist (cmpQ (chComp r i.val)) (cmpHold (chComp r i.val))) false)) ∧
        (c.run < cmpQ (chComp r i.val) → exec (.comparatorDropout sd ch i) s = .next s))) ∧
    (∀ sd (ch : Fin 8192) x, s.chain sd ch.val = some x →
      (∀ c, s.modActive.chainCfg ch.val = some c → x.state = 1 → c.win + c.settle ≤ x.m → x.clean ≤ x.m →
        exec (.chainSettled sd ch) s = .next (s.putChain sd ch.val { x with
          state := 2, prevCoarse := false, status := setBits (setBits x.status 14 12 0) 14 14 0 })) ∧
      (x.state = 2 → bit x.status 13 = true → x.clean ≤ x.m → exec (.settlingEnd sd ch) s = .next (s.putChain sd ch.val { x with
          prevCoarse := false, pref := x.fine, status := setBits x.status 13 12 0 })) ∧
      (x.m < x.clean → exec (.settlingEnd sd ch) s = .next s)) ∧
    (∀ stall : Fin 64, s.abortLimit stall.val ≠ 0 → s.abortLimit stall.val ≤ Tbl.getD s.tally stall.val 0 → s.stallState stall.val = stRunning →
      (∀ m ∈ s.notices, m.ty ≠ ntStallReset ∨ m.stall ≠ stall.val) →
      exec (.tallyLimit stall) s = .next { s with notices := s.notices ++ [⟨ntStallReset, stall.val, 0, s.now + 1, true⟩] }) ∧
    (∀ stall : Fin 64, Tbl.getD s.tally stall.val 0 < s.abortLimit stall.val → exec (.tallyLimit stall) s = .next s) ∧
    (∀ c : CoreRef, (s.coreSt c.side c.core.val).cur = none → exec (.windowAbort c) s = .next s) ∧
    (∀ c : CoreRef, s.flag (Rg.clusterMap c.side (c.core.val / 8)) Fd.clusterMapSpareUsed = false →
      ∃ t, exec (.coreFailure c) s = .next t ∧ t.flag (Rg.clusterMap c.side (c.core.val / 8)) Fd.clusterMapSpareUsed = true ∧
        t.rd (Rg.clusterMap c.side (c.core.val / 8)) Fd.clusterMapIdlePos = c.core.val % 8 ∧
        (t.coreSt c.side c.core.val).cur = none ∧ (t.coreSt c.side c.core.val).queue = [] ∧
        (t.duty c.side).demote = (s.duty c.side).demote) ∧
    (∀ (c : CoreRef) (a : Act), (s.coreSt c.side c.core.val).cur = some a →
      s.flag (Rg.clusterMap c.side (c.core.val / 8)) Fd.clusterMapSpareUsed = false →
      ∃ t, exec (.windowAbort c) s = .next t ∧ (t.coreSt c.side c.core.val).cur = none ∧
        t.flag (Rg.clusterMap c.side (c.core.val / 8)) Fd.clusterMapSpareUsed = true ∧
        (t.taskSt c.side a.stall a.task).held = true ∧ (t.taskSt c.side a.stall a.task).ret = (s.taskSt c.side a.stall a.task).ret) ∧
    (∀ sd (l : Fin 10) bad u, u = (s.logFault sd (unitAddr 4 sd (3 + s.physCluster sd l.val)) 0).discardCluster sd l.val →
      ((u.side sd).health.migrating.length < u.rd (Rg.healthSpares sd) Fd.healthSparesSpareClusters →
        exec (.clusterFailure sd l bad) s = .next (u.modHealth sd fun h => { h with migrating := h.migrating ++ [(l.val, bad)] })) ∧
      (u.rd (Rg.healthSpares sd) Fd.healthSparesSpareClusters ≤ (u.side sd).health.migrating.length →
        exec (.clusterFailure sd l bad) s = .next ((u.unitFailed sd (3 + s.physCluster sd l.val)).demote sd rcSelf)))

/-! ## Events of publications, telegrams, the switch, time -/

/-- R203 to R210, R353 to R358: GOOSE repeats, received frames in the order of the checks, expiry; telegrams and watchdog.
The row of a repeat sets it due with the publish tick in progress; the Collect phase of that tick sends it, unless a change replaces it.
Rows whose condition does not hold change nothing (log entry 9). -/
def Obligations.GooseAndTelegramEvents : Prop :=
  ∀ (s : State),
    (∀ sd (f : GooseFrame) ns (cnt : Nat → State), cnt = (fun i => s.tick1 (Rg.gooseDiscard sd i) Fd.gooseDiscardCount) →
      ((f.etherOk = false ∨ 1522 < f.length) → exec (.gooseFrameCheck sd f ns) s = .next (cnt 0)) ∧
      (f.etherOk = true → f.length ≤ 1522 →
        ((∃ n, f.redundancy = some n ∧ s.dupSeen sd f.src.toNat n.toNat = true) → exec (.gooseFrameCheck sd f ns) s = .next (cnt 1)) ∧
        ((∀ n, f.redundancy = some n → s.dupSeen sd f.src.toNat n.toNat = false) →
          (f.wellFormed = false → exec (.gooseFrameCheck sd f ns) s = .next (cnt 2)) ∧
          (f.wellFormed = true →
            (s.gooseTarget f = none → (∃ e ∈ s.gooseSubRecs, u48 e.2 4 = f.dst.toNat ∧ u16 e.2 10 = f.appId.toNat) →
              exec (.gooseFrameCheck sd f ns) s = .next (cnt 3)) ∧
            (∀ j r, s.gooseTarget f = some (j, r) →
              (∀ i, s.gooseCheck sd r f = some i → exec (.gooseFrameCheck sd f ns) s = .next (cnt i)) ∧
              (s.gooseCheck sd r f = none →
                (s.gooseSeq sd j f.stNum.toNat f.sqNum.toNat = .bad → exec (.gooseFrameCheck sd f ns) s = .next (cnt 8)) ∧
                (s.gooseSeq sd j f.stNum.toNat f.sqNum.toNat = .change →
                  exec (.gooseFrameCheck sd f ns) s = .next (s.gooseAccept sd j ns f true)) ∧
                (s.gooseSeq sd j f.stNum.toNat f.sqNum.toNat = .again →
                  exec (.gooseFrameCheck sd f ns) s = .next (s.gooseAccept sd j ns f false)))))))) ∧
    (∀ sd (f : GooseFrame) r, s.gooseCheck sd r f = none → f.sim = bit (u16 r 2) 0 ∧ f.confRev.toNat = u32 r 12 ∧ f.ndsCom = false ∧
      f.members.length = u8 r 18) ∧
    (∀ sd j (f : GooseFrame) ns, ∃ a, ((s.gooseAccept sd j ns f true).gooseAccOf sd j) = some a ∧ a.stNum = f.stNum.toNat ∧
      a.sqNum = f.sqNum.toNat ∧ a.values = f.members ∧ a.fresh = true ∧ a.ingress = ns ∧ a.talMs = f.talMs) ∧
    (∀ sd j st sq a, s.gooseAccOf sd j = some a → (∀ x, s.gooseSub j = some x → x.expired = false) →
      (s.gooseSeq sd j st sq = .change ↔ 1 ≤ (st + 4294967296 - a.stNum) % 4294967296 ∧ (st + 4294967296 - a.stNum) % 4294967296 ≤ 2147483647)) ∧
    (∀ sd (i : Fin 512), Tbl.find (s.side sd).goosePubs i.val = none → exec (.gooseRepeat sd i) s = .next s) ∧
    (∀ sd (i : Fin 512) x, Tbl.find (s.side sd).goosePubs i.val = some x →
      (s.now + 1 < x.due → exec (.gooseRepeat sd i) s = .next s) ∧
      (x.due ≤ s.now + 1 → exec (.gooseRepeat sd i) s = .next (s.modSide sd fun y =>
        { y with goosePubs := Tbl.put y.goosePubs i.val { x with due := s.now + 1 } }))) ∧
    (∀ sd (i : Fin 512) stall r x image y, Tbl.find (s.side sd).goosePubs i.val = some x → x.due ≤ s.now + 1 →
      Tbl.find (s.side sd).presented (taskKey stall (u8 r 3)) = some image → gpFlag r 0 = true → x.enc = (gpMembers r).map (memberCore image) →
      y = { x with sqNum := wrapUp x.sqNum, interval := min (2 * x.interval) (u16 r 20), due := s.now + 1 + min (2 * x.interval) (u16 r 20) } →
      ∃ t, exec (.gooseRepeat sd i) s = .next t ∧ t.collectGoose sd s.now (stall, i.val, r) =
        (t.modSide sd fun z => { z with goosePubs := Tbl.put z.goosePubs i.val y }).queueGoose sd stall i.val r y) ∧
    (∀ sd stall i r x image enc w, Tbl.find (s.side sd).presented (taskKey stall (u8 r 3)) = some image → gpFlag r 0 = true →
      enc = (gpMembers r).map (memberCore image) → Tbl.find (s.side sd).goosePubs i = some x →
      (x.enc = enc → w + 1 < x.due → s.collectGoose sd w (stall, i, r) = s) ∧
      (∀ y, x.enc = enc → x.due ≤ w + 1 → y = { x with
          sqNum := wrapUp x.sqNum, interval := min (2 * x.interval) (u16 r 20), due := x.due + min (2 * x.interval) (u16 r 20) } →
        s.collectGoose sd w (stall, i, r) = (s.modSide sd fun z => { z with goosePubs := Tbl.put z.goosePubs i y }).queueGoose sd stall i r y) ∧
      (∀ y, x.enc ≠ enc → y = ⟨wrapUp x.stNum, 0, enc, s.timestamp (w - s.sealDelay), 1, w + 2⟩ →
        s.collectGoose sd w (stall, i, r) = (s.modSide sd fun z => { z with goosePubs := Tbl.put z.goosePubs i y }).queueGoose sd stall i r y)) ∧
    (wrapUp 4294967295 = 1 ∧ wrapUp 0 = 1 ∧ wrapUp 7 = 8) ∧
    (∀ (j : Fin 2048) e, s.gooseEntry s.speaker s.now j.val = some e → bit e.2.1 0 = true → exec (.gooseSubExpiry j) s =
      .next (((s.sealGoose s.speaker s.now e).settleGoose .A e).settleGoose .B e)) ∧
    (∀ j : Fin 2048, s.gooseEntry s.speaker s.now j.val = none → exec (.gooseSubExpiry j) s = .next s) ∧
    (∀ sd lan (f : TeleFrame), (∀ e ∈ s.teleRecs 1, teleMatches e.2 f = false) → exec (.telegramReceive sd lan f) s = .next s) ∧
    (∀ sd lan (f : TeleFrame) t r, (s.teleRecs 1).find? (fun e => teleMatches e.2 f) = some (t, r) →
      (newerCounter (s.teleLast sd t) (u32 f.payload 4) = false →
        exec (.telegramReceive sd lan f) s = .next (s.tick1 (Rg.teleErrs sd t) Fd.teleErrsOld)) ∧
      (newerCounter (s.teleLast sd t) (u32 f.payload 4) = true → Tbl.find (s.side sd).teleCopies t = none →
        exec (.telegramReceive sd lan f) s = .next (s.putCopies sd t [⟨lan, u32 f.payload 4, sub f.payload 0 (16 + 4 * u8 r 16), s.now + 1⟩])) ∧
      (∀ o, newerCounter (s.teleLast sd t) (u32 f.payload 4) = true → Tbl.find (s.side sd).teleCopies t = some [o] → o.lan ≠ lan →
        o.counter = u32 f.payload 4 → s.now + 1 < o.arrival + u8 r 18 →
        (o.payload = sub f.payload 0 (16 + 4 * u8 r 16) → exec (.telegramReceive sd lan f) s = .next ((s.putCopies sd t []).modSide sd fun x =>
          { x with teleAcc := Tbl.put x.teleAcc t (u32 f.payload 4, sub f.payload 12 (4 * u8 r 16)) })) ∧
        (o.payload ≠ sub f.payload 0 (16 + 4 * u8 r 16) → exec (.telegramReceive sd lan f) s =
          .next ((s.putCopies sd t []).tick1 (Rg.teleErrs sd t) Fd.teleErrsMismatch)))) ∧
    (∀ (t : Fin 64) r, (s.teleRecs 1).find? (fun e => e.1 == t.val) = some (t.val, r) → (s.teleSub t.val).expired = false →
      (teleExpiry r (s.teleSub t.val) ≤ s.now → exec (.telegramWatchdog t) s =
        .next { s with teleSubs := Tbl.put s.teleSubs t.val { s.teleSub t.val with expired := true } }) ∧
      (s.now < teleExpiry r (s.teleSub t.val) → exec (.telegramWatchdog t) s = .next s))

/-- R16 to R18, R249 to R279, R456: reception, transmission, supervision, lanes, links, segmentation, wake registers.
Rows whose condition does not hold change nothing (log entry 9). A send that the switch does not take is answered at once; log entry 116 has the order of segments. -/
def Obligations.SwitchEvents : Prop :=
  ∀ (s : State),
    (∀ sd (p : Fin 11) f ns, s.switchPowered = true → (s.modActive.portRec sd p.val = none ∨ s.portLinked sd p.val = false) →
      exec (.frameReceive sd p f ns) s = .next s) ∧
    (∀ sd (p : Fin 11) f ns, s.switchPowered = false → p.val ≠ 10 → exec (.frameReceive sd p f ns) s = .next s) ∧
    (∀ sd (f : EthFrame) ns codes, s.switchPowered = false → codes = wakeCodes (beBytes 6 (s.regWord (Rg.wakeId sd))) f.head →
      ((f.fcsOk = false ∨ codes = []) → exec (.frameReceive sd 10 f ns) s = .next s) ∧
      (∀ want, f.fcsOk = true → want = s.regWord (Rg.wakeCode sd) → want ∈ codes →
        exec (.frameReceive sd 10 f ns) s = .next (s.wakePattern sd (s.regWord (Rg.wakeId sd)) want)) ∧
      (∀ code rest, f.fcsOk = true → s.regWord (Rg.wakeCode sd) ∉ codes → codes = code :: rest →
        exec (.frameReceive sd 10 f ns) s = .next (s.wakePattern sd (s.regWord (Rg.wakeId sd)) code))) ∧
    (∀ (id : Bytes) (front : Nat) (code : Bytes), id.length = 6 → code.length = 4 →
      wakeCodes id (List.replicate front 0 ++ List.replicate 6 255 ++ (List.replicate 16 id).flatten ++ code) = [beNat code]) ∧
    (∀ sd (p : Fin 11) (f : EthFrame) ns r c n u, s.switchPowered = true → s.modActive.portRec sd p.val = some r →
      s.portLinked sd p.val = true → f.fcsOk = true → 64 ≤ f.length → f.length ≤ prMax r →
      c = s.crossTo sd ns → n = c.rxStamp sd (p.val + 1) ns → u = (c.cnt sd p.val 0 1).cnt sd p.val 1 f.length →
      (f.pause = true → exec (.frameReceive sd p f ns) s =
        .next ((u.cnt sd p.val 6 1).mirrorFrame sd p.val (frameClass r f) false true f (n / 65536))) ∧
      (f.pause = false → p.val ≠ 0 →
        (f.tci = none → prFlag r 2 = false → exec (.frameReceive sd p f ns) s =
          .next ((u.cnt sd p.val 5 1).mirrorFrame sd p.val (frameClass r f) false true f (n / 65536))) ∧
        (∀ t, f.tci = some t → prFlag r 3 = false → exec (.frameReceive sd p f ns) s =
          .next ((u.cnt sd p.val 5 1).mirrorFrame sd p.val (frameClass r f) false true f (n / 65536))) ∧
        (((f.tci = none ∧ prFlag r 2 = true) ∨ (f.tci ≠ none ∧ prFlag r 3 = true)) → prFlag r 0 = false → f.etherType ≠ 0x88F7#16 →
          f.src.toNat ≠ s.pubMac →
          (u.classify sd p.val r f = .lost → exec (.frameReceive sd p f ns) s =
            .next ((u.cnt sd p.val 4 1).mirrorFrame sd p.val (frameClass r f) false true f (n / 65536))) ∧
          (u.classify sd p.val r f = .drop → exec (.frameReceive sd p f ns) s =
            .next (u.mirrorFrame sd p.val (frameClass r f) false true f (n / 65536))) ∧
          (∀ ports compute v, u.classify sd p.val r f = .to ports compute →
            v = u.switchAll sd r true p.val f n (((List.range 10).filter fun q => bit ports q) ++
              (if compute then [u.computePort sd f (frameClass r f)] else []) ++ (u.xlinkPort sd f (frameClass r f)).toList) →
            exec (.frameReceive sd p f ns) s = .next (v.1.mirrorFrame sd p.val (frameClass r f) false (!v.2) f (n / 65536)))))) ∧
    (∀ sd p r (f : EthFrame), f.src.toNat = s.pubMac → s.pairMode ≠ 1 → s.classify sd p r f = .pubMac) ∧
    (∀ sd p r (f : EthFrame), f.src.toNat ≠ s.pubMac → f.dst.toNat / 16 = 0x0180C200000 → s.classify sd p r f = .to 0 true) ∧
    (∀ sd p r (f : EthFrame), f.src.toNat ≠ s.pubMac → f.dst.toNat / 16 ≠ 0x0180C200000 → f.etherType ≠ 0x88F7#16 →
      s.subscribed f = false → s.fdbPorts sd r f = none → f.dst ≠ Config.stationMac sd → f.dst ≠ 0xFFFFFFFFFFFF#48 →
      s.classify sd p r f = .lost) ∧
    (∀ sd p cl x, (s.admitsFrame sd p cl x.cells = true → s.storeFrame sd p cl x = (s.joinQueue sd p cl x, true)) ∧
      (s.admitsFrame sd p cl x.cells = false → s.storeFrame sd p cl x = (s.dropFrame sd p cl, false))) ∧
    (∀ sd p cl n, s.occupancy sd p cl + n ≤ s.queueMin sd p cl → s.admitsFrame sd p cl n = true) ∧
    (∀ sd p n, s.queueMin sd p 7 < s.occupancy sd p 7 + n → s.admitsFrame sd p 7 n = false) ∧
    (∀ sd (p : Fin 16) ns, (s.portUp sd p.val = false ∨ ns < Tbl.getD (s.side sd).sw.busy p.val 0) →
      exec (.frameTransmit sd p ns) s = .next s) ∧
    (∀ sd (p : Fin 16) ns, s.switchPowered = false → exec (.frameTransmit sd p ns) s = .next s) ∧
    (∀ sd (p : Fin 16) ns cl x rest c, s.switchPowered = true → s.portUp sd p.val = true → Tbl.getD (s.side sd).sw.busy p.val 0 ≤ ns →
      cl < 8 → c = s.crossTo sd ns → c.swQueue sd p.val cl = x :: rest →
      c.gateAllows sd p.val cl (ns - tickStart s.now) (c.lineTime sd p.val x.f.length) = true →
      (∀ k, cl < k → k < 8 → c.swQueue sd p.val k = []) → exec (.frameTransmit sd p ns) s = .next (c.sendFrame sd p.val cl ns x rest)) ∧
    (∀ sd p cl ns x rest b, x.mirror = none → x.stomped = false → x.own = none → (s.side sd).sw.mirrors = [] →
      b = ((((s.putSwQueue sd p cl rest).modSide sd fun y => { y with sw := { y.sw with
        busy := Tbl.put y.sw.busy p (ns + s.lineTime sd p x.f.length) } }).endStay sd).cnt sd p 8 1).cnt sd p 9 x.f.length →
      ((p = 13 ∨ p = 14) → s.sendFrame sd p cl ns x rest = b) ∧
      (p < 11 → s.sendFrame sd p cl ns x rest = (b.transparent sd p x ns).2.emit (.forward sd (p + 1) x.f false (b.transparent sd p x ns).1))) ∧
    (∀ sd (t u : State), ((s.side sd).sw.supervised = none ∨ ∃ k, (s.side sd).sw.supervised = some k ∧ k + 9600 ≤ s.now) →
      t = s.modSide sd (fun x => { x with sw := { x.sw with supervised := some s.now } }) →
      u = ([SideId.A, SideId.B].filter fun lan => s.prpOn lan).foldl (fun v lan =>
        (v.sendSupervision sd lan s.pubMac).sendSupervision sd lan (Config.stationMac sd).toNat) t →
      ((s.side sd).role = .active → exec (.prpSupervision sd) s = .next u) ∧
      ((s.side sd).role = .standby → s.prpOn sd = true → exec (.prpSupervision sd) s =
        .next (t.sendSupervision sd sd (Config.stationMac sd).toNat)) ∧
      ((s.side sd).role = .standby → s.prpOn sd = false → exec (.prpSupervision sd) s = .next t)) ∧
    (∀ sd k, (s.side sd).sw.supervised = some k → k ≤ s.now → s.now < k + 9600 → exec (.prpSupervision sd) s = .next s) ∧
    (∀ sd, (s.netTx sd).1 = ⟨(Config.stationMac sd).toNat, (s.side sd).sw.rct, (s.side sd).role == .active && s.forwards sd.other⟩ ∧
      ((s.netTx sd).2.side sd).sw.rct = ((s.side sd).sw.rct + 1) % 65536) ∧
    (∀ sd, (s.side sd).role = .out → exec (.prpSupervision sd) s = .next s) ∧
    (∀ sd (mac : BitVec 48) t, Tbl.find (s.side sd).sw.nodes mac.toNat = some t →
      (t + 60000000000 ≤ tickStart s.now → exec (.prpNodeExpiry sd mac) s =
        .next (s.modSide sd fun x => { x with sw := { x.sw with nodes := Tbl.del x.sw.nodes mac.toNat } })) ∧
      (tickStart s.now < t + 60000000000 → exec (.prpNodeExpiry sd mac) s = .next s)) ∧
    (∀ lane, s.xlink.failing.contains lane = false → exec (.xlinkLaneFail lane) s =
      .next { s with xlink := { s.xlink with failing := s.xlink.failing ++ [lane] } }) ∧
    (∀ upper, s.xlink.restoring.contains upper = false → exec (.pathRestore upper) s =
      .next { s with xlink := { s.xlink with restoring := s.xlink.restoring ++ [upper] } }) ∧
    (∀ upper, s.xlink.restoring.contains upper = true → exec (.pathRestore upper) s = .next s) ∧
    (s.xlink.unlocked = true → ∀ upper, s.restorePath upper = s) ∧
    (∀ upper sd, s.xlink.unlocked = false → (s.restorePath upper).portLinked sd (if upper then 12 else 11) = true ∧ (s.restorePath upper).pathUp sd upper = true) ∧
    (∀ sd, s.ringCut sd = true → s.flag (Rg.swStatus sd) Fd.swStatusHsrOpen = false → exec (.hsrRingOpen sd) s = .next
      ((s.setFlag (Rg.swStatus sd) Fd.swStatusHsrOpen true).sideReport sd evHsrOpen (zeros 16))) ∧
    (∀ sd, s.ringCut sd = false → exec (.hsrRingOpen sd) s = .next s ∧ (s.settleHsr sd).flag (Rg.swStatus sd) Fd.swStatusHsrOpen = false) ∧
    (∀ sd, s.hsrOn = true → ((s.pathUp sd false = false ∧ s.pathUp sd true = false) ∨ s.forwards sd.other = false) → s.ringCut sd = true) ∧
    (∀ sd (p : Fin 16) lf rf, (p.val = 13 ∨ p.val = 14) → exec (.portLinkChange sd p false lf rf) s =
      .next ((s.portLink sd p.val false lf rf).sideFault sd (unitAddr 4 sd 0x10))) ∧
    (∀ sd (p : Fin 16) lf rf, ∃ t, exec (.portLinkChange sd p false lf rf) s = .next t ∧ t.portLinked sd p.val = false ∧
      t.flag (Rg.portStatus sd p.val) Fd.portStatusLocalFault = lf ∧ t.flag (Rg.portStatus sd p.val) Fd.portStatusRemoteFault = rf) ∧
    (∀ sd (p : Fin 16) lf rf, s.mayLink sd p.val = true → (p.val < 11 ∨ p.val = 15 ∨ s.portLinked sd p.val = true) → p.val ≠ 13 → p.val ≠ 14 →
      ∃ t, exec (.portLinkChange sd p true lf rf) s = .next t ∧ t.portLinked sd p.val = true) ∧
    (∀ sd (p : Fin 16) lf rf, (p.val = 11 ∨ p.val = 12) → s.portLinked sd p.val = false → exec (.portLinkChange sd p true lf rf) s =
      exec (.pathRestore (p.val == 12)) s) ∧
    (∀ sd (p : Fin 16) lf rf, (p.val = 13 ∨ p.val = 14) → (s.side sd).sw.down.contains p.val = true →
      exec (.portLinkChange sd p true lf rf) s = .next (s.modSide sd fun x => { x with sw := { x.sw with
        rising := x.sw.rising.filter (· != p.val) ++ [p.val] } })) ∧
    (∀ sd (p : Fin 16) lf rf, s.mayLink sd p.val = false → ∃ t, exec (.portLinkChange sd p true lf rf) s = .next t ∧
      t.portLinked sd p.val = false) ∧
    (∀ sd (k : Fin 2) (n : BitVec 16), s.spareFor k.val = 15 → n.toNat ≤ 10 → exec (.prbsLaneErrors sd k n) s =
      .next (s.count (Rg.xlinkLanes sd) Fd.xlinkLanesPrbsErrs n.toNat)) ∧
    (∀ sd (k : Fin 2) (n : BitVec 16) u, s.spareFor k.val = 15 → 10 < n.toNat → s.xlink.badSpares.contains k.val = false →
      u = s.count (Rg.xlinkLanes sd) Fd.xlinkLanesPrbsErrs n.toNat → exec (.prbsLaneErrors sd k n) s =
      .next (({ u with xlink := { s.xlink with badSpares := s.xlink.badSpares ++ [k.val] } } : State).logFault sd (tileAddr sd 0x11 (9 + k.val)) 0)) ∧
    (∀ sd (p : Fin 16) b x, s.takesSend sd p.val b = some x → s.portLinked sd p.val = true → (s.side sd).role ≠ .out →
      (((s.side sd).role = .active ∨ s.active = none ∨ b.reply = true) → exec (.segmentSend sd p b) s =
        .next ((s.crossTo sd b.ns).sendSegments sd p.val b x (pieces b.segSize b.payload).length 0 0 (pieces b.segSize b.payload))) ∧
      ((s.side sd).role ≠ .active → s.active ≠ none → b.reply = false → exec (.segmentSend sd p b) s = .next s)) ∧
    (∀ sd (p : Fin 16) b, s.takesSend sd p.val b = none → exec (.segmentSend sd p b) s = .next (s.emit (.sendRefused sd (p.val + 1)))) ∧
    (∀ n (b : Bytes), 0 < n → (pieces n b).flatten = b ∧ ∀ x ∈ pieces n b, x.length ≤ n) ∧
    (∀ sd (id : BitVec 48), ∃ t, exec (.wakeIdWrite sd id) s = .next t ∧ t.rd (Rg.wakeId sd) Fd.wakeIdId = id.toNat) ∧
    (∀ sd (code : Word), ∃ t, exec (.wakeCodeWrite sd code) s = .next t ∧ t.rd (Rg.wakeCode sd) Fd.wakeCodeCode = code.toNat)

/-- R280 to R296: the servo, masters, holdover, a staged time, the time registers.
Rows whose condition does not hold change nothing (log entry 9). -/
def Obligations.TimeEvents : Prop :=
  ∀ (s : State),
    (∀ theta, s.timeSource ≠ 0 → exec (.servoUpdate theta) s = .next s) ∧
    (∀ theta, s.timeSource ≠ 1 → exec (.ppsInputEdge theta) s = .next s) ∧
    (∀ theta sd x, s.timeSource = 0 → s.active = some sd → x = { s.servo sd with syncAt := s.now } → x.mode = 2 → s.anyRunning = true →
      ∀ t, t = (match s.slavePort with
        | some p => s.modSide p.1 fun z => { z with time := { z.time with portTheta := Tbl.put z.time.portTheta p.2 theta } }
        | none => s) →
      (u32 s.modActive.ptpRec 20 < theta.natAbs → x.out < 3 → exec (.servoUpdate theta) s =
        .next ((t.putServo sd { x with out := x.out + 1 }).tick1 (Rg.timeStatus sd) Fd.timeStatusOutliers)) ∧
      (∀ y, u32 s.modActive.ptpRec 20 < theta.natAbs → 3 ≤ x.out →
        y = { x.update (u32 s.modActive.ptpRec 8) (u32 s.modActive.ptpRec 12) true theta with mode := 1, ok := 0, bad := 0, out := 0, is := [] } →
        exec (.servoUpdate theta) s = .next ((t.putServo sd y).showServo sd)) ∧
      (∀ y, theta.natAbs ≤ u32 s.modActive.ptpRec 20 →
        y = (x.update (u32 s.modActive.ptpRec 8) (u32 s.modActive.ptpRec 12) true theta).judge →
        exec (.servoUpdate theta) s = .next ((t.putServo sd y).showServo sd))) ∧
    (∀ theta sd x y, s.timeSource = 1 → s.active = some sd → x = { s.servo sd with syncAt := s.now } → x.mode = 1 →
      y = (x.update (u32 s.modActive.ptpRec 8) (u32 s.modActive.ptpRec 12) s.anyRunning theta).judge →
      exec (.ppsInputEdge theta) s = .next ((s.putServo sd y).showServo sd)) ∧
    (∀ m : Announce, s.active = none → m.gmIdentity.toNat ≠ u64 s.modActive.pubRec 9 → exec (.announceReceive m) s = .next s) ∧
    (∀ m : Announce, s.active = none → m.gmIdentity.toNat = u64 s.modActive.pubRec 9 → exec (.announceReceive m) s =
      .next { s with pair := { s.pair with gmHeard := some s.now } }) ∧
    (∀ (m : Announce) sd r, s.active = some sd → s.modActive.timePort m.side (m.port.val + 1) = some r → u8 r 2 = 1 →
      (m.side = sd ∨ s.xlinkUp m.side.other = true) → m.domain.toNat = s.ptpDomain → m.sender.toNat / 65536 ≠ s.clockIdentity → s.masters = [] → s.gmCapable = false →
      ∃ t, exec (.announceReceive m) s = .next t ∧ t.gm = some m.gmIdentity ∧ t.slavePort = some (m.side, m.port.val + 1)) ∧
    (∀ sd, s.active = some sd → (s.servo sd).mode = 2 → ((s.servo sd).syncAt + 3 * s.syncTicks ≤ s.now ∨
      (s.timeSource = 0 ∧ s.liveMasters = [])) → ∃ t, exec .holdoverEntry s = .next t ∧ (t.servo sd).mode = 3 ∧
      (t.servo sd).holdAt = s.now ∧ -2147483 ≤ (t.servo sd).y ∧ (t.servo sd).y ≤ 2147483) ∧
    (∀ sd, s.active = some sd → (s.servo sd).mode ≠ 2 → exec .holdoverEntry s = .next s) ∧
    (s.timeSource ≠ 0 → ∀ sd, s.active = some sd → s.now < (s.servo sd).syncAt + 3 * s.syncTicks → exec .holdoverEntry s = .next s) ∧
    (∀ sd, s.active = some sd → (s.servo sd).mode = 3 → s.flag (Rg.timeStatus sd) Fd.timeStatusHoldLong = false →
      ((s.servo sd).holdAt + 34560000 ≤ s.now → exec .holdLong s =
        .next ((s.setFlag (Rg.timeStatus sd) Fd.timeStatusHoldLong true).sideReport sd evHoldLong (zeros 16))) ∧
      (s.now < (s.servo sd).holdAt + 34560000 → exec .holdLong s = .next s)) ∧
    (∀ m n : Announce, m.gmIdentity ≠ n.gmIdentity → m.priority1.toNat < n.priority1.toNat → announceBeats m n = true ∧ announceBeats n m = false) ∧
    (s.staged = none → exec .timeStepApply s = .next s) ∧
    (∀ x, s.staged = some x → s.now + 1 < x.boundary → exec .timeStepApply s = .next s) ∧
    (∀ x, s.staged = some x → s.anyRunning = true → exec .timeStepApply s = .next s) ∧
    (∀ x, s.staged = some x → x.boundary ≤ s.now + 1 → s.anyRunning = false → exec .timeStepApply s = .next s.closeTick.applyStep ∧
      s.applyStep.staged = none ∧ s.applyStep.sealedUpto = none ∧ s.applyStep.leaseHeld lkTimeStep = false ∧
      s.applyStep.flag Rg.timeSetCtrl Fd.timeSetCtrlPending = false ∧ s.applyStep.now = x.before) ∧
    (∀ x, s.staged = some x → x.boundary ≤ s.now + 1 → s.anyRunning = true → s.applyStep = s.cancelTime) ∧
    (∀ x : Staged, x.sec * 1000000000 + x.ns ≤ tickStart (firstTick (x.sec * 1000000000 + x.ns))) ∧
    (∀ sd (sec : BitVec 48) (ns : Word) (frac : BitVec 16),
      exec (.timeNsRead sd false sec ns frac) s = .next (s.modSide sd fun x => { x with time := { x.time with
        shadows := Tbl.put x.time.shadows 0 (sec.toNat, frac.toNat) } }) ∧
      exec (.timeNsRead sd true sec ns frac) s = .next ((s.modSide sd fun x => { x with time := { x.time with
        shadows := Tbl.put x.time.shadows 1 (sec.toNat, frac.toNat) } }).emit (.barRead sd (BitVec.ofNat 64 ns.toNat)))) ∧
    (∀ sd (p : Fin 11), exec (.txtsEntryRead sd p) s = .next ((s.putTxts sd p.val ((s.txts sd p.val).drop 1)).modSide sd fun x =>
      { x with time := { x.time with txtsHead := Tbl.put x.time.txtsHead p.val ((s.txts sd p.val).headD (zeros 16)) } })) ∧
    (∀ sd (change : Nat → LPend), change = (fun v => ⟨0, 0, 0, 0x0010, 0xFFFFFF00 + sd.code,
        recBody (changeBody 0xFFFF 0 0x9001C (beBytes 4 v)), true, false⟩) →
      (∀ sec ns, sec = s.rd Rg.timeSetSec Fd.timeSetSecSec → ns = s.rd Rg.timeSetNs Fd.timeSetNsNs →
        ((999999999 < ns ∨ s.anyRunning = true) → exec (.timeSetGo sd) s =
          .next ((s.setFlag Rg.timeSetCtrl Fd.timeSetCtrlRefused true).ledger (change 1))) ∧
        (ns ≤ 999999999 → sec < 2 ^ 48 → s.anyRunning = false → s.leaseHeld lkTimeStep = true → exec (.timeSetGo sd) s = .next
          ((({ s with staged := some ⟨sec, ns, (s.now / 4800 + 1) * 4800⟩ } : State).setFlag Rg.timeSetCtrl Fd.timeSetCtrlPending
            true).ledger (change 1)))) ∧
      (s.staged = none → exec (.timeSetCancel sd) s = .next (s.ledger (change 4))) ∧
      (s.staged ≠ none → exec (.timeSetCancel sd) s = .next
        (((({ s with staged := none } : State).endLease lkTimeStep).setFlag Rg.timeSetCtrl Fd.timeSetCtrlPending false).ledger (change 4)))) ∧
    (∀ sd (p : Fin 11) (k : Fin 3), s.modActive.timePort sd (p.val + 1) = none → exec (.ptpIntervalSend sd p k) s = .next s) ∧
    (∀ sd (p : Fin 11) (k : Fin 3), s.portLinked sd p.val = false → exec (.ptpIntervalSend sd p k) s = .next s) ∧
    (∀ sd (p : Fin 11) (k : Fin 3) r q, s.modActive.timePort sd (p.val + 1) = some r → (s.side sd).role ≠ .out → s.portLinked sd p.val = true →
      (s.active = some sd ∨ s.xlinkUp sd.other = true) → s.portState sd (p.val + 1) = 6 → k ≠ 2 → q = Tbl.getD (s.side sd).time.ptpSeq ((p.val + 1) * 4 + k.val) 0 →
      exec (.ptpIntervalSend sd p k) s = .next ((s.modSide sd fun x => { x with time := { x.time with
        ptpSeq := Tbl.put x.time.ptpSeq ((p.val + 1) * 4 + k.val) ((q + 1) % 65536) } }).queuePtp sd (p.val + 1)
          (s.intervalMessage k.val q (u8 r 3 == 1)))) ∧
    (∀ q b, (s.intervalMessage 0 q b).msg = 0 ∧ (s.intervalMessage 1 q b).msg = 11 ∧ (s.intervalMessage 0 q b).twoStep = b ∧
      (s.intervalMessage 1 q b).clock = s.clockIdentity ∧ (s.intervalMessage 1 q b).domain = s.ptpDomain)

/-! ## Events of the wavefront inputs, CAN, the host link, packets, updates, health -/

/-- R302, R303, R309: a timed wavefront edge, the overflow of a destination. R363 to R376: CAN events.
Rows whose condition does not hold change nothing (log entry 9). Error counters are log entry 142. -/
def Obligations.AcqAndCanEvents : Prop :=
  ∀ (s : State),
    (∀ sd (i : Fin 8) rise t64, s.modActive.get 0x0E (i.val + 1) = none → exec (.wavefrontEdge sd i rise t64) s = .next s) ∧
    (∀ sd (i : Fin 8) rise t64 r l q, s.modActive.get 0x0E (i.val + 1) = some r → Tbl.find (s.side sd).wfLast (i.val + 1) = some l →
      l ≤ t64 → (t64 - l) * 10 < 768 → Tbl.getD (s.side sd).wavefront (i.val + 1) [] = q →
      (q = [] → exec (.wavefrontEdge sd i rise t64) s = .next
        ((s.modSide sd fun y => { y with wavefront := Tbl.put y.wavefront (i.val + 1) [] }).tick1 (Rg.wfStatus sd i.val) Fd.wfStatusMerged)) ∧
      (∀ p e z, q = p ++ [e] → z = p ++ [{ e with merged := min (e.merged + 1) 255 }] → exec (.wavefrontEdge sd i rise t64) s = .next
        ((s.modSide sd fun y => { y with wavefront := Tbl.put y.wavefront (i.val + 1) z }).tick1 (Rg.wfStatus sd i.val) Fd.wfStatusMerged))) ∧
    (∀ sd (i : Fin 8) rise t64 r, s.modActive.get 0x0E (i.val + 1) = some r →
      (∀ l, Tbl.find (s.side sd).wfLast (i.val + 1) = some l → t64 < l ∨ 768 ≤ (t64 - l) * 10) →
      (bit (u8 r 1) (if rise then 0 else 1) = false → exec (.wavefrontEdge sd i rise t64) s = .next s) ∧
      (bit (u8 r 1) (if rise then 0 else 1) = true → (Tbl.getD (s.side sd).wavefront (i.val + 1) []).length < 1024 →
        s.linesOf 3 (i.val + 1) = [] → exec (.wavefrontEdge sd i rise t64) s = .next
          ((s.modSide sd fun y => { y with wfLast := Tbl.put y.wfLast (i.val + 1) t64 }).modSide sd fun y =>
            { y with wavefront := Tbl.put y.wavefront (i.val + 1) (Tbl.getD (s.side sd).wavefront (i.val + 1) [] ++
              [⟨((t64 : Int) - wfDelay64 r).toNat, rise, 0⟩]) }))) ∧
    (∀ sd dram (d : Fin 64) n, n = (if dram then 64 + d.val % 16 else d.val) →
      ((∃ w ∈ s.captWaiting sd n, w.overflow = false ∧ w.work + 4 < s.now) → exec (.destOverflow sd dram d) s = .next (s.destOverflow sd n)) ∧
      ((∀ w ∈ s.captWaiting sd n, w.overflow = true ∨ s.now ≤ w.work + 4) → exec (.destOverflow sd dram d) s = .next s)) ∧
    (∀ sd reason c first r, s.captState sd c = csRunning → (s.captOverflow sd reason c first r).captState sd c = csOverflowed) ∧
    (∀ sd reason c first r, s.captState sd c ≠ csRunning → s.captOverflow sd reason c first r = s) ∧
    (∀ sd f ns, s.canOnBus sd = false → exec (.canFrameReceive sd f ns) s = .next s) ∧
    (∀ sd f (ns : Word) u, s.canOnBus sd = true →
      u = s.canErrors sd (s.rd (Rg.canStatus sd) Fd.canStatusTec) (s.rd (Rg.canStatus sd) Fd.canStatusRec - 1) →
      (u.modActive.canMatch (ctrlOf sd) f = none → exec (.canFrameReceive sd f ns) s =
        .next ((u.canStore sd f 0 (ns.toNat % 1000000000)).tick1 (Rg.canRxq sd) Fd.canRxqNoMatch)) ∧
      (∀ k r q v, u.modActive.canMatch (ctrlOf sd) f = some (k, r) → q = b2n (bit (u8 r 2) 2) →
        v = u.canStore sd f k (ns.toNat % 1000000000) →
        ((Tbl.getD (v.can sd).queues q []).length < (if q = 0 then 64 else 32) → exec (.canFrameReceive sd f ns) s = .next
          ((v.putCan sd { v.can sd with queues := Tbl.put (v.can sd).queues q (Tbl.getD (v.can sd).queues q [] ++
            [canRecord f k 0 (ns.toNat % 1000000000) false]) }).canHold ⟨ctrlOf sd, ns.toNat % 1000000000, f⟩)) ∧
        ((if q = 0 then 64 else 32) ≤ (Tbl.getD (v.can sd).queues q []).length → exec (.canFrameReceive sd f ns) s = .next
          ((v.setFlag (Rg.canRxq sd) (if q = 0 then Fd.canRxqQ0Ovf else Fd.canRxqQ1Ovf) true).canHold
            ⟨ctrlOf sd, ns.toNat % 1000000000, f⟩)))) ∧
    (∀ f k age ns o, (canRecord f k age ns o).length = 80) ∧
    (∀ sd, s.canOnBus sd = false → exec (.canBusOff sd) s = .next s) ∧
    (∀ sd, s.canOnBus sd = true → (s.can sd).pend = [] → (s.can sd).next = [] → exec (.canBusOff sd) s = .next
      ((s.wr (Rg.canStatus sd) Fd.canStatusState 2).putCan sd { s.can sd with pend := [], next := [], bus := none })) ∧
    (∀ sd, s.canOnBus sd = true → ∃ t, exec (.canBusOff sd) s = .next t ∧ (t.can sd).pend = [] ∧ (t.can sd).bus = none ∧
      ∀ e ∈ (s.can sd).pend ++ (s.can sd).next, t.flag (Rg.mbStatus sd e.1) Fd.mbStatusAbandoned = true ∧ t.flag (Rg.mbStatus sd e.1) Fd.mbStatusPending = false) ∧
    (∀ sd, s.canState sd = 2 → exec (.canBusOffRecovery sd) s = .next
      (((s.canErrors sd 0 0).setFlag (Rg.canStatus sd) Fd.canStatusBusOffSeen true).canArbitrate sd)) ∧
    (∀ sd, s.canState sd = 2 → ∃ t, exec (.canBusOffRecovery sd) s = .next t ∧ t.canState sd = 0 ∧
      t.flag (Rg.canStatus sd) Fd.canStatusBusOffSeen = true) ∧
    (∀ sd, s.canState sd ≠ 2 → exec (.canBusOffRecovery sd) s = .next s) ∧
    (∀ sd r, s.canState sd = 3 → (s.side sd).role ≠ .out → s.modActive.canTiming (ctrlOf sd) = some r →
      exec (.canBusRejoin sd) s = .next ((s.canErrors sd 0 0).canArbitrate sd)) ∧
    (∀ sd, s.canState sd ≠ 3 → exec (.canBusRejoin sd) s = .next s) ∧
    (∀ sd, ((s.canErrors sd 0 0).canState sd) = 0) ∧
    (∀ sd e, (s.can sd).bus = none → exec (.canArbitrationLoss sd e) s = .next s) ∧
    (∀ sd b x, (s.can sd).bus = some b → Tbl.find (s.can sd).pend b = some x →
      (x.left = 0 → exec (.canArbitrationLoss sd false) s = .next (((s.canAbandoned sd b).canAfter sd b).canArbitrate sd)) ∧
      (0 < x.left → exec (.canArbitrationLoss sd false) s = .next
        (((s.putCan sd { s.can sd with bus := none, pend := Tbl.put (s.can sd).pend b { x with left := x.left - 1 } }).tick1
          (Rg.mbStatus sd b) Fd.mbStatusTally).canArbitrate sd)) ∧
      exec (.canTxDone sd) s = .next ((((s.canErrors sd (s.rd (Rg.canStatus sd) Fd.canStatusTec - 1)
        (s.rd (Rg.canStatus sd) Fd.canStatusRec)).emit (.can sd x.frame)).canAfter sd b).canArbitrate sd)) ∧
    (∀ sd, (s.can sd).bus = none → exec (.canTxDone sd) s = .next s) ∧
    (∀ (l : List (Nat × CanTx)) e, txWinner l = some e → e ∈ l ∧ ∀ x ∈ l, txBefore x e = true → txBefore e x = false → False) ∧
    (∀ sd (q : Fin 2) r l, Tbl.getD (s.can sd).queues q.val [] = r :: l → exec (.rxqHeadRead sd q) s = .next
      (s.putCan sd { s.can sd with queues := Tbl.put (s.can sd).queues q.val l, heads := Tbl.put (s.can sd).heads q.val r })) ∧
    (∀ sd (q : Fin 2), Tbl.getD (s.can sd).queues q.val [] = [] → exec (.rxqHeadRead sd q) s = .next
      (s.putCan sd { s.can sd with heads := Tbl.put (s.can sd).heads q.val (zeros 80) }))

/-- R377 to R387, R414, R415, R8: doorbells, ring errors and resets, interrupts, register accesses of the host.
Rows whose condition does not hold change nothing (log entry 9). BUS_MASTER after a function-level reset, the status of a BAR2 write and the wait of a BAR0 write are log entries 54, 55 and 196. -/
def Obligations.HostLinkEvents : Prop :=
  ∀ (s : State),
    (∀ sd (r : Fin 64) tail filled, s.ringRuns sd r.val = false → exec (.doorbellWrite sd r tail filled) s = .next s) ∧
    (∀ sd (r : Fin 64) (tail : Word) filled n head old, s.ringRuns sd r.val = true → n = 2 ^ s.rd (Rg.ringCfg sd r.val) Fd.ringCfgSizeLog2 →
      head = s.rd (Rg.ringPtr sd r.val) Fd.ringPtrHead → old = s.rd (Rg.ringPtr sd r.val) Fd.ringPtrTail →
      (n ≤ tail.toNat ∨ n ≤ (old + n - head) % n + (tail.toNat + n - old) % n →
        exec (.doorbellWrite sd r tail filled) s = .next (s.ringStop sd r.val 1)) ∧
      (∀ t, tail.toNat < n → (old + n - head) % n + (tail.toNat + n - old) % n < n →
        t = (s.wr (Rg.ringPtr sd r.val) Fd.ringPtrTail tail.toNat).putRing sd r.val
          { s.ring sd r.val with descs := (s.ring sd r.val).descs ++
            (List.range ((tail.toNat + n - old) % n)).map fun i => filled.getD i ⟨0, 0, false, []⟩ } →
        exec (.doorbellWrite sd r tail filled) s = .next (t.settleRing sd r.val) ∧
        (s.rd (Rg.ringCfg sd r.val) Fd.ringCfgKind = 2 → exec (.doorbellWrite sd r tail filled) s = .next t))) ∧
    (∀ sd r, s.rd (Rg.ringCfg sd r) Fd.ringCfgKind = 1 → s.ringRuns sd r = true → (s.ring sd r).used = 0 →
      (∀ d l, (s.ring sd r).descs = d :: l → 8192 ≤ d.len → s.settleRing sd r = s) ∧
      (∀ d, (s.ring sd r).descs = [d] → d.len < 8192 → s.settleRing sd r = s.completeHead sd r 0 1)) ∧
    (∀ sd r cause, cause < 4 → (s.ringStop sd r cause).flag (Rg.ringCfg sd r) Fd.ringCfgErr = true ∧
      (s.ringStop sd r cause).rd (Rg.ringCfg sd r) Fd.ringCfgErrCause = cause ∧ (s.ringStop sd r cause).ringRuns sd r = false) ∧
    (∀ sd r d l, (s.ring sd r).descs = d :: l → ((s.completeHead sd r 0 1).ring sd r).descs = l ∧
      ((s.completeHead sd r 0 1).ring sd r).seq = (s.ring sd r).seq + 1) ∧
    (∀ sd r, (s.hears = false ∨ s.ringRuns sd r.val = false ∨ s.rd (Rg.ringCfg sd r.val) Fd.ringCfgKind ≠ 3 ∨
      (s.ring sd r.val).descs[(s.ring sd r.val).flight.length]? = none) → exec (.mailboxCommand sd r) s = .next s) ∧
    (∀ sd (r : Fin 64) d b h n, s.hears = true → s.ringRuns sd r.val = true → s.rd (Rg.ringCfg sd r.val) Fd.ringCfgKind = 3 →
      n = (s.side sd).mailSeq → (s.ring sd r.val).descs[(s.ring sd r.val).flight.length]? = some d → 9216 ≤ d.len →
      b = d.buffer.take (max 32 (u16 d.buffer 4)) → h = pkHdr sd (.mailbox n) r b →
      exec (.mailboxCommand sd r) s = .next ((((s.putRing sd r.val { s.ring sd r.val with
        flight := (s.ring sd r.val).flight ++ [(n, none)] }).modSide sd fun x => { x with mailSeq := n + 1 }).movedBytes sd
          b.length).queuePacket h b)) ∧
    (∀ sd (r : Fin 64), s.ringRuns sd r.val = true → s.rd (Rg.ringCfg sd r.val) Fd.ringCfgKind = 1 → (s.ring sd r.val).used ≠ 0 →
      (s.ring sd r.val).first < s.now →
      exec (.toHostTimeout sd r) s = .next ((s.completeHead sd r.val (s.ring sd r.val).used 0).settleRing sd r.val)) ∧
    (∀ sd (r : Fin 64), ((s.ring sd r.val).used = 0 ∨ s.now ≤ (s.ring sd r.val).first) → exec (.toHostTimeout sd r) s = .next s) ∧
    (∀ sd (r : Fin 64), (s.ringRuns sd r.val = true → exec (.dmaError sd r) s = .next (s.ringStop sd r.val 2)) ∧
      (s.ringRuns sd r.val = false → exec (.dmaError sd r) s = .next s)) ∧
    (∀ sd (r : Fin 64),
      ((s.ring sd r.val).holdoff = false → exec (.msixHoldoffEnd sd r) s = .next s) ∧
      ((s.ring sd r.val).holdoff = true → (s.ring sd r.val).irqWaits = false → exec (.msixHoldoffEnd sd r) s =
        .next (s.putRing sd r.val { s.ring sd r.val with holdoff := false })) ∧
      ((s.ring sd r.val).holdoff = true → (s.ring sd r.val).irqWaits = true → exec (.msixHoldoffEnd sd r) s =
        .next ((s.putRing sd r.val { s.ring sd r.val with irqWaits := false }).raiseMsix sd r.val))) ∧
    (∀ sd v, (bit (s.msixWord sd v 3) 0 = false → s.raiseMsix sd v = s.emit (.msix sd v)) ∧
      (bit (s.msixWord sd v 3) 0 = true → (s.raiseMsix sd v).out = s.out ∧ v ∈ ((s.raiseMsix sd v).side sd).msix.waits)) ∧
    (∀ sd (r : Fin 64), exec (.ringResetDone sd r) s = .next (s.setFlag (Rg.ringCfg sd r.val) Fd.ringCfgResetDone true)) ∧
    (∀ sd (r : Fin 64), exec (.ringCfgReset sd r) s = .next ((s.ringClear sd r.val).loseRing sd r.val)) ∧
    (∀ sd r, (s.ringClear sd r).flag (Rg.ringCfg sd r) Fd.ringCfgEnabled = false ∧ (s.ringClear sd r).flag (Rg.ringCfg sd r) Fd.ringCfgErr = false ∧
      (s.ringClear sd r).rd (Rg.ringPtr sd r) Fd.ringPtrHead = 0 ∧ (s.ringClear sd r).rd (Rg.ringPtr sd r) Fd.ringPtrTail = 0 ∧
      ((s.ringClear sd r).ring sd r).descs = [] ∧ ((s.ringClear sd r).ring sd r).flight = [] ∧ (s.ringClear sd r).out = s.out) ∧
    (∀ sd, exec (.functionLevelReset sd) s = .next
      (((((List.range 64).foldl (fun (t : State) r => t.resetRing sd r) s).modSide sd fun y => { y with msix := ⟨[], []⟩ }).tick1 (Rg.hlStatus sd) Fd.hlStatusFlrCount).setFlag
        (Rg.hlStatus sd) Fd.hlStatusBusMaster false)) ∧
    (∀ sd gen width bm, ∃ t, exec (.pcieLinkUp sd gen width bm) s = .next t ∧ t.flag (Rg.hlStatus sd) Fd.hlStatusLinkUp = true ∧
      t.rd (Rg.hlStatus sd) Fd.hlStatusGen = gen.toNat ∧ t.rd (Rg.hlStatus sd) Fd.hlStatusWidth = width.toNat ∧
      t.flag (Rg.hlStatus sd) Fd.hlStatusBusMaster = bm) ∧
    (∀ (h : CmdHdr) (a : Word) (w : BitVec 4) v, h.transport = .bar0 → (a.toNat < 0x01FF0000 ∨ 0x01FF0800 ≤ a.toNat) →
      (∀ st, s.deepTest h.side = false → s.writeCheck h.side false a.toNat w.toNat 1 = some st →
        exec (.registerWrite h a w v) s = .next (s.hlError h.side (bar0Offset a.toNat) st)) ∧
      (s.deepTest h.side = true → exec (.registerWrite h a w v) s = .next (s.hlError h.side (bar0Offset a.toNat) .busyTest)) ∧
      (s.deepTest h.side = false → s.writeCheck h.side false a.toNat w.toNat 1 = none →
        (touchesMirrored a.toNat w.toNat 1 = false → exec (.registerWrite h a w v) s =
          .next (s.writeAccess a.toNat w.toNat v.toNat (0xFFFFFF00 + h.side.code))) ∧
        (touchesMirrored a.toNat w.toNat 1 = true → ∃ t, exec (.registerWrite h a w v) s = .next t ∧ t.regs = s.regs ∧
          ∃ c, t.waiting = s.waiting ++ [c] ∧ c.op = 0x0101 ∧ c.tick = 0 ∧ c.hdr.side = h.side))) ∧
    (∀ (h : CmdHdr) (a : Word) (w : BitVec 4) v p, h.transport ≠ .bar0 →
      p = beBytes 4 a.toNat ++ beBytes 1 w.toNat ++ beBytes 1 1 ++ zeros 2 ++ beBytes w.toNat v.toNat →
      exec (.registerWrite h a w v) s = exec (.regWrite h p) s) ∧
    (∀ (h : CmdHdr) (a : Word) v, h.transport = .bar0 → 0x01FF0000 ≤ a.toNat → a.toNat < 0x01FF0800 → a.toNat % 4 = 0 →
      exec (.registerWrite h a 4 v) s = .next (s.msixWrite h.side ((a.toNat - 0x01FF0000) / 4) (v.toNat % 2 ^ 32)) ∧
      Tbl.find ((s.msixWrite h.side ((a.toNat - 0x01FF0000) / 4) (v.toNat % 2 ^ 32)).side h.side).msix.table ((a.toNat - 0x01FF0000) / 4)
        = some (v.toNat % 2 ^ 32)) ∧
    (∀ sd (off : Word) (w : BitVec 4), (w = 1 ∨ w = 2 ∨ w = 4 ∨ w = 8) →
      (∀ a, bar0Addr off.toNat = some a → s.deepTest sd = false → s.readCheck sd a w.toNat 1 = none →
        exec (.registerRead sd (.bar0 off) w) s = .next ((s.readAccess 1 a w.toNat).1.emit (.barRead sd (BitVec.ofNat 64 (s.readAccess 1 a w.toNat).2)))) ∧
      (∀ a st, bar0Addr off.toNat = some a → s.deepTest sd = false → s.readCheck sd a w.toNat 1 = some st →
        exec (.registerRead sd (.bar0 off) w) s =
          .next ((s.emit (.barRead sd (BitVec.ofNat 64 (2 ^ (8 * w.toNat) - 1)))).hlError sd off.toNat st))) ∧
    (∀ sd (off : Word) (w : BitVec 4), w ≠ 1 → w ≠ 2 → w ≠ 4 → w ≠ 8 → exec (.registerRead sd (.bar0 off) w) s =
      .next (s.bar0Refuse sd off.toNat w.toNat .width)) ∧
    (bar0Addr 0x007FFFFF = some 0x007FFFFF ∧ bar0Addr 0x00800000 = some 0x80000000 ∧ bar0Addr 0x00FFFFFF = some 0x807FFFFF ∧
      bar0Addr 0x01000000 = none) ∧
    (∀ sd (off : Word), s.flag (Rg.hlErr sd) Fd.hlErrValid = true → exec (.bar2Write sd off) s = .next s) ∧
    (∀ sd (off : Word), s.flag (Rg.hlErr sd) Fd.hlErrValid = false → ∃ t, exec (.bar2Write sd off) s = .next t ∧
      t.flag (Rg.hlErr sd) Fd.hlErrValid = true ∧ t.rd (Rg.hlErr sd) Fd.hlErrStatus = Status.readOnly.code)

/-- R390 to R392, R399, R400, R404: packets of the ports and the console, listed commands when their bell comes.
Rows whose condition does not hold change nothing (log entry 9). -/
def Obligations.PacketEvents : Prop :=
  ∀ (s : State),
    (∀ sd t p frag b, s.hears = false → exec (.commandPacket sd t p frag b) s = .next s) ∧
    (∀ sd a (p : Fin 16) frag (b : Bytes), s.hears = true → s.forStation sd a = true →
      (p.val < 8 ∨ 10 < p.val ∨ frag = true ∨ u16 b 4 ≠ b.length) →
      exec (.commandPacket sd (.udp a) p frag b) s = .next (s.discardPacket (pkHdr sd (.udp a) 0 b))) ∧
    (∀ sd a (p : Fin 16) (b : Bytes), s.hears = true → s.forStation sd a = true → 8 ≤ p.val → p.val ≤ 10 → u16 b 4 = b.length →
      exec (.commandPacket sd (.udp a) p false b) s = .next (s.queuePacket (pkHdr sd (.udp a) 0 b) b)) ∧
    (∀ sd a p frag b, s.forStation sd a = false → exec (.commandPacket sd (.udp a) p frag b) s = .next s) ∧
    (∀ sd (a : UdpAddr), s.station sd = none → s.forStation sd a = (a.dstPort.toNat == s.cmdPort sd)) ∧
    (∀ h b, 1024 ≤ (s.side h.side).rxQueue.length → s.queuePacket h b = (s.tick1 (Rg.cmdDrop h.side) Fd.cmdDropQueueFull).dropFlight h) ∧
    (∀ h b, 0 < (s.side h.side).rxQueue.length → (s.side h.side).rxQueue.length < 1024 → s.cmdBudget = 0 →
      s.queuePacket h b = s.modSide h.side fun x => { x with rxQueue := x.rxQueue ++ [(h, b)] }) ∧
    (∀ h b n, (s.side h.side).rxQueue = [] → s.cmdBudget = n + 1 → ∀ u : State, u = { s with cmdBudget := n } →
      ((u16 b 0 ≠ 0x4B56 ∨ u16 b 4 < 48 ∨ u8 b 3 ≠ 0 ∨ b.length < 32) → s.queuePacket h b = u.discardPacket h) ∧
      (u16 b 0 = 0x4B56 → 48 ≤ u16 b 4 → u8 b 3 = 0 → 32 ≤ b.length →
        ((1056 < u16 b 4 ∨ u16 b 4 ≠ b.length) → s.queuePacket h b = u.unsigned h (pkOp b) .badLength) ∧
        (u16 b 4 = b.length → b.length ≤ 1056 → u16 b 28 = 0 →
          (u8 b 2 ≠ 1 → s.queuePacket h b = u.unsigned h (pkOp b) .badVersion) ∧
          (u8 b 2 = 1 → u.authentic h b = none →
            s.queuePacket h b = (u.refusedPrincipal h .badAuth).unsigned h (pkOp b) .badAuth) ∧
          (∀ p, u8 b 2 = 1 → u.authentic h b = some p → s.queuePacket h b = u.judgePacket h b p)))) ∧
    (∀ h : CmdHdr, (∀ n, h.transport ≠ .mailbox n) → s.discardPacket h = s.tick1 (Rg.cmdDrop h.side) Fd.cmdDropDiscarded) ∧
    (∀ sd p frag (b c : Bytes), s.hears = true → c = fromMagic ((s.side sd).console ++ b) → c.length < max 6 (u16 c 4) →
      exec (.commandPacket sd .console p frag b) s = .next (s.modSide sd fun x => { x with console := c })) ∧
    (∀ sd p frag (b : Bytes), s.hears = true → (s.side sd).console = [] → fromMagic b = b → 6 ≤ u16 b 4 → b.length = u16 b 4 →
      exec (.commandPacket sd .console p frag b) s = .next
        (((s.modSide sd fun x => { x with console := [] }).queuePacket (pkHdr sd .console 0 b) b).readConsole sd b.length)) ∧
    (∀ sd p frag b t, (∀ a, t ≠ .udp a) → t ≠ .console → exec (.commandPacket sd t p frag b) s = .next s) ∧
    (∀ sd, (∀ c ∈ s.waiting, c.hdr.side = sd → c.tick ≠ s.now ∨ c.tick = 0) → exec (.commandApply sd) s = .next s) ∧
    (∀ sd c k, s.waiting = [c] → c.hdr.side = sd → c.tick = s.now → c.tick ≠ 0 → c.listed = false → cmdOf c.op = some k →
      exec (.commandApply sd) s = .next (({ s with waiting := [] } : State).executeQueued k c)) ∧
    (∀ sd, (s.side sd).console = [] → exec (.consoleGapTimeout sd) s = .next s) ∧
    (∀ sd, (s.side sd).console ≠ [] → exec (.consoleGapTimeout sd) s = .next
      ((s.tick1 (Rg.cmdDrop sd) Fd.cmdDropDiscarded).modSide sd fun x => { x with console := [] }))

/-- R419 to R422, R433 to R439: the end of a validation, images, the gambit of an update.
Rows whose condition does not hold change nothing (log entry 9). A second failure and a hand-over that is not listed are log entries 185 and 189. -/
def Obligations.ConfigAndUpdateEvents : Prop :=
  ∀ (s : State),
    (∀ stall : Fin 64, Tbl.find s.validations stall.val = none → exec (.validationDone stall) s = .next s) ∧
    (∀ (stall : Fin 64) v u, Tbl.find s.validations stall.val = some v → u = { s with validations := Tbl.del s.validations stall.val } →
      (v.broken = true → exec (.validationDone stall) s = .next (u.final v.hdr .conflict [])) ∧
      (∀ f, v.broken = false → s.validate stall.val = some f → exec (.validationDone stall) s = .next
        (((u.showDemand stall.val s.modShadow).putReg Rg.cfgFail (f.status.code * 2 ^ 48 + f.ty * 2 ^ 40 + f.stall * 2 ^ 32 + f.offset)).final v.hdr f.status
          (beBytes 1 f.ty ++ beBytes 1 f.stall ++ beBytes 4 f.offset))) ∧
      (v.broken = false → s.validate stall.val = none → ∃ t, exec (.validationDone stall) s = .next t ∧
        (t.stallShadowScope stall.val).valid = true ∧
        (t.stallShadowScope stall.val).digest = (s.stallShadowScope stall.val).imageDigest s.cfgFmt stall.val ∧
        (t.stallShadowScope stall.val).recs = (s.stallShadowScope stall.val).recs)) ∧
    ((∀ c, s.showDemand 0 c = s.wr Rg.condDemandSh Fd.condDemandShShadow (min 8388607 c.condDemand)) ∧
      ∀ stall c, stall ≠ 0 → s.showDemand stall c = s) ∧
    (∀ image, (∀ l ∈ s.ringLoads, l.update = true ∨ l.held = true ∨ l.length ≠ image.length) → exec (.cfgRingImageHeld image) s = .next s) ∧
    (∀ image, s.copyReaches = false → exec (.cfgRingImageHeld image) s = .next s) ∧
    (∀ image l, s.ringLoads = [l] → l.update = false → l.held = false → l.length = image.length → s.copyReaches = true →
      (readSetImage s.cfgFmt image = none →
        exec (.cfgRingImageHeld image) s = .next (({ s with ringLoads := [] } : State).final l.hdr (imageRefusal s.cfgFmt image) [])) ∧
      (∀ stall t, readSetImage s.cfgFmt image = some (stall, t) → exec (.cfgRingImageHeld image) s = .next { s with
        ringLoads := [{ l with got := image }]
        waiting := s.waiting ++ [{ hdr := l.hdr, op := 0x0202, params := beBytes 1 l.ring ++ zeros 3 ++ beBytes 4 l.length, tick := 0,
                                   answered := true, listed := true }] } ∧
        ((s.placeImage { l with got := image }).s.stallShadowScope stall).recs = t ∧
        ((s.placeImage { l with got := image }).s.stallShadowScope stall).valid = false)) ∧
    (∀ fmt image, image.length < 64 ∨ 7340032 < image.length ∨ u16 image 0 ≠ 0x4B43 → readSetImage fmt image = none ∧ imageRefusal fmt image = .range) ∧
    (∀ b : Bytes, blockRefusal b = .conflict ↔
      u8 b 0 = 0x04 ∧ hasDup (recIdxs 0x04 (min (u32 b 8) 1024) none (sub b 16 (u32 b 4 - 16))) = true) ∧
    (∀ sd, (s.side sd).role ≠ .out → exec (.peerRestore sd) s = .next s) ∧
    (∀ sd, (s.side sd).role = .out → (s.xlinkUp sd = false ∨ s.nor sd.other ≠ norProven) →
      exec (.peerRestore sd) s = .next (s.setNor sd norBad)) ∧
    (∀ sd, (s.side sd).role = .out → s.xlinkUp sd = true → s.nor sd.other = norProven → s.update.phase ≠ upFirst → s.update.phase ≠ upSecond →
      exec (.peerRestore sd) s = .next ((s.restoreNor sd).bootSide sd 7 (s.side sd.other).stored)) ∧
    (∀ sd, ((s.restoreNor sd).side sd).stored = (s.side sd.other).stored ∧ (s.restoreNor sd).nor sd = norRestoring) ∧
    (∀ sd, (s.nor sd = norRestoring → exec (.norRestoreDone sd) s = .next ((s.setNor sd norProven).setKib sd (u32 (s.side sd).stored 4))) ∧
      (s.nor sd ≠ norRestoring → exec (.norRestoreDone sd) s = .next s)) ∧
    ((s.update.phase ≠ upScheduled ∨ s.now < s.update.atSecond * 4800) → exec .updateActivation s = .next s) ∧
    (∀ x y, s.update.phase = upScheduled → s.update.atSecond * 4800 ≤ s.now → x = s.update.first → y = s.update.second →
      ((s.side y).role = .out ∨ (s.side y).role = .joining → exec .updateActivation s = .next ((s.restoreNor x).endUpdate upFailed)) ∧
      (∀ v, v = s.dueHandover → (s.side y).role = .active ∨ (s.side y).role = .standby → s.update.outage = false → s.update.pair = false →
        (compatible (s.side x).stored (s.side y).image s.cfgFmt = true → exec .updateActivation s = .next
          ((((v.startGambit x upFirst).spareCopies x (s.side x).stored).bootSide x 6 (s.side x).stored).modResync x fun r =>
            { r with trial := true })) ∧
        (compatible (s.side x).stored (s.side y).image s.cfgFmt = false → exec .updateActivation s = .next
          (((v.restoreNor x).bootSide x 7 (s.side y).image).endUpdate upIncompatible)))) ∧
    (s.handoverAt = none → s.dueHandover = s) ∧
    (∀ sd phase, (s.startGambit sd phase).nor sd = norGambit ∧ (s.startGambit sd phase).update.phase = phase ∧
      (s.startGambit sd phase).update.windowEnd = some (s.now + s.update.window * 4800) ∧ (s.startGambit sd phase).update.trial = 0) ∧
    (s.update.trial < 48000 → exec .gambitConfirm s = .next s) ∧
    (∀ e, s.update.phase = upFirst → (s.duty s.update.first).tested = true → 48000 ≤ s.update.trial → s.update.windowEnd = some e → s.now ≤ e →
      ∃ t, exec .gambitConfirm s = .next t ∧ t.update.phase = upCopy ∧ t.nor s.update.first = norProven) ∧
    (∀ e, s.update.phase = upSecond → (s.duty s.update.second).tested = true → 48000 ≤ s.update.trial → s.update.windowEnd = some e → s.now ≤ e →
      exec .gambitConfirm s = .next ((s.setNor s.update.second norProven).endUpdate upDone)) ∧
    (s.update.windowEnd = none → exec .gambitWindowExpiry s = .next s) ∧
    (∀ e, s.update.windowEnd = some e → s.now < e → exec .gambitWindowExpiry s = .next s) ∧
    (∀ e x, s.update.windowEnd = some e → e ≤ s.now → x = s.update.first → s.update.phase = upFirst → s.update.outage = false →
      exec .gambitWindowExpiry s = .next ((((s.restoreNor x).endUpdate upFailed).bootSide x 7 (s.side s.update.second).image).modResync x
        fun r => { r with trial := false })) ∧
    (∀ e y, s.update.windowEnd = some e → e ≤ s.now → y = s.update.second → s.update.phase = upSecond →
      (s.update.failedOnce = true → exec .gambitWindowExpiry s = .next ((s.goOut y rcSideOut).endUpdate upFailed)) ∧
      (s.update.failedOnce = false → ∃ t, exec .gambitWindowExpiry s = .next t ∧ t.update.failedOnce = true ∧
        t.update.windowEnd = some (s.now + s.update.window * 4800))) ∧
    (∀ y, y = s.update.second → s.update.phase = upCopy → s.update.copied = none → ∃ t, exec .secondSideCopyDone s = .next t ∧
      (t.side y).stored = (s.side y.other).image ∧ t.update.copied = some s.now ∧ t.nor y = norStored) ∧
    (s.update.phase ≠ upCopy → exec .secondSideCopyDone s = .next s ∧ exec .secondSideReboot s = .next s) ∧
    (∀ c y, s.update.phase = upCopy → s.update.copied = some c → y = s.update.second →
      (secondRebootAt c s.update.delay ≤ s.now →
        exec .secondSideReboot s = .next (((s.startGambit y upSecond).spareCopies y (s.side y).stored).bootSide y 6 (s.side y).stored)) ∧
      (s.now < secondRebootAt c s.update.delay → exec .secondSideReboot s = .next s)) ∧
    (∀ c d : Nat, secondRebootAt c d % 4800 = 0 ∧ c + d * 4800 ≤ secondRebootAt c d ∧ secondRebootAt c d < c + d * 4800 + 4800)

/-- R10, R447, R453, R458, R459, R463, R466: memory errors, key slots, spares, the deep test.
Rows whose condition does not hold change nothing (log entry 9). Counting by row and column is log entry 145; the failing core is free (log entry 147). -/
def Obligations.HealthEvents : Prop :=
  ∀ (s : State),
    (∀ sd (part word : Word) (n : BitVec 3) u, u = (s.tick1 (Rg.healthCorrected sd) Fd.healthCorrectedCount).logFaultAs sd lcCorrected
        part.toNat (word.toNat % 2 ^ 29) →
      (partUnit part.toNat = 0x1A → n.toNat < 3 → exec (.correctedError sd part word n) s = .next u) ∧
      (partUnit part.toNat = 0x1A → 3 ≤ n.toNat → exec (.correctedError sd part word n) s = .next (u.retireSector sd part.toNat)) ∧
      ∀ seen : Nat → List Nat, seen = (fun k => (Tbl.getD (s.side sd).health.corrected k []).filter fun t => decide (s.now < t + 414720000)) →
      (∀ k, partUnit part.toNat = 0x19 → k = part.toNat * 2 ^ 32 + word.toNat % 2 ^ 29 / 512 →
        ((seen k).length < 2 → exec (.correctedError sd part word n) s =
          .next (u.modHealth sd fun h => { h with corrected := Tbl.put h.corrected k (seen k ++ [s.now]) })) ∧
        (2 ≤ (seen k).length → exec (.correctedError sd part word n) s =
          .next ((u.modHealth sd fun h => { h with corrected := Tbl.del h.corrected k }).logFaultAs sd lcCorrected part.toNat
            (2 ^ 30 + word.toNat % 2 ^ 29)))) ∧
      (∀ row col, partUnit part.toNat ≠ 0x19 → partUnit part.toNat ≠ 0x1A →
        row = part.toNat * 2 ^ 32 + 2 * Config.macroRow (word.toNat % 2 ^ 29) →
        col = part.toNat * 2 ^ 32 + (2 * Config.macroColumn (word.toNat % 2 ^ 29) + 1) →
        ((seen row).length < 2 → (seen col).length < 2 → exec (.correctedError sd part word n) s =
          .next (u.modHealth sd fun h => { h with
            corrected := Tbl.put (Tbl.put h.corrected row (seen row ++ [s.now])) col (seen col ++ [s.now]) })) ∧
        ((2 ≤ (seen row).length ∨ 2 ≤ (seen col).length) → ∃ t, exec (.correctedError sd part word n) s = .next t ∧
          Tbl.find (t.side sd).health.corrected row = none ∧ Tbl.find (t.side sd).health.corrected col = none ∧
          Tbl.getD (t.side sd).health.repair part.toNat [] = (Tbl.getD (s.side sd).health.repair part.toNat [] ++
            [(if 2 ≤ (seen row).length then row else col) % 2 ^ 32]).eraseDups))) ∧
    (∀ sd (part word : Word) u, u = s.logFault sd part.toNat (2 * 2 ^ 30 + word.toNat % 2 ^ 29) →
      (partUnit part.toNat = 0x1A → exec (.uncorrectableError sd part word) s =
        .next ((u.loseSector sd (part.toNat % 2 ^ 14)).retireSector sd part.toNat)) ∧
      (partUnit part.toNat = 0x19 → exec (.uncorrectableError sd part word) s =
        .next (u.sideFault sd (unitAddr 6 sd 0x19))) ∧
      (0x0F ≤ partUnit part.toNat → partUnit part.toNat ≠ 0x19 → partUnit part.toNat ≠ 0x1A →
        exec (.uncorrectableError sd part word) s = .next
          ((u.logFault sd (partAddr 2 sd.code (partUnit part.toNat) (partTile part.toNat) (part.toNat % 2 ^ 14)) 0).sideFault sd
            (unitAddr 4 sd (partUnit part.toNat))))) ∧
    (∀ sd part, s.rd (Rg.healthSpares sd) Fd.healthSparesSpareSectors = 0 →
      s.retireSector sd part = s.sideFault sd (unitAddr 4 sd 0x1A)) ∧
    (∀ sd code part word, part < 2 ^ 32 → word < 2 ^ 32 → ∃ i, i < 64 ∧
      (s.logFaultAs sd code part word).regWord (Rg.faultLog sd i) = part * 2 ^ 32 + (if partLevel part = 1 then word else 0) ∧
      (s.logFaultAs sd code part word).rd (Rg.faultHead sd) Fd.faultHeadNewest = i) ∧
    (∀ sd (k : Fin 64), (s.slotFlag sd k.val Fd.keySlotValid = false → exec (.slotTagFail sd k) s = .next s) ∧
      (s.slotFlag sd k.val Fd.keySlotValid = true → exec (.slotTagFail sd k) s = .next
        ((s.setFlag (Rg.keySlot sd k.val) Fd.keySlotBad true).modSide sd fun x => { x with cache := Tbl.del x.cache k.val }))) ∧
    (∀ sd, ∃ core t, core < 5 ∧ t = { s with freeCount := s.freeCount + 1 } ∧
      exec (.mgmtCoreFail sd) s = .next (t.mgmtCoreFails sd core)) ∧
    (∀ sd core, ∀ u : State, u = ((s.logFault sd (tileAddr sd 0x00 core) 0).modSide sd fun x => { x with console := [] }) →
      (s.flag (Rg.healthSpares sd) Fd.healthSparesSpareMgmt = true → core ≠ 4 → s.mgmtCoreFails sd core =
        (u.setFlag (Rg.healthSpares sd) Fd.healthSparesSpareMgmt false).partEvent sd lcSpareIn (tileAddr sd 0x00 4) 0) ∧
      (s.flag (Rg.healthSpares sd) Fd.healthSparesSpareMgmt = false →
        s.mgmtCoreFails sd core = u.sideFault sd (unitAddr 4 sd 0x00))) ∧
    (∀ sd pass, s.flag (Rg.healthTest sd) Fd.healthTestDeepTest = false → exec (.deepTestDone sd pass) s = .next s) ∧
    (∀ sd, s.flag (Rg.healthTest sd) Fd.healthTestDeepTest = true → ∃ t, exec (.deepTestDone sd false) s = .next t ∧
      t.flag (Rg.healthTest sd) Fd.healthTestDeepTest = false ∧ (t.duty sd).tested = false ∧ (t.side sd).role = (s.side sd).role) ∧
    (∀ sd, s.flag (Rg.healthTest sd) Fd.healthTestDeepTest = true → ∃ t, exec (.deepTestDone sd true) s = .next t ∧
      t.flag (Rg.healthTest sd) Fd.healthTestDeepTest = false ∧ (t.duty sd).tested = true ∧
      ((t.side sd).role = .joining ∨ (t.side sd).role = (s.side sd).role)) ∧
    (∀ sd, (s.side sd).cache = [] → exec (.maskRefresh sd) s = .next s) ∧
    (∀ sd k x key, (s.side sd).cache = [(k, x)] → Tbl.find (s.side sd).keys k = some key → ∃ t p, exec (.maskRefresh sd) s = .next t ∧
      Tbl.find (t.side sd).cache k = some p ∧ xorBytes p.1 p.2 = key ∧ (t.side sd).keys = (s.side sd).keys)

/-! ## The step and reset -/

/-- The block takes the command at the front of its queue and runs it with the queue's rest; with none it idles.
The idle step is log entry 4. -/
def Obligations.StepRunsFront : Prop :=
  (∀ (c : Instr) (l : List Instr) (s : State), s.pending = c :: l → step s = exec c { s with pending := l }) ∧
  ∀ s : State, s.pending = [] → step s = .next s

/-- Reset (R13, R174, R218, R397, R423, R448): both sides Out, no stall, no force, no command waiting, the one principal, the
setup key in slot 0 of both sides; the scan state is well formed and every register but those of slot 0 reads its reset value.
The pieces without a stated reset value are log entries 1 and 2. -/
def Obligations.ResetState : Prop :=
  State.reset.pending = [] ∧ State.reset.waiting = [] ∧ State.reset.now = 0 ∧ ScanOk State.reset ∧
  (∀ sd, (State.reset.side sd).role = .out ∧ (State.reset.side sd).rings = [] ∧ (State.reset.side sd).cache = [] ∧
    Tbl.find (State.reset.side sd).keys 0 = some Config.setupKey ∧ (∀ k, k ≠ 0 → Tbl.find (State.reset.side sd).keys k = none) ∧
    State.reset.slotFlag sd 0 Fd.keySlotValid = true) ∧
  (∀ stall, State.reset.stallState stall = 0) ∧ State.reset.forces = [] ∧ State.reset.leases = [] ∧
  (∃ p, Tbl.find State.reset.principals 1 = some p ∧ u8 p.record 4 = 4 ∧ u8 p.record 5 = 0xFF ∧ u8 p.record 6 = 0 ∧ u8 p.record 7 = 4) ∧
  (∀ o, o ≠ 1 → Tbl.find State.reset.principals o = none) ∧
  (∀ r : Reg, r.key ∉ [(Rg.keySlot .A 0).key, (Rg.keyStalls .A 0).key, (Rg.keySlot .B 0).key, (Rg.keyStalls .B 0).key] →
    State.reset.regWord r = r.reset)
end

