-- ==== Sys2Proof/Laws/Act.lean ====
section
/-! SUPPORT. An activation's registers and what ends an instruction: what the shared operations of Hyrra Scan Code do. -/

namespace Sys2Proof.Machine

/-- G0 reads 0 whatever was written (R139). -/
@[simp] theorem Act.rg_zero (a : Act) : a.rg 0 = 0 := by simp [Act.rg]

@[simp] theorem Act.wg_zero (a : Act) (v : Word) : a.wg 0 v = a := by simp [Act.wg]

/-- A general register written is read back. -/
theorem Act.rg_wg_same (a : Act) (r : BitVec 5) (v : Word) (h : r ≠ 0) : (a.wg r v).rg r = v := by
  unfold Act.rg Act.wg
  simp only [if_neg h]
  exact Vector.getElem_set_self _

/-- A write leaves every other general register. -/
theorem Act.rg_wg_other (a : Act) (r q : BitVec 5) (v : Word) (h : q ≠ r) : (a.wg r v).rg q = a.rg q := by
  unfold Act.rg Act.wg
  split
  · rfl
  · split
    · rfl
    · have hn : r.toNat ≠ q.toNat := fun e => h (BitVec.eq_of_toNat_eq e.symm)
      simp [hn]

/-- F0 reads 1 whatever was written (R139). -/
@[simp] theorem Act.rf_zero (a : Act) : a.rf 0 = true := by simp [Act.rf]

@[simp] theorem Act.wf_zero (a : Act) (v : Bool) : a.wf 0 v = a := by simp [Act.wf]

theorem Act.rf_wf_same (a : Act) (r : BitVec 3) (v : Bool) (h : r ≠ 0) : (a.wf r v).rf r = v := by
  unfold Act.rf Act.wf
  simp only [if_neg h]
  exact Vector.getElem_set_self _

theorem Act.rf_wf_other (a : Act) (r q : BitVec 3) (v : Bool) (h : q ≠ r) : (a.wf r v).rf q = a.rf q := by
  unfold Act.rf Act.wf
  split
  · rfl
  · split
    · rfl
    · have hn : r.toNat ≠ q.toNat := fun e => h (BitVec.eq_of_toNat_eq e.symm)
      simp [hn]

theorem Act.rp_wp_same (a : Act) (r : BitVec 4) (v : Cplx) : (a.wp r v).rp r = v := by
  simp [Act.rp, Act.wp]

theorem Act.rp_wp_other (a : Act) (r q : BitVec 4) (v : Cplx) (h : q ≠ r) : (a.wp r v).rp q = a.rp q := by
  have hn : r.toNat ≠ q.toNat := fun e => h (BitVec.eq_of_toNat_eq e.symm)
  simp [Act.rp, Act.wp, hn]

/-- An instruction that BUD can pay for (R124). -/
theorem Act.issue_paid (a : Act) (cost words : Nat) (f : Act → Act) (h : cost ≤ a.bud) :
    a.issue cost words f = f { a with bud := a.bud - cost, pc := a.pc + 4 * words } := by
  simp [Act.issue, Nat.not_lt.mpr h]

/-- An instruction that BUD cannot pay for aborts with BUDGET (R124). -/
theorem Act.issue_unpaid (a : Act) (cost words : Nat) (f : Act → Act) (h : a.bud < cost) :
    a.issue cost words f = a.abort .budget := by
  simp [Act.issue, h]

/-- Back edges change only BUD, the place of the next instruction, the loops, and perhaps abort with BUDGET (R153). -/
theorem loopEnds_frame (l : List LoopRec) (a : Act) :
    ∃ b pc loops st, loopEnds l a = { a with bud := b, pc := pc, loops := loops, status := st } ∧ b ≤ a.bud ∧
      (st = a.status ∨ st = .aborted .budget) := by
  induction l generalizing a with
  | nil => exact ⟨a.bud, a.pc, [], a.status, rfl, Nat.le_refl _, Or.inl rfl⟩
  | cons x rest ih =>
    unfold loopEnds
    split
    · split
      · exact ⟨a.bud, a.pc, x :: rest, .aborted .budget, rfl, Nat.le_refl _, Or.inr rfl⟩
      · split
        · exact ⟨a.bud - 1, x.start, _, a.status, rfl, Nat.sub_le _ _, Or.inl rfl⟩
        · obtain ⟨b, pc, loops, st, he, hb, hs⟩ := ih { a with bud := a.bud - 1 }
          exact ⟨b, pc, loops, st, he, Nat.le_trans hb (Nat.sub_le _ _), hs⟩
    · exact ⟨a.bud, a.pc, x :: rest, a.status, rfl, Nat.le_refl _, Or.inl rfl⟩

/-- A Hyrra command on a core that runs an activation. -/
theorem State.onAct_some (s : State) (c : CoreRef) (f : Act → Act) (a : Act)
    (h : (s.coreSt c.side c.core.val).cur = some a) : s.onAct c f = s.finish c.side c.core.val (f a) := by
  simp [State.onAct, h]

/-- A Hyrra command on a core that runs none. -/
theorem State.onAct_none (s : State) (c : CoreRef) (f : Act → Act) (h : (s.coreSt c.side c.core.val).cur = none) :
    s.onAct c f = s := by
  simp [State.onAct, h]

end Sys2Proof.Machine
end

