-- ==== Sys2Proof/Laws/Bytes.lean ====
section
/-! SUPPORT. Byte strings read past an appended part, and the range of the CRC of R55. -/

namespace Sys2Proof.Machine

/-- What is read before the end of a string does not depend on what follows it. -/
theorem sub_append (b x : Bytes) (off n : Nat) (h : off + n ≤ b.length) : sub (b ++ x) off n = sub b off n := by
  unfold sub
  rw [List.drop_append_of_le_length (by omega), List.take_append_of_le_length (by rw [List.length_drop]; omega)]

/-- Four bytes that spell a number read as it. -/
theorem u32_append (b : Bytes) (c : Nat) (h : c < 2 ^ 32) : u32 (b ++ beBytes 4 c) b.length = c := by
  simp only [u32, sub, List.drop_left, beBytes, List.take, beNat, List.length, List.foldl_cons, Nat.sub_self, List.replicate,
    List.append_nil, List.foldl_nil, BitVec.toNat_ofNat]
  omega

theorem crcBits_lt (poly : Nat) (hp : poly < 2 ^ 32) (k r : Nat) (h : r < 2 ^ 32) : crcBits k poly r < 2 ^ 32 := by
  induction k generalizing r with
  | zero => exact h
  | succ k ih =>
    refine ih _ ?_
    split
    · exact Nat.xor_lt_two_pow (by omega) hp
    · omega

theorem crcRun_lt (poly : Nat) (hp : poly < 2 ^ 32) (b : Bytes) (r : Nat) (h : r < 2 ^ 32) : crcRun poly b r < 2 ^ 32 := by
  induction b generalizing r with
  | nil => exact h
  | cons x b ih => exact ih _ (crcBits_lt poly hp 8 _ (Nat.xor_lt_two_pow h (by omega)))

theorem crc32c_lt (b : Bytes) : crc32c b < 2 ^ 32 :=
  Nat.xor_lt_two_pow (crcRun_lt _ (by decide) b _ (by decide)) (by decide)

end Sys2Proof.Machine
end

