-- ==== Sys2Proof/Laws/Cmd.lean ====
section
/-! SUPPORT. What the shared path of a command does: which commands execute at once, which are turned away. -/

namespace Sys2Proof.Machine

/-- A command that its side takes and that names no later tick executes at once. -/
theorem State.submit_now (s : State) (c : CmdSpec) (h : CmdHdr) (p : Bytes) (ha : s.barred c h p = none)
    (hd : (isOutside h && s.deepTest h.side) = false) (ht : h.applyTick = 0) : s.submit c h p = s.execute c h p := by
  simp [State.submit, State.take, ha, hd, ht, applyTickCheck]

/-- A command that its side refuses changes nothing but what its refusal leaves. -/
theorem State.submit_refused (s : State) (c : CmdSpec) (h : CmdHdr) (p : Bytes) (st : Status) (ha : s.barred c h p = some st) :
    s.submit c h p = (s.refusedPrincipal h st).turnAway h c.op st [] := by
  simp [State.submit, State.take, ha]

/-- A command through a side in deep self-test is refused with BUSY_TEST (R466). -/
theorem State.submit_deepTest (s : State) (c : CmdSpec) (h : CmdHdr) (p : Bytes) (ha : s.barred c h p = none)
    (hd : (isOutside h && s.deepTest h.side) = true) : s.submit c h p = s.turnAway h c.op .busyTest (zeros 8) := by
  simp [State.submit, State.take, ha, hd]

/-- A command of the module itself is always admitted. -/
theorem State.admit_internal (s : State) (c : CmdSpec) (h : CmdHdr) (p : Bytes) (hi : h.transport = .internal) :
    s.barred c h p = none := by
  simp [State.barred, hi]

/-- The module's own commands and BAR0 accesses get no reply. -/
theorem State.replyKey_internal (s : State) (k : Option Bytes) (h : CmdHdr) (op : Nat) (st : Status) (t : Nat) (b : Bytes)
    (hi : h.transport = .internal ∨ h.transport = .bar0) : s.replyKey k h op st t b = s := by
  rcases hi with hi | hi <;> simp [State.replyKey, State.answerWith, hi]

/-- With no validation in progress a command abandons none. -/
theorem State.abandonValidations_none (s : State) (h : s.validations = []) : s.abandonValidations = s := by
  simp [State.abandonValidations, h]

end Sys2Proof.Machine
end

