-- ==== Sys2Proof/Laws/Mem.lean ====
section
/-! SUPPORT. Every memory operation keeps the canonical form of a segment; a byte written is the byte read, and every other
byte stays. -/

namespace Sys2Proof.Machine

theorem memWfFrom_mono {lo lo' : Nat} {m : Mem} (h : memWfFrom lo m = true) (hl : lo' ≤ lo) : memWfFrom lo' m = true := by
  cases m with
  | nil => rfl
  | cons c rest =>
    simp only [memWfFrom, Bool.and_eq_true, decide_eq_true_eq] at h ⊢
    exact ⟨⟨by omega, h.1.2⟩, h.2⟩

/-- Below its first cell a segment reads 0. -/
theorem memRead_below {lo a : Nat} {m : Mem} (h : memWfFrom lo m = true) (ha : a < lo) : memRead m a = 0 := by
  induction m generalizing lo with
  | nil => rfl
  | cons c rest ih =>
    simp only [memWfFrom, Bool.and_eq_true, decide_eq_true_eq] at h
    simp only [memRead]
    rw [if_neg (by omega)]
    exact ih h.2 (by omega)

theorem memWfFrom_write {lo a : Nat} {m : Mem} {v : Byte} (h : memWfFrom lo m = true) (ha : lo ≤ a) :
    memWfFrom lo (memWrite m a v) = true := by
  induction m generalizing lo with
  | nil =>
    unfold memWrite
    split
    · rfl
    · rename_i hv
      simp only [memWfFrom, Bool.and_eq_true, decide_eq_true_eq]
      exact ⟨⟨ha, by simpa using hv⟩, trivial⟩
  | cons c rest ih =>
    obtain ⟨k, b⟩ := c
    simp only [memWfFrom, Bool.and_eq_true, decide_eq_true_eq] at h
    unfold memWrite
    split
    · split
      · simp only [memWfFrom, Bool.and_eq_true, decide_eq_true_eq]; exact h
      · rename_i hv
        simp only [memWfFrom, Bool.and_eq_true, decide_eq_true_eq]
        exact ⟨⟨ha, by simpa using hv⟩, ⟨by omega, h.1.2⟩, h.2⟩
    · split
      · split
        · exact memWfFrom_mono h.2 (by omega)
        · rename_i hk hv
          simp only [memWfFrom, Bool.and_eq_true, decide_eq_true_eq]
          exact ⟨⟨ha, by simpa using hv⟩, by rw [hk]; exact h.2⟩
      · simp only [memWfFrom, Bool.and_eq_true, decide_eq_true_eq]
        exact ⟨h.1, ih h.2 (by omega)⟩

/-- A write keeps the canonical form. -/
theorem memWf_write {m : Mem} (a : Nat) (v : Byte) (h : memWf m = true) : memWf (memWrite m a v) = true :=
  memWfFrom_write h (Nat.zero_le _)

/-- Writing bytes keeps the canonical form. -/
theorem memWf_writeBytes {m : Mem} (a : Nat) (bs : Bytes) (h : memWf m = true) : memWf (memWriteBytes m a bs) = true := by
  induction bs generalizing m a with
  | nil => exact h
  | cons b bs ih => exact ih _ (memWf_write a b h)

/-- A store keeps the canonical form. -/
theorem memWf_store {m : Mem} (a n v : Nat) (h : memWf m = true) : memWf (memStore m a n v) = true :=
  memWf_writeBytes a _ h

theorem memWfFrom_memOf (a : Nat) (bs : Bytes) : memWfFrom a (memOfFrom a bs) = true := by
  induction bs generalizing a with
  | nil => rfl
  | cons b bs ih =>
    unfold memOfFrom
    split
    · exact memWfFrom_mono (ih (a + 1)) (by omega)
    · rename_i hb
      simp only [memWfFrom, Bool.and_eq_true, decide_eq_true_eq]
      exact ⟨⟨Nat.le_refl _, by simpa using hb⟩, ih (a + 1)⟩

/-- A segment made of a byte string is in canonical form. -/
theorem memWf_memOf (bs : Bytes) : memWf (memOf bs) = true := memWfFrom_memOf 0 bs

theorem memRead_writeFrom {lo a a' : Nat} {m : Mem} {v : Byte} (h : memWfFrom lo m = true) :
    memRead (memWrite m a v) a' = if a' = a then v else memRead m a' := by
  induction m generalizing lo with
  | nil =>
    unfold memWrite
    split
    · rename_i hv
      split
      · rw [hv]; rfl
      · rfl
    · by_cases ha : a' = a
      · simp [memRead, ha]
      · simp [memRead, ha, show ¬ a = a' by omega]
  | cons c rest ih =>
    obtain ⟨k, b⟩ := c
    have hc := h
    simp only [memWfFrom, Bool.and_eq_true, decide_eq_true_eq] at h
    unfold memWrite
    split
    · rename_i hk
      split
      · rename_i hv
        by_cases ha : a' = a
        · subst ha
          have : memRead rest a' = 0 := memRead_below h.2 (by omega)
          simp [memRead, hv, this, show ¬ k = a' by omega]
        · simp [ha]
      · by_cases ha : a' = a
        · simp [memRead, ha]
        · simp [memRead, ha, show ¬ a = a' by omega]
    · split
      · rename_i hk
        subst hk
        split
        · rename_i hv
          by_cases ha : a' = a
          · subst ha
            have : memRead rest a' = 0 := memRead_below h.2 (by omega)
            simp [this, hv]
          · simp [memRead, ha, show ¬ a = a' by omega]
        · by_cases ha : a' = a
          · simp [memRead, ha]
          · simp [memRead, ha, show ¬ a = a' by omega]
      · rename_i h1 h2
        simp only [memRead]
        by_cases hk : k = a'
        · rw [if_pos hk, if_pos hk, if_neg (by omega)]
        · rw [if_neg hk, if_neg hk, ih h.2]

/-- A byte written is read back; every other byte stays. -/
theorem memRead_write {m : Mem} (a a' : Nat) (v : Byte) (h : memWf m = true) :
    memRead (memWrite m a v) a' = if a' = a then v else memRead m a' := memRead_writeFrom h

/-- Every byte outside those written stays. -/
theorem memRead_writeBytes_outside {m : Mem} (a a' : Nat) (bs : Bytes) (h : memWf m = true)
    (ho : a' < a ∨ a + bs.length ≤ a') : memRead (memWriteBytes m a bs) a' = memRead m a' := by
  induction bs generalizing m a with
  | nil => rfl
  | cons b bs ih =>
    simp only [List.length_cons] at ho
    unfold memWriteBytes
    rw [ih _ (memWf_write a b h) (by omega), memRead_write a a' b h, if_neg (by omega)]

/-- Bytes written are read back. -/
theorem memReadBytes_writeBytes {m : Mem} (a : Nat) (bs : Bytes) (h : memWf m = true) :
    memReadBytes (memWriteBytes m a bs) a bs.length = bs := by
  induction bs generalizing m a with
  | nil => rfl
  | cons b bs ih =>
    simp only [List.length_cons, memReadBytes, memWriteBytes]
    rw [ih _ (memWf_write a b h), memRead_writeBytes_outside _ _ _ (memWf_write a b h) (by omega), memRead_write a a b h, if_pos rfl]

@[simp] theorem beBytes_length (n v : Nat) : (beBytes n v).length = n := by
  induction n with
  | zero => rfl
  | succ n ih => simp [beBytes, ih]

end Sys2Proof.Machine
end

