-- ==== Sys2Proof/Laws/PerInstr.lean ====
section
/-! SUPPORT. One lemma per command: a well-formed command has words (R145) exactly when it is a defined instruction of
Hyrra Scan Code (R138). The other commands have none: the opcode table gives them no bits. -/

namespace Sys2Proof

open Machine

/-- What every command says of its words. -/
def Laws.Encoding.Statement (i : Instr) : Prop := i.wf = true → (hscEncode i).isSome = (hscMeaning i).isSome

/-- A Hyrra command has words; a well-formed one has a meaning. -/
theorem Laws.Encoding.words {i : Instr} (he : (hscEncode i).isSome = true) (hw : i.wf = (hscMeaning i).isSome) :
    Laws.Encoding.Statement i := fun h => he.trans (h.symm.trans hw)

theorem Laws.Encoding.powerGood (holdupOk : Bool) (rtcA rtcB : Option (BitVec 48 × Word)) : Laws.Encoding.Statement (.powerGood holdupOk rtcA rtcB) :=
  fun _ => rfl

theorem Laws.Encoding.loaderVerify (side : SideId) (verified : Bool) (report : LoaderReport) : Laws.Encoding.Statement (.loaderVerify side verified report) :=
  fun _ => rfl

theorem Laws.Encoding.selftestComplete (side : SideId) (pass : Bool) (ms : BitVec 16) (retired : List Word) : Laws.Encoding.Statement (.selftestComplete side pass ms retired) :=
  fun _ => rfl

theorem Laws.Encoding.startRoleTimeout : Laws.Encoding.Statement (.startRoleTimeout) :=
  fun _ => rfl

theorem Laws.Encoding.serviceGateOpen (ms : Word) : Laws.Encoding.Statement (.serviceGateOpen ms) :=
  fun _ => rfl

theorem Laws.Encoding.gateWait : Laws.Encoding.Statement (.gateWait) :=
  fun _ => rfl

theorem Laws.Encoding.pfWarnAssert (ns : Nat) : Laws.Encoding.Statement (.pfWarnAssert ns) :=
  fun _ => rfl

theorem Laws.Encoding.powerDip : Laws.Encoding.Statement (.powerDip) :=
  fun _ => rfl

theorem Laws.Encoding.powerHalt (stopTick : DWord) : Laws.Encoding.Statement (.powerHalt stopTick) :=
  fun _ => rfl

theorem Laws.Encoding.orderlyStopEnd (inputPresent : Bool) : Laws.Encoding.Statement (.orderlyStopEnd inputPresent) :=
  fun _ => rfl

theorem Laws.Encoding.inputReturnInStop : Laws.Encoding.Statement (.inputReturnInStop) :=
  fun _ => rfl

theorem Laws.Encoding.parkedInputLoss : Laws.Encoding.Statement (.parkedInputLoss) :=
  fun _ => rfl

theorem Laws.Encoding.resetReq : Laws.Encoding.Statement (.resetReq) :=
  fun _ => rfl

theorem Laws.Encoding.resetReqLong : Laws.Encoding.Statement (.resetReqLong) :=
  fun _ => rfl

theorem Laws.Encoding.wakeReq : Laws.Encoding.Statement (.wakeReq) :=
  fun _ => rfl

theorem Laws.Encoding.wakePattern (side : SideId) (id : BitVec 48) (code : Word) : Laws.Encoding.Statement (.wakePattern side id code) :=
  fun _ => rfl

theorem Laws.Encoding.wakeLockout (side : SideId) : Laws.Encoding.Statement (.wakeLockout side) :=
  fun _ => rfl

theorem Laws.Encoding.wakeLockoutEnd (side : SideId) : Laws.Encoding.Statement (.wakeLockoutEnd side) :=
  fun _ => rfl

theorem Laws.Encoding.auxOvercurrent : Laws.Encoding.Statement (.auxOvercurrent) :=
  fun _ => rfl

theorem Laws.Encoding.auxRetry : Laws.Encoding.Statement (.auxRetry) :=
  fun _ => rfl

theorem Laws.Encoding.junctionTempWarn (side : SideId) (temp : BitVec 16) : Laws.Encoding.Statement (.junctionTempWarn side temp) :=
  fun _ => rfl

theorem Laws.Encoding.railFault (side : SideId) (rail : Fin 8) (milliVolts dev : BitVec 16) : Laws.Encoding.Statement (.railFault side rail milliVolts dev) :=
  fun _ => rfl

theorem Laws.Encoding.clockFault (side : SideId) : Laws.Encoding.Statement (.clockFault side) :=
  fun _ => rfl

theorem Laws.Encoding.dieOvertemp (side : SideId) (temp : BitVec 16) : Laws.Encoding.Statement (.dieOvertemp side temp) :=
  fun _ => rfl

theorem Laws.Encoding.arbLinkLoss (side : SideId) : Laws.Encoding.Statement (.arbLinkLoss side) :=
  fun _ => rfl

theorem Laws.Encoding.watchdogExpiry (side : SideId) : Laws.Encoding.Statement (.watchdogExpiry side) :=
  fun _ => rfl

theorem Laws.Encoding.peerDemotionLearned (side : SideId) (ns : Nat) : Laws.Encoding.Statement (.peerDemotionLearned side ns) :=
  fun _ => rfl

theorem Laws.Encoding.roleClaimChange (side : SideId) : Laws.Encoding.Statement (.roleClaimChange side) :=
  fun _ => rfl

theorem Laws.Encoding.arbTickPulse (side : SideId) (ns : Nat) : Laws.Encoding.Statement (.arbTickPulse side ns) :=
  fun _ => rfl

theorem Laws.Encoding.arbSideSilent (side : SideId) : Laws.Encoding.Statement (.arbSideSilent side) :=
  fun _ => rfl

theorem Laws.Encoding.noImageTimeout : Laws.Encoding.Statement (.noImageTimeout) :=
  fun _ => rfl

theorem Laws.Encoding.fieldEdgeAccept (ch : Fin 32) (level : Bool) (tagTick : DWord) (tagUs : BitVec 8) : Laws.Encoding.Statement (.fieldEdgeAccept ch level tagTick tagUs) :=
  fun _ => rfl

theorem Laws.Encoding.discrepancyTimeout (inst : Fin 32) : Laws.Encoding.Statement (.discrepancyTimeout inst) :=
  fun _ => rfl

theorem Laws.Encoding.feedbackTimeout (inst : Fin 32) : Laws.Encoding.Statement (.feedbackTimeout inst) :=
  fun _ => rfl

theorem Laws.Encoding.permitDisagreeTimeout (inst : Fin 32) : Laws.Encoding.Statement (.permitDisagreeTimeout inst) :=
  fun _ => rfl

theorem Laws.Encoding.outputShort (ch : Fin 32) : Laws.Encoding.Statement (.outputShort ch) :=
  fun _ => rfl

theorem Laws.Encoding.shortRetry (ch : Fin 32) : Laws.Encoding.Statement (.shortRetry ch) :=
  fun _ => rfl

theorem Laws.Encoding.shortRetryClear (ch : Fin 32) : Laws.Encoding.Statement (.shortRetryClear ch) :=
  fun _ => rfl

theorem Laws.Encoding.openLoadDetect (ch : Fin 32) : Laws.Encoding.Statement (.openLoadDetect ch) :=
  fun _ => rfl

theorem Laws.Encoding.openLoadClear (ch : Fin 32) : Laws.Encoding.Statement (.openLoadClear ch) :=
  fun _ => rfl

theorem Laws.Encoding.wireBreakDeclare (ch : Fin 32) : Laws.Encoding.Statement (.wireBreakDeclare ch) :=
  fun _ => rfl

theorem Laws.Encoding.wireBreakClear (ch : Fin 32) : Laws.Encoding.Statement (.wireBreakClear ch) :=
  fun _ => rfl

theorem Laws.Encoding.fieldSupplyChange (centiVolts : BitVec 16) : Laws.Encoding.Statement (.fieldSupplyChange centiVolts) :=
  fun _ => rfl

theorem Laws.Encoding.tickStart (w : DWord) : Laws.Encoding.Statement (.tickStart w) :=
  fun _ => rfl

theorem Laws.Encoding.comparatorPickup (side : SideId) (chan : Fin 8192) (comp : Fin 4) : Laws.Encoding.Statement (.comparatorPickup side chan comp) :=
  fun _ => rfl

theorem Laws.Encoding.comparatorDropout (side : SideId) (chan : Fin 8192) (comp : Fin 4) : Laws.Encoding.Statement (.comparatorDropout side chan comp) :=
  fun _ => rfl

theorem Laws.Encoding.chainSettled (side : SideId) (chan : Fin 8192) : Laws.Encoding.Statement (.chainSettled side chan) :=
  fun _ => rfl

theorem Laws.Encoding.settlingEnd (side : SideId) (chan : Fin 8192) : Laws.Encoding.Statement (.settlingEnd side chan) :=
  fun _ => rfl

theorem Laws.Encoding.streamAbsent (side : SideId) (slot : Fin 1024) : Laws.Encoding.Statement (.streamAbsent side slot) :=
  fun _ => rfl

theorem Laws.Encoding.activationStart (core : CoreRef) : Laws.Encoding.Statement (.activationStart core) :=
  fun _ => rfl

theorem Laws.Encoding.bellReceive (side : SideId) (intact : Bool) (arrival : BellArrival) : Laws.Encoding.Statement (.bellReceive side intact arrival) :=
  fun _ => rfl

theorem Laws.Encoding.bellDeadline (side : SideId) : Laws.Encoding.Statement (.bellDeadline side) :=
  fun _ => rfl

theorem Laws.Encoding.bellLoss (side : SideId) : Laws.Encoding.Statement (.bellLoss side) :=
  fun _ => rfl

theorem Laws.Encoding.digestEcho : Laws.Encoding.Statement (.digestEcho) :=
  fun _ => rfl

theorem Laws.Encoding.drillVerdict (faultA faultB : DrillFault) : Laws.Encoding.Statement (.drillVerdict faultA faultB) :=
  fun _ => rfl

theorem Laws.Encoding.migrationNotice (side : SideId) : Laws.Encoding.Statement (.migrationNotice side) :=
  fun _ => rfl

theorem Laws.Encoding.tallyLimit (stall : Fin 64) : Laws.Encoding.Statement (.tallyLimit stall) :=
  fun _ => rfl

theorem Laws.Encoding.windowAbort (core : CoreRef) : Laws.Encoding.Statement (.windowAbort core) :=
  fun _ => rfl

theorem Laws.Encoding.coreFailure (core : CoreRef) : Laws.Encoding.Statement (.coreFailure core) :=
  fun _ => rfl

theorem Laws.Encoding.clusterFailure (side : SideId) (cluster : Fin 10) (uncorrectable : Bool) : Laws.Encoding.Statement (.clusterFailure side cluster uncorrectable) :=
  fun _ => rfl

theorem Laws.Encoding.forceExpiry (handle : BitVec 8) : Laws.Encoding.Statement (.forceExpiry handle) :=
  fun _ => rfl

theorem Laws.Encoding.gooseRepeat (side : SideId) (index : Fin 512) : Laws.Encoding.Statement (.gooseRepeat side index) :=
  fun _ => rfl

theorem Laws.Encoding.gooseSubExpiry (index : Fin 2048) : Laws.Encoding.Statement (.gooseSubExpiry index) :=
  fun _ => rfl

theorem Laws.Encoding.gooseFrameCheck (side : SideId) (f : GooseFrame) (ns : Nat) : Laws.Encoding.Statement (.gooseFrameCheck side f ns) :=
  fun _ => rfl

theorem Laws.Encoding.telegramReceive (side : SideId) (lan : SideId) (f : TeleFrame) : Laws.Encoding.Statement (.telegramReceive side lan f) :=
  fun _ => rfl

theorem Laws.Encoding.telegramWatchdog (tele : Fin 64) : Laws.Encoding.Statement (.telegramWatchdog tele) :=
  fun _ => rfl

theorem Laws.Encoding.svFrameIntake (side : SideId) (port : SideId) (f : SvFrame) (ingress : Nat) : Laws.Encoding.Statement (.svFrameIntake side port f ingress) :=
  fun _ => rfl

theorem Laws.Encoding.svFailureRun (side : SideId) (slot : Fin 1024) (reason : BitVec 4) : Laws.Encoding.Statement (.svFailureRun side slot reason) :=
  fun _ => rfl

theorem Laws.Encoding.dupEntryExpiry (side : SideId) (src : BitVec 48) (seqNo : BitVec 16) : Laws.Encoding.Statement (.dupEntryExpiry side src seqNo) :=
  fun _ => rfl

theorem Laws.Encoding.frameReceive (side : SideId) (port : Fin 11) (f : EthFrame) (ns : Nat) : Laws.Encoding.Statement (.frameReceive side port f ns) :=
  fun _ => rfl

theorem Laws.Encoding.frameTransmit (side : SideId) (port : Fin 16) (ns : Nat) : Laws.Encoding.Statement (.frameTransmit side port ns) :=
  fun _ => rfl

theorem Laws.Encoding.prpSupervision (side : SideId) : Laws.Encoding.Statement (.prpSupervision side) :=
  fun _ => rfl

theorem Laws.Encoding.prpNodeExpiry (side : SideId) (mac : BitVec 48) : Laws.Encoding.Statement (.prpNodeExpiry side mac) :=
  fun _ => rfl

theorem Laws.Encoding.xlinkLaneFail (lane : Lane) : Laws.Encoding.Statement (.xlinkLaneFail lane) :=
  fun _ => rfl

theorem Laws.Encoding.pathRestore (upper : Bool) : Laws.Encoding.Statement (.pathRestore upper) :=
  fun _ => rfl

theorem Laws.Encoding.crosslinkRecover : Laws.Encoding.Statement .crosslinkRecover :=
  fun _ => rfl

theorem Laws.Encoding.hsrRingOpen (side : SideId) : Laws.Encoding.Statement (.hsrRingOpen side) :=
  fun _ => rfl

theorem Laws.Encoding.portLinkChange (side : SideId) (port : Fin 16) (up localFault remoteFault : Bool) : Laws.Encoding.Statement (.portLinkChange side port up localFault remoteFault) :=
  fun _ => rfl

theorem Laws.Encoding.prbsLaneErrors (side : SideId) (lane : Fin 2) (errors : BitVec 16) : Laws.Encoding.Statement (.prbsLaneErrors side lane errors) :=
  fun _ => rfl

theorem Laws.Encoding.segmentSend (side : SideId) (port : Fin 16) (send : BigSend) : Laws.Encoding.Statement (.segmentSend side port send) :=
  fun _ => rfl

theorem Laws.Encoding.servoUpdate (theta : Int) : Laws.Encoding.Statement (.servoUpdate theta) :=
  fun _ => rfl

theorem Laws.Encoding.announceReceive (m : Announce) : Laws.Encoding.Statement (.announceReceive m) :=
  fun _ => rfl

theorem Laws.Encoding.holdoverEntry : Laws.Encoding.Statement (.holdoverEntry) :=
  fun _ => rfl

theorem Laws.Encoding.holdLong : Laws.Encoding.Statement (.holdLong) :=
  fun _ => rfl

theorem Laws.Encoding.timeStepApply : Laws.Encoding.Statement (.timeStepApply) :=
  fun _ => rfl

theorem Laws.Encoding.ppsInputEdge (theta : Int) : Laws.Encoding.Statement (.ppsInputEdge theta) :=
  fun _ => rfl

theorem Laws.Encoding.timeGuardRetry (side : SideId) (offset : Int) : Laws.Encoding.Statement (.timeGuardRetry side offset) :=
  fun _ => rfl

theorem Laws.Encoding.t0DriftLimit (betweenModules : Bool) : Laws.Encoding.Statement (.t0DriftLimit betweenModules) :=
  fun _ => rfl

theorem Laws.Encoding.smirnelLoss : Laws.Encoding.Statement (.smirnelLoss) :=
  fun _ => rfl

theorem Laws.Encoding.pairDemotionNotice : Laws.Encoding.Statement .pairDemotionNotice :=
  fun _ => rfl

theorem Laws.Encoding.egressFaultStop : Laws.Encoding.Statement (.egressFaultStop) :=
  fun _ => rfl

theorem Laws.Encoding.resyncBulkDone (side : SideId) : Laws.Encoding.Statement (.resyncBulkDone side) :=
  fun _ => rfl

theorem Laws.Encoding.resyncAttemptFail (side : SideId) : Laws.Encoding.Statement (.resyncAttemptFail side) :=
  fun _ => rfl

theorem Laws.Encoding.resyncRetry (side : SideId) : Laws.Encoding.Statement (.resyncRetry side) :=
  fun _ => rfl

theorem Laws.Encoding.wavefrontEdge (side : SideId) (input : Fin 8) (rising : Bool) (t64 : Nat) : Laws.Encoding.Statement (.wavefrontEdge side input rising t64) :=
  fun _ => rfl

theorem Laws.Encoding.destOverflow (side : SideId) (dram : Bool) (dest : Fin 64) : Laws.Encoding.Statement (.destOverflow side dram dest) :=
  fun _ => rfl

theorem Laws.Encoding.canFrameReceive (side : SideId) (f : CanFrame) (ns : Word) : Laws.Encoding.Statement (.canFrameReceive side f ns) :=
  fun _ => rfl

theorem Laws.Encoding.canBusOff (side : SideId) : Laws.Encoding.Statement (.canBusOff side) :=
  fun _ => rfl

theorem Laws.Encoding.canBusOffRecovery (side : SideId) : Laws.Encoding.Statement (.canBusOffRecovery side) :=
  fun _ => rfl

theorem Laws.Encoding.canBusRejoin (side : SideId) : Laws.Encoding.Statement (.canBusRejoin side) :=
  fun _ => rfl

theorem Laws.Encoding.canArbitrationLoss (side : SideId) (error : Bool) : Laws.Encoding.Statement (.canArbitrationLoss side error) :=
  fun _ => rfl

theorem Laws.Encoding.canTxDone (side : SideId) : Laws.Encoding.Statement (.canTxDone side) :=
  fun _ => rfl

theorem Laws.Encoding.doorbellWrite (side : SideId) (ring : Fin 64) (tail : Word) (filled : List Descriptor) : Laws.Encoding.Statement (.doorbellWrite side ring tail filled) :=
  fun _ => rfl

theorem Laws.Encoding.mailboxCommand (side : SideId) (ring : Fin 64) : Laws.Encoding.Statement (.mailboxCommand side ring) :=
  fun _ => rfl

theorem Laws.Encoding.toHostTimeout (side : SideId) (ring : Fin 64) : Laws.Encoding.Statement (.toHostTimeout side ring) :=
  fun _ => rfl

theorem Laws.Encoding.dmaError (side : SideId) (ring : Fin 64) : Laws.Encoding.Statement (.dmaError side ring) :=
  fun _ => rfl

theorem Laws.Encoding.msixHoldoffEnd (side : SideId) (ring : Fin 64) : Laws.Encoding.Statement (.msixHoldoffEnd side ring) :=
  fun _ => rfl

theorem Laws.Encoding.ringResetDone (side : SideId) (ring : Fin 64) : Laws.Encoding.Statement (.ringResetDone side ring) :=
  fun _ => rfl

theorem Laws.Encoding.functionLevelReset (side : SideId) : Laws.Encoding.Statement (.functionLevelReset side) :=
  fun _ => rfl

theorem Laws.Encoding.pcieLinkUp (side : SideId) (gen width : BitVec 3) (busMaster : Bool) : Laws.Encoding.Statement (.pcieLinkUp side gen width busMaster) :=
  fun _ => rfl

theorem Laws.Encoding.commandPacket (side : SideId) (transport : Transport) (port : Fin 16) (fragment : Bool) (packet : Bytes) : Laws.Encoding.Statement (.commandPacket side transport port fragment packet) :=
  fun _ => rfl

theorem Laws.Encoding.commandApply (side : SideId) : Laws.Encoding.Statement (.commandApply side) :=
  fun _ => rfl

theorem Laws.Encoding.consoleGapTimeout (side : SideId) : Laws.Encoding.Statement (.consoleGapTimeout side) :=
  fun _ => rfl

theorem Laws.Encoding.correctedError (side : SideId) (part word : Word) (bits : BitVec 3) : Laws.Encoding.Statement (.correctedError side part word bits) :=
  fun _ => rfl

theorem Laws.Encoding.uncorrectableError (side : SideId) (part word : Word) : Laws.Encoding.Statement (.uncorrectableError side part word) :=
  fun _ => rfl

theorem Laws.Encoding.slotTagFail (side : SideId) (slot : Fin 64) : Laws.Encoding.Statement (.slotTagFail side slot) :=
  fun _ => rfl

theorem Laws.Encoding.mgmtCoreFail (side : SideId) : Laws.Encoding.Statement (.mgmtCoreFail side) :=
  fun _ => rfl

theorem Laws.Encoding.deepTestDone (side : SideId) (pass : Bool) : Laws.Encoding.Statement (.deepTestDone side pass) :=
  fun _ => rfl

theorem Laws.Encoding.validationDone (stall : Fin 64) : Laws.Encoding.Statement (.validationDone stall) :=
  fun _ => rfl

theorem Laws.Encoding.cfgRingImageHeld (image : Bytes) : Laws.Encoding.Statement (.cfgRingImageHeld image) :=
  fun _ => rfl

theorem Laws.Encoding.peerRestore (side : SideId) : Laws.Encoding.Statement (.peerRestore side) :=
  fun _ => rfl

theorem Laws.Encoding.norRestoreDone (side : SideId) : Laws.Encoding.Statement (.norRestoreDone side) :=
  fun _ => rfl

theorem Laws.Encoding.updateActivation : Laws.Encoding.Statement (.updateActivation) :=
  fun _ => rfl

theorem Laws.Encoding.gambitConfirm : Laws.Encoding.Statement (.gambitConfirm) :=
  fun _ => rfl

theorem Laws.Encoding.gambitWindowExpiry : Laws.Encoding.Statement (.gambitWindowExpiry) :=
  fun _ => rfl

theorem Laws.Encoding.secondSideCopyDone : Laws.Encoding.Statement (.secondSideCopyDone) :=
  fun _ => rfl

theorem Laws.Encoding.secondSideReboot : Laws.Encoding.Statement (.secondSideReboot) :=
  fun _ => rfl

theorem Laws.Encoding.safeUnlockExpiry (origin : Word) : Laws.Encoding.Statement (.safeUnlockExpiry origin) :=
  fun _ => rfl

theorem Laws.Encoding.safeLockoutEnd : Laws.Encoding.Statement (.safeLockoutEnd) :=
  fun _ => rfl

theorem Laws.Encoding.maskRefresh (side : SideId) : Laws.Encoding.Statement (.maskRefresh side) :=
  fun _ => rfl

theorem Laws.Encoding.timeNsRead (side : SideId) (bar0 : Bool) (sec : BitVec 48) (ns : Word) (frac : BitVec 16) : Laws.Encoding.Statement (.timeNsRead side bar0 sec ns frac) :=
  fun _ => rfl

theorem Laws.Encoding.txtsEntryRead (side : SideId) (port : Fin 11) : Laws.Encoding.Statement (.txtsEntryRead side port) :=
  fun _ => rfl

theorem Laws.Encoding.rxqHeadRead (side : SideId) (queue : Fin 2) : Laws.Encoding.Statement (.rxqHeadRead side queue) :=
  fun _ => rfl

theorem Laws.Encoding.timeSetGo (side : SideId) : Laws.Encoding.Statement (.timeSetGo side) :=
  fun _ => rfl

theorem Laws.Encoding.timeSetCancel (side : SideId) : Laws.Encoding.Statement (.timeSetCancel side) :=
  fun _ => rfl

theorem Laws.Encoding.ringCfgReset (side : SideId) (ring : Fin 64) : Laws.Encoding.Statement (.ringCfgReset side ring) :=
  fun _ => rfl

theorem Laws.Encoding.wakeIdWrite (side : SideId) (id : BitVec 48) : Laws.Encoding.Statement (.wakeIdWrite side id) :=
  fun _ => rfl

theorem Laws.Encoding.wakeCodeWrite (side : SideId) (code : Word) : Laws.Encoding.Statement (.wakeCodeWrite side code) :=
  fun _ => rfl

theorem Laws.Encoding.registerWrite (h : CmdHdr) (addr : Word) (width : BitVec 4) (value : DWord) : Laws.Encoding.Statement (.registerWrite h addr width value) :=
  fun _ => rfl

theorem Laws.Encoding.identify (h : CmdHdr) (p : Bytes) : Laws.Encoding.Statement (.identify h p) :=
  fun _ => rfl

theorem Laws.Encoding.echo (h : CmdHdr) (p : Bytes) : Laws.Encoding.Statement (.echo h p) :=
  fun _ => rfl

theorem Laws.Encoding.cmdOutcome (h : CmdHdr) (p : Bytes) : Laws.Encoding.Statement (.cmdOutcome h p) :=
  fun _ => rfl

theorem Laws.Encoding.originSet (h : CmdHdr) (p : Bytes) : Laws.Encoding.Statement (.originSet h p) :=
  fun _ => rfl

theorem Laws.Encoding.originDelete (h : CmdHdr) (p : Bytes) : Laws.Encoding.Statement (.originDelete h p) :=
  fun _ => rfl

theorem Laws.Encoding.originRead (h : CmdHdr) (p : Bytes) : Laws.Encoding.Statement (.originRead h p) :=
  fun _ => rfl

theorem Laws.Encoding.cmdStatus (h : CmdHdr) (p : Bytes) : Laws.Encoding.Statement (.cmdStatus h p) :=
  fun _ => rfl

theorem Laws.Encoding.crierNote (h : CmdHdr) (code : BitVec 16) (ledgerSeq : DWord) (body : Bytes) : Laws.Encoding.Statement (.crierNote h code ledgerSeq body) :=
  fun _ => rfl

theorem Laws.Encoding.regRead (h : CmdHdr) (p : Bytes) : Laws.Encoding.Statement (.regRead h p) :=
  fun _ => rfl

theorem Laws.Encoding.regWrite (h : CmdHdr) (p : Bytes) : Laws.Encoding.Statement (.regWrite h p) :=
  fun _ => rfl

theorem Laws.Encoding.regModify (h : CmdHdr) (p : Bytes) : Laws.Encoding.Statement (.regModify h p) :=
  fun _ => rfl

theorem Laws.Encoding.cfgStatus (h : CmdHdr) (p : Bytes) : Laws.Encoding.Statement (.cfgStatus h p) :=
  fun _ => rfl

theorem Laws.Encoding.cfgLoadBlock (h : CmdHdr) (p : Bytes) : Laws.Encoding.Statement (.cfgLoadBlock h p) :=
  fun _ => rfl

theorem Laws.Encoding.cfgLoadRing (h : CmdHdr) (p : Bytes) : Laws.Encoding.Statement (.cfgLoadRing h p) :=
  fun _ => rfl

theorem Laws.Encoding.cfgCopy (h : CmdHdr) (p : Bytes) : Laws.Encoding.Statement (.cfgCopy h p) :=
  fun _ => rfl

theorem Laws.Encoding.cfgValidate (h : CmdHdr) (p : Bytes) : Laws.Encoding.Statement (.cfgValidate h p) :=
  fun _ => rfl

theorem Laws.Encoding.castle (h : CmdHdr) (p : Bytes) : Laws.Encoding.Statement (.castle h p) :=
  fun _ => rfl

theorem Laws.Encoding.cfgRead (h : CmdHdr) (p : Bytes) : Laws.Encoding.Statement (.cfgRead h p) :=
  fun _ => rfl

theorem Laws.Encoding.stallCreate (h : CmdHdr) (p : Bytes) : Laws.Encoding.Statement (.stallCreate h p) :=
  fun _ => rfl

theorem Laws.Encoding.stallDelete (h : CmdHdr) (p : Bytes) : Laws.Encoding.Statement (.stallDelete h p) :=
  fun _ => rfl

theorem Laws.Encoding.stallResize (h : CmdHdr) (p : Bytes) : Laws.Encoding.Statement (.stallResize h p) :=
  fun _ => rfl

theorem Laws.Encoding.stallDropShadow (h : CmdHdr) (p : Bytes) : Laws.Encoding.Statement (.stallDropShadow h p) :=
  fun _ => rfl

theorem Laws.Encoding.stallStart (h : CmdHdr) (p : Bytes) : Laws.Encoding.Statement (.stallStart h p) :=
  fun _ => rfl

theorem Laws.Encoding.stallStop (h : CmdHdr) (p : Bytes) : Laws.Encoding.Statement (.stallStop h p) :=
  fun _ => rfl

theorem Laws.Encoding.stallReset (h : CmdHdr) (p : Bytes) : Laws.Encoding.Statement (.stallReset h p) :=
  fun _ => rfl

theorem Laws.Encoding.stallRead (h : CmdHdr) (p : Bytes) : Laws.Encoding.Statement (.stallRead h p) :=
  fun _ => rfl

theorem Laws.Encoding.stallStatus (h : CmdHdr) (p : Bytes) : Laws.Encoding.Statement (.stallStatus h p) :=
  fun _ => rfl

theorem Laws.Encoding.stallPool (h : CmdHdr) (p : Bytes) : Laws.Encoding.Statement (.stallPool h p) :=
  fun _ => rfl

theorem Laws.Encoding.stallMapPasid (h : CmdHdr) (p : Bytes) : Laws.Encoding.Statement (.stallMapPasid h p) :=
  fun _ => rfl

theorem Laws.Encoding.stallUnmapPasid (h : CmdHdr) (p : Bytes) : Laws.Encoding.Statement (.stallUnmapPasid h p) :=
  fun _ => rfl

theorem Laws.Encoding.svSubscribe (h : CmdHdr) (p : Bytes) : Laws.Encoding.Statement (.svSubscribe h p) :=
  fun _ => rfl

theorem Laws.Encoding.svUnsubscribe (h : CmdHdr) (p : Bytes) : Laws.Encoding.Statement (.svUnsubscribe h p) :=
  fun _ => rfl

theorem Laws.Encoding.svReadSub (h : CmdHdr) (p : Bytes) : Laws.Encoding.Statement (.svReadSub h p) :=
  fun _ => rfl

theorem Laws.Encoding.svStreamStatus (h : CmdHdr) (p : Bytes) : Laws.Encoding.Statement (.svStreamStatus h p) :=
  fun _ => rfl

theorem Laws.Encoding.svReadSamples (h : CmdHdr) (p : Bytes) : Laws.Encoding.Statement (.svReadSamples h p) :=
  fun _ => rfl

theorem Laws.Encoding.svReanchor (h : CmdHdr) (p : Bytes) : Laws.Encoding.Statement (.svReanchor h p) :=
  fun _ => rfl

theorem Laws.Encoding.svAnchor (h : CmdHdr) (p : Bytes) : Laws.Encoding.Statement (.svAnchor h p) :=
  fun _ => rfl

theorem Laws.Encoding.condSetChain (h : CmdHdr) (p : Bytes) : Laws.Encoding.Statement (.condSetChain h p) :=
  fun _ => rfl

theorem Laws.Encoding.condSetTaps (h : CmdHdr) (p : Bytes) : Laws.Encoding.Statement (.condSetTaps h p) :=
  fun _ => rfl

theorem Laws.Encoding.condSetGroup (h : CmdHdr) (p : Bytes) : Laws.Encoding.Statement (.condSetGroup h p) :=
  fun _ => rfl

theorem Laws.Encoding.condStop (h : CmdHdr) (p : Bytes) : Laws.Encoding.Statement (.condStop h p) :=
  fun _ => rfl

theorem Laws.Encoding.condStart (h : CmdHdr) (p : Bytes) : Laws.Encoding.Statement (.condStart h p) :=
  fun _ => rfl

theorem Laws.Encoding.condReadChain (h : CmdHdr) (p : Bytes) : Laws.Encoding.Statement (.condReadChain h p) :=
  fun _ => rfl

theorem Laws.Encoding.condReadOutput (h : CmdHdr) (p : Bytes) : Laws.Encoding.Statement (.condReadOutput h p) :=
  fun _ => rfl

theorem Laws.Encoding.condReadGroup (h : CmdHdr) (p : Bytes) : Laws.Encoding.Statement (.condReadGroup h p) :=
  fun _ => rfl

theorem Laws.Encoding.condSetNominal (h : CmdHdr) (p : Bytes) : Laws.Encoding.Statement (.condSetNominal h p) :=
  fun _ => rfl

theorem Laws.Encoding.condDemand (h : CmdHdr) (p : Bytes) : Laws.Encoding.Statement (.condDemand h p) :=
  fun _ => rfl

theorem Laws.Encoding.scanReadTask (h : CmdHdr) (p : Bytes) : Laws.Encoding.Statement (.scanReadTask h p) :=
  fun _ => rfl

theorem Laws.Encoding.scanTaskStatus (h : CmdHdr) (p : Bytes) : Laws.Encoding.Statement (.scanTaskStatus h p) :=
  fun _ => rfl

theorem Laws.Encoding.scanCoreLoad (h : CmdHdr) (p : Bytes) : Laws.Encoding.Statement (.scanCoreLoad h p) :=
  fun _ => rfl

theorem Laws.Encoding.forceSet (h : CmdHdr) (p : Bytes) : Laws.Encoding.Statement (.forceSet h p) :=
  fun _ => rfl

theorem Laws.Encoding.forceClear (h : CmdHdr) (p : Bytes) : Laws.Encoding.Statement (.forceClear h p) :=
  fun _ => rfl

theorem Laws.Encoding.forceList (h : CmdHdr) (p : Bytes) : Laws.Encoding.Statement (.forceList h p) :=
  fun _ => rfl

theorem Laws.Encoding.scanSetForceMax (h : CmdHdr) (p : Bytes) : Laws.Encoding.Statement (.scanSetForceMax h p) :=
  fun _ => rfl

theorem Laws.Encoding.goosePubSet (h : CmdHdr) (p : Bytes) : Laws.Encoding.Statement (.goosePubSet h p) :=
  fun _ => rfl

theorem Laws.Encoding.goosePubRead (h : CmdHdr) (p : Bytes) : Laws.Encoding.Statement (.goosePubRead h p) :=
  fun _ => rfl

theorem Laws.Encoding.gooseSubSet (h : CmdHdr) (p : Bytes) : Laws.Encoding.Statement (.gooseSubSet h p) :=
  fun _ => rfl

theorem Laws.Encoding.gooseSubRead (h : CmdHdr) (p : Bytes) : Laws.Encoding.Statement (.gooseSubRead h p) :=
  fun _ => rfl

theorem Laws.Encoding.gooseStatus (h : CmdHdr) (p : Bytes) : Laws.Encoding.Statement (.gooseStatus h p) :=
  fun _ => rfl

theorem Laws.Encoding.svpubSet (h : CmdHdr) (p : Bytes) : Laws.Encoding.Statement (.svpubSet h p) :=
  fun _ => rfl

theorem Laws.Encoding.svpubRead (h : CmdHdr) (p : Bytes) : Laws.Encoding.Statement (.svpubRead h p) :=
  fun _ => rfl

theorem Laws.Encoding.pubSetMac (h : CmdHdr) (p : Bytes) : Laws.Encoding.Statement (.pubSetMac h p) :=
  fun _ => rfl

theorem Laws.Encoding.sideStatus (h : CmdHdr) (p : Bytes) : Laws.Encoding.Statement (.sideStatus h p) :=
  fun _ => rfl

theorem Laws.Encoding.sideHandover (h : CmdHdr) (p : Bytes) : Laws.Encoding.Statement (.sideHandover h p) :=
  fun _ => rfl

theorem Laws.Encoding.sideJoin (h : CmdHdr) (p : Bytes) : Laws.Encoding.Statement (.sideJoin h p) :=
  fun _ => rfl

theorem Laws.Encoding.sideOut (h : CmdHdr) (p : Bytes) : Laws.Encoding.Statement (.sideOut h p) :=
  fun _ => rfl

theorem Laws.Encoding.sideSetColour (h : CmdHdr) (p : Bytes) : Laws.Encoding.Statement (.sideSetColour h p) :=
  fun _ => rfl

theorem Laws.Encoding.pairSet (h : CmdHdr) (p : Bytes) : Laws.Encoding.Statement (.pairSet h p) :=
  fun _ => rfl

theorem Laws.Encoding.pairStatus (h : CmdHdr) (p : Bytes) : Laws.Encoding.Statement (.pairStatus h p) :=
  fun _ => rfl

theorem Laws.Encoding.pairHandover (h : CmdHdr) (p : Bytes) : Laws.Encoding.Statement (.pairHandover h p) :=
  fun _ => rfl

theorem Laws.Encoding.arbSetHandover (h : CmdHdr) (p : Bytes) : Laws.Encoding.Statement (.arbSetHandover h p) :=
  fun _ => rfl

theorem Laws.Encoding.swPortStatus (h : CmdHdr) (p : Bytes) : Laws.Encoding.Statement (.swPortStatus h p) :=
  fun _ => rfl

theorem Laws.Encoding.swSetPort (h : CmdHdr) (p : Bytes) : Laws.Encoding.Statement (.swSetPort h p) :=
  fun _ => rfl

theorem Laws.Encoding.swSetFdb (h : CmdHdr) (p : Bytes) : Laws.Encoding.Statement (.swSetFdb h p) :=
  fun _ => rfl

theorem Laws.Encoding.swSetGates (h : CmdHdr) (p : Bytes) : Laws.Encoding.Statement (.swSetGates h p) :=
  fun _ => rfl

theorem Laws.Encoding.swSetQueue (h : CmdHdr) (p : Bytes) : Laws.Encoding.Statement (.swSetQueue h p) :=
  fun _ => rfl

theorem Laws.Encoding.swReadConfig (h : CmdHdr) (p : Bytes) : Laws.Encoding.Statement (.swReadConfig h p) :=
  fun _ => rfl

theorem Laws.Encoding.swMirrorSet (h : CmdHdr) (p : Bytes) : Laws.Encoding.Statement (.swMirrorSet h p) :=
  fun _ => rfl

theorem Laws.Encoding.swMirrorClear (h : CmdHdr) (p : Bytes) : Laws.Encoding.Statement (.swMirrorClear h p) :=
  fun _ => rfl

theorem Laws.Encoding.swPortAdmin (h : CmdHdr) (p : Bytes) : Laws.Encoding.Statement (.swPortAdmin h p) :=
  fun _ => rfl

theorem Laws.Encoding.swSetWake (h : CmdHdr) (p : Bytes) : Laws.Encoding.Statement (.swSetWake h p) :=
  fun _ => rfl

theorem Laws.Encoding.timeRead (h : CmdHdr) (p : Bytes) : Laws.Encoding.Statement (.timeRead h p) :=
  fun _ => rfl

theorem Laws.Encoding.timeSet (h : CmdHdr) (p : Bytes) : Laws.Encoding.Statement (.timeSet h p) :=
  fun _ => rfl

theorem Laws.Encoding.timeCancelSet (h : CmdHdr) (p : Bytes) : Laws.Encoding.Statement (.timeCancelSet h p) :=
  fun _ => rfl

theorem Laws.Encoding.timeSetParams (h : CmdHdr) (p : Bytes) : Laws.Encoding.Statement (.timeSetParams h p) :=
  fun _ => rfl

theorem Laws.Encoding.timeSetPort (h : CmdHdr) (p : Bytes) : Laws.Encoding.Statement (.timeSetPort h p) :=
  fun _ => rfl

theorem Laws.Encoding.timePortStatus (h : CmdHdr) (p : Bytes) : Laws.Encoding.Statement (.timePortStatus h p) :=
  fun _ => rfl

theorem Laws.Encoding.timeReadTxts (h : CmdHdr) (p : Bytes) : Laws.Encoding.Statement (.timeReadTxts h p) :=
  fun _ => rfl

theorem Laws.Encoding.timeUtc (h : CmdHdr) (p : Bytes) : Laws.Encoding.Statement (.timeUtc h p) :=
  fun _ => rfl

theorem Laws.Encoding.readTick (h : CmdHdr) (p : Bytes) : Laws.Encoding.Statement (.readTick h p) :=
  fun _ => rfl

theorem Laws.Encoding.readBell (h : CmdHdr) (p : Bytes) : Laws.Encoding.Statement (.readBell h p) :=
  fun _ => rfl

theorem Laws.Encoding.readDigests (h : CmdHdr) (p : Bytes) : Laws.Encoding.Statement (.readDigests h p) :=
  fun _ => rfl

theorem Laws.Encoding.setSealDelay (h : CmdHdr) (p : Bytes) : Laws.Encoding.Statement (.setSealDelay h p) :=
  fun _ => rfl

theorem Laws.Encoding.acqSetLine (h : CmdHdr) (p : Bytes) : Laws.Encoding.Statement (.acqSetLine h p) :=
  fun _ => rfl

theorem Laws.Encoding.acqSetChannel (h : CmdHdr) (p : Bytes) : Laws.Encoding.Statement (.acqSetChannel h p) :=
  fun _ => rfl

theorem Laws.Encoding.acqSetWavefront (h : CmdHdr) (p : Bytes) : Laws.Encoding.Statement (.acqSetWavefront h p) :=
  fun _ => rfl

theorem Laws.Encoding.acqSetDram (h : CmdHdr) (p : Bytes) : Laws.Encoding.Statement (.acqSetDram h p) :=
  fun _ => rfl

theorem Laws.Encoding.acqStart (h : CmdHdr) (p : Bytes) : Laws.Encoding.Statement (.acqStart h p) :=
  fun _ => rfl

theorem Laws.Encoding.acqStop (h : CmdHdr) (p : Bytes) : Laws.Encoding.Statement (.acqStop h p) :=
  fun _ => rfl

theorem Laws.Encoding.acqTrigger (h : CmdHdr) (p : Bytes) : Laws.Encoding.Statement (.acqTrigger h p) :=
  fun _ => rfl

theorem Laws.Encoding.acqChannelStatus (h : CmdHdr) (p : Bytes) : Laws.Encoding.Statement (.acqChannelStatus h p) :=
  fun _ => rfl

theorem Laws.Encoding.acqReadDram (h : CmdHdr) (p : Bytes) : Laws.Encoding.Statement (.acqReadDram h p) :=
  fun _ => rfl

theorem Laws.Encoding.ledgerStatus (h : CmdHdr) (p : Bytes) : Laws.Encoding.Statement (.ledgerStatus h p) :=
  fun _ => rfl

theorem Laws.Encoding.readRecords (h : CmdHdr) (p : Bytes) : Laws.Encoding.Statement (.readRecords h p) :=
  fun _ => rfl

theorem Laws.Encoding.ledgerSetRate (h : CmdHdr) (p : Bytes) : Laws.Encoding.Statement (.ledgerSetRate h p) :=
  fun _ => rfl

theorem Laws.Encoding.ledgerSetSnapshot (h : CmdHdr) (p : Bytes) : Laws.Encoding.Statement (.ledgerSetSnapshot h p) :=
  fun _ => rfl

theorem Laws.Encoding.ledgerExport (h : CmdHdr) (p : Bytes) : Laws.Encoding.Statement (.ledgerExport h p) :=
  fun _ => rfl

theorem Laws.Encoding.ledgerNote (h : CmdHdr) (p : Bytes) : Laws.Encoding.Statement (.ledgerNote h p) :=
  fun _ => rfl

theorem Laws.Encoding.ledgerCodes (h : CmdHdr) (p : Bytes) : Laws.Encoding.Statement (.ledgerCodes h p) :=
  fun _ => rfl

theorem Laws.Encoding.fioSetChannel (h : CmdHdr) (p : Bytes) : Laws.Encoding.Statement (.fioSetChannel h p) :=
  fun _ => rfl

theorem Laws.Encoding.fioReadChannel (h : CmdHdr) (p : Bytes) : Laws.Encoding.Statement (.fioReadChannel h p) :=
  fun _ => rfl

theorem Laws.Encoding.fioStatus (h : CmdHdr) (p : Bytes) : Laws.Encoding.Statement (.fioStatus h p) :=
  fun _ => rfl

theorem Laws.Encoding.fioClearFault (h : CmdHdr) (p : Bytes) : Laws.Encoding.Statement (.fioClearFault h p) :=
  fun _ => rfl

theorem Laws.Encoding.fioReadImage (h : CmdHdr) (p : Bytes) : Laws.Encoding.Statement (.fioReadImage h p) :=
  fun _ => rfl

theorem Laws.Encoding.teleStatus (h : CmdHdr) (p : Bytes) : Laws.Encoding.Statement (.teleStatus h p) :=
  fun _ => rfl

theorem Laws.Encoding.safeChallenge (h : CmdHdr) (p : Bytes) : Laws.Encoding.Statement (.safeChallenge h p) :=
  fun _ => rfl

theorem Laws.Encoding.safeUnlock (h : CmdHdr) (p : Bytes) : Laws.Encoding.Statement (.safeUnlock h p) :=
  fun _ => rfl

theorem Laws.Encoding.safeLock (h : CmdHdr) (p : Bytes) : Laws.Encoding.Statement (.safeLock h p) :=
  fun _ => rfl

theorem Laws.Encoding.safeSetPassword (h : CmdHdr) (p : Bytes) : Laws.Encoding.Statement (.safeSetPassword h p) :=
  fun _ => rfl

theorem Laws.Encoding.safeLoad (h : CmdHdr) (p : Bytes) : Laws.Encoding.Statement (.safeLoad h p) :=
  fun _ => rfl

theorem Laws.Encoding.safeCastle (h : CmdHdr) (p : Bytes) : Laws.Encoding.Statement (.safeCastle h p) :=
  fun _ => rfl

theorem Laws.Encoding.safeReset (h : CmdHdr) (p : Bytes) : Laws.Encoding.Statement (.safeReset h p) :=
  fun _ => rfl

theorem Laws.Encoding.safeStatus (h : CmdHdr) (p : Bytes) : Laws.Encoding.Statement (.safeStatus h p) :=
  fun _ => rfl

theorem Laws.Encoding.safeReadTable (h : CmdHdr) (p : Bytes) : Laws.Encoding.Statement (.safeReadTable h p) :=
  fun _ => rfl

theorem Laws.Encoding.canSetTiming (h : CmdHdr) (p : Bytes) : Laws.Encoding.Statement (.canSetTiming h p) :=
  fun _ => rfl

theorem Laws.Encoding.canSetFilter (h : CmdHdr) (p : Bytes) : Laws.Encoding.Statement (.canSetFilter h p) :=
  fun _ => rfl

theorem Laws.Encoding.canSetBuffer (h : CmdHdr) (p : Bytes) : Laws.Encoding.Statement (.canSetBuffer h p) :=
  fun _ => rfl

theorem Laws.Encoding.canStatus (h : CmdHdr) (p : Bytes) : Laws.Encoding.Statement (.canStatus h p) :=
  fun _ => rfl

theorem Laws.Encoding.canReadQueue (h : CmdHdr) (p : Bytes) : Laws.Encoding.Statement (.canReadQueue h p) :=
  fun _ => rfl

theorem Laws.Encoding.canSend (h : CmdHdr) (p : Bytes) : Laws.Encoding.Statement (.canSend h p) :=
  fun _ => rfl

theorem Laws.Encoding.hlRingSet (h : CmdHdr) (p : Bytes) : Laws.Encoding.Statement (.hlRingSet h p) :=
  fun _ => rfl

theorem Laws.Encoding.hlRingReset (h : CmdHdr) (p : Bytes) : Laws.Encoding.Statement (.hlRingReset h p) :=
  fun _ => rfl

theorem Laws.Encoding.hlStatus (h : CmdHdr) (p : Bytes) : Laws.Encoding.Statement (.hlStatus h p) :=
  fun _ => rfl

theorem Laws.Encoding.keyStatus (h : CmdHdr) (p : Bytes) : Laws.Encoding.Statement (.keyStatus h p) :=
  fun _ => rfl

theorem Laws.Encoding.keyImport (h : CmdHdr) (p : Bytes) : Laws.Encoding.Statement (.keyImport h p) :=
  fun _ => rfl

theorem Laws.Encoding.keyErase (h : CmdHdr) (p : Bytes) : Laws.Encoding.Statement (.keyErase h p) :=
  fun _ => rfl

theorem Laws.Encoding.keyDeviceCert (h : CmdHdr) (p : Bytes) : Laws.Encoding.Statement (.keyDeviceCert h p) :=
  fun _ => rfl

theorem Laws.Encoding.keyRevokeSigner (h : CmdHdr) (p : Bytes) : Laws.Encoding.Statement (.keyRevokeSigner h p) :=
  fun _ => rfl

theorem Laws.Encoding.updStatus (h : CmdHdr) (p : Bytes) : Laws.Encoding.Statement (.updStatus h p) :=
  fun _ => rfl

theorem Laws.Encoding.updBegin (h : CmdHdr) (p : Bytes) : Laws.Encoding.Statement (.updBegin h p) :=
  fun _ => rfl

theorem Laws.Encoding.updWrite (h : CmdHdr) (p : Bytes) : Laws.Encoding.Statement (.updWrite h p) :=
  fun _ => rfl

theorem Laws.Encoding.updWriteRing (h : CmdHdr) (p : Bytes) : Laws.Encoding.Statement (.updWriteRing h p) :=
  fun _ => rfl

theorem Laws.Encoding.updSchedule (h : CmdHdr) (p : Bytes) : Laws.Encoding.Statement (.updSchedule h p) :=
  fun _ => rfl

theorem Laws.Encoding.updAuthoriseOutage (h : CmdHdr) (p : Bytes) : Laws.Encoding.Statement (.updAuthoriseOutage h p) :=
  fun _ => rfl

theorem Laws.Encoding.updCancel (h : CmdHdr) (p : Bytes) : Laws.Encoding.Statement (.updCancel h p) :=
  fun _ => rfl

theorem Laws.Encoding.healthReport (h : CmdHdr) (p : Bytes) : Laws.Encoding.Statement (.healthReport h p) :=
  fun _ => rfl

theorem Laws.Encoding.healthFaults (h : CmdHdr) (p : Bytes) : Laws.Encoding.Statement (.healthFaults h p) :=
  fun _ => rfl

theorem Laws.Encoding.healthDeepTest (h : CmdHdr) (p : Bytes) : Laws.Encoding.Statement (.healthDeepTest h p) :=
  fun _ => rfl

theorem Laws.Encoding.healthTestUnit (h : CmdHdr) (p : Bytes) : Laws.Encoding.Statement (.healthTestUnit h p) :=
  fun _ => rfl

theorem Laws.Encoding.maintLeases (h : CmdHdr) (p : Bytes) : Laws.Encoding.Statement (.maintLeases h p) :=
  fun _ => rfl

theorem Laws.Encoding.powerStatus (h : CmdHdr) (p : Bytes) : Laws.Encoding.Statement (.powerStatus h p) :=
  fun _ => rfl

theorem Laws.Encoding.powerRestart (h : CmdHdr) (p : Bytes) : Laws.Encoding.Statement (.powerRestart h p) :=
  fun _ => rfl

theorem Laws.Encoding.powerPark (h : CmdHdr) (p : Bytes) : Laws.Encoding.Statement (.powerPark h p) :=
  fun _ => rfl

theorem Laws.Encoding.serviceGo (h : CmdHdr) (p : Bytes) : Laws.Encoding.Statement (.serviceGo h p) :=
  fun _ => rfl

theorem Laws.Encoding.nop (core : CoreRef) : Laws.Encoding.Statement (.nop core) :=
  Laws.Encoding.words rfl rfl

theorem Laws.Encoding.halt (core : CoreRef) : Laws.Encoding.Statement (.halt core) :=
  Laws.Encoding.words rfl rfl

theorem Laws.Encoding.mfs (core : CoreRef) (d sp : BitVec 5) : Laws.Encoding.Statement (.mfs core d sp) :=
  Laws.Encoding.words rfl rfl

theorem Laws.Encoding.add (core : CoreRef) (d a b : BitVec 5) : Laws.Encoding.Statement (.add core d a b) :=
  Laws.Encoding.words rfl rfl

theorem Laws.Encoding.sub (core : CoreRef) (d a b : BitVec 5) : Laws.Encoding.Statement (.sub core d a b) :=
  Laws.Encoding.words rfl rfl

theorem Laws.Encoding.and (core : CoreRef) (d a b : BitVec 5) : Laws.Encoding.Statement (.and core d a b) :=
  Laws.Encoding.words rfl rfl

theorem Laws.Encoding.or (core : CoreRef) (d a b : BitVec 5) : Laws.Encoding.Statement (.or core d a b) :=
  Laws.Encoding.words rfl rfl

theorem Laws.Encoding.xor (core : CoreRef) (d a b : BitVec 5) : Laws.Encoding.Statement (.xor core d a b) :=
  Laws.Encoding.words rfl rfl

theorem Laws.Encoding.shl (core : CoreRef) (d a b : BitVec 5) : Laws.Encoding.Statement (.shl core d a b) :=
  Laws.Encoding.words rfl rfl

theorem Laws.Encoding.shr (core : CoreRef) (d a b : BitVec 5) : Laws.Encoding.Statement (.shr core d a b) :=
  Laws.Encoding.words rfl rfl

theorem Laws.Encoding.sra (core : CoreRef) (d a b : BitVec 5) : Laws.Encoding.Statement (.sra core d a b) :=
  Laws.Encoding.words rfl rfl

theorem Laws.Encoding.mul (core : CoreRef) (d a b : BitVec 5) : Laws.Encoding.Statement (.mul core d a b) :=
  Laws.Encoding.words rfl rfl

theorem Laws.Encoding.mulh (core : CoreRef) (d a b : BitVec 5) : Laws.Encoding.Statement (.mulh core d a b) :=
  Laws.Encoding.words rfl rfl

theorem Laws.Encoding.mulhu (core : CoreRef) (d a b : BitVec 5) : Laws.Encoding.Statement (.mulhu core d a b) :=
  Laws.Encoding.words rfl rfl

theorem Laws.Encoding.div (core : CoreRef) (d a b : BitVec 5) : Laws.Encoding.Statement (.div core d a b) :=
  Laws.Encoding.words rfl rfl

theorem Laws.Encoding.divu (core : CoreRef) (d a b : BitVec 5) : Laws.Encoding.Statement (.divu core d a b) :=
  Laws.Encoding.words rfl rfl

theorem Laws.Encoding.rem (core : CoreRef) (d a b : BitVec 5) : Laws.Encoding.Statement (.rem core d a b) :=
  Laws.Encoding.words rfl rfl

theorem Laws.Encoding.remu (core : CoreRef) (d a b : BitVec 5) : Laws.Encoding.Statement (.remu core d a b) :=
  Laws.Encoding.words rfl rfl

theorem Laws.Encoding.min (core : CoreRef) (d a b : BitVec 5) : Laws.Encoding.Statement (.min core d a b) :=
  Laws.Encoding.words rfl rfl

theorem Laws.Encoding.max (core : CoreRef) (d a b : BitVec 5) : Laws.Encoding.Statement (.max core d a b) :=
  Laws.Encoding.words rfl rfl

theorem Laws.Encoding.minu (core : CoreRef) (d a b : BitVec 5) : Laws.Encoding.Statement (.minu core d a b) :=
  Laws.Encoding.words rfl rfl

theorem Laws.Encoding.maxu (core : CoreRef) (d a b : BitVec 5) : Laws.Encoding.Statement (.maxu core d a b) :=
  Laws.Encoding.words rfl rfl

theorem Laws.Encoding.addi (core : CoreRef) (d a : BitVec 5) (imm : BitVec 11) : Laws.Encoding.Statement (.addi core d a imm) :=
  Laws.Encoding.words rfl rfl

theorem Laws.Encoding.andi (core : CoreRef) (d a : BitVec 5) (imm : BitVec 11) : Laws.Encoding.Statement (.andi core d a imm) :=
  Laws.Encoding.words rfl rfl

theorem Laws.Encoding.ori (core : CoreRef) (d a : BitVec 5) (imm : BitVec 11) : Laws.Encoding.Statement (.ori core d a imm) :=
  Laws.Encoding.words rfl rfl

theorem Laws.Encoding.xori (core : CoreRef) (d a : BitVec 5) (imm : BitVec 11) : Laws.Encoding.Statement (.xori core d a imm) :=
  Laws.Encoding.words rfl rfl

theorem Laws.Encoding.shli (core : CoreRef) (d a : BitVec 5) (imm : BitVec 11) : Laws.Encoding.Statement (.shli core d a imm) :=
  Laws.Encoding.words rfl rfl

theorem Laws.Encoding.shri (core : CoreRef) (d a : BitVec 5) (imm : BitVec 11) : Laws.Encoding.Statement (.shri core d a imm) :=
  Laws.Encoding.words rfl rfl

theorem Laws.Encoding.srai (core : CoreRef) (d a : BitVec 5) (imm : BitVec 11) : Laws.Encoding.Statement (.srai core d a imm) :=
  Laws.Encoding.words rfl rfl

theorem Laws.Encoding.li (core : CoreRef) (d : BitVec 5) (x : Word) : Laws.Encoding.Statement (.li core d x) :=
  Laws.Encoding.words rfl rfl

theorem Laws.Encoding.fadd (core : CoreRef) (d a b : BitVec 5) : Laws.Encoding.Statement (.fadd core d a b) :=
  Laws.Encoding.words rfl rfl

theorem Laws.Encoding.fsub (core : CoreRef) (d a b : BitVec 5) : Laws.Encoding.Statement (.fsub core d a b) :=
  Laws.Encoding.words rfl rfl

theorem Laws.Encoding.fmul (core : CoreRef) (d a b : BitVec 5) : Laws.Encoding.Statement (.fmul core d a b) :=
  Laws.Encoding.words rfl rfl

theorem Laws.Encoding.fdiv (core : CoreRef) (d a b : BitVec 5) : Laws.Encoding.Statement (.fdiv core d a b) :=
  Laws.Encoding.words rfl rfl

theorem Laws.Encoding.fsqrt (core : CoreRef) (d a : BitVec 5) : Laws.Encoding.Statement (.fsqrt core d a) :=
  Laws.Encoding.words rfl rfl

theorem Laws.Encoding.fabs (core : CoreRef) (d a : BitVec 5) : Laws.Encoding.Statement (.fabs core d a) :=
  Laws.Encoding.words rfl rfl

theorem Laws.Encoding.fneg (core : CoreRef) (d a : BitVec 5) : Laws.Encoding.Statement (.fneg core d a) :=
  Laws.Encoding.words rfl rfl

theorem Laws.Encoding.fmin (core : CoreRef) (d a b : BitVec 5) : Laws.Encoding.Statement (.fmin core d a b) :=
  Laws.Encoding.words rfl rfl

theorem Laws.Encoding.fmax (core : CoreRef) (d a b : BitVec 5) : Laws.Encoding.Statement (.fmax core d a b) :=
  Laws.Encoding.words rfl rfl

theorem Laws.Encoding.fma (core : CoreRef) (d a b : BitVec 5) : Laws.Encoding.Statement (.fma core d a b) :=
  Laws.Encoding.words rfl rfl

theorem Laws.Encoding.fnms (core : CoreRef) (d a b : BitVec 5) : Laws.Encoding.Statement (.fnms core d a b) :=
  Laws.Encoding.words rfl rfl

theorem Laws.Encoding.itof (core : CoreRef) (d a : BitVec 5) : Laws.Encoding.Statement (.itof core d a) :=
  Laws.Encoding.words rfl rfl

theorem Laws.Encoding.utof (core : CoreRef) (d a : BitVec 5) : Laws.Encoding.Statement (.utof core d a) :=
  Laws.Encoding.words rfl rfl

theorem Laws.Encoding.ftoi (core : CoreRef) (d a : BitVec 5) : Laws.Encoding.Statement (.ftoi core d a) :=
  Laws.Encoding.words rfl rfl

theorem Laws.Encoding.ftoin (core : CoreRef) (d a : BitVec 5) : Laws.Encoding.Statement (.ftoin core d a) :=
  Laws.Encoding.words rfl rfl

theorem Laws.Encoding.cadd (core : CoreRef) (d a b : BitVec 4) : Laws.Encoding.Statement (.cadd core d a b) :=
  Laws.Encoding.words rfl rfl

theorem Laws.Encoding.csub (core : CoreRef) (d a b : BitVec 4) : Laws.Encoding.Statement (.csub core d a b) :=
  Laws.Encoding.words rfl rfl

theorem Laws.Encoding.cmul (core : CoreRef) (d a b : BitVec 4) : Laws.Encoding.Statement (.cmul core d a b) :=
  Laws.Encoding.words rfl rfl

theorem Laws.Encoding.cconj (core : CoreRef) (d a : BitVec 4) : Laws.Encoding.Statement (.cconj core d a) :=
  Laws.Encoding.words rfl rfl

theorem Laws.Encoding.cmag (core : CoreRef) (d : BitVec 5) (a : BitVec 4) : Laws.Encoding.Statement (.cmag core d a) :=
  Laws.Encoding.words rfl rfl

theorem Laws.Encoding.carg (core : CoreRef) (d : BitVec 5) (a : BitVec 4) : Laws.Encoding.Statement (.carg core d a) :=
  Laws.Encoding.words rfl rfl

theorem Laws.Encoding.cscale (core : CoreRef) (d a : BitVec 4) (b : BitVec 5) : Laws.Encoding.Statement (.cscale core d a b) :=
  Laws.Encoding.words rfl rfl

theorem Laws.Encoding.cmake (core : CoreRef) (d : BitVec 4) (a b : BitVec 5) : Laws.Encoding.Statement (.cmake core d a b) :=
  Laws.Encoding.words rfl rfl

theorem Laws.Encoding.cre (core : CoreRef) (d : BitVec 5) (a : BitVec 4) : Laws.Encoding.Statement (.cre core d a) :=
  Laws.Encoding.words rfl rfl

theorem Laws.Encoding.cim (core : CoreRef) (d : BitVec 5) (a : BitVec 4) : Laws.Encoding.Statement (.cim core d a) :=
  Laws.Encoding.words rfl rfl

theorem Laws.Encoding.cmov (core : CoreRef) (d a : BitVec 4) : Laws.Encoding.Statement (.cmov core d a) :=
  Laws.Encoding.words rfl rfl

theorem Laws.Encoding.eq (core : CoreRef) (d : BitVec 3) (a b : BitVec 5) : Laws.Encoding.Statement (.eq core d a b) :=
  Laws.Encoding.words rfl rfl

theorem Laws.Encoding.ne (core : CoreRef) (d : BitVec 3) (a b : BitVec 5) : Laws.Encoding.Statement (.ne core d a b) :=
  Laws.Encoding.words rfl rfl

theorem Laws.Encoding.lt (core : CoreRef) (d : BitVec 3) (a b : BitVec 5) : Laws.Encoding.Statement (.lt core d a b) :=
  Laws.Encoding.words rfl rfl

theorem Laws.Encoding.le (core : CoreRef) (d : BitVec 3) (a b : BitVec 5) : Laws.Encoding.Statement (.le core d a b) :=
  Laws.Encoding.words rfl rfl

theorem Laws.Encoding.ult (core : CoreRef) (d : BitVec 3) (a b : BitVec 5) : Laws.Encoding.Statement (.ult core d a b) :=
  Laws.Encoding.words rfl rfl

theorem Laws.Encoding.ule (core : CoreRef) (d : BitVec 3) (a b : BitVec 5) : Laws.Encoding.Statement (.ule core d a b) :=
  Laws.Encoding.words rfl rfl

theorem Laws.Encoding.feq (core : CoreRef) (d : BitVec 3) (a b : BitVec 5) : Laws.Encoding.Statement (.feq core d a b) :=
  Laws.Encoding.words rfl rfl

theorem Laws.Encoding.flt (core : CoreRef) (d : BitVec 3) (a b : BitVec 5) : Laws.Encoding.Statement (.flt core d a b) :=
  Laws.Encoding.words rfl rfl

theorem Laws.Encoding.fle (core : CoreRef) (d : BitVec 3) (a b : BitVec 5) : Laws.Encoding.Statement (.fle core d a b) :=
  Laws.Encoding.words rfl rfl

theorem Laws.Encoding.fun (core : CoreRef) (d : BitVec 3) (a b : BitVec 5) : Laws.Encoding.Statement (.fun core d a b) :=
  Laws.Encoding.words rfl rfl

theorem Laws.Encoding.pand (core : CoreRef) (d a b : BitVec 3) : Laws.Encoding.Statement (.pand core d a b) :=
  Laws.Encoding.words rfl rfl

theorem Laws.Encoding.por (core : CoreRef) (d a b : BitVec 3) : Laws.Encoding.Statement (.por core d a b) :=
  Laws.Encoding.words rfl rfl

theorem Laws.Encoding.pxor (core : CoreRef) (d a b : BitVec 3) : Laws.Encoding.Statement (.pxor core d a b) :=
  Laws.Encoding.words rfl rfl

theorem Laws.Encoding.pandn (core : CoreRef) (d a b : BitVec 3) : Laws.Encoding.Statement (.pandn core d a b) :=
  Laws.Encoding.words rfl rfl

theorem Laws.Encoding.pnot (core : CoreRef) (d a : BitVec 3) : Laws.Encoding.Statement (.pnot core d a) :=
  Laws.Encoding.words rfl rfl

theorem Laws.Encoding.pset (core : CoreRef) (d : BitVec 3) (a : BitVec 5) : Laws.Encoding.Statement (.pset core d a) :=
  Laws.Encoding.words rfl rfl

theorem Laws.Encoding.pget (core : CoreRef) (d : BitVec 5) (a : BitVec 3) : Laws.Encoding.Statement (.pget core d a) :=
  Laws.Encoding.words rfl rfl

theorem Laws.Encoding.sel (core : CoreRef) (d : BitVec 5) (p : BitVec 3) (a b : BitVec 5) : Laws.Encoding.Statement (.sel core d p a b) :=
  Laws.Encoding.words rfl rfl

theorem Laws.Encoding.csel (core : CoreRef) (d : BitVec 4) (p : BitVec 3) (a b : BitVec 4) : Laws.Encoding.Statement (.csel core d p a b) :=
  Laws.Encoding.words rfl rfl

theorem Laws.Encoding.br (core : CoreRef) (pred : PredRef) (off : BitVec 16) : Laws.Encoding.Statement (.br core pred off) :=
  Laws.Encoding.words rfl rfl

theorem Laws.Encoding.loop (core : CoreRef) (r : BitVec 5) (body : BitVec 16) (ext : Word) : Laws.Encoding.Statement (.loop core r body ext) :=
  Laws.Encoding.words rfl rfl

theorem Laws.Encoding.ld (core : CoreRef) (width : BitVec 3) (d base : BitVec 5) (seg : SegCode) (off : BitVec 11) : Laws.Encoding.Statement (.ld core width d base seg off) :=
  Laws.Encoding.words rfl rfl

theorem Laws.Encoding.st (core : CoreRef) (width : BitVec 3) (d base : BitVec 5) (seg : SegCode) (off : BitVec 11) : Laws.Encoding.Statement (.st core width d base seg off) :=
  Laws.Encoding.words rfl rfl

theorem Laws.Encoding.vcopy (core : CoreRef) (src dst : SegCode) (d a b : BitVec 5) : Laws.Encoding.Statement (.vcopy core src dst d a b) :=
  Laws.Encoding.words rfl rfl

theorem Laws.Encoding.vsum (core : CoreRef) (seg : SegCode) (ty : BitVec 3) (d a b : BitVec 5) : Laws.Encoding.Statement (.vsum core seg ty d a b) :=
  Laws.Encoding.words rfl rfl

theorem Laws.Encoding.vmax (core : CoreRef) (seg : SegCode) (ty : BitVec 3) (d a b : BitVec 5) : Laws.Encoding.Statement (.vmax core seg ty d a b) :=
  Laws.Encoding.words rfl rfl

theorem Laws.Encoding.trig (core : CoreRef) (a : BitVec 5) (line : BitVec 4) : Laws.Encoding.Statement (.trig core a line) :=
  Laws.Encoding.words rfl rfl

theorem Laws.Encoding.log (core : CoreRef) (seg : SegCode) (msg : BitVec 9) (a b : BitVec 5) : Laws.Encoding.Statement (.log core seg msg a b) :=
  Laws.Encoding.words rfl rfl

theorem Laws.Encoding.ton (core : CoreRef) (inst : BitVec 16) : Laws.Encoding.Statement (.ton core inst) :=
  Laws.Encoding.words rfl rfl

theorem Laws.Encoding.tof (core : CoreRef) (inst : BitVec 16) : Laws.Encoding.Statement (.tof core inst) :=
  Laws.Encoding.words rfl rfl

theorem Laws.Encoding.tp (core : CoreRef) (inst : BitVec 16) : Laws.Encoding.Statement (.tp core inst) :=
  Laws.Encoding.words rfl rfl

theorem Laws.Encoding.ctu (core : CoreRef) (inst : BitVec 16) : Laws.Encoding.Statement (.ctu core inst) :=
  Laws.Encoding.words rfl rfl

theorem Laws.Encoding.ctd (core : CoreRef) (inst : BitVec 16) : Laws.Encoding.Statement (.ctd core inst) :=
  Laws.Encoding.words rfl rfl

theorem Laws.Encoding.ctud (core : CoreRef) (inst : BitVec 16) : Laws.Encoding.Statement (.ctud core inst) :=
  Laws.Encoding.words rfl rfl

theorem Laws.Encoding.rTrig (core : CoreRef) (inst : BitVec 16) : Laws.Encoding.Statement (.rTrig core inst) :=
  Laws.Encoding.words rfl rfl

theorem Laws.Encoding.fTrig (core : CoreRef) (inst : BitVec 16) : Laws.Encoding.Statement (.fTrig core inst) :=
  Laws.Encoding.words rfl rfl

theorem Laws.Encoding.hyst (core : CoreRef) (inst : BitVec 16) : Laws.Encoding.Statement (.hyst core inst) :=
  Laws.Encoding.words rfl rfl

theorem Laws.Encoding.seq (core : CoreRef) : Laws.Encoding.Statement (.seq core) :=
  Laws.Encoding.words rfl rfl

theorem Laws.Encoding.imp (core : CoreRef) : Laws.Encoding.Statement (.imp core) :=
  Laws.Encoding.words rfl rfl

theorem Laws.Encoding.roc (core : CoreRef) (inst : BitVec 16) : Laws.Encoding.Statement (.roc core inst) :=
  Laws.Encoding.words rfl rfl

theorem Laws.Encoding.unitFault (side : SideId) (part : Word) : Laws.Encoding.Statement (.unitFault side part) :=
  fun _ => rfl

theorem Laws.Encoding.registerRead (side : SideId) (src : HostRead) (width : BitVec 4) : Laws.Encoding.Statement (.registerRead side src width) :=
  fun _ => rfl

theorem Laws.Encoding.bar2Write (side : SideId) (offset : Word) : Laws.Encoding.Statement (.bar2Write side offset) :=
  fun _ => rfl

theorem Laws.Encoding.tempDiffWarn (kelvin : BitVec 8) : Laws.Encoding.Statement (.tempDiffWarn kelvin) :=
  fun _ => rfl

theorem Laws.Encoding.ptpIntervalSend (side : SideId) (port : Fin 11) (kind : Fin 3) : Laws.Encoding.Statement (.ptpIntervalSend side port kind) :=
  fun _ => rfl

end Sys2Proof
end

