-- ==== Sys2Proof/Laws/State.lean ====
section
/-! SUPPORT. What each primitive update of the state changes, one lemma a field: every other update is one of these. -/

namespace Sys2Proof.Machine

/-! ### A register's word is stored -/

@[simp] theorem State.putReg_pending (s : State) (r : Reg) (v : Nat) : (s.putReg r v).pending = s.pending := rfl
@[simp] theorem State.putReg_out (s : State) (r : Reg) (v : Nat) : (s.putReg r v).out = s.out := rfl
@[simp] theorem State.putReg_freeCount (s : State) (r : Reg) (v : Nat) : (s.putReg r v).freeCount = s.freeCount := rfl
@[simp] theorem State.putReg_now (s : State) (r : Reg) (v : Nat) : (s.putReg r v).now = s.now := rfl
@[simp] theorem State.putReg_open_ (s : State) (r : Reg) (v : Nat) : (s.putReg r v).open_ = s.open_ := rfl
@[simp] theorem State.putReg_sideA (s : State) (r : Reg) (v : Nat) : (s.putReg r v).sideA = s.sideA := rfl
@[simp] theorem State.putReg_sideB (s : State) (r : Reg) (v : Nat) : (s.putReg r v).sideB = s.sideB := rfl
@[simp] theorem State.putReg_principals (s : State) (r : Reg) (v : Nat) : (s.putReg r v).principals = s.principals := rfl
@[simp] theorem State.putReg_waiting (s : State) (r : Reg) (v : Nat) : (s.putReg r v).waiting = s.waiting := rfl
@[simp] theorem State.putReg_outcomes (s : State) (r : Reg) (v : Nat) : (s.putReg r v).outcomes = s.outcomes := rfl
@[simp] theorem State.putReg_cmdBudget (s : State) (r : Reg) (v : Nat) : (s.putReg r v).cmdBudget = s.cmdBudget := rfl
@[simp] theorem State.putReg_modActive (s : State) (r : Reg) (v : Nat) : (s.putReg r v).modActive = s.modActive := rfl
@[simp] theorem State.putReg_modShadow (s : State) (r : Reg) (v : Nat) : (s.putReg r v).modShadow = s.modShadow := rfl
@[simp] theorem State.putReg_stallActive (s : State) (r : Reg) (v : Nat) : (s.putReg r v).stallActive = s.stallActive := rfl
@[simp] theorem State.putReg_stallShadow (s : State) (r : Reg) (v : Nat) : (s.putReg r v).stallShadow = s.stallShadow := rfl
@[simp] theorem State.putReg_safeActive (s : State) (r : Reg) (v : Nat) : (s.putReg r v).safeActive = s.safeActive := rfl
@[simp] theorem State.putReg_safeShadow (s : State) (r : Reg) (v : Nat) : (s.putReg r v).safeShadow = s.safeShadow := rfl
@[simp] theorem State.putReg_validations (s : State) (r : Reg) (v : Nat) : (s.putReg r v).validations = s.validations := rfl
@[simp] theorem State.putReg_ringLoads (s : State) (r : Reg) (v : Nat) : (s.putReg r v).ringLoads = s.ringLoads := rfl
@[simp] theorem State.putReg_oddScopes (s : State) (r : Reg) (v : Nat) : (s.putReg r v).oddScopes = s.oddScopes := rfl
@[simp] theorem State.putReg_moduleCastled (s : State) (r : Reg) (v : Nat) : (s.putReg r v).moduleCastled = s.moduleCastled := rfl
@[simp] theorem State.putReg_update (s : State) (r : Reg) (v : Nat) : (s.putReg r v).update = s.update := rfl
@[simp] theorem State.putReg_power (s : State) (r : Reg) (v : Nat) : (s.putReg r v).power = s.power := rfl
@[simp] theorem State.putReg_anchors (s : State) (r : Reg) (v : Nat) : (s.putReg r v).anchors = s.anchors := rfl
@[simp] theorem State.putReg_sealedUpto (s : State) (r : Reg) (v : Nat) : (s.putReg r v).sealedUpto = s.sealedUpto := rfl
@[simp] theorem State.putReg_sampleTick (s : State) (r : Reg) (v : Nat) : (s.putReg r v).sampleTick = s.sampleTick := rfl
@[simp] theorem State.putReg_noSeal (s : State) (r : Reg) (v : Nat) : (s.putReg r v).noSeal = s.noSeal := rfl
@[simp] theorem State.putReg_skipped (s : State) (r : Reg) (v : Nat) : (s.putReg r v).skipped = s.skipped := rfl
@[simp] theorem State.putReg_deferred (s : State) (r : Reg) (v : Nat) : (s.putReg r v).deferred = s.deferred := rfl
@[simp] theorem State.putReg_notices (s : State) (r : Reg) (v : Nat) : (s.putReg r v).notices = s.notices := rfl
@[simp] theorem State.putReg_gooseSubs (s : State) (r : Reg) (v : Nat) : (s.putReg r v).gooseSubs = s.gooseSubs := rfl
@[simp] theorem State.putReg_holdover (s : State) (r : Reg) (v : Nat) : (s.putReg r v).holdover = s.holdover := rfl
@[simp] theorem State.putReg_arb (s : State) (r : Reg) (v : Nat) : (s.putReg r v).arb = s.arb := rfl
@[simp] theorem State.putReg_teleSubs (s : State) (r : Reg) (v : Nat) : (s.putReg r v).teleSubs = s.teleSubs := rfl
@[simp] theorem State.putReg_safePw (s : State) (r : Reg) (v : Nat) : (s.putReg r v).safePw = s.safePw := rfl
@[simp] theorem State.putReg_nonces (s : State) (r : Reg) (v : Nat) : (s.putReg r v).nonces = s.nonces := rfl
@[simp] theorem State.putReg_unlocks (s : State) (r : Reg) (v : Nat) : (s.putReg r v).unlocks = s.unlocks := rfl
@[simp] theorem State.putReg_safeFails (s : State) (r : Reg) (v : Nat) : (s.putReg r v).safeFails = s.safeFails := rfl
@[simp] theorem State.putReg_safeLockout (s : State) (r : Reg) (v : Nat) : (s.putReg r v).safeLockout = s.safeLockout := rfl
@[simp] theorem State.putReg_xlink (s : State) (r : Reg) (v : Nat) : (s.putReg r v).xlink = s.xlink := rfl
@[simp] theorem State.putReg_partnerSeen (s : State) (r : Reg) (v : Nat) : (s.putReg r v).partnerSeen = s.partnerSeen := rfl
@[simp] theorem State.putReg_gm (s : State) (r : Reg) (v : Nat) : (s.putReg r v).gm = s.gm := rfl
@[simp] theorem State.putReg_masters (s : State) (r : Reg) (v : Nat) : (s.putReg r v).masters = s.masters := rfl
@[simp] theorem State.putReg_slavePort (s : State) (r : Reg) (v : Nat) : (s.putReg r v).slavePort = s.slavePort := rfl
@[simp] theorem State.putReg_staged (s : State) (r : Reg) (v : Nat) : (s.putReg r v).staged = s.staged := rfl
@[simp] theorem State.putReg_canSealed (s : State) (r : Reg) (v : Nat) : (s.putReg r v).canSealed = s.canSealed := rfl
@[simp] theorem State.putReg_white (s : State) (r : Reg) (v : Nat) : (s.putReg r v).white = s.white := rfl
@[simp] theorem State.putReg_handoverAt (s : State) (r : Reg) (v : Nat) : (s.putReg r v).handoverAt = s.handoverAt := rfl
@[simp] theorem State.putReg_drill (s : State) (r : Reg) (v : Nat) : (s.putReg r v).drill = s.drill := rfl
@[simp] theorem State.putReg_pair (s : State) (r : Reg) (v : Nat) : (s.putReg r v).pair = s.pair := rfl
@[simp] theorem State.putReg_regions (s : State) (r : Reg) (v : Nat) : (s.putReg r v).regions = s.regions := rfl
@[simp] theorem State.putReg_freed (s : State) (r : Reg) (v : Nat) : (s.putReg r v).freed = s.freed := rfl
@[simp] theorem State.putReg_ledgerFresh (s : State) (r : Reg) (v : Nat) : (s.putReg r v).ledgerFresh = s.ledgerFresh := rfl
@[simp] theorem State.putReg_ledgerPend (s : State) (r : Reg) (v : Nat) : (s.putReg r v).ledgerPend = s.ledgerPend := rfl
@[simp] theorem State.putReg_ledgerQueue (s : State) (r : Reg) (v : Nat) : (s.putReg r v).ledgerQueue = s.ledgerQueue := rfl
@[simp] theorem State.putReg_buckets (s : State) (r : Reg) (v : Nat) : (s.putReg r v).buckets = s.buckets := rfl
@[simp] theorem State.putReg_floodCounts (s : State) (r : Reg) (v : Nat) : (s.putReg r v).floodCounts = s.floodCounts := rfl
@[simp] theorem State.putReg_floods (s : State) (r : Reg) (v : Nat) : (s.putReg r v).floods = s.floods := rfl
@[simp] theorem State.putReg_forces (s : State) (r : Reg) (v : Nat) : (s.putReg r v).forces = s.forces := rfl
@[simp] theorem State.putReg_tally (s : State) (r : Reg) (v : Nat) : (s.putReg r v).tally = s.tally := rfl
@[simp] theorem State.putReg_aborted (s : State) (r : Reg) (v : Nat) : (s.putReg r v).aborted = s.aborted := rfl
@[simp] theorem State.putReg_abortedSec (s : State) (r : Reg) (v : Nat) : (s.putReg r v).abortedSec = s.abortedSec := rfl
@[simp] theorem State.putReg_noticeReset (s : State) (r : Reg) (v : Nat) : (s.putReg r v).noticeReset = s.noticeReset := rfl
@[simp] theorem State.putReg_leases (s : State) (r : Reg) (v : Nat) : (s.putReg r v).leases = s.leases := rfl

/-! ### Something leaves the module -/

@[simp] theorem State.emit_pending (s : State) (o : Output) : (s.emit o).pending = s.pending := rfl
@[simp] theorem State.emit_freeCount (s : State) (o : Output) : (s.emit o).freeCount = s.freeCount := rfl
@[simp] theorem State.emit_now (s : State) (o : Output) : (s.emit o).now = s.now := rfl
@[simp] theorem State.emit_open_ (s : State) (o : Output) : (s.emit o).open_ = s.open_ := rfl
@[simp] theorem State.emit_regs (s : State) (o : Output) : (s.emit o).regs = s.regs := rfl
@[simp] theorem State.emit_sideA (s : State) (o : Output) : (s.emit o).sideA = s.sideA := rfl
@[simp] theorem State.emit_sideB (s : State) (o : Output) : (s.emit o).sideB = s.sideB := rfl
@[simp] theorem State.emit_principals (s : State) (o : Output) : (s.emit o).principals = s.principals := rfl
@[simp] theorem State.emit_waiting (s : State) (o : Output) : (s.emit o).waiting = s.waiting := rfl
@[simp] theorem State.emit_outcomes (s : State) (o : Output) : (s.emit o).outcomes = s.outcomes := rfl
@[simp] theorem State.emit_cmdBudget (s : State) (o : Output) : (s.emit o).cmdBudget = s.cmdBudget := rfl
@[simp] theorem State.emit_modActive (s : State) (o : Output) : (s.emit o).modActive = s.modActive := rfl
@[simp] theorem State.emit_modShadow (s : State) (o : Output) : (s.emit o).modShadow = s.modShadow := rfl
@[simp] theorem State.emit_stallActive (s : State) (o : Output) : (s.emit o).stallActive = s.stallActive := rfl
@[simp] theorem State.emit_stallShadow (s : State) (o : Output) : (s.emit o).stallShadow = s.stallShadow := rfl
@[simp] theorem State.emit_safeActive (s : State) (o : Output) : (s.emit o).safeActive = s.safeActive := rfl
@[simp] theorem State.emit_safeShadow (s : State) (o : Output) : (s.emit o).safeShadow = s.safeShadow := rfl
@[simp] theorem State.emit_validations (s : State) (o : Output) : (s.emit o).validations = s.validations := rfl
@[simp] theorem State.emit_ringLoads (s : State) (o : Output) : (s.emit o).ringLoads = s.ringLoads := rfl
@[simp] theorem State.emit_oddScopes (s : State) (o : Output) : (s.emit o).oddScopes = s.oddScopes := rfl
@[simp] theorem State.emit_moduleCastled (s : State) (o : Output) : (s.emit o).moduleCastled = s.moduleCastled := rfl
@[simp] theorem State.emit_update (s : State) (o : Output) : (s.emit o).update = s.update := rfl
@[simp] theorem State.emit_power (s : State) (o : Output) : (s.emit o).power = s.power := rfl
@[simp] theorem State.emit_anchors (s : State) (o : Output) : (s.emit o).anchors = s.anchors := rfl
@[simp] theorem State.emit_sealedUpto (s : State) (o : Output) : (s.emit o).sealedUpto = s.sealedUpto := rfl
@[simp] theorem State.emit_sampleTick (s : State) (o : Output) : (s.emit o).sampleTick = s.sampleTick := rfl
@[simp] theorem State.emit_noSeal (s : State) (o : Output) : (s.emit o).noSeal = s.noSeal := rfl
@[simp] theorem State.emit_skipped (s : State) (o : Output) : (s.emit o).skipped = s.skipped := rfl
@[simp] theorem State.emit_deferred (s : State) (o : Output) : (s.emit o).deferred = s.deferred := rfl
@[simp] theorem State.emit_notices (s : State) (o : Output) : (s.emit o).notices = s.notices := rfl
@[simp] theorem State.emit_gooseSubs (s : State) (o : Output) : (s.emit o).gooseSubs = s.gooseSubs := rfl
@[simp] theorem State.emit_holdover (s : State) (o : Output) : (s.emit o).holdover = s.holdover := rfl
@[simp] theorem State.emit_arb (s : State) (o : Output) : (s.emit o).arb = s.arb := rfl
@[simp] theorem State.emit_teleSubs (s : State) (o : Output) : (s.emit o).teleSubs = s.teleSubs := rfl
@[simp] theorem State.emit_safePw (s : State) (o : Output) : (s.emit o).safePw = s.safePw := rfl
@[simp] theorem State.emit_nonces (s : State) (o : Output) : (s.emit o).nonces = s.nonces := rfl
@[simp] theorem State.emit_unlocks (s : State) (o : Output) : (s.emit o).unlocks = s.unlocks := rfl
@[simp] theorem State.emit_safeFails (s : State) (o : Output) : (s.emit o).safeFails = s.safeFails := rfl
@[simp] theorem State.emit_safeLockout (s : State) (o : Output) : (s.emit o).safeLockout = s.safeLockout := rfl
@[simp] theorem State.emit_xlink (s : State) (o : Output) : (s.emit o).xlink = s.xlink := rfl
@[simp] theorem State.emit_partnerSeen (s : State) (o : Output) : (s.emit o).partnerSeen = s.partnerSeen := rfl
@[simp] theorem State.emit_gm (s : State) (o : Output) : (s.emit o).gm = s.gm := rfl
@[simp] theorem State.emit_masters (s : State) (o : Output) : (s.emit o).masters = s.masters := rfl
@[simp] theorem State.emit_slavePort (s : State) (o : Output) : (s.emit o).slavePort = s.slavePort := rfl
@[simp] theorem State.emit_staged (s : State) (o : Output) : (s.emit o).staged = s.staged := rfl
@[simp] theorem State.emit_canSealed (s : State) (o : Output) : (s.emit o).canSealed = s.canSealed := rfl
@[simp] theorem State.emit_white (s : State) (o : Output) : (s.emit o).white = s.white := rfl
@[simp] theorem State.emit_handoverAt (s : State) (o : Output) : (s.emit o).handoverAt = s.handoverAt := rfl
@[simp] theorem State.emit_drill (s : State) (o : Output) : (s.emit o).drill = s.drill := rfl
@[simp] theorem State.emit_pair (s : State) (o : Output) : (s.emit o).pair = s.pair := rfl
@[simp] theorem State.emit_regions (s : State) (o : Output) : (s.emit o).regions = s.regions := rfl
@[simp] theorem State.emit_freed (s : State) (o : Output) : (s.emit o).freed = s.freed := rfl
@[simp] theorem State.emit_ledgerFresh (s : State) (o : Output) : (s.emit o).ledgerFresh = s.ledgerFresh := rfl
@[simp] theorem State.emit_ledgerPend (s : State) (o : Output) : (s.emit o).ledgerPend = s.ledgerPend := rfl
@[simp] theorem State.emit_ledgerQueue (s : State) (o : Output) : (s.emit o).ledgerQueue = s.ledgerQueue := rfl
@[simp] theorem State.emit_buckets (s : State) (o : Output) : (s.emit o).buckets = s.buckets := rfl
@[simp] theorem State.emit_floodCounts (s : State) (o : Output) : (s.emit o).floodCounts = s.floodCounts := rfl
@[simp] theorem State.emit_floods (s : State) (o : Output) : (s.emit o).floods = s.floods := rfl
@[simp] theorem State.emit_forces (s : State) (o : Output) : (s.emit o).forces = s.forces := rfl
@[simp] theorem State.emit_tally (s : State) (o : Output) : (s.emit o).tally = s.tally := rfl
@[simp] theorem State.emit_aborted (s : State) (o : Output) : (s.emit o).aborted = s.aborted := rfl
@[simp] theorem State.emit_abortedSec (s : State) (o : Output) : (s.emit o).abortedSec = s.abortedSec := rfl
@[simp] theorem State.emit_noticeReset (s : State) (o : Output) : (s.emit o).noticeReset = s.noticeReset := rfl
@[simp] theorem State.emit_leases (s : State) (o : Output) : (s.emit o).leases = s.leases := rfl

/-! ### Several things leave the module -/

@[simp] theorem State.emitAll_pending (s : State) (os : List Output) : (s.emitAll os).pending = s.pending := rfl
@[simp] theorem State.emitAll_freeCount (s : State) (os : List Output) : (s.emitAll os).freeCount = s.freeCount := rfl
@[simp] theorem State.emitAll_now (s : State) (os : List Output) : (s.emitAll os).now = s.now := rfl
@[simp] theorem State.emitAll_open_ (s : State) (os : List Output) : (s.emitAll os).open_ = s.open_ := rfl
@[simp] theorem State.emitAll_regs (s : State) (os : List Output) : (s.emitAll os).regs = s.regs := rfl
@[simp] theorem State.emitAll_sideA (s : State) (os : List Output) : (s.emitAll os).sideA = s.sideA := rfl
@[simp] theorem State.emitAll_sideB (s : State) (os : List Output) : (s.emitAll os).sideB = s.sideB := rfl
@[simp] theorem State.emitAll_principals (s : State) (os : List Output) : (s.emitAll os).principals = s.principals := rfl
@[simp] theorem State.emitAll_waiting (s : State) (os : List Output) : (s.emitAll os).waiting = s.waiting := rfl
@[simp] theorem State.emitAll_outcomes (s : State) (os : List Output) : (s.emitAll os).outcomes = s.outcomes := rfl
@[simp] theorem State.emitAll_cmdBudget (s : State) (os : List Output) : (s.emitAll os).cmdBudget = s.cmdBudget := rfl
@[simp] theorem State.emitAll_modActive (s : State) (os : List Output) : (s.emitAll os).modActive = s.modActive := rfl
@[simp] theorem State.emitAll_modShadow (s : State) (os : List Output) : (s.emitAll os).modShadow = s.modShadow := rfl
@[simp] theorem State.emitAll_stallActive (s : State) (os : List Output) : (s.emitAll os).stallActive = s.stallActive := rfl
@[simp] theorem State.emitAll_stallShadow (s : State) (os : List Output) : (s.emitAll os).stallShadow = s.stallShadow := rfl
@[simp] theorem State.emitAll_safeActive (s : State) (os : List Output) : (s.emitAll os).safeActive = s.safeActive := rfl
@[simp] theorem State.emitAll_safeShadow (s : State) (os : List Output) : (s.emitAll os).safeShadow = s.safeShadow := rfl
@[simp] theorem State.emitAll_validations (s : State) (os : List Output) : (s.emitAll os).validations = s.validations := rfl
@[simp] theorem State.emitAll_ringLoads (s : State) (os : List Output) : (s.emitAll os).ringLoads = s.ringLoads := rfl
@[simp] theorem State.emitAll_oddScopes (s : State) (os : List Output) : (s.emitAll os).oddScopes = s.oddScopes := rfl
@[simp] theorem State.emitAll_moduleCastled (s : State) (os : List Output) : (s.emitAll os).moduleCastled = s.moduleCastled := rfl
@[simp] theorem State.emitAll_update (s : State) (os : List Output) : (s.emitAll os).update = s.update := rfl
@[simp] theorem State.emitAll_power (s : State) (os : List Output) : (s.emitAll os).power = s.power := rfl
@[simp] theorem State.emitAll_anchors (s : State) (os : List Output) : (s.emitAll os).anchors = s.anchors := rfl
@[simp] theorem State.emitAll_sealedUpto (s : State) (os : List Output) : (s.emitAll os).sealedUpto = s.sealedUpto := rfl
@[simp] theorem State.emitAll_sampleTick (s : State) (os : List Output) : (s.emitAll os).sampleTick = s.sampleTick := rfl
@[simp] theorem State.emitAll_noSeal (s : State) (os : List Output) : (s.emitAll os).noSeal = s.noSeal := rfl
@[simp] theorem State.emitAll_skipped (s : State) (os : List Output) : (s.emitAll os).skipped = s.skipped := rfl
@[simp] theorem State.emitAll_deferred (s : State) (os : List Output) : (s.emitAll os).deferred = s.deferred := rfl
@[simp] theorem State.emitAll_notices (s : State) (os : List Output) : (s.emitAll os).notices = s.notices := rfl
@[simp] theorem State.emitAll_gooseSubs (s : State) (os : List Output) : (s.emitAll os).gooseSubs = s.gooseSubs := rfl
@[simp] theorem State.emitAll_holdover (s : State) (os : List Output) : (s.emitAll os).holdover = s.holdover := rfl
@[simp] theorem State.emitAll_arb (s : State) (os : List Output) : (s.emitAll os).arb = s.arb := rfl
@[simp] theorem State.emitAll_teleSubs (s : State) (os : List Output) : (s.emitAll os).teleSubs = s.teleSubs := rfl
@[simp] theorem State.emitAll_safePw (s : State) (os : List Output) : (s.emitAll os).safePw = s.safePw := rfl
@[simp] theorem State.emitAll_nonces (s : State) (os : List Output) : (s.emitAll os).nonces = s.nonces := rfl
@[simp] theorem State.emitAll_unlocks (s : State) (os : List Output) : (s.emitAll os).unlocks = s.unlocks := rfl
@[simp] theorem State.emitAll_safeFails (s : State) (os : List Output) : (s.emitAll os).safeFails = s.safeFails := rfl
@[simp] theorem State.emitAll_safeLockout (s : State) (os : List Output) : (s.emitAll os).safeLockout = s.safeLockout := rfl
@[simp] theorem State.emitAll_xlink (s : State) (os : List Output) : (s.emitAll os).xlink = s.xlink := rfl
@[simp] theorem State.emitAll_partnerSeen (s : State) (os : List Output) : (s.emitAll os).partnerSeen = s.partnerSeen := rfl
@[simp] theorem State.emitAll_gm (s : State) (os : List Output) : (s.emitAll os).gm = s.gm := rfl
@[simp] theorem State.emitAll_masters (s : State) (os : List Output) : (s.emitAll os).masters = s.masters := rfl
@[simp] theorem State.emitAll_slavePort (s : State) (os : List Output) : (s.emitAll os).slavePort = s.slavePort := rfl
@[simp] theorem State.emitAll_staged (s : State) (os : List Output) : (s.emitAll os).staged = s.staged := rfl
@[simp] theorem State.emitAll_canSealed (s : State) (os : List Output) : (s.emitAll os).canSealed = s.canSealed := rfl
@[simp] theorem State.emitAll_white (s : State) (os : List Output) : (s.emitAll os).white = s.white := rfl
@[simp] theorem State.emitAll_handoverAt (s : State) (os : List Output) : (s.emitAll os).handoverAt = s.handoverAt := rfl
@[simp] theorem State.emitAll_drill (s : State) (os : List Output) : (s.emitAll os).drill = s.drill := rfl
@[simp] theorem State.emitAll_pair (s : State) (os : List Output) : (s.emitAll os).pair = s.pair := rfl
@[simp] theorem State.emitAll_regions (s : State) (os : List Output) : (s.emitAll os).regions = s.regions := rfl
@[simp] theorem State.emitAll_freed (s : State) (os : List Output) : (s.emitAll os).freed = s.freed := rfl
@[simp] theorem State.emitAll_ledgerFresh (s : State) (os : List Output) : (s.emitAll os).ledgerFresh = s.ledgerFresh := rfl
@[simp] theorem State.emitAll_ledgerPend (s : State) (os : List Output) : (s.emitAll os).ledgerPend = s.ledgerPend := rfl
@[simp] theorem State.emitAll_ledgerQueue (s : State) (os : List Output) : (s.emitAll os).ledgerQueue = s.ledgerQueue := rfl
@[simp] theorem State.emitAll_buckets (s : State) (os : List Output) : (s.emitAll os).buckets = s.buckets := rfl
@[simp] theorem State.emitAll_floodCounts (s : State) (os : List Output) : (s.emitAll os).floodCounts = s.floodCounts := rfl
@[simp] theorem State.emitAll_floods (s : State) (os : List Output) : (s.emitAll os).floods = s.floods := rfl
@[simp] theorem State.emitAll_forces (s : State) (os : List Output) : (s.emitAll os).forces = s.forces := rfl
@[simp] theorem State.emitAll_tally (s : State) (os : List Output) : (s.emitAll os).tally = s.tally := rfl
@[simp] theorem State.emitAll_aborted (s : State) (os : List Output) : (s.emitAll os).aborted = s.aborted := rfl
@[simp] theorem State.emitAll_abortedSec (s : State) (os : List Output) : (s.emitAll os).abortedSec = s.abortedSec := rfl
@[simp] theorem State.emitAll_noticeReset (s : State) (os : List Output) : (s.emitAll os).noticeReset = s.noticeReset := rfl
@[simp] theorem State.emitAll_leases (s : State) (os : List Output) : (s.emitAll os).leases = s.leases := rfl

/-! ### A record waits for the Ledger -/

@[simp] theorem State.ledger_pending (s : State) (r : LPend) : (s.ledger r).pending = s.pending := rfl
@[simp] theorem State.ledger_out (s : State) (r : LPend) : (s.ledger r).out = s.out := rfl
@[simp] theorem State.ledger_freeCount (s : State) (r : LPend) : (s.ledger r).freeCount = s.freeCount := rfl
@[simp] theorem State.ledger_now (s : State) (r : LPend) : (s.ledger r).now = s.now := rfl
@[simp] theorem State.ledger_open_ (s : State) (r : LPend) : (s.ledger r).open_ = s.open_ := rfl
@[simp] theorem State.ledger_regs (s : State) (r : LPend) : (s.ledger r).regs = s.regs := rfl
@[simp] theorem State.ledger_sideA (s : State) (r : LPend) : (s.ledger r).sideA = s.sideA := rfl
@[simp] theorem State.ledger_sideB (s : State) (r : LPend) : (s.ledger r).sideB = s.sideB := rfl
@[simp] theorem State.ledger_principals (s : State) (r : LPend) : (s.ledger r).principals = s.principals := rfl
@[simp] theorem State.ledger_waiting (s : State) (r : LPend) : (s.ledger r).waiting = s.waiting := rfl
@[simp] theorem State.ledger_outcomes (s : State) (r : LPend) : (s.ledger r).outcomes = s.outcomes := rfl
@[simp] theorem State.ledger_cmdBudget (s : State) (r : LPend) : (s.ledger r).cmdBudget = s.cmdBudget := rfl
@[simp] theorem State.ledger_modActive (s : State) (r : LPend) : (s.ledger r).modActive = s.modActive := rfl
@[simp] theorem State.ledger_modShadow (s : State) (r : LPend) : (s.ledger r).modShadow = s.modShadow := rfl
@[simp] theorem State.ledger_stallActive (s : State) (r : LPend) : (s.ledger r).stallActive = s.stallActive := rfl
@[simp] theorem State.ledger_stallShadow (s : State) (r : LPend) : (s.ledger r).stallShadow = s.stallShadow := rfl
@[simp] theorem State.ledger_safeActive (s : State) (r : LPend) : (s.ledger r).safeActive = s.safeActive := rfl
@[simp] theorem State.ledger_safeShadow (s : State) (r : LPend) : (s.ledger r).safeShadow = s.safeShadow := rfl
@[simp] theorem State.ledger_validations (s : State) (r : LPend) : (s.ledger r).validations = s.validations := rfl
@[simp] theorem State.ledger_ringLoads (s : State) (r : LPend) : (s.ledger r).ringLoads = s.ringLoads := rfl
@[simp] theorem State.ledger_oddScopes (s : State) (r : LPend) : (s.ledger r).oddScopes = s.oddScopes := rfl
@[simp] theorem State.ledger_moduleCastled (s : State) (r : LPend) : (s.ledger r).moduleCastled = s.moduleCastled := rfl
@[simp] theorem State.ledger_update (s : State) (r : LPend) : (s.ledger r).update = s.update := rfl
@[simp] theorem State.ledger_power (s : State) (r : LPend) : (s.ledger r).power = s.power := rfl
@[simp] theorem State.ledger_anchors (s : State) (r : LPend) : (s.ledger r).anchors = s.anchors := rfl
@[simp] theorem State.ledger_sealedUpto (s : State) (r : LPend) : (s.ledger r).sealedUpto = s.sealedUpto := rfl
@[simp] theorem State.ledger_sampleTick (s : State) (r : LPend) : (s.ledger r).sampleTick = s.sampleTick := rfl
@[simp] theorem State.ledger_noSeal (s : State) (r : LPend) : (s.ledger r).noSeal = s.noSeal := rfl
@[simp] theorem State.ledger_skipped (s : State) (r : LPend) : (s.ledger r).skipped = s.skipped := rfl
@[simp] theorem State.ledger_deferred (s : State) (r : LPend) : (s.ledger r).deferred = s.deferred := rfl
@[simp] theorem State.ledger_notices (s : State) (r : LPend) : (s.ledger r).notices = s.notices := rfl
@[simp] theorem State.ledger_gooseSubs (s : State) (r : LPend) : (s.ledger r).gooseSubs = s.gooseSubs := rfl
@[simp] theorem State.ledger_holdover (s : State) (r : LPend) : (s.ledger r).holdover = s.holdover := rfl
@[simp] theorem State.ledger_arb (s : State) (r : LPend) : (s.ledger r).arb = s.arb := rfl
@[simp] theorem State.ledger_teleSubs (s : State) (r : LPend) : (s.ledger r).teleSubs = s.teleSubs := rfl
@[simp] theorem State.ledger_safePw (s : State) (r : LPend) : (s.ledger r).safePw = s.safePw := rfl
@[simp] theorem State.ledger_nonces (s : State) (r : LPend) : (s.ledger r).nonces = s.nonces := rfl
@[simp] theorem State.ledger_unlocks (s : State) (r : LPend) : (s.ledger r).unlocks = s.unlocks := rfl
@[simp] theorem State.ledger_safeFails (s : State) (r : LPend) : (s.ledger r).safeFails = s.safeFails := rfl
@[simp] theorem State.ledger_safeLockout (s : State) (r : LPend) : (s.ledger r).safeLockout = s.safeLockout := rfl
@[simp] theorem State.ledger_xlink (s : State) (r : LPend) : (s.ledger r).xlink = s.xlink := rfl
@[simp] theorem State.ledger_partnerSeen (s : State) (r : LPend) : (s.ledger r).partnerSeen = s.partnerSeen := rfl
@[simp] theorem State.ledger_gm (s : State) (r : LPend) : (s.ledger r).gm = s.gm := rfl
@[simp] theorem State.ledger_masters (s : State) (r : LPend) : (s.ledger r).masters = s.masters := rfl
@[simp] theorem State.ledger_slavePort (s : State) (r : LPend) : (s.ledger r).slavePort = s.slavePort := rfl
@[simp] theorem State.ledger_staged (s : State) (r : LPend) : (s.ledger r).staged = s.staged := rfl
@[simp] theorem State.ledger_canSealed (s : State) (r : LPend) : (s.ledger r).canSealed = s.canSealed := rfl
@[simp] theorem State.ledger_white (s : State) (r : LPend) : (s.ledger r).white = s.white := rfl
@[simp] theorem State.ledger_handoverAt (s : State) (r : LPend) : (s.ledger r).handoverAt = s.handoverAt := rfl
@[simp] theorem State.ledger_drill (s : State) (r : LPend) : (s.ledger r).drill = s.drill := rfl
@[simp] theorem State.ledger_pair (s : State) (r : LPend) : (s.ledger r).pair = s.pair := rfl
@[simp] theorem State.ledger_regions (s : State) (r : LPend) : (s.ledger r).regions = s.regions := rfl
@[simp] theorem State.ledger_freed (s : State) (r : LPend) : (s.ledger r).freed = s.freed := rfl
@[simp] theorem State.ledger_ledgerFresh (s : State) (r : LPend) : (s.ledger r).ledgerFresh = s.ledgerFresh := rfl
@[simp] theorem State.ledger_ledgerQueue (s : State) (r : LPend) : (s.ledger r).ledgerQueue = s.ledgerQueue := rfl
@[simp] theorem State.ledger_buckets (s : State) (r : LPend) : (s.ledger r).buckets = s.buckets := rfl
@[simp] theorem State.ledger_floodCounts (s : State) (r : LPend) : (s.ledger r).floodCounts = s.floodCounts := rfl
@[simp] theorem State.ledger_floods (s : State) (r : LPend) : (s.ledger r).floods = s.floods := rfl
@[simp] theorem State.ledger_forces (s : State) (r : LPend) : (s.ledger r).forces = s.forces := rfl
@[simp] theorem State.ledger_tally (s : State) (r : LPend) : (s.ledger r).tally = s.tally := rfl
@[simp] theorem State.ledger_aborted (s : State) (r : LPend) : (s.ledger r).aborted = s.aborted := rfl
@[simp] theorem State.ledger_abortedSec (s : State) (r : LPend) : (s.ledger r).abortedSec = s.abortedSec := rfl
@[simp] theorem State.ledger_noticeReset (s : State) (r : LPend) : (s.ledger r).noticeReset = s.noticeReset := rfl
@[simp] theorem State.ledger_leases (s : State) (r : LPend) : (s.ledger r).leases = s.leases := rfl

/-! ### A side changes -/

@[simp] theorem State.modSide_pending (s : State) (sd : SideId) (f : Side → Side) : (s.modSide sd f).pending = s.pending := by
  cases sd <;> rfl
@[simp] theorem State.modSide_out (s : State) (sd : SideId) (f : Side → Side) : (s.modSide sd f).out = s.out := by
  cases sd <;> rfl
@[simp] theorem State.modSide_freeCount (s : State) (sd : SideId) (f : Side → Side) : (s.modSide sd f).freeCount = s.freeCount := by
  cases sd <;> rfl
@[simp] theorem State.modSide_now (s : State) (sd : SideId) (f : Side → Side) : (s.modSide sd f).now = s.now := by
  cases sd <;> rfl
@[simp] theorem State.modSide_open_ (s : State) (sd : SideId) (f : Side → Side) : (s.modSide sd f).open_ = s.open_ := by
  cases sd <;> rfl
@[simp] theorem State.modSide_regs (s : State) (sd : SideId) (f : Side → Side) : (s.modSide sd f).regs = s.regs := by
  cases sd <;> rfl
@[simp] theorem State.modSide_principals (s : State) (sd : SideId) (f : Side → Side) : (s.modSide sd f).principals = s.principals := by
  cases sd <;> rfl
@[simp] theorem State.modSide_waiting (s : State) (sd : SideId) (f : Side → Side) : (s.modSide sd f).waiting = s.waiting := by
  cases sd <;> rfl
@[simp] theorem State.modSide_outcomes (s : State) (sd : SideId) (f : Side → Side) : (s.modSide sd f).outcomes = s.outcomes := by
  cases sd <;> rfl
@[simp] theorem State.modSide_cmdBudget (s : State) (sd : SideId) (f : Side → Side) : (s.modSide sd f).cmdBudget = s.cmdBudget := by
  cases sd <;> rfl
@[simp] theorem State.modSide_modActive (s : State) (sd : SideId) (f : Side → Side) : (s.modSide sd f).modActive = s.modActive := by
  cases sd <;> rfl
@[simp] theorem State.modSide_modShadow (s : State) (sd : SideId) (f : Side → Side) : (s.modSide sd f).modShadow = s.modShadow := by
  cases sd <;> rfl
@[simp] theorem State.modSide_stallActive (s : State) (sd : SideId) (f : Side → Side) : (s.modSide sd f).stallActive = s.stallActive := by
  cases sd <;> rfl
@[simp] theorem State.modSide_stallShadow (s : State) (sd : SideId) (f : Side → Side) : (s.modSide sd f).stallShadow = s.stallShadow := by
  cases sd <;> rfl
@[simp] theorem State.modSide_safeActive (s : State) (sd : SideId) (f : Side → Side) : (s.modSide sd f).safeActive = s.safeActive := by
  cases sd <;> rfl
@[simp] theorem State.modSide_safeShadow (s : State) (sd : SideId) (f : Side → Side) : (s.modSide sd f).safeShadow = s.safeShadow := by
  cases sd <;> rfl
@[simp] theorem State.modSide_validations (s : State) (sd : SideId) (f : Side → Side) : (s.modSide sd f).validations = s.validations := by
  cases sd <;> rfl
@[simp] theorem State.modSide_ringLoads (s : State) (sd : SideId) (f : Side → Side) : (s.modSide sd f).ringLoads = s.ringLoads := by
  cases sd <;> rfl
@[simp] theorem State.modSide_oddScopes (s : State) (sd : SideId) (f : Side → Side) : (s.modSide sd f).oddScopes = s.oddScopes := by
  cases sd <;> rfl
@[simp] theorem State.modSide_moduleCastled (s : State) (sd : SideId) (f : Side → Side) : (s.modSide sd f).moduleCastled = s.moduleCastled := by
  cases sd <;> rfl
@[simp] theorem State.modSide_update (s : State) (sd : SideId) (f : Side → Side) : (s.modSide sd f).update = s.update := by
  cases sd <;> rfl
@[simp] theorem State.modSide_power (s : State) (sd : SideId) (f : Side → Side) : (s.modSide sd f).power = s.power := by
  cases sd <;> rfl
@[simp] theorem State.modSide_anchors (s : State) (sd : SideId) (f : Side → Side) : (s.modSide sd f).anchors = s.anchors := by
  cases sd <;> rfl
@[simp] theorem State.modSide_sealedUpto (s : State) (sd : SideId) (f : Side → Side) : (s.modSide sd f).sealedUpto = s.sealedUpto := by
  cases sd <;> rfl
@[simp] theorem State.modSide_sampleTick (s : State) (sd : SideId) (f : Side → Side) : (s.modSide sd f).sampleTick = s.sampleTick := by
  cases sd <;> rfl
@[simp] theorem State.modSide_noSeal (s : State) (sd : SideId) (f : Side → Side) : (s.modSide sd f).noSeal = s.noSeal := by
  cases sd <;> rfl
@[simp] theorem State.modSide_skipped (s : State) (sd : SideId) (f : Side → Side) : (s.modSide sd f).skipped = s.skipped := by
  cases sd <;> rfl
@[simp] theorem State.modSide_deferred (s : State) (sd : SideId) (f : Side → Side) : (s.modSide sd f).deferred = s.deferred := by
  cases sd <;> rfl
@[simp] theorem State.modSide_notices (s : State) (sd : SideId) (f : Side → Side) : (s.modSide sd f).notices = s.notices := by
  cases sd <;> rfl
@[simp] theorem State.modSide_gooseSubs (s : State) (sd : SideId) (f : Side → Side) : (s.modSide sd f).gooseSubs = s.gooseSubs := by
  cases sd <;> rfl
@[simp] theorem State.modSide_holdover (s : State) (sd : SideId) (f : Side → Side) : (s.modSide sd f).holdover = s.holdover := by
  cases sd <;> rfl
@[simp] theorem State.modSide_arb (s : State) (sd : SideId) (f : Side → Side) : (s.modSide sd f).arb = s.arb := by
  cases sd <;> rfl
@[simp] theorem State.modSide_teleSubs (s : State) (sd : SideId) (f : Side → Side) : (s.modSide sd f).teleSubs = s.teleSubs := by
  cases sd <;> rfl
@[simp] theorem State.modSide_safePw (s : State) (sd : SideId) (f : Side → Side) : (s.modSide sd f).safePw = s.safePw := by
  cases sd <;> rfl
@[simp] theorem State.modSide_nonces (s : State) (sd : SideId) (f : Side → Side) : (s.modSide sd f).nonces = s.nonces := by
  cases sd <;> rfl
@[simp] theorem State.modSide_unlocks (s : State) (sd : SideId) (f : Side → Side) : (s.modSide sd f).unlocks = s.unlocks := by
  cases sd <;> rfl
@[simp] theorem State.modSide_safeFails (s : State) (sd : SideId) (f : Side → Side) : (s.modSide sd f).safeFails = s.safeFails := by
  cases sd <;> rfl
@[simp] theorem State.modSide_safeLockout (s : State) (sd : SideId) (f : Side → Side) : (s.modSide sd f).safeLockout = s.safeLockout := by
  cases sd <;> rfl
@[simp] theorem State.modSide_xlink (s : State) (sd : SideId) (f : Side → Side) : (s.modSide sd f).xlink = s.xlink := by
  cases sd <;> rfl
@[simp] theorem State.modSide_partnerSeen (s : State) (sd : SideId) (f : Side → Side) : (s.modSide sd f).partnerSeen = s.partnerSeen := by
  cases sd <;> rfl
@[simp] theorem State.modSide_gm (s : State) (sd : SideId) (f : Side → Side) : (s.modSide sd f).gm = s.gm := by
  cases sd <;> rfl
@[simp] theorem State.modSide_masters (s : State) (sd : SideId) (f : Side → Side) : (s.modSide sd f).masters = s.masters := by
  cases sd <;> rfl
@[simp] theorem State.modSide_slavePort (s : State) (sd : SideId) (f : Side → Side) : (s.modSide sd f).slavePort = s.slavePort := by
  cases sd <;> rfl
@[simp] theorem State.modSide_staged (s : State) (sd : SideId) (f : Side → Side) : (s.modSide sd f).staged = s.staged := by
  cases sd <;> rfl
@[simp] theorem State.modSide_canSealed (s : State) (sd : SideId) (f : Side → Side) : (s.modSide sd f).canSealed = s.canSealed := by
  cases sd <;> rfl
@[simp] theorem State.modSide_white (s : State) (sd : SideId) (f : Side → Side) : (s.modSide sd f).white = s.white := by
  cases sd <;> rfl
@[simp] theorem State.modSide_handoverAt (s : State) (sd : SideId) (f : Side → Side) : (s.modSide sd f).handoverAt = s.handoverAt := by
  cases sd <;> rfl
@[simp] theorem State.modSide_drill (s : State) (sd : SideId) (f : Side → Side) : (s.modSide sd f).drill = s.drill := by
  cases sd <;> rfl
@[simp] theorem State.modSide_pair (s : State) (sd : SideId) (f : Side → Side) : (s.modSide sd f).pair = s.pair := by
  cases sd <;> rfl
@[simp] theorem State.modSide_regions (s : State) (sd : SideId) (f : Side → Side) : (s.modSide sd f).regions = s.regions := by
  cases sd <;> rfl
@[simp] theorem State.modSide_freed (s : State) (sd : SideId) (f : Side → Side) : (s.modSide sd f).freed = s.freed := by
  cases sd <;> rfl
@[simp] theorem State.modSide_ledgerFresh (s : State) (sd : SideId) (f : Side → Side) : (s.modSide sd f).ledgerFresh = s.ledgerFresh := by
  cases sd <;> rfl
@[simp] theorem State.modSide_ledgerPend (s : State) (sd : SideId) (f : Side → Side) : (s.modSide sd f).ledgerPend = s.ledgerPend := by
  cases sd <;> rfl
@[simp] theorem State.modSide_ledgerQueue (s : State) (sd : SideId) (f : Side → Side) : (s.modSide sd f).ledgerQueue = s.ledgerQueue := by
  cases sd <;> rfl
@[simp] theorem State.modSide_buckets (s : State) (sd : SideId) (f : Side → Side) : (s.modSide sd f).buckets = s.buckets := by
  cases sd <;> rfl
@[simp] theorem State.modSide_floodCounts (s : State) (sd : SideId) (f : Side → Side) : (s.modSide sd f).floodCounts = s.floodCounts := by
  cases sd <;> rfl
@[simp] theorem State.modSide_floods (s : State) (sd : SideId) (f : Side → Side) : (s.modSide sd f).floods = s.floods := by
  cases sd <;> rfl
@[simp] theorem State.modSide_forces (s : State) (sd : SideId) (f : Side → Side) : (s.modSide sd f).forces = s.forces := by
  cases sd <;> rfl
@[simp] theorem State.modSide_tally (s : State) (sd : SideId) (f : Side → Side) : (s.modSide sd f).tally = s.tally := by
  cases sd <;> rfl
@[simp] theorem State.modSide_aborted (s : State) (sd : SideId) (f : Side → Side) : (s.modSide sd f).aborted = s.aborted := by
  cases sd <;> rfl
@[simp] theorem State.modSide_abortedSec (s : State) (sd : SideId) (f : Side → Side) : (s.modSide sd f).abortedSec = s.abortedSec := by
  cases sd <;> rfl
@[simp] theorem State.modSide_noticeReset (s : State) (sd : SideId) (f : Side → Side) : (s.modSide sd f).noticeReset = s.noticeReset := by
  cases sd <;> rfl
@[simp] theorem State.modSide_leases (s : State) (sd : SideId) (f : Side → Side) : (s.modSide sd f).leases = s.leases := by
  cases sd <;> rfl

@[simp] theorem State.modSide_same (s : State) (sd : SideId) (f : Side → Side) : (s.modSide sd f).side sd = f (s.side sd) := by
  cases sd <;> rfl

theorem State.modSide_other (s : State) {sd sd' : SideId} (f : Side → Side) (h : sd' ≠ sd) :
    (s.modSide sd f).side sd' = s.side sd' := by
  cases sd <;> cases sd' <;> first | rfl | exact absurd rfl h

@[simp] theorem State.putReg_side (s : State) (r : Reg) (v : Nat) (sd : SideId) : (s.putReg r v).side sd = s.side sd := by
  cases sd <;> rfl
@[simp] theorem State.emit_side (s : State) (o : Output) (sd : SideId) : (s.emit o).side sd = s.side sd := by
  cases sd <;> rfl
@[simp] theorem State.emitAll_side (s : State) (os : List Output) (sd : SideId) : (s.emitAll os).side sd = s.side sd := by
  cases sd <;> rfl
@[simp] theorem State.ledger_side (s : State) (r : LPend) (sd : SideId) : (s.ledger r).side sd = s.side sd := by
  cases sd <;> rfl
@[simp] theorem State.emit_out (s : State) (o : Output) : (s.emit o).out = s.out ++ [o] := rfl
@[simp] theorem State.ledger_ledgerPend (s : State) (r : LPend) : (s.ledger r).ledgerPend = s.ledgerPend ++ [r] := rfl

/-! ### The other updates are these -/

theorem State.wr_eq (s : State) (r : Reg) (f : Fld) (v : Nat) : s.wr r f v = s.putReg r (setBits (s.regWord r) f.hi f.lo v) := rfl
theorem State.setFlag_eq (s : State) (r : Reg) (f : Fld) (b : Bool) : s.setFlag r f b = s.wr r f (b2n b) := rfl
theorem State.count_eq (s : State) (r : Reg) (f : Fld) (n : Nat) :
    s.count r f n = s.wr r f (min (s.rd r f + n) (2 ^ (f.hi - f.lo + 1) - 1)) := rfl
theorem State.tick1_eq (s : State) (r : Reg) (f : Fld) : s.tick1 r f = s.count r f 1 := rfl
theorem State.raise_eq (s : State) (r : Reg) (f : Fld) (v : Nat) :
    s.raise r f v = s.wr r f (max (s.rd r f) (min v (2 ^ (f.hi - f.lo + 1) - 1))) := rfl
theorem State.raiseMsix_eq (s : State) (sd : SideId) (v : Nat) : s.raiseMsix sd v =
    if !bit (s.msixWord sd v 3) 0 then s.emit (.msix sd v) else if (s.side sd).msix.waits.contains v then s
    else s.modSide sd fun y => { y with msix := { y.msix with waits := y.msix.waits ++ [v] } } := rfl
theorem State.moduleEvent_eq (s : State) (code stall : Nat) (body : Bytes) :
    s.moduleEvent code stall body = s.ledger ⟨3, stall, 0, code, 0, body, false, false⟩ := rfl

end Sys2Proof.Machine
end

