-- ==== Sys2Proof/Laws/Tables.lean ====
section
/-! SUPPORT. Tables: what a key reads after a write, and that a write keeps the keys rising. -/

namespace Sys2Proof.Machine

variable {α : Type}

@[simp] theorem Tbl.find_put_same (t : Tbl α) (k : Nat) (v : α) : Tbl.find (Tbl.put t k v) k = some v := by
  induction t with
  | nil => simp [Tbl.put, Tbl.find]
  | cons e rest ih =>
    obtain ⟨j, w⟩ := e
    unfold Tbl.put
    split
    · simp [Tbl.find]
    · split
      · simp [Tbl.find]
      · rename_i h1 h2
        simp [Tbl.find, ih, show ¬ j = k by omega]

theorem Tbl.find_put_other (t : Tbl α) {k j : Nat} (v : α) (h : j ≠ k) : Tbl.find (Tbl.put t k v) j = Tbl.find t j := by
  induction t with
  | nil => simp [Tbl.put, Tbl.find, h.symm]
  | cons e rest ih =>
    obtain ⟨i, w⟩ := e
    unfold Tbl.put
    split
    · simp [Tbl.find, h.symm]
    · split
      · rename_i h1 h2
        subst h2
        simp [Tbl.find, h.symm]
      · simp only [Tbl.find, ih]

@[simp] theorem Tbl.getD_put_same (t : Tbl α) (k : Nat) (v d : α) : Tbl.getD (Tbl.put t k v) k d = v := by
  simp [Tbl.getD]

theorem Tbl.getD_put_other (t : Tbl α) {k j : Nat} (v d : α) (h : j ≠ k) :
    Tbl.getD (Tbl.put t k v) j d = Tbl.getD t j d := by
  simp [Tbl.getD, Tbl.find_put_other t v h]

theorem Tbl.wf_tail {e : Nat × α} {t : Tbl α} (h : Tbl.wf (e :: t) = true) : Tbl.wf t = true := by
  cases t with
  | nil => rfl
  | cons f rest =>
    simp only [Tbl.wf, Bool.and_eq_true] at h
    exact h.2

theorem Tbl.wf_cons {e : Nat × α} {t : Tbl α} (h : Tbl.wf t = true) (hh : ∀ f, t.head? = some f → e.1 < f.1) :
    Tbl.wf (e :: t) = true := by
  cases t with
  | nil => rfl
  | cons f rest =>
    simp only [Tbl.wf, Bool.and_eq_true, decide_eq_true_eq]
    exact ⟨hh f rfl, h⟩

/-- A write keeps the keys rising. -/
theorem Tbl.wf_put (t : Tbl α) (k : Nat) (v : α) (h : Tbl.wf t = true) : Tbl.wf (Tbl.put t k v) = true := by
  induction t with
  | nil => rfl
  | cons e rest ih =>
    obtain ⟨j, w⟩ := e
    unfold Tbl.put
    split
    · rename_i hk
      exact Tbl.wf_cons h (by intro f hf; cases hf; exact hk)
    · split
      · rename_i h1 h2
        subst h2
        cases rest with
        | nil => rfl
        | cons f r => simpa [Tbl.wf] using h
      · rename_i h1 h2
        refine Tbl.wf_cons (ih (Tbl.wf_tail h)) ?_
        intro f hf
        cases rest with
        | nil => simp only [Tbl.put, List.head?_cons, Option.some.injEq] at hf; subst hf; simp; omega
        | cons g r =>
          simp only [Tbl.wf, Bool.and_eq_true, decide_eq_true_eq] at h
          obtain ⟨i, u⟩ := g
          simp only [Tbl.put] at hf
          split at hf
          · simp only [List.head?_cons, Option.some.injEq] at hf; subst hf; simp; omega
          · split at hf
            · simp only [List.head?_cons, Option.some.injEq] at hf; subst hf; simp; omega
            · simp only [List.head?_cons, Option.some.injEq] at hf; subst hf; exact h.1

end Sys2Proof.Machine
end

