-- ==== Sys2Proof/Laws/Regs.lean ====
section
/-! SUPPORT. Registers: a stored word is the word read, and the words of other registers stay; a field written is the field
read, and the other fields stay. -/

namespace Sys2Proof.Machine

/-- A stored word is read back, cut to the 64 bits that a register pair holds. -/
theorem State.regWord_putReg_same (s : State) (r : Reg) (v : Nat) : (s.putReg r v).regWord r = v % 2 ^ 64 := by
  unfold State.regWord State.putReg
  simp

/-- Storing one register leaves the words of the others. -/
theorem State.regWord_putReg_other (s : State) {r q : Reg} (v : Nat) (h : q.key ≠ r.key) :
    (s.putReg r v).regWord q = s.regWord q := by
  unfold State.regWord State.putReg
  simp only [Tbl.find_put_other _ _ h]

@[simp] theorem State.regWord_emit (s : State) (o : Output) (r : Reg) : (s.emit o).regWord r = s.regWord r := rfl
@[simp] theorem State.regWord_ledger (s : State) (l : LPend) (r : Reg) : (s.ledger l).regWord r = s.regWord r := rfl
@[simp] theorem State.regWord_modSide (s : State) (sd : SideId) (f : Side → Side) (r : Reg) :
    (s.modSide sd f).regWord r = s.regWord r := by
  unfold State.regWord
  simp

/-- A field written is the field read. -/
theorem bits_setBits_same (v hi lo x : Nat) (h : lo ≤ hi) : bits (setBits v hi lo x) hi lo = x % 2 ^ (hi - lo + 1) := by
  unfold bits setBits
  have e : 2 ^ (hi + 1) = 2 ^ lo * 2 ^ (hi - lo + 1) := by rw [← Nat.pow_add]; congr 1; omega
  have hp : 0 < 2 ^ lo := Nat.two_pow_pos lo
  have hl : v % 2 ^ lo < 2 ^ lo := Nat.mod_lt _ hp
  rw [e]
  have : v / (2 ^ lo * 2 ^ (hi - lo + 1)) * (2 ^ lo * 2 ^ (hi - lo + 1)) + x % 2 ^ (hi - lo + 1) * 2 ^ lo + v % 2 ^ lo
      = v % 2 ^ lo + 2 ^ lo * (x % 2 ^ (hi - lo + 1) + 2 ^ (hi - lo + 1) * (v / (2 ^ lo * 2 ^ (hi - lo + 1)))) := by ring
  rw [this, Nat.add_mul_div_left _ _ hp, Nat.div_eq_of_lt hl, Nat.zero_add, Nat.add_mul_mod_self_left, Nat.mod_mod]

/-- The parts of a word about a field written: what lies below it, and what lies above. -/
theorem setBits_split (v hi lo x : Nat) (h : lo ≤ hi) :
    setBits v hi lo x % 2 ^ lo = v % 2 ^ lo ∧ setBits v hi lo x / 2 ^ (hi + 1) = v / 2 ^ (hi + 1) := by
  unfold setBits
  have e : 2 ^ (hi + 1) = 2 ^ lo * 2 ^ (hi - lo + 1) := by rw [← Nat.pow_add]; congr 1; omega
  have hp : 0 < 2 ^ lo := Nat.two_pow_pos lo
  have hw : 0 < 2 ^ (hi - lo + 1) := Nat.two_pow_pos _
  have hl : v % 2 ^ lo < 2 ^ lo := Nat.mod_lt _ hp
  have hx : x % 2 ^ (hi - lo + 1) < 2 ^ (hi - lo + 1) := Nat.mod_lt _ hw
  rw [e]
  have hs : v / (2 ^ lo * 2 ^ (hi - lo + 1)) * (2 ^ lo * 2 ^ (hi - lo + 1)) + x % 2 ^ (hi - lo + 1) * 2 ^ lo + v % 2 ^ lo
      = v % 2 ^ lo + 2 ^ lo * (x % 2 ^ (hi - lo + 1) + 2 ^ (hi - lo + 1) * (v / (2 ^ lo * 2 ^ (hi - lo + 1)))) := by ring
  rw [hs]
  refine ⟨by rw [Nat.add_mul_mod_self_left, Nat.mod_mod], ?_⟩
  rw [← Nat.div_div_eq_div_mul, Nat.add_mul_div_left _ _ hp, Nat.div_eq_of_lt hl, Nat.zero_add, Nat.add_mul_div_left _ _ hw,
    Nat.div_eq_of_lt hx, Nat.zero_add]

/-- A field wholly below a written one stays. -/
theorem bits_setBits_below (v hi lo x h l : Nat) (hw : lo ≤ hi) (hl : h < lo) (hh : l ≤ h) :
    bits (setBits v hi lo x) h l = bits v h l := by
  have hm : ∀ n : Nat, bits n h l = n % 2 ^ lo / 2 ^ l % 2 ^ (h - l + 1) := by
    intro n
    have elo : 2 ^ lo = 2 ^ l * (2 ^ (h - l + 1) * 2 ^ (lo - h - 1)) := by
      rw [← Nat.pow_add, ← Nat.pow_add]; congr 1; omega
    unfold bits
    rw [elo, Nat.mod_mul_right_div_self, Nat.mod_mul_right_mod]
  rw [hm, hm, (setBits_split v hi lo x hw).1]

/-- A field wholly above a written one stays. -/
theorem bits_setBits_above (v hi lo x h l : Nat) (hw : lo ≤ hi) (hl : hi < l) :
    bits (setBits v hi lo x) h l = bits v h l := by
  have hm : ∀ n : Nat, bits n h l = n / 2 ^ (hi + 1) / 2 ^ (l - hi - 1) % 2 ^ (h - l + 1) := by
    intro n
    unfold bits
    rw [Nat.div_div_eq_div_mul, ← Nat.pow_add, show hi + 1 + (l - hi - 1) = l by omega]
  rw [hm, hm, (setBits_split v hi lo x hw).2]

end Sys2Proof.Machine
end

