-- ==== Sys2Proof/Tests/Slice0.lean ====
section
/-! SUPPORT. Tests: ill-formed commands that the checks refuse, words of Hyrra Scan Code written out from their encodings,
and for every statement of Obligations a state and operands that meet its hypotheses, at boundary values where its clauses
meet. -/

namespace Sys2Proof.Tests

-- One theorem is checked at a time: many at once would need more threads than memory has stacks for.
set_option Elab.async false

open Machine Claims

/-! ### A small state -/

/-- A principal of every stall, over every transport. -/
def prin (o role : Nat) : Principal := ⟨beBytes 4 o ++ [BitVec.ofNat 8 role, 0xFF, 0, 7] ++ zeros 24, 0, 0, 0, 0⟩

/-- A side with images and the key of slot 0 written out. -/
def sideOf (r : Role) : Side :=
  { Side.reset with role := r, image := zeros 224, stored := zeros 224, keys := [(0, zeros 32)], roots := ⟨some (zeros 8), some (zeros 8), some (zeros 8), []⟩ }

/-- The module in service: A Active, B Standby in step, principals 1 to 6 with roles 0 to 5. -/
def base : State :=
  { State.reset with
    now := 9600000, principals := (List.range 6).map fun i => (i + 1, prin (i + 1) i)
    power := { PowSt.reset with mode := .service, fresh := false }, xlink := { XlinkSt.reset with link := some [] }, sideA := sideOf .active, sideB := sideOf .standby }

/-- A command over the console of side A for stall 0. -/
def hd (o : Nat) : CmdHdr := ⟨.A, .console, BitVec.ofNat 32 o, 1, 0, 0, 0, 0⟩

/-- The same through the module's own transport. -/
def own : CmdHdr := { hd 1 with transport := .internal }

/-- The grant of a stall that asks nothing. -/
def grantOf (k : Nat) : Bytes := beBytes 1 k ++ zeros 127

/-- Stall k in a state, with a grant in both scopes. -/
def stall (k st : Nat) (s : State) : State :=
  let c : Scope := { Scope.empty with recs := [(0x20 * 4294967296, grantOf k)] }
  { s.setStallState k st with stallActive := Tbl.put s.stallActive k c, stallShadow := Tbl.put s.stallShadow k c }

/-- A record in the module's active and shadow sets, or in a stall's. -/
def record (ty idx : Nat) (r : Bytes) (s : State) : State :=
  { s with modActive := s.modActive.putRec ty idx r, modShadow := s.modShadow.putRec ty idx r }
def stallRecord (k ty idx : Nat) (r : Bytes) (s : State) : State :=
  { s with
    stallActive := Tbl.put s.stallActive k ((Tbl.getD s.stallActive k Scope.empty).putRec ty idx r)
    stallShadow := Tbl.put s.stallShadow k ((Tbl.getD s.stallShadow k Scope.empty).putRec ty idx r) }

/-- A lease of a kind. -/
def leased (k : Nat) (s : State) : State := { s with leases := [⟨k, 2, 5, 0⟩] }

/-- A ring of side A, enabled, of a kind and an owner. -/
def ringOf (r kind owner : Nat) (s : State) : State :=
  (((s.wr (Rg.ringCfg .A r) Fd.ringCfgKind kind).wr (Rg.ringCfg .A r) Fd.ringCfgOwner owner).wr (Rg.ringCfg .A r) Fd.ringCfgSizeLog2 4).setFlag
    (Rg.ringCfg .A r) Fd.ringCfgEnabled true

/-- A command is taken, and the condition of a clause holds. -/
def Met (c : CmdSpec) (ok : State → CmdHdr → Bytes → Prop) (s : State) (h : CmdHdr) (p : Bytes) : Prop :=
  Takes s c h p ∧ ok s h p

/-- A chain record, a capture record, a stream subscription with one entry. -/
def compRec : Bytes := [0, 0, 1, 1] ++ zeros 12
def chainRec : Bytes := beBytes 2 8191 ++ zeros 2 ++ beBytes 4 0x3F800000 ++ [0, 1, 0, 1] ++ zeros 12 ++ compRec ++ compRec ++ compRec ++ compRec ++ zeros 8
def captRec : Bytes := beBytes 2 255 ++ [62, 1, 0, 0, 0, 1, 0, 0, 64] ++ zeros 13
def subOf (flags : Byte) : Bytes := beBytes 2 1023 ++ [0, flags] ++ zeros 9 ++ [1, 1, 1] ++ zeros 7 ++ [1] ++ zeros 152 ++ zeros 4 ++ [0, 0, 0, 1] ++ zeros 4

def subRec : Bytes := subOf 0

/-- The same, free-running. -/
def freeRec : Bytes := subOf 1

/-- Stall 62 with a program of one task, and a force on its input. -/
def taskRec : Bytes := zeros 20 ++ beBytes 4 4096 ++ zeros 40
def progOf : Bytes := zeros 64 ++ [1] ++ zeros 15 ++ taskRec
def forcePay : Bytes := [1, 62, 0, 4] ++ zeros 4 ++ beBytes 4 0xFFFFFFFF ++ zeros 4 ++ beBytes 4 28800 ++ zeros 8
def progBase : State := stallRecord 62 0x21 0 progOf (stall 62 2 base)
def forceBase : State := { progBase with forces := [(0, forceOfParams (hd 3) forcePay 9600000)] }

/-- A safety table without instances: its grant, its CRC; SAFE_CH as given. -/
def tableOf (ch : Nat) : Bytes :=
  let t : Bytes := [0x4B, 0x53, 1, 0, 0, 0, 0, 0] ++ zeros 4 ++ beBytes 4 160 ++ zeros 4 ++ beBytes 4 ch ++ zeros 8 ++ grantOf 63
  patch t 8 (beBytes 4 (crc32c t))
def safeTable : Bytes := tableOf 0
def safeBase : State := { base with safeActive := tableOf (2 ^ 31) }

/-- Both paths of the cross-link up. -/
def pathsUp (s : State) : State :=
  s.forSides fun sd t => (t.setFlag (Rg.xlinkLanes sd) Fd.xlinkLanesPath12Up true).setFlag (Rg.xlinkLanes sd) Fd.xlinkLanesPath13Up true

/-- Side B Out, tested, the cross-link up. -/
def joinBase : State := pathsUp (base.modSide .B fun x => { x with role := .out, duty := { x.duty with tested := true } })

/-- The module in mirror mode, in a pair role. -/
def paired (role : Nat) (s : State) : State :=
  record 0x12 0 ([0, 0, 0, 0, 0, 0, 1] ++ zeros 10) { s with pair := { PairSt.reset with role := role } }

/-- An update that is storing its image. -/
def updBase : State := { base with update := { UpdSt.reset with phase := 1, length := 224 } }

/-! ### Hyrra Scan Code -/

/-- Core 0 of side A; an activation on it. -/
def core : CoreRef := ⟨.A, 0⟩
def act : Act :=
  { actZero with
    stall := 62, budget := 100, bud := 30, inSize := 64, outSize := 64, retSize := 288, locSize := 64
    g := ((((Vector.replicate 32 0).set 1 5).set 2 2).set 3 4).set 4 60
    p := ((Vector.replicate 16 ⟨0, 0⟩).set 2 ⟨0x3F800000, 0⟩) }
def run (a : Act) : State := base.modSide .A fun x => { x with cores := [(0, { CoreSt.idle with cur := some a })] }

theorem runs_run (a : Act) (k : Nat) (h : a.status = .running) (hk : k ≤ a.bud) : Runs (run a) core a k :=
  ⟨rfl, h, hk⟩

/-- Every cost a statement names, paid to the last cycle. -/
theorem witness_Runs : ∀ k ∈ [1, 2, 3, 4, 5, 6, 7, 8, 12, 14, 18, 20, 30], Runs (run { act with bud := k }) core { act with bud := k } k :=
  fun k _ => runs_run _ k rfl (Nat.le_refl k)

/-- The clauses of the register, immediate, predicate and branch statements that name operands. -/
theorem witness_Operands :
    act.rg 0 = 0 ∧ act.rg 1 ≠ 0 ∧ (31 : BitVec 11).toNat < 32 ∧ (31 : BitVec 5) ≠ 0 ∧ (7 : BitVec 3) ≠ 0 ∧
    act.rf 0 = true ∧ act.rf 0 ≠ false ∧ (0xFFFF : BitVec 16) ≠ 0 ∧ (65535 : Word).toNat < 65536 ∧ (act.rg 5).toNat = 0 := by decide +kernel

/-- R149: NaNs of both kinds, infinities and the edges of the conversions. -/
theorem witness_FloatRules :
    isNaN 0x7F800001 ∧ isSignalling 0x7F800001 ∧ isNaN 0xFFC00000 ∧ ¬ isSignalling 0xFFC00000 ∧ ¬ isNaN 0x7F800000 ∧ ¬ isNaN 0x80000000 ∧
    isNaN (fAdd 0x7F800000 0xFF800000).1 ∧ isNaN (fSub 0x7F800000 0x7F800000).1 ∧ isNaN (fMul 0 0x7F800000).1 ∧ isNaN (fDiv 0 0).1 ∧
    isNaN (fSqrt 0xBF800000).1 ∧ isNaN (fFma 0 0x7F800000 0).1 ∧ (0x80000000 : Word).toNat % 2147483648 = 0 ∧
    (0xFF800000 : Word).toNat % 2147483648 = 0x7F800000 ∧ 0x4F000000 ≤ (0x7F800000 : Word).toNat ∧
    0xCF000001 ≤ (0xFF800000 : Word).toNat := by
  unfold isSignalling isNaN; decide +kernel

/-- R153: the end of a body: elsewhere, without budget, with iterations left, at the last one. -/
theorem witness_Loops :
    (∀ l, act.loops.head? = some l → act.pc ≠ l.stop) ∧
    ∀ l : LoopRec, l = ⟨8, 16, 2⟩ → ∀ a : Act, a = { act with pc := 16, loops := [l] } → a.loops = l :: [] ∧ a.pc = l.stop ∧ 0 < a.bud ∧ 1 < l.left ∧
      { a with bud := 0 }.bud = 0 ∧ { l with left := 1 }.left ≤ 1 := by
  refine ⟨by decide, ?_⟩
  rintro _ rfl _ rfl; decide

/-- R144: the last word of a segment, one past it, a misaligned address, a store to IN; a segment in canonical form. -/
theorem witness_Accesses :
    Allowed act .inp (address act 4 0 4) 4 4 false ∧ ¬ Allowed act .inp (address act 4 1 4) 4 4 false ∧
    Allowed act .loc (address act 4 3 1) 1 1 true ∧ ¬ Allowed act .loc (address act 2 0 4) 4 4 true ∧
    ¬ Allowed act .inp (address act 0 0 4) 4 4 true ∧ Allowed act .out (address act 4 (-1) 4) 8 4 true ∧
    Allowed act .ret (address act 4 1 2) 2 2 true ∧ Canonical act ∧ (30 : BitVec 5).toNat ≤ 30 ∧ (15 : BitVec 5).toNat < 16 := by
  unfold Allowed InSegment InPitches Canonical; decide +kernel

/-- An activation whose row of the slice table is corrupt: inside the segment, and outside the stall's pitches. -/
def corrupt : Act := { act with slice := { act.slice with limit := 63 } }
theorem witness_CorruptRow :
    (InSegment corrupt .inp (address corrupt 4 0 4) 4 4 false ∧ ¬ InPitches corrupt .inp (address corrupt 4 0 4) 4) ∧
    (InSegment corrupt .out (address corrupt 4 0 4) 4 4 true ∧ ¬ InPitches corrupt .out (address corrupt 4 0 4) 4) ∧
    ¬ InPitches corrupt .loc (corrupt.rg 4).toNat 4 := by
  unfold InSegment InPitches; decide +kernel

theorem witness_SoundRow : SoundRow act :=
  ⟨rfl, by rintro (_ | _ | _ | _) <;> decide +kernel⟩

/-- R156: vectors of no element and of two; what VMAX compares and what it does not; a budget that ends within the vector. -/
theorem witness_Vectors :
    0 = count (act.rg 0) ∧ 2 = count (act.rg 2) ∧ Elements act .inp (act.rg 0).toNat 2 4 false ∧ Elements act .inp (act.rg 0).toNat 2 8 false ∧
    Elements act .loc (act.rg 3).toNat 2 4 true ∧ Elements act .loc (act.rg 4).toNat 1 4 false ∧
    8 ≤ { act with bud := 9 }.bud ∧ { act with bud := 9 }.bud < 8 + 2 := by
  unfold Elements InPitches; decide +kernel

theorem witness_Vmax :
    (∀ j < 2, rank 0 (element act .inp 0 j) ≤ rank 0 (element act .inp 0 0) ∧ (j < 0 → rank 0 (element act .inp 0 j) < rank 0 (element act .inp 0 0))) ∧
    compared 0 (element act .inp 0 0) ∧ ¬ compared 1 0x7F800001 ∧ compared 5 0x7F800000 :=
  ⟨by decide +kernel, by intro h; cases h <;> contradiction, by unfold compared isNaN; decide +kernel, by unfold compared isNaN; decide +kernel⟩

/-- R159, R160: a LOG at the end of its segment and beyond it. -/
theorem witness_Log :
    (act.rg 4).toNat + 4 ≤ act.segSize .loc ∧ (act.segBase .loc + (act.rg 4).toNat + 4 ≤ act.slice.limit) ∧ act.segSize .loc < (act.rg 4).toNat + 5 ∧
    4 = (if 256 < (act.rg 3).toNat then 256 else (act.rg 3).toNat) ∧ 5 = (if 256 < (act.rg 1).toNat then 256 else (act.rg 1).toNat) := by decide

/-- R163, R168: the last slot of RET, one beyond it; both outcomes of IMP; ROC with and without enough samples. -/
theorem witness_Blocks :
    Allowed act .ret (16 * (17 : BitVec 16).toNat) 16 4 true ∧ act.retSize < 16 * (18 : BitVec 16).toNat + 16 ∧ Allowed act .ret (16 * (1 : BitVec 16).toNat) 272 4 true ∧
    fpLt fmt32 (act.rg 0).toNat (fFma 0x3F800000 0x3F800000 (fMul 0 0).1).1.toNat = true ∧
    fpLt fmt32 (0x40000000 : Word).toNat (fFma 0x3F800000 0x3F800000 (fMul 0 0).1).1.toNat = false ∧
    (let b := beBytes 4 1 ++ beBytes 4 1; 1 ≤ (if natAt b 4 = 1 then (if natAt b 0 ≤ 64 then natAt b 0 else 64) else 0)) ∧
    (let b := zeros 8; (if natAt b 4 = 1 then natAt b 0 else 0) < 1) := by
  unfold Allowed InSegment InPitches; decide +kernel

/-- R117: a core at work, one with nothing to start, one whose queue names a task. -/
def queued : State := progBase.modSide .A fun x => { x with cores := [(0, { CoreSt.idle with queue := [(62, 0)] })] }
theorem witness_ActivationStarts :
    ((run act).coreSt core.side core.core.val).cur ≠ none ∧ (base.coreSt core.side core.core.val).queue = [] ∧
    (queued.coreSt core.side core.core.val).cur = none ∧ (queued.coreSt core.side core.core.val).failed = false ∧
    (queued.coreSt core.side core.core.val).queue = [(62, 0)] ∧ (queued.task 62 0).isSome = true := by decide +kernel

/-- R123, R124, R161: an activation that holds a LOG or a TRIG on the active side; one whose budget is spent. -/
theorem witness_HaltAndAbort :
    { act with held := [.log 511 []] }.held = [.log 511 []] ∧ (run act).active = some core.side ∧
    { act with held := [.trig 15 0] }.held = [.trig 15 0] ∧ act.stall < 64 ∧ act.task < 16 ∧
    (AbortReason.budget = .budget ∨ AbortReason.budget = .access) ∧ (hscMeaning (.nop core)).isSome = true ∧
    cycles act (.nop core) = some (core, 1) ∧ ((run { act with bud := 0 }).coreSt core.side core.core.val).cur = some { act with bud := 0 } ∧
    { act with bud := 0 }.bud < 1 ∧ act.memFault = false ∧ taskKey act.stall act.task ∉ (run act).aborted ∧
    taskKey act.stall act.task ∈ ({ run act with aborted := [taskKey 62 0] } : State).aborted := by decide +kernel

/-- The active side serves; with none, the one that has computed the tick. -/
theorem witness_Serves : Serves (run act) core.side ∧
    Serves ((base.modSide .A fun x => { x with role := .out }).modDuty .B fun d => { d with computed := 9600000 }) .B := by
  unfold Serves; decide +kernel

/-- Commands that are no instruction of the scan code, and one that is. -/
theorem witness_Completes : (hscMeaning (.nop core)).isSome = true ∧ (∀ a, cycles a (.maskRefresh .A) = none) ∧ 65536 ≤ (65536 : Word).toNat :=
  ⟨rfl, fun _ => rfl, by decide⟩

/-- A Hyrra command in front of a state whose scan is well formed, and a step of it. -/
theorem witness_ScanInvariant : ∃ (s t : State) (i : Instr) (rest : List Instr),
    s.pending = i :: rest ∧ (hscEncode i).isSome = true ∧ ScanOk s ∧ step s = .next t ∧ cycles act i = some (core, 1) := by
  refine ⟨{ run act with pending := [.nop core] }, _, .nop core, [], rfl, rfl, ⟨?_, ?_⟩, rfl, rfl⟩
  · rintro (_ | _) n a h
    · by_cases e : n = 0
      · subst e
        obtain rfl : act = a := Option.some.inj h
        unfold ActOk Canonical; decide +kernel
      · simp [State.coreSt, State.side, run, State.modSide, base, Tbl.getD, Tbl.find, CoreSt.idle, Ne.symm e] at h
    · simp [State.coreSt, State.side, run, State.modSide, base, Tbl.getD, Tbl.find, CoreSt.idle, sideOf, Side.reset] at h
  · rintro (_ | _) st k <;> exact ⟨rfl, rfl⟩

/-- Words with and without an extension. -/
theorem witness_HyrraRoundTrip :
    (∃ w m, hscEncode (.nop core) = some (w, none) ∧ hscMeaning (.nop core) = some m) ∧
    (∃ w m, hscEncode (.li core 31 0xFFFFFFFF) = some (w, some 0xFFFFFFFF) ∧ hscMeaning (.li core 31 0xFFFFFFFF) = some m) :=
  ⟨⟨_, _, rfl, rfl⟩, ⟨_, _, rfl, rfl⟩⟩

/-! ### Words of Hyrra Scan Code, written out field by field from the encodings of R145 to R168 -/

theorem test_words :
    hscDecode 0b000000_00000_00000_00000_00000000001 none = hscMeaning (.halt core) ∧
    hscDecode 0b000001_00011_00100_00101_00000000001 none = hscMeaning (.sub core 3 4 5) ∧
    hscDecode 0b000010_00001_00010_00000_11111111111 none = hscMeaning (.addi core 1 2 0x7FF) ∧
    hscDecode 0b000011_00111_00000_00000_00000000000 (some 0x12345678) = hscMeaning (.li core 7 0x12345678) ∧
    hscDecode 0b001000_00001_00010_00011_00000001001 none = hscMeaning (.fma core 1 2 3) ∧
    hscDecode 0b001100_00001_00010_00011_00000000010 none = hscMeaning (.cmul core 1 2 3) ∧
    hscDecode 0b010000_00001_00010_00011_00000000101 none = hscMeaning (.ule core 1 2 3) ∧
    hscDecode 0b010010_00001_00010_00011_00000001101 none = hscMeaning (.csel core 1 5 2 3) ∧
    hscDecode 0b011000_1_0_011_00000_1111111111111110 none = hscMeaning (.br core ⟨true, 3⟩ 0xFFFE) ∧
    hscDecode 0b011001_00101_00000_0000000000000111 none = hscMeaning (.loop core 5 7 0) ∧
    hscDecode 0b011010_00100_00010_00011_00_11_000_0000 none = hscMeaning (.vcopy core .inp .loc 4 2 3) ∧
    hscDecode 0b100000_00100_00010_10_001_00000000011 none = hscMeaning (.ld core 1 4 2 .ret 3) ∧
    hscDecode 0b100001_00100_00010_01_011_00000000011 none = hscMeaning (.st core 3 4 2 .out 3) ∧
    hscDecode 0b101000_00010000_00_0000000000000011 none = hscMeaning (.ctu core 3) ∧
    hscDecode 0b110000_00000_00010_00000_00000001111 none = hscMeaning (.trig core 2 15) ∧
    hscDecode 0b110001_00000_00010_00011_11_000000101 none = hscMeaning (.log core .loc 5 2 3) :=
  ⟨rfl, rfl, rfl, rfl, rfl, rfl, rfl, rfl, rfl, rfl, rfl, rfl, rfl, rfl, rfl, rfl⟩

/-! ### Commands at large -/

/-- R398 to R403: refused, in deep self-test, late, too far ahead, waiting to the last tick that may be named. -/
theorem witness_CommandAdmission :
    Takes base specEcho (hd 1) [] ∧ base.barred specEcho (hd 9) [] = some .badAuth ∧
    (∀ t : State, t = base.setFlag (Rg.healthTest .A) Fd.healthTestDeepTest true →
      t.barred specEcho (hd 1) [] = none ∧ (isOutside (hd 1) && t.deepTest (hd 1).side) = true) ∧
    (∀ k ∈ [9600000, 9600000 + 414720001, 9600000 + 414720000, 9600001], ∀ h : CmdHdr, h = { hd 1 with applyTick := BitVec.ofNat 64 k } →
      base.barred specEcho h [] = none ∧ (isOutside h && base.deepTest h.side) = false ∧ h.applyTick.toNat = k) ∧
    specEcho.listed [] = false ∧ (base.waitingOn .A).length < 256 := by
  refine ⟨by unfold Takes; decide +kernel, by decide +kernel, ?_, ?_, by decide +kernel, by decide +kernel⟩
  · rintro _ rfl; decide +kernel
  · simp only [List.forall_mem_cons, List.not_mem_nil, false_implies, implies_true, and_true]
    refine ⟨?_, ?_, ?_, ?_⟩ <;> rintro _ rfl <;> decide +kernel

/-- R398, R399: no record, a role below the least, a scope of another stall, a stall that does not own, all in order. -/
theorem witness_CommandRights :
    Tbl.find base.principals 9 = none ∧ Tbl.find base.principals 1 = some (prin 1 0) ∧ roleOf (u8 (prin 1 0).record 4) = some .observer ∧
    specCastle.role (zeros 36) = some .manager ∧ meets .observer .manager = false ∧ meets .manager .manager = true ∧
    u8 ({ prin 1 0 with record := [0, 0, 0, 1, 0, 7] } : Principal).record 5 ≠ 255 ∧ (7 : Nat) ≠ (hd 1).stall.toNat ∧
    specEcho.role [] = some .observer ∧ specOriginSet.stall0 = true ∧ specStallStart.stall0 = false ∧
    specStallStart.owns base [61] 62 = false ∧ specStallStart.owns base [62] 62 = true ∧
    specSvAnchor.role [] = none ∧ (hd 1).transport ≠ .internal ∧ (hd 1).transport ≠ .bar0 := by decide +kernel

theorem witness_CommandRest :
    ((hd 1).transport ≠ .internal ∧ (hd 1).transport ≠ .bar0) ∧ (∀ e ∈ base.validations, e.2.broken = false) ∧
    Takes base specRegRead (hd 1) [0, 4, 0, 5, 4, 126, 0, 0] ∧ base.readCheck .A 0x40005 4 126 = some .misaligned ∧
    Takes base specRegWrite (hd 3) ([0, 4, 0, 5, 4, 1, 0, 0] ++ zeros 4) ∧ base.writeCheck .A true 0x40005 4 1 = some .misaligned ∧
    crierCovers { prin 1 0 with record := (prin 1 0).record.take 8 ++ [1] } 63 = true ∧
    (Tbl.find forceBase.forces 0).isSome = true ∧ 144000000 + 9600000 ≤ 153600000 := by unfold Takes; decide +kernel

theorem witness_StallLife :
    progBase.program 62 = some progOf ∧ (tasksOf progOf).getLast? = some (readTask taskRec) ∧
    (stall 62 2 base).stallState 62 ≠ 3 ∧ (stall 62 5 base).stallState 62 = 5 ∧
    (∀ t : State, t = stallRecord 62 0x20 0 ([62, 1] ++ zeros 126) (stall 62 3 base) →
      t.stallState 62 = 3 ∧ t.faultLimit 62 ≠ 0 ∧ t.faultLimit 62 ≤ min (t.rd (Rg.stallState 62) Fd.stallStateAutoResets + 1) 255) := by
  refine ⟨by decide +kernel, by decide +kernel, by decide +kernel, by decide +kernel, ?_⟩
  rintro _ rfl; decide +kernel

/-! ### Power, sides, field -/

/-- Modes, roles and registers for the events. -/
def mode (m : PowerMode) (s : State) : State := { s with power := { s.power with mode := m } }
def role (sd : SideId) (r : Role) (s : State) : State := s.modSide sd fun x => { x with role := r }

theorem witness_PowerUp :
    (mode .off base).power.mode = .off ∧ (mode .booting base).power.mode = .booting ∧ (State.reset.side .A).roots.native = none ∧
    (base.side .A).roots.native ≠ none ∧ (base.side .A).health.unfit = false ∧ base.onForward .A = false ∧ base.loadable .A = false ∧
    (base.modSide .A fun x => { x with stored := [0x4B, 0x46, 1, 3] ++ beBytes 4 224 ++ zeros 216 }).loadable .A = true ∧ base.canDonate .B = false ∧ joinBase.canDonate .B = true ∧
    (role .A .standby base).active = none ∧
    ((joinBase.duty .B).tested = true ∧ (joinBase.side .B).role = .out ∧ ((role .A .out joinBase).side .A).role ≠ .active) ∧
    base.gateOpen = false ∧ (base.putServo .A { ServoSt.free with mode := 2 }).gateReason = some false ∧
    base.power.gateWaited = false ∧ base.power.mode = .service ∧ base.power.stopAt = none ∧ base.power.mode ≠ .off ∧
    (mode .parked base).power.mode = .parked ∧ (mode .parked base).deaf .A = false ∧
    (∀ t : State, t = (mode .parked base).wr (Rg.wakeCode .A) Fd.wakeCodeCode 7 →
      t.regWord (Rg.wakeCode .A) = (7 : Word).toNat ∧ t.regWord (Rg.wakeCode .A) ≠ (8 : Word).toNat ∧ t.regWord (Rg.wakeCode .A) ≠ 0) ∧
    ((mode .parked base).putReg (Rg.wakeId .A) 9).regWord (Rg.wakeId .A) = (9 : BitVec 48).toNat ∧
    8 ≤ ((mode .parked base).wr (Rg.wakeStatus .A) Fd.wakeStatusBadCodes 8).rd (Rg.wakeStatus .A) Fd.wakeStatusBadCodes := by
  refine ⟨?_, ?_, ?_, ?_, ?_, ?_, ?_, ?_, ?_, ?_, ?_, ?_, ?_, ?_, ?_, ?_, ?_, ?_, ?_, ?_, ?_, ?_, ?_⟩ <;> first | decide +kernel | (rintro _ rfl; decide +kernel)

theorem witness_PowerDown :
    (∀ t : State, t = base.setFlag (Rg.powerStatus .A) Fd.powerStatusHoldupOk true → t.power.mode = .service ∧ t.active ≠ none ∧
      t.power.stopAt = none ∧ t.flag (Rg.powerStatus t.speaker) Fd.powerStatusHoldupOk = true ∧ t.now < firstTickFrom (2000000000000 + 10000000)) ∧
    (∀ w, 2000000000000 ≤ tickStart w → 9600000 ≤ w → 2000000000000 ≤ tickStart w) ∧
    (∀ t : State, t = base.setFlag (Rg.powerStatus .A) Fd.powerStatusPfWarn true →
      t.flag (Rg.powerStatus t.speaker) Fd.powerStatusPfWarn = true ∧ t.power.after = .off) ∧
    ({ base with power := { base.power with stopAt := some 9600001 } } : State).power.stopAt = some (9600001 : DWord).toNat ∧
    (mode .stopping base).power.mode = .stopping ∧
    ({ base with power := { base.power with mode := .stopping, inputBack := true } } : State).power.inputBack = true ∧
    (base.setFlag (Rg.powerStatus .A) Fd.powerStatusAuxOn true).flag (Rg.powerStatus base.speaker) Fd.powerStatusAuxOn = true ∧
    1100 < (1101 : BitVec 16).toInt ∧ (1100 : BitVec 16).toInt ≤ 1100 := by
  refine ⟨?_, ?_, ?_, ?_, ?_, ?_, ?_, ?_, ?_⟩ <;> first | decide +kernel | (rintro _ rfl; decide +kernel) | (intro _ h _; exact h)

def joining : State := role .B .joining base

theorem witness_SideEvents :
    (1150 < (1151 : BitVec 16).toInt ∧ (1150 : BitVec 16).toInt ≤ 1150) ∧ (base.side .B).role ≠ .out ∧
    (∀ t : State, t = base.modDuty .A (fun d => { d with demote := true }) → (t.duty SideId.B.other).demote = true ∧ (t.side .B).role = .standby ∧
      (t.duty .B).sealAt = none ∧ (t.duty .B).promoteAt = none ∧ (t.modDuty .B fun d => { d with computed := 9599997 }).mayPromote .B = true ∧
      (t.modDuty .B fun d => { d with computed := 9600000 }).mayPromote .B = true ∧ (t.duty .B).computed ≠ t.now ∧
      ({ t with open_ := true } : State).open_ = true) ∧
    ((25 : BitVec 8).toNat ≤ 25 ∧ 25 < (26 : BitVec 8).toNat) ∧
    (∀ t : State, t = joinBase.modDuty .B (fun d => { d with resync := { d.resync with guarded := some 9552000 } }) →
      (t.duty .B).resync.guarded = some 9552000 ∧ t.now ≤ 9552000 + 48000 ∧ (t.side .B).role = .out ∧ (-1000 : Int).natAbs ≤ 1000 ∧ 1000 < (1001 : Int).natAbs) ∧
    (base.sideA.role = .active ∧ base.sideB.role = .standby) ∧
    (∀ t : State, t = paired 2 (pathsUp base) →
      t.pairMode = 1 ∧ t.pair.role = 2 ∧ t.xlinkUp .A = true ∧ t.xlinkUp .B = true ∧ (paired 1 t).pair.role = 1 ∧ t.active = some .A ∧
      (role .A .out t).active = none ∧ (t.duty .A).computed ≠ t.now ∧ ({ t with open_ := true } : State).open_ = true ∧
      ((t.modDuty .A fun d => { d with computed := 9600000 }).duty .A).computed = t.now ∧ (t.duty .A).missed ≠ some t.now ∧
      ((t.modDuty .A fun d => { d with missed := some 9600000 }).duty .A).missed = some t.now ∧
      ((t.modDuty .A fun d => { d with missed := some 9600000 }).duty .A).computed ≠ t.now ∧ t.egressOk = false ∧ t.pair.egressStop = false ∧
      2 ≤ ({ t.pair with portsBad := 2 } : PairSt).portsBad) ∧
    ((base.duty .A).splitOut = false ∧ ((base.modDuty .B fun d => { d with splitOut := true }).duty .B).splitOut = true) ∧
    (∀ t : State, t = (joining.wr (Rg.resyncStatus .B) Fd.resyncStatusPhase 1).modDuty .B (fun d => { d with resync := { d.resync with start := 9597601 } }) →
      (t.side .B).role = .joining ∧ t.phase .B = 1 ∧ t.now < (t.duty .B).resync.start + 2400) ∧
    (∀ t : State, t = (paired 4 base).modJoin (fun j => { j with phase := 1, start := 9597601 }) →
      (t.side .A).role ≠ .joining ∧ t.pairMode = 1 ∧ t.pair.role = 4 ∧ t.pair.join.phase = 1 ∧ t.now < t.pair.join.start + 2400) ∧
    (base.xlink.unlocked = false ∧ ({ base.xlink with unlocked := true } : XlinkSt).unlocked = true) ∧
    (base.rd (Rg.healthSpares .A) Fd.healthSparesSpareSectors ≠ 0 ∧
      (base.wr (Rg.healthSpares .A) Fd.healthSparesSpareSectors 0).rd (Rg.healthSpares .A) Fd.healthSparesSpareSectors = 0) ∧
    (2 ≤ partDomain (partAddr 5 2 0 0 0) ∧ partDomain (partAddr 1 1 3 0 0) ≤ 1 ∧ partLevel (partAddr 1 1 3 0 0) = 1 ∧
      partLevel (partAddr 2 0 3 0 0) = 2 ∧ partUnit (partAddr 2 0 3 0 0) = 3 ∧ partLevel (partAddr 4 0 14 0 0) = 4 ∧
      partUnit (partAddr 4 0 14 0 0) = 14 ∧ partUnit (partAddr 4 0 15 0 0) = 15 ∧ 5 ≤ partLevel (partAddr 5 0 3 0 0) ∧
      partUnit (partAddr 2 0 0x1A 0 0) = 0x1A ∧ partLevel (partAddr 4 0 0x1A 0 0) ≠ 2 ∧ partUnit (partAddr 3 0 0x11 10 0) = 0x11 ∧
      serdesLane (partTile (partAddr 3 0 0x11 10 0)) = some (.spare 1) ∧ 10 < partTile (partAddr 3 0 0x11 11 0)) ∧
    (∀ t : State, t = base.setFlag (Rg.sideSelf .A) Fd.sideSelfArbSeen true → t.flag (Rg.sideSelf SideId.B.other) Fd.sideSelfArbSeen = true ∧
      t.flag (Rg.sideSelf .A) Fd.sideSelfArbSeen = true ∧ t.flag (Rg.sideSelf SideId.A.other) Fd.sideSelfArbSeen = false ∧ (t.side .A).role ≠ .out) ∧
    300 < (301 : BitVec 16).toInt.natAbs ∧ ¬ 300 < (-300 : BitVec 16).toInt.natAbs ∧
    (joining.wr (Rg.resyncStatus .B) Fd.resyncStatusPhase 1).attemptOver .B = true ∧
    ((base.modDuty .B fun d => { d with resync := { d.resync with retryAt := some 9600000 } }).duty .B).resync.retryAt = some 9600000 ∧
    (∀ d : DrillSt, d = ⟨9599998, 1, none⟩ → base.now < d.tick + 3 ∧ ({ d with tick := 9599997 } : DrillSt).tick + 3 ≤ base.now) ∧
    (9600000, [1]) ∈ ((base.modDuty .B fun d => { d with migrated := [(9600000, [1])] }).duty .B).migrated ∧ base.active = some .A := by
  refine ⟨?_, ?_, ?_, ?_, ?_, ?_, ?_, ?_, ?_, ?_, ?_, ?_, ?_, ?_, ?_, ?_, ?_, ?_, ?_, ?_⟩ <;> first | decide +kernel | (rintro _ rfl; decide +kernel)

/-- The clocks of a chip are its own: beyond 300 ppm and not. -/
theorem witness_Reference (h : (Config.refDiff 9600000).natAbs = 3001) (k : (Config.refDiff 9600001).natAbs = 3000) :
    base.refBeyond = true ∧ ({ base with now := 9600001 } : State).refBeyond = false := by
  simp [State.refBeyond, base, h, k]

/-- Two instances that have latched: that of channels 1 and 2 may be reset, that of channels 5 and 6 may not. -/
def pairInst (i k : Byte) : Bytes := [i, 2, 1, 3, k, 0, 0, 10, 0, 0, 0, 10] ++ zeros 20
def twoInst : State :=
  let on (n : Nat) (v : Bool) (s : State) : State :=
    record 0x0D n ([BitVec.ofNat 8 n, 1] ++ zeros 14) ((s.wr Rg.fioSupply Fd.fioSupplyState 2).putCh n { ArbCh.idle with level := v })
  let s := { base with safeActive := [0x4B, 0x53, 1, 2] ++ zeros 16 ++ beBytes 4 63 ++ zeros 8 ++ pairInst 31 0 ++ pairInst 30 2 ++ grantOf 63 }
  ((on 1 true (on 2 true (on 5 false (on 6 true s)))).putInst 31 { ArbInst.fresh with latched := true }).putInst 30 { ArbInst.fresh with latched := true }

/-- A safety table with one instance on channels 1 and 2, the output 3 and the feedback 4; its state. -/
def safeInst (f : Byte) : Bytes := [31, f, 1, 3, 0, 0, 0, 10, 4, 0, 0, 10, 255, 0, 0, 0] ++ zeros 16
def withInst (f : Byte) : State :=
  { base with safeActive := [0x4B, 0x53, 1, 1] ++ zeros 16 ++ beBytes 4 15 ++ zeros 8 ++ safeInst f ++ grantOf 63 }
def arbSees (a b : Role) (f : Option SideId) (w : Nat) : State := { base with arb := { ArbSt.reset with seenA := a, seenB := b, follow := f, window := w } }
def chan (n : Nat) (c : ArbCh) (s : State) : State := s.putCh n c
def fio (n mode flags : Nat) (s : State) : State :=
  record 0x0D n ([BitVec.ofNat 8 n, BitVec.ofNat 8 mode, BitVec.ofNat 8 flags] ++ zeros 13) (s.wr Rg.fioSupply Fd.fioSupplyState 2)

theorem witness_FieldEvents :
    ((arbSees .active .standby none 0).arb.seen .A = ((arbSees .active .standby none 0).side .A).role ∧
      (arbSees .active .standby none 0).arb.dem .A = ((arbSees .active .standby none 0).duty .A).demote) ∧
    base.arb.seen .A ≠ (base.side .A).role ∧ (base.arb.window = 0 ∧ base.arb.follow = none) ∧
    ((arbSees .standby .standby (some .A) 0).arb.claims .A = false ∧ (arbSees .active .active (some .A) 0).arb.claims SideId.A.other = true ∧
      (arbSees .active .active (some .A) 0).arb.rival = false) ∧
    ((arbSees .active .standby (some .A) 0).arb.claims .A = true ∧ (arbSees .active .standby (some .A) 0).arb.claims SideId.A.other = false ∧
      ({ (arbSees .active .active (some .A) 0).arb with rival := true } : ArbSt).rival = true ∧ (arbSees .active .standby (some .A) 2).arb.window ≠ 0) ∧
    (base.arb.silent .A = false ∧ (base.arb.pulse .A).1 + 2 ≤ base.now ∧
      ({ base.arb with pulseA := (9599999, 0), aliveA := (true, 9599998) } : ArbSt).pulse .A = (9599999, 0) ∧
      (({ base.arb with aliveA := (true, 9599998) } : ArbSt).alive .A).2 + 2 ≤ base.now) ∧
    (∀ sd, ∀ t : State, t = ((({ base with arb := base.arb.setSilent sd true } : State).setFlag (Rg.sideSelf sd.other) Fd.sideSelfPeerSeen false).wr
        Rg.arbTickSkew Fd.arbTickSkewSkew 0).watchRoles →
      (sd = .B → (t.side sd).role = .standby ∧ (t.side sd.other).role = .active) ∧ (sd = .A → (t.side sd.other).role ≠ .active)) ∧
    (base.arb.noImage = false ∧ base.arb.applied = false ∧ 48 ≤ ({ base.arb with without := 47 } : ArbSt).without + b2n (!base.arb.applied)) ∧
    (base.ch 32).level = false ∧ (base.ch 32).level ≠ true ∧ base.instRecs = [] ∧ (fio 32 1 0 base).fioMode 32 = 1 ∧ (fio 32 1 0 base).supply = 2 ∧
    bit (u8 ((fio 32 1 1 base).fioRec 32) 2) 0 = true ∧ bit (u8 ((fio 32 3 2 base).fioRec 32) 2) 1 = true ∧
    (({ ArbCh.idle with on := true, retries := 2 }).on = true ∧ ({ ArbCh.idle with on := true, retries := 2 }).retries < 3 ∧
      3 ≤ ({ ArbCh.idle with on := true, retries := 3 }).retries ∧ ({ ArbCh.idle with retrying := true }).retrying = true ∧
      ((chan 32 { ArbCh.idle with on := true } base).ch 32).on = true ∧ base.supply ≠ 2 ∧ (base.ch 32).on = false) ∧
    ((withInst 2).instRecs.find? (fun e => e.1 == (31 : Fin 32).val) = some (31, safeInst 2)) ∧
    (sfFunc (safeInst 2) = 2 ∧ ({ ArbInst.fresh with edges := [(1, true)] } : ArbInst).edges ≠ []) ∧
    (sfFunc (safeInst 4) = 4 ∧ (withInst 4).feedbackOk (safeInst 4) true = false) ∧
    (withInst 2).hwPermit 31 (safeInst 2) ≠ ((withInst 2).putInst 31 { ArbInst.fresh with proc := !(withInst 2).hwPermit 31 (safeInst 2) } |>.inst 31).proc ∧
    base.unlocked (4 : Word).toNat = false ∧ base.lockedOut = false := by
  refine ⟨?_, ?_, ?_, ?_, ?_, ?_, ?_, ?_, ?_, ?_, ?_, ?_, ?_, ?_, ?_, ?_, ?_, ?_, ?_, ?_, ?_⟩ <;>
    first | decide +kernel | (rintro (_ | _) _ rfl <;> decide +kernel)

/-! ### Tick, streams, scan -/

/-- A bell of the active side for the tick in progress, and a side in trial step that may adopt it. -/
def bellBytes : Bytes := zeros 8 ++ beBytes 8 9600000 ++ zeros 8 ++ beBytes 8 (crc64 (zeros 128)) ++ zeros 96
def rung : State :=
  { base with open_ := true }.modDuty .A fun d => { d with bells := [(9600000, bellBytes)] }
def digestsAt (v : Nat) (sd : SideId) (s : State) : State := s.modDuty sd fun d => { d with digests := [⟨9599999, v, List.replicate 64 7⟩] }
def echoing (v : Nat) : State := digestsAt v .B (digestsAt 1 .A { base with open_ := true })

theorem witness_TickAndBell :
    ((9600000 : DWord).toNat ≤ base.now ∧ base.power.mode = .service ∧ base.staged = none ∧ base.tickOk (9600001 : DWord).toNat = true) ∧
    (∀ t : State, t = (base.closeTick.countImage (if base.closeTick.stepDue.isSome then 1 else 9600001 - base.now)).turn 9600001 →
      (t.newSecond 9600000).power.mode = .service ∧ (t.newSecond 9600000).power.stopAt = none) ∧
    (∀ t : State, t = { base with power := { base.power with stopAt := some 9600001 } } →
      (((t.closeTick.countImage (if t.closeTick.stepDue.isSome then 1 else 9600001 - t.now)).turn 9600001).newSecond 9600000).power.stopAt
        = some 9600001) ∧
    (∀ m ∈ [PowerMode.booting, .parked, .stopping, .off], ∀ t : State, t = mode m base →
      (((t.closeTick.countImage (if t.closeTick.stepDue.isSome then 1 else 9600001 - t.now)).turn 9600001).newSecond 9600000).power.mode = m) ∧
    (∀ t : State, t = rung.modDuty .B (fun d => { d with resync := { d.resync with trial := true } }) →
      t.bellSent .B = some bellBytes ∧ t.open_ = true ∧ (t.duty .B).computed ≠ t.now ∧ t.adopts .B = true ∧ t.bellOk .B bellBytes = true ∧
      (t.duty .B).missed ≠ some t.now ∧ t.bellCarried .B = true ∧ (t.side .B).role = .standby ∧ t.bellOk .B (zeros 8) = false) ∧
    (base.pairMode ≠ 1 ∧ ({ base with xlink := { base.xlink with lost := [8] } } : State).bellCarried .B = false ∧ 3000 < 3001) ∧
    (∀ t : State, t = { joining with open_ := false }.modDuty .B (fun d => { d with unheard := 3 }) →
      3 ≤ (t.duty .B).unheard ∧ (t.duty .B).lost = false ∧ (t.side .B).role = .joining ∧ (t.duty .B).promoteAt = none ∧
      t.open_ = false ∧ (base.duty .B).unheard < 3) ∧
    (∀ v ∈ [1, 3], (echoing v).sideA.role = .active ∧ (echoing v).sideB.role = .standby ∧ (echoing v).drill = none ∧
      (echoing v).sideA.duty.digests.find? (fun d => d.tick == (echoing v).now - 1) = some ⟨9599999, 1, List.replicate 64 7⟩ ∧
      (echoing v).sideB.duty.digests.find? (fun d => d.tick == (echoing v).now - 1) = some ⟨9599999, v, List.replicate 64 7⟩ ∧
      (echoing v).namedStalls ((echoing v).now - 1) = [] ∧ 0 < (echoing v).now) ∧
    (∀ t < 64, digestClash ⟨9599999, 1, [7]⟩ ⟨9599999, 1, [7]⟩ t = false) ∧ (∃ t < 64, digestClash ⟨9599999, 1, [7]⟩ ⟨9599999, 3, [7]⟩ t = true) := by
  refine ⟨?_, ?_, ?_, ?_, ?_, ?_, ?_, ?_, ?_, ?_⟩ <;> first | decide +kernel | (rintro _ rfl; decide +kernel) |
    (simp only [List.forall_mem_cons, List.not_mem_nil, false_implies, implies_true, and_true]; refine ⟨?_, ?_, ?_, ?_⟩ <;> rintro _ rfl <;> decide +kernel)

/-- The echo of the standby side says what it was given. -/
def echoed : DigestSet := ⟨9599999, 3, List.replicate 64 7⟩
def echoBody : Bytes := beBytes 8 echoed.tick ++ beBytes 8 echoed.valid ++ (upto 64).flatMap fun t => beBytes 8 (echoed.values.getD t 0)
theorem echoBody_length : echoBody.length = 528 := by decide +kernel
theorem echoBody_values : (upto 64).map (fun t => u64 echoBody (16 + 8 * t)) = echoed.values := by decide +kernel

theorem witness_Echo : readEcho (echoBytes echoed) = some echoed := by
  have c := u32_append echoBody (crc32c echoBody) (crc32c_lt _)
  have l : (echoBody ++ beBytes 4 (crc32c echoBody)).length = 532 := by rw [List.length_append, echoBody_length]; rfl
  have m : (upto 64).map (fun t => u64 (echoBody ++ beBytes 4 (crc32c echoBody)) (16 + 8 * t)) = echoed.values := by
    rw [← echoBody_values]
    refine List.map_congr_left fun t ht => ?_
    have : t < 64 := by simpa [upto] using ht
    unfold u64
    rw [sub_append _ _ _ _ (by rw [echoBody_length]; omega)]
  rw [echoBody_length] at c
  unfold readEcho
  rw [show echoBytes echoed = echoBody ++ beBytes 4 (crc32c echoBody) from rfl,
    if_pos ⟨l, by rw [c, List.take_left' echoBody_length]⟩, m]
  unfold u64
  rw [sub_append _ _ _ _ (by rw [echoBody_length]; omega), sub_append _ _ _ _ (by rw [echoBody_length]; omega)]
  exact congrArg some (by decide +kernel)

/-- A stream in the active set, a frame of it, a chain of a channel it carries, a comparator. -/
def streams : State := record 0x04 1023 subRec (record 0x05 8191 chainRec base)
def svFrame : SvFrame := ⟨2048, 0, 0, 0, some 7, true, false, 1, none, [⟨[0], 3999, 2, 0, 0, none, none, [⟨0, 0⟩], true⟩]⟩
def withChain (x : ChainSt) : State := streams.modSide .A fun y => { y with chains := [(8191, x)] }
def comp (picked : Bool) (run : Nat) : CompSt := ⟨picked, run, []⟩

theorem witness_StreamEvents :
    (∀ e ∈ base.subs, u48 e.2 4 ≠ svFrame.dst.toNat ∨ u16 e.2 10 ≠ svFrame.appId.toNat) ∧
    streams.svStream svFrame = (true, some (1023, subRec)) ∧ streams.svStream { svFrame with length := 2049 } = (true, some (1023, subRec)) ∧
    2048 < ({ svFrame with length := 2049 } : SvFrame).length ∧ svFrame.length ≤ 2048 ∧ svFrame.redundancy = some 7 ∧
    (streams.modSide .A fun y => { y with dups := [(0, [(7, 9599999)])] }).dupSeen .A svFrame.src.toNat (7 : BitVec 16).toNat = true ∧
    streams.dupSeen .A svFrame.src.toNat (7 : BitVec 16).toNat = false ∧ streams.svCheck .A subRec svFrame = none ∧
    streams.svCheck .A subRec { svFrame with sim := true } = some .sim ∧ ({ svFrame with wellFormed := false } : SvFrame).wellFormed = false ∧
    Tbl.find ({ StreamSt.empty with runs := [(15, (9599953, false))] } : StreamSt).runs (15 : BitVec 4).toNat = some (9599953, false) ∧
    9599953 + 47 ≤ base.now ∧ base.now < 9599954 + 47 ∧
    (∀ t : State, t = streams.wr (Rg.streamState .A 1023) Fd.streamStateState 2 → t.modActive.get 0x04 1023 = some subRec ∧
      t.streamState .A 1023 = stPresent ∧ u8 subRec 15 ≤ (t.wr (Rg.streamState .A 1023) Fd.streamStateMissRun 1).rd (Rg.streamState .A 1023) Fd.streamStateMissRun ∧
      t.rd (Rg.streamState .A 1023) Fd.streamStateMissRun < u8 subRec 15) := by
  refine ⟨?_, ?_, ?_, ?_, ?_, ?_, ?_, ?_, ?_, ?_, ?_, ?_, ?_, ?_, ?_⟩ <;> first | decide +kernel | (rintro _ rfl; decide +kernel)

theorem witness_ChainAndScanEvents :
    ((withChain ChainSt.fresh).chain .A 8191 = some ChainSt.fresh ∧ streams.modActive.get 0x05 8191 = some chainRec) ∧
    ((comp false 1).picked = false ∧ cmpP (chComp chainRec 3) ≤ (comp false 1).run ∧ (comp true 0).picked = true ∧
      cmpQ (chComp chainRec 3) ≤ (comp true 1).run ∧ (comp true 0).run < cmpQ (chComp chainRec 3)) ∧
    (streams.modActive.chainCfg 0 = none ∧ ChainSt.fresh.state = 1 ∧ ({ ChainSt.fresh with state := 2 } : ChainSt).state = 2 ∧
      bit ({ ChainSt.fresh with status := 2 ^ 13 } : ChainSt).status 13 = true ∧ ChainSt.fresh.clean ≤ ChainSt.fresh.m ∧
      ChainSt.fresh.m < ({ ChainSt.fresh with clean := 1 } : ChainSt).clean) ∧
    (∀ t : State, t = stallRecord 62 0x21 0 (zeros 64 ++ [1, 2] ++ zeros 14 ++ taskRec) (stall 62 3 { base with tally := [(62, 2)] }) →
      t.abortLimit 62 ≠ 0 ∧ t.abortLimit 62 ≤ Tbl.getD t.tally 62 0 ∧ t.stallState 62 = stRunning ∧
      (∀ m ∈ t.notices, m.ty ≠ ntStallReset ∨ m.stall ≠ 62) ∧ Tbl.getD ({ t with tally := [(62, 1)] } : State).tally 62 0 < t.abortLimit 62) ∧
    (base.coreSt core.side core.core.val).cur = none ∧ ((run act).coreSt core.side core.core.val).cur = some act ∧
    base.flag (Rg.clusterMap core.side (core.core.val / 8)) Fd.clusterMapSpareUsed = false ∧
    (∀ u : State, u = (base.logFault .A (unitAddr 4 .A (3 + base.physCluster .A 9)) 0).discardCluster .A 9 →
      (u.side .A).health.migrating.length < (u.wr (Rg.healthSpares .A) Fd.healthSparesSpareClusters 1).rd (Rg.healthSpares .A) Fd.healthSparesSpareClusters) ∧
    (∀ t : State, t = base.wr (Rg.healthSpares .A) Fd.healthSparesSpareClusters 0 →
      ∀ u : State, u = (t.logFault .A (unitAddr 4 .A (3 + t.physCluster .A 9)) 0).discardCluster .A 9 →
      u.rd (Rg.healthSpares .A) Fd.healthSparesSpareClusters ≤ (u.side .A).health.migrating.length) := by
  refine ⟨?_, ?_, ?_, ?_, ?_, ?_, ?_, ?_, ?_⟩ <;> first | decide +kernel | (rintro _ rfl; decide +kernel) | (rintro _ rfl _ rfl; decide +kernel)

/-- The chain of a stream's channel, settled. -/
theorem witness_ChainSettled : ∀ c, (record 0x04 1023 subRec (record 0x05 0 chainRec base)).modActive.chainCfg 0 = some c →
    c.win + c.settle ≤ ({ ChainSt.fresh with m := c.win + c.settle } : ChainSt).m := fun _ _ => Nat.le_refl _
theorem witness_ChainCfg : ((record 0x04 1023 subRec (record 0x05 0 chainRec base)).modActive.chainCfg 0).isSome = true := by decide +kernel

/-! ### Publications, telegrams, the switch, time -/

/-- A GOOSE subscription and a frame of it; an accepted state; a publication. -/
def gooseRec : Bytes := beBytes 2 2047 ++ zeros 16 ++ [1] ++ zeros 69 ++ [1] ++ zeros 7
def goose : GooseFrame := ⟨true, 1522, 0, 0, 0, some 7, true, [], false, false, false, none, 0, 2147483648, 1, 100, 0, [⟨1, 0⟩]⟩
def gooseBase : State := record 0x08 2047 gooseRec base
def accepted (st sq : Nat) (s : State) : State := s.modSide .A fun x =>
  { x with gooseAcc := [(2047, ⟨st, sq, [], 0, 100, false, false, 0, [], false⟩)] }
def pubRec : Bytes := beBytes 2 511 ++ [62, 0, 0, 1] ++ zeros 21 ++ [1] ++ zeros 204
def published : State :=
  (stallRecord 62 0x22 511 pubRec (stall 62 3 base)).modSide .A fun x =>
    { x with presented := [(taskKey 62 0, zeros 60)]
             goosePubs := [(511, ⟨1, 1, (gpMembers pubRec).map (memberCore (zeros 60)), 0, 8, 9600001⟩)] }

theorem witness_GooseEvents :
    (({ goose with length := 1523 } : GooseFrame).etherOk = false ∨ 1522 < ({ goose with length := 1523 } : GooseFrame).length) ∧
    (goose.etherOk = true ∧ goose.length ≤ 1522 ∧ goose.redundancy = some 7) ∧
    ((gooseBase.modSide .A fun y => { y with dups := [(0, [(7, 9599999)])] }).dupSeen .A goose.src.toNat (7 : BitVec 16).toNat = true ∧
      gooseBase.dupSeen .A goose.src.toNat (7 : BitVec 16).toNat = false) ∧
    (goose.wellFormed = true ∧ gooseBase.gooseTarget { goose with gocbRef := [1] } = none ∧
      ∃ e ∈ gooseBase.gooseSubRecs, u48 e.2 4 = goose.dst.toNat ∧ u16 e.2 10 = goose.appId.toNat) ∧
    gooseBase.gooseTarget goose = some (2047, gooseRec) ∧ gooseBase.gooseCheck .A gooseRec { goose with ndsCom := true } = some 6 ∧
    gooseBase.gooseCheck .A gooseRec goose = none ∧ gooseBase.gooseSeq .A 2047 goose.stNum.toNat goose.sqNum.toNat = .change ∧
    (accepted 1 9 gooseBase).gooseSeq .A 2047 goose.stNum.toNat goose.sqNum.toNat = .change ∧
    (accepted 0 9 gooseBase).gooseSeq .A 2047 goose.stNum.toNat goose.sqNum.toNat = .bad ∧
    (accepted 2147483648 9 gooseBase).gooseSeq .A 2047 goose.stNum.toNat goose.sqNum.toNat = .again ∧
    (accepted 2147483648 1 gooseBase).gooseSeq .A 2047 goose.stNum.toNat goose.sqNum.toNat = .bad ∧
    ((accepted 1 9 gooseBase).gooseAccOf .A 2047).isSome = true ∧ (accepted 1 9 gooseBase).gooseSub 2047 = none ∧
    (Tbl.find (published.side .A).presented (taskKey 62 (u8 pubRec 3)) = some (zeros 60) ∧ gpFlag pubRec 0 = true ∧
      Tbl.find (published.side .A).goosePubs 511 = some ⟨1, 1, (gpMembers pubRec).map (memberCore (zeros 60)), 0, 8, 9600001⟩ ∧
      (gpMembers pubRec).map (memberCore (zeros 60)) ≠ (gpMembers pubRec).map (memberCore (List.replicate 60 1)) ∧
      9599999 + 1 < 9600001 ∧ 9600001 ≤ published.now + 1) ∧
    (accepted 1 9 gooseBase).gooseEntry .A 9600000 2047 = some (2047, 1, 0, 0) ∧ gooseBase.gooseEntry .A 9600000 2047 = none := by
  decide +kernel

def teleRec : Bytes := [63, 1, 0, 9] ++ beBytes 4 77 ++ zeros 8 ++ [1, 0, 48, 0, 0, 0] ++ beBytes 2 10 ++ zeros 8
def teleBase : State := { base with safeActive := [0x4B, 0x53, 1, 0, 1, 0] ++ zeros 26 ++ teleRec ++ grantOf 63 }
def teleFrame (c : Nat) : TeleFrame :=
  let b : Bytes := [1, 0, 0, 9] ++ beBytes 4 c ++ [1] ++ zeros 7
  ⟨0, b ++ beBytes 4 (scrc 77 b)⟩
def heard (p : Bytes) (at0 : Nat) : State := teleBase.modSide .A fun x => { x with teleCopies := [(63, [⟨.B, 5, p, at0⟩])] }

theorem witness_TelegramEvents :
    (∀ e ∈ base.teleRecs 1, teleMatches e.2 (teleFrame 5) = false) ∧ (teleBase.teleRecs 1).find? (fun e => teleMatches e.2 (teleFrame 5)) = some (63, teleRec) ∧
    newerCounter (some 5) (u32 (teleFrame 5).payload 4) = false ∧ newerCounter none (u32 (teleFrame 5).payload 4) = true ∧
    newerCounter ((teleBase.modSide .A fun x => { x with teleAcc := [(63, (5, []))] }).teleLast .A 63) (u32 (teleFrame 5).payload 4) = false ∧
    Tbl.find (teleBase.side .A).teleCopies 63 = none ∧
    Tbl.find ((heard (sub (teleFrame 5).payload 0 20) 9599954).side .A).teleCopies 63 = some [⟨.B, 5, sub (teleFrame 5).payload 0 20, 9599954⟩] ∧
    SideId.B ≠ .A ∧ 5 = u32 (teleFrame 5).payload 4 ∧ base.now + 1 < 9599954 + u8 teleRec 18 ∧ (zeros 20) ≠ sub (teleFrame 5).payload 0 (16 + 4 * u8 teleRec 16) ∧
    (teleBase.teleRecs 1).find? (fun e => e.1 == (63 : Fin 64).val) = some (63, teleRec) ∧ (teleBase.teleSub 63).expired = false ∧
    teleExpiry teleRec ⟨none, 9599952, false, []⟩ ≤ base.now ∧ base.now < teleExpiry teleRec ⟨none, 9599953, false, []⟩ := by decide +kernel

/-- Port 2 of side A with link; frames to it. -/
def portOf (flags : Byte) : Bytes := [0, 2, 3, 0] ++ beBytes 2 1522 ++ [flags, 0, 0, 1] ++ zeros 6
def linked (p : Nat) (s : State) : State := s.setFlag (Rg.portStatus .A p) Fd.portStatusLink true
def switch (flags : Byte) : State := linked 1 (record 0x12 0 (zeros 17) (record 0x09 (swPortIdx 0 2) (portOf flags) base))
def frame (dst : BitVec 48) (n : Nat) : EthFrame := ⟨dst, 0x02AABBCCDDEE, none, 0x0800, n, true, 0, [], none, false, false, zeros (min 128 (n - 4))⟩

/-- A frame with the wake pattern for an ID. -/
def wakeFrame : EthFrame :=
  { frame 1 200 with head := zeros 14 ++ List.replicate 6 255 ++ (List.replicate 16 (beBytes 6 9)).flatten ++ beBytes 4 77 ++ zeros 76 }

theorem witness_FrameReceive :
    (base.switchPowered = true ∧ base.modActive.portRec .A 1 = none ∧ base.portLinked .A 1 = false) ∧
    ((mode .parked base).switchPowered = false ∧ (1 : Fin 11).val ≠ 10 ∧ wakeCodes (beBytes 6 9) (frame 1 64).head = [] ∧
      wakeCodes (beBytes 6 9) wakeFrame.head = [77] ∧ wakeFrame.fcsOk = true ∧ (beBytes 6 9).length = 6 ∧ (beBytes 4 77).length = 4) ∧
    ((switch 4).modActive.portRec .A 1 = some (portOf 4) ∧ (switch 4).portLinked .A 1 = true ∧ (frame 1 1522).fcsOk = true ∧ 64 ≤ (frame 1 64).length ∧
      (frame 1 1522).length ≤ prMax (portOf 4)) ∧
    (({ frame 1 64 with pause := true } : EthFrame).pause = true ∧ (frame 1 64).pause = false ∧ (1 : Fin 11).val ≠ 0 ∧ (frame 1 64).tci = none ∧
      prFlag (portOf 0) 2 = false ∧ prFlag (portOf 4) 2 = true ∧ prFlag (portOf 4) 3 = false ∧ prFlag (portOf 4) 0 = false ∧
      (frame 1 64).src.toNat ≠ (switch 4).pubMac ∧ ({ frame 1 64 with src := 0 } : EthFrame).src.toNat = (switch 4).pubMac ∧ (switch 4).pairMode ≠ 1) ∧
    (∀ u : State, u = ((switch 4).cnt .A 1 0 1).cnt .A 1 1 64 → u.classify .A 1 (portOf 4) (frame 0x0180C200000E 64) = .to 0 true ∧
      (frame 0x0180C200000E 64).dst.toNat / 16 = 0x0180C200000 ∧
      u.xlinkPort .A (frame 0x0180C200000E 64) 0 = none) ∧
    ((frame 1 64).dst.toNat / 16 ≠ 0x0180C200000 ∧ (frame 1 64).etherType ≠ 0x88F7#16 ∧ (switch 4).subscribed (frame 1 64) = false ∧
      (switch 4).fdbPorts .A (portOf 4) (frame 1 64) = none ∧ (frame 1 64).dst ≠ 0xFFFFFFFFFFFF#48) := by
  refine ⟨?_, ?_, ?_, ?_, ?_, ?_⟩ <;> first | decide +kernel | (rintro _ rfl; decide +kernel)

/-- A frame whose destination no entry names is lost, where it is not the module's own; an entry without ports drops it. -/
theorem witness_LostFrame (h : (1 : BitVec 48) ≠ Config.stationMac .A) :
    (frame 1 64).dst ≠ Config.stationMac .A ∧
    (record 0x0A (swFdbIdx 0 0) (beBytes 6 1 ++ [255, 255] ++ zeros 8) (switch 4)).fdbPorts .A (portOf 4) (frame 1 64) = some 0 := ⟨h, by decide +kernel⟩

def queuedFrame (c : Nat) : SwFrame := ⟨frame 1 64, none, 1, 1, none, 0, 0, c, c, false, false, false, none⟩

theorem witness_SwitchEvents :
    base.admitsFrame .A 1 0 16 = true ∧ base.occupancy .A 1 0 + 16 ≤ base.queueMin .A 1 0 ∧ base.admitsFrame .A 1 7 1000000 = false ∧
    base.queueMin .A 1 7 < base.occupancy .A 1 7 + 1000000 ∧
    (base.portUp .A 1 = false ∧ (0 : Nat) < Tbl.getD ({ SwSt.reset with busy := [(1, 1)] } : SwSt).busy 1 0 ∧ base.portUp .A 13 = true) ∧
    (∀ t : State, t = base.putSwQueue .A 13 7 [queuedFrame 1] → t.switchPowered = true ∧ Tbl.getD (t.side .A).sw.busy 13 0 ≤ 0 ∧
      (t.crossTo .A 0).swQueue .A 13 7 = [queuedFrame 1] ∧
      (t.crossTo .A 0).gateAllows .A 13 7 (0 - tickStart t.now) ((t.crossTo .A 0).lineTime .A 13 64) = true ∧
      (queuedFrame 1).mirror = none ∧ (queuedFrame 1).own = none ∧
      (queuedFrame 1).stomped = false ∧ (t.side .A).sw.mirrors = []) ∧
    ((base.side .A).sw.supervised = none ∧ (base.side .A).role = .active ∧ (base.side .B).role = .standby ∧ base.prpOn .B = false ∧
      9590400 + 9600 ≤ base.now ∧ 9590401 ≤ base.now ∧ base.now < 9590401 + 9600) ∧
    (∀ t : State, t = record 0x09 (swPortIdx 0 2) (portOf 1) base → (t.side .A).role = .active ∧ t.prpOn .A = true ∧ t.prpOn .B = false) ∧
    (∀ t : State, t = record 0x09 (swPortIdx 1 2) (portOf 1) base → (t.side .B).role = .standby ∧ t.prpOn .B = true) ∧
    (0 + 60000000000 ≤ tickStart base.now ∧ tickStart base.now < 2000000000000 + 60000000000) ∧
    (base.xlink.failing.contains .bell = false ∧ base.xlink.restoring.contains true = false) ∧
    (∀ t : State, t = record 0x09 (swPortIdx 0 1) (portOf 2) (record 0x09 (swPortIdx 1 1) (portOf 2) base) → t.hsrOn = true ∧
      t.flag (Rg.swStatus .A) Fd.swStatusHsrOpen = false ∧ t.ringCut .A = true ∧ t.pathUp .A false = false ∧ t.pathUp .A true = false ∧
      t.forwards .B = false ∧ (pathsUp t).forwards .B = true ∧ (pathsUp t).ringCut .A = false) ∧
    ((switch 4).mayLink .A 1 = true ∧ base.mayLink .A 1 = false ∧ base.mayLink .A 15 = true ∧ base.mayLink .A 11 = true ∧ base.portLinked .A 11 = false ∧
      (linked 12 base).portLinked .A 12 = true ∧ ((base.modSide .A fun x => { x with sw := { x.sw with down := [14] } }).side .A).sw.down.contains 14 = true) ∧
    (base.xlink.unlocked = false ∧ ({ base.xlink with unlocked := true } : XlinkSt).unlocked = true ∧
      ({ base.xlink with restoring := [true] } : XlinkSt).restoring.contains true = true) ∧
    (base.spareFor 1 = 15 ∧ (10 : BitVec 16).toNat ≤ 10 ∧ 10 < (11 : BitVec 16).toNat ∧ base.xlink.badSpares.contains 1 = false) ∧
    (∀ b : BigSend, b = ⟨zeros 12 ++ [8, 0, 0x45] ++ zeros 8 ++ [17] ++ zeros 10 ++ zeros 8, 1476, zeros 1, false, 0⟩ →
      (switch 4).takesSend .A 1 b = some ⟨14, false, 34, false⟩ ∧ (switch 4).portLinked .A 1 = true ∧ ((switch 4).side .A).role ≠ .out ∧
      ((switch 4).side .A).role = .active ∧ (base.side .B).role ≠ .active ∧ base.active ≠ none ∧ { b with reply := true }.reply = true ∧
      (switch 4).takesSend .A 1 { b with segSize := 1477 } = none) := by
  refine ⟨?_, ?_, ?_, ?_, ?_, ?_, ?_, ?_, ?_, ?_, ?_, ?_, ?_, ?_, ?_, ?_⟩ <;> first | decide +kernel | (rintro _ rfl; decide +kernel)

/-- The timebase of side A in a state; parameters with a time source. -/
def servo (m : Nat) (s : State) : State := s.putServo .A { ServoSt.free with mode := m, holdAt := 0 }
def timed (src : Nat) (s : State) : State := record 0x01 0 (zeros 10 ++ [BitVec.ofNat 8 src] ++ zeros 17 ++ beBytes 4 1000 ++ zeros 8) s
def announce : Announce := ⟨.A, 10, 0, 9, 128, 6, 33, 100, 128, 0, 0xFFFF0001, 37, true, false, false, none, []⟩

theorem witness_TimeEvents :
    ((timed 1 base).timeSource ≠ 0 ∧ (timed 0 base).timeSource ≠ 1 ∧ (timed 0 base).timeSource = 0 ∧ (timed 1 base).timeSource = 1) ∧
    (base.active = some .A ∧ (servo 2 base).servo .A = { ServoSt.free with mode := 2, holdAt := 0 } ∧ (stall 62 3 base).anyRunning = true ∧
      u32 (timed 0 base).modActive.ptpRec 20 < (-1001 : Int).natAbs ∧ (1000 : Int).natAbs ≤ u32 (timed 0 base).modActive.ptpRec 20 ∧
      ({ ServoSt.free with out := 2 } : ServoSt).out < 3 ∧ 3 ≤ ({ ServoSt.free with out := 3 } : ServoSt).out ∧ ((servo 1 base).servo .A).mode = 1) ∧
    ((role .A .out (role .B .out base)).active = none ∧ announce.gmIdentity.toNat ≠ u64 base.modActive.pubRec 9 ∧
      announce.gmIdentity.toNat = u64 (record 0x12 0 (zeros 9 ++ beBytes 8 9) base).modActive.pubRec 9) ∧
    (∀ r : Bytes, r = [0, 11, 1] ++ zeros 17 → ∀ t : State, t = record 0x12 0 (zeros 17) (record 0x02 (timePortIdx .A 11) r base) →
      t.active = some .A ∧ t.modActive.timePort .A 11 = some r ∧ u8 r 2 = 1 ∧ announce.domain.toNat = t.ptpDomain ∧
      announce.sender.toNat / 65536 ≠ t.clockIdentity ∧ t.masters = [] ∧ t.gmCapable = false) ∧
    (announce.gmIdentity ≠ { announce with gmIdentity := 1 }.gmIdentity ∧ announce.priority1.toNat < ({ announce with priority1 := 129 } : Announce).priority1.toNat) ∧
    ((timed 0 (servo 2 base)).servo .A).mode = 2 ∧ ((servo 1 base).servo .A).mode ≠ 2 ∧ (timed 0 (servo 2 base)).liveMasters = [] ∧
    (timed 1 (servo 2 base)).timeSource ≠ 0 ∧ ((timed 1 (servo 2 base)).servo .A).syncAt + 3 * (timed 1 (servo 2 base)).syncTicks ≤ base.now ∧
    base.now < ({ ServoSt.free with syncAt := 9600000 } : ServoSt).syncAt + 3 * (timed 1 base).syncTicks ∧
    (SideId.A = .A ∧ (pathsUp base).xlinkUp SideId.B.other = true) ∧
    (∀ t : State, t = servo 3 { base with now := 34560000 } → (t.servo .A).mode = 3 ∧ t.flag (Rg.timeStatus .A) Fd.timeStatusHoldLong = false ∧
      (t.servo .A).holdAt + 34560000 ≤ t.now ∧ ({ t with now := 34559999 } : State).now < (t.servo .A).holdAt + 34560000) ∧
    (base.staged = none ∧ ({ base with staged := some ⟨0, 0, 9600001⟩ } : State).staged ≠ none ∧ base.now + 1 < 9600002 ∧ 9600001 ≤ base.now + 1 ∧ (stall 62 3 base).anyRunning = true ∧ base.anyRunning = false) ∧
    (999999999 < 1000000000 ∧ (stall 62 3 base).anyRunning = true ∧ base.anyRunning = false ∧ (leased 8 base).leaseHeld lkTimeStep = true ∧
      base.rd Rg.timeSetSec Fd.timeSetSecSec < 2 ^ 48 ∧ base.rd Rg.timeSetNs Fd.timeSetNsNs ≤ 999999999) ∧
    base.modActive.timePort .A 11 = none ∧ (base.side .A).role ≠ .out ∧
    (∀ r : Bytes, r = [0, 11, 3] ++ zeros 17 → (record 0x02 (timePortIdx .A 11) r { base with slavePort := some (.A, 1) }).portState .A 11 = 6 ∧
      (linked 10 (record 0x02 (timePortIdx .A 11) r { base with slavePort := some (.A, 1) })).portState .A 11 = 6 ∧
      (linked 10 base).portLinked .A 10 = true ∧ base.portLinked .A 10 = false) := by
  refine ⟨?_, ?_, ?_, ?_, ?_, ?_, ?_, ?_, ?_, ?_, ?_, ?_, ?_, ?_, ?_, ?_, ?_, ?_⟩ <;>
    first | decide +kernel | (rintro _ rfl; decide +kernel) | (rintro _ rfl _ rfl; decide +kernel)

/-! ### Acquisition, CAN, the host link, packets, updates, health -/

def wfRec : Bytes := [8, 3] ++ zeros 6
def wave (last : Nat) : State := (record 0x0E 8 wfRec base).modSide .A fun y => { y with wfLast := [(8, last)], wavefront := [(8, [⟨last, true, 0⟩])] }
def onBus (st : Nat) (s : State) : State := s.wr (Rg.canStatus .A) Fd.canStatusState st
def canFrame : CanFrame := ⟨false, false, false, false, false, 5, [1]⟩
def timing (s : State) : State := record 0x11 (canTimingIdx 1) (zeros 9) s
def sending (left : Nat) : State := base.putCan .A { CanSt.reset with bus := some 63, pend := [(63, ⟨canFrame, left⟩)] }

theorem witness_AcqAndCanEvents :
    (base.modActive.get 0x0E 8 = none ∧ (wave 1000).modActive.get 0x0E 8 = some wfRec ∧ Tbl.find ((wave 1000).side .A).wfLast 8 = some 1000 ∧
      (1076 - 1000) * 10 < 768 ∧ 768 ≤ (1077 - 1000) * 10 ∧ Tbl.getD ((wave 1000).side .A).wavefront 8 [] = [] ++ [⟨1000, true, 0⟩] ∧
      Tbl.getD (base.side .A).wavefront 8 [] = [] ∧ bit (u8 wfRec 1) 1 = true ∧ bit (u8 [8, 1] 1) 1 = false ∧
      (Tbl.getD ((wave 1000).side .A).wavefront 8 []).length < 1024 ∧ (wave 1000).linesOf 3 8 = []) ∧
    (⟨0, 9599995, []⟩ ∈ (base.modSide .A fun y => { y with captWait := [(63, [⟨0, 9599995, []⟩])] }).captWaiting .A 63 ∧
      (⟨0, 9599995, []⟩ : CaptWait).overflow = false ∧ 9599995 + 4 < base.now ∧ base.now ≤ 9599996 + 4 ∧ (⟨0, 9599995, [6]⟩ : CaptWait).overflow = true ∧
      base.captWaiting .A 79 = []) ∧
    (base.wr (Rg.captState .A 255) Fd.captStateState 3).captState .A 255 = csRunning ∧
    (base.canOnBus .A = false ∧ (onBus 0 (timing base)).canOnBus .A = true ∧ (onBus 0 (timing base)).modActive.canMatch (ctrlOf .A) canFrame = none ∧
      (0 : Nat) < 64) ∧
    (∀ t : State, t = record 0x11 (canFilterIdx 1 31) ([1, 31, 1] ++ zeros 9) (onBus 0 (timing base)) →
      t.modActive.canMatch (ctrlOf .A) canFrame = some (31, [1, 31, 1] ++ zeros 9)) ∧
    ((onBus 2 base).canState .A = 2 ∧ (onBus 0 base).canState .A ≠ 2 ∧ (onBus 3 base).canState .A = 3 ∧ (base.side .A).role ≠ .out ∧
      (timing base).modActive.canTiming (ctrlOf .A) = some 0 ∧ (base.can .A).bus = none ∧ (onBus 0 (timing base)).can .A = CanSt.reset) ∧
    (((sending 0).can .A).bus = some 63 ∧ Tbl.find ((sending 0).can .A).pend 63 = some ⟨canFrame, 0⟩ ∧ 0 < (⟨canFrame, 1⟩ : CanTx).left) ∧
    txWinner [(63, ⟨canFrame, 0⟩)] = some (63, ⟨canFrame, 0⟩) ∧
    (Tbl.getD ({ CanSt.reset with queues := [(1, [[1]])] } : CanSt).queues 1 [] = [1] :: [] ∧ Tbl.getD (base.can .A).queues 1 [] = []) := by
  refine ⟨?_, ?_, ?_, ?_, ?_, ?_, ?_, ?_, ?_⟩ <;> first | decide +kernel | (rintro _ rfl; decide +kernel)

def ringed (kind : Nat) : State := ringOf 63 kind 0 base
def descr (n : Nat) : Descriptor := ⟨0, n, false, []⟩

theorem witness_HostLinkEvents :
    (base.ringRuns .A 63 = false ∧ (ringed 2).ringRuns .A 63 = true ∧ 2 ^ (ringed 2).rd (Rg.ringCfg .A 63) Fd.ringCfgSizeLog2 = 16 ∧
      (ringed 2).rd (Rg.ringPtr .A 63) Fd.ringPtrHead = 0 ∧ (ringed 2).rd (Rg.ringPtr .A 63) Fd.ringPtrTail = 0 ∧ 16 ≤ (16 : Word).toNat ∧
      (15 : Word).toNat < 16 ∧ (0 + 16 - 0) % 16 + ((15 : Word).toNat + 16 - 0) % 16 < 16 ∧ (ringed 2).rd (Rg.ringCfg .A 63) Fd.ringCfgKind = 2) ∧
    (∀ t : Nat → State, t = (fun n => (ringed 1).putRing .A 63 { RingSt.empty with descs := [descr n] }) → (t 8192).ringRuns .A 63 = true ∧
      (t 8192).rd (Rg.ringCfg .A 63) Fd.ringCfgKind = 1 ∧ ((t 8192).ring .A 63).used = 0 ∧ ((t 8192).ring .A 63).descs = [descr 8192] ∧
      8192 ≤ (descr 8192).len ∧ ((t 8191).ring .A 63).descs = [descr 8191] ∧ (descr 8191).len < 8192) ∧
    (base.hears = true ∧ (mode .off base).hears = false ∧ (ringed 3).rd (Rg.ringCfg .A 63) Fd.ringCfgKind = 3 ∧
      ((ringed 3).ring .A 63).descs[((ringed 3).ring .A 63).flight.length]? = none) ∧
    (∀ t : State, t = (ringed 3).putRing .A 63 { RingSt.empty with descs := [descr 9216] } →
      (t.ring .A 63).descs[(t.ring .A 63).flight.length]? = some (descr 9216) ∧ 9216 ≤ (descr 9216).len) ∧
    ((ringed 1).rd (Rg.ringCfg .A 63) Fd.ringCfgKind = 1 ∧ ({ RingSt.empty with used := 1 } : RingSt).used ≠ 0 ∧
      ({ RingSt.empty with first := 9599999 } : RingSt).first < base.now ∧ base.now ≤ ({ RingSt.empty with first := 9600000 } : RingSt).first ∧
      (base.ring .A 63).used = 0 ∧ (base.ring .A 63).holdoff = false ∧ ({ RingSt.empty with holdoff := true } : RingSt).irqWaits = false) ∧
    (bit (base.msixWord .A 66 3) 0 = true ∧ bit ((base.modSide .A fun x => { x with msix := ⟨[(4 * 66 + 3, 0)], []⟩ }).msixWord .A 66 3) 0 = false ∧
      0x01FF0000 ≤ (0x01FF07FC : Word).toNat ∧ (0x01FF07FC : Word).toNat < 0x01FF0800 ∧ (0x01FF07FC : Word).toNat % 4 = 0) ∧
    (({ hd 1 with transport := .bar0 } : CmdHdr).transport = .bar0 ∧ base.deepTest .A = false ∧ base.writeCheck .A false 0x40005 4 1 = some .misaligned ∧
      base.writeCheck .A false 0x80020 8 1 = none ∧ touchesMirrored 0x80020 8 1 = false ∧ (hd 1).transport ≠ .bar0 ∧
      (base.setFlag (Rg.healthTest .A) Fd.healthTestDeepTest true).deepTest .A = true) ∧
    (bar0Addr 0x40004 = some 0x40004 ∧ base.readCheck .A 0x40004 4 1 = none ∧ base.readCheck .A 0x40004 8 1 = some .misaligned ∧ (3 : BitVec 4) ≠ 1 ∧
      (3 : BitVec 4) ≠ 2 ∧ (3 : BitVec 4) ≠ 4 ∧ (3 : BitVec 4) ≠ 8) ∧
    (base.flag (Rg.hlErr .A) Fd.hlErrValid = false ∧ (base.setFlag (Rg.hlErr .A) Fd.hlErrValid true).flag (Rg.hlErr .A) Fd.hlErrValid = true) := by
  refine ⟨?_, ?_, ?_, ?_, ?_, ?_, ?_, ?_, ?_⟩ <;> first | decide +kernel | (rintro _ rfl; decide +kernel)

/-- A register whose writes both sides make together. -/
theorem witness_MirroredWrite : base.writeCheck .A false 0x40100 4 1 = none ∧ touchesMirrored 0x40100 4 1 = true := by decide +kernel

/-- A packet of 48 bytes: its start, length, version. -/
def packet (magic : Byte) (len : Nat) (version : Byte) (reserved : Byte) : Bytes :=
  [magic, 0x56, version, 0] ++ beBytes 2 len ++ [0, 0] ++ zeros 20 ++ [0, reserved] ++ zeros 18

theorem witness_PacketEvents :
    ((mode .off base).hears = false ∧ base.hears = true ∧ ((7 : Fin 16).val < 8 ∧ 10 < (11 : Fin 16).val ∧ 8 ≤ (8 : Fin 16).val ∧ (10 : Fin 16).val ≤ 10)) ∧
    (∀ b : Bytes, b = packet 0x4B 48 1 0 → u16 b 4 = b.length ∧ u16 b 0 = 0x4B56 ∧ 48 ≤ u16 b 4 ∧ u8 b 3 = 0 ∧ 32 ≤ b.length ∧ b.length ≤ 1056 ∧
      u16 b 28 = 0 ∧ u8 b 2 = 1 ∧ base.authentic (pkHdr .A (.udp ⟨0, 0, 0, 49410⟩) 0 b) b = none ∧ fromMagic b = b ∧ fromMagic ((base.side .A).console ++ b.take 47) = b.take 47 ∧
      (b.take 47).length < max 6 (u16 (b.take 47) 4) ∧ (base.side .A).console = []) ∧
    (u16 (packet 0x4C 48 1 0) 0 ≠ 0x4B56 ∧ u16 (packet 0x4B 47 1 0) 4 < 48 ∧ u16 (packet 0x4B 1057 1 0) 4 ≠ (packet 0x4B 48 1 0).length ∧
      1056 < u16 (packet 0x4B 1057 1 0) 4 ∧ u8 (packet 0x4B 48 2 0) 2 ≠ 1) ∧
    ((∀ n, (hd 1).transport ≠ .mailbox n) ∧ (∀ a, Transport.bar0 ≠ .udp a) ∧ Transport.bar0 ≠ .console) ∧
    (base.forStation .A ⟨0, 0, 0, 49410⟩ = true ∧ base.forStation .A ⟨0, 0, 0, 49411⟩ = false ∧ base.station .A = none) ∧
    ((base.side .A).rxQueue = [] ∧ ({ base with cmdBudget := 0 } : State).cmdBudget = 0 ∧ base.cmdBudget = 9 + 1 ∧
      0 < [(hd 1, zeros 48)].length ∧ [(hd 1, zeros 48)].length < 1024 ∧ 1024 ≤ (List.replicate 1024 (hd 1, zeros 48)).length) ∧
    (∀ w : WaitCmd, w = ⟨hd 1, 0x0001, [], 9600000, false, false⟩ → w.hdr.side = .A ∧ w.tick = base.now ∧ w.tick ≠ 0 ∧ w.listed = false ∧
      (cmdOf w.op).isSome = true) ∧
    ((base.modSide .A fun x => { x with console := [0x4B] }).side .A).console ≠ [] := by
  refine ⟨?_, ?_, ?_, ⟨?_, ?_, ?_⟩, ?_, ?_, ?_, ?_⟩ <;> first | decide +kernel | (rintro _ rfl; decide +kernel) | (intro _ h; cases h)

def checking (broken : Bool) (s : State) : State := { s with validations := [(62, ⟨hd 5, 0, broken⟩)] }
def phase (k : Nat) (s : State) : State :=
  { s with update := { UpdSt.reset with phase := k, first := .B, atSecond := 2000, window := 30, windowEnd := some 9600000, trial := 48000, copied := some 9600000 } }

theorem witness_ConfigEvents :
    Tbl.find base.validations 62 = none ∧ Tbl.find (checking true base).validations 62 = some ⟨hd 5, 0, true⟩ ∧
    ((checking false (stallRecord 62 0x20 0 [62] (stall 62 1 base))).validate 62).isSome = true ∧ (checking false (stall 62 1 base)).validate 62 = none ∧
    (∀ l ∈ base.ringLoads, l.update = true ∨ l.held = true ∨ l.length ≠ 64) ∧
    ((pathsUp base).copyReaches = true ∧ base.copyReaches = false) ∧
    (∀ l : RingLoad, l = ⟨hd 5, false, 3, 0, 64, []⟩ → l.update = false ∧ l.held = false ∧ l.length = (zeros 64).length) ∧
    readSetImage base.cfgFmt (zeros 64) = none ∧ (zeros 63).length < 64 ∧ u16 (zeros 64) 0 ≠ 0x4B43 ∧
    (readSetImage base.cfgFmt (base.modShadow.image base.cfgFmt 0)).isSome = true := by
  refine ⟨?_, ?_, ?_, ?_, ?_, ?_, ?_, ?_, ?_, ?_, ?_⟩ <;> first | decide +kernel | (rintro _ rfl; decide +kernel)

theorem witness_UpdateEvents :
    ((base.side .B).role ≠ .out ∧ (role .B .out base).xlinkUp .B = false ∧ joinBase.xlinkUp .B = true ∧ joinBase.nor SideId.B.other = norProven ∧
      (joinBase.side .B).role = .out ∧ joinBase.update.phase ≠ upFirst ∧ joinBase.update.phase ≠ upSecond) ∧
    ((base.setNor .A norRestoring).nor .A = norRestoring ∧ base.nor .A ≠ norRestoring) ∧
    (base.update.phase ≠ upScheduled ∧ (phase upScheduled base).update.phase = upScheduled ∧ (phase upScheduled base).update.atSecond * 4800 ≤ base.now ∧
      ({ base with now := 9599999 } : State).now < (phase upScheduled base).update.atSecond * 4800 ∧ (phase upScheduled base).update.second = .A ∧
      (base.side .A).role = .active ∧ ((role .A .joining base).side .A).role = .joining ∧ (phase upScheduled base).update.outage = false ∧
      (phase upScheduled base).update.pair = false ∧ (base.side .B).role = .standby ∧
      compatible (base.side .B).stored (base.side .A).image base.cfgFmt = true ∧ compatible (patch (zeros 224) 12 [9]) (zeros 224) base.cfgFmt = false) ∧
    (base.update.trial < 48000 ∧ ((base.modDuty .B fun d => { d with tested := true }).duty (phase upFirst base).update.first).tested = true ∧
      48000 ≤ (phase upFirst base).update.trial ∧ (phase upFirst base).update.windowEnd = some 9600000 ∧ base.now ≤ 9600000 ∧
      ((base.modDuty .A fun d => { d with tested := true }).duty (phase upSecond base).update.second).tested = true) ∧
    (base.update.windowEnd = none ∧ base.handoverAt = none ∧ base.now < 9600001 ∧ (phase upSecond base).update.failedOnce = false ∧
      ({ (phase upSecond base).update with failedOnce := true } : UpdSt).failedOnce = true) ∧
    (({ (phase upCopy base).update with copied := none } : UpdSt).copied = none ∧ (phase upCopy base).update.copied = some 9600000 ∧
      secondRebootAt 9600000 0 ≤ base.now ∧ base.now < secondRebootAt 9600000 1) := by decide +kernel

theorem witness_HealthEvents :
    (partUnit 0x60006800 = partUnit 0x60006800 ∧ partUnit (partAddr 6 0 0x1A 0 0) = 0x1A ∧ partUnit (partAddr 6 0 0x19 0 0) = 0x19 ∧
      partUnit (partAddr 6 0 0x0F 0 0) = 0x0F ∧ (2 : BitVec 3).toNat < 3 ∧ 3 ≤ (3 : BitVec 3).toNat) ∧
    (([9600000 - 414720000 + 1, 0].filter fun t => decide (base.now < t + 414720000)).length = 2 ∧ ([] : List Nat).length < 2) ∧
    (base.wr (Rg.healthSpares .A) Fd.healthSparesSpareSectors 0).rd (Rg.healthSpares .A) Fd.healthSparesSpareSectors = 0 ∧
    (base.slotFlag .A 63 Fd.keySlotValid = false ∧ base.slotFlag .A 0 Fd.keySlotValid = true) ∧
    (base.flag (Rg.healthSpares .A) Fd.healthSparesSpareMgmt = true ∧
      (base.setFlag (Rg.healthSpares .A) Fd.healthSparesSpareMgmt false).flag (Rg.healthSpares .A) Fd.healthSparesSpareMgmt = false) ∧
    (base.flag (Rg.healthTest .A) Fd.healthTestDeepTest = false ∧
      (base.setFlag (Rg.healthTest .A) Fd.healthTestDeepTest true).flag (Rg.healthTest .A) Fd.healthTestDeepTest = true) ∧
    ((base.side .A).cache = [] ∧ Tbl.find (base.side .A).keys 0 = some (zeros 32)) := by decide +kernel

/-- R458: a first and a third corrected error at a place, wherever its row or page lies. -/
theorem witness_CorrectedAt (k : Nat) :
    ((Tbl.getD (base.side .A).health.corrected k []).filter fun t => decide (base.now < t + 414720000)).length < 2 ∧
    2 ≤ ((Tbl.getD [(k, [9599999, 9600000])] k []).filter fun t => decide (base.now < t + 414720000)).length := by
  refine ⟨Nat.zero_lt_two, ?_⟩
  have e : Tbl.getD [(k, [9599999, 9600000])] k [] = [9599999, 9600000] := by simp [Tbl.getD, Tbl.find]
  rw [e]
  decide +kernel

/-! ### Check words of the published standards -/

/-- FIPS 180-4: the digests of the three bytes "abc". -/
theorem test_sha256 : sha256 (ascii "abc") = beBytes 32 0xba7816bf8f01cfea414140de5dae2223b00361a396177a9cb410ff61f20015ad := by decide +kernel
theorem test_sha384 : sha384 (ascii "abc") =
    beBytes 48 0xcb00753f45a35e8bb5a03d699ac65007272c32ab0eded1631a8b605a43ff5bed8086072ba1e7cc2358baeca134c825a7 := by decide +kernel

/-! ### The step -/

/-- A command in front; an empty queue. -/
theorem witness_Step : ({ base with pending := [.maskRefresh .A] } : State).pending = .maskRefresh .A :: [] ∧ base.pending = [] := ⟨rfl, rfl⟩

/-- R65: two subscriptions of one block that use one slot. -/
theorem test_slot_used_twice :
    blockRefusal (blockBytes 1 0 0x04 [subRec, subRec]) = .conflict ∧
    (readBlock 0 (blockBytes 1 0 0x04 [subRec, subRec]) []).isNone = true := by decide +kernel

/-! ## Witnesses: every command of a statement about a shape completes on some state and operands -/

theorem witness_SessionCommands_a :
    (Met specIdentify (fun s h _ => (s.side h.side.other).role ≠ .out) base (hd 1) []) ∧
    (Met specEcho (fun _ _ _ => True) base (hd 1) []) ∧
    (∀ o, o = ⟨7, .ok, 9599999⟩ → Met specCmdOutcome (fun s h p => (Tbl.getD s.outcomes h.origin.toNat []).find? (fun x => x.seq == u32 p 0) = some o) { base with outcomes := [(1, [⟨7, .ok, 9599999⟩])] } (hd 1) [0, 0, 0, 7]) ∧
    (Met specCmdOutcome (fun s h p => (Tbl.getD s.outcomes h.origin.toNat []).find? (fun x => x.seq == u32 p 0) = none) base (hd 1) [0, 0, 0, 9]) ∧
    (∀ new : State → Bytes → Principal, new = (fun s p => match Tbl.find s.principals (u32 p 0) with | some old => if u8 old.record 6 = u8 p 6 then { old with record := p } else ⟨p, 0, 0, 0, 0⟩ | none => ⟨p, 0, 0, 0, 0⟩) → Met specOriginSet (fun s _ p => s.principalRange p = true ∧ managed (Tbl.put s.principals (u32 p 0) (new s p)) = true ∧ (Tbl.put s.principals (u32 p 0) (new s p)).length ≤ 256) base (hd 5) (prin 9 4).record) ∧
    (∀ new : State → Bytes → Principal, new = (fun s p => match Tbl.find s.principals (u32 p 0) with | some old => if u8 old.record 6 = u8 p 6 then { old with record := p } else ⟨p, 0, 0, 0, 0⟩ | none => ⟨p, 0, 0, 0, 0⟩) → Met specOriginSet (fun s _ p => s.principalRange p = true ∧ managed (Tbl.put s.principals (u32 p 0) (new s p)) = false) { base with principals := [(5, prin 5 4)] } (hd 5) (prin 5 0).record) ∧
    (Met specOriginDelete (fun s _ p => Tbl.has s.principals (u32 p 0) = true ∧ managed (Tbl.del s.principals (u32 p 0)) = true) base (hd 5) [0, 0, 0, 1]) ∧
    (Met specOriginDelete (fun s _ p => Tbl.has s.principals (u32 p 0) = true ∧ managed (Tbl.del s.principals (u32 p 0)) = false) { base with principals := [(5, prin 5 4)] } (hd 5) [0, 0, 0, 5]) :=
  ⟨by unfold Met Takes; decide +kernel,
   by unfold Met Takes; decide +kernel,
   by rintro _ rfl; unfold Met Takes; decide +kernel,
   by unfold Met Takes; decide +kernel,
   by rintro _ rfl; unfold Met Takes; decide +kernel,
   by rintro _ rfl; unfold Met Takes; decide +kernel,
   by unfold Met Takes; decide +kernel,
   by unfold Met Takes; decide +kernel⟩

theorem witness_SessionCommands_b :
    (Met specOriginRead (fun _ _ p => 1 ≤ u8 p 1 ∧ u8 p 1 ≤ 31) base (hd 5) [255, 31]) ∧
    (Met specCmdStatus (fun _ _ _ => True) base (hd 1) []) :=
  ⟨by unfold Met Takes; decide +kernel,
   by unfold Met Takes; decide +kernel⟩

theorem witness_RegisterCommands :
    (Met specRegRead (fun s h p => 1 ≤ u8 p 5 ∧ u8 p 5 ≤ 126 ∧ s.readCheck h.side (u32 p 0) (u8 p 4) (u8 p 5) = none) base (hd 1) [0, 4, 0, 4, 4, 1, 0, 0]) ∧
    (Met specRegWrite (fun s h p => 1 ≤ u8 p 5 ∧ u8 p 5 ≤ 126 ∧ s.writeCheck h.side (h.transport != .bar0) (u32 p 0) (u8 p 4) (u8 p 5) = none) base (hd 3) ([0, 8, 0, 32, 8, 1] ++ zeros 10)) :=
  ⟨by unfold Met Takes; decide +kernel,
   by unfold Met Takes; decide +kernel⟩

theorem witness_ConfigCommands_a :
    (Met specCfgStatus (fun _ _ _ => True) base (hd 1) []) ∧
    (Met specCfgCopy (fun _ _ p => scopeArgs p 0 = true) (stall 62 1 base) (hd 5) [1, 62]) ∧
    (Met specCfgCopy (fun _ _ p => scopeArgs p 0 = false) base (hd 5) [2, 0]) ∧
    (Met specCfgValidate (fun _ _ p => scopeArgs p 0 = true) base (hd 5) [0, 0]) ∧
    (Met specCastle (fun s h p => scopeArgs p 0 = true ∧ u8 p 2 ≤ 1 ∧ u8 p 3 = 0 ∧ s.castleCheck h (u8 p 1) (bit (u8 p 2) 0) (sub p 4 32) = none) { base with modShadow := ⟨[], [], true, zeros 32⟩ } (hd 5) (zeros 36)) ∧
    (∀ st, st = .state → Met specCastle (fun s h p => scopeArgs p 0 = true ∧ u8 p 2 ≤ 1 ∧ u8 p 3 = 0 ∧ s.castleCheck h (u8 p 1) (bit (u8 p 2) 0) (sub p 4 32) = some st) base (hd 5) (zeros 36)) ∧
    (∀ img : State → Bytes → Bytes, img = (fun s p => (if u8 p 0 = 0 then s.stallScope (u8 p 2) else s.stallShadowScope (u8 p 2)).image s.cfgFmt (u8 p 2)) → Met specCfgRead (fun s _ p => u8 p 0 ≤ 1 ∧ scopeArgs p 1 = true ∧ u8 p 3 = 0 ∧ 1 ≤ u16 p 8 ∧ u16 p 8 ≤ 1000 ∧ u32 p 4 + u16 p 8 ≤ (img s p).length) base (hd 1) [0, 0, 0, 0, 0, 0, 0, 0, 0, 1]) ∧
    (Met specCfgLoadRing (fun s h p => (∀ l ∈ s.ringLoads, l.hdr = h → l.held = false) ∧ s.fromHostOf0 h.side (u8 p 0) = true ∧ u24 p 1 = 0 ∧ 64 ≤ u32 p 4 ∧ u32 p 4 ≤ 7340032) (ringOf 3 2 0 base) (hd 5) [3, 0, 0, 0, 0, 0, 0, 64]) :=
  ⟨by unfold Met Takes; decide +kernel,
   by unfold Met Takes; decide +kernel,
   by unfold Met Takes; decide +kernel,
   by unfold Met Takes; decide +kernel,
   by unfold Met Takes; decide +kernel,
   by rintro _ rfl; unfold Met Takes; decide +kernel,
   by rintro _ rfl; unfold Met Takes; decide +kernel,
   by unfold Met Takes; decide +kernel⟩

theorem witness_ConfigCommands_b : ∀ before : State → Bytes → Bytes, before = (fun s p => if u32 p 4 = 0 then [] else Tbl.getD (s.stallShadowScope (u8 p 1)).loading (u8 p 2) []) → Met specCfgLoadBlock (fun s _ p => scopeArgs p 0 = true ∧ (scopeTypes (u8 p 1)).contains (u8 p 2) = true ∧ u8 p 3 = 0 ∧ u32 p 8 ≤ 7340032 ∧ (before s p).length = u32 p 4 ∧ (before s p ++ p.drop 12).length < u32 p 8) base (hd 5) [0, 0, 4, 0, 0, 0, 0, 0, 0, 112, 0, 0, 1] := by rintro _ rfl; unfold Met Takes; decide +kernel

theorem witness_StallCommands_a :
    (Met specStallStart (fun s _ p => u8 p 0 ≤ 63 ∧ s.leaseHeld lkTimeStep = false ∧ s.stallState (u8 p 0) = stLoaded) (stall 62 2 base) (hd 3) [62]) ∧
    (Met specStallStart (fun s _ p => u8 p 0 ≤ 63 ∧ s.leaseHeld lkTimeStep = false ∧ s.stallState (u8 p 0) = stRunning) (stall 62 3 base) (hd 3) [62]) ∧
    (Met specStallStart (fun s _ p => u8 p 0 ≤ 63 ∧ s.leaseHeld lkTimeStep = true) (leased 8 base) (hd 3) [62]) ∧
    (Met specStallStop (fun s _ p => u8 p 0 ≤ 62 ∧ (s.stallState (u8 p 0) = stRunning ∨ s.stallState (u8 p 0) = stFaulted ∨ (s.stallState (u8 p 0) = stResetting ∧ u8 p 0 ∈ s.noticeReset))) { stall 62 5 base with noticeReset := [62] } (hd 3) [62]) ∧
    (Met specStallStop (fun s _ p => u8 p 0 ≤ 62 ∧ s.stallState (u8 p 0) = stLoaded) (stall 62 2 base) (hd 3) [62]) ∧
    (Met specStallStop (fun s _ p => u8 p 0 ≤ 62 ∧ s.stallState (u8 p 0) = stResetting ∧ u8 p 0 ∉ s.noticeReset) (stall 62 5 base) (hd 3) [62]) ∧
    (Met specStallStop (fun _ _ p => u8 p 0 = 63) base (hd 3) [63]) ∧
    (Met specStallReset (fun s _ p => u8 p 0 ≤ 63 ∧ s.stallState (u8 p 0) = stRunning) (stall 62 3 base) (hd 3) [62]) :=
  ⟨by unfold Met Takes; decide +kernel,
   by unfold Met Takes; decide +kernel,
   by unfold Met Takes; decide +kernel,
   by unfold Met Takes; decide +kernel,
   by unfold Met Takes; decide +kernel,
   by unfold Met Takes; decide +kernel,
   by unfold Met Takes; decide +kernel,
   by unfold Met Takes; decide +kernel⟩

theorem witness_StallCommands_b :
    (Met specStallReset (fun s _ p => u8 p 0 ≤ 63 ∧ s.stallState (u8 p 0) = stFaulted) (stall 62 4 base) (hd 3) [62]) ∧
    (Met specStallReset (fun s _ p => u8 p 0 ≤ 63 ∧ s.stallState (u8 p 0) ≠ stRunning ∧ s.stallState (u8 p 0) ≠ stFaulted) (stall 62 5 base) (hd 3) [62]) ∧
    (Met specStallCreate (fun s _ p => 1 ≤ u8 p 0 ∧ u8 p 0 ≤ 62 ∧ grantRange p = true ∧ s.stallState (u8 p 0) = stEmpty ∧ s.grantConflict (u8 p 0) p = false ∧ s.poolsCheck (u8 p 0) p = none) base (hd 5) (grantOf 62)) ∧
    (Met specStallCreate (fun s _ p => 1 ≤ u8 p 0 ∧ u8 p 0 ≤ 62 ∧ grantRange p = true ∧ s.stallState (u8 p 0) ≠ stEmpty) (stall 62 1 base) (hd 5) (grantOf 62)) ∧
    (Met specStallDelete (fun s _ p => 1 ≤ u8 p 0 ∧ u8 p 0 ≤ 62 ∧ (s.stallState (u8 p 0) = stCreated ∨ s.stallState (u8 p 0) = stLoaded ∨ s.stallState (u8 p 0) = stFaulted)) (stall 62 4 base) (hd 5) [62]) ∧
    (Met specStallDelete (fun s _ p => 1 ≤ u8 p 0 ∧ u8 p 0 ≤ 62 ∧ s.stallState (u8 p 0) = stRunning) (stall 62 3 base) (hd 5) [62]) ∧
    (Met specStallResize (fun s _ p => 1 ≤ u8 p 0 ∧ u8 p 0 ≤ 62 ∧ grantRange p = true ∧ s.stallState (u8 p 0) ≠ stEmpty ∧ s.grantConflict (u8 p 0) p = false ∧ s.poolsCheck (u8 p 0) p = none) (stall 62 1 base) (hd 5) (grantOf 62)) ∧
    (∀ g, g = grantOf 62 → Met specStallDropShadow (fun s _ p => 1 ≤ u8 p 0 ∧ u8 p 0 ≤ 62 ∧ s.stallState (u8 p 0) ≠ stEmpty ∧ s.grant (u8 p 0) = some g) (stall 62 1 base) (hd 5) [62]) :=
  ⟨by unfold Met Takes; decide +kernel,
   by unfold Met Takes; decide +kernel,
   by unfold Met Takes; decide +kernel,
   by unfold Met Takes; decide +kernel,
   by unfold Met Takes; decide +kernel,
   by unfold Met Takes; decide +kernel,
   by unfold Met Takes; decide +kernel,
   by rintro _ rfl; unfold Met Takes; decide +kernel⟩

theorem witness_StallCommands_c :
    (∀ g, g = grantOf 62 → Met specStallRead (fun s _ p => u8 p 0 ≤ 63 ∧ u8 p 1 ≤ 1 ∧ (if u8 p 1 = 0 then s.grant (u8 p 0) else s.shadowGrant (u8 p 0)) = some g) (stall 62 1 base) (hd 1) [62, 1]) ∧
    (Met specStallStatus (fun _ _ p => u8 p 0 ≤ 63) base (hd 1) [63]) ∧
    (Met specStallPool (fun _ _ _ => True) base (hd 1) []) ∧
    (∀ i, i = 0 → Met specStallMapPasid (fun s h p => u32 p 0 ≤ 0xFFFFF ∧ u8 p 4 ≤ 62 ∧ s.pasidEntry h.side (u32 p 0) = none ∧ (List.range 256).find? (fun i => !s.flag (Rg.pasidMap h.side i) Fd.pasidMapValid) = some i) base (hd 5) [0, 15, 255, 255, 62]) ∧
    (∀ i, i = 255 → Met specStallUnmapPasid (fun s h p => s.pasidEntry h.side (u32 p 0) = some i ∧ ∀ r < 64, ¬ (s.flag (Rg.ringCfg h.side r) Fd.ringCfgEnabled = true ∧ s.regWord (Rg.ringPasid h.side r) % 2 ^ 20 = u32 p 0)) (base.putReg (Rg.pasidMap .A 255) (2 ^ 31 + 62 * 2 ^ 20 + 7)) (hd 5) [0, 0, 0, 7]) :=
  ⟨by rintro _ rfl; unfold Met Takes; decide +kernel,
   by unfold Met Takes; decide +kernel,
   by unfold Met Takes; decide +kernel,
   by rintro _ rfl; unfold Met Takes; decide +kernel,
   by rintro _ rfl; unfold Met Takes; decide +kernel⟩

theorem witness_ShadowRecords_a :
    (Met specGooseSubSet (fun s _ p => gooseSubRange p = true ∧ ∀ e ∈ s.modShadow.block 0x08, e.1 = u16 p 0 ∨ sub e.2 4 8 ≠ sub p 4 8 ∨ sub e.2 24 64 ≠ sub p 24 64) base (hd 3) (zeros 18 ++ [1] ++ zeros 69 ++ [1] ++ zeros 7)) ∧
    (Met specCondSetChain (fun _ _ p => u8 p 0 = 1 ∧ chainRangeOk (p.drop 1) = true) base (hd 3) ([1] ++ chainRec)) ∧
    (Met specCondSetChain (fun s _ p => u8 p 0 = 0 ∧ chainRangeOk (p.drop 1) = true ∧ s.chainStopped (u16 (p.drop 1) 0) = false) (base.modSide .A fun x => { x with chains := [(8191, { ChainSt.fresh with state := 2 })] }) (hd 3) ([0] ++ chainRec)) ∧
    (Met specCondSetGroup (fun _ _ p => u8 p 0 = 1 ∧ groupRangeOk (p.drop 1) = true) base (hd 3) [1, 0, 1, 0, 0, 0, 0, 0, 0, 0, 0, 1, 0, 0, 0, 0, 0]) ∧
    (∀ c, c = (base.modShadow.putRec 0x06 0 [0, 1, 0, 1, 0, 0, 0, 0, 0, 0, 0, 0]).putRec tapMarkTy 0 [0] → Met specCondSetTaps (fun s _ p => u8 p 0 = 1 ∧ tapHeadOk (sub p 1 8) = true ∧ u16 p 11 ≤ 248 ∧ u16 p 9 + u16 p 11 ≤ u16 (sub p 1 8) 2 ∧ s.modShadow.withTaps (sub p 1 8) (u16 p 9) (p.drop 13) = some c) base (hd 3) ([1, 0, 1, 0, 1] ++ zeros 8)) ∧
    (∀ c : State → CmdHdr → Bytes → Scope, c = (fun s h p => s.modShadow.putRec 0x04 (subSlot (patch p 169 [h.stall])) (patch p 169 [h.stall])) → Met specSvSubscribe (fun s h p => subRangeOk (patch p 169 [h.stall]) = true ∧ (∀ o, s.modShadow.get 0x04 (subSlot (patch p 169 [h.stall])) = some o → subKey o = subKey (patch p 169 [h.stall])) ∧ subsConflict (svSubs (c s h p)) = false ∧ eqTotal (c s h p) ≤ 8192 ∧ (h.stall = 0 ∨ eqUnder (c s h p) h.stall.toNat ≤ s.streamEqBudget h.stall.toNat)) base (hd 3) subRec) ∧
    (Met specSvSubscribe (fun s h p => subRangeOk (patch p 169 [h.stall]) = true ∧ ∃ o, s.modShadow.get 0x04 (subSlot (patch p 169 [h.stall])) = some o ∧ subKey o ≠ subKey (patch p 169 [h.stall])) (record 0x04 1023 subRec base) (hd 3) (patch subRec 4 [1])) ∧
    (Met specSvUnsubscribe (fun s _ p => u16 p 0 ≤ 1023 ∧ (s.modShadow.get 0x04 (u16 p 0)).isSome = true) (record 0x04 1023 subRec base) (hd 3) [3, 255]) :=
  ⟨by unfold Met Takes; decide +kernel,
   by unfold Met Takes; decide +kernel,
   by unfold Met Takes; decide +kernel,
   by unfold Met Takes; decide +kernel,
   by rintro _ rfl; unfold Met Takes; decide +kernel,
   by rintro _ rfl; unfold Met Takes; decide +kernel,
   by unfold Met Takes; decide +kernel,
   by unfold Met Takes; decide +kernel⟩

theorem witness_ShadowRecords_b :
    (Met specGoosePubSet (fun _ _ p => goosePubRange p = true) base (hd 3) (zeros 20 ++ [0, 1, 0, 1] ++ zeros 3 ++ [1] ++ zeros 4 ++ [1] ++ zeros 193 ++ [1] ++ zeros 5)) ∧
    (Met specGoosePubSet (fun _ _ p => goosePubRange p = false) base (hd 3) (patch (zeros 20 ++ [0, 1, 0, 1] ++ zeros 3 ++ [1] ++ zeros 4 ++ [1] ++ zeros 193 ++ [1] ++ zeros 5) 0 [255])) ∧
    (Met specSvpubSet (fun _ _ p => svPubRange p = true) base (hd 3) (zeros 1 ++ [62] ++ zeros 1 ++ [1] ++ zeros 19 ++ [1] ++ [1] ++ zeros 79)) ∧
    (Met specSvpubSet (fun _ _ p => svPubRange p = false) base (hd 3) (patch (zeros 1 ++ [62] ++ zeros 1 ++ [1] ++ zeros 19 ++ [1] ++ [1] ++ zeros 79) 0 [255])) ∧
    (Met specPubSetMac (fun _ _ p => (fun p => !bit (u8 p 0) 0) p = true) base (hd 5) (zeros 6)) ∧
    (Met specPubSetMac (fun _ _ p => (fun p => !bit (u8 p 0) 0) p = false) base (hd 5) [1, 0, 0, 0, 0, 0]) ∧
    (Met specAcqSetLine (fun _ _ p => lineRangeOk p = true) base (hd 3) [0, 0, 1, 0, 0, 0, 0, 0]) ∧
    (Met specAcqSetLine (fun _ _ p => lineRangeOk p = false) base (hd 3) (patch [0, 0, 1, 0, 0, 0, 0, 0] 0 [255])) :=
  ⟨by unfold Met Takes; decide +kernel,
   by unfold Met Takes; decide +kernel,
   by unfold Met Takes; decide +kernel,
   by unfold Met Takes; decide +kernel,
   by unfold Met Takes; decide +kernel,
   by unfold Met Takes; decide +kernel,
   by unfold Met Takes; decide +kernel,
   by unfold Met Takes; decide +kernel⟩

theorem witness_ShadowRecords_c :
    (Met specAcqSetChannel (fun _ _ p => captRangeOk p = true) base (hd 3) ([0, 255, 62, 1, 0, 0, 0, 1] ++ zeros 16)) ∧
    (Met specAcqSetChannel (fun _ _ p => captRangeOk p = false) base (hd 3) (patch ([0, 255, 62, 1, 0, 0, 0, 1] ++ zeros 16) 0 [255])) ∧
    (Met specAcqSetWavefront (fun _ _ p => wfRangeOk p = true) base (hd 3) ([1] ++ zeros 7)) ∧
    (Met specAcqSetWavefront (fun _ _ p => wfRangeOk p = false) base (hd 3) (patch ([1] ++ zeros 7) 0 [255])) ∧
    (Met specAcqSetDram (fun _ _ p => dramRangeOk p = true) base (hd 5) ([0, 0, 0, 0, 0, 0, 1] ++ zeros 9)) ∧
    (Met specAcqSetDram (fun _ _ p => dramRangeOk p = false) base (hd 5) (patch ([0, 0, 0, 0, 0, 0, 1] ++ zeros 9) 0 [255])) ∧
    (Met specLedgerSetSnapshot (fun _ _ p => snapshotRange p = true) base (hd 3) ([63, 15, 1] ++ zeros 5 ++ [3] ++ zeros 7)) ∧
    (Met specLedgerSetSnapshot (fun _ _ p => snapshotRange p = false) base (hd 3) (patch ([63, 15, 1] ++ zeros 5 ++ [3] ++ zeros 7) 0 [255])) :=
  ⟨by unfold Met Takes; decide +kernel,
   by unfold Met Takes; decide +kernel,
   by unfold Met Takes; decide +kernel,
   by unfold Met Takes; decide +kernel,
   by unfold Met Takes; decide +kernel,
   by unfold Met Takes; decide +kernel,
   by unfold Met Takes; decide +kernel,
   by unfold Met Takes; decide +kernel⟩

theorem witness_ShadowRecords_d :
    (Met specCondSetNominal (fun _ _ p => (fun p => u8 p 0 == 50 || u8 p 0 == 60) p = true) base (hd 3) [60]) ∧
    (Met specCondSetNominal (fun _ _ p => (fun p => u8 p 0 == 50 || u8 p 0 == 60) p = false) base (hd 3) [55]) :=
  ⟨by unfold Met Takes; decide +kernel,
   by unfold Met Takes; decide +kernel⟩

theorem witness_ShadowRecordsOfUnits_a :
    (Met specSwSetPort (fun _ _ p => portRange p = true ∧ (prFlag p 1 = true → u8 p 1 = 1)) base (hd 3) ([1, 11, 1, 0, 0, 64, 0, 0, 15, 254] ++ zeros 6)) ∧
    (Met specSwSetFdb (fun _ _ p => 1 ≤ u16 p 2 ∧ u16 p 2 ≤ 60 ∧ u16 p 0 + u16 p 2 ≤ 8192 ∧ ∀ k < u16 p 2, fdbRange (sub p (4 + 16 * k) 16) = true) base (hd 3) [0, 1, 0, 1, 0, 1, 0, 0, 0, 0, 1, 0, 1, 0, 1, 0, 0, 0, 0, 0]) ∧
    (Met specLedgerSetRate (fun _ _ p => 1 ≤ u16 p 2 ∧ u16 p 2 ≤ 248 ∧ u16 p 0 + u16 p 2 ≤ 4096 ∧ p.length = 4 + 4 * u16 p 2 ∧ ∀ k < u16 p 2, u16 (sub p (4 + 4 * k) 4) 0 ≤ 4800 ∧ u8 (sub p (4 + 4 * k) 4) 2 ≠ 0 ∧ u8 (sub p (4 + 4 * k) 4) 3 = 0) base (hd 3) [0, 1, 0, 1, 0, 0, 1, 0]) ∧
    (Met specFioSetChannel (fun s _ p => fioRange p = true ∧ s.isSafeChannel (u8 p 0) = false) base (hd 3) ([1] ++ zeros 15)) ∧
    (Met specFioSetChannel (fun s _ p => fioRange p = true ∧ s.isSafeChannel (u8 p 0) = true) safeBase (hd 3) ([32] ++ zeros 15)) ∧
    (∀ es : Bytes → List Nat, es = (fun p => pairEntries p) → Met specPairSet (fun s _ p => u8 p 0 ≤ 2 ∧ u8 p 1 ≤ 1 ∧ u8 p 2 ≤ 15 ∧ (u8 p 2 = 0 ∨ 3 ≤ u8 p 2) ∧ ∀ e ∈ es p, bits e 14 10 = 0 ∧ (bit e 15 = true ∨ (s.modShadow.get 0x04 (e % 1024)).isSome = true)) base (hd 5) (zeros 11)) ∧
    (Met specSwSetGates (fun _ _ p => gatesRange p = true) base (hd 3) [1, 6, 2, 0, 0, 0, 101, 144, 0, 0, 0, 0]) ∧
    (Met specSwSetGates (fun _ _ p => gatesRange p = false) base (hd 3) (patch [1, 6, 2, 0, 0, 0, 101, 144, 0, 0, 0, 0] 0 [255])) :=
  ⟨by unfold Met Takes; decide +kernel,
   by unfold Met Takes; decide +kernel,
   by unfold Met Takes; decide +kernel,
   by unfold Met Takes; decide +kernel,
   by unfold Met Takes; decide +kernel,
   by rintro _ rfl; unfold Met Takes; decide +kernel,
   by unfold Met Takes; decide +kernel,
   by unfold Met Takes; decide +kernel⟩

theorem witness_ShadowRecordsOfUnits_b :
    (Met specSwSetQueue (fun _ _ p => queueRange p = true) base (hd 3) ([0, 1] ++ zeros 6)) ∧
    (Met specSwSetQueue (fun _ _ p => queueRange p = false) base (hd 3) (patch ([0, 1] ++ zeros 6) 0 [255])) ∧
    (Met specTimeSetParams (fun _ _ p => ptpRange p = true) base (hd 3) ([2, 127, 2, 3] ++ zeros 12 ++ [0, 0, 3, 232, 0, 15, 66, 64] ++ zeros 8)) ∧
    (Met specTimeSetParams (fun _ _ p => ptpRange p = false) base (hd 3) (patch ([2, 127, 2, 3] ++ zeros 12 ++ [0, 0, 3, 232, 0, 15, 66, 64] ++ zeros 8) 0 [255])) ∧
    (Met specTimeSetPort (fun _ _ p => timePortRange p = true) base (hd 3) ([1, 11, 3, 1, 252, 4, 5, 10] ++ [0, 15, 66, 64] ++ zeros 8)) ∧
    (Met specTimeSetPort (fun _ _ p => timePortRange p = false) base (hd 3) (patch ([1, 11, 3, 1, 252, 4, 5, 10] ++ [0, 15, 66, 64] ++ zeros 8) 0 [255])) ∧
    (Met specCanSetTiming (fun _ _ p => (fun p => (u8 p 0 == 1 || u8 p 0 == 2) && canTimingRange (u64 p 1)) p = true) base (hd 3) ([2] ++ beBytes 8 (77 + 5 * 2 ^ 32 + 8 * 2 ^ 37))) ∧
    (Met specCanSetTiming (fun _ _ p => (fun p => (u8 p 0 == 1 || u8 p 0 == 2) && canTimingRange (u64 p 1)) p = false) base (hd 3) (patch ([2] ++ beBytes 8 (77 + 5 * 2 ^ 32 + 8 * 2 ^ 37)) 0 [255])) :=
  ⟨by unfold Met Takes; decide +kernel,
   by unfold Met Takes; decide +kernel,
   by unfold Met Takes; decide +kernel,
   by unfold Met Takes; decide +kernel,
   by unfold Met Takes; decide +kernel,
   by unfold Met Takes; decide +kernel,
   by unfold Met Takes; decide +kernel,
   by unfold Met Takes; decide +kernel⟩

theorem witness_ShadowRecordsOfUnits_c :
    (Met specCanSetFilter (fun _ _ p => canFilterRange p = true) base (hd 3) ([1] ++ zeros 11)) ∧
    (Met specCanSetFilter (fun _ _ p => canFilterRange p = false) base (hd 3) (patch ([1] ++ zeros 11) 0 [255])) ∧
    (Met specCanSetBuffer (fun _ _ p => canBufferRange p = true) base (hd 3) ([1] ++ zeros 11)) ∧
    (Met specCanSetBuffer (fun _ _ p => canBufferRange p = false) base (hd 3) (patch ([1] ++ zeros 11) 0 [255])) :=
  ⟨by unfold Met Takes; decide +kernel,
   by unfold Met Takes; decide +kernel,
   by unfold Met Takes; decide +kernel,
   by unfold Met Takes; decide +kernel⟩

theorem witness_ReadCommands_a :
    (∀ r, r = subRec → Met specSvReadSub (fun s _ p => u16 p 0 ≤ 1023 ∧ u8 p 2 ≤ 1 ∧ (s.setScope (u8 p 2)).get 0x04 (u16 p 0) = some r) (record 0x04 1023 subRec base) (hd 1) [3, 255, 1]) ∧
    (∀ r, r = chainRec → Met specCondReadChain (fun s _ p => u16 p 0 ≤ 8191 ∧ u8 p 2 ≤ 1 ∧ (s.setScope (u8 p 2)).get 0x05 (u16 p 0) = some r) (record 0x05 8191 chainRec base) (hd 1) [31, 255, 0]) ∧
    (∀ r, r = zeros 96 → Met specGooseSubRead (fun s _ p => u16 p 0 ≤ 2047 ∧ u8 p 2 ≤ 1 ∧ (s.setScope (u8 p 2)).get 0x08 (u16 p 0) = some r) (record 0x08 2047 (zeros 96) base) (hd 1) [7, 255, 0]) ∧
    (∀ r, r = zeros 224 → Met specGoosePubRead (fun s h p => u16 p 0 ≤ 511 ∧ u8 p 2 ≤ 1 ∧ s.findPub (u8 p 2) 0x22 h.stall.toNat (u16 p 0) = some r) (stallRecord 62 0x22 511 (zeros 224) (stall 62 1 base)) (hd 1) [1, 255, 0]) ∧
    (∀ r, r = zeros 96 → Met specSvpubRead (fun s h p => u8 p 0 ≤ 63 ∧ u8 p 1 ≤ 1 ∧ s.findPub (u8 p 1) 0x23 h.stall.toNat (u8 p 0) = some r) (stallRecord 62 0x23 63 (zeros 96) (stall 62 1 base)) (hd 1) [63, 1]) ∧
    (Met specSvStreamStatus (fun _ _ p => okRange (u16 p 0) (u16 p 2) 64 1023 = true) base (hd 1) [3, 192, 0, 64]) ∧
    (Met specSvReadSamples (fun s h p => u16 p 0 ≤ 1023 ∧ s.sealedAlready (u64 p 2) = true ∧ s.now ≤ u64 p 2 + 64 ∧ (s.stream h.side (u16 p 0)).sealed_.find? (fun q => q.tick == u64 p 2) = none) { base with sealedUpto := some 9599999 } (hd 1) (beBytes 2 1023 ++ beBytes 8 9599936)) ∧
    (∀ q, q = ⟨9599999, true, []⟩ → Met specSvReadSamples (fun s h p => u16 p 0 ≤ 1023 ∧ s.sealedAlready (u64 p 2) = true ∧ s.now ≤ u64 p 2 + 64 ∧ (s.stream h.side (u16 p 0)).sealed_.find? (fun q => q.tick == u64 p 2) = some q) ({ base with sealedUpto := some 9599999 }.putStream .A 1023 { StreamSt.empty with sealed_ := [⟨9599999, true, []⟩] }) (hd 1) (beBytes 2 1023 ++ beBytes 8 9599999)) :=
  ⟨by rintro _ rfl; unfold Met Takes; decide +kernel,
   by rintro _ rfl; unfold Met Takes; decide +kernel,
   by rintro _ rfl; unfold Met Takes; decide +kernel,
   by rintro _ rfl; unfold Met Takes; decide +kernel,
   by rintro _ rfl; unfold Met Takes; decide +kernel,
   by unfold Met Takes; decide +kernel,
   by unfold Met Takes; decide +kernel,
   by rintro _ rfl; unfold Met Takes; decide +kernel⟩

theorem witness_ReadCommands_b :
    (∀ l, l = (9599990, [(8191, [1])]) → ∀ r, r = [1] → Met specCondReadOutput (fun s h p => u16 p 0 ≤ 8191 ∧ (s.side h.side).condStore.getLast? = some l ∧ u64 p 2 ≤ l.1 ∧ l.1 ≤ u64 p 2 + 8 ∧ s.condRecord h.side (u16 p 0) (u64 p 2) = some r) (base.modSide .A fun x => { x with condStore := [(9599990, [(8191, [1])])] }) (hd 1) (beBytes 2 8191 ++ beBytes 8 9599990)) ∧
    (∀ l, l = (9599990, [(66559, [1])]) → ∀ r, r = [1] → Met specCondReadGroup (fun s h p => u16 p 0 ≤ 1023 ∧ (s.side h.side).condStore.getLast? = some l ∧ u64 p 2 ≤ l.1 ∧ l.1 ≤ u64 p 2 + 8 ∧ s.condRecord h.side (65536 + u16 p 0) (u64 p 2) = some r) (base.modSide .A fun x => { x with condStore := [(9599990, [(66559, [1])])] }) (hd 1) (beBytes 2 1023 ++ beBytes 8 9599990)) ∧
    (Met specCondDemand (fun _ _ p => u8 p 0 ≤ 1) base (hd 1) [0]) ∧
    (Met specGooseStatus (fun _ _ p => u8 p 0 ≤ 1 ∧ okRange (u16 p 1) (u16 p 3) 64 (if u8 p 0 = 0 then 511 else 2047) = true) base (hd 1) [1, 7, 192, 0, 64]) ∧
    (Met specAcqChannelStatus (fun _ _ p => okRange (u16 p 0) (u16 p 2) 64 255 = true) base (hd 1) [0, 192, 0, 64]) ∧
    (∀ img : Bytes, img = progOf → ∀ k : Nat, k = 0 → ∀ t : Task, t = (readTask taskRec) → Met specScanReadTask (fun s _ p => u8 p 0 ≤ 63 ∧ u8 p 1 ≤ 15 ∧ u8 p 2 ≤ 1 ∧ s.programIn (u8 p 2) (u8 p 0) = some img ∧ (List.range (imgTasks img)).find? (fun k => (readTask (imgTaskRec img k)).task == u8 p 1) = some k ∧ t = readTask (imgTaskRec img k)) progBase (hd 1) [62, 0, 1]) ∧
    (Met specScanCoreLoad (fun _ _ p => u8 p 0 ≤ 79 ∧ u8 p 1 ≤ 1) base (hd 1) [79, 1]) ∧
    (Met specHlStatus (fun _ _ _ => True) base (hd 1) []) :=
  ⟨by rintro _ rfl _ rfl; unfold Met Takes; decide +kernel,
   by rintro _ rfl _ rfl; unfold Met Takes; decide +kernel,
   by unfold Met Takes; decide +kernel,
   by unfold Met Takes; decide +kernel,
   by unfold Met Takes; decide +kernel,
   by rintro _ rfl _ rfl _ rfl; unfold Met Takes; decide +kernel,
   by unfold Met Takes; decide +kernel,
   by unfold Met Takes; decide +kernel⟩

theorem witness_ReadCommandsOfUnits_a :
    (Met specFioReadChannel (fun _ _ p => 1 ≤ u8 p 0 ∧ u8 p 0 ≤ 32 ∧ u8 p 1 = 0) base (hd 1) [32, 0]) ∧
    (Met specFioStatus (fun _ _ _ => True) base (hd 1) []) ∧
    (∀ img, img = [1] → Met specFioReadImage (fun s _ p => s.imageOf (u64 p 0) = some img) { base with arb := { ArbSt.reset with images := [(9599999, [1])] } } (hd 1) (beBytes 8 9599999)) ∧
    (Met specTeleStatus (fun _ _ p => okRange (u8 p 0) (u8 p 1) 64 63 = true) base (hd 1) [0, 64]) ∧
    (Met specSafeStatus (fun _ _ _ => True) base (hd 1) []) ∧
    (Met specSafeReadTable (fun s _ p => u8 p 0 ≤ 1 ∧ 1 ≤ u16 p 5 ∧ u16 p 5 ≤ 1000 ∧ u32 p 1 + u16 p 5 ≤ (if u8 p 0 = 0 then s.safeActive else s.safeShadow).length ∧ u32 p 1 + u16 p 5 ≤ u32 (if u8 p 0 = 0 then s.safeActive else s.safeShadow) 12) { base with safeShadow := safeTable } (hd 1) [1, 0, 0, 0, 0, 0, 160]) ∧
    (Met specCanStatus (fun _ _ _ => True) base (hd 1) []) ∧
    (Met specLedgerStatus (fun _ _ _ => True) base (hd 1) []) :=
  ⟨by unfold Met Takes; decide +kernel,
   by unfold Met Takes; decide +kernel,
   by rintro _ rfl; unfold Met Takes; decide +kernel,
   by unfold Met Takes; decide +kernel,
   by unfold Met Takes; decide +kernel,
   by unfold Met Takes; decide +kernel,
   by unfold Met Takes; decide +kernel,
   by unfold Met Takes; decide +kernel⟩

theorem witness_ReadCommandsOfUnits_b :
    (Met specLedgerCodes (fun _ _ p => 1 ≤ u16 p 2 ∧ u16 p 2 ≤ 256 ∧ u16 p 0 + u16 p 2 ≤ 4096) base (hd 1) [15, 0, 1, 0]) ∧
    (∀ mine : State → CmdHdr → Bytes → List LRec, mine = (fun s h p => (s.areaRecords h.side (u8 p 0)).filter fun r => decide (u64 p 2 ≤ r.seq) && (u8 p 1 == 255 || r.stall == u8 p 1) && (h.stall == 0 || r.stall == h.stall.toNat)) → Met specReadRecords (fun s h p => u8 p 0 ≤ 1 ∧ (u8 p 1 ≤ 63 ∨ u8 p 1 = 255) ∧ 1 ≤ u16 p 10 ∧ u16 p 10 ≤ 255 ∧ mine s h p ≠ []) { base with regions := [(0, ⟨[⟨0, 0, 0, [⟨false, 2, 0, 0x0012, 0, 0, 0, 0, []⟩], 32⟩], 512, [], 0⟩)] } (hd 1) [0, 255, 0, 0, 0, 0, 0, 0, 0, 0, 0, 255]) ∧
    (Met specTimePortStatus (fun _ _ p => portArgs p = true) base (hd 1) [0, 1]) ∧
    (∀ size : Bytes → Nat, size = (fun p => if u8 p 1 = 1 then 8192 else if u8 p 1 = 3 then 128 else 16) → ∀ recs : State → Bytes → List Bytes, recs = (fun s p => ((List.range (u16 p 5)).filter fun k => decide (u16 p 3 + k < size p)).filterMap fun k => (if u8 p 0 = 0 then s.modActive else s.modShadow).get (0x09 + u8 p 1) (u8 p 2 * size p + u16 p 3 + k)) → Met specSwReadConfig (fun s _ p => u8 p 0 ≤ 1 ∧ u8 p 1 ≤ 3 ∧ u8 p 2 ≤ 1 ∧ 1 ≤ u16 p 5 ∧ u16 p 5 ≤ 60 ∧ recs s p ≠ []) (record 0x09 0 (zeros 16) base) (hd 1) [0, 0, 0, 0, 0, 0, 60]) ∧
    (Met specKeyStatus (fun _ _ _ => True) base (hd 1) []) ∧
    (Met specKeyDeviceCert (fun _ _ p => u8 p 0 ≤ 1) base (hd 1) [0]) ∧
    (Met specUpdStatus (fun _ _ _ => True) base (hd 1) []) ∧
    (Met specHealthReport (fun _ _ p => u8 p 0 ≤ 1 ∧ u8 p 1 ≤ 7) base (hd 1) [1, 7]) :=
  ⟨by unfold Met Takes; decide +kernel,
   by rintro _ rfl; unfold Met Takes; decide +kernel,
   by unfold Met Takes; decide +kernel,
   by rintro _ rfl _ rfl; unfold Met Takes; decide +kernel,
   by unfold Met Takes; decide +kernel,
   by unfold Met Takes; decide +kernel,
   by unfold Met Takes; decide +kernel,
   by unfold Met Takes; decide +kernel⟩

theorem witness_ReadCommandsOfUnits_c :
    (Met specHealthFaults (fun _ _ p => u8 p 0 ≤ 1 ∧ u8 p 1 ≤ 63 ∧ 1 ≤ u8 p 2 ∧ u8 p 2 ≤ 64) base (hd 1) [1, 63, 64]) ∧
    (Met specMaintLeases (fun _ _ _ => True) base (hd 1) []) ∧
    (Met specSideStatus (fun s h _ => (s.side h.side.other).role ≠ .out) base (hd 1) []) ∧
    (Met specPairStatus (fun s h _ => (s.side h.side.other).role ≠ .out) base (hd 1) []) ∧
    (Met specPowerStatus (fun s h _ => (s.side h.side.other).role ≠ .out) base (hd 1) []) :=
  ⟨by unfold Met Takes; decide +kernel,
   by unfold Met Takes; decide +kernel,
   by unfold Met Takes; decide +kernel,
   by unfold Met Takes; decide +kernel,
   by unfold Met Takes; decide +kernel⟩

theorem witness_SignalCommands_a :
    (Met specCondStop (fun _ _ p => okRange (u16 p 0) (u16 p 2) 1024 8191 = true) base (hd 3) [28, 0, 4, 0]) ∧
    (Met specCondStart (fun _ _ p => okRange (u16 p 0) (u16 p 2) 1024 8191 = true) base (hd 3) [0, 0, 1, 0]) ∧
    (∀ r, r = freeRec → Met specSvReanchor (fun s _ p => u16 p 0 ≤ 1023 ∧ s.modActive.get 0x04 (u16 p 0) = some r ∧ subFreeRun r = true) (record 0x04 1023 freeRec base) (hd 3) [3, 255]) ∧
    (∀ r, r = subRec → Met specSvReanchor (fun s _ p => u16 p 0 ≤ 1023 ∧ s.modActive.get 0x04 (u16 p 0) = some r ∧ subFreeRun r = false) (record 0x04 1023 subRec base) (hd 3) [3, 255]) ∧
    (∀ r, r = subRec → Met specSvAnchor (fun s _ p => s.modActive.get 0x04 (u16 p 0) = some r) (record 0x04 1023 subRec base) own (beBytes 2 1023 ++ zeros 22)) ∧
    (∀ rs, rs = (fun s p => (chanSpan p).filterMap fun c => (s.captRec c).map fun r => (c, r)) → Met specAcqStart (fun s _ p => okRange (u16 p 0) (u16 p 2) 256 255 = true ∧ (∀ c ∈ chanSpan p, (s.captRec c).isSome = true) ∧ (∀ e ∈ rs s p, s.startsWaiting e.1 = [] ∧ (∃ sd ∈ s.serving, s.captState sd e.1 ≠ csRunning) ∧ s.destReady s.speaker e.2 = true)) (stallRecord 62 0x25 255 captRec (stall 62 2 (base.modSide .A id))) (hd 2) [0, 255, 0, 1]) ∧
    (Met specAcqStop (fun s _ p => okRange (u16 p 0) (u16 p 2) 256 255 = true ∧ ∀ c ∈ chanSpan p, (∀ t ∈ s.startsWaiting c, t ≤ s.nextBell) ∧ (s.startsWaiting c ≠ [] ∨ ∃ sd ∈ s.serving, s.captState sd c = csRunning)) ((base.wr (Rg.captState .A 255) Fd.captStateState 3)) (hd 2) [0, 255, 0, 1]) ∧
    (∀ named : State → CmdHdr → Nat → List Nat, named = (fun s h l => (if h.stall.toNat = 0 then List.range 64 else [h.stall.toNat]).filter fun st => (s.lineRec st l).isSome) → Met specAcqTrigger (fun s h p => ∀ l ∈ (List.range 16).filter (bit (u16 p 0)), named s h l ≠ []) (stallRecord 62 0x24 15 (zeros 24) (stall 62 1 base)) (hd 2) [128, 0]) :=
  ⟨by unfold Met Takes; decide +kernel,
   by unfold Met Takes; decide +kernel,
   by rintro _ rfl; unfold Met Takes; decide +kernel,
   by rintro _ rfl; unfold Met Takes; decide +kernel,
   by rintro _ rfl; unfold Met Takes; decide +kernel,
   by rintro _ rfl; unfold Met Takes; decide +kernel,
   by unfold Met Takes; decide +kernel,
   by rintro _ rfl; unfold Met Takes; decide +kernel⟩

theorem witness_SignalCommands_b :
    (∀ l : State → CmdHdr → Bytes → List Bytes, l = (fun s h p => Tbl.getD (s.side h.side).dram (u8 p 0) []) → Met specAcqReadDram (fun s h p => u8 p 0 ≤ 15 ∧ 1 ≤ u16 p 1 ∧ u16 p 1 ≤ 1008 ∧ l s h p ≠ []) (base.modSide .A fun y => { y with dram := [(15, [[1]])] }) (hd 2) [15, 3, 240]) ∧
    (Met specCanReadQueue (fun _ _ p => u8 p 0 ≤ 1 ∧ 1 ≤ u8 p 1 ∧ u8 p 1 ≤ 12) base (hd 1) [1, 12]) ∧
    (∀ r, r = [1, 63, 1, 0, 255, 0, 0, 0, 0, 0, 0, 0] → Met specCanSend (fun s h p => u8 p 0 ≤ 63 ∧ s.canOwner (ctrlOf h.side) 0 (u8 p 0) = 0 ∧ s.modActive.get 0x11 (canBufferIdx (ctrlOf h.side) (u8 p 0)) = some r ∧ u8 r 2 = 1 ∧ u8 r 4 = 255 ∧ s.holdPublish h.side = false) (record 0x11 (canBufferIdx 1 63) [1, 63, 1, 0, 255, 0, 0, 0, 0, 0, 0, 0] base) (hd 2) ([63] ++ zeros 80)) ∧
    (Met specLedgerExport (fun s h p => u8 p 0 ≤ 63 ∧ u8 p 1 ≤ 1 ∧ s.rd (Rg.ringCfg h.side (u8 p 0)) Fd.ringCfgOwner = h.stall.toNat ∧ s.ringRuns h.side (u8 p 0) = true ∧ s.rd (Rg.ringCfg h.side (u8 p 0)) Fd.ringCfgKind = 1) (ringOf 3 1 0 base) (hd 3) ([3, 1] ++ zeros 8)) ∧
    (Met specLedgerNote (fun _ _ p => 26 ≤ p.length) base own (zeros 26)) :=
  ⟨by rintro _ rfl; unfold Met Takes; decide +kernel,
   by unfold Met Takes; decide +kernel,
   by rintro _ rfl; unfold Met Takes; decide +kernel,
   by unfold Met Takes; decide +kernel,
   by unfold Met Takes; decide +kernel⟩

theorem witness_ForceCommands_a :
    (∀ k, k = 0 → Met specForceSet (fun s h p => (u8 p 0 = 3 → s.isSafeChannel (u32 p 4) = false) ∧ s.feedsSafety (u8 p 1) (u8 p 2) (u32 p 4) = false ∧ (u8 p 1 ≤ 63 → s.stallState (u8 p 1) = stLoaded ∨ s.stallState (u8 p 1) = stRunning) ∧ s.forceRange (forceOfParams h p s.now) (u32 p 16) = true ∧ s.forceOn (forceOfParams h p s.now) = some k) forceBase (hd 3) forcePay) ∧
    (∀ k, k = 0 → Met specForceSet (fun s h p => (u8 p 0 = 3 → s.isSafeChannel (u32 p 4) = false) ∧ s.feedsSafety (u8 p 1) (u8 p 2) (u32 p 4) = false ∧ (u8 p 1 ≤ 63 → s.stallState (u8 p 1) = stLoaded ∨ s.stallState (u8 p 1) = stRunning) ∧ s.forceRange (forceOfParams h p s.now) (u32 p 16) = true ∧ s.forceOn (forceOfParams h p s.now) = none ∧ s.freeHandle = some k) { forceBase with forces := [] } (hd 3) forcePay) ∧
    (Met specForceSet (fun s _ p => u8 p 0 = 3 ∧ s.isSafeChannel (u32 p 4) = true) safeBase (hd 3) ([3, 62, 0, 4] ++ beBytes 4 32 ++ zeros 20)) ∧
    (∀ f, f = forceOfParams (hd 3) forcePay 9600000 → Met specForceClear (fun s h p => u16 p 0 ≠ 0xFFFF ∧ Tbl.find s.forces (u16 p 0) = some f ∧ h.origin ≠ 0) forceBase (hd 3) [0, 0]) ∧
    (Met specForceClear (fun s h p => u16 p 0 ≠ 0xFFFF ∧ Tbl.find s.forces (u16 p 0) = none ∧ h.origin ≠ 0) base (hd 3) [255, 254]) ∧
    (∀ f, f = { forceOfParams (hd 3) forcePay 9600000 with expiry := 9600000 } → Met specForceClear (fun s h p => u16 p 0 ≠ 0xFFFF ∧ Tbl.find s.forces (u16 p 0) = some f ∧ h.origin = 0 ∧ f.expiry ≤ s.now) { forceBase with forces := [(0, { forceOfParams (hd 3) forcePay 9600000 with expiry := 9600000 })] } { own with origin := 0 } [0, 0]) ∧
    (∀ f, f = forceOfParams (hd 3) forcePay 9600000 → Met specForceClear (fun s h p => u16 p 0 ≠ 0xFFFF ∧ Tbl.find s.forces (u16 p 0) = some f ∧ h.origin = 0 ∧ s.now < f.expiry) forceBase { own with origin := 0 } [0, 0]) ∧
    (Met specForceList (fun _ _ p => 1 ≤ u16 p 2 ∧ u16 p 2 ≤ 64) base (hd 1) [0, 0, 0, 64]) :=
  ⟨by rintro _ rfl; unfold Met Takes; decide +kernel,
   by rintro _ rfl; unfold Met Takes; decide +kernel,
   by unfold Met Takes; decide +kernel,
   by rintro _ rfl; unfold Met Takes; decide +kernel,
   by unfold Met Takes; decide +kernel,
   by rintro _ rfl; unfold Met Takes; decide +kernel,
   by rintro _ rfl; unfold Met Takes; decide +kernel,
   by unfold Met Takes; decide +kernel⟩

theorem witness_ForceCommands_b :
    (Met specScanSetForceMax (fun _ _ p => 1 ≤ u16 p 0 ∧ u16 p 0 ≤ 1440) base (hd 5) [5, 160]) ∧
    (Met specScanSetForceMax (fun _ _ p => u16 p 0 = 0 ∨ 1440 < u16 p 0) base (hd 5) [5, 161]) ∧
    (Met specScanTaskStatus (fun _ _ p => u8 p 0 ≤ 63) base (hd 1) [63]) :=
  ⟨by unfold Met Takes; decide +kernel,
   by unfold Met Takes; decide +kernel,
   by unfold Met Takes; decide +kernel⟩

theorem witness_SafetyCommands_a :
    (Met specSafeChallenge (fun _ _ _ => True) base (hd 4) []) ∧
    (Met specSafeUnlock (fun s _ _ => s.lockedOut = true) { base with safeLockout := some 9600001 } (hd 4) (zeros 16)) ∧
    (Met specSafeLock (fun _ _ _ => True) base (hd 4) []) ∧
    (Met specSafeSetPassword (fun s h _ => (s.safePw = none ∧ h.transport = .console) ∨ (s.safePw ≠ none ∧ s.unlocked h.origin.toNat = true)) base (hd 4) (zeros 48)) ∧
    (Met specSafeSetPassword (fun s h _ => s.safePw = none ∧ h.transport ≠ .console) base { hd 4 with transport := .udp ⟨0, 0, 0, 49410⟩ } (zeros 48)) ∧
    (Met specSafeLoad (fun s h _ => s.unlocked h.origin.toNat = false) base (hd 4) (zeros 9)) ∧
    (Met specSafeLoad (fun s h p => s.unlocked h.origin.toNat = true ∧ u32 p 0 + (p.drop 8).length ≤ u32 p 4 ∧ u32 p 0 ≠ 0 ∧ u32 p 0 + (p.drop 8).length ≤ s.safeShadow.length) { base with unlocks := [(4, 9600001)], safeShadow := zeros 16 } (hd 4) (beBytes 4 8 ++ beBytes 4 16 ++ zeros 8)) ∧
    (Met specSafeCastle (fun s h p => s.safeCastleCheck h (u32 p 0) = none) { base with unlocks := [(4, 9600001)], safePw := some ([], []), safeShadow := safeTable } (hd 4) (sub safeTable 8 4)) :=
  ⟨by unfold Met Takes; decide +kernel,
   by unfold Met Takes; decide +kernel,
   by unfold Met Takes; decide +kernel,
   by unfold Met Takes; decide +kernel,
   by unfold Met Takes; decide +kernel,
   by unfold Met Takes; decide +kernel,
   by unfold Met Takes; decide +kernel,
   by unfold Met Takes; decide +kernel⟩

theorem witness_SafetyCommands_b :
    (∀ st, st = .safetyPassword → Met specSafeCastle (fun s h p => s.safeCastleCheck h (u32 p 0) = some st) base (hd 4) (zeros 4)) ∧
    (∀ named, named = (fun s p => s.instRecs.filter fun e => bit (u32 p 0) e.1 && (s.inst e.1).latched) → Met specSafeReset (fun s _ p => ∀ e ∈ named s p, s.resetReady e.1 e.2 = true) twoInst (hd 2) [128, 0, 0, 0]) ∧
    (∀ named, named = (fun s p => s.instRecs.filter fun e => bit (u32 p 0) e.1 && (s.inst e.1).latched) → Met specSafeReset (fun s _ p => (∃ e ∈ named s p, s.resetReady e.1 e.2 = true) ∧ ∃ e ∈ named s p, s.resetReady e.1 e.2 = false) twoInst (hd 2) [192, 0, 0, 0]) ∧
    (∀ named, named = (fun s p => s.instRecs.filter fun e => bit (u32 p 0) e.1 && (s.inst e.1).latched) → Met specSafeReset (fun s _ p => named s p ≠ [] ∧ ∀ e ∈ named s p, s.resetReady e.1 e.2 = false) twoInst (hd 2) [64, 0, 0, 0]) ∧
    (Met specFioClearFault (fun _ _ _ => True) base (hd 2) [0, 0, 0, 0]) :=
  ⟨by rintro _ rfl; unfold Met Takes; decide +kernel,
   by rintro _ rfl; unfold Met Takes; decide +kernel,
   by rintro _ rfl; unfold Met Takes; decide +kernel,
   by rintro _ rfl; unfold Met Takes; decide +kernel,
   by unfold Met Takes; decide +kernel⟩

theorem witness_SideCommands_a :
    (∀ a, a = .A → Met specSideHandover (fun s _ _ => s.active = some a ∧ s.inStep a.other = true ∧ s.handoverAt = none ∧ s.drill = none ∧ s.leaseConflict lkHandover = false) base (hd 5) []) ∧
    (Met specSideHandover (fun s _ _ => s.active = none) (base.modSide .A fun x => { x with role := .standby }) (hd 5) []) ∧
    (Met specSideJoin (fun s _ p => u8 p 0 ≤ 1 ∧ (s.side (sideArg p 0)).role = .out ∧ s.joinReady (sideArg p 0) = true ∧ s.guardMet (sideArg p 0) = true ∧ s.leaseConflict lkRestart = false) joinBase (hd 5) [1]) ∧
    (Met specSideJoin (fun s _ p => u8 p 0 ≤ 1 ∧ (s.side (sideArg p 0)).role ≠ .out) base (hd 5) [1]) ∧
    (Met specSideOut (fun s _ p => u8 p 0 ≤ 1 ∧ (s.side (sideArg p 0)).role ≠ .active ∧ (s.side (sideArg p 0)).role ≠ .out ∧ ((∃ l ∈ s.leases, l.kind = lkRestart ∧ l.side = (sideArg p 0).code) ∨ s.leaseConflict lkRestart = false)) base (hd 5) [1]) ∧
    (Met specSideOut (fun s _ p => u8 p 0 ≤ 1 ∧ (s.side (sideArg p 0)).role = .active) base (hd 5) [0]) ∧
    (Met specSideSetColour (fun _ _ p => u8 p 0 ≤ 1) base (hd 5) [1]) ∧
    (Met specPairHandover (fun s _ _ => s.pairInStep = true ∧ s.leaseConflict lkHandover = false) (record 0x12 0 ([0, 0, 0, 0, 0, 0, 1] ++ zeros 10) { base with pair := { PairSt.reset with role := 2 } }) (hd 5) []) :=
  ⟨by rintro _ rfl; unfold Met Takes; decide +kernel,
   by unfold Met Takes; decide +kernel,
   by unfold Met Takes; decide +kernel,
   by unfold Met Takes; decide +kernel,
   by unfold Met Takes; decide +kernel,
   by unfold Met Takes; decide +kernel,
   by unfold Met Takes; decide +kernel,
   by unfold Met Takes; decide +kernel⟩

theorem witness_SideCommands_b :
    (Met specPairHandover (fun s _ _ => s.pairInStep = false) base (hd 5) []) ∧
    (Met specArbSetHandover (fun s _ p => ∀ n < 32, bits (u64 p 0) (2 * n + 1) (2 * n) ≠ 3 ∧ (s.isSafeChannel (n + 1) = true → bits (u64 p 0) (2 * n + 1) (2 * n) = bits (s.regWord Rg.arbHandover) (2 * n + 1) (2 * n))) base (hd 3) [170, 170, 170, 170, 170, 170, 170, 170]) :=
  ⟨by unfold Met Takes; decide +kernel,
   by unfold Met Takes; decide +kernel⟩

theorem witness_TimeAndSwitchCommands_a :
    (Met specTimeUtc (fun _ _ _ => True) base own (zeros 4)) ∧
    (Met specTimeSet (fun s _ p => s.timeSetRefusal (u64 p 0) (u32 p 8) = none) base (hd 5) (beBytes 8 (2 ^ 48 - 1) ++ beBytes 4 999999999)) ∧
    (∀ st, st = .range → Met specTimeSet (fun s _ p => s.timeSetRefusal (u64 p 0) (u32 p 8) = some st) base (hd 5) (beBytes 8 (2 ^ 48) ++ beBytes 4 0)) ∧
    (Met specTimeCancelSet (fun s _ _ => s.staged ≠ none) { base with staged := some ⟨0, 0, 0⟩ } (hd 5) []) ∧
    (Met specTimeCancelSet (fun s _ _ => s.staged = none) base (hd 5) []) ∧
    (Met specTimeRead (fun _ _ _ => True) base (hd 1) []) ∧
    (Met specTimeReadTxts (fun _ _ p => portArgs p = true ∧ 1 ≤ u8 p 2 ∧ u8 p 2 ≤ 16) base (hd 1) [1, 11, 16]) ∧
    (Met specSwMirrorSet (fun s h p => u8 p 0 ≤ 3 ∧ 1 ≤ u8 p 1 ∧ u8 p 1 ≤ 3 ∧ u8 p 3 ≤ 1 ∧ u8 p 4 ≤ 63 ∧ u8 p 5 ≤ 63 ∧ 2 ≤ u32 p 8 ∧ u32 p 8 ≤ 65536 ∧ (u8 p 3 = 1 → s.ringServes h.side (u8 p 4) (u8 p 5) = true)) base (hd 5) [3, 3, 0, 0, 63, 63, 0, 0, 0, 1, 0, 0]) :=
  ⟨by unfold Met Takes; decide +kernel,
   by unfold Met Takes; decide +kernel,
   by rintro _ rfl; unfold Met Takes; decide +kernel,
   by unfold Met Takes; decide +kernel,
   by unfold Met Takes; decide +kernel,
   by unfold Met Takes; decide +kernel,
   by unfold Met Takes; decide +kernel,
   by unfold Met Takes; decide +kernel⟩

theorem witness_TimeAndSwitchCommands_b :
    (Met specSwMirrorClear (fun _ _ p => u8 p 0 ≤ 3) base (hd 5) [3]) ∧
    (Met specSwPortAdmin (fun _ _ p => 1 ≤ u8 p 0 ∧ u8 p 0 ≤ 11 ∧ u8 p 1 = 1) base (hd 3) [11, 1]) ∧
    (Met specSwPortAdmin (fun _ _ p => 1 ≤ u8 p 0 ∧ u8 p 0 ≤ 11 ∧ u8 p 1 = 0) base (hd 3) [11, 0]) ∧
    (Met specSwSetWake (fun _ _ _ => True) base (hd 5) (zeros 10)) ∧
    (Met specSwPortStatus (fun _ _ p => 7 ≤ u8 p 0 ∧ u8 p 0 ≤ 16 ∧ u8 p 1 = 0) base (hd 1) [16, 0]) ∧
    (Met specSwPortStatus (fun _ _ p => 7 ≤ u8 p 0 ∧ u8 p 0 ≤ 16 ∧ u8 p 1 = 1) base (hd 3) [16, 1]) ∧
    (Met specSwPortStatus (fun _ _ p => 1 ≤ u8 p 0 ∧ u8 p 0 ≤ 6 ∧ u8 p 1 = 0) base (hd 1) [6, 0]) :=
  ⟨by unfold Met Takes; decide +kernel,
   by unfold Met Takes; decide +kernel,
   by unfold Met Takes; decide +kernel,
   by unfold Met Takes; decide +kernel,
   by unfold Met Takes; decide +kernel,
   by unfold Met Takes; decide +kernel,
   by unfold Met Takes; decide +kernel⟩

theorem witness_MaintenanceCommands_a :
    (Met specHlRingSet (fun s h p => ringRecRange p = true ∧ s.flag (Rg.ringCfg h.side (u8 p 0)) Fd.ringCfgEnabled = false ∧ (u8 p 3 = 1 → s.ringMayEnable h.side p = true)) base (hd 5) ([63, 3, 62, 0, 16] ++ zeros 3 ++ [0, 15, 255, 255] ++ zeros 12)) ∧
    (Met specHlRingSet (fun s h p => ringRecRange p = true ∧ s.flag (Rg.ringCfg h.side (u8 p 0)) Fd.ringCfgEnabled = true ∧ s.ringSame h.side p = false) (ringOf 63 3 62 base) (hd 5) ([63, 3, 62, 0, 16] ++ zeros 3 ++ [0, 15, 255, 255] ++ zeros 12)) ∧
    (Met specHlRingReset (fun _ _ p => u8 p 0 ≤ 63) base (hd 5) [63]) ∧
    (Met specKeyErase (fun s _ p => u8 p 0 ≤ 63 ∧ s.slotFlag s.speaker (u8 p 0) Fd.keySlotValid = true ∧ s.requiredSlot (u8 p 0) = false ∧ s.unwrapSlots s.speaker ≠ [u8 p 0] ∧ s.slotNamed (u8 p 0) = false) (base.setFlag (Rg.keySlot .A 63) Fd.keySlotValid true) (hd 5) [63]) ∧
    (Met specUpdBegin (fun s _ p => u8 p 0 ≤ 1 ∧ 224 ≤ u32 p 1 ∧ u32 p 1 ≤ 33554432 ∧ s.updating = false ∧ s.nor (sideArg p 0).other = norProven ∧ s.computes (sideArg p 0).other = true ∧ s.leaseConflict lkUpdate = false) base (hd 6) [1, 2, 0, 0, 0]) ∧
    (Met specUpdWrite (fun s _ p => s.storing = true ∧ u32 p 0 + (p.drop 8).length ≤ s.update.length ∧ crc32c (p.drop 8) = u32 p 4) updBase (hd 6) (zeros 4 ++ beBytes 4 (crc32c [1]) ++ [1])) ∧
    (Met specUpdWriteRing (fun s h p => s.fromHostOf0 h.side (u8 p 0) = true ∧ s.storing = true ∧ u24 p 1 = 0 ∧ u32 p 8 ≠ 0 ∧ u32 p 4 + u32 p 8 ≤ s.update.length) (ringOf 3 2 0 updBase) (hd 6) [3, 0, 0, 0, 0, 0, 0, 0, 0, 0, 0, 224]) ∧
    (Met specUpdSchedule (fun s _ p => 30 ≤ u16 p 8 ∧ u16 p 8 ≤ 600 ∧ u8 p 12 ≤ 1 ∧ u64 p 0 < 2 ^ 48 ∧ (s.update.phase = upStoring ∨ s.update.phase = upScheduled) ∧ s.nor s.update.first = norStored ∧ s.now / 4800 + 1 < u64 p 0 ∧ (∀ l ∈ s.leases, l.kind ≠ lkPairUpdate)) (updBase.wr (Rg.norState .A) Fd.norStateState 2) (hd 6) (beBytes 8 2002 ++ beBytes 2 30 ++ beBytes 2 65535 ++ [1])) :=
  ⟨by unfold Met Takes; decide +kernel,
   by unfold Met Takes; decide +kernel,
   by unfold Met Takes; decide +kernel,
   by unfold Met Takes; decide +kernel,
   by unfold Met Takes; decide +kernel,
   by unfold Met Takes; decide +kernel,
   by unfold Met Takes; decide +kernel,
   by unfold Met Takes; decide +kernel⟩

theorem witness_MaintenanceCommands_b :
    (Met specUpdSchedule (fun s _ p => 30 ≤ u16 p 8 ∧ u16 p 8 ≤ 600 ∧ u8 p 12 ≤ 1 ∧ u64 p 0 < 2 ^ 48 ∧ (s.update.phase = upStoring ∨ s.update.phase = upScheduled) ∧ s.nor s.update.first = norStored ∧ u64 p 0 ≤ s.now / 4800 + 1) (updBase.wr (Rg.norState .A) Fd.norStateState 2) (hd 6) (beBytes 8 2001 ++ beBytes 2 600 ++ beBytes 2 0 ++ [0])) ∧
    (Met specUpdAuthoriseOutage (fun s _ p => s.update.phase = upScheduled ∧ s.update.outage = true ∧ s.update.atSecond = u64 p 0 ∧ s.now / 4800 + 1 ≤ s.update.atSecond ∧ s.update.atSecond ≤ s.now / 4800 + 3600) { base with update := { UpdSt.reset with phase := 2, outage := true, atSecond := 5600 } } (hd 5) (beBytes 8 5600)) ∧
    (Met specUpdCancel (fun s _ _ => s.update.phase = upStoring ∨ s.update.phase = upScheduled) updBase (hd 6) []) ∧
    (Met specHealthDeepTest (fun s _ p => u8 p 0 ≤ 1 ∧ s.inStep (sideArg p 0) = true ∧ s.leaseConflict lkDeepTest = false) base (hd 5) [1]) ∧
    (∀ sd : Bytes → SideId, sd = (fun p => if partDomain (u32 p 0) = 1 then .B else .A) → Met specHealthTestUnit (fun s _ p => partKnown (u32 p 0) = true ∧ s.flag (Rg.healthTest (sd p)) Fd.healthTestRotationOn = false) (base.setFlag (Rg.healthTest .A) Fd.healthTestRotationOn false) (hd 3) [96, 255, 96, 128]) ∧
    (Met specPowerRestart (fun s _ p => u8 p 0 = 0 ∧ s.restartBarred = false) base (hd 5) [0]) ∧
    (Met specPowerRestart (fun s _ p => u8 p 0 = 0 ∧ s.restartBarred = true) (leased 3 base) (hd 5) [0]) ∧
    (Met specPowerPark (fun s _ _ => s.restartBarred = false) base (hd 5) []) :=
  ⟨by unfold Met Takes; decide +kernel,
   by unfold Met Takes; decide +kernel,
   by unfold Met Takes; decide +kernel,
   by unfold Met Takes; decide +kernel,
   by rintro _ rfl; unfold Met Takes; decide +kernel,
   by unfold Met Takes; decide +kernel,
   by unfold Met Takes; decide +kernel,
   by unfold Met Takes; decide +kernel⟩

theorem witness_MaintenanceCommands_c :
    (Met specServiceGo (fun s _ _ => s.gateOpen = false ∧ s.active ≠ none) base (hd 5) []) ∧
    (Met specServiceGo (fun s _ _ => s.gateOpen = true) (base.setFlag (Rg.powerStatus .A) Fd.powerStatusGateOpen true) (hd 5) []) :=
  ⟨by unfold Met Takes; decide +kernel,
   by unfold Met Takes; decide +kernel⟩

theorem witness_TickAndBell_Commands :
    (Met specReadTick (fun _ _ _ => True) base (hd 1) []) ∧
    (∀ b, b = [1] → Met specReadBell (fun s h p => (s.duty h.side).bells.find? (fun e => e.1 == u64 p 0) = some (u64 p 0, b)) (base.modDuty .A fun d => { d with bells := [(9599999, [1])] }) (hd 1) (beBytes 8 9599999)) ∧
    (Met specReadBell (fun s h p => (s.duty h.side).bells.find? (fun e => e.1 == u64 p 0) = none) base (hd 1) (beBytes 8 9599999)) ∧
    (Met specReadDigests (fun s h p => u64 p 0 < s.now ∧ s.now ≤ u64 p 0 + 16 ∧ (s.side h.side.other).role ≠ .out) base (hd 1) (beBytes 8 9599984)) ∧
    (Met specSetSealDelay (fun _ _ p => (fun p => decide (1 ≤ u8 p 0 ∧ u8 p 0 ≤ 24)) p = true) base (hd 3) [24]) ∧
    (Met specSetSealDelay (fun _ _ p => (fun p => decide (1 ≤ u8 p 0 ∧ u8 p 0 ≤ 24)) p = false) base (hd 3) [25]) :=
  ⟨by unfold Met Takes; decide +kernel,
   by rintro _ rfl; unfold Met Takes; decide +kernel,
   by unfold Met Takes; decide +kernel,
   by unfold Met Takes; decide +kernel,
   by unfold Met Takes; decide +kernel,
   by unfold Met Takes; decide +kernel⟩

theorem ok_of {α ε : Type} {x : Except ε α} {a : α} (h : x.toOption = some a) : x = .ok a := by
  cases x <;> simp_all [Except.toOption]

theorem error_of {α ε : Type} {x : Except ε α} {e : ε} (h : (match x with | .error e => some e | .ok _ => none) = some e) : x = .error e := by
  cases x <;> simp_all

/-- A wrapped 16-byte key for slot 63 under the key of slot 0. -/
def wrappedKey : Bytes := [63, 1, 1] ++ zeros 16 ++ [1, 0, 24] ++ zeros 2 ++
  [228, 188, 198, 232, 224, 39, 33, 72, 81, 185, 228, 93, 14, 191, 178, 130, 206, 58, 123, 194, 179, 123, 250, 106]

theorem witness_KeyImport :
    (∃ key, Met specKeyImport (fun s _ p => s.importCheck s.speaker p = .ok key) base (hd 5) wrappedKey) ∧
    Met specKeyImport (fun s _ p => s.importCheck s.speaker p = .error .range) base (hd 5) (zeros 24) :=
  ⟨⟨(List.range 16).map (BitVec.ofNat 8), by unfold Takes; decide +kernel, ok_of (by decide +kernel)⟩,
    by unfold Takes; decide +kernel, error_of (by decide +kernel)⟩

def pwBase : State := { base with safePw := some (zeros 16, zeros 32), nonces := [(4, (zeros 16, 9600001))] }

theorem witness_SafeUnlock : ∀ salt v nonce expiry, salt = zeros 16 → v = zeros 32 → nonce = zeros 16 → expiry = 9600001 →
    Met specSafeUnlock (fun s h p => s.lockedOut = false ∧ s.safePw = some (salt, v) ∧ Tbl.find s.nonces h.origin.toNat = some (nonce, expiry) ∧
      s.now < expiry ∧ safeProof v nonce h.origin.toNat = p) pwBase (hd 4) (safeProof (zeros 32) (zeros 16) 4) := by
  rintro _ _ _ _ rfl rfl rfl rfl; unfold Met Takes; decide +kernel

def signed : State := (base.modSide .A fun x => { x with image := [0, 0, 0, 2], stored := [0, 0, 0, 2] }).modSide .B fun x =>
  { x with image := [0, 0, 0, 2], stored := [0, 0, 0, 2] }

/-- Which signer keys a chip holds is its own; with two of them, one may be revoked. -/
theorem witness_KeyRevokeSigner (h0 : Config.signerPresent .A 3 = true) (h1 : Config.signerPresent .A 0 = true) :
    Met specKeyRevokeSigner (fun s _ p => u8 p 0 ≤ 3 ∧ Config.signerPresent s.speaker (u8 p 0) = true ∧
      (∀ d, imageKeyId (s.side d).image ≠ u8 p 0 ∧ imageKeyId (s.side d).stored ≠ u8 p 0) ∧
      ∃ j < 4, j ≠ u8 p 0 ∧ Config.signerPresent s.speaker j = true ∧ s.revoked s.speaker j = false) signed (hd 5) [3] :=
  ⟨by unfold Takes; decide +kernel, by decide, h0, by rintro (_ | _) <;> decide +kernel, 0, by decide, by decide, h1, by decide +kernel⟩

theorem witness_RegModify (sel : Access → Bool) (h : ∀ a, sel a = true ↔ a = .rw) :
    Met specRegModify (fun s h p => shapeCheck (u32 p 0) 4 1 = none ∧ ∃ q, placeOf (u32 p 0) = some q ∧ s.reachCheck h.side q = none ∧
        arbiterBlock (u32 p 0) = false ∧ hasAccess q.desc isWritable = true ∧
        u32 p 4 &&& (q.desc.mask sel / 2 ^ (32 * q.word) % 2 ^ 32) = u32 p 4) base (hd 3) ([0, 8, 0, 32, 0, 0, 255, 255] ++ zeros 4) := by
  obtain rfl : sel = fun a => decide (a = .rw) := by
    funext a
    by_cases e : a = .rw
    · subst e; simp [(h .rw).2 rfl]
    · simp [e, Bool.eq_false_iff.2 fun x => e ((h a).1 x)]
  exact ⟨by unfold Takes; decide +kernel, by decide +kernel, (placeOf 0x80020).get (by decide +kernel),
    by rw [Option.some_get]; exact congrArg placeOf (by decide +kernel), by decide +kernel, by decide +kernel, by decide +kernel, by decide +kernel⟩

/-! ## Ill-formed commands

One term for each check of WellFormed.lean; the check refuses it, and takes its neighbour at the bound. -/

theorem test_wf_header :
    hdrWf { hd 1 with stall := 64 } = false ∧ hdrWf { hd 1 with stall := 63 } = true ∧
    hdrWf { hd 1 with replyMax := 47 } = false ∧ hdrWf { hd 1 with replyMax := 9217 } = false ∧ hdrWf { hd 1 with replyMax := 48 } = true ∧
    Instr.wf (.echo (hd 1) (zeros 1009)) = false ∧ Instr.wf (.echo (hd 1) (zeros 1008)) = true ∧
    Instr.wf (.crierNote (hd 1) 0 0 (zeros 257)) = false ∧ Instr.wf (.registerWrite (hd 1) 0 3 0) = false ∧
    Instr.wf (.registerRead .A (.bar0 0) 0) = false := by decide +kernel

theorem test_wf_instants :
    Instr.wf (.arbTickPulse .A 208334) = false ∧ Instr.wf (.arbTickPulse .A 208333) = true ∧
    Instr.wf (.powerGood false (some (0, 1000000000)) none) = false ∧
    Instr.wf (.timeNsRead .A true 0 1000000000 0) = false := by decide +kernel

theorem test_wf_frames :
    Instr.wf (.svFrameIntake .A .A { svFrame with noAsdu := 2 } 0) = false ∧
    ethWf { frame 1 64 with head := zeros 65 } = false ∧ ethWf { frame 1 64 with head := zeros 59 } = false ∧ ethWf (frame 1 64) = true ∧
    ethWf { frame 1 200 with head := zeros 127 } = false ∧
    gooseWf { goose with length := 9217 } = false ∧ gooseWf { goose with length := 9216 } = true ∧
    canWf { canFrame with data := zeros 9 } = false ∧ canWf { canFrame with fdf := true, data := zeros 65 } = false ∧
    canWf { canFrame with id := 2048 } = false ∧ canWf { canFrame with fdf := true, rtr := true } = false ∧
    canWf { canFrame with brs := true } = false ∧ canWf { canFrame with esi := true } = false ∧ canWf canFrame = true ∧
    Instr.wf (.commandPacket .A .console 0 false (zeros 9217)) = false := by decide +kernel

theorem test_wf_telegram : Instr.wf (.telegramReceive .A .A { teleFrame 1 with payload := zeros 1501 }) = false := by decide +kernel

theorem test_wf_hyrra :
    Instr.wf (.shli core 1 1 32) = false ∧ Instr.wf (.shli core 1 1 31) = true ∧ Instr.wf (.vsum core .inp 7 1 1 1) = false := by decide +kernel

end Sys2Proof.Tests
end

section
/-! PROOFS. The host link (R377 to R387, R414, R415): what a register field reads after a write, what the Porter's rings, the MSI-X
table and HL_ERR keep, and what each row of the host does. -/

namespace Sys2Proof.Machine

/-! ### Fields of a register -/

/-- A field that lies in the 64 bits of a register pair is not touched by the cut to 64 bits. -/
theorem bits_mod_word (v hi lo : Nat) (hl : lo ≤ hi) (hh : hi < 64) : bits (v % 2 ^ 64) hi lo = bits v hi lo := by
  have e : 2 ^ 64 = 2 ^ lo * (2 ^ (hi - lo + 1) * 2 ^ (63 - hi)) := by
    rw [← Nat.pow_add, ← Nat.pow_add]; congr 1; omega
  unfold bits
  rw [e, Nat.mod_mul_right_div_self, Nat.mod_mul_right_mod]

/-- What a field reads after its register has been stored. -/
theorem State.rd_putReg_same (s : State) (r : Reg) (v : Nat) (f : Fld) (hl : f.lo ≤ f.hi) (hh : f.hi < 64) :
    (s.putReg r v).rd r f = bits v f.hi f.lo := by
  rw [State.rd, State.regWord_putReg_same, bits_mod_word v f.hi f.lo hl hh]

theorem State.rd_putReg_other (s : State) {r q : Reg} (v : Nat) (f : Fld) (h : q.key ≠ r.key) :
    (s.putReg r v).rd q f = s.rd q f := by
  rw [State.rd, State.regWord_putReg_other s v h, State.rd]

/-- A field written is read back, cut to its width. -/
theorem State.rd_wr_same (s : State) (r : Reg) (f : Fld) (v : Nat) (hl : f.lo ≤ f.hi) (hh : f.hi < 64) :
    (s.wr r f v).rd r f = v % 2 ^ (f.hi - f.lo + 1) := by
  rw [State.wr_eq, State.rd_putReg_same _ _ _ _ hl hh, bits_setBits_same _ _ _ _ hl]

/-- Writing a field leaves the other fields of its register. -/
theorem State.rd_wr_apart (s : State) (r : Reg) (f g : Fld) (v : Nat) (hf : f.lo ≤ f.hi) (hg : g.lo ≤ g.hi) (hh : g.hi < 64)
    (ha : g.hi < f.lo ∨ f.hi < g.lo) : (s.wr r f v).rd r g = s.rd r g := by
  rw [State.wr_eq, State.rd_putReg_same _ _ _ _ hg hh, State.rd]
  rcases ha with below | above
  · exact bits_setBits_below _ _ _ _ _ _ hf below hg
  · exact bits_setBits_above _ _ _ _ _ _ hf above

theorem State.rd_wr_other (s : State) {r q : Reg} (f g : Fld) (v : Nat) (h : q.key ≠ r.key) :
    (s.wr r f v).rd q g = s.rd q g := s.rd_putReg_other _ g h

/-- A flag written is read back. -/
theorem State.flag_setFlag_same (s : State) (r : Reg) (f : Fld) (b : Bool) (hf : f.hi = f.lo) (hh : f.hi < 64) :
    (s.setFlag r f b).flag r f = b := by
  rw [State.flag, State.setFlag_eq, s.rd_wr_same r f _ hf.ge hh, hf, Nat.sub_self]
  cases b <;> rfl

/-- Writing a field leaves the flags of its register elsewhere. -/
theorem State.flag_wr_apart (s : State) (r : Reg) (f g : Fld) (v : Nat) (hf : f.lo ≤ f.hi) (hg : g.lo ≤ g.hi) (hh : g.hi < 64)
    (ha : g.hi < f.lo ∨ f.hi < g.lo) : (s.wr r f v).flag r g = s.flag r g := by
  rw [State.flag, s.rd_wr_apart r f g v hf hg hh ha, State.flag]

theorem State.flag_setFlag_apart (s : State) (r : Reg) (f g : Fld) (b : Bool) (hf : f.lo ≤ f.hi) (hg : g.lo ≤ g.hi) (hh : g.hi < 64)
    (ha : g.hi < f.lo ∨ f.hi < g.lo) : (s.setFlag r f b).flag r g = s.flag r g := s.flag_wr_apart r f g _ hf hg hh ha

theorem State.rd_setFlag_apart (s : State) (r : Reg) (f g : Fld) (b : Bool) (hf : f.lo ≤ f.hi) (hg : g.lo ≤ g.hi) (hh : g.hi < 64)
    (ha : g.hi < f.lo ∨ f.hi < g.lo) : (s.setFlag r f b).rd r g = s.rd r g := s.rd_wr_apart r f g _ hf hg hh ha

theorem State.flag_putReg_other (s : State) {r q : Reg} (v : Nat) (f : Fld) (h : q.key ≠ r.key) :
    (s.putReg r v).flag q f = s.flag q f := by
  rw [State.flag, s.rd_putReg_other v f h, State.flag]

/-- What a register's fields read depends on the stored words alone. -/
theorem State.rd_congr {s t : State} (h : t.regs = s.regs) (r : Reg) (f : Fld) : t.rd r f = s.rd r f := by
  simp only [State.rd, State.regWord, h]

theorem State.flag_congr {s t : State} (h : t.regs = s.regs) (r : Reg) (f : Fld) : t.flag r f = s.flag r f := by
  rw [State.flag, State.rd_congr h, State.flag]

/-- RING_CFG and RING_PTR of a ring are two registers. -/
theorem ringCfg_key_ne_ringPtr (sd : SideId) (r : Nat) : (Rg.ringCfg sd r).key ≠ (Rg.ringPtr sd r).key := by
  simp only [Rg.ringCfg, Rg.ringPtr]; omega

theorem hlErr_key_ne_hlErrAddr (sd : SideId) : (Rg.hlErr sd).key ≠ (Rg.hlErrAddr sd).key := by
  simp only [Rg.hlErr, Rg.hlErrAddr]; omega

/-! ### MSI-X (R378, R380) -/

/-- A vector that is not masked leaves at once. -/
theorem State.raiseMsix_open (s : State) (sd : SideId) (v : Nat) (h : bit (s.msixWord sd v 3) 0 = false) :
    s.raiseMsix sd v = s.emit (.msix sd v) := by
  simp [State.raiseMsix_eq, h]

/-- Behind its mask bit a vector sends nothing, and its message waits. -/
theorem State.raiseMsix_masked (s : State) (sd : SideId) (v : Nat) (h : bit (s.msixWord sd v 3) 0 = true) :
    (s.raiseMsix sd v).out = s.out ∧ v ∈ ((s.raiseMsix sd v).side sd).msix.waits := by
  rw [State.raiseMsix_eq]
  by_cases hw : v ∈ (s.side sd).msix.waits <;> simp [h, hw]

@[simp] theorem State.raiseMsix_regs (s : State) (sd : SideId) (v : Nat) : (s.raiseMsix sd v).regs = s.regs := by
  rw [State.raiseMsix_eq]
  split
  · rfl
  · split <;> simp

/-- A word written to the MSI-X table is kept, whether or not a waiting message leaves with it. -/
theorem State.msixWrite_table (s : State) (sd : SideId) (i v : Nat) :
    Tbl.find ((s.msixWrite sd i v).side sd).msix.table i = some v := by
  simp only [State.msixWrite]
  split <;> simp

/-! ### The record of a ring -/

@[simp] theorem State.ring_putRing (s : State) (sd : SideId) (r : Nat) (x : RingSt) : (s.putRing sd r x).ring sd r = x := by
  simp [State.ring, State.putRing]

@[simp] theorem State.putRing_regs (s : State) (sd : SideId) (r : Nat) (x : RingSt) : (s.putRing sd r x).regs = s.regs := by
  simp [State.putRing]

@[simp] theorem State.putRing_out (s : State) (sd : SideId) (r : Nat) (x : RingSt) : (s.putRing sd r x).out = s.out := by
  simp [State.putRing]

@[simp] theorem State.rd_putRing (s : State) (sd : SideId) (i : Nat) (x : RingSt) (r : Reg) (f : Fld) :
    (s.putRing sd i x).rd r f = s.rd r f := State.rd_congr (by simp) r f

@[simp] theorem State.flag_putRing (s : State) (sd : SideId) (i : Nat) (x : RingSt) (r : Reg) (f : Fld) :
    (s.putRing sd i x).flag r f = s.flag r f := State.flag_congr (by simp) r f

@[simp] theorem State.ring_putReg (s : State) (q : Reg) (v : Nat) (sd : SideId) (r : Nat) : (s.putReg q v).ring sd r = s.ring sd r := by
  simp [State.ring]

@[simp] theorem State.ring_wr (s : State) (q : Reg) (f : Fld) (v : Nat) (sd : SideId) (r : Nat) : (s.wr q f v).ring sd r = s.ring sd r :=
  s.ring_putReg q _ sd r

@[simp] theorem State.ring_raiseMsix (s : State) (sd : SideId) (v r : Nat) : (s.raiseMsix sd v).ring sd r = s.ring sd r := by
  rw [State.raiseMsix_eq]
  split
  · simp [State.ring]
  · split <;> simp [State.ring]

/-- A ring's interrupt changes no register. -/
@[simp] theorem State.ringIrq_regs (s : State) (sd : SideId) (r : Nat) : (s.ringIrq sd r).regs = s.regs := by
  simp only [State.ringIrq]
  split
  · simp
  · split <;> simp

/-- A ring's interrupt touches neither the descriptors nor the count of completions. -/
theorem State.ringIrq_ring (s : State) (sd : SideId) (r : Nat) :
    ((s.ringIrq sd r).ring sd r).descs = (s.ring sd r).descs ∧ ((s.ringIrq sd r).ring sd r).seq = (s.ring sd r).seq := by
  simp only [State.ringIrq]
  split
  · simp
  · split <;> simp

@[simp] theorem State.rd_ringIrq (s : State) (sd : SideId) (i : Nat) (r : Reg) (f : Fld) : (s.ringIrq sd i).rd r f = s.rd r f :=
  State.rd_congr (by simp) r f

@[simp] theorem State.flag_ringIrq (s : State) (sd : SideId) (i : Nat) (r : Reg) (f : Fld) : (s.ringIrq sd i).flag r f = s.flag r f :=
  State.flag_congr (by simp) r f

/-- A completion takes the descriptor at HEAD and counts it (R383). -/
theorem State.completeHead_ring (s : State) (sd : SideId) (r used code : Nat) {d : Descriptor} {l : List Descriptor}
    (h : (s.ring sd r).descs = d :: l) :
    ((s.completeHead sd r used code).ring sd r).descs = l ∧
      ((s.completeHead sd r used code).ring sd r).seq = (s.ring sd r).seq + 1 := by
  simp only [State.completeHead, h]
  split
  · refine (State.ringIrq_ring _ sd r).imp (·.trans ?_) (·.trans ?_) <;> simp [State.tick1, State.count]
  · simp [State.tick1, State.count]

/-! ### Too short descriptors (R383) -/

/-- A TO_HOST ring whose first descriptor is long enough stands as it is. -/
theorem State.settleRing_long (s : State) (sd : SideId) (r : Nat) {d : Descriptor} {l : List Descriptor}
    (hk : s.rd (Rg.ringCfg sd r) Fd.ringCfgKind = 1) (hr : s.ringRuns sd r = true) (hu : (s.ring sd r).used = 0)
    (hd : (s.ring sd r).descs = d :: l) (hlen : 8192 ≤ d.len) : s.settleRing sd r = s := by
  simp [State.settleRing, State.skipShort, hk, hr, hu, hd, Nat.not_lt.2 hlen]

/-- A TO_HOST ring completes its only descriptor with SHORT_BUF when it is too short. -/
theorem State.settleRing_short (s : State) (sd : SideId) (r : Nat) {d : Descriptor}
    (hk : s.rd (Rg.ringCfg sd r) Fd.ringCfgKind = 1) (hr : s.ringRuns sd r = true) (hu : (s.ring sd r).used = 0)
    (hd : (s.ring sd r).descs = [d]) (hlen : d.len < 8192) : s.settleRing sd r = s.completeHead sd r 0 1 := by
  simp [State.settleRing, State.skipShort, hk, hr, hu, hd, hlen]

/-- A FROM_HOST ring has no least length. -/
theorem State.settleRing_fromHost (s : State) (sd : SideId) (r : Nat) (hk : s.rd (Rg.ringCfg sd r) Fd.ringCfgKind = 2) :
    s.settleRing sd r = s := by
  simp [State.settleRing, hk]

/-! ### Doorbells, stops, resets (R382, R384, R386) -/

/-- A stopped ring shows ERR with its cause, and runs no more. -/
theorem State.ringStop_shows (s : State) (sd : SideId) (r cause : Nat) (h : cause < 4) :
    (s.ringStop sd r cause).flag (Rg.ringCfg sd r) Fd.ringCfgErr = true ∧
      (s.ringStop sd r cause).rd (Rg.ringCfg sd r) Fd.ringCfgErrCause = cause ∧ (s.ringStop sd r cause).ringRuns sd r = false := by
  have herr : (s.ringStop sd r cause).flag (Rg.ringCfg sd r) Fd.ringCfgErr = true := by
    simp (disch := decide) [State.ringStop, State.flag_wr_apart, State.flag_setFlag_same]
  refine ⟨herr, ?_, by simp [State.ringRuns, herr]⟩
  rw [State.ringStop, State.rd_ringIrq, State.rd_putRing, State.rd_wr_same _ _ _ _ (by decide) (by decide)]
  exact Nat.mod_eq_of_lt h

/-- A ring that does not run takes no doorbell. -/
theorem State.doorbell_idle (s : State) (sd : SideId) (r tail : Nat) (filled : List Descriptor) (h : s.ringRuns sd r = false) :
    s.doorbell sd r tail filled = s := by
  simp [State.doorbell, h]

section Doorbell

variable (s : State) (sd : SideId) (r tail : Nat) (filled : List Descriptor) {n head old : Nat} (hr : s.ringRuns sd r = true)
  (hn : n = s.ringSize sd r) (hh : head = s.rd (Rg.ringPtr sd r) Fd.ringPtrHead) (ho : old = s.rd (Rg.ringPtr sd r) Fd.ringPtrTail)

include hr hn hh ho

/-- A TAIL outside the ring, or past the descriptors that the host may hand over, stops the ring (R384). -/
theorem State.doorbell_error (h : n ≤ tail ∨ n ≤ (old + n - head) % n + (tail + n - old) % n) :
    s.doorbell sd r tail filled = s.ringStop sd r 1 := by
  subst hn hh ho
  simp only [State.doorbell, if_pos hr, if_pos h]

/-- A TAIL that the ring has room for hands its descriptors over, and those too short complete (R382, R383). -/
theorem State.doorbell_taken (ht : tail < n) (h : (old + n - head) % n + (tail + n - old) % n < n) :
    s.doorbell sd r tail filled = (((s.wr (Rg.ringPtr sd r) Fd.ringPtrTail tail).putRing sd r
      { s.ring sd r with descs := (s.ring sd r).descs ++
        (upto ((tail + n - old) % n)).map fun i => filled.getD i ⟨0, 0, false, []⟩ }).settleRing sd r) := by
  subst hn hh ho
  simp only [State.doorbell, if_pos hr, if_neg (not_or.2 ⟨Nat.not_le.2 ht, Nat.not_le.2 h⟩)]

end Doorbell

/-- A reset ring is disabled and shows no ERR, its HEAD and TAIL are 0, it holds nothing, and nothing leaves the module (R386). -/
theorem State.ringClear_shows (s : State) (sd : SideId) (r : Nat) :
    (s.ringClear sd r).flag (Rg.ringCfg sd r) Fd.ringCfgEnabled = false ∧
      (s.ringClear sd r).flag (Rg.ringCfg sd r) Fd.ringCfgErr = false ∧
      (s.ringClear sd r).rd (Rg.ringPtr sd r) Fd.ringPtrHead = 0 ∧ (s.ringClear sd r).rd (Rg.ringPtr sd r) Fd.ringPtrTail = 0 ∧
      (s.ringClear sd r).ring sd r = RingSt.empty ∧ (s.ringClear sd r).out = s.out := by
  have hne := ringCfg_key_ne_ringPtr sd r
  refine ⟨?_, ?_, ?_, ?_, ?_, ?_⟩
  · simp (disch := decide) [State.ringClear, State.flag_putReg_other _ _ _ hne, State.flag_wr_apart, State.flag_setFlag_apart,
      State.flag_setFlag_same]
  · simp (disch := decide) [State.ringClear, State.flag_putReg_other _ _ _ hne, State.flag_wr_apart, State.flag_setFlag_apart,
      State.flag_setFlag_same]
  · simp (disch := decide) [State.ringClear, State.rd_putReg_same, bits]
  · simp (disch := decide) [State.ringClear, State.rd_putReg_same, bits]
  · simp [State.ringClear]
  · simp [State.ringClear, State.setFlag_eq, State.wr_eq]

/-! ### Mailboxes and the end of waiting (R380, R383, R385) -/

/-- The Porter reads a mailbox only while the module hears, the ring runs as a mailbox and a descriptor waits. -/
theorem State.mailboxCommand_idle (s : State) (sd : SideId) (r : Fin 64)
    (h : s.hears = false ∨ s.ringRuns sd r.val = false ∨ s.rd (Rg.ringCfg sd r.val) Fd.ringCfgKind ≠ 3 ∨
      (s.ring sd r.val).descs[(s.ring sd r.val).flight.length]? = none) : s.mailboxCommand sd r = s := by
  unfold State.mailboxCommand
  rcases h with h | h | h | h
  · simp [h]
  · simp [h]
  · simp [h]
  · simp only [h, ite_self]

/-- The packet of the next descriptor is read, takes the next number of its side and joins the queue. -/
theorem State.mailboxCommand_read (s : State) (sd : SideId) (r : Fin 64) {d : Descriptor} {b : Bytes} {h : CmdHdr} {n : Nat}
    (hh : s.hears = true) (hr : s.ringRuns sd r.val = true) (hk : s.rd (Rg.ringCfg sd r.val) Fd.ringCfgKind = 3)
    (hn : n = (s.side sd).mailSeq) (hd : (s.ring sd r.val).descs[(s.ring sd r.val).flight.length]? = some d) (hlen : 9216 ≤ d.len)
    (hb : b = d.buffer.take (max 32 (pkLength d.buffer))) (hp : h = pkHdr sd (.mailbox n) r b) :
    s.mailboxCommand sd r = ((((s.putRing sd r.val { s.ring sd r.val with
      flight := (s.ring sd r.val).flight ++ [(n, none)] }).modSide sd fun x => { x with mailSeq := n + 1 }).movedBytes sd
        b.length).queuePacket h b) := by
  subst hn hb hp
  simp [State.mailboxCommand, hh, hr, hk, hd, Nat.not_lt.2 hlen]

/-- One tick after its first record a buffer in progress is completed. -/
theorem State.ringTimeout_due (s : State) (sd : SideId) (r : Nat) (hr : s.ringRuns sd r = true)
    (hk : s.rd (Rg.ringCfg sd r) Fd.ringCfgKind = 1) (hu : (s.ring sd r).used ≠ 0) (hf : (s.ring sd r).first < s.now) :
    s.ringTimeout sd r = (s.completeHead sd r (s.ring sd r).used 0).settleRing sd r := by
  simp [State.ringTimeout, hr, hk, hu, hf]

theorem State.ringTimeout_idle (s : State) (sd : SideId) (r : Nat) (h : (s.ring sd r).used = 0 ∨ s.now ≤ (s.ring sd r).first) :
    s.ringTimeout sd r = s := by
  rcases h with h | h
  · simp [State.ringTimeout, h]
  · simp [State.ringTimeout, Nat.not_lt.2 h]

/-- Without a holdoff nothing ends. -/
theorem State.holdoffEnd_idle (s : State) (sd : SideId) (r : Nat) (h : (s.ring sd r).holdoff = false) : s.holdoffEnd sd r = s := by
  simp [State.holdoffEnd, h]

/-- A holdoff in which nothing waited ends silently. -/
theorem State.holdoffEnd_silent (s : State) (sd : SideId) (r : Nat) (h : (s.ring sd r).holdoff = true)
    (hw : (s.ring sd r).irqWaits = false) : s.holdoffEnd sd r = s.putRing sd r { s.ring sd r with holdoff := false } := by
  simp [State.holdoffEnd, h, hw]

/-- What waited in a holdoff is signalled by one message, and the next holdoff runs. -/
theorem State.holdoffEnd_signals (s : State) (sd : SideId) (r : Nat) (h : (s.ring sd r).holdoff = true)
    (hw : (s.ring sd r).irqWaits = true) :
    s.holdoffEnd sd r = (s.putRing sd r { s.ring sd r with irqWaits := false }).raiseMsix sd r := by
  simp [State.holdoffEnd, h, hw]

/-! ### The link and HL_ERR (R377, R378, R387) -/

/-- A link that comes up shows its generation, its width and BUS_MASTER. -/
theorem State.linkUp_shows (s : State) (sd : SideId) (gen width : BitVec 3) (bm : Bool) :
    (s.linkUp sd gen.toNat width.toNat bm).flag (Rg.hlStatus sd) Fd.hlStatusLinkUp = true ∧
      (s.linkUp sd gen.toNat width.toNat bm).rd (Rg.hlStatus sd) Fd.hlStatusGen = gen.toNat ∧
      (s.linkUp sd gen.toNat width.toNat bm).rd (Rg.hlStatus sd) Fd.hlStatusWidth = width.toNat ∧
      (s.linkUp sd gen.toNat width.toNat bm).flag (Rg.hlStatus sd) Fd.hlStatusBusMaster = bm := by
  refine ⟨?_, ?_, ?_, ?_⟩
  · simp (disch := decide) [State.linkUp, State.flag_wr_apart, State.flag_setFlag_apart, State.flag_setFlag_same]
  · simp (disch := decide) only [State.linkUp, State.rd_setFlag_apart, State.rd_wr_apart, State.rd_wr_same]
    exact Nat.mod_eq_of_lt gen.isLt
  · simp (disch := decide) only [State.linkUp, State.rd_setFlag_apart, State.rd_wr_same]
    exact Nat.mod_eq_of_lt width.isLt
  · exact State.flag_setFlag_same _ _ _ _ rfl (by decide)

/-- HL_ERR keeps the first refused access. -/
theorem State.hlError_kept (s : State) (sd : SideId) (off : Nat) (st : Status) (h : s.flag (Rg.hlErr sd) Fd.hlErrValid = true) :
    s.hlError sd off st = s := by
  simp [State.hlError, h]

theorem Status.code_lt (st : Status) : st.code < 2 ^ 16 := by cases st <;> decide

/-- A refused access is recorded with its status. -/
theorem State.hlError_recorded (s : State) (sd : SideId) (off : Nat) (st : Status) (h : s.flag (Rg.hlErr sd) Fd.hlErrValid = false) :
    (s.hlError sd off st).flag (Rg.hlErr sd) Fd.hlErrValid = true ∧ (s.hlError sd off st).rd (Rg.hlErr sd) Fd.hlErrStatus = st.code := by
  have hne := hlErr_key_ne_hlErrAddr sd
  simp only [State.hlError, h, Bool.false_eq_true, if_false]
  constructor
  · rw [State.flag_congr (State.raiseMsix_regs _ sd 64), State.flag_putReg_other _ _ _ hne]
    simp (disch := decide) [State.flag_wr_apart, State.flag_setFlag_same]
  · rw [State.rd_congr (State.raiseMsix_regs _ sd 64), State.rd_putReg_other _ _ _ hne, State.rd_wr_same _ _ _ _ (by decide) (by decide)]
    exact Nat.mod_eq_of_lt st.code_lt

/-! ### Accesses through BAR0 (R8, R378, R415) -/

theorem inMsixTable_outside {a : Nat} (h : a < 0x01FF0000 ∨ 0x01FF0800 ≤ a) : inMsixTable a = false := by
  simp only [inMsixTable, decide_eq_false_iff_not]; omega

/-- The widths of an access. -/
theorem busWidth_iff (w : BitVec 4) : [1, 2, 4, 8].contains w.toNat = true ↔ w = 1 ∨ w = 2 ∨ w = 4 ∨ w = 8 := by
  revert w; decide

/-- A word of the MSI-X table is written. -/
theorem State.bar0Write_table (s : State) (sd : SideId) (a v : Nat) (hl : 0x01FF0000 ≤ a) (hh : a < 0x01FF0800) (h4 : a % 4 = 0) :
    s.bar0Write sd a 4 v = s.msixWrite sd ((a - 0x01FF0000) / 4) (v % 2 ^ 32) := by
  simp [State.bar0Write, inMsixTable, hl, hh, h4]

/-- The REG_WRITE of a side's host that a write through BAR0 waits as (R8, R321). -/
def bar0Command (sd : SideId) (a w v : Nat) : WaitCmd :=
  { hdr := ⟨sd, .bar0, BitVec.ofNat 32 (0xFFFFFF00 + sd.code), 0, 0, 0, 0, 0⟩, op := 0x0101
    params := beBytes 4 a ++ beBytes 1 w ++ beBytes 1 1 ++ zeros 2 ++ beBytes w v, tick := 0, answered := false, listed := true }

section Bar0Write

variable (s : State) (sd : SideId) (a w v : Nat) (ho : inMsixTable a = false)

include ho

/-- A side in deep self-test refuses every write. -/
theorem State.bar0Write_busy (hd : s.deepTest sd = true) : s.bar0Write sd a w v = s.hlError sd (bar0Offset a) .busyTest := by
  simp [State.bar0Write, ho, hd]

variable (hd : s.deepTest sd = false)

include hd

/-- A refused write is discarded and recorded. -/
theorem State.bar0Write_refused {st : Status} (hc : s.writeCheck sd false a w 1 = some st) :
    s.bar0Write sd a w v = s.hlError sd (bar0Offset a) st := by
  simp [State.bar0Write, ho, hd, hc]

variable (hc : s.writeCheck sd false a w 1 = none)

include hc

/-- A write to a register of its side is made at once. -/
theorem State.bar0Write_direct (hm : touchesMirrored a w 1 = false) :
    s.bar0Write sd a w v = s.writeAccess a w v (0xFFFFFF00 + sd.code) := by
  simp [State.bar0Write, ho, hd, hc, hm]

/-- A write to a mirrored register waits for its bell. -/
theorem State.bar0Write_listed (hm : touchesMirrored a w 1 = true) : s.bar0Write sd a w v = s.listOwn (bar0Command sd a w v) := by
  simp [State.bar0Write, bar0Command, ho, hd, hc, hm]

end Bar0Write

section Bar0Read

variable (s : State) (sd : SideId) (off w : Nat)

/-- A width that no access has is refused. -/
theorem State.bar0Read_width (h : [1, 2, 4, 8].contains w = false) : s.bar0Read sd off w = s.bar0Refuse sd off w .width := by
  simp only [State.bar0Read, h, Bool.not_false, if_true]

variable (h : [1, 2, 4, 8].contains w = true) {a : Nat} (ha : bar0Addr off = some a) (hd : s.deepTest sd = false)

include h ha hd

/-- A read that passes its checks returns the register's value. -/
theorem State.bar0Read_value (hc : s.readCheck sd a w 1 = none) :
    s.bar0Read sd off w = (s.readAccess 1 a w).1.emit (.barRead sd (BitVec.ofNat 64 (s.readAccess 1 a w).2)) := by
  simp only [State.bar0Read, h, ha, hd, hc, Bool.not_true, Bool.false_eq_true, if_false]

theorem State.bar0Read_refused {st : Status} (hc : s.readCheck sd a w 1 = some st) :
    s.bar0Read sd off w = s.bar0Refuse sd off w st := by
  simp only [State.bar0Read, h, ha, hd, hc, Bool.not_true, Bool.false_eq_true, if_false]

end Bar0Read

/-- A refused read of a defined width returns all ones and is recorded. -/
theorem State.bar0Refuse_ones (s : State) (sd : SideId) (off : Nat) (st : Status) {w : BitVec 4} (h : w = 1 ∨ w = 2 ∨ w = 4 ∨ w = 8) :
    s.bar0Refuse sd off w.toNat st = (s.emit (.barRead sd (BitVec.ofNat 64 (2 ^ (8 * w.toNat) - 1)))).hlError sd off st := by
  rcases h with rfl | rfl | rfl | rfl <;> rfl

/-! ### What each row of the host does -/

section Rows

variable (sd : SideId) (r : Fin 64) (s : State)

theorem exec_doorbellWrite (tail : Word) (filled : List Descriptor) :
    exec (.doorbellWrite sd r tail filled) s = .next (s.doorbell sd r.val tail.toNat filled) := rfl

theorem exec_mailboxCommand : exec (.mailboxCommand sd r) s = .next (s.mailboxCommand sd r) := rfl

theorem exec_toHostTimeout : exec (.toHostTimeout sd r) s = .next (s.ringTimeout sd r.val) := rfl

theorem exec_dmaError : exec (.dmaError sd r) s = .next (if s.ringRuns sd r.val then s.ringStop sd r.val 2 else s) := rfl

theorem exec_msixHoldoffEnd : exec (.msixHoldoffEnd sd r) s = .next (s.holdoffEnd sd r.val) := rfl

theorem exec_ringResetDone : exec (.ringResetDone sd r) s = .next (s.ringResetDone sd r.val) := rfl

theorem exec_ringCfgReset : exec (.ringCfgReset sd r) s = .next (s.resetRing sd r.val) := rfl

theorem exec_functionLevelReset : exec (.functionLevelReset sd) s = .next (s.functionReset sd) := rfl

theorem exec_pcieLinkUp (gen width : BitVec 3) (bm : Bool) :
    exec (.pcieLinkUp sd gen width bm) s = .next (s.linkUp sd gen.toNat width.toNat bm) := rfl

theorem exec_registerRead_bar0 (off : Word) (w : BitVec 4) :
    exec (.registerRead sd (.bar0 off) w) s = .next (s.bar0Read sd off.toNat w.toNat) := rfl

theorem exec_bar2Write (off : Word) :
    exec (.bar2Write sd off) s = .next (s.hlError sd (2 ^ 31 + off.toNat % 2 ^ 31) .readOnly) := rfl

theorem exec_registerWrite_bar0 (h : CmdHdr) (a : Word) (w : BitVec 4) (v : DWord) (ht : h.transport = .bar0) :
    exec (.registerWrite h a w v) s = .next (s.bar0Write h.side a.toNat w.toNat v.toNat) := by
  change execRegisterWrite h a w v s = _
  rw [execRegisterWrite, ht]

/-- By command, a register write is a REG_WRITE of one value. -/
theorem exec_registerWrite_command (h : CmdHdr) (a : Word) (w : BitVec 4) (v : DWord) (ht : h.transport ≠ .bar0) :
    exec (.registerWrite h a w v) s = exec (.regWrite h
      (beBytes 4 a.toNat ++ beBytes 1 w.toNat ++ beBytes 1 1 ++ zeros 2 ++ beBytes w.toNat v.toNat)) s := by
  change execRegisterWrite h a w v s = execRegWrite h _ s
  unfold execRegisterWrite
  split
  · exact absurd ‹_› ht
  · rfl

end Rows

/-- Settles O55: each row by the lemma of the operation it runs. -/
theorem hostLinkEvents : Obligations.HostLinkEvents := by
  unfold Obligations.HostLinkEvents
  intro s
  refine ⟨?doorbellIdle, ?doorbell, ?settle, fun sd r cause => s.ringStop_shows sd r cause,
    fun sd r d l => s.completeHead_ring sd r 0 1, ?mailboxIdle, ?mailbox, ?timeoutDue, ?timeoutIdle, ?dmaError, ?holdoff,
    fun sd v => ⟨s.raiseMsix_open sd v, s.raiseMsix_masked sd v⟩, fun sd r => exec_ringResetDone sd r s,
    fun sd r => exec_ringCfgReset sd r s, ?clear, fun sd => exec_functionLevelReset sd s,
    fun sd gen width bm => ⟨_, exec_pcieLinkUp sd s gen width bm, s.linkUp_shows sd gen width bm⟩, ?write,
    ?writeByCommand, ?writeTable, ?read, ?readWidth, by decide, ?bar2Kept, ?bar2Recorded⟩
  case doorbellIdle =>
    intro sd r tail filled h
    rw [exec_doorbellWrite, s.doorbell_idle sd r _ _ h]
  case doorbell =>
    intro sd r tail filled n head old hr hn hh ho
    simp only [exec_doorbellWrite]
    refine ⟨fun h => by rw [s.doorbell_error sd r _ _ hr hn hh ho h], ?_⟩
    rintro t ht h rfl
    have taken := s.doorbell_taken sd r tail.toNat filled hr hn hh ho ht h
    refine ⟨by rw [taken]; rfl, fun hk => ?_⟩
    have kind : ∀ x, ((s.wr (Rg.ringPtr sd r) Fd.ringPtrTail tail.toNat).putRing sd r x).rd (Rg.ringCfg sd r) Fd.ringCfgKind = 2 :=
      fun x => by rw [State.rd_putRing, State.rd_wr_other _ _ _ _ (ringCfg_key_ne_ringPtr sd r), hk]
    rw [taken, State.settleRing_fromHost _ sd r (kind _)]
    rfl
  case settle =>
    exact fun sd r hk hr hu => ⟨fun d l hd hlen => s.settleRing_long sd r hk hr hu hd hlen,
      fun d hd hlen => s.settleRing_short sd r hk hr hu hd hlen⟩
  case mailboxIdle =>
    intro sd r h
    rw [exec_mailboxCommand, s.mailboxCommand_idle sd r h]
  case mailbox =>
    intro sd r d b h n hh hr hk hn hd hlen hb hp
    rw [exec_mailboxCommand, s.mailboxCommand_read sd r hh hr hk hn hd hlen hb hp]
  case timeoutDue =>
    intro sd r hr hk hu hf
    rw [exec_toHostTimeout, s.ringTimeout_due sd r hr hk hu hf]
  case timeoutIdle =>
    intro sd r h
    rw [exec_toHostTimeout, s.ringTimeout_idle sd r h]
  case dmaError =>
    intro sd r
    rw [exec_dmaError]
    exact ⟨fun h => by rw [if_pos h], fun h => by rw [h]; rfl⟩
  case holdoff =>
    intro sd r
    rw [exec_msixHoldoffEnd]
    exact ⟨fun h => by rw [s.holdoffEnd_idle sd r h], fun h hw => by rw [s.holdoffEnd_silent sd r h hw],
      fun h hw => by rw [s.holdoffEnd_signals sd r h hw]⟩
  case clear =>
    intro sd r
    obtain ⟨henabled, herr, hhead, htail, hring, hout⟩ := s.ringClear_shows sd r
    exact ⟨henabled, herr, hhead, htail, by rw [hring]; rfl, by rw [hring]; rfl, hout⟩
  case write =>
    intro h a w v ht hout
    have ho := inMsixTable_outside hout
    rw [exec_registerWrite_bar0 s h a w v ht]
    refine ⟨fun st hd hc => by rw [s.bar0Write_refused _ _ _ _ ho hd hc], fun hd => by rw [s.bar0Write_busy _ _ _ _ ho hd],
      fun hd hc => ⟨fun hm => by rw [s.bar0Write_direct _ _ _ _ ho hd hc hm], fun hm => ?_⟩⟩
    rw [s.bar0Write_listed _ _ _ _ ho hd hc hm]
    exact ⟨_, rfl, rfl, bar0Command h.side a.toNat w.toNat v.toNat, rfl, rfl, rfl, rfl⟩
  case writeByCommand =>
    rintro h a w v p ht rfl
    exact exec_registerWrite_command s h a w v ht
  case writeTable =>
    intro h a v ht hl hh h4
    refine ⟨?_, s.msixWrite_table h.side _ _⟩
    rw [exec_registerWrite_bar0 s h a 4 v ht]
    exact congrArg _ (s.bar0Write_table h.side a.toNat v.toNat hl hh h4)
  case read =>
    intro sd off w hw
    have hb := (busWidth_iff w).2 hw
    simp only [exec_registerRead_bar0]
    exact ⟨fun a ha hd hc => by rw [s.bar0Read_value sd _ _ hb ha hd hc],
      fun a st ha hd hc => by rw [s.bar0Read_refused sd _ _ hb ha hd hc, s.bar0Refuse_ones sd _ st hw]⟩
  case readWidth =>
    intro sd off w h1 h2 h4 h8
    have hb : [1, 2, 4, 8].contains w.toNat = false := by
      rw [Bool.eq_false_iff, Ne, busWidth_iff]
      simp only [h1, h2, h4, h8, or_self, not_false_eq_true]
    rw [exec_registerRead_bar0, s.bar0Read_width sd _ _ hb]
  case bar2Kept =>
    intro sd off h
    rw [exec_bar2Write, s.hlError_kept sd _ _ h]
  case bar2Recorded =>
    exact fun sd off h => ⟨_, exec_bar2Write sd s off, s.hlError_recorded sd _ .readOnly h⟩

end Sys2Proof.Machine
end

section
/-! PROOFS. What reports leave behind (R315 to R329, R380, R383, R406, R408, R464): records of the Ledger, notifications of the
Crier, interrupts. `State.unreported` is the rest of the state, and no report changes it. -/

namespace Sys2Proof.Machine

/-- The registers that reports write: CRIER_STATS, those of the Ledger and those of the host link. -/
def reportReg (key : Nat) : Bool :=
  key % 0x80000000 == 0x20 || key % 0x80000000 / 0x10000 == 0xB || key % 0x80000000 / 0x10000 == 0xF

/-- A side without what reports change in it. -/
def Side.unreported (x : Side) : Side :=
  { x with sideArea := ⟨[], 0, [], 0⟩, sideBuckets := [], sideDrops := [], sideQueue := 0, rings := [], msix := ⟨[], []⟩
           crierSeq := [], crierSent := 0, sw := { x.sw with rct := 0 } }

/-- The state without what reports change in it. -/
def State.unreported (s : State) : State :=
  { s with out := [], freeCount := 0, waiting := [], outcomes := [], ledgerPend := []
           regs := s.regs.filter fun e => !reportReg e.1
           sideA := s.sideA.unreported, sideB := s.sideB.unreported }

/-! ### What is read from the rest of the state -/

theorem Tbl.find_filter {α : Type} (t : Tbl α) (p : Nat → Bool) {k : Nat} (h : p k = true) :
    Tbl.find (t.filter fun e => p e.1) k = Tbl.find t k := by
  induction t with
  | nil => rfl
  | cons e t ih =>
    by_cases hk : e.1 = k
    · simp [Tbl.find, hk, h]
    · by_cases hp : p e.1 = true <;> simp [Tbl.find, hk, hp, ih]

theorem Tbl.filter_put {α : Type} (t : Tbl α) (p : Nat → Bool) {k : Nat} (v : α) (h : p k = false) :
    (Tbl.put t k v).filter (fun e => p e.1) = t.filter fun e => p e.1 := by
  induction t with
  | nil => simp [Tbl.put, h]
  | cons e t ih =>
    simp only [Tbl.put]
    split
    · simp [h]
    · split
      · subst_vars; simp [h]
      · simp [List.filter_cons, ih]

@[simp] theorem Tbl.find_del_same {α : Type} (t : Tbl α) (k : Nat) : Tbl.find (Tbl.del t k) k = none := by
  induction t with
  | nil => rfl
  | cons e t ih =>
    by_cases hk : e.1 = k
    · simpa [Tbl.del, hk] using ih
    · simpa [Tbl.del, Tbl.find, hk] using ih

theorem Tbl.find_del_other {α : Type} (t : Tbl α) {k j : Nat} (h : j ≠ k) : Tbl.find (Tbl.del t k) j = Tbl.find t j :=
  Tbl.find_filter t (fun i => i != k) (by simp [h])

theorem State.unreported_side (s : State) (sd : SideId) : s.unreported.side sd = (s.side sd).unreported := by
  cases sd <;> rfl

section Rest

variable {s t : State} (h : t.unreported = s.unreported)

include h

theorem State.unreported_sides (sd : SideId) : (t.side sd).unreported = (s.side sd).unreported := by
  rw [← State.unreported_side, h, State.unreported_side]

theorem State.role_rest (sd : SideId) : (t.side sd).role = (s.side sd).role :=
  (congrArg Side.role (State.unreported_sides h sd) :)

theorem State.duty_rest (sd : SideId) : t.duty sd = s.duty sd :=
  (congrArg Side.duty (State.unreported_sides h sd) :)

theorem State.health_rest (sd : SideId) : (t.side sd).health = (s.side sd).health :=
  (congrArg Side.health (State.unreported_sides h sd) :)

theorem State.now_rest : t.now = s.now := (congrArg State.now h :)

/-- Reports write no register but their own. -/
theorem State.regWord_rest {r : Reg} (hr : reportReg r.key = false) : t.regWord r = s.regWord r := by
  have e : t.regs.filter (fun e => !reportReg e.1) = s.regs.filter fun e => !reportReg e.1 := congrArg State.regs h
  have p : (!reportReg r.key) = true := by rw [hr]; rfl
  have f := congrArg (Tbl.find · r.key) e
  simp only [Tbl.find_filter _ (fun k => !reportReg k) p] at f
  simp only [State.regWord, f]

theorem State.rd_rest {r : Reg} (f : Fld) (hr : reportReg r.key = false) : t.rd r f = s.rd r f := by
  rw [State.rd, State.regWord_rest h hr, State.rd]

theorem State.flag_rest {r : Reg} (f : Fld) (hr : reportReg r.key = false) : t.flag r f = s.flag r f := by
  rw [State.flag, State.rd_rest h f hr, State.flag]

end Rest

/-! ### The primitive updates of a report -/

section Primitives

variable (s : State) (sd : SideId)

@[simp] theorem State.unreported_emit (o : Output) : (s.emit o).unreported = s.unreported := rfl

@[simp] theorem State.unreported_free : s.free.2.unreported = s.unreported := rfl

@[simp] theorem State.unreported_moduleEvent (code stall : Nat) (b : Bytes) : (s.moduleEvent code stall b).unreported = s.unreported := rfl

@[simp] theorem State.unreported_note (code : Nat) (b : Bytes) : (s.note code b).unreported = s.unreported := rfl

@[simp] theorem State.unreported_noteOutcome (h : CmdHdr) (st : Status) (k : Nat) : (s.noteOutcome h st k).unreported = s.unreported := rfl

theorem State.unreported_putReg {r : Reg} (v : Nat) (h : reportReg r.key = true) : (s.putReg r v).unreported = s.unreported := by
  simp only [State.unreported, State.putReg, Tbl.filter_put s.regs (fun k => !reportReg k) _ (by rw [h]; rfl)]

theorem State.unreported_wr {r : Reg} (f : Fld) (v : Nat) (h : reportReg r.key = true) : (s.wr r f v).unreported = s.unreported :=
  s.unreported_putReg _ h

theorem State.unreported_tick1 {r : Reg} (f : Fld) (h : reportReg r.key = true) : (s.tick1 r f).unreported = s.unreported :=
  s.unreported_putReg _ h

theorem State.unreported_modSide {f : Side → Side} (h : ∀ x, (f x).unreported = x.unreported) :
    (s.modSide sd f).unreported = s.unreported := by
  cases sd <;> simp only [State.unreported, State.modSide, h]

end Primitives

/-! ### Interrupts, rings and packets (R380, R383, R199) -/

section Rings

variable (s : State) (sd : SideId)

@[simp] theorem State.unreported_putRing (r : Nat) (x : RingSt) : (s.putRing sd r x).unreported = s.unreported :=
  s.unreported_modSide sd fun _ => rfl

@[simp] theorem State.unreported_raiseMsix (v : Nat) : (s.raiseMsix sd v).unreported = s.unreported := by
  rw [State.raiseMsix_eq]
  split
  · rfl
  · split
    · rfl
    · exact s.unreported_modSide sd fun _ => rfl

@[simp] theorem State.unreported_ringIrq (r : Nat) : (s.ringIrq sd r).unreported = s.unreported := by
  simp only [State.ringIrq]
  split
  · simp
  · split <;> simp

@[simp] theorem State.unreported_movedBytes (n : Nat) : (s.movedBytes sd n).unreported = s.unreported :=
  s.unreported_putReg _ (by cases sd <;> rfl)

theorem reportReg_ringPtr {r : Nat} (h : r < 64) : reportReg (Rg.ringPtr sd r).key = true := by
  cases sd <;> simp only [reportReg, Rg.ringPtr, sideBase, Bool.or_eq_true, beq_iff_eq] <;> omega

theorem reportReg_ringDone {r : Nat} (h : r < 64) : reportReg (Rg.ringDone sd r).key = true := by
  cases sd <;> simp only [reportReg, Rg.ringDone, sideBase, Bool.or_eq_true, beq_iff_eq] <;> omega

theorem State.unreported_completeHead {r : Nat} (used code : Nat) (h : r < 64) :
    (s.completeHead sd r used code).unreported = s.unreported := by
  simp only [State.completeHead]
  split
  · rfl
  · split <;> simp [State.unreported_tick1 _ _ (reportReg_ringDone sd h), State.unreported_wr _ _ _ (reportReg_ringPtr sd h),
      State.hostWrite]

theorem State.unreported_skipShort {r : Nat} (limit n : Nat) (h : r < 64) : (s.skipShort sd r limit n).unreported = s.unreported := by
  induction n generalizing s with
  | zero => rfl
  | succ n ih =>
    simp only [State.skipShort]
    split
    · split
      · rw [ih, s.unreported_completeHead sd 0 1 h]
      · rfl
    · rfl

/-- The ring once a record of `n` bytes has made room for itself (R383): a buffer that it does not fit into is completed. -/
def State.roomFor (s : State) (sd : SideId) (r n : Nat) : State :=
  match (s.ring sd r).descs with
  | d :: _ =>
    if (s.ring sd r).used ≠ 0 ∧ d.len < (s.ring sd r).used + n then
      let t := s.completeHead sd r (s.ring sd r).used 0
      t.skipShort sd r 8192 (t.ring sd r).descs.length
    else s
  | [] => s

theorem State.unreported_roomFor {r : Nat} (n : Nat) (h : r < 64) : (s.roomFor sd r n).unreported = s.unreported := by
  simp only [State.roomFor]
  split
  · split
    · rw [State.unreported_skipShort _ sd _ _ h, s.unreported_completeHead sd _ 0 h]
    · rfl
  · rfl

theorem State.unreported_ringPut {r : Nat} (b : Bytes) (h : r < 64) : (s.ringPut sd r b).1.unreported = s.unreported := by
  have room : ((s.skipShort sd r 8192 (s.ring sd r).descs.length).roomFor sd r b.length).unreported = s.unreported := by
    rw [State.unreported_roomFor _ sd _ h, s.unreported_skipShort sd _ _ h]
  simp only [State.ringPut]
  split
  · split
    · exact room
    · split
      · exact room
      · simp only [State.unreported_movedBytes, State.unreported_putRing, State.hostWrite, State.unreported_emit]
        exact room
  · rfl

@[simp] theorem State.unreported_netTx : (s.netTx sd).2.unreported = s.unreported := s.unreported_modSide sd fun _ => rfl

end Rings

/-! ### Notifications and records (R315, R326, R408, R409, R464) -/

section Records

variable (s : State) (sd : SideId)

theorem bits_lt (v hi lo : Nat) : bits v hi lo < 2 ^ (hi - lo + 1) := Nat.mod_lt _ (Nat.two_pow_pos _)

theorem State.crierRing_lt : s.rd (Rg.hlCtrl sd) Fd.hlCtrlCrierRing < 64 :=
  Nat.lt_of_lt_of_le (bits_lt _ _ _) (by decide)

theorem State.unreported_sendNote {p : Principal} {answers : Bool} {packet : Bytes} {t : State}
    (h : s.sendNote sd p answers packet = some t) : t.unreported = s.unreported := by
  have put := s.unreported_ringPut sd packet (s.crierRing_lt sd)
  simp only [State.sendNote] at h
  split at h
  · split at h
    · cases h; simpa using put
    · cases h
  · split at h
    · split at h
      · cases h; simp
      · cases h
    · cases h

theorem reportReg_crierStats : reportReg (Rg.crierStats sd).key = true := by cases sd <;> rfl

@[simp] theorem State.unreported_notifyOne (origin stall : Nat) (p : Principal) (answers : Bool) (b : Bytes) :
    (s.notifyOne sd origin stall p answers b).unreported = s.unreported := by
  simp only [State.notifyOne]
  split
  · rfl
  · split
    · rename_i t ht
      have sent : t.unreported = s.unreported := by
        split at ht
        · exact s.unreported_sendNote sd ht
        · cases ht
      rw [State.unreported_tick1 _ _ (reportReg_crierStats sd), State.unreported_modSide, sent]
      exact fun _ => rfl
    · exact s.unreported_tick1 _ (reportReg_crierStats sd)

/-- What every step of a fold keeps, the fold keeps. -/
theorem foldl_keeps {α β γ : Type} (g : β → γ) {f : β → α → β} (h : ∀ b a, g (f b a) = g b) (l : List α) (b : β) :
    g (l.foldl f b) = g b := by
  induction l generalizing b with
  | nil => rfl
  | cons a l ih => rw [List.foldl_cons, ih, h]

@[simp] theorem State.unreported_crier (code area seq stall : Nat) (b : Bytes) :
    (s.crier sd code area seq stall b).unreported = s.unreported := by
  refine foldl_keeps State.unreported (fun t e => ?_) _ s
  split <;> simp

@[simp] theorem State.unreported_crierFinal (h : CmdHdr) (st : Status) (b : Bytes) :
    (s.crierFinal sd h st b).unreported = s.unreported := by
  simp only [State.crierFinal]
  split
  · split <;> simp
  · rfl

/-- Codes of records lie below 4,096 (R322). -/
theorem codeNumber_lt (code : Nat) : codeNumber code < 4096 := by
  unfold codeNumber; split
  · omega
  · split <;> omega

theorem reportReg_ledgerCodeDrop {c : Nat} (h : c < 4096) : reportReg (Rg.ledgerCodeDrop sd c).key = true := by
  cases sd <;> simp only [reportReg, Rg.ledgerCodeDrop, sideBase, Bool.or_eq_true, beq_iff_eq] <;> omega

theorem State.unreported_sideDropped {c : Nat} (stall : Nat) (rate : Bool) (h : c < 4096) :
    (s.sideDropped sd c stall rate).unreported = s.unreported := by
  rw [State.sideDropped, State.unreported_modSide, State.unreported_tick1 _ _ (reportReg_ledgerCodeDrop sd h), State.unreported_tick1]
  · cases sd <;> rfl
  · exact fun _ => rfl

@[simp] theorem State.unreported_sideWrite (cls code stall origin time : Nat) (b : Bytes) :
    (s.sideWrite sd cls code stall origin time b).unreported = s.unreported := by
  rw [State.sideWrite, State.unreported_putReg, State.unreported_modSide]
  · exact fun _ => rfl
  · cases sd <;> rfl

@[simp] theorem State.unreported_sideRecord (cls code stall origin time : Nat) (b : Bytes) :
    (s.sideRecord sd cls code stall origin time b).unreported = s.unreported := by
  have spent : ∀ b : Tbl Nat, (s.modSide sd fun x => { x with sideBuckets := b }).unreported = s.unreported :=
    fun b => s.unreported_modSide sd fun _ => rfl
  simp only [State.sideRecord]
  split
  · exact s.unreported_sideDropped sd stall true (codeNumber_lt code)
  · split
    · rw [State.unreported_sideWrite]; split
      · rfl
      · exact spent _
    · rw [State.unreported_sideDropped _ sd stall false (codeNumber_lt code)]; split
      · rfl
      · exact spent _

@[simp] theorem State.unreported_sideEvent (code stall origin : Nat) (b : Bytes) :
    (s.sideEvent sd code stall origin b).unreported = s.unreported := by
  rw [State.sideEvent, State.unreported_sideRecord, State.unreported_free]

@[simp] theorem State.unreported_sideReport (code : Nat) (b : Bytes) : (s.sideReport sd code b).unreported = s.unreported := by
  rw [State.sideReport, State.unreported_crier, State.unreported_sideEvent]

@[simp] theorem State.unreported_partEvent (code part word : Nat) : (s.partEvent sd code part word).unreported = s.unreported :=
  s.unreported_sideReport sd _ _

@[simp] theorem State.unreported_splitOutcome (outcome : Nat) : (s.splitOutcome sd outcome).unreported = s.unreported := by
  rw [State.splitOutcome, State.unreported_crier]
  split
  · exact s.unreported_moduleEvent _ _ _
  · exact s.unreported_note _ _

end Records
end Sys2Proof.Machine
end

section
/-! PROOFS. Roles and duties of the sides (R216, R219, R231, R248): what the operations that the rows share do to them. -/

namespace Sys2Proof.Machine

/-! ### Register writes and the sides -/

section Writes

variable (s : State) (r : Reg) (f : Fld) (v : Nat) (sd : SideId)

@[simp] theorem State.wr_side : (s.wr r f v).side sd = s.side sd := s.putReg_side r _ sd
@[simp] theorem State.setFlag_side (b : Bool) : (s.setFlag r f b).side sd = s.side sd := s.wr_side r f _ sd
@[simp] theorem State.count_side : (s.count r f v).side sd = s.side sd := s.wr_side r f _ sd
@[simp] theorem State.tick1_side : (s.tick1 r f).side sd = s.side sd := s.wr_side r f _ sd
@[simp] theorem State.wr_duty : (s.wr r f v).duty sd = s.duty sd := by rw [State.duty, State.wr_side, State.duty]
@[simp] theorem State.wr_now : (s.wr r f v).now = s.now := rfl
@[simp] theorem State.tick1_now : (s.tick1 r f).now = s.now := rfl

theorem State.regWord_wr_other {q : Reg} (h : q.key ≠ r.key) : (s.wr r f v).regWord q = s.regWord q := s.regWord_putReg_other _ h
theorem State.regWord_tick1_other {q : Reg} (h : q.key ≠ r.key) : (s.tick1 r f).regWord q = s.regWord q := s.regWord_putReg_other _ h

end Writes

/-! ### Roles and duties under the updates of a side -/

section Duties

variable (s : State) (sd : SideId)

theorem State.role_modSide {f : Side → Side} (h : ∀ x, (f x).role = x.role) (sd' : SideId) :
    ((s.modSide sd f).side sd').role = (s.side sd').role := by
  by_cases same : sd' = sd
  · rw [same, State.modSide_same, h]
  · rw [State.modSide_other _ _ same]

theorem State.duty_modSide {f : Side → Side} (h : ∀ x, (f x).duty = x.duty) (sd' : SideId) :
    (s.modSide sd f).duty sd' = s.duty sd' := by
  rw [State.duty, State.duty]
  by_cases same : sd' = sd
  · rw [same, State.modSide_same, h]
  · rw [State.modSide_other _ _ same]

@[simp] theorem State.modDuty_role (f : DutySt → DutySt) (sd' : SideId) : ((s.modDuty sd f).side sd').role = (s.side sd').role := by
  rw [State.modDuty, State.role_modSide]
  exact fun _ => rfl

@[simp] theorem State.modDuty_duty (f : DutySt → DutySt) : (s.modDuty sd f).duty sd = f (s.duty sd) := by
  cases sd <;> rfl

@[simp] theorem State.modDuty_regs (f : DutySt → DutySt) : (s.modDuty sd f).regs = s.regs := s.modSide_regs sd _

@[simp] theorem State.modResync_role (f : ResyncSt → ResyncSt) (sd' : SideId) : ((s.modResync sd f).side sd').role = (s.side sd').role :=
  s.modDuty_role sd _ sd'

@[simp] theorem State.modResync_duty (f : ResyncSt → ResyncSt) :
    (s.modResync sd f).duty sd = { s.duty sd with resync := f (s.duty sd).resync } := s.modDuty_duty sd _

@[simp] theorem State.modResync_regs (f : ResyncSt → ResyncSt) : (s.modResync sd f).regs = s.regs := s.modDuty_regs sd _

@[simp] theorem State.raiseMsix_role (v : Nat) (sd' : SideId) : ((s.raiseMsix sd v).side sd').role = (s.side sd').role :=
  State.role_rest (s.unreported_raiseMsix sd v) sd'

@[simp] theorem State.raiseMsix_duty (v : Nat) (sd' : SideId) : (s.raiseMsix sd v).duty sd' = s.duty sd' :=
  State.duty_rest (s.unreported_raiseMsix sd v) sd'

/-! ### A side takes a role (R216, R427) -/

/-- The configuration store that a side takes or keeps with a role is all that changes beside the role. -/
theorem State.storeFor_keeps (r : Role) (sd' : SideId) : ((s.storeFor sd r).side sd').role = (s.side sd').role ∧
    (s.storeFor sd r).duty sd' = s.duty sd' ∧ (s.storeFor sd r).regs = s.regs := by
  have adopted : ((s.adoptStore sd).side sd').role = (s.side sd').role ∧ (s.adoptStore sd).duty sd' = s.duty sd' ∧
      (s.adoptStore sd).regs = s.regs := by
    simp only [State.adoptStore]
    split
    · exact ⟨rfl, rfl, rfl⟩
    · refine ⟨?_, ?_, s.modSide_regs sd _⟩
      · exact s.role_modSide sd (f := fun x => { x with lag := none }) (fun _ => rfl) sd'
      · exact s.duty_modSide sd (f := fun x => { x with lag := none }) (fun _ => rfl) sd'
  have kept : ((s.keepCopy sd).side sd').role = (s.side sd').role ∧ (s.keepCopy sd).duty sd' = s.duty sd' ∧
      (s.keepCopy sd).regs = s.regs := by
    refine ⟨s.role_modSide sd ?_ sd', s.duty_modSide sd ?_ sd', s.modSide_regs sd _⟩ <;> exact fun _ => rfl
  simp only [State.storeFor]
  split
  · exact adopted
  · exact ⟨rfl, rfl, rfl⟩
  · split
    · exact kept
    · exact ⟨rfl, rfl, rfl⟩

@[simp] theorem State.putRole_role (r : Role) : ((s.putRole sd r).side sd).role = r := by
  simp only [State.putRole]
  split <;> simp

theorem State.putRole_role_other (r : Role) {sd' : SideId} (h : sd' ≠ sd) : ((s.putRole sd r).side sd').role = (s.side sd').role := by
  simp only [State.putRole]
  split <;> simp [State.modSide_other _ _ h, (s.storeFor_keeps sd r sd').1]

@[simp] theorem State.putRole_duty (r : Role) (sd' : SideId) : (s.putRole sd r).duty sd' = s.duty sd' := by
  have taken : ((s.storeFor sd r).modSide sd fun x => { x with role := r }).duty sd' = s.duty sd' := by
    rw [State.duty_modSide, (s.storeFor_keeps sd r sd').2.1]
    exact fun _ => rfl
  simp only [State.putRole]
  split
  · exact taken
  · rw [State.raiseMsix_duty, taken]

@[simp] theorem State.putRole_regs (r : Role) : (s.putRole sd r).regs = s.regs := by
  simp only [State.putRole]
  split <;> simp [(s.storeFor_keeps sd r sd).2.2]

/-! ### The answer to SIDE_JOIN (R248) -/

/-- Answering a SIDE_JOIN is a report, and its command is forgotten. -/
theorem State.answerJoin_reports (st : Status) : ∃ t : State, t.unreported = s.unreported ∧
    (s.answerJoin sd st = t ∨ s.answerJoin sd st = t.modResync sd fun r => { r with hdr := none }) := by
  simp only [State.answerJoin]
  split
  · exact ⟨_, by simp, .inr rfl⟩
  · exact ⟨s, rfl, .inl rfl⟩

@[simp] theorem State.answerJoin_role (st : Status) (sd' : SideId) : ((s.answerJoin sd st).side sd').role = (s.side sd').role := by
  obtain ⟨t, ht, e | e⟩ := s.answerJoin_reports sd st
  · rw [e, State.role_rest ht]
  · rw [e, State.modResync_role, State.role_rest ht]

@[simp] theorem State.answerJoin_tested (st : Status) : ((s.answerJoin sd st).duty sd).tested = (s.duty sd).tested := by
  obtain ⟨t, ht, e | e⟩ := s.answerJoin_reports sd st
  · rw [e, State.duty_rest ht]
  · rw [e, State.modResync_duty, State.duty_rest ht]

theorem State.answerJoin_flag (st : Status) {r : Reg} (f : Fld) (hr : reportReg r.key = false) :
    (s.answerJoin sd st).flag r f = s.flag r f := by
  obtain ⟨t, ht, e | e⟩ := s.answerJoin_reports sd st
  · rw [e, State.flag_rest ht f hr]
  · rw [e, State.flag_congr (State.modResync_regs _ _ _), State.flag_rest ht f hr]

@[simp] theorem State.endLeaseOf_side (kind side : Nat) (sd' : SideId) : (s.endLeaseOf kind side).side sd' = s.side sd' := by
  cases sd' <;> rfl

@[simp] theorem State.endLeaseOf_regs (kind side : Nat) : (s.endLeaseOf kind side).regs = s.regs := rfl

/-! ### A side starts to join (R231) -/

@[simp] theorem State.startJoin_role : ((s.startJoin sd).side sd).role = .joining := by
  simp [State.startJoin, State.setPhase]

@[simp] theorem State.startJoin_tested : ((s.startJoin sd).duty sd).tested = (s.duty sd).tested := by
  rw [← s.putRole_duty sd .joining sd]
  simp only [State.startJoin, State.setPhase, State.wr_duty, State.modDuty_duty]

theorem State.startJoin_flag {r : Reg} (f : Fld) (h : r.key ≠ (Rg.resyncStatus sd).key) :
    (s.startJoin sd).flag r f = s.flag r f := by
  simp only [State.startJoin, State.setPhase, State.wr_eq]
  rw [State.flag_putReg_other _ _ f h, State.flag_putReg_other _ _ f h]
  exact State.flag_congr (by simp) r f

/-! ### A side gives up control (R219) -/

@[simp] theorem State.wr_role (r : Reg) (f : Fld) (v : Nat) (sd' : SideId) : ((s.wr r f v).side sd').role = (s.side sd').role := by
  rw [State.wr_side]

@[simp] theorem State.lastCause_role (cause : Nat) (sd' : SideId) : ((s.lastCause cause).side sd').role = (s.side sd').role := by
  simp [State.lastCause, State.forSides]

@[simp] theorem State.setRole_role (r : Role) (cause : Nat) : ((s.setRole sd r cause).side sd).role = r := by
  rw [State.setRole, State.lastCause_role, State.putRole_role]

theorem State.setRole_role_other (r : Role) (cause : Nat) {sd' : SideId} (h : sd' ≠ sd) :
    ((s.setRole sd r cause).side sd').role = (s.side sd').role := by
  rw [State.setRole, State.lastCause_role, State.putRole_role_other _ _ _ h]

@[simp] theorem State.dropQueued_role (sd' : SideId) : ((s.dropQueued sd).side sd').role = (s.side sd').role := by
  rw [State.dropQueued, State.role_modSide]
  · exact foldl_keeps (fun t : State => (t.side sd').role) (fun t f => by rw [State.count_side]) _ s
  · exact fun _ => rfl

@[simp] theorem State.canDrop_role (which : Nat → Bool) (sd' : SideId) : ((s.canDrop sd which).side sd').role = (s.side sd').role := by
  rw [State.canDrop, foldl_keeps (fun t : State => (t.side sd').role) fun t e => by rw [State.setFlag_side]]
  rw [State.putCan, State.role_modSide]
  exact fun _ => rfl

/-- What a side leaves behind when it stops serving is no role. -/
@[simp] theorem State.stopSide_role (sd' : SideId) : ((s.stopSide sd).side sd').role = (s.side sd').role := by
  rw [State.stopSide, State.zeroise, State.role_modSide, State.canDrop_role, State.dropQueued_role, State.role_modSide] <;>
    exact fun _ => rfl

@[simp] theorem State.loseCommands_side (was : Bool) (sd' : SideId) : (s.loseCommands sd was).side sd' = s.side sd' := by
  cases was <;> cases sd' <;> rfl

/-- A side that goes Out is Out. -/
@[simp] theorem State.goOut_role (cause : Nat) : ((s.goOut sd cause).side sd).role = .out := by
  simp only [State.goOut]
  split
  · assumption
  · simp

/-- No role but its own changes. -/
theorem State.goOut_role_other (cause : Nat) {sd' : SideId} (h : sd' ≠ sd) : ((s.goOut sd cause).side sd').role = (s.side sd').role := by
  simp only [State.goOut]
  split
  · rfl
  · simp [State.setRole_role_other _ _ _ _ h]

/-- The side that has demoted itself, before its partner module hears of it (R241). -/
def State.demoted (s : State) (sd : SideId) (cause : Nat) : State :=
  ((((((((s.answerJoin sd .state).setRole sd .out cause).tick1 (Rg.failoverCounts sd) Fd.failoverCountsDemotions).stopSide sd).modDuty sd
    fun d => { d with demote := true, sealAt := none, promoteAt := none, leaveAt := none, resync := ResyncSt.idle }).wr
      (Rg.resyncStatus sd) Fd.resyncStatusPhase 0).endLeaseOf lkRestart sd.code).loseCommands sd ((s.side sd).role == .active))

/-- What follows a demotion is a notice at most. -/
theorem State.demote_side (cause : Nat) (h : (s.side sd).role ≠ .out) (sd' : SideId) :
    (s.demote sd cause).side sd' = (s.demoted sd cause).side sd' := by
  simp only [State.demote, if_neg h]
  split
  · exact State.emit_side _ _ _
  · rfl

/-- A demoted side is Out and asserts DEMOTE; the other side's role stands. -/
theorem State.demote_shows (cause : Nat) (h : (s.side sd).role ≠ .out) :
    ((s.demote sd cause).side sd).role = .out ∧ ((s.demote sd cause).duty sd).demote = true ∧
      ((s.demote sd cause).side sd.other).role = (s.side sd.other).role := by
  have other : sd.other ≠ sd := by cases sd <;> decide
  simp only [State.duty, s.demote_side sd cause h, State.demoted, State.loseCommands_side, State.endLeaseOf_side, State.wr_side]
  refine ⟨?_, congrArg DutySt.demote (State.modDuty_duty _ sd _), ?_⟩
  · simp
  · simp [State.setRole_role_other _ _ _ _ other]

end Duties
end Sys2Proof.Machine
end

section
/-! PROOFS. Health (R10, R447, R453, R458, R459, R463, R466). -/

namespace Sys2Proof.Machine

/-! ### The fault log (R463) -/

section FaultLog

variable (s : State) (sd : SideId) (part word : Nat)

/-- The entry of the fault log that the next fault takes. -/
def State.faultSlot : Nat :=
  if s.rd (Rg.faultHead sd) Fd.faultHeadTotal = 0 then 0 else (s.rd (Rg.faultHead sd) Fd.faultHeadNewest + 1) % 64

/-- A fault stands in the log, its level counted since the boot. -/
def State.enterFault : State :=
  (((s.modSide sd fun x => { x with health := { x.health with
      found := (List.zip (upto 7) (s.side sd).health.found).map fun e => if e.1 + 1 = partLevel part then e.2 + 1 else e.2 } }).putReg
    (Rg.faultLog sd (s.faultSlot sd)) (part * 2 ^ 32 + if partLevel part = 1 then word else 0)).wr
    (Rg.faultHead sd) Fd.faultHeadNewest (s.faultSlot sd)).tick1 (Rg.faultHead sd) Fd.faultHeadTotal

/-- HEALTH_FAULTS counts a fault by its level, an uncorrectable error apart. -/
def State.countFault : State :=
  let t := match partLevel part with
    | 2 => s.tick1 (Rg.healthFaults sd) Fd.healthFaultsLevel2
    | 3 => s.tick1 (Rg.healthFaults sd) Fd.healthFaultsLevel3
    | 4 => s.tick1 (Rg.healthFaults sd) Fd.healthFaultsLevel4
    | _ => s
  if word / 2 ^ 30 = 2 then t.tick1 (Rg.healthFaults sd) Fd.healthFaultsUncorrectable else t

/-- A fault is entered, counted and reported. -/
theorem State.logFaultAs_eq (code : Nat) : s.logFaultAs sd code part word =
    ((s.enterFault sd part word).countFault sd part word).partEvent sd code part (if partLevel part = 1 then word else 0) := rfl

theorem State.faultSlot_lt : s.faultSlot sd < 64 := by
  unfold State.faultSlot; split <;> omega

theorem faultLog_key_ne_faultHead (i : Nat) : (Rg.faultLog sd i).key ≠ (Rg.faultHead sd).key := by
  simp only [Rg.faultLog, Rg.faultHead]; omega

theorem faultLog_key_ne_healthFaults (i : Nat) : (Rg.faultLog sd i).key ≠ (Rg.healthFaults sd).key := by
  simp only [Rg.faultLog, Rg.healthFaults]; omega

theorem faultHead_key_ne_healthFaults : (Rg.faultHead sd).key ≠ (Rg.healthFaults sd).key := by
  simp only [Rg.faultHead, Rg.healthFaults]; omega

theorem reportReg_faultLog {i : Nat} (h : i < 64) : reportReg (Rg.faultLog sd i).key = false := by
  cases sd <;> simp only [reportReg, Rg.faultLog, sideBase, Bool.or_eq_false_iff, beq_eq_false_iff_ne] <;> omega

theorem reportReg_faultHead : reportReg (Rg.faultHead sd).key = false := by cases sd <;> rfl

/-- Counting a fault writes HEALTH_FAULTS alone. -/
theorem State.countFault_regWord {r : Reg} (h : r.key ≠ (Rg.healthFaults sd).key) :
    (s.countFault sd part word).regWord r = s.regWord r := by
  simp only [State.countFault]
  split <;> split <;> simp only [State.regWord_tick1_other _ _ _ h]

@[simp] theorem State.countFault_side (sd' : SideId) : (s.countFault sd part word).side sd' = s.side sd' := by
  simp only [State.countFault]
  split <;> split <;> simp only [State.tick1_side]

@[simp] theorem State.countFault_now : (s.countFault sd part word).now = s.now := by
  simp only [State.countFault]
  split <;> split <;> rfl

/-- The part stands in the entry that was next, with the word beside it where the part is an array. -/
theorem State.enterFault_entry (hp : part < 2 ^ 32) (hw : word < 2 ^ 32) :
    (s.enterFault sd part word).regWord (Rg.faultLog sd (s.faultSlot sd)) =
      part * 2 ^ 32 + if partLevel part = 1 then word else 0 := by
  have apart := faultLog_key_ne_faultHead sd (s.faultSlot sd)
  have shown : (if partLevel part = 1 then word else 0) < 2 ^ 32 := by split <;> omega
  rw [State.enterFault, State.regWord_tick1_other _ _ _ apart, State.regWord_wr_other _ _ _ _ apart, State.regWord_putReg_same]
  omega

theorem State.enterFault_newest : (s.enterFault sd part word).rd (Rg.faultHead sd) Fd.faultHeadNewest = s.faultSlot sd := by
  rw [State.enterFault, State.tick1_eq, State.count_eq, State.rd_wr_apart _ _ _ _ _ (by decide) (by decide) (by decide) (by decide),
    State.rd_wr_same _ _ _ _ (by decide) (by decide)]
  exact Nat.mod_eq_of_lt (s.faultSlot_lt sd)

/-- The fault log and its head keep what entering a fault has put there. -/
theorem State.logFaultAs_regWord (code : Nat) {r : Reg} (hf : r.key ≠ (Rg.healthFaults sd).key) (hr : reportReg r.key = false) :
    (s.logFaultAs sd code part word).regWord r = (s.enterFault sd part word).regWord r := by
  rw [State.logFaultAs_eq, State.regWord_rest (State.unreported_partEvent _ sd _ _ _) hr, State.countFault_regWord _ _ _ _ hf]

/-- A fault enters the log at the next entry, which becomes the newest (R463). -/
theorem State.logFaultAs_entry (code : Nat) (hp : part < 2 ^ 32) (hw : word < 2 ^ 32) :
    (s.logFaultAs sd code part word).regWord (Rg.faultLog sd (s.faultSlot sd)) =
        part * 2 ^ 32 + (if partLevel part = 1 then word else 0) ∧
      (s.logFaultAs sd code part word).rd (Rg.faultHead sd) Fd.faultHeadNewest = s.faultSlot sd := by
  constructor
  · rw [State.logFaultAs_regWord _ _ _ _ _ (faultLog_key_ne_healthFaults sd (s.faultSlot sd)) (reportReg_faultLog sd (s.faultSlot_lt sd)),
      s.enterFault_entry sd part word hp hw]
  · rw [State.rd, State.logFaultAs_regWord _ _ _ _ _ (faultHead_key_ne_healthFaults sd) (reportReg_faultHead sd)]
    exact s.enterFault_newest sd part word

/-- Logging a fault leaves the other registers. -/
theorem State.logFaultAs_flag (code : Nat) {r : Reg} (f : Fld) (hl : r.key ≠ (Rg.faultLog sd (s.faultSlot sd)).key)
    (hh : r.key ≠ (Rg.faultHead sd).key) (hf : r.key ≠ (Rg.healthFaults sd).key) (hr : reportReg r.key = false) :
    (s.logFaultAs sd code part word).flag r f = s.flag r f := by
  have e : (s.logFaultAs sd code part word).regWord r = s.regWord r := by
    rw [s.logFaultAs_regWord sd part word code hf hr, State.enterFault, State.regWord_tick1_other _ _ _ hh,
      State.regWord_wr_other _ _ _ _ hh, State.regWord_putReg_other _ _ hl, State.regWord_modSide]
  rw [State.flag, State.rd, e]; rfl

@[simp] theorem State.logFaultAs_now (code : Nat) : (s.logFaultAs sd code part word).now = s.now := by
  rw [State.logFaultAs_eq, State.now_rest (State.unreported_partEvent _ sd _ _ _), State.countFault_now]
  simp [State.enterFault]

/-- Of a side's health logging a fault changes the count of faults found alone. -/
theorem State.logFaultAs_health (code : Nat) :
    ∃ found, ((s.logFaultAs sd code part word).side sd).health = { (s.side sd).health with found := found } := by
  simp only [State.logFaultAs_eq, State.health_rest (State.unreported_partEvent _ sd _ _ _), State.countFault_side, State.enterFault,
    State.tick1_side, State.wr_side, State.putReg_side, State.modSide_same]
  exact ⟨_, rfl⟩

@[simp] theorem State.logFaultAs_duty (code : Nat) (sd' : SideId) : (s.logFaultAs sd code part word).duty sd' = s.duty sd' := by
  rw [State.logFaultAs_eq, State.duty_rest (State.unreported_partEvent _ sd _ _ _), State.duty, State.countFault_side]
  simp only [State.enterFault, State.tick1_side, State.wr_side, State.putReg_side]
  cases sd <;> cases sd' <;> rfl

@[simp] theorem State.logFaultAs_role (code : Nat) (sd' : SideId) :
    ((s.logFaultAs sd code part word).side sd').role = (s.side sd').role := by
  rw [State.logFaultAs_eq, State.role_rest (State.unreported_partEvent _ sd _ _ _), State.countFault_side]
  simp only [State.enterFault, State.tick1_side, State.wr_side, State.putReg_side]
  cases sd <;> cases sd' <;> rfl

end FaultLog

/-! ### Corrected errors (R458) -/

section Corrected

variable (s : State) (sd : SideId)

@[simp] theorem State.modHealth_health (f : HealthSt → HealthSt) : ((s.modHealth sd f).side sd).health = f (s.side sd).health := by
  simp [State.modHealth]

@[simp] theorem State.modHealth_now (f : HealthSt → HealthSt) : (s.modHealth sd f).now = s.now := by simp [State.modHealth]

theorem State.modHealth_modHealth (f g : HealthSt → HealthSt) : (s.modHealth sd f).modHealth sd g = s.modHealth sd fun h => g (f h) := by
  cases sd <;> rfl

theorem State.correctedAt_eq {t : State} (hn : t.now = s.now) {k : Nat}
    (hk : Tbl.getD (t.side sd).health.corrected k [] = Tbl.getD (s.side sd).health.corrected k []) :
    t.correctedAt sd k = s.correctedAt sd k := by
  simp only [State.correctedAt, hn, hk]

/-- Counting an error at one place leaves what other places have seen. -/
theorem State.correctedAt_put {k j : Nat} (l : List Nat) (h : j ≠ k) :
    (s.modHealth sd fun x => { x with corrected := Tbl.put x.corrected k l }).correctedAt sd j = s.correctedAt sd j :=
  s.correctedAt_eq sd (s.modHealth_now sd _) (by rw [State.modHealth_health]; exact Tbl.getD_put_other _ _ _ h)

/-- The entries of the fault log and the counts of HEALTH_CORRECTED are no errors at a place. -/
theorem State.correctedAt_logged (r : Reg) (f : Fld) (part word k : Nat) :
    ((s.tick1 r f).logFaultAs sd lcCorrected part word).correctedAt sd k = s.correctedAt sd k := by
  obtain ⟨found, hfound⟩ := (s.tick1 r f).logFaultAs_health sd part word lcCorrected
  exact s.correctedAt_eq sd (by simp) (by rw [hfound, State.tick1_side])

theorem correctedKeys_page {part : Nat} (word : Nat) (h : partUnit part = 0x19) :
    correctedKeys part word = [part * 2 ^ 32 + word % 2 ^ 29 / 512] := by
  simp only [correctedKeys, if_pos h]

theorem correctedKeys_macro {part : Nat} (word : Nat) (h : partUnit part ≠ 0x19) : correctedKeys part word =
    [part * 2 ^ 32 + 2 * Config.macroRow (word % 2 ^ 29), part * 2 ^ 32 + (2 * Config.macroColumn (word % 2 ^ 29) + 1)] := by
  simp only [correctedKeys, if_neg h]

/-- Rows have even numbers and columns odd ones. -/
theorem row_ne_column (part a b : Nat) : part * 2 ^ 32 + 2 * a ≠ part * 2 ^ 32 + (2 * b + 1) := by omega

/-- The state once an error is counted in HEALTH_CORRECTED and logged. -/
def State.correctedLogged (part word : Nat) : State :=
  (s.tick1 (Rg.healthCorrected sd) Fd.healthCorrectedCount).logFaultAs sd lcCorrected part (word % 2 ^ 29)

/-- An error in the non-volatile store: three bits retire its sector. -/
theorem State.correctedErr_store {part : Nat} (word n : Nat) (h : partUnit part = 0x1A) : s.correctedErr sd part word n =
    if 3 ≤ n then (s.correctedLogged sd part word).retireSector sd part else s.correctedLogged sd part word := by
  simp only [State.correctedErr, if_pos h, State.correctedLogged]

section Page

variable {part : Nat} (word n : Nat) {k : Nat} (h : partUnit part = 0x19) (hk : k = part * 2 ^ 32 + word % 2 ^ 29 / 512)

include h hk

/-- A first or second error in a page of DRAM is remembered. -/
theorem State.correctedErr_page_first (hl : (s.correctedAt sd k).length < 3) : s.correctedErr sd part word n =
    (s.correctedLogged sd part word).modHealth sd fun x => { x with corrected := Tbl.put x.corrected k (s.correctedAt sd k) } := by
  have hs : partUnit part ≠ 0x1A := by omega
  have keys : correctedKeys part word = [k] := by rw [correctedKeys_page word h, hk]
  simp [State.correctedErr, hs, keys, State.correctedAt_logged, Nat.not_le.2 hl, State.correctedLogged]

/-- The third is a repeated error of the page: it is reported, and the page counts afresh. -/
theorem State.correctedErr_page_third (hl : 3 ≤ (s.correctedAt sd k).length) : s.correctedErr sd part word n =
    ((s.correctedLogged sd part word).modHealth sd fun x => { x with corrected := Tbl.del x.corrected k }).logFaultAs sd lcCorrected
      part (2 ^ 30 + word % 2 ^ 29) := by
  have keys : correctedKeys part word = [k] := by rw [correctedKeys_page word h, hk]
  simp [State.correctedErr, h, keys, State.correctedAt_logged, hl, State.correctedLogged]

end Page

section Sram

variable {part : Nat} (word n : Nat) {row col : Nat} (hd : partUnit part ≠ 0x19) (hs : partUnit part ≠ 0x1A)
  (hr : row = part * 2 ^ 32 + 2 * Config.macroRow (word % 2 ^ 29))
  (hc : col = part * 2 ^ 32 + (2 * Config.macroColumn (word % 2 ^ 29) + 1))

include hd hs hr hc

/-- An error is remembered in its row and in its column while neither has seen three. -/
theorem State.correctedErr_macro_first (hl : (s.correctedAt sd row).length < 3) (hm : (s.correctedAt sd col).length < 3) :
    s.correctedErr sd part word n = (s.correctedLogged sd part word).modHealth sd fun x =>
      { x with corrected := Tbl.put (Tbl.put x.corrected row (s.correctedAt sd row)) col (s.correctedAt sd col) } := by
  have apart : col ≠ row := by rw [hr, hc]; exact (row_ne_column part _ _).symm
  have keys : correctedKeys part word = [row, col] := by rw [correctedKeys_macro word hd, hr, hc]
  simp [State.correctedErr, hs, keys, State.correctedAt_logged, Nat.not_le.2 hl, Nat.not_le.2 hm, State.correctedAt_put _ _ _ apart,
    State.modHealth_modHealth, State.correctedLogged]

/-- The third error in a row, else in a column, is reported and enters the repair log; both places count afresh. -/
theorem State.correctedErr_macro_third (hl : 3 ≤ (s.correctedAt sd row).length ∨ 3 ≤ (s.correctedAt sd col).length) :
    s.correctedErr sd part word n = (((s.correctedLogged sd part word).modHealth sd fun x =>
      { x with corrected := Tbl.del (Tbl.del x.corrected row) col }).logFaultAs sd lcCorrected part (2 ^ 30 + word % 2 ^ 29)).modHealth
        sd fun x => x.enter part ((if 3 ≤ (s.correctedAt sd row).length then row else col) % 2 ^ 32) := by
  have keys : correctedKeys part word = [row, col] := by rw [correctedKeys_macro word hd, hr, hc]
  by_cases hrow : 3 ≤ (s.correctedAt sd row).length
  · simp [State.correctedErr, hs, keys, State.correctedAt_logged, hrow, hd, State.modHealth_modHealth, State.correctedLogged]
  · have hcol := hl.resolve_left hrow
    simp [State.correctedErr, hs, keys, State.correctedAt_logged, hrow, hcol, hd, State.modHealth_modHealth, State.correctedLogged]

/-- What the third error leaves: neither place remembered, and the place once in the repair log of its array. -/
theorem State.correctedErr_macro_third_shows (hl : 3 ≤ (s.correctedAt sd row).length ∨ 3 ≤ (s.correctedAt sd col).length) :
    Tbl.find ((s.correctedErr sd part word n).side sd).health.corrected row = none ∧
      Tbl.find ((s.correctedErr sd part word n).side sd).health.corrected col = none ∧
      Tbl.getD ((s.correctedErr sd part word n).side sd).health.repair part [] = (Tbl.getD (s.side sd).health.repair part [] ++
        [(if 3 ≤ (s.correctedAt sd row).length then row else col) % 2 ^ 32]).eraseDups := by
  have apart : row ≠ col := by rw [hr, hc]; exact row_ne_column part _ _
  have logged := (s.tick1 (Rg.healthCorrected sd) Fd.healthCorrectedCount).logFaultAs_health sd part (word % 2 ^ 29) lcCorrected
  obtain ⟨first, hfirst⟩ := logged
  rw [s.correctedErr_macro_third sd word n hd hs hr hc hl, State.modHealth_health]
  obtain ⟨second, hsecond⟩ := ((s.correctedLogged sd part word).modHealth sd fun x =>
    { x with corrected := Tbl.del (Tbl.del x.corrected row) col }).logFaultAs_health sd part (2 ^ 30 + word % 2 ^ 29) lcCorrected
  rw [hsecond, State.modHealth_health, State.correctedLogged, hfirst, State.tick1_side]
  refine ⟨?_, Tbl.find_del_same _ col, Tbl.getD_put_same _ part _ _⟩
  exact (Tbl.find_del_other _ apart).trans (Tbl.find_del_same _ row)

end Sram
end Corrected

/-! ### Uncorrectable words, sectors, spares (R9, R10, R458, R459) -/

section Uncorrectable

variable (s : State) (sd : SideId)

/-- With no spare sector left writes to the store fail: a side fault. -/
theorem State.retireSector_none (part : Nat) (h : s.rd (Rg.healthSpares sd) Fd.healthSparesSpareSectors = 0) :
    s.retireSector sd part = s.sideFault sd (unitAddr 4 sd 0x1A) := by
  simp only [State.retireSector, h, if_true]

theorem State.uncorrectable_store {part : Nat} (word : Nat) (h : partUnit part = 0x1A) : s.uncorrectable sd part word =
    ((s.logFault sd part (2 * 2 ^ 30 + word % 2 ^ 29)).loseSector sd (part % 2 ^ 14)).retireSector sd part := by
  simp only [State.uncorrectable, if_pos h]

theorem State.uncorrectable_dram {part : Nat} (word : Nat) (h : partUnit part = 0x19) : s.uncorrectable sd part word =
    (s.logFault sd part (2 * 2 ^ 30 + word % 2 ^ 29)).sideFault sd (unitAddr 6 sd 0x19) := by
  simp [State.uncorrectable, h]

/-- A word of a unit that has no spares is the fault of its tile, and the unit's with it. -/
theorem State.uncorrectable_unit {part : Nat} (word : Nat) (h : 0x0F ≤ partUnit part) (hd : partUnit part ≠ 0x19)
    (hs : partUnit part ≠ 0x1A) : s.uncorrectable sd part word =
      ((s.logFault sd part (2 * 2 ^ 30 + word % 2 ^ 29)).logFault sd
        (partAddr 2 sd.code (partUnit part) (partTile part) (part % 2 ^ 14)) 0).sideFault sd (unitAddr 4 sd (partUnit part)) := by
  have cluster : ¬(3 ≤ partUnit part ∧ partUnit part ≤ 0x0E) := by omega
  have lanes : ¬(partUnit part = 0x02 ∧ partTile part ≤ 32) := by omega
  have cores : ¬(partUnit part = 0x00 ∧ partTile part ≤ 4) := by omega
  simp only [State.uncorrectable, if_neg hd, if_neg hs, if_neg cluster, if_neg lanes, if_neg cores]

/-- The fifth management core takes over from another that fails. -/
theorem State.mgmtCoreFails_spared (core : Nat) (h : s.flag (Rg.healthSpares sd) Fd.healthSparesSpareMgmt = true) (hc : core ≠ 4) :
    s.mgmtCoreFails sd core = (((s.logFault sd (tileAddr sd 0x00 core) 0).modSide sd fun x => { x with console := [] }).setFlag
      (Rg.healthSpares sd) Fd.healthSparesSpareMgmt false).partEvent sd lcSpareIn (tileAddr sd 0x00 4) 0 := by
  simp [State.mgmtCoreFails, h, hc]

/-- Without the fifth the side has failed. -/
theorem State.mgmtCoreFails_last (core : Nat) (h : s.flag (Rg.healthSpares sd) Fd.healthSparesSpareMgmt = false) :
    s.mgmtCoreFails sd core =
      ((s.logFault sd (tileAddr sd 0x00 core) 0).modSide sd fun x => { x with console := [] }).sideFault sd (unitAddr 4 sd 0x00) := by
  simp [State.mgmtCoreFails, h]

end Uncorrectable

/-! ### Key slots and masks (R447, R452, R453) -/

section Keys

variable (s : State) (sd : SideId)

theorem State.slotBad_invalid (k : Nat) (h : s.slotFlag sd k Fd.keySlotValid = false) : s.slotBad sd k = s := by
  simp [State.slotBad, h]

theorem State.slotBad_valid (k : Nat) (h : s.slotFlag sd k Fd.keySlotValid = true) : s.slotBad sd k =
    (s.setFlag (Rg.keySlot sd k) Fd.keySlotBad true).modSide sd fun x => { x with cache := Tbl.del x.cache k } := by
  simp [State.slotBad, h]

theorem length_fit (n : Nat) (b : Bytes) : (fit n b).length = n := by
  simp only [fit, sub, List.length_append, List.length_replicate, List.length_take, List.length_drop]; omega

/-- A mask taken off again gives the key. -/
theorem xorBytes_xorBytes {key m : Bytes} (h : key.length = m.length) : xorBytes (xorBytes key m) m = key := by
  induction key generalizing m with
  | nil => cases m <;> simp [xorBytes]
  | cons a key ih =>
    cases m with
    | nil => simp at h
    | cons b m =>
      have rest := ih (m := m) (by simpa using h)
      simp only [xorBytes, List.zip_cons_cons, List.map_cons] at rest ⊢
      rw [rest, BitVec.xor_assoc, BitVec.xor_self, BitVec.xor_zero]

@[simp] theorem State.freeBytes_side (n : Nat) (sd' : SideId) : (State.freeBytes n s).2.side sd' = s.side sd' := by
  induction n with
  | zero => rfl
  | succ n ih => rw [← ih]; cases sd' <;> rfl

/-- A slot masked afresh: the cached pair still gives its key, and no key changes. -/
theorem State.maskSlot_shows {k : Nat} {key : Bytes} (h : Tbl.find (s.side sd).keys k = some key) :
    ∃ p, Tbl.find ((s.maskSlot sd k).side sd).cache k = some p ∧ xorBytes p.1 p.2 = key ∧
      ((s.maskSlot sd k).side sd).keys = (s.side sd).keys := by
  simp only [State.maskSlot, h, State.modSide_same, Tbl.find_put_same, State.freeBytes_side]
  exact ⟨_, rfl, xorBytes_xorBytes (length_fit _ _).symm, trivial⟩

end Keys

/-! ### The deep test ends (R466) -/

section DeepTest

variable (s : State) (sd : SideId)

/-- The end of a deep test as recorded, before what follows from it. -/
def State.deepTested (pass : Bool) : State :=
  ((s.setFlag (Rg.healthTest sd) Fd.healthTestDeepTest false).partEvent sd lcDeepTest (unitAddr 6 sd 0x1F) (1 + b2n (!pass))).modDuty sd
    fun d => { d with tested := pass }

theorem exec_deepTestDone_idle (pass : Bool) (h : s.flag (Rg.healthTest sd) Fd.healthTestDeepTest = false) :
    exec (.deepTestDone sd pass) s = .next s := by
  change execDeepTestDone sd pass s = _
  simp only [execDeepTestDone, h, Bool.not_false, if_true]

/-- On a pass the side joins at once, or tries again 4,800 ticks later. -/
theorem exec_deepTestDone_pass (h : s.flag (Rg.healthTest sd) Fd.healthTestDeepTest = true) : exec (.deepTestDone sd true) s =
    .next (if (s.deepTested sd true).joinReady sd && (s.deepTested sd true).guardMet sd then (s.deepTested sd true).startJoin sd
      else (s.deepTested sd true).modResync sd fun r => { r with retryAt := some (s.now + 4800) }) := by
  change execDeepTestDone sd true s = _
  simp only [execDeepTestDone, h, Bool.not_true, Bool.false_eq_true, if_false, if_true]
  rfl

/-- A failure is logged, a waiting SIDE_JOIN is answered, and the lease ends. -/
theorem exec_deepTestDone_fail (h : s.flag (Rg.healthTest sd) Fd.healthTestDeepTest = true) : exec (.deepTestDone sd false) s =
    .next ((((s.deepTested sd false).logFault sd (unitAddr 6 sd 0x1F) 0).answerJoin sd .internal).endLeaseOf lkDeepTest sd.code) := by
  change execDeepTestDone sd false s = _
  simp only [execDeepTestDone, h, Bool.not_true, Bool.false_eq_true, if_false]
  rfl

theorem reportReg_healthTest : reportReg (Rg.healthTest sd).key = false := by cases sd <;> rfl

/-- The test is over, its result noted, and the role as it was. -/
theorem State.deepTested_shows (pass : Bool) : (s.deepTested sd pass).flag (Rg.healthTest sd) Fd.healthTestDeepTest = false ∧
    ((s.deepTested sd pass).duty sd).tested = pass ∧ ((s.deepTested sd pass).side sd).role = (s.side sd).role := by
  refine ⟨?_, ?_, ?_⟩
  · rw [State.deepTested, State.flag_congr (State.modDuty_regs _ _ _),
      State.flag_rest (State.unreported_partEvent _ sd _ _ _) _ (reportReg_healthTest sd), State.flag_setFlag_same _ _ _ _ rfl (by decide)]
  · rw [State.deepTested, State.modDuty_duty]
  · rw [State.deepTested, State.modDuty_role, State.role_rest (State.unreported_partEvent _ sd _ _ _), State.setFlag_side]

theorem healthTest_key_ne_faultLog (i : Nat) : (Rg.healthTest sd).key ≠ (Rg.faultLog sd i).key := by
  simp only [Rg.healthTest, Rg.faultLog]; omega

theorem healthTest_key_ne_faultHead : (Rg.healthTest sd).key ≠ (Rg.faultHead sd).key := by
  simp only [Rg.healthTest, Rg.faultHead]; omega

theorem healthTest_key_ne_healthFaults : (Rg.healthTest sd).key ≠ (Rg.healthFaults sd).key := by
  simp only [Rg.healthTest, Rg.healthFaults]; omega

theorem healthTest_key_ne_resyncStatus : (Rg.healthTest sd).key ≠ (Rg.resyncStatus sd).key := by
  simp only [Rg.healthTest, Rg.resyncStatus]; omega

/-- A failed deep test ends with the side as it stood. -/
theorem State.deepTest_fails (h : s.flag (Rg.healthTest sd) Fd.healthTestDeepTest = true) :
    ∃ t, exec (.deepTestDone sd false) s = .next t ∧ t.flag (Rg.healthTest sd) Fd.healthTestDeepTest = false ∧
      (t.duty sd).tested = false ∧ (t.side sd).role = (s.side sd).role := by
  obtain ⟨hflag, htested, hrole⟩ := s.deepTested_shows sd false
  refine ⟨_, exec_deepTestDone_fail s sd h, ?_, ?_, ?_⟩
  · rw [State.flag_congr (State.endLeaseOf_regs _ _ _),
      State.answerJoin_flag _ _ _ _ (reportReg_healthTest sd), State.logFault,
      State.logFaultAs_flag _ _ _ _ _ _ (healthTest_key_ne_faultLog sd _) (healthTest_key_ne_faultHead sd)
        (healthTest_key_ne_healthFaults sd) (reportReg_healthTest sd), hflag]
  · rw [State.duty, State.endLeaseOf_side]
    exact (State.answerJoin_tested _ sd _).trans (by rw [State.logFault, State.logFaultAs_duty, htested])
  · rw [State.endLeaseOf_side, State.answerJoin_role, State.logFault, State.logFaultAs_role, hrole]

/-- After a pass the side joins, or keeps its role and tries again. -/
theorem State.deepTest_passes (h : s.flag (Rg.healthTest sd) Fd.healthTestDeepTest = true) :
    ∃ t, exec (.deepTestDone sd true) s = .next t ∧ t.flag (Rg.healthTest sd) Fd.healthTestDeepTest = false ∧
      (t.duty sd).tested = true ∧ ((t.side sd).role = .joining ∨ (t.side sd).role = (s.side sd).role) := by
  obtain ⟨hflag, htested, hrole⟩ := s.deepTested_shows sd true
  refine ⟨_, exec_deepTestDone_pass s sd h, ?_⟩
  split
  · refine ⟨?_, ?_, .inl (State.startJoin_role _ sd)⟩
    · rw [State.startJoin_flag _ _ _ (healthTest_key_ne_resyncStatus sd), hflag]
    · rw [State.startJoin_tested, htested]
  · refine ⟨?_, ?_, .inr ?_⟩
    · rw [State.flag_congr (State.modResync_regs _ _ _), hflag]
    · rw [State.modResync_duty, htested]
    · rw [State.modResync_role, hrole]

end DeepTest

/-! ### What each row does -/

section Rows

variable (s : State) (sd : SideId)

theorem exec_correctedError (part word : Word) (n : BitVec 3) :
    exec (.correctedError sd part word n) s = .next (s.correctedErr sd part.toNat word.toNat n.toNat) := rfl

theorem exec_uncorrectableError (part word : Word) :
    exec (.uncorrectableError sd part word) s = .next (s.uncorrectable sd part.toNat word.toNat) := rfl

theorem exec_slotTagFail (k : Fin 64) : exec (.slotTagFail sd k) s = .next (s.slotBad sd k.val) := rfl

theorem exec_mgmtCoreFail : exec (.mgmtCoreFail sd) s = .next (s.free.2.mgmtCoreFails sd (s.free.1.toNat % 5)) := rfl

theorem exec_maskRefresh : exec (.maskRefresh sd) s = .next (s.remask sd) := rfl

end Rows

/-- Settles O58: each row by the lemmas of the operation it runs. -/
theorem healthEvents : Obligations.HealthEvents := by
  unfold Obligations.HealthEvents
  intro s
  refine ⟨?corrected, ?uncorrectable, fun sd part => s.retireSector_none sd part, ?logged, ?slot, ?core, ?cores,
    fun sd pass => exec_deepTestDone_idle s sd pass, fun sd => s.deepTest_fails sd, fun sd => s.deepTest_passes sd, ?unmasked, ?masked⟩
  case corrected =>
    rintro sd part word n u rfl
    simp only [exec_correctedError]
    refine ⟨fun hu hn => ?_, fun hu hn => ?_, ?_⟩
    · rw [s.correctedErr_store sd _ _ hu, if_neg (Nat.not_le.2 hn)]; rfl
    · rw [s.correctedErr_store sd _ _ hu, if_pos hn]; rfl
    rintro seen rfl
    have count : ∀ k m, m ≤ ((Tbl.getD (s.side sd).health.corrected k []).filter fun t => decide (s.now < t + 414720000)).length ↔
        m + 1 ≤ (s.correctedAt sd k).length := by
      intro k m
      simp [State.correctedAt]
    refine ⟨fun k hu hk => ⟨fun hl => ?_, fun hl => ?_⟩, fun row col hd hs hr hc => ⟨fun hl hm => ?_, fun hl => ?_⟩⟩
    · rw [← Nat.not_le, count] at hl
      rw [s.correctedErr_page_first sd _ _ hu hk (Nat.not_le.1 hl)]; rfl
    · rw [s.correctedErr_page_third sd _ _ hu hk ((count k 2).1 hl)]; rfl
    · rw [← Nat.not_le, count] at hl hm
      rw [s.correctedErr_macro_first sd _ _ hd hs hr hc (Nat.not_le.1 hl) (Nat.not_le.1 hm)]; rfl
    · simp only [count] at hl ⊢
      exact ⟨_, rfl, s.correctedErr_macro_third_shows sd _ _ hd hs hr hc hl⟩
  case uncorrectable =>
    rintro sd part word u rfl
    simp only [exec_uncorrectableError]
    exact ⟨fun hu => by rw [s.uncorrectable_store sd _ hu], fun hu => by rw [s.uncorrectable_dram sd _ hu],
      fun hu hd hs => by rw [s.uncorrectable_unit sd _ hu hd hs]⟩
  case logged =>
    exact fun sd code part word hp hw => ⟨_, s.faultSlot_lt sd, s.logFaultAs_entry sd part word code hp hw⟩
  case slot =>
    intro sd k
    rw [exec_slotTagFail]
    exact ⟨fun h => by rw [s.slotBad_invalid sd _ h], fun h => by rw [s.slotBad_valid sd _ h]⟩
  case core =>
    exact fun sd => ⟨_, _, Nat.mod_lt _ (by decide), rfl, exec_mgmtCoreFail s sd⟩
  case cores =>
    rintro sd core u rfl
    exact ⟨s.mgmtCoreFails_spared sd core, s.mgmtCoreFails_last sd core⟩
  case unmasked =>
    intro sd h
    rw [exec_maskRefresh, State.remask, h]; rfl
  case masked =>
    intro sd k x key hc hk
    have run : s.remask sd = s.maskSlot sd k := by rw [State.remask, hc]; rfl
    obtain ⟨p, hp, hkey, hkeys⟩ := s.maskSlot_shows sd hk
    exact ⟨_, p, (exec_maskRefresh s sd).trans (by rw [run]), hp, hkey, hkeys⟩

end Sys2Proof.Machine
end

section
/-! PROOFS. The Arbiter, the field channels and the safety functions (R20 to R24, R226 to R229, R338 to R350, R360). -/

namespace Sys2Proof.Machine

/-! ### What the Arbiter sees of the sides (R220, R226, R228) -/

section Window

variable (s : State) (sd : SideId)

theorem State.arbSee_same (hr : s.arb.seen sd = (s.side sd).role) (hd : s.arb.dem sd = (s.duty sd).demote) : s.arbSee sd = s := by
  simp only [State.arbSee, hr, hd, and_self, if_true]

/-- A role that has changed is forwarded to the other side, and the roles are watched. -/
theorem State.arbSee_changed (h : s.arb.seen sd ≠ (s.side sd).role) : s.arbSee sd =
    (({ s with arb := s.arb.see sd (s.side sd).role (s.duty sd).demote } : State).modSide sd.other fun x =>
      { x with peerRole := (s.side sd).role }).watchRoles := by
  simp only [State.arbSee, if_neg fun e : _ ∧ _ => h e.1]

/-- In a hand-over window nothing is judged. -/
theorem State.watchRoles_inWindow (h : s.arb.window ≠ 0) : s.watchRoles = s := by
  simp only [State.watchRoles, if_pos h]

/-- With no side followed, the side to follow is followed at once. -/
theorem State.watchRoles_free (h : s.arb.window = 0) (hf : s.arb.follow = none) :
    s.watchRoles = { s with arb := { s.arb with follow := s.followNow, rival := false } } := by
  simp [State.watchRoles, h, hf]

/-- The followed side no longer claims Active, or the other has begun to: a window opens. -/
theorem State.watchRoles_opens {f : SideId} (h : s.arb.window = 0) (hf : s.arb.follow = some f)
    (hc : s.arb.claims f = false ∨ (s.arb.claims f.other = true ∧ s.arb.rival = false)) :
    s.watchRoles = State.openWindow { s with arb := { s.arb with rival := s.arb.claims f.other } } := by
  have opens : (!s.arb.claims f || (s.arb.claims f.other && !s.arb.rival)) = true := by
    rcases hc with hc | ⟨hc, hr⟩ <;> simp [*]
  simp only [State.watchRoles, h, hf, opens, ne_eq, not_true_eq_false, if_false, if_true]

/-- While the followed side alone claims Active, or has been judged against the other, it stays followed. -/
theorem State.watchRoles_follows {f : SideId} (h : s.arb.window = 0) (hf : s.arb.follow = some f) (hc : s.arb.claims f = true)
    (ho : s.arb.claims f.other = false ∨ s.arb.rival = true) :
    s.watchRoles = { s with arb := { s.arb with rival := s.arb.claims f.other } } := by
  have stays : (!s.arb.claims f || (s.arb.claims f.other && !s.arb.rival)) = false := by
    rcases ho with ho | ho <;> simp [*]
  simp only [State.watchRoles, h, hf, stays, ne_eq, not_true_eq_false, if_false, Bool.false_eq_true]

/-- A window that has opened covers two pulses, remembers the side followed before it, and shows in ARB_WINDOW. -/
theorem State.openWindow_shows : s.openWindow.arb.window = 2 ∧ s.openWindow.arb.before = s.arb.follow ∧
    s.openWindow.arb.follow = s.arb.follow ∧ s.openWindow.flag Rg.arbWindow Fd.arbWindowOpen = true := by
  refine ⟨rfl, rfl, rfl, ?_⟩
  simp only [State.openWindow]
  rw [State.tick1_eq, State.count_eq, State.flag_wr_apart _ _ _ _ _ (by decide) (by decide) (by decide) (by decide),
    State.flag_setFlag_same _ _ _ _ rfl (by decide)]

end Window

/-! ### The outputs are driven anew (R343 to R348) -/

section Settle

variable (s : State)

@[simp] theorem State.ch_putCh_same (n : Nat) (c : ArbCh) : (s.putCh n c).ch n = c := by simp [State.ch, State.putCh]

theorem State.ch_putCh_other {n m : Nat} (c : ArbCh) (h : m ≠ n) : (s.putCh n c).ch m = s.ch m := Tbl.getD_put_other _ _ _ h

@[simp] theorem State.inst_putInst_same (i : Nat) (x : ArbInst) : (s.putInst i x).inst i = x := by simp [State.inst, State.putInst]

/-- A safety function takes note of a demand. -/
def State.demandNoted (s : State) (e : Nat × Bytes) : State :=
  if sfFunc e.2 = 2 && !s.pairHealthy e.2 then s.latch e.1 (if s.supply = 0 then 6 else 1) else s

/-- A safety function takes note of the safe position of its pair. -/
def State.safeNoted (s : State) (e : Nat × Bytes) : State :=
  if (s.inst e.1).disc && s.pairSafe e.2 then s.putInst e.1 { s.inst e.1 with safeSeen := true } else s

/-- What a safety function takes note of when the field has changed. -/
def State.instSettled (s : State) (e : Nat × Bytes) : State := (s.demandNoted e).safeNoted e

/-- Every safety function has taken note, and every output is driven. -/
def State.settled (s : State) : State := allChans.foldl (fun t n => t.driveCh n) (s.instRecs.foldl State.instSettled s)

theorem State.settleFrom_eq (shown : Nat) : s.settleFrom shown =
    if s.settled.onMask = shown then s.settled else s.settled.emit (.fieldOutput (BitVec.ofNat 32 s.settled.onMask)) := rfl

/-- A safety function that takes note changes its own state alone. -/
theorem State.instSettled_keeps {β : Type} (g : State → β) (h : ∀ t i x, g (State.putInst t i x) = g t) (e : Nat × Bytes) :
    g (s.instSettled e) = g s := by
  have latched : ∀ (t : State) i cause, g (t.latch i cause) = g t := by
    intro t i cause
    simp only [State.latch]
    split
    · rfl
    · exact h _ _ _
  have demanded : g (s.demandNoted e) = g s := by
    rw [State.demandNoted]
    split
    · exact latched _ _ _
    · rfl
  rw [State.instSettled, State.safeNoted]
  split
  · exact (h _ _ _).trans demanded
  · exact demanded

@[simp] theorem State.driveCh_noImage (n : Nat) : (s.driveCh n).arb.noImage = s.arb.noImage := by
  simp only [State.driveCh]
  split
  · rfl
  · split <;> rfl

theorem State.driveCh_other {n m : Nat} (h : m ≠ n) : (s.driveCh n).ch m = s.ch m := by
  simp only [State.driveCh]
  split
  · exact s.ch_putCh_other _ h
  · split
    · exact s.ch_putCh_other _ h
    · rfl

/-- An output that is not to be on is off. -/
theorem State.driveCh_off {n : Nat} (h : s.wantsOn n = false) : ((s.driveCh n).ch n).on = false := by
  simp only [State.driveCh, h, Bool.false_eq_true, if_false]
  split
  · rw [State.ch_putCh_same]
  · rename_i rest
    simp only [Bool.or_eq_true, not_or, Bool.not_eq_true] at rest
    exact rest.1.1.1

/-- An output that is driven on is neither short nor waiting for a retry, and outputs are not off for want of an image. -/
theorem State.driveCh_on {n : Nat} (h : ((s.driveCh n).ch n).on = true) :
    ((s.driveCh n).ch n).short = false ∧ ((s.driveCh n).ch n).retrying = false ∧ s.arb.noImage = false := by
  have wanted : s.wantsOn n = true := by
    by_contra hw
    rw [s.driveCh_off (Bool.eq_false_of_not_eq_true hw)] at h
    exact absurd h (by decide)
  simp only [State.driveCh, wanted, if_true, State.ch_putCh_same, Bool.and_eq_true, Bool.not_eq_true'] at h ⊢
  simp only [State.wantsOn, Bool.and_eq_true, Bool.not_eq_true'] at wanted
  exact ⟨h.1, h.2, wanted.2⟩

/-- Driving other channels leaves a channel. -/
theorem State.driveAll_other {n : Nat} {l : List Nat} (h : n ∉ l) : (l.foldl (fun t n => t.driveCh n) s).ch n = s.ch n := by
  induction l generalizing s with
  | nil => rfl
  | cons a l ih => rw [List.foldl_cons, ih _ (List.not_mem_of_not_mem_cons h), s.driveCh_other (List.ne_of_not_mem_cons h)]

/-- Of all that are driven, a channel ends as its own turn leaves it. -/
theorem State.driveAll_ch {n : Nat} {l : List Nat} (h : n ∈ l) :
    ∃ t : State, t.arb.noImage = s.arb.noImage ∧ (l.foldl (fun t n => t.driveCh n) s).ch n = (t.driveCh n).ch n := by
  induction l generalizing s with
  | nil => cases h
  | cons a l ih =>
    by_cases later : n ∈ l
    · obtain ⟨t, ht, e⟩ := ih (s.driveCh a) later
      exact ⟨t, ht.trans (s.driveCh_noImage a), e⟩
    · obtain rfl : n = a := (List.mem_cons.1 h).resolve_right later
      exact ⟨s, rfl, State.driveAll_other _ later⟩

theorem mem_allChans {n : Nat} (h1 : 1 ≤ n) (h2 : n ≤ 32) : n ∈ allChans :=
  List.mem_map.2 ⟨n - 1, List.mem_range.2 (by omega), by omega⟩

/-- Once settled, an output that is on is neither short nor waiting for a retry, and the Arbiter has an image. -/
theorem State.arbSettle_on {n : Nat} (h1 : 1 ≤ n) (h2 : n ≤ 32) (h : (s.arbSettle.ch n).on = true) :
    (s.arbSettle.ch n).short = false ∧ (s.arbSettle.ch n).retrying = false ∧ s.arb.noImage = false := by
  have chans : s.arbSettle.ch n = s.settled.ch n := by
    rw [State.arbSettle, State.settleFrom_eq]
    split <;> rfl
  have noted : (s.instRecs.foldl State.instSettled s).arb.noImage = s.arb.noImage :=
    foldl_keeps (fun t : State => t.arb.noImage) (fun t e => t.instSettled_keeps (fun t => t.arb.noImage) (fun _ _ _ => rfl) e) _ s
  obtain ⟨t, ht, e⟩ := State.driveAll_ch (s.instRecs.foldl State.instSettled s) (mem_allChans h1 h2)
  rw [chans, State.settled, e] at h ⊢
  obtain ⟨hs, hr, hi⟩ := t.driveCh_on h
  exact ⟨hs, hr, by rw [← noted, ← ht, hi]⟩

/-- Without an image every output is off (R229). -/
theorem State.imageLoss_off {n : Nat} (h1 : 1 ≤ n) (h2 : n ≤ 32) : (s.imageLoss.ch n).on = false := by
  by_contra h
  rw [Bool.not_eq_false, State.imageLoss] at h
  obtain ⟨-, -, image⟩ := State.arbSettle_on _ h1 h2 h
  exact absurd image (by decide : ¬ true = false)

end Settle

/-! ### A pulse of a side (R19 to R24) -/

section Pulse

variable (s : State) (sd : SideId)

/-- The pulses that the Arbiter has last seen, the roles of the sides, and the sets in force. -/
def State.pulseView (s : State) : (Nat × Nat) × (Nat × Nat) × Role × Role × Scope × Bytes :=
  (s.arb.pulseA, s.arb.pulseB, s.sideA.role, s.sideB.role, s.modActive, s.safeActive)

@[simp] theorem State.pulseView_moduleEvent (code stall : Nat) (b : Bytes) : (s.moduleEvent code stall b).pulseView = s.pulseView := rfl

@[simp] theorem State.pulseView_putCh (n : Nat) (c : ArbCh) : (s.putCh n c).pulseView = s.pulseView := rfl

@[simp] theorem State.pulseView_putInst (i : Nat) (x : ArbInst) : (s.putInst i x).pulseView = s.pulseView := rfl

@[simp] theorem State.pulseView_watchRoles : s.watchRoles.pulseView = s.pulseView := by
  simp only [State.watchRoles]
  split
  · rfl
  · split
    · rfl
    · split <;> rfl

@[simp] theorem State.pulseView_arbSee : (s.arbSee sd).pulseView = s.pulseView := by
  simp only [State.arbSee]
  split
  · rfl
  · rw [State.pulseView_watchRoles]; cases sd <;> rfl

@[simp] theorem State.pulseView_toggleAlive : (s.toggleAlive sd).pulseView = s.pulseView := by
  simp only [State.toggleAlive]
  split
  · cases sd <;> rfl
  · rfl

@[simp] theorem State.pulseView_checkSkew : s.checkSkew.pulseView = s.pulseView := by
  simp only [State.checkSkew]
  split
  · rfl
  · split <;> rfl

@[simp] theorem State.pulseView_driveCh (n : Nat) : (s.driveCh n).pulseView = s.pulseView := by
  simp only [State.driveCh]
  split
  · rfl
  · split <;> rfl

@[simp] theorem State.pulseView_instSettled (e : Nat × Bytes) : (s.instSettled e).pulseView = s.pulseView :=
  s.instSettled_keeps State.pulseView (fun _ _ _ => rfl) e

@[simp] theorem State.pulseView_settleFrom (shown : Nat) : (s.settleFrom shown).pulseView = s.pulseView := by
  have settled : s.settled.pulseView = s.pulseView :=
    (foldl_keeps State.pulseView (fun t n => t.pulseView_driveCh n) _ _).trans
      (foldl_keeps State.pulseView (fun t e => t.pulseView_instSettled e) _ s)
  rw [State.settleFrom_eq]
  split <;> exact settled

@[simp] theorem State.pulseView_arbSettle : s.arbSettle.pulseView = s.pulseView := s.pulseView_settleFrom _

@[simp] theorem State.pulseView_imageLoss : s.imageLoss.pulseView = s.pulseView := by
  rw [State.imageLoss, State.pulseView_arbSettle]; rfl

@[simp] theorem State.pulseView_applyImage (a b : Option OutData) : (s.applyImage a b).pulseView = s.pulseView := by
  have applied : ∀ t : State,
      ({ t with arb := { t.arb with without := 0, noImage := false, applied := true } } : State).pulseView = t.pulseView := fun _ => rfl
  simp only [State.applyImage, State.pulseView_arbSettle, applied]
  rw [foldl_keeps State.pulseView fun t e => t.pulseView_putInst _ _, foldl_keeps State.pulseView fun t k => t.pulseView_putCh _ _]

@[simp] theorem State.pulseView_applyImages : s.applyImages.pulseView = s.pulseView := by
  simp only [State.applyImages]
  split
  · split <;> simp
  · simp

@[simp] theorem State.pulseView_passWindow : s.passWindow.pulseView = s.pulseView := by
  simp only [State.passWindow]
  split
  · rfl
  · split <;> rfl

@[simp] theorem State.pulseView_freezeImage (w : Nat) : (s.freezeImage w).pulseView = s.pulseView := rfl

/-- At a pulse a side that the Arbiter hears is not silent. -/
def State.hearPulse (s : State) (sd : SideId) (now : Nat) : State :=
  if !s.arb.quiet sd now then ({ s with arb := s.arb.setSilent sd false } : State).setFlag (Rg.sideSelf sd.other) Fd.sideSelfPeerSeen true
  else s

theorem State.pulseView_hearPulse (now : Nat) : (s.hearPulse sd now).pulseView = s.pulseView := by
  simp only [State.hearPulse]
  split
  · cases sd <;> rfl
  · rfl

/-- What the Arbiter notes of a pulse. -/
def State.pulsed (s : State) (sd : SideId) (ns : Nat) : State :=
  let t := ((s.arbSee .A).arbSee .B).toggleAlive sd
  { t with arb := t.arb.setPulse sd (s.now, ns) }

/-- What follows where a side's pulse starts the Arbiter's tick: images are applied, the window runs, inputs freeze. -/
def State.alignTo (s : State) (sd : SideId) (now : Nat) : State :=
  if s.aligned = sd then
    ((s.applyImages.passWindow).freezeImage now).forSides fun d t =>
      if (t.duty d).inDown then t else t.setFlag (Rg.sideSelf d) Fd.sideSelfArbSeen true
  else s

theorem State.pulseView_alignTo (now : Nat) : (s.alignTo sd now).pulseView = s.pulseView := by
  have shown : ∀ (t : State) (d : SideId),
      (if (t.duty d).inDown then t else t.setFlag (Rg.sideSelf d) Fd.sideSelfArbSeen true).pulseView = t.pulseView := by
    intro t d
    split <;> rfl
  rw [State.alignTo]
  split
  · rw [State.forSides, shown, shown, State.pulseView_freezeImage, State.pulseView_passWindow, State.pulseView_applyImages]
  · rfl

theorem State.arbPulse_eq (ns : Nat) :
    s.arbPulse sd ns = ((((s.pulsed sd ns).hearPulse sd s.now).checkSkew).watchRoles).alignTo sd s.now := rfl

theorem State.pulseView_arbPulse (ns : Nat) : (s.arbPulse sd ns).pulseView = (s.pulsed sd ns).pulseView := by
  rw [State.arbPulse_eq, State.pulseView_alignTo, State.pulseView_watchRoles, State.pulseView_checkSkew, State.pulseView_hearPulse]

/-- A pulse is noted with its tick and instant; it changes no role and no set in force. -/
theorem State.arbPulse_shows (ns : Nat) : (s.arbPulse sd ns).arb.pulse sd = (s.now, ns) ∧ (s.arbPulse sd ns).sideA.role = s.sideA.role ∧
    (s.arbPulse sd ns).sideB.role = s.sideB.role ∧ (s.arbPulse sd ns).modActive = s.modActive ∧
    (s.arbPulse sd ns).safeActive = s.safeActive := by
  have before : (((s.arbSee .A).arbSee .B).toggleAlive sd).pulseView = s.pulseView := by simp
  have after := s.pulseView_arbPulse sd ns
  simp only [State.pulseView, Prod.mk.injEq] at before after
  obtain ⟨-, -, hA, hB, hm, hs⟩ := before
  obtain ⟨pA, pB, rA, rB, m, t⟩ := after
  refine ⟨?_, rA.trans hA, rB.trans hB, m.trans hm, t.trans hs⟩
  cases sd
  · exact pA
  · exact pB

end Pulse

/-! ### Silence and lost images (R21, R229, R235) -/

section Silence

variable (s : State) (sd : SideId)

/-- The state once a side counts as silent and its partner no longer sees it. -/
def State.silenced (s : State) (sd : SideId) : State :=
  ((({ s with arb := s.arb.setSilent sd true } : State).setFlag (Rg.sideSelf sd.other) Fd.sideSelfPeerSeen false).wr
    Rg.arbTickSkew Fd.arbTickSkewSkew 0).watchRoles

/-- A side whose TICK_PULSE or ALIVE has shown no activity for 2 ticks falls silent. -/
theorem State.arbSilence_quiet (hs : s.arb.silent sd = false) (hq : (s.arb.pulse sd).1 + 2 ≤ s.now ∨ (s.arb.alive sd).2 + 2 ≤ s.now) :
    s.arbSilence sd = (s.silenced sd).peerSilent sd := by
  have quiet : s.arb.quiet sd s.now = true := by
    rcases hq with hq | hq <;> simp [ArbSt.quiet, hq]
  simp only [State.arbSilence, hs, quiet, Bool.not_false, Bool.and_self, if_true]
  rfl

/-- A silent Standby or Joining side goes Out, and the active one continues. -/
theorem State.peerSilent_fails (hr : (s.side sd).role = .standby ∨ (s.side sd).role = .joining) (ho : (s.side sd.other).role = .active) :
    ((s.peerSilent sd).side sd).role = .out ∧ ((s.peerSilent sd).side sd.other).role = .active := by
  have other : sd.other ≠ sd := by cases sd <;> decide
  have fails : s.peerSilent sd = ((s.goOut sd rcSilent).endLeaseOf lkDeepTest sd.code).splitOutcome sd 3 := by
    rw [State.peerSilent]; exact if_pos ⟨hr, ho⟩
  have roles := fun d => State.role_rest (State.unreported_splitOutcome ((s.goOut sd rcSilent).endLeaseOf lkDeepTest sd.code) sd 3) d
  rw [fails, roles, roles, State.endLeaseOf_side, State.endLeaseOf_side]
  exact ⟨s.goOut_role sd rcSilent, (s.goOut_role_other sd rcSilent other).trans ho⟩

/-- While the other side is not Active nothing follows at once. -/
theorem State.peerSilent_waits (ho : (s.side sd.other).role ≠ .active) : s.peerSilent sd = s := by
  simp only [State.peerSilent, if_neg fun e : _ ∧ _ => ho e.2]

/-- 48 ticks without an image switch the outputs off. -/
theorem exec_noImageTimeout_due (hi : s.arb.noImage = false) (hd : 48 ≤ s.arb.without + b2n (!s.arb.applied)) :
    exec .noImageTimeout s = .next s.imageLoss := by
  change execNoImageTimeout s = _
  simp [execNoImageTimeout, State.noImageDue, hi, hd]

end Silence

/-! ### Inputs (R338, R341, R474) -/

section Inputs

variable (s : State) (n : Nat)

/-- No edge: the level stands already, or inputs are not sampled. -/
theorem State.edgeAccept_none {level : Bool} (tick us : Nat)
    (h : (s.ch n).level = level ∨ s.power.mode = .off ∨ s.power.mode = .parked) : s.edgeAccept n level tick us = s := by
  rcases h with h | h | h <;> simp [State.edgeAccept, State.fieldSampled, h]

/-- An edge on an input that no safety function watches: its level, and the tag of the first since the last image. -/
theorem State.edgeAccept_input {level : Bool} (tick us : Nat) (hl : (s.ch n).level ≠ level) (hi : s.instRecs = [])
    (ho : s.power.mode ≠ .off) (hp : s.power.mode ≠ .parked) (hm : s.fioMode n = 1 ∨ s.fioMode n = 2) :
    s.edgeAccept n level tick us = (s.putCh n { s.ch n with
      level := level, changed := true, multi := (s.ch n).changed, broken := (s.ch n).broken && !level
      tagTick := if (s.ch n).changed then (s.ch n).tagTick else tick
      tagUs := if (s.ch n).changed then (s.ch n).tagUs else us }).arbSettle := by
  have recs : ∀ c, (s.putCh n c).instRecs = [] := fun _ => hi
  have unwatched : ∀ c, (s.putCh n c).pairEdge n level = s.putCh n c := by
    intro c
    rw [State.pairEdge, recs]; rfl
  have taken : (!s.fieldSampled || !(s.fioMode n == 1 || s.fioMode n == 2) || (s.ch n).level == level) = false := by
    rcases hm with hm | hm <;> simp [State.fieldSampled, ho, hp, hm, hl]
  simp only [State.edgeAccept, taken, Bool.false_eq_true, if_false, unwatched, recs, List.foldl_nil]

variable (hw : bit (u8 (s.fioRec n) 2) 0 = true) (hm : s.fioMode n = 1 ∨ s.fioMode n = 2) (hs : s.supply = 2)

include hw hm hs

/-- A wire break of an input at 0 is shown and stays in FIO_FAULT. -/
theorem State.wireBreak_declared (hl : (s.ch n).level = false) :
    s.wireBreak n true = ((s.putCh n { s.ch n with broken := true }).fioFaulted n).arbSettle := by
  simp [State.wireBreak, hw, hm, hs, hl]

theorem State.wireBreak_cleared : s.wireBreak n false = (s.putCh n { s.ch n with broken := false }).arbSettle := by
  simp [State.wireBreak, hw, hm, hs]

end Inputs

/-! ### Outputs (R344, R345) -/

section Outputs

variable (s : State) (n : Nat)

/-- A short switches the output off, for a retry. -/
theorem State.outputShort_retries (ho : (s.ch n).on = true) (hr : (s.ch n).retries < 3) : s.outputShort n =
    (s.putCh n { s.ch n with on := false, openLoad := false, retrying := true }).settleFrom s.onMask := by
  simp [State.outputShort, ho, Nat.not_le.2 hr]

/-- After three retries it stays off and in FIO_FAULT. -/
theorem State.outputShort_lasts (ho : (s.ch n).on = true) (hr : 3 ≤ (s.ch n).retries) : s.outputShort n =
    ((s.putCh n { s.ch n with on := false, openLoad := false, retrying := false, short := true }).fioFaulted n).settleFrom s.onMask := by
  simp [State.outputShort, ho, hr]

theorem State.shortRetry_due (h : (s.ch n).retrying = true) :
    s.shortRetry n = (s.putCh n { s.ch n with retrying := false, retries := (s.ch n).retries + 1 }).arbSettle := by
  simp [State.shortRetry, h]

theorem State.shortRetryClear_due (ho : (s.ch n).on = true) (hr : (s.ch n).retrying = false) :
    s.shortRetryClear n = s.putCh n { s.ch n with retries := 0 } := by
  simp [State.shortRetryClear, ho, hr]

theorem State.openLoad_detected (hf : bit (u8 (s.fioRec n) 2) 1 = true) (ho : (s.ch n).on = true) (hs : s.supply = 2) :
    s.openLoad n true = (s.putCh n { s.ch n with openLoad := true }).fioFaulted n := by
  simp [State.openLoad, hf, ho, hs]

theorem State.openLoad_cleared (h : (s.ch n).on = false ∨ s.supply = 2) :
    s.openLoad n false = s.putCh n { s.ch n with openLoad := false } := by
  rcases h with h | h <;> simp [State.openLoad, h]

/-- While the supply is not OK nothing is evaluated. -/
theorem State.openLoad_frozen (ho : (s.ch n).on = true) (hs : s.supply ≠ 2) : s.openLoad n false = s := by
  simp [State.openLoad, ho, hs]

end Outputs

/-! ### Safety functions (R347 to R350) -/

section SafetyFunctions

variable (s : State)

/-- A latched safety function is latched, by this cause or an earlier one. -/
theorem State.latch_latched (i cause : Nat) : ((s.latch i cause).inst i).latched = true := by
  simp only [State.latch]
  split
  · assumption
  · rw [State.inst_putInst_same]

variable {i : Nat} {r : Bytes} (h : s.instRecs.find? (fun e => e.1 == i) = some (i, r))

include h

/-- The matching edge has not come: both channels of the pair are marked, and the function latches with cause 2. -/
theorem State.discrepancyTimeout_due (hf : sfFunc r = 2 ∨ sfFunc r = 3) (he : (s.inst i).edges ≠ []) {mark : State → Nat → State}
    (hm : mark = fun t n => (t.putCh n { t.ch n with discrepant := true }).fioFaulted n) :
    s.discrepancyTimeout i = ((mark (mark s (sfPair r).1) (sfPair r).2).putInst i
      { s.inst i with latched := true, cause := 2, disc := true, safeSeen := false, edges := [] }).arbSettle := by
  subst hm
  have edges : (s.inst i).edges.isEmpty = false := by simpa [List.isEmpty_eq_false_iff] using he
  simp only [State.discrepancyTimeout, h, edges, hf, Bool.not_false, decide_true, Bool.and_self, if_true]
  rfl

/-- The feedback does not follow its output: the channel is marked, and the function latches with cause 3. -/
theorem State.feedbackTimeout_due (hf : sfFunc r = 4) (hb : s.feedbackOk r (s.ch (sfOutput r)).on = false) : s.feedbackTimeout i =
    (((s.putCh (u8 r 8) { s.ch (u8 r 8) with feedback := true }).fioFaulted (u8 r 8)).latch i 3).arbSettle := by
  simp only [State.feedbackTimeout, h, hf, hb, Bool.not_false, decide_true, Bool.and_self, if_true]

/-- The hard-wired permit and the processor's disagree: the function latches with cause 4. -/
theorem State.permitDisagree_due (hp : s.hwPermit i r ≠ (s.inst i).proc) : s.permitDisagree i = (s.latch i 4).arbSettle := by
  simp only [State.permitDisagree, h, bne_iff_ne.2 hp, if_true]

end SafetyFunctions

/-! ### What each row does -/

section Rows

variable (s : State) (sd : SideId) (ch : Fin 32)

theorem exec_roleClaimChange : exec (.roleClaimChange sd) s = .next (s.arbSee sd) := rfl
theorem exec_arbTickPulse (ns : Nat) : exec (.arbTickPulse sd ns) s = .next (s.arbPulse sd ns) := rfl
theorem exec_arbSideSilent : exec (.arbSideSilent sd) s = .next (s.arbSilence sd) := rfl
theorem exec_fieldEdgeAccept (level : Bool) (tick : DWord) (us : BitVec 8) :
    exec (.fieldEdgeAccept ch level tick us) s = .next (s.edgeAccept (ch.val + 1) level tick.toNat us.toNat) := rfl
theorem exec_discrepancyTimeout (i : Fin 32) : exec (.discrepancyTimeout i) s = .next (s.discrepancyTimeout i.val) := rfl
theorem exec_feedbackTimeout (i : Fin 32) : exec (.feedbackTimeout i) s = .next (s.feedbackTimeout i.val) := rfl
theorem exec_permitDisagreeTimeout (i : Fin 32) : exec (.permitDisagreeTimeout i) s = .next (s.permitDisagree i.val) := rfl
theorem exec_outputShort : exec (.outputShort ch) s = .next (s.outputShort (ch.val + 1)) := rfl
theorem exec_shortRetry : exec (.shortRetry ch) s = .next (s.shortRetry (ch.val + 1)) := rfl
theorem exec_shortRetryClear : exec (.shortRetryClear ch) s = .next (s.shortRetryClear (ch.val + 1)) := rfl
theorem exec_openLoadDetect : exec (.openLoadDetect ch) s = .next (s.openLoad (ch.val + 1) true) := rfl
theorem exec_openLoadClear : exec (.openLoadClear ch) s = .next (s.openLoad (ch.val + 1) false) := rfl
theorem exec_wireBreakDeclare : exec (.wireBreakDeclare ch) s = .next (s.wireBreak (ch.val + 1) true) := rfl
theorem exec_wireBreakClear : exec (.wireBreakClear ch) s = .next (s.wireBreak (ch.val + 1) false) := rfl

theorem exec_fieldSupplyChange (v : BitVec 16) : exec (.fieldSupplyChange v) s = .next
    (((s.wr Rg.fioSupply Fd.fioSupplyVoltage v.toNat).wr Rg.fioSupply Fd.fioSupplyState (supplyOf s.supply v.toNat)).arbSettle) := rfl

theorem exec_safeUnlockExpiry (o : Word) (h : s.unlocked o.toNat = false) :
    exec (.safeUnlockExpiry o) s = .next { s with unlocks := Tbl.del s.unlocks o.toNat } := by
  change execSafeUnlockExpiry o s = _
  simp only [execSafeUnlockExpiry, State.unlockExpiry, h, Bool.false_eq_true, if_false]

theorem exec_safeLockoutEnd (h : s.lockedOut = false) : exec .safeLockoutEnd s = .next { s with safeLockout := none } := by
  change execSafeLockoutEnd s = _
  simp only [execSafeLockoutEnd, State.lockoutEnd, h, Bool.false_eq_true, if_false]

end Rows

/-- Settles O48: each row by the lemmas of the operation it runs. -/
theorem fieldEvents : Obligations.FieldEvents := by
  unfold Obligations.FieldEvents
  intro s
  refine ⟨?seen, ?changed, s.watchRoles_free, ?opens, fun f => s.watchRoles_follows, s.watchRoles_inWindow,
    fun sd ns => ⟨_, exec_arbTickPulse s sd ns, s.arbPulse_shows sd ns⟩, ?silent, exec_noImageTimeout_due s,
    fun n => s.imageLoss_off, fun n => s.arbSettle_on, ?noEdge, ?edge, ?outputs, exec_fieldSupplyChange s, by decide, ?functions,
    s.latch_latched, exec_safeUnlockExpiry s, exec_safeLockoutEnd s⟩
  case seen =>
    intro sd hr hd
    rw [exec_roleClaimChange, s.arbSee_same sd hr hd]
  case changed =>
    intro sd h
    rw [exec_roleClaimChange, s.arbSee_changed sd h]
  case opens =>
    intro f h hf hc
    rw [s.watchRoles_opens h hf hc]
    obtain ⟨hwindow, hbefore, hfollow, hflag⟩ := State.openWindow_shows { s with arb := { s.arb with rival := s.arb.claims f.other } }
    exact ⟨hwindow, hbefore.trans hf, hfollow.trans hf, hflag⟩
  case silent =>
    rintro sd hs hq t rfl
    rw [exec_arbSideSilent, s.arbSilence_quiet sd hs hq]
    exact ⟨fun hr ho => ⟨_, rfl, (s.silenced sd).peerSilent_fails sd hr ho⟩,
      fun ho => congrArg _ ((s.silenced sd).peerSilent_waits sd ho)⟩
  case noEdge =>
    intro ch level tick us h
    rw [exec_fieldEdgeAccept, s.edgeAccept_none _ _ _ h]
  case edge =>
    rintro ch level tick us c rfl hl hi ho hp hm
    rw [exec_fieldEdgeAccept, s.edgeAccept_input _ _ _ hl hi ho hp hm]
  case outputs =>
    rintro ch c rfl
    refine ⟨fun ho hr => ?_, fun ho hr => ?_, fun h => ?_, fun ho hr => ?_, fun hf ho hs => ?_, fun h => ?_, fun ho hs => ?_,
      fun hw hm hs => ⟨fun hl => ?_, ?_⟩⟩
    · rw [exec_outputShort, s.outputShort_retries _ ho hr]
    · rw [exec_outputShort, s.outputShort_lasts _ ho hr]; rfl
    · rw [exec_shortRetry, s.shortRetry_due _ h]
    · rw [exec_shortRetryClear, s.shortRetryClear_due _ ho hr]
    · rw [exec_openLoadDetect, s.openLoad_detected _ hf ho hs]; rfl
    · rw [exec_openLoadClear, s.openLoad_cleared _ h]
    · rw [exec_openLoadClear, s.openLoad_frozen _ ho hs]
    · rw [exec_wireBreakDeclare, s.wireBreak_declared _ hw hm hs hl]; rfl
    · rw [exec_wireBreakClear, s.wireBreak_cleared _ hw hm hs]
  case functions =>
    intro i r h
    refine ⟨fun hf he mark hm => ?_, fun hf hb => ?_, fun hp => ?_⟩
    · rw [exec_discrepancyTimeout, s.discrepancyTimeout_due h hf he hm]
    · rw [exec_feedbackTimeout, s.feedbackTimeout_due h hf hb]; rfl
    · rw [exec_permitDisagreeTimeout, s.permitDisagree_due h hp]

end Sys2Proof.Machine
end

section
/-! PROOFS. Sides and pairs (R9, R10, R21, R52, R218 to R223, R231 to R248). -/

namespace Sys2Proof.Machine

/-! ### Faults of parts (R9, R10) -/

section Parts

variable (s : State) (sd : SideId) (part : Word)

theorem exec_unitFault_module (h : 2 ≤ partDomain part.toNat) : exec (.unitFault sd part) s = .next (s.moduleFault part.toNat) := by
  change execUnitFault sd part s = _
  simp only [execUnitFault, if_pos h]

variable (hd : partDomain part.toNat ≤ 1)

include hd

theorem exec_unitFault_array (h : partLevel part.toNat = 1) :
    exec (.unitFault sd part) s = .next (s.uncorrectable sd part.toNat 0) := by
  change execUnitFault sd part s = _
  simp only [execUnitFault, if_neg (Nat.not_le.2 (Nat.lt_succ_of_le hd)), if_pos h]

theorem exec_unitFault_side (h : 5 ≤ partLevel part.toNat) : exec (.unitFault sd part) s = .next (s.sideFault sd part.toNat) := by
  change execUnitFault sd part s = _
  have array : partLevel part.toNat ≠ 1 := by omega
  have tile : ¬partLevel part.toNat ≤ 4 := by omega
  simp only [execUnitFault, if_neg (Nat.not_le.2 (Nat.lt_succ_of_le hd)), if_neg array, if_neg tile]

variable (h1 : partLevel part.toNat ≠ 1) (h4 : partLevel part.toNat ≤ 4)

include h1 h4

theorem exec_unitFault_part : exec (.unitFault sd part) s = .next (s.partFails sd part.toNat) := by
  change execUnitFault sd part s = _
  simp only [execUnitFault, if_neg (Nat.not_le.2 (Nat.lt_succ_of_le hd)), if_neg h1, if_pos h4]

end Parts

section Retired

variable (s : State) (sd : SideId) {part : Nat}

theorem State.partFails_cluster (h3 : 3 ≤ partUnit part) (h14 : partUnit part ≤ 14) : s.partFails sd part = s.clusterPart sd part := by
  have unit : 3 ≤ partUnit part ∧ partUnit part ≤ 0x0E := ⟨h3, h14⟩
  simp only [State.partFails, State.retirePart, if_pos unit, if_true]

theorem State.partFails_sector (hl : partLevel part = 2) (hu : partUnit part = 0x1A) :
    s.partFails sd part = (s.logFault sd part 0).retireSector sd part := by
  simp [State.partFails, State.retirePart, hl, hu]

theorem serdesLane_lt {tile : Nat} {lane : Lane} (h : serdesLane tile = some lane) : tile ≤ 10 := by
  by_contra hn
  simp only [serdesLane, dif_neg (show ¬tile < 8 by omega), if_neg (show tile ≠ 8 by omega), if_neg (show tile ≠ 9 by omega),
    if_neg (show tile ≠ 10 by omega)] at h
  cases h

theorem State.partFails_lane (hu : partUnit part = 0x11) {lane : Lane} (hl : serdesLane (partTile part) = some lane) :
    s.partFails sd part = (s.logFault sd part 0).failLane lane := by
  simp [State.partFails, State.retirePart, hu, serdesLane_lt hl, hl]

/-- A part beyond the clusters that has no spare of its own is the fault of its side. -/
theorem State.partFails_side (hu : 14 < partUnit part) (hs : partUnit part ≠ 0x1A ∨ partLevel part ≠ 2)
    (hx : partUnit part ≠ 0x11 ∨ 10 < partTile part) : s.partFails sd part = s.sideFault sd part := by
  have cluster : ¬(3 ≤ partUnit part ∧ partUnit part ≤ 0x0E) := by omega
  have sector : ¬(partUnit part = 0x1A ∧ partLevel part = 2) := by omega
  have lane : ¬(partUnit part = 0x11 ∧ partTile part ≤ 10) := by omega
  have lanes : partUnit part ≠ 0x02 := by omega
  have cores : partUnit part ≠ 0x00 := by omega
  simp only [State.partFails, State.retirePart, if_neg cluster, if_neg sector, if_neg lane, lanes, cores, false_and, if_false]
  rfl

end Retired

/-! ### Monitors (R218, R247) -/

section Monitors

variable (s : State) (sd : SideId)

theorem exec_clockFault : exec (.clockFault sd) s = .next
    ((s.setFlag (Rg.regionStatus sd) Fd.regionStatusWarn true).sideFault sd (unitAddr 6 sd 0x1C)) := rfl

theorem exec_dieOvertemp (temp : BitVec 16) : exec (.dieOvertemp sd temp) s = .next
    (if 1150 < temp.toInt then (s.wr (Rg.powerTemp sd) Fd.powerTempDie temp.toNat).sideFault sd (unitAddr 5 sd 0x1F)
      else s.wr (Rg.powerTemp sd) Fd.powerTempDie temp.toNat) := rfl

theorem exec_watchdogExpiry : exec (.watchdogExpiry sd) s =
    .next (s.modDuty sd fun d => { d with leaveAt := some (s.now + 1, 16 + rcSelf) }) := rfl

/-- What a fold by the larger keeps is no less than its start and than each member. -/
theorem foldl_max_le (f : Nat → Nat) (l : List Nat) (m : Nat) :
    m ≤ l.foldl (fun m i => max m (f i)) m ∧ ∀ i ∈ l, f i ≤ l.foldl (fun m i => max m (f i)) m := by
  induction l generalizing m with
  | nil => exact ⟨Nat.le_refl _, by simp⟩
  | cons a l ih =>
    obtain ⟨start, members⟩ := ih (max m (f a))
    refine ⟨Nat.le_trans (Nat.le_max_left _ _) start, fun i hi => ?_⟩
    rcases List.mem_cons.1 hi with rfl | hi
    · exact Nat.le_trans (Nat.le_max_right _ _) start
    · exact members i hi

theorem toSigned_toNat (v : BitVec 16) : toSigned 16 v.toNat = v.toInt := by
  have := v.isLt
  simp only [toSigned, BitVec.toInt_eq_toNat_cond, Nat.mod_eq_of_lt this]
  split <;> split <;> omega

/-- RAIL_DEV counts a rail in by its deviation. -/
theorem State.worstRail_ge (rail : Fin 8) (mv dev : BitVec 16) : min 255 (dev.toInt.natAbs / 10) ≤
    (s.putReg (Rg.rail sd rail.val) (mv.toNat * 65536 + dev.toNat)).worstRail sd := by
  have hm := mv.isLt
  have hd := dev.isLt
  have shown : (s.putReg (Rg.rail sd rail.val) (mv.toNat * 65536 + dev.toNat)).regWord (Rg.rail sd rail.val) % 65536 = dev.toNat := by
    rw [State.regWord_putReg_same]; omega
  have worst := (foldl_max_le (fun i => (toSigned 16
    ((s.putReg (Rg.rail sd rail.val) (mv.toNat * 65536 + dev.toNat)).regWord (Rg.rail sd i) % 65536)).natAbs / 10) (upto 8) 0).2
      rail.val (List.mem_range.2 rail.isLt)
  rw [shown, toSigned_toNat] at worst
  rw [State.worstRail]
  omega

theorem exec_railFault (rail : Fin 8) (mv dev : BitVec 16) {r t : State}
    (hr : r = s.putReg (Rg.rail sd rail.val) (mv.toNat * 65536 + dev.toNat))
    (ht : t = r.wr (Rg.regionStatus sd) Fd.regionStatusRailDev (r.worstRail sd)) : exec (.railFault sd rail mv dev) s = .next
      (if 300 < dev.toInt.natAbs then (t.setFlag (Rg.regionStatus sd) Fd.regionStatusWarn true).sideFault sd (unitAddr 6 sd 0x1E)
        else t) := by
  subst ht hr; rfl

/-- A side that has lost the Arbiter leaves at the next T0. -/
def State.unheardArb (s : State) (sd : SideId) : State :=
  ((s.setFlag (Rg.sideSelf sd) Fd.sideSelfArbSeen false).unitFailed sd 0x1F).modDuty sd fun d =>
    { d with leaveAt := some (s.now + 1, rcSelf), inDown := true }

/-- The other side still hears the Arbiter. -/
theorem exec_arbLinkLoss_one (h : s.flag (Rg.sideSelf sd.other) Fd.sideSelfArbSeen = true) :
    exec (.arbLinkLoss sd) s = .next (s.unheardArb sd) := by
  change execArbLinkLoss sd s = _
  simp only [execArbLinkLoss, h, Bool.not_true, Bool.and_false, Bool.false_and, Bool.false_eq_true, if_false]
  rfl

/-- Neither does: the outcome of a split is recorded. -/
theorem exec_arbLinkLoss_both (hs : s.flag (Rg.sideSelf sd) Fd.sideSelfArbSeen = true)
    (ho : s.flag (Rg.sideSelf sd.other) Fd.sideSelfArbSeen = false) (hr : (s.side sd).role ≠ .out) :
    exec (.arbLinkLoss sd) s = .next ((s.unheardArb sd).splitOutcome sd 4) := by
  change execArbLinkLoss sd s = _
  simp only [execArbLinkLoss, hs, ho, bne_iff_ne.2 hr, Bool.not_false, Bool.and_self, if_true]
  rfl

/-- The temperatures of both sides are shown as they differ. -/
def State.tempDiffShown (s : State) (kelvin : Nat) : State :=
  (s.wr (Rg.regionStatus .A) Fd.regionStatusTempDiff kelvin).wr (Rg.regionStatus .B) Fd.regionStatusTempDiff kelvin

theorem exec_tempDiffWarn (k : BitVec 8) : exec (.tempDiffWarn k) s = .next
    (if 25 < k.toNat then (((s.tempDiffShown k.toNat).warn .A).warn .B).moduleEvent evTempDiff 0 (beBytes 1 k.toNat ++ zeros 15)
      else s.tempDiffShown k.toNat) := rfl

/-- The regions of the two sides are two registers. -/
theorem regionStatus_key_ne : (Rg.regionStatus .A).key ≠ (Rg.regionStatus .B).key := by decide

/-- Beyond 25 K both sides show the difference, and WARN. -/
theorem State.tempDiff_shows {k : Nat} (h : k < 256) : ((((s.tempDiffShown k).warn .A).warn .B).flag (Rg.regionStatus sd)
      Fd.regionStatusWarn = true) ∧ (((s.tempDiffShown k).warn .A).warn .B).rd (Rg.regionStatus sd) Fd.regionStatusTempDiff = k := by
  have ab := regionStatus_key_ne
  have small : k % 2 ^ (Fd.regionStatusTempDiff.hi - Fd.regionStatusTempDiff.lo + 1) = k := Nat.mod_eq_of_lt h
  cases sd
  · constructor
    · rw [State.warn, State.setFlag_eq, State.wr_eq, State.flag_putReg_other _ _ _ ab, State.warn,
        State.flag_setFlag_same _ _ _ _ rfl (by decide)]
    · rw [State.warn, State.setFlag_eq, State.rd_wr_other _ _ _ _ ab, State.warn, State.rd_setFlag_apart _ _ _ _ _ (by decide) (by decide)
        (by decide) (by decide), State.tempDiffShown, State.rd_wr_other _ _ _ _ ab, State.rd_wr_same _ _ _ _ (by decide) (by decide), small]
  · constructor
    · rw [State.warn, State.flag_setFlag_same _ _ _ _ rfl (by decide)]
    · rw [State.warn, State.rd_setFlag_apart _ _ _ _ _ (by decide) (by decide) (by decide) (by decide), State.warn, State.setFlag_eq,
        State.rd_wr_other _ _ _ _ ab.symm, State.tempDiffShown, State.rd_wr_same _ _ _ _ (by decide) (by decide), small]

end Monitors

/-! ### A demotion learned (R220 to R222) -/

section Learned

variable (s : State) (sd : SideId) (ns : Nat)

/-- The surviving side, Standby, unpromised and in date, takes over, and the outcome of the split is recorded. -/
theorem exec_peerDemotionLearned_ready (hd : (s.duty sd.other).demote = true) (hr : (s.side sd).role = .standby)
    (hs : (s.duty sd).sealAt = none) (hp : (s.duty sd).promoteAt = none) (hm : s.mayPromote sd = true) :
    exec (.peerDemotionLearned sd ns) s = .next ((s.takeOver sd ns).splitOutcome sd 5) := by
  have ready : ((s.duty sd.other).demote && (s.side sd).role != .active && (s.duty sd).sealAt.isNone && (s.duty sd).promoteAt.isNone &&
      s.mayPromote sd) = true := by
    rw [hd, hr, hs, hp, hm]; rfl
  change execPeerDemotionLearned sd ns s = _
  simp only [execPeerDemotionLearned, State.learnDemotion, ready, Bool.not_true, Bool.false_eq_true, if_false]

/-- News after 203.0 µs counts for the next tick (log entry 102). -/
theorem State.takeOver_late (h : 203000 ≤ ns) : s.takeOver sd ns = s.modDuty sd fun d => { d with sealAt := some (s.now + 1) } := by
  simp only [State.takeOver, if_pos h]; rfl

/-- A side that has computed the tick is Active from the next T0. -/
theorem State.takeOver_computed (h : ns < 203000) (hc : (s.duty sd).computed = s.now) :
    s.takeOver sd ns = s.modDuty sd fun d => { d with promoteAt := some (s.now + 1) } := by
  simp only [State.takeOver, if_neg (Nat.not_le.2 h), if_pos hc]

/-- Before 3.0 µs of a tick not computed the side seals it itself. -/
theorem State.takeOver_early (h : ns < 3000) (hc : (s.duty sd).computed ≠ s.now) (ho : s.open_ = true) :
    s.takeOver sd ns = s.selfSeal sd := by
  simp only [State.takeOver, if_neg (show ¬203000 ≤ ns by omega), if_neg hc, if_pos (And.intro h ho)]

/-- A tick whose bell counts as missing already is not counted again. -/
theorem State.takeOver_missed (h : ns < 203000) (hn : 3000 ≤ ns) (hc : (s.duty sd).computed ≠ s.now)
    (hm : (s.duty sd).missed = some s.now) : s.takeOver sd ns = s.modDuty sd fun d => { d with sealAt := some (s.now + 1) } := by
  have counted : s.bellMissing sd = s := by rw [State.bellMissing]; exact if_pos (.inr (.inr (.inr hm)))
  simp only [State.takeOver, if_neg (Nat.not_le.2 h), if_neg hc, if_neg (show ¬(ns < 3000 ∧ s.open_ = true) by omega), counted]
  rfl

end Learned

/-! ### The time guard and the limits between the sides (R52, R246, R247) -/

section Guard

variable (s : State) (sd : SideId) (off : Int)

/-- While the guard holds a side back, a measurement within the limit lets it join; beyond 1 ms it steps to the active time. -/
theorem exec_timeGuardRetry_held {k : Nat} (hg : (s.duty sd).resync.guarded = some k) (hn : s.now ≤ k + 48000)
    (hr : (s.side sd).role = .out) : exec (.timeGuardRetry sd off) s = .next
      (if off.natAbs ≤ 1000 then (s.modDuty sd fun d => { d with t0Off := off }).autoJoin sd
        else s.modDuty sd fun d => { d with t0Off := stepped off }) := by
  have held : (guardOpen (s.duty sd).resync.guarded s.now && (s.side sd).role == .out) = true := by
    simp [guardOpen, hg, hn, hr]
  change execTimeGuardRetry sd off s = _
  simp only [execTimeGuardRetry, held, if_true, decide_eq_true_eq]

/-- A Standby side that leaves step claims Joining, unsealed, and notes why. -/
theorem State.leaveStep_shows (loss : Bool) : ((s.leaveStep sd loss).side sd).role = .joining ∧
    (s.leaveStep sd loss).flag (Rg.bellStatus sd) Fd.bellStatusUnsealed = true ∧ ((s.leaveStep sd loss).duty sd).byLoss = loss := by
  have apart : (Rg.bellStatus sd).key ≠ (Rg.resyncStatus sd).key := by simp only [Rg.bellStatus, Rg.resyncStatus]; omega
  refine ⟨?_, ?_, ?_⟩
  · rw [State.leaveStep, State.modResync_role, State.setPhase, State.wr_role, State.setFlag_side, State.modSide_same]
    exact s.putRole_role sd .joining
  · rw [State.leaveStep, State.flag_congr (State.modResync_regs _ _ _), State.setPhase, State.wr_eq, State.flag_putReg_other _ _ _ apart,
      State.flag_setFlag_same _ _ _ _ rfl (by decide)]
  · simp only [State.leaveStep, State.modResync_duty, State.setPhase]
    simp only [State.duty, State.wr_side, State.setFlag_side, State.modSide_same]

theorem exec_t0DriftLimit_reference (h : s.refBeyond = true) : exec (.t0DriftLimit false) s = .next s.loseLock := by
  change execT0DriftLimit false s = _
  simp only [execT0DriftLimit, h, Bool.false_eq_true, if_false, if_true]

/-- The Standby side leaves step. -/
theorem exec_t0DriftLimit_sides (h : s.refBeyond = false) (hA : s.sideA.role = .active) (hB : s.sideB.role = .standby) :
    exec (.t0DriftLimit false) s = .next ((s.setFlag (Rg.regionStatus .B) Fd.regionStatusWarn true).leaveStep .B false) := by
  have active : (s.side .A).role ≠ .standby := by rw [State.side, hA]; decide
  change execT0DriftLimit false s = _
  simp only [execT0DriftLimit, h, Bool.false_eq_true, if_false, State.forSides, if_neg active]
  exact congrArg _ (if_pos hB)

theorem State.pairFollows_of (hm : s.pairMode = 1) (hr : s.pair.role = 2) : s.pairFollows = true := by
  simp [State.pairFollows, hm, hr]

/-- The following module is isolated by its drift. -/
theorem exec_t0DriftLimit_modules (hm : s.pairMode = 1) (hr : s.pair.role = 2) : exec (.t0DriftLimit true) s = .next
    { (s.setFlag (Rg.regionStatus .A) Fd.regionStatusWarn true).setFlag (Rg.regionStatus .B) Fd.regionStatusWarn true with
      pair := { s.pair with role := 3, drifted := true } } := by
  change execT0DriftLimit true s = _
  simp only [execT0DriftLimit, s.pairFollows_of hm hr, if_true]
  rfl

end Guard

/-! ### The cross-link (R18, R237, R247, R444) -/

section CrossLink

variable (s : State)

theorem exec_crosslinkRecover_apart (hu : s.xlink.unlocked = true) (hb : s.refBeyond = true) : exec .crosslinkRecover s = .next s := by
  change execCrosslinkRecover s = _
  simp only [execCrosslinkRecover, hu, hb, Bool.and_self, if_true]

/-- Where lock was lost and the clocks are near again, the link is locked. -/
theorem exec_crosslinkRecover_locks (hu : s.xlink.unlocked = true) (hb : s.refBeyond = false) :
    ∃ t, exec .crosslinkRecover s = .next t ∧ t.xlink.unlocked = false := by
  change ∃ t, execCrosslinkRecover s = .next t ∧ t.xlink.unlocked = false
  simp only [execCrosslinkRecover, hu, hb, Bool.and_false, Bool.false_eq_true, if_false, if_true]
  exact ⟨_, rfl, rfl⟩

/-- Where lock was not lost, the side that a split sent Out rejoins. -/
theorem exec_crosslinkRecover_rejoins (hu : s.xlink.unlocked = false) (hA : (s.duty .A).splitOut = false)
    (hB : (s.duty .B).splitOut = true) : exec .crosslinkRecover s = .next ((s.trainLink s.xlink.trusted).autoJoin .B) := by
  have lock : (s.trainLink s.xlink.trusted).xlink.unlocked = false := hu
  have stays : ((s.trainLink s.xlink.trusted).duty .A).splitOut = false := hA
  have goes : ((s.trainLink s.xlink.trusted).duty .B).splitOut = true := hB
  change execCrosslinkRecover s = _
  simp only [execCrosslinkRecover, hu, Bool.false_and, Bool.false_eq_true, if_false, State.rejoinSplit, State.forSides, stays, goes,
    lock, if_true]

/-- Without trust there is no link key, with it there is one. -/
theorem State.trainLink_link : (s.trainLink false).xlink.link = none ∧ (s.trainLink true).xlink.link ≠ none :=
  ⟨rfl, Option.some_ne_none _⟩

end CrossLink

/-! ### Resynchronisation (R232, R233) -/

section Resync

variable (s : State) (sd : SideId)

theorem exec_resyncBulkDone_side (hr : (s.side sd).role = .joining) (hp : s.phase sd = 1)
    (hn : s.now < (s.duty sd).resync.start + 2400) :
    exec (.resyncBulkDone sd) s = .next (s.wr (Rg.resyncStatus sd) Fd.resyncStatusPhase 2) := by
  change execResyncBulkDone sd s = _
  rw [execResyncBulkDone]
  exact if_pos ⟨hr, hp, hn⟩

theorem exec_resyncBulkDone_module (hr : (s.side sd).role ≠ .joining) (hm : s.pairMode = 1) (hj : s.pair.role = 4)
    (hp : s.pair.join.phase = 1) (hn : s.now < s.pair.join.start + 2400) :
    exec (.resyncBulkDone sd) s = .next { s with pair := { s.pair with join := { s.pair.join with phase := 2 } } } := by
  change execResyncBulkDone sd s = _
  rw [execResyncBulkDone, if_neg fun e => hr e.1, if_pos ⟨hm, hj, hp, hn⟩]
  rfl

theorem exec_resyncAttemptFail_over (hr : (s.side sd).role = .joining) (ho : s.attemptOver sd = true) :
    exec (.resyncAttemptFail sd) s = .next (s.attemptFail sd) := by
  change execResyncAttemptFail sd s = _
  rw [execResyncAttemptFail, if_pos ⟨hr, ho⟩]

/-- A failed attempt leaves the side Out, whether or not it was the last. -/
theorem State.attemptFail_role : ((s.attemptFail sd).side sd).role = .out := by
  simp only [State.attemptFail]
  split <;> simp [State.setPhase]

theorem exec_resyncRetry_due {k : Nat} (h : (s.duty sd).resync.retryAt = some k) (hk : k ≤ s.now) :
    exec (.resyncRetry sd) s = .next (s.autoJoin sd) := by
  change execResyncRetry sd s = _
  simp only [execResyncRetry, h, if_pos hk]

end Resync

/-! ### The pair (R241, R242, R245) -/

section Pair

variable (s : State)

/-- No bell over the Smirnel Link while the module's own cross-link is up. -/
theorem exec_smirnelLoss_alone (hm : s.pairMode = 1) (hA : s.xlinkUp .A = true) (hB : s.xlinkUp .B = true) :
    exec .smirnelLoss s = .next
      (if s.pair.role = 2 then s.setPairRole 3 else if s.pair.role = 1 then s.setPairRole 0 else s) := by
  change execSmirnelLoss s = _
  simp [execSmirnelLoss, hm, hA, hB]

theorem exec_pairDemotionNotice_idle (hm : s.pairMode = 1) (hr : s.pair.role = 2) (ha : s.active = none) :
    exec .pairDemotionNotice s = .next { s with pair := { s.pair with role := 1 } } := by
  change execPairDemotionNotice s = _
  simp only [execPairDemotionNotice, ha, s.pairFollows_of hm hr, if_true]
  rfl

/-- The Active side of the following module takes over. -/
theorem exec_pairDemotionNotice_active (hm : s.pairMode = 1) (hr : s.pair.role = 2) {a : SideId} (ha : s.active = some a) :
    exec .pairDemotionNotice s =
      .next ((s.takeOver a (if (s.duty a).missed = some s.now then 3000 else 0)).setPairRole 1) := by
  change execPairDemotionNotice s = _
  simp only [execPairDemotionNotice, ha, s.pairFollows_of hm hr, if_true]

theorem State.modDuty_pair (a : SideId) (f : DutySt → DutySt) : (s.modDuty a f).pair = s.pair := s.modSide_pair a _

theorem State.setPairRole_modDuty (a : SideId) (f : DutySt → DutySt) (r : Nat) :
    (s.modDuty a f).setPairRole r = { s.modDuty a f with pair := { s.pair with role := r } } := by
  rw [State.setPairRole, State.modPair, State.modDuty_pair]

/-- Every process port bad for 2 ticks stops publication, which is reported. -/
theorem exec_egressFaultStop_due (hm : s.pairMode = 1) (he : s.egressOk = false) (hp : 2 ≤ s.pair.portsBad)
    (hs : s.pair.egressStop = false) : exec .egressFaultStop s = .next
      (({ s with pair := { s.pair with egressStop := true } } : State).moduleReport evEgressStop 0 (zeros 16)) := by
  change execEgressFaultStop s = _
  simp [execEgressFaultStop, hm, he, hp, hs]

end Pair

/-! ### Drills and migrations (R57, R59) -/

section Drill

variable (s : State)

/-- The verdicts are noted; the outcome is due at the bell of the third tick after the mismatch. -/
theorem exec_drillVerdict (fa fb : DrillFault) {d : DrillSt} (h : s.drill = some d) : exec (.drillVerdict fa fb) s = .next
    (if d.tick + 3 ≤ s.now then
      (({ s with drill := some { d with verdict := some (fa, fb) } } : State).drillOutcome { d with verdict := some (fa, fb) } fa fb)
    else { s with drill := some { d with verdict := some (fa, fb) } }) := by
  change execDrillVerdict fa fb s = _
  simp only [execDrillVerdict, h, State.drillDue]

theorem exec_migrationNotice_named (sd : SideId) {a : SideId} (h : s.active = some a) : exec (.migrationNotice sd) s =
    .next (s.modSide a.other fun x => { x with withheld := (x.withheld ++ (s.duty sd).named s.now).eraseDups }) := by
  change execMigrationNotice sd s = _
  simp only [execMigrationNotice, h]

end Drill

/-- Settles O47: each row by the lemmas of the operation it runs. -/
theorem sideEvents : Obligations.SideEvents := by
  unfold Obligations.SideEvents
  intro s
  refine ⟨fun sd part => exec_unitFault_module s sd part, fun sd part => exec_unitFault_array s sd part, ?cluster, ?side, ?sector,
    fun sd part => s.retireSector_none sd part, ?lane, fun sd part => exec_unitFault_side s sd part, fun sd part => rfl,
    exec_clockFault s, ?hot, ?warm, fun sd rail mv dev r t hr ht => ?rail, fun sd cause => s.demote_shows sd cause, ?arbiter,
    exec_watchdogExpiry s, ?learned, ?near, ?far, ?within, ?beyond, fun sd loss _ => s.leaveStep_shows sd loss,
    exec_t0DriftLimit_reference s, exec_t0DriftLimit_sides s, exec_t0DriftLimit_modules s, exec_crosslinkRecover_apart s,
    exec_crosslinkRecover_locks s, exec_crosslinkRecover_rejoins s, s.trainLink_link, exec_resyncBulkDone_side s,
    exec_resyncBulkDone_module s, exec_resyncAttemptFail_over s, fun sd _ => s.attemptFail_role sd,
    fun sd k => exec_resyncRetry_due s sd, ?smirnel, ?notice, exec_egressFaultStop_due s, ?early, ?due,
    fun sd a => exec_migrationNotice_named s sd⟩
  case cluster =>
    intro sd part hd h1 h4 h3 h14
    rw [exec_unitFault_part s sd part hd h1 h4, s.partFails_cluster sd h3 h14]
  case side =>
    intro sd part hd h1 h4 hu hs hx
    rw [exec_unitFault_part s sd part hd h1 h4, s.partFails_side sd hu hs hx]
  case sector =>
    intro sd part hd hl hu
    rw [exec_unitFault_part s sd part hd (by omega) (by omega), s.partFails_sector sd hl hu]
  case lane =>
    intro sd part lane hd h1 h4 hu hl
    rw [exec_unitFault_part s sd part hd h1 h4, s.partFails_lane sd hu hl]
  case hot =>
    intro sd temp h
    rw [exec_dieOvertemp, if_pos h]
  case warm =>
    intro sd temp h
    rw [exec_dieOvertemp, if_neg (not_lt.2 h)]
  case rail =>
    exact ⟨hr ▸ s.worstRail_ge sd rail mv dev, exec_railFault s sd rail mv dev hr ht⟩
  case arbiter =>
    rintro sd t rfl
    exact ⟨exec_arbLinkLoss_one s sd, exec_arbLinkLoss_both s sd⟩
  case learned =>
    intro sd ns hd hr hs hp hm
    rw [exec_peerDemotionLearned_ready s sd ns hd hr hs hp hm]
    exact ⟨fun h => by rw [s.takeOver_late sd ns h], fun h hc => by rw [s.takeOver_computed sd ns h hc],
      fun h hc ho => by rw [s.takeOver_early sd ns h hc ho]⟩
  case near =>
    intro k h
    rw [exec_tempDiffWarn, if_neg (Nat.not_lt.2 h)]; rfl
  case far =>
    intro k h
    exact ⟨_, (exec_tempDiffWarn s k).trans (congrArg _ (if_pos h)), fun sd => s.tempDiff_shows sd k.isLt⟩
  case within =>
    intro sd off k hg hn hr ho
    rw [exec_timeGuardRetry_held s sd off hg hn hr, if_pos ho]
  case beyond =>
    intro sd off k hg hn hr ho
    rw [exec_timeGuardRetry_held s sd off hg hn hr, if_neg (Nat.not_le.2 ho)]; rfl
  case smirnel =>
    intro hm hA hB
    rw [exec_smirnelLoss_alone s hm hA hB]
    exact ⟨fun h => by rw [if_pos h]; rfl, fun h => by rw [if_neg (by omega), if_pos h]; rfl⟩
  case notice =>
    intro hm hr
    refine ⟨exec_pairDemotionNotice_idle s hm hr, fun a ha hn hc ho => ?_, fun a ha hc => ?_, fun a ha hn hc => ?_⟩
    · rw [exec_pairDemotionNotice_active s hm hr ha, if_neg hn, s.takeOver_early a _ (by decide) hc ho]; rfl
    · rw [exec_pairDemotionNotice_active s hm hr ha, s.takeOver_computed a _ (by split <;> decide) hc, State.setPairRole_modDuty]
    · rw [exec_pairDemotionNotice_active s hm hr ha, if_pos hn, s.takeOver_missed a _ (by decide) (by decide) hc hn,
        State.setPairRole_modDuty]
  case early =>
    intro d fa fb h hn
    rw [exec_drillVerdict s fa fb h, if_neg (Nat.not_le.2 hn)]
  case due =>
    intro d fa fb h hn
    rw [exec_drillVerdict s fa fb h, if_pos hn]

end Sys2Proof.Machine
end

section
/-! PROOFS. Commands at their bell (R398 to R406): what a command that its side takes leaves, by the effect of its own row. -/

namespace Sys2Proof.Machine

open Claims

/-- A command that its side takes leaves its effect, and what follows it. -/
theorem State.submit_takes (s : State) {c : CmdSpec} {h : CmdHdr} {p : Bytes} (ht : Takes s c h p) :
    s.submit c h p = Claims.settled s c h p (c.run h p s).s (c.run h p s).status (c.run h p s).body := by
  obtain ⟨admitted, awake, atOnce⟩ := ht
  rw [s.submit_now c h p admitted awake atOnce]
  simp [State.execute, Claims.settled, CmdOut.executed, Status.good]

section Rows

variable {i : CmdHdr → Bytes → Instr} {c : CmdSpec} {ok : State → CmdHdr → Bytes → Prop} (hi : ∀ h p s, exec (i h p) s = runCmd c h p s)

include hi

/-- A row does what its command does wherever the command executes. -/
theorem does_of_run {eff : State → CmdHdr → Bytes → State} {body : State → CmdHdr → Bytes → Bytes}
    (hr : ∀ s h p, ok s h p → c.run h p s = ⟨eff s h p, .ok, body s h p⟩) : Does i c ok eff body := by
  intro s h p takes good
  rw [hi, runCmd, s.submit_takes takes, hr s h p good]

theorem refuses_of_run {st : Status} (hr : ∀ s h p, ok s h p → c.run h p s = refuse s st) : Refuses i c ok st := by
  intro s h p takes bad
  rw [hi, runCmd, s.submit_takes takes, hr s h p bad]
  rfl

end Rows
end Sys2Proof.Machine
end

section
/-! PROOFS. The tick, the bell and the digests (R32 to R63). -/

namespace Sys2Proof.Machine

open Claims

/-! ### The orderly stop leaves the power mode it sets (R483) -/

section Stop

/-- What a change keeps on each side, it keeps on both. -/
theorem State.forSides_keeps {γ : Type} (g : State → γ) {f : SideId → State → State} (h : ∀ sd t, g (f sd t) = g t) (s : State) :
    g (s.forSides f) = g s := by
  rw [State.forSides, h, h]

/-- Reports leave the power supply alone. -/
theorem State.power_rest {s t : State} (h : t.unreported = s.unreported) : t.power = s.power := (congrArg State.power h :)

variable (s : State)

@[simp] theorem State.writeRoot_power (sd : SideId) : (s.writeRoot sd).power = s.power := by
  rw [State.writeRoot]
  split
  · exact s.modSide_power sd _
  · rfl

@[simp] theorem State.writeRecord_power (cls stall code origin owner : Nat) (body : Bytes) :
    (s.writeRecord cls stall code origin owner body).power = s.power := by
  rw [State.writeRecord]
  refine (State.forSides_keeps State.power (fun _ _ => rfl) _).trans ?_
  split <;> rfl

@[simp] theorem State.countDrop_power (code stall : Nat) (d : LDrop) : (s.countDrop code stall d).power = s.power := by
  rw [State.countDrop]
  exact State.forSides_keeps State.power (fun _ _ => by cases d <;> rfl) s

@[simp] theorem State.checkRecord_power (r : LPend) : (s.checkRecord r).power = s.power := by
  simp only [State.checkRecord]
  split
  · simp
  · split
    · simp
    · split
      · simp
      · split <;> simp

@[simp] theorem State.admitRecord_power (r : LPend) : (s.admitRecord r).power = s.power := by
  simp only [State.admitRecord]
  split
  · rw [State.power_rest (State.unreported_crier _ _ _ _ _ _ _), s.checkRecord_power]
  · exact s.checkRecord_power r

@[simp] theorem State.admitAll_power : s.admitAll.power = s.power := by
  rw [State.admitAll, State.admitFloods, foldl_keeps State.power fun _ _ => State.writeRecord_power _ _ _ _ _ _ _]
  exact foldl_keeps State.power (fun t r => t.admitRecord_power r) _ _

/-- A module that enters its orderly stop is stopping. -/
theorem State.enterStop_mode (after : StopEnd) : (s.enterStop after).power.mode = .stopping := by
  have roots : ∀ sd t, (if s.computes sd then t.writeRoot sd else t : State).power = t.power := by
    intro sd t
    split
    · exact t.writeRoot_power sd
    · rfl
  have reports : ∀ sd (t : State), ((t.tick1 (Rg.powerEvents sd) Fd.powerEventsStops).sideReport sd evOrderlyStop
      (beBytes 8 s.now ++ zeros 8)).power = t.power := fun sd t =>
    State.power_rest (s := t.tick1 (Rg.powerEvents sd) Fd.powerEventsStops) (State.unreported_sideReport _ _ _ _)
  rw [State.enterStop, State.admitAll_power, State.forSides_keeps State.power roots, State.forSides_keeps State.power reports]
  rfl

theorem State.haltTick_mode (w : Nat) : (s.haltTick w).power.mode = .stopping := by
  rw [State.haltTick, State.powerHaltAt, State.enterStop_mode]

end Stop

/-! ### TICK_START (R32, R290, R483) -/

section TickStart

variable (s : State)

theorem State.stepDue_unstaged (h : s.staged = none) : s.stepDue = none := by
  simp [State.stepDue, State.boundaryDue, h]

/-- Without a staged time write the tick takes its number and nothing else. -/
theorem State.turn_unstaged (w : Nat) (h : s.staged = none) : s.turn w = { s with now := w } := by
  simp [State.turn, State.applyStep, s.stepDue_unstaged h, State.boundaryDue, h]

theorem State.closeTick_closed : s.closeTick.open_ = false := by
  simp only [State.closeTick]
  split
  · simpa using ‹(!s.open_) = true›
  · rfl

/-- The state in which tick `w` begins: the tick before is closed, the number taken. -/
def State.begun (s : State) (w : Nat) : State :=
  ((s.closeTick.countImage (if s.closeTick.stepDue.isSome then 1 else w - s.now)).turn w).newSecond s.now

variable {s} (w : DWord)

/-- A number that is not the next or a later one is no new tick. -/
theorem exec_tickStart_stale (hw : w.toNat ≤ s.now) (hm : s.power.mode = .service) (hs : s.staged = none) :
    exec (.tickStart w) s = .next s := by
  have stale : s.tickOk w.toNat = false := by
    simp [State.tickOk, s.stepDue_unstaged hs, hm, hw]
  change execTickStart w s = _
  simp only [execTickStart, State.startTick, stale, Bool.not_false, if_true]

variable {w} {u : State} (ok : s.tickOk w.toNat = true) (hu : u = s.begun w.toNat)

include ok hu

theorem exec_tickStart_opens (hm : u.power.mode = .service) (hs : ∀ t, u.power.stopAt = some t → w.toNat < t) :
    exec (.tickStart w) s = .next (u.openTick w.toNat).readQueues := by
  subst hu
  change execTickStart w s = _
  cases stop : (s.begun w.toNat).power.stopAt with
  | none =>
    simp only [State.begun] at hm stop
    simp [execTickStart, State.startTick, State.begun, ok, hm, stop]
  | some t =>
    have ahead := hs t stop
    simp only [State.begun] at hm stop
    simp [execTickStart, State.startTick, State.begun, ok, hm, stop, ahead]

theorem exec_tickStart_halts (hm : u.power.mode = .service) (hs : ∃ t, u.power.stopAt = some t ∧ t ≤ w.toNat) :
    exec (.tickStart w) s = .next (u.haltTick w.toNat) := by
  subst hu
  obtain ⟨t, stop, due⟩ := hs
  change execTickStart w s = _
  simp only [State.begun] at hm stop
  simp [execTickStart, State.startTick, State.begun, ok, hm, stop, due]

/-- While the module boots only what time brings about happens. -/
theorem exec_tickStart_boots (hm : u.power.mode = .booting) :
    exec (.tickStart w) s = .next (u.settleCrosslink.timers.runUnlisted w.toNat).readQueues := by
  subst hu
  change execTickStart w s = _
  simp only [State.begun] at hm
  simp only [execTickStart, State.startTick, State.begun, ok, hm, Bool.not_true, Bool.false_eq_true, if_false]

/-- Elsewhere the tick is only counted. -/
theorem exec_tickStart_counts (hm : u.power.mode = .off ∨ u.power.mode = .parked ∨ u.power.mode = .stopping) :
    exec (.tickStart w) s = .next u := by
  subst hu
  change execTickStart w s = _
  simp only [State.begun] at hm
  rcases hm with hm | hm | hm <;>
    simp only [execTickStart, State.startTick, State.begun, ok, hm, Bool.not_true, Bool.false_eq_true, if_false]

end TickStart

/-! ### A bell arrives (R51) -/

section BellReceive

variable (s : State) (sd : SideId) (ns : Nat)

/-- A bell that no path carries intact changes nothing. -/
theorem State.receiveBell_lost {intact : Bool} (h : intact = false ∨ s.bellCarried sd = false) : s.receiveBell sd intact ns = s := by
  simp only [State.receiveBell]
  split
  · rfl
  · rw [if_pos]
    rcases h with h | h <;> simp [h]

/-- A side that adopts bells adopts one that is in time and passes every check, and no other. -/
theorem State.receiveBell_adopts {b : Bytes} (hb : s.bellSent sd = some b) (ha : s.adopts sd = true) : s.receiveBell sd true ns =
    if (s.open_ = true ∧ s.bellCarried sd = true ∧ (s.duty sd).computed ≠ s.now) ∧
        ns ≤ 3000 ∧ (s.duty sd).missed ≠ some s.now ∧ s.bellOk sd b = true then s.adoptBell sd b ns else s := by
  simp only [State.receiveBell, hb, ha]
  by_cases waits : s.open_ = true ∧ s.bellCarried sd = true ∧ (s.duty sd).computed ≠ s.now
  · simp [waits, and_assoc]
  · rw [if_pos, if_neg fun e => waits e.1]
    simp only [not_and_or, Bool.not_eq_true, not_not] at waits
    rcases waits with e | e | e <;> simp [e]

theorem State.adopts_standby (h : (s.side sd).role = .standby) : s.adopts sd = true := by
  simp only [State.adopts, h]

theorem State.receiveBell_late (hr : (s.side sd).role = .standby) (h : 3000 < ns) : s.receiveBell sd true ns = s := by
  cases hb : s.bellSent sd with
  | none => simp only [State.receiveBell, hb]
  | some b => rw [s.receiveBell_adopts sd ns hb (s.adopts_standby sd hr), if_neg fun e => Nat.not_le.2 h e.2.1]

/-- A side that has adopted the bell of a tick computes that tick. -/
theorem State.adoptBell_computed (b : Bytes) : ((s.adoptBell sd b ns).duty sd).computed = s.now := by
  simp only [State.adoptBell, State.computeTick, State.modDuty_duty]

theorem exec_bellReceive_crosslink (intact : Bool) :
    exec (.bellReceive sd intact ⟨ns, none⟩) s = .next (s.receiveBell sd intact ns) := rfl

theorem exec_bellReceive_broken (x : Option (Bytes × Int)) : exec (.bellReceive sd false ⟨ns, x⟩) s = .next s := by
  cases x with
  | none => rw [exec_bellReceive_crosslink, s.receiveBell_lost sd ns (.inl rfl)]
  | some e => rfl

/-- A module that mirrors no other takes no bell over the Smirnel Link. -/
theorem exec_bellReceive_unpaired (e : Bytes × Int) (h : s.pairMode ≠ 1) :
    exec (.bellReceive sd true ⟨ns, some e⟩) s = .next s := by
  change execBellReceive sd true ⟨ns, some e⟩ s = _
  simp [execBellReceive, State.smirnelBell, h]

end BellReceive

/-! ### A bell stays away (R52, R53) -/

section BellMissing

variable (s : State) (sd : SideId)

/-- The run of missing bells is one longer, as far as its field counts. -/
theorem State.unadopted_missRun (missed : Bool) : (s.unadopted sd missed).rd (Rg.bellStatus sd) Fd.bellStatusMissRun =
    min 3 (s.rd (Rg.bellStatus sd) Fd.bellStatusMissRun + 1) := by
  rw [State.unadopted, State.rd_congr (State.modDuty_regs _ _ _), State.rd_wr_same _ _ _ _ (by decide) (by decide)]
  exact Nat.mod_eq_of_lt (Nat.lt_of_le_of_lt (Nat.min_le_left _ _) (by decide))

theorem State.unadopted_duty (missed : Bool) : (s.unadopted sd missed).duty sd =
    { s.duty sd with missed := some s.now, unheard := if missed then (s.duty sd).unheard + 1 else 0 } := by
  have ticked : ∀ (b : Bool) (t : State) r f, (if b then t.tick1 r f else t).duty sd = t.duty sd := by
    intro b t r f
    cases b <;> simp [State.duty]
  simp only [State.unadopted, State.modDuty_duty, State.wr_duty, ticked]

/-- Leaving step keeps MISS_RUN. -/
theorem State.leaveStep_missRun (loss : Bool) : (s.leaveStep sd loss).rd (Rg.bellStatus sd) Fd.bellStatusMissRun =
    s.rd (Rg.bellStatus sd) Fd.bellStatusMissRun := by
  have apart : (Rg.bellStatus sd).key ≠ (Rg.resyncStatus sd).key := by simp only [Rg.bellStatus, Rg.resyncStatus]; omega
  rw [State.leaveStep, State.rd_congr (State.modResync_regs _ _ _), State.setPhase, State.rd_wr_other _ _ _ _ apart,
    State.rd_setFlag_apart _ _ _ _ _ (by decide) (by decide) (by decide) (by decide)]
  exact State.rd_congr (by rw [State.modSide_regs, State.putRole_regs]) _ _

theorem State.leaveStep_duty (loss : Bool) : (s.leaveStep sd loss).duty sd = { s.duty sd with
    byLoss := loss, resync := { (s.duty sd).resync with final := none, retryAt := none } } := by
  rw [← s.putRole_duty sd .joining sd]
  simp only [State.leaveStep, State.modResync_duty, State.setPhase, State.wr_duty]
  simp only [State.duty, State.setFlag_side, State.modSide_same]

/-- A Standby side that misses its bell leaves step. -/
theorem State.bellMissing_standby (hr : (s.side sd).role = .standby) (hc : (s.duty sd).computed ≠ s.now)
    (hm : (s.duty sd).missed ≠ some s.now) : s.bellMissing sd = (s.unadopted sd true).leaveStep sd true := by
  simp [State.bellMissing, hr, hc, hm]

theorem exec_bellDeadline_open (h : s.open_ = true) : exec (.bellDeadline sd) s = .next (s.bellMissing sd) := by
  change execBellDeadline sd s = _
  rw [execBellDeadline, if_pos h]

theorem exec_bellDeadline_closed (h : s.open_ = false) : exec (.bellDeadline sd) s = .next s := by
  change execBellDeadline sd s = _
  simp [execBellDeadline, h]

theorem exec_bellLoss_due (hu : 3 ≤ (s.duty sd).unheard) (hl : (s.duty sd).lost = false) (hr : (s.side sd).role = .joining)
    (hp : (s.duty sd).promoteAt = none) : exec (.bellLoss sd) s = .next
      (((s.sideReport sd evBellLoss (beBytes 8 s.now ++ zeros 8)).modDuty sd fun d => { d with lost := true }).bellLost sd) := by
  change execBellLoss sd s = _
  simp [execBellLoss, hu, hl, hr, hp]

theorem exec_bellLoss_heard (h : (s.duty sd).unheard < 3) : exec (.bellLoss sd) s = .next s := by
  change execBellLoss sd s = _
  simp [execBellLoss, Nat.not_le.2 h]

end BellMissing

/-! ### Digests (R55 to R59) -/

section Digests

theorem digestClash_iff (x y : DigestSet) (t : Nat) : digestClash x y t = true ↔
    bit x.valid t ≠ bit y.valid t ∨ (bit x.valid t = true ∧ x.values.getD t 0 ≠ y.values.getD t 0) := by
  simp [digestClash]

/-- The stalls on which two digest sets mismatch. -/
def clashes (x y : DigestSet) : List Nat := allStalls.filter fun t => digestClash x y t

theorem clashes_eq (x y : DigestSet) : clashes x y = allStalls.filter fun t => digestClash x y t := rfl

theorem mem_clashes {x y : DigestSet} {t : Nat} : t ∈ clashes x y ↔ t < 64 ∧ digestClash x y t = true := by
  simp [clashes, allStalls, upto]

theorem clashes_eq_nil {x y : DigestSet} : clashes x y = [] ↔ ∀ t < 64, digestClash x y t = false := by
  simp [clashes, allStalls, upto]

variable (s : State)

/-- MISMATCH_MAP of both sides shows the stalls of a mismatch. -/
def State.markMismatch (s : State) (l : List Nat) : State := s.forSides fun sd t =>
  t.putReg (Rg.mismatchMap sd) (t.regWord (Rg.mismatchMap sd) ||| listSum (l.map fun t => 2 ^ t))

theorem State.modSide_fixed {sd : SideId} {f : Side → Side} (h : f (s.side sd) = s.side sd) : s.modSide sd f = s := by
  cases sd <;> simp only [State.modSide, State.side] at h ⊢ <;> rw [h]

theorem State.active_A (h : s.sideA.role = .active) : s.active = some .A := if_pos h

/-- Where the digests of the Active and the Standby side agree nothing follows; where they differ a drill starts, unless
migrations account for it. -/
theorem State.compareDigests_standby {x y : DigestSet} (hA : s.sideA.role = .active) (hB : s.sideB.role = .standby)
    (hx : s.sideA.duty.digests.find? (fun d => d.tick == s.now - 1) = some x) (hy : readEcho s.sideB.duty.echo = some y)
    (ht : y.tick = s.now - 1) (hn : s.namedStalls (s.now - 1) = []) :
    s.compareDigests = if clashes x y = [] then s else (s.markMismatch (clashes x y)).startDrill .B (s.now - 1) (clashes x y) := by
  have tx : x.tick = s.now - 1 := by simpa using List.find?_some hx
  have kept : ∀ held : List Nat, (s.modSide .B fun z => { z with
      withheld := z.withheld.filter fun st => !([] : List Nat).contains st || held.contains st }) = s :=
    fun held => s.modSide_fixed (by simp)
  have standby : (s.side .B).role = .standby := hB
  have digestsA : (s.duty .A).digests.find? (fun d => d.tick == s.now - 1) = some x := hx
  have echoB : readEcho (s.duty .B).echo = some y := hy
  have named : ((clashes x y).all ([] : List Nat).contains && ([] : List Nat).all (clashes x y).contains) =
      (clashes x y).isEmpty := by
    cases clashes x y <;> simp
  simp only [State.compareDigests, s.active_A hA, SideId.other, digestsA, echoB, standby, hn, if_true, Option.filter, tx, ht,
    beq_self_eq_true, kept, reduceCtorEq, if_false, ← clashes_eq, Option.some.injEq, named]
  by_cases same : clashes x y = []
  · rw [if_pos same, if_pos (List.isEmpty_iff.2 same)]
  · have differ : ¬(clashes x y).isEmpty = true := mt List.isEmpty_iff.1 same
    rw [if_neg same, if_neg differ, if_neg differ]; rfl

/-- The Standby side returns its digests of the tick before. -/
theorem State.sendEcho_digests {y : DigestSet} (hn : 0 < s.now)
    (hy : s.sideB.duty.digests.find? (fun d => d.tick == s.now - 1) = some y) :
    s.sendEcho .B = s.modDuty .B fun d => { d with echo := echoBytes y } := by
  have before : (fun d : DigestSet => d.tick + 1 == s.now) = fun d => d.tick == s.now - 1 := by
    funext d
    rw [Bool.eq_iff_iff, beq_iff_eq, beq_iff_eq]; omega
  have sent : (s.duty .B).digests.find? (fun d => d.tick + 1 == s.now) = some y := before ▸ hy
  simp only [State.sendEcho, sent]

end Digests

/-! ### A drill starts (R58, R59) -/

section Drill

/-- What a side shows of a drill that has started. -/
def State.showDrill (s : State) (sd : SideId) (w : Nat) (l : List Nat) : State :=
  (((s.setFlag (Rg.bellStatus sd) Fd.bellStatusDrill true).setFlag (Rg.drillStatus sd) Fd.drillStatusActive true).wr
    (Rg.drillStatus sd) Fd.drillStatusStall (l.headD 0)).wr (Rg.drillStatus sd) Fd.drillStatusTickLow (w % 2 ^ 22)

variable (s : State) (sd : SideId) (w : Nat) (l : List Nat)

theorem State.showDrill_drill : (s.showDrill sd w l).drill = s.drill := rfl

theorem State.showDrill_side (sd' : SideId) : (s.showDrill sd w l).side sd' = s.side sd' := by
  simp only [State.showDrill, State.wr_side, State.setFlag_side]

theorem State.showDrill_bell : (s.showDrill sd w l).flag (Rg.bellStatus sd) Fd.bellStatusDrill = true := by
  have apart : (Rg.bellStatus sd).key ≠ (Rg.drillStatus sd).key := by simp only [Rg.bellStatus, Rg.drillStatus]; omega
  simp only [State.showDrill, State.wr_eq, State.setFlag_eq (r := Rg.drillStatus sd), State.flag_putReg_other _ _ _ apart]
  exact s.flag_setFlag_same _ _ _ rfl (by decide)

theorem State.showDrill_status : (s.showDrill sd w l).flag (Rg.drillStatus sd) Fd.drillStatusActive = true := by
  rw [State.showDrill, State.flag_wr_apart _ _ _ _ _ (by decide) (by decide) (by decide) (by decide),
    State.flag_wr_apart _ _ _ _ _ (by decide) (by decide) (by decide) (by decide)]
  exact State.flag_setFlag_same _ _ _ _ rfl (by decide)

theorem State.showDrill_flag_other {r : Reg} (f : Fld) (hb : r.key ≠ (Rg.bellStatus sd).key) (hd : r.key ≠ (Rg.drillStatus sd).key) :
    (s.showDrill sd w l).flag r f = s.flag r f := by
  simp only [State.showDrill, State.wr_eq, State.setFlag_eq, State.flag_putReg_other _ _ f hd, State.flag_putReg_other _ _ f hb]

/-- With no drill in progress one starts on both sides, and side `sd` withholds the stalls. -/
theorem State.startDrill_first (h : s.drill = none) : s.startDrill sd w l =
    ({ s.modSide sd (fun x => { x with withheld := (x.withheld ++ l).eraseDups }) with
      drill := some ⟨w, listSum (l.map fun t => 2 ^ t), none⟩ } : State).forSides fun sd' t => t.showDrill sd' w l := by
  have idle : (s.modSide sd fun x => { x with withheld := (x.withheld ++ l).eraseDups }).drill = none := by
    rw [State.modSide_drill, h]
  simp only [State.startDrill, idle]
  rfl

theorem State.startDrill_drill (h : s.drill = none) :
    (s.startDrill sd w l).drill = some ⟨w, listSum (l.map fun t => 2 ^ t), none⟩ := by
  rw [s.startDrill_first sd w l h, State.forSides_keeps State.drill fun sd' t => t.showDrill_drill sd' w l]

/-- The stalls of the mismatch are withheld. -/
theorem State.startDrill_withheld (h : s.drill = none) {k : Nat} (hk : k ∈ l) : k ∈ ((s.startDrill sd w l).side sd).withheld := by
  rw [s.startDrill_first sd w l h, State.forSides_keeps (State.side · sd) fun sd' t => t.showDrill_side sd' w l sd]
  have held : k ∈ ((s.modSide sd fun x => { x with withheld := (x.withheld ++ l).eraseDups }).side sd).withheld := by
    simp [hk]
  cases sd <;> exact held

/-- Both sides show the drill. -/
theorem State.startDrill_flags (h : s.drill = none) (sd' : SideId) :
    (s.startDrill sd w l).flag (Rg.bellStatus sd') Fd.bellStatusDrill = true ∧
      (s.startDrill sd w l).flag (Rg.drillStatus sd') Fd.drillStatusActive = true := by
  rw [s.startDrill_first sd w l h]
  simp only [State.forSides]
  cases sd' with
  | A =>
    rw [State.showDrill_flag_other _ .B _ _ _ (by decide) (by decide), State.showDrill_flag_other _ .B _ _ _ (by decide) (by decide)]
    exact ⟨State.showDrill_bell _ _ _ _, State.showDrill_status _ _ _ _⟩
  | B => exact ⟨State.showDrill_bell _ _ _ _, State.showDrill_status _ _ _ _⟩

end Drill

/-! ### DIGEST_ECHO (R56, R57) -/

section Echo

variable {s : State}

theorem exec_digestEcho_closed (h : s.open_ = false) : exec .digestEcho s = .next s := by
  change execDigestEcho s = _
  simp [execDigestEcho, h]

variable {x y : DigestSet} (ho : s.open_ = true) (hA : s.sideA.role = .active) (hB : s.sideB.role = .standby)
  (hx : s.sideA.duty.digests.find? (fun d => d.tick == s.now - 1) = some x)
  (hy : s.sideB.duty.digests.find? (fun d => d.tick == s.now - 1) = some y)
  (hn : s.namedStalls (s.now - 1) = []) (hw : 0 < s.now) (he : readEcho (echoBytes y) = some y)

include ho hA hB hx hy hn hw he

/-- The echo is returned, and a drill starts for the stalls on which the digests differ. -/
theorem exec_digestEcho_standby {e : State} (hs : e = s.modDuty .B fun d => { d with echo := echoBytes y }) :
    exec .digestEcho s = .next
      (if clashes x y = [] then e else (e.markMismatch (clashes x y)).startDrill .B (s.now - 1) (clashes x y)) := by
  subst hs
  have ty : y.tick = s.now - 1 := by simpa using List.find?_some hy
  have compared := (s.modDuty .B fun d => { d with echo := echoBytes y }).compareDigests_standby hA hB hx he ty hn
  change execDigestEcho s = _
  simp only [execDigestEcho, ho, if_true, s.active_A hA, SideId.other, s.sendEcho_digests hw hy, compared]
  rfl

theorem exec_digestEcho_agrees (h : ∀ t < 64, digestClash x y t = false) :
    exec .digestEcho s = .next (s.modDuty .B fun d => { d with echo := echoBytes y }) := by
  rw [exec_digestEcho_standby ho hA hB hx hy hn hw he rfl, if_pos (clashes_eq_nil.2 h)]

/-- Digests that differ start a drill, which both sides show; side B withholds the stalls. -/
theorem exec_digestEcho_differs (hd : s.drill = none) (h : ∃ t < 64, digestClash x y t = true) : ∃ t, exec .digestEcho s = .next t ∧
    t.drill = some ⟨s.now - 1, listSum ((clashes x y).map fun k => 2 ^ k), none⟩ ∧
    (∀ sd, t.flag (Rg.bellStatus sd) Fd.bellStatusDrill = true ∧ t.flag (Rg.drillStatus sd) Fd.drillStatusActive = true) ∧
    (∀ k < 64, digestClash x y k = true → k ∈ t.sideB.withheld) := by
  obtain ⟨t, below, clash⟩ := h
  have differ : clashes x y ≠ [] := List.ne_nil_of_mem (mem_clashes.2 ⟨below, clash⟩)
  have idle : ((s.modDuty .B fun d => { d with echo := echoBytes y }).markMismatch (clashes x y)).drill = none := hd
  refine ⟨_, (exec_digestEcho_standby ho hA hB hx hy hn hw he rfl).trans (congrArg _ (if_neg differ)),
    State.startDrill_drill _ _ _ _ idle, State.startDrill_flags _ _ _ _ idle, fun k below clash => ?_⟩
  exact State.startDrill_withheld _ .B _ _ idle (mem_clashes.2 ⟨below, clash⟩)

end Echo

/-! ### The commands of the tick (R63) -/

section TickCommands

theorem run_readTick (s : State) (h : CmdHdr) (p : Bytes) : specReadTick.run h p s = done s
    (beBytes 8 s.now ++ beBytes 8 (tickStart s.now / 1000000000) ++ beBytes 4 (tickStart s.now % 1000000000) ++ beBytes 2 (s.now % 4800)
      ++ beBytes 1 s.sealDelay ++ beBytes 1 (s.side h.side).role.code) := rfl

theorem run_readBell_kept {s : State} {h : CmdHdr} {p : Bytes} {e : Nat × Bytes}
    (he : (s.duty h.side).bells.find? (fun e => e.1 == u64 p 0) = some e) : specReadBell.run h p s = done s e.2 := by
  change cmdReadBell h p s = _
  simp only [cmdReadBell, he]

theorem run_readBell_gone {s : State} {h : CmdHdr} {p : Bytes}
    (he : (s.duty h.side).bells.find? (fun e => e.1 == u64 p 0) = none) : specReadBell.run h p s = refuse s .range := by
  change cmdReadBell h p s = _
  simp only [cmdReadBell, he]

/-- While both sides are in, the digests of both are read. -/
theorem run_readDigests_both {s : State} {h : CmdHdr} {p : Bytes} (hw : u64 p 0 < s.now) (hn : s.now ≤ u64 p 0 + 16)
    (ho : (s.side h.side.other).role ≠ .out) : specReadDigests.run h p s =
      done s (beBytes 8 (u64 p 0) ++ (s.digestsOf .A (u64 p 0) ++ s.digestsOf .B (u64 p 0))) := by
  have inRange : ¬(s.now ≤ u64 p 0 ∨ u64 p 0 + 16 < s.now) := by omega
  change cmdReadDigests h p s = _
  simp [cmdReadDigests, inRange, State.bothHalves, ho, done]

theorem run_setSealDelay (s : State) (h : CmdHdr) (p : Bytes) : specSetSealDelay.run h p s =
    if 1 ≤ u8 p 0 ∧ u8 p 0 ≤ 24 then done (shadowed s (withRecord 0x01 0 (patch s.modShadow.timeRec 0 (p.take 1)))) []
    else refuse s .range := rfl

end TickCommands

/-- Settles O49: each row by the lemmas of the operation it runs. -/
theorem tickAndBell : Obligations.TickAndBell := by
  unfold Obligations.TickAndBell
  intro s
  refine ⟨fun w => exec_tickStart_stale w, ?ticks, s.turn_unstaged, s.closeTick_closed, s.haltTick_mode, ?adopted,
    fun sd b ns => s.adoptBell_computed sd ns b, fun sd ns x => exec_bellReceive_broken s sd ns x,
    fun sd ns e => exec_bellReceive_unpaired s sd ns e, ?uncarried, ?late, ?unfit, ?deadline, exec_bellDeadline_closed s,
    exec_bellLoss_due s, exec_bellLoss_heard s, exec_digestEcho_closed, ?echo, digestClash_iff, ?readTick, ?readBell, ?noBell,
    ?readDigests, ?sealDelay⟩
  case ticks =>
    intro w u ok hu
    exact ⟨exec_tickStart_opens ok hu, exec_tickStart_halts ok hu, exec_tickStart_boots ok hu, exec_tickStart_counts ok hu⟩
  case adopted =>
    intro sd ns b hb ho hc ha hok hm hns hcar
    rw [exec_bellReceive_crosslink, s.receiveBell_adopts sd ns hb ha, if_pos ⟨⟨ho, hcar, hc⟩, hns, hm, hok⟩]
  case uncarried =>
    intro sd ns h
    rw [exec_bellReceive_crosslink, s.receiveBell_lost sd ns (.inr h)]
  case late =>
    intro sd ns hr h
    rw [exec_bellReceive_crosslink, s.receiveBell_late sd ns hr h]
  case unfit =>
    intro sd ns b hb hr h
    rw [exec_bellReceive_crosslink, s.receiveBell_adopts sd ns hb (s.adopts_standby sd hr), if_neg fun e => ?_]
    obtain ⟨-, -, -, fits⟩ := e
    exact Bool.false_ne_true (h.symm.trans fits)
  case deadline =>
    intro sd ho hr hc hm
    refine ⟨_, (exec_bellDeadline_open s sd ho).trans (congrArg _ (s.bellMissing_standby sd hr hc hm)), ?_⟩
    obtain ⟨joins, unsealed, -⟩ := (s.unadopted sd true).leaveStep_shows sd true
    refine ⟨joins, unsealed, ?_, ?_, ?_⟩
    · rw [State.leaveStep_missRun, s.unadopted_missRun]
    · rw [State.leaveStep_duty, s.unadopted_duty]
    · rw [State.leaveStep_duty, s.unadopted_duty]; rfl
  case echo =>
    intro x y ho hA hB hd hx hy hn hw he
    exact ⟨exec_digestEcho_agrees ho hA hB hx hy hn hw he, exec_digestEcho_differs ho hA hB hx hy hn hw he hd⟩
  case readTick =>
    exact does_of_run (fun _ _ _ => rfl) fun s h p _ => run_readTick s h p
  case readBell =>
    exact fun b => does_of_run (fun _ _ _ => rfl) fun s h p => run_readBell_kept
  case noBell =>
    exact refuses_of_run (fun _ _ _ => rfl) fun s h p => run_readBell_gone
  case readDigests =>
    refine does_of_run (fun _ _ _ => rfl) fun s h p ok => ?_
    obtain ⟨before, recent, both⟩ := ok
    exact run_readDigests_both before recent both
  case sealDelay =>
    refine ⟨does_of_run (fun _ _ _ => rfl) fun s h p ok => ?_, refuses_of_run (fun _ _ _ => rfl) fun s h p bad => ?_⟩
    · rw [run_setSealDelay, if_pos (of_decide_eq_true ok)]; rfl
    · rw [run_setSealDelay, if_neg (of_decide_eq_false bad)]

end Sys2Proof.Machine
end

section
/-! PROOFS. Starts, stops, triggers, anchors and destructive reads (R72, R103, R311, R314, R332, R376). -/

namespace Sys2Proof.Machine

open Claims

/-- A row whose command does what it says where its side takes it. -/
theorem does_of_run_taken {i : CmdHdr → Bytes → Instr} {c : CmdSpec} {ok : State → CmdHdr → Bytes → Prop}
    {eff : State → CmdHdr → Bytes → State} {body : State → CmdHdr → Bytes → Bytes} (hi : ∀ h p s, exec (i h p) s = runCmd c h p s)
    (hr : ∀ s h p, Takes s c h p → ok s h p → c.run h p s = ⟨eff s h p, .ok, body s h p⟩) : Does i c ok eff body :=
  fun s h p takes good => does_of_run (ok := fun s h p => Takes s c h p ∧ ok s h p) hi
    (fun s h p ⟨takes, good⟩ => hr s h p takes good) s h p takes ⟨takes, good⟩

/-! ### Where each command of signals executes -/

section SignalRuns

variable {s : State} {h : CmdHdr} {p : Bytes}

theorem run_condStop_inRange (ok : okRange (u16 p 0) (u16 p 2) 1024 8191 = true) :
    specCondStop.run h p s = done ((chanSpan p).foldl State.condStop s) [] := by
  change cmdCondStop h p s = _
  simp [cmdCondStop, ok]

theorem run_condStart_inRange (ok : okRange (u16 p 0) (u16 p 2) 1024 8191 = true) :
    specCondStart.run h p s = done ((chanSpan p).foldl State.condStart s) [] := by
  change cmdCondStart h p s = _
  simp [cmdCondStart, ok]

/-- SV_REANCHOR concerns a free-running stream only (R72). -/
theorem run_svReanchor_subscribed {r : Bytes} (inRange : u16 p 0 ≤ 1023) (hr : s.modActive.get 0x04 (u16 p 0) = some r) :
    specSvReanchor.run h p s = if subFreeRun r then
        done (s.forSides fun sd t => t.putStream sd (u16 p 0) { t.stream sd (u16 p 0) with wantAnchor := true }) []
      else refuse s .state := by
  change cmdSvReanchor h p s = _
  simp only [cmdSvReanchor, hr, if_neg (Nat.not_lt.2 inRange)]

/-- The last two anchors of a stream are kept. -/
theorem run_svAnchor_subscribed {r : Bytes} (hr : s.modActive.get 0x04 (u16 p 0) = some r) :
    specSvAnchor.run h p s = done (({ s with
      anchors := Tbl.put s.anchors (u16 p 0) ((Tbl.getD s.anchors (u16 p 0) [] ++ [(⟨u32 p 4, tickStart (u64 p 8) + u32 p 16, s.now⟩ : Anchor)]).drop
        ((Tbl.getD s.anchors (u16 p 0) []).length + 1 - 2)) } : State).forSides fun sd t =>
      if h.side = sd ∧ t.pair.role ≠ 2 then t
      else t.putStream sd (u16 p 0) { t.stream sd (u16 p 0) with wantAnchor := false, devs := [] }) [] := by
  change cmdSvAnchor h p s = _
  simp only [cmdSvAnchor, hr, List.length_append, List.length_cons, List.length_nil, Nat.zero_add]

/-- ACQ_START executes for configured channels that do not run on every serving side, with their destination ready (R311, R314). -/
theorem run_acqStart_ready {rs : List (Nat × Bytes)} (hrs : rs = (chanSpan p).filterMap fun c => (s.captRec c).map fun r => (c, r))
    (inRange : okRange (u16 p 0) (u16 p 2) 256 255 = true) (configured : ∀ c ∈ chanSpan p, (s.captRec c).isSome = true)
    (ready : ∀ e ∈ rs, s.startsWaiting e.1 = [] ∧ (∃ sd ∈ s.serving, s.captState sd e.1 ≠ csRunning) ∧ s.destReady s.speaker e.2 = true) :
    specAcqStart.run h p s = done (rs.foldl (fun t e => t.serving.foldl (fun u sd => u.captStart sd e.1 e.2) t) s) [] := by
  have all : (chanSpan p).any (fun c => (s.captRec c).isNone) = false := by
    rw [List.any_eq_false]
    intro c hc
    rw [Option.isNone_iff_eq_none, ← Option.not_isSome_iff_eq_none, not_not]
    exact configured c hc
  have idle : rs.any (fun e => !(s.startsWaiting e.1).isEmpty || s.serving.all fun sd => s.captState sd e.1 == csRunning) = false := by
    rw [List.any_eq_false]
    intro e he
    obtain ⟨none, ⟨sd, serves, stands⟩, -⟩ := ready e he
    have : ¬ ∀ sd ∈ s.serving, s.captState sd e.1 = csRunning := fun runs => stands (runs sd serves)
    simpa [none] using this
  have room : rs.any (fun e => !s.destReady s.speaker e.2) = false := by
    rw [List.any_eq_false]
    intro e he
    obtain ⟨-, -, dest⟩ := ready e he
    simp [dest]
  change cmdAcqStart h p s = _
  subst hrs
  simp only [cmdAcqStart, inRange, all, idle, room, Bool.not_true, Bool.false_eq_true, if_false]

/-- A channel that is configured stops on every side that serves. -/
def State.stopCapture (s : State) (c : Nat) : State :=
  match s.captRec c with
  | some r => s.serving.foldl (fun t sd => t.captStop sd c r) s
  | none => s

/-- ACQ_STOP at its bell executes for channels that run or are to start by then (R311). -/
theorem run_acqStop_running (now : h.applyTick = 0) (inRange : okRange (u16 p 0) (u16 p 2) 256 255 = true)
    (runs : ∀ c ∈ chanSpan p, (∀ t ∈ s.startsWaiting c, t ≤ s.nextBell) ∧
      (s.startsWaiting c ≠ [] ∨ ∃ sd ∈ s.serving, s.captState sd c = csRunning)) :
    specAcqStop.run h p s = done ((chanSpan p).foldl State.stopCapture s) [] := by
  have order : (chanSpan p).any (fun c => (s.startsWaiting c).any fun t => decide (s.nextBell < t)) = false := by
    rw [List.any_eq_false]
    intro c hc
    obtain ⟨due, -⟩ := runs c hc
    simpa using due
  have running : (chanSpan p).any (fun c => (s.startsWaiting c).isEmpty && s.serving.all fun sd => s.captState sd c != csRunning) = false := by
    rw [List.any_eq_false]
    intro c hc
    obtain ⟨-, starts | ⟨sd, serves, captures⟩⟩ := runs c hc
    · simp [starts]
    · have : ¬ ∀ sd ∈ s.serving, s.captState sd c ≠ csRunning := fun none => none sd serves captures
      simpa using fun _ => this
  change cmdAcqStop h p s = _
  simp only [cmdAcqStop, inRange, now, order, running, Bool.not_true, Bool.false_eq_true, if_false, if_true]
  rfl

/-- ACQ_TRIGGER executes when each line of its mask is defined for a stall that it names (R314). -/
theorem run_acqTrigger_named {named : Nat → List Nat} (hn : ∀ l, named l = s.lineStalls h.stall.toNat l)
    (lines : ∀ l ∈ (List.range 16).filter (bit (u16 p 0)), named l ≠ []) :
    specAcqTrigger.run h p s = done (((List.range 16).filter (bit (u16 p 0))).foldl (fun t l => (named l).foldl
      (fun u st => u.tickMark 6 st l h.origin.toNat 0 (tickStart (s.now - s.sealDelay) * 65536)) t) s) [] := by
  have known : ((List.range 16).filter (bit (u16 p 0))).any (fun l => (s.lineStalls h.stall.toNat l).isEmpty) = false := by
    simp only [List.any_eq_false, List.isEmpty_iff, ← hn]
    exact lines
  change cmdAcqTrigger h p s = _
  simp only [cmdAcqTrigger, upto, known, Bool.false_eq_true, if_false, hn]

/-- ACQ_READ_DRAM takes whole records from the front of a ring in DRAM (R314). -/
theorem run_acqReadDram_filled {l : List Bytes} (hl : l = Tbl.getD (s.side h.side).dram (u8 p 0) []) (ring : u8 p 0 ≤ 15)
    (atLeast : 1 ≤ u16 p 1) (atMost : u16 p 1 ≤ 1008) (filled : l ≠ []) :
    specAcqReadDram.run h p s = done (s.modSide h.side fun y =>
        { y with dram := Tbl.put y.dram (u8 p 0) (l.drop (takeWhole (min (u16 p 1) (replyLimit h - 48)) l).length) })
      (takeWhole (min (u16 p 1) (replyLimit h - 48)) l).flatten := by
  subst hl
  have inRange : ¬(15 < u8 p 0 ∨ u16 p 1 < 1 ∨ 1008 < u16 p 1) := by omega
  change cmdAcqReadDram h p s = _
  simp only [cmdAcqReadDram, if_neg inRange, List.isEmpty_iff, if_neg filled]

/-- CAN_READ_QUEUE takes frames from the front of a queue (R376). -/
theorem run_canReadQueue_inRange {l : List Bytes} (hl : l = Tbl.getD (s.can h.side).queues (u8 p 0) []) (queue : u8 p 0 ≤ 1)
    (atLeast : 1 ≤ u8 p 1) (atMost : u8 p 1 ≤ 12) :
    specCanReadQueue.run h p s = done (s.putCan h.side { s.can h.side with
        queues := Tbl.put (s.can h.side).queues (u8 p 0) (l.drop (fitItems h 0 (l.take (u8 p 1))).length) })
      (fitItems h 0 (l.take (u8 p 1))).flatten := by
  subst hl
  have inRange : ¬(1 < u8 p 0 ∨ u8 p 1 = 0 ∨ 12 < u8 p 1) := by omega
  change cmdCanReadQueue h p s = _
  simp only [cmdCanReadQueue, if_neg inRange, List.flatMap_id]

/-- CAN_SEND executes for a transmit buffer of the module that no stall owns (R376). -/
theorem run_canSend_own {r : Bytes} (buffer : u8 p 0 ≤ 63) (free : s.canOwner (ctrlOf h.side) 0 (u8 p 0) = 0)
    (hr : s.modActive.get 0x11 (canBufferIdx (ctrlOf h.side) (u8 p 0)) = some r) (sends : u8 r 2 = 1) (own : u8 r 4 = 255)
    (publishes : s.holdPublish h.side = false) :
    specCanSend.run h p s = done (s.canRequest h.side (u8 p 0) ⟨recordFrame (p.drop 1), u8 r 3⟩) [] := by
  change cmdCanSend h p s = _
  simp [cmdCanSend, Nat.not_lt.2 buffer, free, hr, sends, own, publishes]

theorem run_ledgerNote_whole (whole : 26 ≤ p.length) :
    specLedgerNote.run h p s = done (s.ledger ⟨0, 0, 0, 0x0012, 0, recBody p, false, false⟩) [] := by
  change cmdLedgerNote h p s = _
  simp only [cmdLedgerNote, if_neg (Nat.not_lt.2 whole), lcNote]

end SignalRuns

/-- Settles O39: each row executes its command, which does what it says wherever its conditions hold. -/
theorem signalCommands : Obligations.SignalCommands := by
  unfold Obligations.SignalCommands
  refine ⟨?condStop, ?condStart, ?reanchor, ?noReanchor, ?anchor, ?acqStart, ?acqStop, ?acqTrigger, ?acqReadDram, ?canReadQueue,
    ?canSend, ?ledgerExport, ?ledgerNote⟩
  case condStop => exact does_of_run (fun _ _ _ => rfl) fun s h p => run_condStop_inRange
  case condStart => exact does_of_run (fun _ _ _ => rfl) fun s h p => run_condStart_inRange
  case reanchor =>
    refine fun r => does_of_run (fun _ _ _ => rfl) fun s h p ok => ?_
    obtain ⟨inRange, subscribed, free⟩ := ok
    rw [run_svReanchor_subscribed inRange subscribed, if_pos free]; rfl
  case noReanchor =>
    refine fun r => refuses_of_run (fun _ _ _ => rfl) fun s h p ok => ?_
    obtain ⟨inRange, subscribed, synced⟩ := ok
    rw [run_svReanchor_subscribed inRange subscribed, if_neg (Bool.not_eq_true _ ▸ synced)]
  case anchor => exact fun r => does_of_run (fun _ _ _ => rfl) fun s h p => run_svAnchor_subscribed
  case acqStart =>
    rintro rs rfl
    refine does_of_run (fun _ _ _ => rfl) fun s h p ok => ?_
    obtain ⟨inRange, configured, ready⟩ := ok
    exact run_acqStart_ready rfl inRange configured ready
  case acqStop =>
    refine does_of_run_taken (fun _ _ _ => rfl) fun s h p takes ok => ?_
    obtain ⟨-, -, now⟩ := takes
    obtain ⟨inRange, runs⟩ := ok
    exact run_acqStop_running now inRange runs
  case acqTrigger =>
    rintro named rfl
    exact does_of_run (fun _ _ _ => rfl) fun s h p => run_acqTrigger_named fun _ => rfl
  case acqReadDram =>
    rintro l out rfl rfl
    refine does_of_run (fun _ _ _ => rfl) fun s h p ok => ?_
    obtain ⟨ring, atLeast, atMost, filled⟩ := ok
    exact run_acqReadDram_filled rfl ring atLeast atMost filled
  case canReadQueue =>
    rintro l out rfl rfl
    refine does_of_run (fun _ _ _ => rfl) fun s h p ok => ?_
    obtain ⟨queue, atLeast, atMost⟩ := ok
    exact run_canReadQueue_inRange rfl queue atLeast atMost
  case canSend =>
    refine fun r => does_of_run (fun _ _ _ => rfl) fun s h p ok => ?_
    obtain ⟨buffer, free, subscribed, sends, own, publishes⟩ := ok
    exact run_canSend_own buffer free subscribed sends own publishes
  case ledgerExport =>
    refine does_of_run (fun _ _ _ => rfl) fun s h p ok => ?_
    obtain ⟨ring, area, owner, runs, toHost⟩ := ok
    change cmdLedgerExport h p s = _
    simp [cmdLedgerExport, Nat.not_lt.2 ring, Nat.not_lt.2 area, owner, runs, toHost, done]
  case ledgerNote => exact does_of_run (fun _ _ _ => rfl) fun s h p => run_ledgerNote_whole

end Sys2Proof.Machine
end

section
/-! PROOFS. Streams, comparators and chains, cores and clusters, tallies (R68 to R79, R95 to R102, R127, R128). -/

namespace Sys2Proof.Machine

/-! ### A frame is checked in order (R68) -/

section Intake

variable {s : State} {sd : SideId} {f : SvFrame} {arr k : Nat} {r : Bytes}

/-- A frame of no subscription is nobody's. -/
theorem State.svIntake_unsubscribed (h : ∀ e ∈ s.subs, u48 e.2 4 ≠ f.dst.toNat ∨ u16 e.2 10 ≠ f.appId.toNat) :
    s.svIntake sd f arr = s := by
  have unnamed : (s.subs.filter fun e => u48 e.2 4 == f.dst.toNat && u16 e.2 10 == f.appId.toNat) = [] := by
    rw [List.filter_eq_nil_iff]
    intro e he
    simpa [← not_and_or] using h e he
  simp only [State.svIntake, State.svStream, unnamed]

/-- Whether a frame's redundancy sequence number was accepted before. -/
def State.svSeen (s : State) (sd : SideId) (f : SvFrame) : Bool :=
  match f.redundancy with
  | some q => s.dupSeen sd f.src.toNat q.toNat
  | none => false

theorem State.svSeen_iff : s.svSeen sd f = true ↔ ∃ q, f.redundancy = some q ∧ s.dupSeen sd f.src.toNat q.toNat = true := by
  cases hq : f.redundancy <;> simp [State.svSeen, hq]

theorem State.svSeen_false_iff : s.svSeen sd f = false ↔ ∀ q, f.redundancy = some q → s.dupSeen sd f.src.toNat q.toNat = false := by
  cases hq : f.redundancy <;> simp [State.svSeen, hq]

variable (hs : s.svStream f = (true, some (k, r)))

include hs

/-- The frame of one subscription: its length, whether it came before, checks 3 to 11. -/
theorem State.svIntake_subscribed : s.svIntake sd f arr =
    if 2048 < f.length then s.svDiscardFor sd (some k) .length
    else if s.svSeen sd f then s.svDiscardFor sd (some k) .dupPrp
    else match s.svCheck sd r f with
      | some why => s.svDiscardFor sd (some k) why
      | none => s.svFile sd k r f arr := by
  simp only [State.svIntake, hs]
  rfl

theorem State.svIntake_long (long : 2048 < f.length) : s.svIntake sd f arr = s.svDiscardFor sd (some k) .length := by
  rw [State.svIntake_subscribed hs, if_pos long]

variable (short : f.length ≤ 2048)

include short

theorem State.svIntake_duplicate (seen : s.svSeen sd f = true) : s.svIntake sd f arr = s.svDiscardFor sd (some k) .dupPrp := by
  rw [State.svIntake_subscribed hs, if_neg (Nat.not_lt.2 short), if_pos seen]

variable (fresh : s.svSeen sd f = false)

include fresh

theorem State.svIntake_discarded {why : SvReason} (check : s.svCheck sd r f = some why) :
    s.svIntake sd f arr = s.svDiscardFor sd (some k) why := by
  rw [State.svIntake_subscribed hs, if_neg (Nat.not_lt.2 short), if_neg (Bool.not_eq_true _ ▸ fresh), check]

theorem State.svIntake_filed (check : s.svCheck sd r f = none) : s.svIntake sd f arr = s.svFile sd k r f arr := by
  rw [State.svIntake_subscribed hs, if_neg (Nat.not_lt.2 short), if_neg (Bool.not_eq_true _ ▸ fresh), check]

end Intake

/-! ### What checks 3 to 11 say (R68) -/

section Checks

variable {s : State} {sd : SideId} {f : SvFrame} {r : Bytes}

theorem State.svCheck_malformed (h : f.wellFormed = false) : s.svCheck sd r f = some .format := by
  simp [State.svCheck, h]

/-- A list of checks that names no fault has passed its first check. -/
theorem check_passed {α : Type} {bad : Prop} [Decidable bad] {why : α} {rest : Option α}
    (h : (if bad then some why else rest) = none) : ¬bad ∧ rest = none := by
  split at h
  · cases h
  · exact ⟨‹¬bad›, h⟩

/-- A frame that passes has the number of ASDUs, the simulation flag, the svID and the revision of its subscription, and no
smpCnt beyond the wrap. -/
theorem State.svCheck_passes (h : s.svCheck sd r f = none) : f.asdus.length = u8 r 13 ∧ f.sim = subFlag r 4 ∧
    ∀ a ∈ f.asdus, a.svId = subSvid r ∧ a.confRev.toNat = u32 r 16 ∧ a.smpCnt.toNat < subWrap r := by
  simp only [State.svCheck] at h
  obtain ⟨-, h⟩ := check_passed h
  obtain ⟨count, h⟩ := check_passed h
  obtain ⟨svId, h⟩ := check_passed h
  obtain ⟨sim, h⟩ := check_passed h
  obtain ⟨-, h⟩ := check_passed h
  obtain ⟨confRev, h⟩ := check_passed h
  obtain ⟨-, h⟩ := check_passed h
  obtain ⟨-, h⟩ := check_passed h
  obtain ⟨-, h⟩ := check_passed h
  obtain ⟨smpCnt, -⟩ := check_passed h
  simp only [Bool.or_eq_true, not_or, List.any_eq_true, bne_iff_ne, decide_eq_true_eq, not_exists, not_and, not_not, Nat.not_le]
    at svId confRev smpCnt
  obtain ⟨below, -⟩ := smpCnt
  exact ⟨by omega, by simpa using sim, fun a ha => ⟨svId a ha, confRev a ha, below a ha⟩⟩

end Checks

/-! ### Failure runs and absent streams (R70, R78, R79) -/

section Runs

variable {s : State} {sd : SideId} {slot : Nat}

/-- A run that has not been reported is reported at its 48th tick (R70). -/
theorem State.svFailureRun_unreported {reason start : Nat} (h : Tbl.find (s.stream sd slot).runs reason = some (start, false)) :
    s.svFailureRun sd slot reason =
      if start + 47 ≤ s.now then
        ((s.putStream sd slot { s.stream sd slot with runs := Tbl.put (s.stream sd slot).runs reason (start, true) }).setFlag
          (Rg.streamState sd slot) (if reason = 9 then Fd.streamStateAuthBad else Fd.streamStateIdBad) true).crier sd evSvFailure 1 0 0
            (beBytes 2 slot ++ beBytes 1 reason ++ zeros 13)
      else s := by
  simp only [State.svFailureRun, h]

/-- A stream present so far is absent once its run of missed ticks is long enough (R78). -/
theorem State.streamAbsent_present {r : Bytes} (hr : s.modActive.get 0x04 slot = some r) (hp : s.streamState sd slot = stPresent) :
    s.streamAbsent sd slot =
      if u8 r 15 ≤ s.rd (Rg.streamState sd slot) Fd.streamStateMissRun then
        (s.wr (Rg.streamState sd slot) Fd.streamStateState stAbsent).putStream sd slot { s.stream sd slot with held := [] }
      else s := by
  simp only [State.streamAbsent, hr, hp, true_and]

end Runs

/-! ### Comparators (R95, R96) -/

section Comparators

variable {s : State} {sd : SideId} {ch i dir : Nat} {x : ChainSt} {r : Bytes}

/-- What a comparator that fires leaves: its new state, its event in the chain's status and in the latest record. -/
def State.compFired (s : State) (sd : SideId) (ch i dir : Nat) (x : ChainSt) (c : CompSt) (frac : Nat) : State :=
  (s.putChain sd ch { x with
    comps := x.comps.set i c
    status := u32 (stampEvent (idleRecord x.status) i dir frac c.picked) 36 }).stampRecord sd ch fun b => stampEvent b i dir frac c.picked

variable (hx : s.chain sd ch = some x) (hr : s.modActive.get 0x05 ch = some r) {fire : Bytes → CompSt → Option (CompSt × Nat)}

include hx hr

theorem State.fireComp_fires {c : CompSt} {frac : Nat} (h : fire (chComp r i) (x.comps.getD i CompSt.empty) = some (c, frac)) :
    s.fireComp sd ch i dir fire = s.compFired sd ch i dir x c frac := by
  simp only [State.fireComp, hx, hr, h, State.compFired]

theorem State.fireComp_rests (h : fire (chComp r i) (x.comps.getD i CompSt.empty) = none) : s.fireComp sd ch i dir fire = s := by
  simp only [State.fireComp, hx, hr, h]

omit hx hr

variable {e : Bytes} {c : CompSt}

theorem compPickup_complete (hp : c.picked = false) (hn : cmpP e ≤ c.run) :
    compPickup e c = some ({ c with picked := true, run := 0 }, crossing c.hist (cmpP e) (cmpTh e)) := by
  simp [compPickup, hp, hn]

theorem compPickup_picked (hp : c.picked = true) : compPickup e c = none := by
  simp [compPickup, hp]

theorem compDropout_complete (hp : c.picked = true) (hn : cmpQ e ≤ c.run) :
    compDropout e c = some ({ c with picked := false, run := 0 }, crossing c.hist (cmpQ e) (cmpHold e)) := by
  simp [compDropout, hp, hn]

theorem compDropout_short (hn : c.run < cmpQ e) : compDropout e c = none := by
  simp [compDropout, Nat.not_le.2 hn]

end Comparators

/-! ### Chains settle (R101, R102) -/

section Chains

variable {s : State} {sd : SideId} {ch : Nat} {x : ChainSt} (hx : s.chain sd ch = some x)

include hx

theorem State.chainSettled_due {c : ChainCfg} (hc : s.modActive.chainCfg ch = some c) (hs : x.state = 1) (hm : c.win + c.settle ≤ x.m)
    (hn : x.clean ≤ x.m) : s.chainSettled sd ch = s.putChain sd ch { x with
      state := 2, prevCoarse := false, status := setBits (setBits x.status 14 12 0) 14 14 0 } := by
  simp only [State.chainSettled, hx, hc]
  exact if_pos ⟨hs, hm, hn⟩

theorem State.settlingEnd_due (hs : x.state = 2) (hb : bit x.status 13 = true) (hn : x.clean ≤ x.m) :
    s.settlingEnd sd ch = s.putChain sd ch { x with prevCoarse := false, pref := x.fine, status := setBits x.status 13 12 0 } := by
  simp only [State.settlingEnd, hx]
  exact if_pos ⟨hs, hb, hn⟩

theorem State.settlingEnd_unclean (hn : x.m < x.clean) : s.settlingEnd sd ch = s := by
  simp only [State.settlingEnd, hx]
  exact if_neg fun ⟨_, _, clean⟩ => Nat.not_le.2 hn clean

end Chains

/-! ### The abort limit (R128) -/

section Tallies

variable {s : State} {stall : Nat}

/-- A stall at its limit is listed for a reset, unless it is already. -/
theorem State.tallyLimit_reached (hz : s.abortLimit stall ≠ 0) (hl : s.abortLimit stall ≤ Tbl.getD s.tally stall 0)
    (hr : s.stallState stall = stRunning) (hn : ∀ m ∈ s.notices, m.ty ≠ ntStallReset ∨ m.stall ≠ stall) :
    s.tallyLimit stall = { s with notices := s.notices ++ [⟨ntStallReset, stall, 0, s.now + 1, true⟩] } := by
  have unlisted : s.notices.any (fun m => m.resets stall) = false := by
    rw [List.any_eq_false]
    intro m hm
    simpa [Notice.resets, ← not_and_or] using hn m hm
  simp [State.tallyLimit, hz, hl, hr, State.addNotice, unlisted]

theorem State.tallyLimit_below (hl : Tbl.getD s.tally stall 0 < s.abortLimit stall) : s.tallyLimit stall = s := by
  simp only [State.tallyLimit]
  exact if_neg fun ⟨_, reached, _⟩ => Nat.not_le.2 hl reached

end Tallies

/-! ### An abort and the state of its side (R123, R125) -/

section Aborts

variable (s : State) (sd : SideId) (n : Nat)

theorem State.taskSt_congr {s t : State} {sd : SideId} (h : (t.side sd).tasks = (s.side sd).tasks) (stall task : Nat) :
    t.taskSt sd stall task = s.taskSt sd stall task := by
  simp only [State.taskSt, h]

theorem State.putTaskSt_taskSt (stall task stall' task' : Nat) (x : TaskSt) : (s.putTaskSt sd stall task x).taskSt sd stall' task' =
    if taskKey stall' task' = taskKey stall task then x else s.taskSt sd stall' task' := by
  simp only [State.taskSt, State.putTaskSt, State.modSide_same]
  split
  next same => rw [same, Tbl.getD_put_same]
  next other => rw [Tbl.getD_put_other _ _ _ other]

@[simp] theorem State.putTaskSt_duty (stall task : Nat) (x : TaskSt) (sd' : SideId) : (s.putTaskSt sd stall task x).duty sd' = s.duty sd' := by
  rw [State.putTaskSt, State.duty_modSide]
  exact fun _ => rfl

@[simp] theorem State.putCore_duty (c : CoreSt) (sd' : SideId) : (s.putCore sd n c).duty sd' = s.duty sd' := by
  rw [State.putCore, State.duty_modSide]
  exact fun _ => rfl

@[simp] theorem State.putCore_coreSt (c : CoreSt) : (s.putCore sd n c).coreSt sd n = c := by
  simp [State.putCore, State.coreSt]

@[simp] theorem State.putCore_tasks (c : CoreSt) : ((s.putCore sd n c).side sd).tasks = (s.side sd).tasks := by
  simp [State.putCore]

@[simp] theorem State.coreDone_duty (ns : Nat) (sd' : SideId) : (s.coreDone sd n ns).duty sd' = s.duty sd' := by
  simp only [State.coreDone, State.raise_eq, State.wr_duty, State.putCore_duty]

@[simp] theorem State.coreDone_tasks (ns : Nat) : ((s.coreDone sd n ns).side sd).tasks = (s.side sd).tasks := by
  simp only [State.coreDone, State.raise_eq, State.wr_side, State.putCore_tasks]

/-- Logging a fault keeps what neither a report nor the health of a side is. -/
theorem State.logFaultAs_keeps {γ : Type} (g : Side → γ) (hu : ∀ x, g x.unreported = g x) (hh : ∀ x h, g { x with health := h } = g x)
    (code part word : Nat) (sd' : SideId) : g ((s.logFaultAs sd code part word).side sd') = g (s.side sd') := by
  rw [← hu, State.logFaultAs_eq, State.unreported_sides (State.unreported_partEvent _ sd _ _ _), hu, State.countFault_side]
  simp only [State.enterFault, State.tick1_side, State.wr_side, State.putReg_side]
  by_cases same : sd' = sd
  · rw [same, State.modSide_same, hh]
  · rw [State.modSide_other _ _ same]

/-- An abort is counted: its reason, and towards its stall's limit where `leads` says so. -/
def State.countAbort (s : State) (sd : SideId) (stall task : Nat) (r : AbortReason) (leads : Bool) : State :=
  let k := taskKey stall task
  let t := (s.wr (Rg.taskState sd k) Fd.taskStateLastAbort (abortCode r)).tick1 (Rg.taskTally sd k) Fd.taskTallyAborts
  let u := match r with
    | .budget => t.tick1 (Rg.scanAborts sd) Fd.scanAbortsBudget
    | .access => t.tick1 (Rg.scanAborts sd) Fd.scanAbortsAccess
    | .window => t.tick1 (Rg.scanDiscards sd) Fd.scanDiscardsWindow
    | .discard => t.tick1 (Rg.scanDiscards sd) Fd.scanDiscardsDiscard
  if (r = .budget ∨ r = .access) ∧ leads = true then u.tallyAbort stall task else u

@[simp] theorem State.tallyAbort_side (stall task : Nat) (sd' : SideId) : (s.tallyAbort stall task).side sd' = s.side sd' := by
  simp only [State.tallyAbort]
  split
  · rfl
  · cases sd' <;> rfl

@[simp] theorem State.countAbort_side (stall task : Nat) (r : AbortReason) (leads : Bool) (sd' : SideId) :
    (s.countAbort sd stall task r leads).side sd' = s.side sd' := by
  simp only [State.countAbort]
  split <;> cases r <;> simp

/-- The task of an aborted activation is held; the abort is counted, and a corrupt slice table logged as a fault. -/
theorem State.abortAct_eq (a : Act) (r : AbortReason) : s.abortAct sd n a r =
    let t := (s.putTaskSt sd a.stall a.task { s.taskSt sd a.stall a.task with held := true }).countAbort sd a.stall a.task r (s.leads sd)
    (if a.memFault then t.logFaultAs sd lcPartFault (t.clusterMemory sd (n / 8)) 0 else t).coreDone sd n (a.cIn + a.used) := by
  cases r <;> rfl

@[simp] theorem State.abortAct_duty (a : Act) (r : AbortReason) (sd' : SideId) : (s.abortAct sd n a r).duty sd' = s.duty sd' := by
  simp only [State.abortAct_eq, State.coreDone_duty]
  rw [← s.putTaskSt_duty sd a.stall a.task { s.taskSt sd a.stall a.task with held := true } sd']
  split
  · rw [State.logFaultAs_duty, State.duty, State.countAbort_side, State.duty]
  · rw [State.duty, State.countAbort_side, State.duty]

/-- An abort holds its task and leaves the rest of its side's tasks (R123). -/
theorem State.abortAct_taskSt (a : Act) (r : AbortReason) (stall task : Nat) : (s.abortAct sd n a r).taskSt sd stall task =
    if taskKey stall task = taskKey a.stall a.task then { s.taskSt sd stall task with held := true } else s.taskSt sd stall task := by
  have tasks : ((s.abortAct sd n a r).side sd).tasks =
      ((s.putTaskSt sd a.stall a.task { s.taskSt sd a.stall a.task with held := true }).side sd).tasks := by
    simp only [State.abortAct_eq, State.coreDone_tasks]
    split
    · rw [State.logFaultAs_keeps _ sd Side.tasks (fun _ => rfl) (fun _ _ => rfl), State.countAbort_side]
    · rw [State.countAbort_side]
  rw [State.taskSt_congr tasks, State.putTaskSt_taskSt]
  split
  next same => simp only [State.taskSt, same]
  next => rfl

end Aborts

/-! ### A core is emptied (R127) -/

section Cores

variable (s : State) (sd : SideId) (n : Nat)

@[simp] theorem State.discardAct_duty (e : Nat × Nat) (sd' : SideId) : (s.discardAct sd n e).duty sd' = s.duty sd' := by
  rw [State.discardAct, State.abortAct_duty, State.useGather, State.putTaskSt_duty]

/-- A release that is discarded leaves every task its RET, and held where it was. -/
theorem State.discardAct_taskSt (e : Nat × Nat) (stall task : Nat) :
    ((s.discardAct sd n e).taskSt sd stall task).ret = (s.taskSt sd stall task).ret ∧
      ((s.taskSt sd stall task).held = true → ((s.discardAct sd n e).taskSt sd stall task).held = true) := by
  rw [State.discardAct, State.abortAct_taskSt, State.useGather, State.putTaskSt_taskSt]
  by_cases same : taskKey stall task = taskKey e.1 e.2
  · have stored : s.taskSt sd e.1 e.2 = s.taskSt sd stall task := by simp only [State.taskSt, same]
    simp [same, stored]
  · simp [same]

theorem State.discardAll_taskSt (l : List (Nat × Nat)) (stall task : Nat) :
    ((l.foldl (fun (t : State) e => t.discardAct sd n e) s).taskSt sd stall task).ret = (s.taskSt sd stall task).ret ∧
      ((s.taskSt sd stall task).held = true →
        ((l.foldl (fun (t : State) e => t.discardAct sd n e) s).taskSt sd stall task).held = true) := by
  induction l generalizing s with
  | nil => exact ⟨rfl, id⟩
  | cons e l ih =>
    obtain ⟨ret, held⟩ := s.discardAct_taskSt sd n e stall task
    obtain ⟨rets, helds⟩ := ih (s.discardAct sd n e)
    exact ⟨rets.trans ret, helds ∘ held⟩

/-- The activation in progress, when a core is emptied, is aborted. -/
def State.abortCur (s : State) (sd : SideId) (n : Nat) (r : AbortReason) : State :=
  match (s.coreSt sd n).cur with
  | some a => s.abortAct sd n a r
  | none => s

theorem State.discardCore_eq (r : AbortReason) : s.discardCore sd n r =
    let t := (s.coreSt sd n).queue.foldl (fun t e => t.discardAct sd n e) (s.abortCur sd n r)
    t.putCore sd n { t.coreSt sd n with queue := [], cur := none, failed := true } := rfl

theorem State.discardCore_coreSt (r : AbortReason) : ((s.discardCore sd n r).coreSt sd n).cur = none ∧
    ((s.discardCore sd n r).coreSt sd n).queue = [] := by
  simp [State.discardCore_eq]

@[simp] theorem State.discardCore_duty (r : AbortReason) (sd' : SideId) : (s.discardCore sd n r).duty sd' = s.duty sd' := by
  rw [State.discardCore_eq, State.putCore_duty, foldl_keeps (State.duty · sd') fun t e => t.discardAct_duty sd n e sd', State.abortCur]
  split
  · exact s.abortAct_duty sd n _ r sd'
  · rfl

/-- The task of the activation in progress is held, its RET as before. -/
theorem State.discardCore_taskSt {a : Act} (h : (s.coreSt sd n).cur = some a) (r : AbortReason) :
    ((s.discardCore sd n r).taskSt sd a.stall a.task).held = true ∧
      ((s.discardCore sd n r).taskSt sd a.stall a.task).ret = (s.taskSt sd a.stall a.task).ret := by
  have aborted : (s.abortAct sd n a r).taskSt sd a.stall a.task = { s.taskSt sd a.stall a.task with held := true } := by
    rw [State.abortAct_taskSt, if_pos rfl]
  have current : s.abortCur sd n r = s.abortAct sd n a r := by rw [State.abortCur, h]
  rw [State.discardCore_eq, State.taskSt_congr (State.putCore_tasks _ _ _ _), current]
  obtain ⟨ret, held⟩ := (s.abortAct sd n a r).discardAll_taskSt sd n (s.coreSt sd n).queue a.stall a.task
  exact ⟨held (congrArg TaskSt.held aborted :), ret.trans (congrArg TaskSt.ret aborted :)⟩

end Cores

/-! ### The idle core takes over (R10, R127) -/

section Spares

variable (s : State) (sd : SideId) (n : Nat)

/-- A failed core, logged and emptied; its migration names its stalls. -/
def State.coreOut (s : State) (sd : SideId) (n : Nat) (reason : AbortReason) : State :=
  ((s.logFault sd (tileAddr sd (3 + s.physCluster sd (n / 8)) (s.corePos sd (n / 8) (n % 8))) 0).discardCore sd n reason).nameStalls sd
    (s.stallsOn s.now n)

/-- The idle core of cluster `l` works at position `c`. -/
def State.spareIn (s : State) (sd : SideId) (l c : Nat) : State :=
  ((s.setFlag (Rg.clusterMap sd l) Fd.clusterMapSpareUsed true).wr (Rg.clusterMap sd l) Fd.clusterMapIdlePos c).countSpareCores sd

theorem State.coreFails_spare (reason : AbortReason) (h : s.flag (Rg.clusterMap sd (n / 8)) Fd.clusterMapSpareUsed = false) :
    s.coreFails sd n reason = ((s.coreOut sd n reason).spareIn sd (n / 8) (n % 8)).partEvent sd lcSpareIn
      (tileAddr sd (3 + s.physCluster sd (n / 8)) 8) 0 := by
  simp only [State.coreFails, h]
  rfl

theorem clusterMap_key_ne_healthSpares {l : Nat} (h : l < 10) : (Rg.clusterMap sd l).key ≠ (Rg.healthSpares sd).key := by
  simp only [Rg.clusterMap, Rg.healthSpares]; omega

theorem reportReg_clusterMap {l : Nat} (h : l < 10) : reportReg (Rg.clusterMap sd l).key = false := by
  cases sd <;> simp only [reportReg, Rg.clusterMap, sideBase, Bool.or_eq_false_iff, beq_eq_false_iff_ne] <;> omega

theorem State.spareIn_side (l c : Nat) (sd' : SideId) : (s.spareIn sd l c).side sd' = s.side sd' := by
  simp only [State.spareIn, State.countSpareCores, State.wr_side, State.setFlag_side]

/-- CLUSTER_MAP shows the idle core at work and where. -/
theorem State.spareIn_shows {l c : Nat} (hl : l < 10) (hc : c < 8) :
    (s.spareIn sd l c).flag (Rg.clusterMap sd l) Fd.clusterMapSpareUsed = true ∧
      (s.spareIn sd l c).rd (Rg.clusterMap sd l) Fd.clusterMapIdlePos = c := by
  have apart := clusterMap_key_ne_healthSpares sd hl
  constructor
  · rw [State.spareIn, State.countSpareCores, State.wr_eq _ (Rg.healthSpares sd), State.flag_putReg_other _ _ _ apart,
      State.flag_wr_apart _ _ _ _ _ (by decide) (by decide) (by decide) (by decide)]
    exact State.flag_setFlag_same _ _ _ _ rfl (by decide)
  · rw [State.spareIn, State.countSpareCores, State.rd_wr_other _ _ _ _ apart, State.rd_wr_same _ _ _ _ (by decide) (by decide)]
    exact Nat.mod_eq_of_lt (Nat.lt_of_lt_of_le hc (by decide))

theorem State.coreOut_coreSt (reason : AbortReason) :
    ((s.coreOut sd n reason).coreSt sd n).cur = none ∧ ((s.coreOut sd n reason).coreSt sd n).queue = [] := by
  have cores : ∀ (t : State) l, ((t.nameStalls sd l).side sd).cores = (t.side sd).cores := by
    intro t l
    simp [State.nameStalls, State.modDuty]
  simp only [State.coreOut, State.coreSt, cores]
  exact State.discardCore_coreSt _ sd n reason

theorem State.coreOut_demote (reason : AbortReason) : ((s.coreOut sd n reason).duty sd).demote = (s.duty sd).demote := by
  simp only [State.coreOut, State.nameStalls, State.modDuty_duty, State.discardCore_duty, State.logFault, State.logFaultAs_duty]

theorem State.coreOut_taskSt {a : Act} (h : (s.coreSt sd n).cur = some a) (reason : AbortReason) :
    ((s.coreOut sd n reason).taskSt sd a.stall a.task).held = true ∧
      ((s.coreOut sd n reason).taskSt sd a.stall a.task).ret = (s.taskSt sd a.stall a.task).ret := by
  have tasks : ∀ (t : State) l, ((t.nameStalls sd l).side sd).tasks = (t.side sd).tasks := by
    intro t l
    simp [State.nameStalls, State.modDuty]
  have logged : ∀ part, ((s.logFault sd part 0).coreSt sd n).cur = some a := by
    intro part
    rw [State.coreSt, State.logFault, State.logFaultAs_keeps _ sd Side.cores (fun _ => rfl) fun _ _ => rfl]
    exact h
  have before : ∀ part, (s.logFault sd part 0).taskSt sd a.stall a.task = s.taskSt sd a.stall a.task := fun part =>
    State.taskSt_congr (s.logFaultAs_keeps sd Side.tasks (fun _ => rfl) (fun _ _ => rfl) _ part 0 sd) _ _
  rw [State.coreOut, State.taskSt_congr (tasks _ _), ← before]
  exact State.discardCore_taskSt _ sd n (logged _) reason

variable {s sd n} {reason : AbortReason} (hn : n < 80) (h : s.flag (Rg.clusterMap sd (n / 8)) Fd.clusterMapSpareUsed = false)

include hn h

/-- CLUSTER_MAP of a core that has failed shows its idle core in its place. -/
theorem State.coreFails_shows :
    (s.coreFails sd n reason).flag (Rg.clusterMap sd (n / 8)) Fd.clusterMapSpareUsed = true ∧
      (s.coreFails sd n reason).rd (Rg.clusterMap sd (n / 8)) Fd.clusterMapIdlePos = n % 8 := by
  have cluster : n / 8 < 10 := by omega
  obtain ⟨used, place⟩ := (s.coreOut sd n reason).spareIn_shows sd cluster (Nat.mod_lt n (by decide))
  rw [s.coreFails_spare sd n reason h]
  exact ⟨(State.flag_rest (State.unreported_partEvent _ sd _ _ _) _ (reportReg_clusterMap sd cluster)).trans used,
    (State.rd_rest (State.unreported_partEvent _ sd _ _ _) _ (reportReg_clusterMap sd cluster)).trans place⟩

omit hn

/-- What is no report of the side of a failed core is as the core's end has left it. -/
theorem State.coreFails_keeps {γ : Type} (g : Side → γ) (hu : ∀ x, g x.unreported = g x) :
    g ((s.coreFails sd n reason).side sd) = g ((s.coreOut sd n reason).side sd) := by
  rw [s.coreFails_spare sd n reason h, ← hu, State.unreported_sides (State.unreported_partEvent _ sd _ _ _), hu, State.spareIn_side]

/-- A failed core runs nothing and has nothing to run. -/
theorem State.coreFails_coreSt : ((s.coreFails sd n reason).coreSt sd n).cur = none ∧ ((s.coreFails sd n reason).coreSt sd n).queue = [] := by
  simp only [State.coreSt, State.coreFails_keeps h Side.cores fun _ => rfl]
  exact s.coreOut_coreSt sd n reason

/-- A side whose idle core takes over does not demote itself. -/
theorem State.coreFails_demote : ((s.coreFails sd n reason).duty sd).demote = (s.duty sd).demote := by
  rw [State.duty, State.coreFails_keeps h Side.duty fun _ => rfl]
  exact s.coreOut_demote sd n reason

theorem State.coreFails_taskSt {a : Act} (ha : (s.coreSt sd n).cur = some a) :
    ((s.coreFails sd n reason).taskSt sd a.stall a.task).held = true ∧
      ((s.coreFails sd n reason).taskSt sd a.stall a.task).ret = (s.taskSt sd a.stall a.task).ret := by
  rw [State.taskSt_congr (State.coreFails_keeps h Side.tasks fun _ => rfl)]
  exact s.coreOut_taskSt sd n ha reason

end Spares

/-! ### Rows -/

section StreamRows

variable {s : State} (sd : SideId)

theorem exec_svFrameIntake (port : SideId) (f : SvFrame) (arr : Nat) :
    exec (.svFrameIntake sd port f arr) s = .next (s.svIntake sd f arr) := rfl

theorem exec_svFailureRun (slot : Fin 1024) (reason : BitVec 4) :
    exec (.svFailureRun sd slot reason) s = .next (s.svFailureRun sd slot.val reason.toNat) := rfl

theorem exec_streamAbsent (slot : Fin 1024) : exec (.streamAbsent sd slot) s = .next (s.streamAbsent sd slot.val) := rfl

theorem exec_dupEntryExpiry (src : BitVec 48) (no : BitVec 16) {kept : List (Nat × Nat)}
    (h : kept = (Tbl.getD (s.side sd).dups src.toNat []).filter fun e => !(e.1 == no.toNat && decide (e.2 + 1920 ≤ s.now))) :
    exec (.dupEntryExpiry sd src no) s =
      .next (s.modSide sd fun x => { x with dups := Tbl.set x.dups src.toNat (if kept.isEmpty then none else some kept) }) := by
  subst h; rfl

theorem exec_comparatorPickup (ch : Fin 8192) (i : Fin 4) :
    exec (.comparatorPickup sd ch i) s = .next (s.fireComp sd ch.val i.val 1 compPickup) := rfl

theorem exec_comparatorDropout (ch : Fin 8192) (i : Fin 4) :
    exec (.comparatorDropout sd ch i) s = .next (s.fireComp sd ch.val i.val 0 compDropout) := rfl

theorem exec_chainSettled (ch : Fin 8192) : exec (.chainSettled sd ch) s = .next (s.chainSettled sd ch.val) := rfl

theorem exec_settlingEnd (ch : Fin 8192) : exec (.settlingEnd sd ch) s = .next (s.settlingEnd sd ch.val) := rfl

theorem exec_tallyLimit (stall : Fin 64) : exec (.tallyLimit stall) s = .next (s.tallyLimit stall.val) := rfl

theorem exec_coreFailure (c : CoreRef) : exec (.coreFailure c) s = .next (s.coreFails c.side c.core.val .discard) := rfl

/-- Only a core that still runs an activation is cut off by the window (R125). -/
theorem exec_windowAbort_idle {c : CoreRef} (h : (s.coreSt c.side c.core.val).cur = none) : exec (.windowAbort c) s = .next s := by
  change execWindowAbort c s = _
  rw [execWindowAbort, h]; rfl

theorem exec_windowAbort_running {c : CoreRef} {a : Act} (h : (s.coreSt c.side c.core.val).cur = some a) :
    exec (.windowAbort c) s = .next (s.coreFails c.side c.core.val .window) := by
  change execWindowAbort c s = _
  rw [execWindowAbort, h]; rfl

/-- A failed cluster migrates while a spare cluster is left, and else sends its side Out (R127, R10). -/
theorem exec_clusterFailure (l : Fin 10) (bad : Bool) {u : State}
    (hu : u = (s.logFault sd (unitAddr 4 sd (3 + s.physCluster sd l.val)) 0).discardCluster sd l.val) :
    exec (.clusterFailure sd l bad) s = .next
      (if u.rd (Rg.healthSpares sd) Fd.healthSparesSpareClusters ≤ (u.side sd).health.migrating.length then
        (u.unitFailed sd (3 + s.physCluster sd l.val)).demote sd rcSelf
      else u.modHealth sd fun h => { h with migrating := h.migrating ++ [(l.val, bad)] }) := by
  subst hu; rfl

end StreamRows

/-- Settles O50: each row by the lemmas of the operation it runs. -/
theorem streamAndScanEvents : Obligations.StreamAndScanEvents := by
  unfold Obligations.StreamAndScanEvents
  intro s
  refine ⟨?unsubscribed, ?subscribed, fun sd f r => ⟨State.svCheck_malformed, State.svCheck_passes⟩, ?discard, ?failureRun, ?absent,
    fun sd src no kept h => exec_dupEntryExpiry sd src no h, ?comparators, ?chains, ?tallyReached, ?tallyBelow,
    fun c => exec_windowAbort_idle, ?coreFailure, ?windowAbort, ?clusters⟩
  case unsubscribed =>
    intro sd port f arr h
    rw [exec_svFrameIntake, State.svIntake_unsubscribed h]
  case subscribed =>
    intro sd port f arr k r hs
    simp only [exec_svFrameIntake, ← State.svSeen_iff, ← State.svSeen_false_iff]
    exact ⟨fun long => congrArg _ (State.svIntake_long hs long),
      fun short seen => congrArg _ (State.svIntake_duplicate hs short seen),
      fun short fresh => ⟨fun why check => congrArg _ (State.svIntake_discarded hs short fresh check),
        fun check => congrArg _ (State.svIntake_filed hs short fresh check)⟩⟩
  case discard =>
    intro sd slot
    cases slot <;> rfl
  case failureRun =>
    intro sd slot reason start h
    rw [exec_svFailureRun, State.svFailureRun_unreported h]
    exact ⟨fun early => congrArg _ (if_neg (Nat.not_le.2 early)), fun due => congrArg _ (if_pos due)⟩
  case absent =>
    intro sd slot r hr hp
    rw [exec_streamAbsent, State.streamAbsent_present hr hp]
    exact ⟨fun long => congrArg _ (if_pos long), fun short => congrArg _ (if_neg (Nat.not_le.2 short))⟩
  case comparators =>
    rintro sd ch i x r c hx hr rfl fires rfl
    rw [exec_comparatorPickup, exec_comparatorDropout]
    exact ⟨fun hp hn => congrArg _ (State.fireComp_fires hx hr (compPickup_complete hp hn)),
      fun hp => congrArg _ (State.fireComp_rests hx hr (compPickup_picked hp)),
      fun hp hn => congrArg _ (State.fireComp_fires hx hr (compDropout_complete hp hn)),
      fun hn => congrArg _ (State.fireComp_rests hx hr (compDropout_short hn))⟩
  case chains =>
    intro sd ch x hx
    rw [exec_chainSettled, exec_settlingEnd]
    exact ⟨fun c hc hs hm hn => congrArg _ (State.chainSettled_due hx hc hs hm hn),
      fun hs hb hn => congrArg _ (State.settlingEnd_due hx hs hb hn), fun hn => congrArg _ (State.settlingEnd_unclean hx hn)⟩
  case tallyReached =>
    intro stall hz hl hr hn
    rw [exec_tallyLimit, State.tallyLimit_reached hz hl hr hn]
  case tallyBelow =>
    intro stall hl
    rw [exec_tallyLimit, State.tallyLimit_below hl]
  case coreFailure =>
    intro c h
    obtain ⟨used, place⟩ := State.coreFails_shows (reason := .discard) c.core.isLt h
    obtain ⟨idle, empty⟩ := State.coreFails_coreSt (reason := .discard) h
    exact ⟨_, exec_coreFailure c, used, place, idle, empty, State.coreFails_demote h⟩
  case windowAbort =>
    intro c a ha h
    obtain ⟨used, -⟩ := State.coreFails_shows (reason := .window) c.core.isLt h
    obtain ⟨idle, -⟩ := State.coreFails_coreSt (reason := .window) h
    exact ⟨_, exec_windowAbort_running ha, idle, used, State.coreFails_taskSt h ha⟩
  case clusters =>
    intro sd l bad u hu
    rw [exec_clusterFailure sd l bad hu]
    exact ⟨fun spare => congrArg _ (if_neg (Nat.not_le.2 spare)), fun none => congrArg _ (if_pos none)⟩

end Sys2Proof.Machine
end

section
/-! PROOFS. Reads of records and registers (R83, R113, R135, R215, R314, R389): what each command answers where its conditions
hold, and that it leaves the state as it was. -/

namespace Sys2Proof.Machine

open Claims

section ReadRuns

variable {s : State} {h : CmdHdr} {p : Bytes} {r : Bytes}

/-! ### Records of a set (R83, R113, R135, R215) -/

theorem readRecord_present {set ty idx top : Nat} (inRange : idx ≤ top) (hset : set ≤ 1) (hr : (s.setScope set).get ty idx = some r) :
    readRecord s (decide (idx ≤ top)) set ty idx = done s r := by
  simp [readRecord, inRange, Nat.not_lt.2 hset, hr]

theorem run_goosePubRead_present (inRange : u16 p 0 ≤ 511) (hset : u8 p 2 ≤ 1)
    (hr : s.findPub (u8 p 2) 0x22 h.stall.toNat (u16 p 0) = some r) : specGoosePubRead.run h p s = done s r := by
  have valid : ¬(511 < u16 p 0 ∨ 1 < u8 p 2) := by omega
  change cmdGoosePubRead h p s = _
  simp only [cmdGoosePubRead, if_neg valid, hr]

theorem run_svpubRead_present (inRange : u8 p 0 ≤ 63) (hset : u8 p 1 ≤ 1)
    (hr : s.findPub (u8 p 1) 0x23 h.stall.toNat (u8 p 0) = some r) : specSvpubRead.run h p s = done s r := by
  have valid : ¬(63 < u8 p 0 ∨ 1 < u8 p 1) := by omega
  change cmdSvpubRead h p s = _
  simp only [cmdSvpubRead, if_neg valid, hr]

/-- SCAN_READ_TASK answers the scan header of the image, the record of the task and its input declarations (R135). -/
theorem run_scanReadTask_present {img : Bytes} {k : Nat} {t : Task} (stall : u8 p 0 ≤ 63) (task : u8 p 1 ≤ 15) (hset : u8 p 2 ≤ 1)
    (himg : s.programIn (u8 p 2) (u8 p 0) = some img)
    (hk : (upto (imgTasks img)).find? (fun k => (readTask (imgTaskRec img k)).task == u8 p 1) = some k)
    (ht : t = readTask (imgTaskRec img k)) :
    specScanReadTask.run h p s = done s
      (sub img 64 16 ++ imgTaskRec img k ++ sub img (80 + 64 * imgTasks img + 8 * declsBefore img t.task) (8 * t.nInputs)) := by
  have valid : ¬(63 < u8 p 0 ∨ 15 < u8 p 1 ∨ 1 < u8 p 2) := by omega
  subst ht
  change cmdScanReadTask h p s = _
  simp only [cmdScanReadTask, if_neg valid, himg, hk]

/-! ### Samples and estimates that a side keeps (R83, R106, R113) -/

section Samples

variable (inRange : u16 p 0 ≤ 1023) (isSealed : s.sealedAlready (u64 p 2) = true) (kept : s.now ≤ u64 p 2 + 64)

include inRange isSealed kept

/-- A sealed tick that brought the stream nothing is answered without samples. -/
theorem run_svReadSamples_none (absent : (s.stream h.side (u16 p 0)).sealed_.find? (fun q => q.tick == u64 p 2) = none) :
    specSvReadSamples.run h p s = done s (beBytes 2 (u16 p 0) ++ zeros 2 ++ beBytes 8 (u64 p 2) ++ zeros 4) := by
  change cmdSvReadSamples h p s = _
  simp [cmdSvReadSamples, Nat.not_lt.2 inRange, isSealed, Nat.not_lt.2 kept, absent]

/-- The samples of a sealed tick are answered as far as whole entries fit. -/
theorem run_svReadSamples_some {q : SealedTick} (hq : (s.stream h.side (u16 p 0)).sealed_.find? (fun q => q.tick == u64 p 2) = some q)
    {items : List Bytes} (hi : items = fitItems h 16 (q.samples.flatMap fun e => e.entries.map (storeEntry e.cnt))) :
    specSvReadSamples.run h p s = done s (beBytes 2 (u16 p 0) ++ beBytes 2 items.length ++ beBytes 8 (u64 p 2) ++
      beBytes 1 (b2n q.present) ++ zeros 3 ++ items.flatten) := by
  subst hi
  change cmdSvReadSamples h p s = _
  simp [cmdSvReadSamples, Nat.not_lt.2 inRange, isSealed, Nat.not_lt.2 kept, hq]

end Samples

/-- The store of the Conditioner answers for the last tick and the eight before it (R106). -/
theorem readStore_present {sd : SideId} {key k : Nat} {l : Nat × Tbl Bytes} (last : (s.side sd).condStore.getLast? = some l)
    (reached : k ≤ l.1) (kept : l.1 ≤ k + 8) (hr : s.condRecord sd key k = some r) : readStore s sd key k = done s r := by
  simp only [readStore, last, if_neg (Nat.not_lt.2 reached), if_neg (Nat.not_lt.2 kept), hr]

theorem run_condReadOutput_inRange (inRange : u16 p 0 ≤ 8191) :
    specCondReadOutput.run h p s = readStore s h.side (u16 p 0) (u64 p 2) := if_neg (Nat.not_lt.2 inRange)

theorem run_condReadGroup_inRange (inRange : u16 p 0 ≤ 1023) :
    specCondReadGroup.run h p s = readStore s h.side (65536 + u16 p 0) (u64 p 2) := if_neg (Nat.not_lt.2 inRange)

/-! ### Status words (R83, R215, R314) -/

theorem run_svStreamStatus_inRange (ok : okRange (u16 p 0) (u16 p 2) 64 1023 = true) :
    specSvStreamStatus.run h p s = done s (listed h ((upto (u16 p 2)).map fun i =>
      beBytes 4 (s.regWord (Rg.streamState h.side (u16 p 0 + i))) ++ beBytes 4 (s.regWord (Rg.streamMiss h.side (u16 p 0 + i))))) := by
  change cmdSvStreamStatus h p s = _
  simp [cmdSvStreamStatus, ok, listed]

theorem run_gooseStatus_inRange (kind : u8 p 0 ≤ 1) (ok : okRange (u16 p 1) (u16 p 3) 64 (if u8 p 0 = 0 then 511 else 2047) = true) :
    specGooseStatus.run h p s = done s (listed h ((upto (u16 p 3)).map fun k =>
      beBytes 8 (if u8 p 0 = 0 then s.goosePubWord (u16 p 1 + k) else s.gooseSubWord (u16 p 1 + k)))) := by
  change cmdGooseStatus h p s = _
  simp only [cmdGooseStatus, ok, Nat.not_lt.2 kind, Bool.not_true, Bool.false_eq_true, or_self, if_false, List.flatMap_id, listed]

theorem run_acqChannelStatus_inRange (ok : okRange (u16 p 0) (u16 p 2) 64 255 = true) :
    specAcqChannelStatus.run h p s = done s (bothSides.flatMap fun sd => ((chanSpan p).take ((replyLimit h - 48) / 16)).flatMap fun c =>
      beBytes 4 (s.captStateShown sd c * 2 ^ 29) ++ beBytes 4 (s.regWord (Rg.captSeq sd c))) := by
  change cmdAcqChannelStatus h p s = _
  simp only [cmdAcqChannelStatus, ok, Bool.not_true, Bool.false_eq_true, if_false]

/-! ### Demand (R112, R113, R118, R135) -/

/-- The rate and the tap set of each chain of a set that a subscription binds. -/
def Scope.chainRates (c : Scope) : List (Nat × Nat) :=
  (c.block 0x05).filterMap fun e => (c.chanEntry e.1).map fun q => (u8 q.1 12, chTapset e.2)

theorem run_condDemand_inRange {c : Scope} (hset : u8 p 0 ≤ 1) (hc : c = s.setScope (u8 p 0)) :
    specCondDemand.run h p s = done s (beBytes 4 c.condDemand
      ++ ((upto 6).flatMap fun r => beBytes 2 (c.chainRates.filter fun q => q.1 == r).length) ++ zeros 4
      ++ beBytes 8 (listSum (((upto 64).filter fun t => c.chainRates.any fun q => q.1 != 0 && q.2 == t).map fun t => 2 ^ t))) := by
  subst hc
  exact if_neg (Nat.not_lt.2 hset)

/-- SCAN_CORE_LOAD answers the largest sum of a core, the first sixteen tick indices that reach it, and the core's tasks (R118). -/
theorem run_scanCoreLoad_inRange {l : List (Nat × Nat × Task)} {idx : List Nat} (core : u8 p 0 ≤ 79) (hset : u8 p 1 ≤ 1)
    (hl : l = s.placements (u8 p 1) (u8 p 0))
    (hi : idx = if l.isEmpty then [] else
      ((upto 4800).filter fun i => demandAt (l.map (·.2.2)) i == cycleDemand (l.map (·.2.2))).take 16) :
    specScanCoreLoad.run h p s = done s (beBytes 1 (u8 p 0) ++ beBytes 1 (u8 p 1) ++ beBytes 1 l.length ++ beBytes 1 idx.length
      ++ beBytes 4 (cycleDemand (l.map (·.2.2))) ++ ((idx ++ List.replicate (16 - idx.length) 65535).flatMap fun i => beBytes 2 i)
      ++ l.flatMap fun e => beBytes 1 e.2.1 ++ beBytes 1 e.2.2.task ++ beBytes 1 e.2.2.order ++ [0] ++ beBytes 2 e.2.2.period
          ++ beBytes 2 e.2.2.phase ++ beBytes 4 e.2.2.wDecl) := by
  have valid : ¬(79 < u8 p 0 ∨ 1 < u8 p 1) := by omega
  subst hi hl
  change cmdScanCoreLoad h p s = _
  simp only [cmdScanCoreLoad, if_neg valid, List.isEmpty_map]

end ReadRuns

/-- Settles O37: each row executes its command, which answers what it says wherever its conditions hold, in the same state. -/
theorem readCommands : Obligations.ReadCommands := by
  unfold Obligations.ReadCommands
  refine ⟨?svReadSub, ?condReadChain, ?gooseSubRead, ?goosePubRead, ?svpubRead, ?svStreamStatus, ?noSamples, ?samples,
    ?condReadOutput, ?condReadGroup, ?condDemand, ?gooseStatus, ?acqChannelStatus, ?scanReadTask, ?scanCoreLoad, ?hlStatus⟩
  case svReadSub => exact fun r => does_of_run (fun _ _ _ => rfl) fun s h p ⟨idx, set, hr⟩ => readRecord_present idx set hr
  case condReadChain => exact fun r => does_of_run (fun _ _ _ => rfl) fun s h p ⟨idx, set, hr⟩ => readRecord_present idx set hr
  case gooseSubRead => exact fun r => does_of_run (fun _ _ _ => rfl) fun s h p ⟨idx, set, hr⟩ => readRecord_present idx set hr
  case goosePubRead => exact fun r => does_of_run (fun _ _ _ => rfl) fun s h p ⟨idx, set, hr⟩ => run_goosePubRead_present idx set hr
  case svpubRead => exact fun r => does_of_run (fun _ _ _ => rfl) fun s h p ⟨idx, set, hr⟩ => run_svpubRead_present idx set hr
  case svStreamStatus => exact does_of_run (fun _ _ _ => rfl) fun s h p => run_svStreamStatus_inRange
  case noSamples =>
    exact does_of_run (fun _ _ _ => rfl) fun s h p ⟨slot, isSealed, kept, absent⟩ => run_svReadSamples_none slot isSealed kept absent
  case samples =>
    refine fun q => does_of_run (fun _ _ _ => rfl) fun s h p ⟨slot, isSealed, kept, hq⟩ => ?_
    exact run_svReadSamples_some slot isSealed kept hq rfl
  case condReadOutput =>
    refine fun l r => does_of_run (fun _ _ _ => rfl) fun s h p ⟨chan, last, reached, kept, hr⟩ => ?_
    exact (run_condReadOutput_inRange chan).trans (readStore_present last reached kept hr)
  case condReadGroup =>
    refine fun l r => does_of_run (fun _ _ _ => rfl) fun s h p ⟨group, last, reached, kept, hr⟩ => ?_
    exact (run_condReadGroup_inRange group).trans (readStore_present last reached kept hr)
  case condDemand =>
    rintro rates rfl
    exact does_of_run (fun _ _ _ => rfl) fun s h p set => run_condDemand_inRange set rfl
  case gooseStatus => exact does_of_run (fun _ _ _ => rfl) fun s h p ⟨kind, ok⟩ => run_gooseStatus_inRange kind ok
  case acqChannelStatus => exact does_of_run (fun _ _ _ => rfl) fun s h p => run_acqChannelStatus_inRange
  case scanReadTask =>
    refine fun img k t => does_of_run (fun _ _ _ => rfl) fun s h p ⟨stall, task, set, himg, hk, ht⟩ => ?_
    exact run_scanReadTask_present stall task set himg hk ht
  case scanCoreLoad =>
    rintro ts idx rfl rfl
    refine does_of_run (fun _ _ _ => rfl) fun s h p ⟨core, set⟩ => ?_
    exact run_scanCoreLoad_inRange core set rfl rfl
  case hlStatus => exact does_of_run (fun _ _ _ => rfl) fun s h p _ => rfl

end Sys2Proof.Machine
end

section
/-! PROOFS. Rows of Hyrra Scan Code (R124, R138, R141, R143, R161): a row runs what its fields mean; one that BUD cannot pay for
aborts with BUDGET, and none breaks what the memory, BUD, FLG and the held requests of an activation keep. -/

namespace Sys2Proof.Machine

open Claims

/-! ### What every instruction keeps -/

/-- What every instruction keeps of an activation: canonical memory (R143), BUD within the budget (R124), the reserved bits of
FLG 0 (R141), at most 4 TRIG and 8 LOG requests held (R161). -/
def Act.Kept (x : Act) : Prop :=
  Canonical x ∧ x.bud ≤ x.budget ∧ x.flg.toNat < 128 ∧ trigCount x.held ≤ 4 ∧ logCount x.held ≤ 8

theorem kept_ite {p : Prop} [Decidable p] {x y : Act} (hx : x.Kept) (hy : y.Kept) : (if p then x else y).Kept := by
  split
  · exact hx
  · exact hy

theorem actOk_iff (x : Act) : ActOk x ↔ x.Kept ∧ x.status = .running := by
  simp only [ActOk, Act.Kept, and_assoc]

theorem b2n_le (b : Bool) : b2n b ≤ 1 := by cases b <;> decide

/-- The exceptions of binary32 lie in the defined bits of FLG (R141). -/
theorem FpFlags.word_lt (f : FpFlags) : f.word.toNat < 128 := by
  have nv := b2n_le f.nv
  have fdz := b2n_le f.fdz
  have ovf := b2n_le f.ovf
  have unf := b2n_le f.unf
  rw [FpFlags.word, BitVec.toNat_ofNat]
  omega

namespace Act.Kept

variable {x : Act} (h : x.Kept)

include h

theorem wg (d : BitVec 5) (v : Word) : (x.wg d v).Kept := kept_ite h h

theorem wf (d : BitVec 3) (v : Bool) : (x.wf d v).Kept := kept_ite h h

theorem wp (d : BitVec 4) (v : Cplx) : (x.wp d v).Kept := h

theorem abort (r : AbortReason) : (x.abort r).Kept := h

theorem denied (seg : SegCode) (ea width align : Nat) (store : Bool) : (x.denied seg ea width align store).Kept := h

theorem orFlg {w : Word} (hw : w.toNat < 128) : (x.orFlg w).Kept := by
  obtain ⟨mem, bud, flg, held⟩ := h
  refine ⟨mem, bud, ?_, held⟩
  rw [Act.orFlg, BitVec.toNat_or]
  exact Nat.or_lt_two_pow (n := 7) flg hw

theorem wfl (d : BitVec 5) (r : Word × FpFlags) : (x.wfl d r).Kept := (h.orFlg r.2.word_lt).wg _ _

theorem wcr (d : BitVec 4) (r : CRes) : (x.wcr d r).Kept := h.orFlg r.fl.word_lt

theorem segMem (seg : SegCode) : memWf (x.segMem seg) = true := by
  obtain ⟨⟨inp, out, ret, loc⟩, -⟩ := h
  cases seg <;> assumption

theorem withSeg (seg : SegCode) {m : Mem} (hm : memWf m = true) : (x.withSeg seg m).Kept := by
  obtain ⟨⟨inp, out, ret, loc⟩, rest⟩ := h
  cases seg
  · exact ⟨⟨inp, out, ret, loc⟩, rest⟩
  · exact ⟨⟨inp, hm, ret, loc⟩, rest⟩
  · exact ⟨⟨inp, out, hm, loc⟩, rest⟩
  · exact ⟨⟨inp, out, ret, hm⟩, rest⟩

theorem load {k : Nat → Act → Act} (hk : ∀ v, (k v x).Kept) (seg : SegCode) (ea width align : Nat) :
    (x.load seg ea width align k).Kept := kept_ite (hk _) (h.denied _ _ _ _ _)

theorem memStore (seg : SegCode) (ea width v : Nat) : (x.withSeg seg (memStore (x.segMem seg) ea width v)).Kept :=
  h.withSeg seg (memWf_store ea width v (h.segMem seg))

theorem store (seg : SegCode) (ea width align v : Nat) : (x.store seg ea width align v).Kept :=
  kept_ite (h.memStore _ _ _ _) (h.denied _ _ _ _ _)

theorem spend (n pc : Nat) : Act.Kept { x with bud := x.bud - n, pc := pc } := by
  obtain ⟨mem, bud, rest⟩ := h
  exact ⟨mem, Nat.le_trans (Nat.sub_le _ _) bud, rest⟩

theorem pay {k : Act → Act} (hk : ∀ y : Act, y.Kept → (k y).Kept) (n : Nat) : (x.pay n k).Kept :=
  kept_ite (h.abort _) (hk _ (h.spend n x.pc))

theorem issue {f : Act → Act} (hf : ∀ y : Act, y.Kept → (f y).Kept) (cost words : Nat) : (x.issue cost words f).Kept :=
  kept_ite (h.abort _) (hf _ (h.spend cost _))

/-- A back edge keeps it: it takes from BUD and moves on (R153). -/
theorem settle : x.settle.Kept := by
  unfold Act.settle; split
  · obtain ⟨b, pc, loops, st, he, hb, -⟩ := loopEnds_frame x.loops x
    obtain ⟨mem, bud, rest⟩ := h
    rw [he]
    exact ⟨mem, Nat.le_trans hb bud, rest⟩
  · exact h

theorem clamp (p : Prop) [Decidable p] : (if p then x.orFlg flgCLAMP else x).Kept := kept_ite (h.orFlg (by decide)) h

theorem vecCount (w : Word) : (vecCount w x).2.Kept := by
  unfold Machine.vecCount; split
  · exact h.orFlg (by decide)
  · exact h

end Act.Kept

/-! ### Vectors, requests, blocks (R156 to R163) -/

theorem vcopyFrom_kept (n : Nat) (src dst : SegCode) (sa da : Word) {x : Act} (h : x.Kept) : (vcopyFrom n src dst sa da x).Kept := by
  induction n generalizing sa da x with
  | zero => exact h
  | succ n ih =>
    refine h.load (fun v => ?_) _ _ _ _
    exact kept_ite (h.pay (fun y hy => ih _ _ (hy.memStore _ _ _ _)) 1) (h.denied _ _ _ _ _)

theorem vsumFrom_kept (n : Nat) (seg : SegCode) (ty : Nat) (ad acc : Word) {k : Word → Act → Act}
    (hk : ∀ r (y : Act), y.Kept → (k r y).Kept) {x : Act} (h : x.Kept) : (vsumFrom n seg ty ad acc k x).Kept := by
  induction n generalizing ad acc x with
  | zero => exact hk _ _ h
  | succ n ih => exact h.load (fun v => h.pay (fun y hy => ih _ _ (hy.orFlg (FpFlags.word_lt _))) 1) _ _ _ _

theorem vsumCFrom_kept (n : Nat) (seg : SegCode) (ad : Word) (acc : Cplx) {k : Cplx → Act → Act}
    (hk : ∀ r (y : Act), y.Kept → (k r y).Kept) {x : Act} (h : x.Kept) : (vsumCFrom n seg ad acc k x).Kept := by
  induction n generalizing ad acc x with
  | zero => exact hk _ _ h
  | succ n ih => exact h.load (fun v => h.pay (fun y hy => ih _ _ (hy.orFlg (FpFlags.word_lt _))) 2) _ _ _ _

theorem vmaxFrom_kept (n : Nat) (seg : SegCode) (ty : Nat) (ad : Word) (i : Nat) (best : Option (Word × Nat))
    {k : Option (Word × Nat) → Act → Act} (hk : ∀ r (y : Act), y.Kept → (k r y).Kept) {x : Act} (h : x.Kept) :
    (vmaxFrom n seg ty ad i best k x).Kept := by
  induction n generalizing ad i best x with
  | zero => exact hk _ _ h
  | succ n ih => exact h.load (fun v => h.pay (fun y hy => ih _ _ _ hy) 1) _ _ _ _

@[simp] theorem trigCount_append_trig (l : List HeldReq) (line : Nat) (arg : Word) : trigCount (l ++ [.trig line arg]) = trigCount l + 1 := by
  simp [trigCount]

@[simp] theorem logCount_append_trig (l : List HeldReq) (line : Nat) (arg : Word) : logCount (l ++ [.trig line arg]) = logCount l := by
  simp [logCount]

@[simp] theorem trigCount_append_log (l : List HeldReq) (msg : Nat) (b : Bytes) : trigCount (l ++ [.log msg b]) = trigCount l := by
  simp [trigCount]

@[simp] theorem logCount_append_log (l : List HeldReq) (msg : Nat) (b : Bytes) : logCount (l ++ [.log msg b]) = logCount l + 1 := by
  simp [logCount]

/-! ### What a row does where BUD pays for it, and where it does not (R124) -/

/-- An instruction of `cost` cycles takes `x` to `y`: where BUD cannot pay for it only the abort happens. -/
def Act.Charged (x : Act) (cost : Nat) (y : Act) : Prop := (x.bud < cost → y = x.abort .budget) ∧ (x.Kept → y.Kept)

section Charges

variable (x : Act)

/-- An issued instruction, whose back edges follow unless it has aborted. -/
theorem Act.issue_charged (cost words : Nat) {f : Act → Act} (hf : ∀ y : Act, y.Kept → (f y).Kept) :
    x.Charged cost (x.issue cost words f).settle :=
  ⟨fun unpaid => by rw [Act.issue_unpaid _ _ _ _ unpaid]; rfl, fun h => (h.issue hf cost words).settle⟩

theorem Act.simple_charged (cost : Nat) {f : Act → Act} (hf : ∀ y : Act, y.Kept → (f y).Kept) : x.Charged cost (x.simple cost f) :=
  x.issue_charged cost 1 hf

theorem actHalt_charged : x.Charged 1 (actHalt x) :=
  ⟨fun unpaid => by rw [actHalt, Act.issue_unpaid _ _ _ _ unpaid],
    fun h => h.issue (f := fun y => { y with status := .halted }) (fun _ hy => hy) 1 1⟩

theorem actGG_charged (cost : Nat) (f : Word → Word → Word) (d a b : BitVec 5) : x.Charged cost (actGG cost f d a b x) :=
  x.simple_charged cost fun _ h => h.wg _ _

theorem actGI_charged (f : Word → BitVec 11 → Word) (d a : BitVec 5) (imm : BitVec 11) : x.Charged 1 (actGI f d a imm x) :=
  x.simple_charged 1 fun _ h => h.wg _ _

theorem actDivide_charged (f : Word → Word → Word) (d a b : BitVec 5) : x.Charged 12 (actDivide f d a b x) :=
  x.simple_charged 12 fun _ h => kept_ite ((h.orFlg (by decide)).wg _ _) (h.wg _ _)

theorem actFF_charged (cost : Nat) (f : Word → Word → Word × FpFlags) (d a b : BitVec 5) : x.Charged cost (actFF cost f d a b x) :=
  x.simple_charged cost fun _ h => h.wfl _ _

theorem actF1_charged (cost : Nat) (f : Word → Word × FpFlags) (d a : BitVec 5) : x.Charged cost (actF1 cost f d a x) :=
  x.simple_charged cost fun _ h => h.wfl _ _

theorem actCC_charged (cost : Nat) (f : Cplx → Cplx → CRes) (d a b : BitVec 4) : x.Charged cost (actCC cost f d a b x) :=
  x.simple_charged cost fun _ h => h.wcr _ _

theorem actCmp_charged (f : Word → Word → Bool) (d : BitVec 3) (a b : BitVec 5) : x.Charged 1 (actCmp f d a b x) :=
  x.simple_charged 1 fun _ h => h.wf _ _

theorem actPP_charged (f : Bool → Bool → Bool) (d a b : BitVec 3) : x.Charged 1 (actPP f d a b x) :=
  x.simple_charged 1 fun _ h => h.wf _ _

theorem actBr_charged (pr : PredRef) (off : BitVec 16) : x.Charged 2 (actBr pr off x) := by
  refine ⟨fun unpaid => ?_, fun h => ?_⟩
  · rw [actBr, Act.issue_unpaid _ _ _ _ unpaid]; rfl
  · have issued : (x.issue 2 1 id).Kept := h.issue (fun _ hy => hy) 2 1
    unfold actBr
    dsimp only
    split
    · split
      · exact issued
      · exact issued.settle
    · exact issued

theorem actLoop_charged (r : BitVec 5) (body : BitVec 16) (ext : Word) : x.Charged 2 (actLoop r body ext x) :=
  x.issue_charged 2 _ fun _ h => kept_ite (h.clamp _) (h.clamp _)

theorem actLd_charged (width : BitVec 3) (d base : BitVec 5) (seg : SegCode) (off : BitVec 11) :
    x.Charged 2 (actLd width d base seg off x) := by
  refine x.simple_charged 2 fun y h => ?_
  dsimp only
  split
  case h_6 => exact h.load (fun v => (h.wg _ _).wg _ _) _ _ _ _
  case h_7 => exact h.load (fun v => h.wp _ _) _ _ _ _
  case h_8 => exact h.abort _
  all_goals exact h.load (fun v => h.wg _ _) _ _ _ _

theorem actSt_charged (width : BitVec 3) (d base : BitVec 5) (seg : SegCode) (off : BitVec 11) :
    x.Charged 1 (actSt width d base seg off x) := by
  refine x.simple_charged 1 fun y h => ?_
  dsimp only
  split
  case h_6 => exact h.abort _
  all_goals exact h.store _ _ _ _ _

theorem actVcopy_charged (src dst : SegCode) (d a b : BitVec 5) : x.Charged 8 (actVcopy src dst d a b x) :=
  x.simple_charged 8 fun _ h => vcopyFrom_kept _ _ _ _ _ (h.vecCount _)

theorem actVsum_charged (seg : SegCode) (ty : BitVec 3) (d a b : BitVec 5) : x.Charged 8 (actVsum seg ty d a b x) :=
  x.simple_charged 8 fun _ h => kept_ite (vsumCFrom_kept _ _ _ _ (fun _ _ hz => hz.wp _ _) (h.vecCount _))
    (vsumFrom_kept _ _ _ _ _ (fun _ _ hz => hz.wg _ _) (h.vecCount _))

theorem actVmax_charged (seg : SegCode) (ty : BitVec 3) (d a b : BitVec 5) : x.Charged 8 (actVmax seg ty d a b x) := by
  refine x.simple_charged 8 fun y h => vmaxFrom_kept _ _ _ _ _ _ (fun r z hz => ?_) (h.vecCount _)
  split <;> exact (hz.wg _ _).wg _ _

theorem actTrig_charged (a : BitVec 5) (line : BitVec 4) : x.Charged 4 (actTrig a line x) := by
  refine x.simple_charged 4 fun y h => ?_
  split
  next => exact h.orFlg (by decide)
  next room =>
    obtain ⟨mem, bud, flg, trigs, logs⟩ := h
    refine ⟨mem, bud, flg, ?_, ?_⟩
    · rw [trigCount_append_trig]; omega
    · rwa [logCount_append_trig]

/-- LOG is charged by the length of its payload (R160). -/
theorem actLog_charged (seg : SegCode) (msg : BitVec 9) (a b : BitVec 5) :
    x.Charged (8 + ((if 256 < (x.rg b).toNat then 256 else (x.rg b).toNat) + 15) / 16) (actLog seg msg a b x) := by
  have cost : 8 + ((if 256 < (x.rg b).toNat then 256 else (x.rg b).toNat) + 15) / 16 = 8 + ceilDiv (min (x.rg b).toNat 256) 16 := by
    simp only [ceilDiv]; split <;> omega
  rw [cost]
  refine x.simple_charged _ fun y h => ?_
  have clamped := h.clamp ((y.rg b).toNat > 256)
  generalize (if (y.rg b).toNat > 256 then y.orFlg flgCLAMP else y) = z at clamped
  dsimp only
  split
  · split
    next => exact clamped.orFlg (by decide)
    next room =>
      obtain ⟨mem, bud, flg, trigs, logs⟩ := clamped
      refine ⟨mem, bud, flg, ?_, ?_⟩
      · rwa [trigCount_append_log]
      · rw [logCount_append_log]; omega
  · exact clamped.denied _ _ _ _ _

/-- A block writes its registers and its bytes of RET (R163). -/
theorem blockCall_charged (cost slots : Nat) (inst : BitVec 16) {f : Bytes → Act → Bytes × Act}
    (hf : ∀ b (y : Act), y.Kept → (f b y).2.Kept) : x.Charged cost (blockCall cost slots inst f x) := by
  refine x.simple_charged cost fun y h => ?_
  dsimp only
  split
  · have after := hf (memReadBytes y.ret (16 * inst.toNat) (16 * slots)) y h
    exact after.withSeg .ret (memWf_writeBytes _ _ (after.segMem .ret))
  · exact h.denied _ _ _ _ _

theorem actTimer_charged (step : Bool → Nat → TimerSt → TimerSt × Bool) (inst : BitVec 16) : x.Charged 6 (actTimer step inst x) :=
  blockCall_charged x 6 1 inst fun _ _ h => (h.wg _ _).wg _ _

theorem actEdge_charged (q : Bool → Bool → Bool) (inst : BitVec 16) : x.Charged 4 (actEdge q inst x) :=
  blockCall_charged x 4 1 inst fun _ _ h => h.wg _ _

theorem actSeq_charged : x.Charged 18 (actSeq x) :=
  x.simple_charged 18 fun _ h => kept_ite (((h.wcr _ _).wcr _ _).wcr _ _) (((h.wcr _ _).wcr _ _).wcr _ _)

theorem actImp_charged : x.Charged 30 (actImp x) := by
  refine x.simple_charged 30 fun y h => ?_
  have sums := fun r : FpFlags => h.orFlg r.word_lt
  exact kept_ite ((((sums _).orFlg (FpFlags.word_lt _)).wcr _ _).wg _ _) (((sums _).wp _ _).wg _ _)

theorem actRoc_charged (inst : BitVec 16) : x.Charged 12 (actRoc inst x) := by
  refine blockCall_charged x 12 17 inst fun b y h => ?_
  dsimp only
  rw [apply_ite Prod.snd]
  exact kept_ite ((((h.clamp _).orFlg (FpFlags.word_lt _)).wg _ _).wg _ _) (((h.clamp _).wg _ _).wg _ _)

end Charges

/-! ### The table of the rows (R138, R147 to R168) -/

theorem one_run {ok : Bool} {f : Act → Act} {m : HscInstr} (h : one ok f = some m) : m.run = f := by
  unfold one at h
  split at h
  · cases h; rfl
  · cases h

/-- Every defined instruction is charged its cycles of the tables. -/
theorem meaning_charged {i : Instr} {m : HscInstr} {c : CoreRef} {k : Nat} (x : Act) (hm : hscMeaning i = some m)
    (hc : cycles x i = some (c, k)) : x.Charged k (m.run x) := by
  cases i <;> cases hc
  case br => cases hm; exact actBr_charged x _ _
  case li => cases hm; exact x.issue_charged 2 2 fun _ h => h.wg _ _
  case trig => cases hm; exact actTrig_charged x _ _
  case loop =>
    simp only [hscMeaning] at hm
    split at hm
    · cases hm; exact actLoop_charged x _ _ _
    · cases hm
  all_goals rw [one_run hm]
  case nop => exact x.simple_charged 1 fun _ h => h
  case halt => exact actHalt_charged x
  case mfs | pget | sel | cre | cim => exact x.simple_charged 1 fun _ h => h.wg _ _
  case add | sub | and | or | xor | shl | shr | sra | mul | mulh | mulhu | min | max | minu | maxu => exact actGG_charged x _ _ _ _ _
  case div | divu | rem | remu => exact actDivide_charged x _ _ _ _
  case addi | andi | ori | xori | shli | shri | srai => exact actGI_charged x _ _ _ _
  case fadd | fsub | fmul | fdiv | fmin | fmax => exact actFF_charged x _ _ _ _ _
  case fsqrt | fabs | fneg | itof | utof | ftoi | ftoin => exact actF1_charged x _ _ _ _
  case fma | fnms => exact x.simple_charged 3 fun _ h => h.wfl _ _
  case cadd | csub | cmul => exact actCC_charged x _ _ _ _ _
  case cconj => exact x.simple_charged 1 fun _ h => h.wcr _ _
  case cscale => exact x.simple_charged 2 fun _ h => h.wcr _ _
  case cmag => exact x.simple_charged 14 fun _ h => h.wfl _ _
  case carg => exact x.simple_charged 20 fun _ h => h.wfl _ _
  case cmake | cmov | csel => exact x.simple_charged 1 fun _ h => h.wp _ _
  case eq | ne | lt | le | ult | ule | feq | flt | fle => exact actCmp_charged x _ _ _ _
  case pand | por | pxor | pandn => exact actPP_charged x _ _ _ _
  case pnot | pset => exact x.simple_charged 1 fun _ h => h.wf _ _
  case ld => exact actLd_charged x _ _ _ _ _
  case st => exact actSt_charged x _ _ _ _ _
  case vcopy => exact actVcopy_charged x _ _ _ _ _
  case vsum => exact actVsum_charged x _ _ _ _ _
  case vmax => exact actVmax_charged x _ _ _ _ _
  case log => exact actLog_charged x _ _ _ _
  case ton | tof | tp => exact actTimer_charged x _ _
  case ctu | ctd => exact blockCall_charged x 5 1 _ fun _ _ h => (h.wg _ _).wg _ _
  case ctud => exact blockCall_charged x 7 1 _ fun _ _ h => ((h.wg _ _).wg _ _).wg _ _
  case rTrig | fTrig => exact actEdge_charged x _ _
  case hyst => exact blockCall_charged x 5 1 _ fun _ _ h => h.wg _ _
  case seq => exact actSeq_charged x
  case imp => exact actImp_charged x
  case roc => exact actRoc_charged x _
  -- FUN, the unordered compare of R151, whose name is a keyword of Lean
  next => exact actCmp_charged x _ _ _ _

/-! ### Rows run what their fields mean (R138) -/

/-- What a row answers whose fields mean `o`: one instruction on the activation of its core, or the stop of R138. -/
def rowOutcome (o : Option HscInstr) (c : CoreRef) (s : State) : Host.Outcome State Fault Refusal :=
  match o with
  | some m => .next (s.onAct c m.run)
  | none => .fault .undefinedInstruction

theorem rowOutcome_one (ok : Bool) (f : Act → Act) (c : CoreRef) (s : State) : rowOutcome (one ok f) c s = runHscIf ok c f s := by
  cases ok <;> rfl

theorem actLoop_ext {r : BitVec 5} (h : r ≠ 0) (body : BitVec 16) (ext ext' : Word) : actLoop r body ext = actLoop r body ext' := by
  funext x
  simp only [actLoop, if_neg h]

theorem execLoop_meaning (c : CoreRef) (r : BitVec 5) (body : BitVec 16) (ext : Word) (s : State) :
    execLoop c r body ext s = rowOutcome (hscMeaning (.loop c r body ext)) c s := by
  have run : actLoop r body (if r = 0 then ext else 0) = actLoop r body ext := by
    by_cases h : r = 0
    · rw [if_pos h]
    · exact actLoop_ext h body _ _
  have guard : (decide (body ≠ 0) && (r != 0 || decide (ext.toNat < 65536))) = decide (body ≠ 0 ∧ (r = 0 → ext.toNat < 65536)) := by
    rw [Bool.eq_iff_iff]; simp [imp_iff_not_or]
  simp only [execLoop, hscMeaning, runHscIf, run, guard, decide_eq_true_eq]
  by_cases defined : body ≠ 0 ∧ (r = 0 → ext.toNat < 65536)
  · rw [if_pos defined, if_pos defined]; rfl
  · rw [if_neg defined, if_neg defined]; rfl

/-- A Hyrra row runs what its fields mean. -/
theorem exec_meaning {i : Instr} {c : CoreRef} {k : Nat} {x : Act} (hc : cycles x i = some (c, k)) (s : State) :
    exec i s = rowOutcome (hscMeaning i) c s := by
  cases i <;> cases hc
  case loop => exact execLoop_meaning c _ _ _ s
  case mfs | shli | shri | srai | ld | st | vsum | vmax => exact (rowOutcome_one _ _ _ _).symm
  all_goals rfl

/-- The rows that have words (R145) are those with cycles in the tables. -/
theorem cycles_of_encode {i : Instr} (h : (hscEncode i).isSome = true) (x : Act) : ∃ c k, cycles x i = some (c, k) := by
  cases i <;> cases h
  all_goals exact ⟨_, _, rfl⟩

/-- Settles O20: a defined instruction whose cycles exceed BUD leaves its activation only aborted with BUDGET. -/
theorem cycleTable : Obligations.CycleTable := by
  unfold Obligations.CycleTable
  intro s c a i k defined hc hcur _ unpaid
  obtain ⟨m, hm⟩ := Option.isSome_iff_exists.1 defined
  have aborted : m.run a = a.abort .budget := (meaning_charged a hm hc).1 unpaid
  rw [exec_meaning hc, hm, rowOutcome, State.onAct_some s c m.run a hcur, aborted]
  rfl

end Sys2Proof.Machine
end

section
/-! PROOFS. The end of an activation (R117, R123, R125, R128, R161): what its commit or its abort does to the cores and tasks of its
side, and what it leaves. -/

namespace Sys2Proof.Machine

open Claims

/-! ### Cores and tasks under the updates of a side -/

theorem SideId.other_ne (sd : SideId) : sd.other ≠ sd := by cases sd <;> decide

section Parts

variable (s : State) (sd : SideId) (n : Nat)

theorem State.coreSt_congr {s t : State} {sd : SideId} (h : (t.side sd).cores = (s.side sd).cores) (n : Nat) :
    t.coreSt sd n = s.coreSt sd n := by
  simp only [State.coreSt, h]

theorem State.modSide_keeps {γ : Type} (g : Side → γ) {f : Side → Side} (hf : ∀ x, g (f x) = g x) (sd' : SideId) :
    g ((s.modSide sd f).side sd') = g (s.side sd') := by
  by_cases same : sd' = sd
  · rw [same, State.modSide_same, hf]
  · rw [State.modSide_other _ _ same]

theorem State.putCore_coreSt_other {m : Nat} (c : CoreSt) (h : m ≠ n) : (s.putCore sd n c).coreSt sd m = s.coreSt sd m := by
  simp only [State.coreSt, State.putCore, State.modSide_same, Tbl.getD_put_other _ _ _ h]

theorem State.putCore_other {sd' : SideId} (c : CoreSt) (h : sd' ≠ sd) : (s.putCore sd n c).side sd' = s.side sd' :=
  s.modSide_other _ h

theorem State.putTaskSt_other {sd' : SideId} (stall task : Nat) (x : TaskSt) (h : sd' ≠ sd) :
    (s.putTaskSt sd stall task x).side sd' = s.side sd' := s.modSide_other _ h

@[simp] theorem State.putTaskSt_cores (stall task : Nat) (x : TaskSt) (sd' : SideId) :
    ((s.putTaskSt sd stall task x).side sd').cores = (s.side sd').cores := s.modSide_keeps sd Side.cores (fun _ => by rfl) sd'

theorem State.putCore_tasks_side (c : CoreSt) (sd' : SideId) : ((s.putCore sd n c).side sd').tasks = (s.side sd').tasks :=
  s.modSide_keeps sd Side.tasks (fun _ => by rfl) sd'

@[simp] theorem State.putTaskSt_tasks (stall task : Nat) (x : TaskSt) :
    ((s.putTaskSt sd stall task x).side sd).tasks = Tbl.put (s.side sd).tasks (taskKey stall task) x := by
  simp [State.putTaskSt]

@[simp] theorem State.raise_side (r : Reg) (f : Fld) (v : Nat) (sd' : SideId) : (s.raise r f v).side sd' = s.side sd' := by
  rw [State.raise_eq, State.wr_side]

end Parts

/-! ### The core is free again (R117) -/

section Done

variable (s : State) (sd : SideId) (n ns : Nat)

theorem State.coreDone_coreSt : (s.coreDone sd n ns).coreSt sd n =
    { s.coreSt sd n with cur := none, time := (s.coreSt sd n).time + ns } := by
  simp only [State.coreDone]
  rw [State.coreSt_congr (congrArg Side.cores (State.raise_side _ _ _ _ _)), State.putCore_coreSt]

theorem State.coreDone_coreSt_other {m : Nat} (h : m ≠ n) : (s.coreDone sd n ns).coreSt sd m = s.coreSt sd m := by
  simp only [State.coreDone]
  rw [State.coreSt_congr (congrArg Side.cores (State.raise_side _ _ _ _ _)), State.putCore_coreSt_other _ _ _ _ h]

theorem State.coreDone_other {sd' : SideId} (h : sd' ≠ sd) : (s.coreDone sd n ns).side sd' = s.side sd' := by
  rw [State.coreDone, State.raise_side, State.putCore_other _ _ _ _ h]

@[simp] theorem State.coreDone_marks : ((s.coreDone sd n ns).side sd).marks = (s.side sd).marks := by
  simp [State.coreDone, State.putCore]

@[simp] theorem State.coreDone_ledgerPend : (s.coreDone sd n ns).ledgerPend = s.ledgerPend := by
  simp [State.coreDone, State.putCore, State.raise_eq, State.wr_eq]

@[simp] theorem State.coreDone_out : (s.coreDone sd n ns).out = s.out := by
  simp [State.coreDone, State.putCore, State.raise_eq, State.wr_eq]

@[simp] theorem State.coreDone_tally : (s.coreDone sd n ns).tally = s.tally := by
  simp [State.coreDone, State.putCore, State.raise_eq, State.wr_eq]

end Done

/-! ### Which side's computation is the module's (R221, R222) -/

theorem State.leads_iff (s : State) (sd : SideId) : s.leads sd = true ↔ Serves s sd := by
  unfold State.leads Serves
  cases s.active <;> simp

theorem State.leads_congr {s t : State} (hnow : t.now = s.now) (hrole : ∀ sd, (t.side sd).role = (s.side sd).role)
    (hduty : ∀ sd, t.duty sd = s.duty sd) (sd : SideId) : t.leads sd = s.leads sd := by
  have active : t.active = s.active := by
    have a : t.sideA.role = s.sideA.role := hrole .A
    have b : t.sideB.role = s.sideB.role := hrole .B
    simp only [State.active, a, b]
  have duty : (t.side sd).duty = (s.side sd).duty := hduty sd
  simp only [State.leads, active, hnow, hrole sd, duty]

/-! ### A commit (R123, R161) -/

section Commit

variable (s : State) (sd : SideId) (n : Nat) (a : Act)

/-- OUT and RET of an activation are committed; its requests are still held. -/
def State.commitImages : State :=
  let t := s.taskSt sd a.stall a.task
  (s.putTaskSt sd a.stall a.task { t with out := a.out, ret := a.ret, held := false }).putCore sd n
    { s.coreSt sd n with done := (s.coreSt sd n).done ++ [(a.stall, a.task, t)] }

/-- The held requests of an activation are released, in issue order. -/
def State.releaseAll (s : State) (sd : SideId) (a : Act) : State := a.held.foldl (fun x r => x.release sd a r) s

theorem State.commit_eq : s.commit sd n a =
    ((((s.commitImages sd n a).releaseAll sd a).raise (Rg.phaseHw2 sd) Fd.phaseHw2ScanEndMax
        (tens ((s.coreSt sd n).time + (a.cIn + a.used + 16)))).raise
      (Rg.taskUsed sd (taskKey a.stall a.task)) Fd.taskUsedUsedMax (a.cIn + a.used + 16)).coreDone sd n (a.cIn + a.used + 16) := rfl

/-- A release leaves everything of a side but the marks. -/
theorem State.release_keeps {γ : Type} (g : Side → γ) (hg : ∀ x m, g { x with marks := m } = g x) (sd' : SideId) (r : HeldReq) :
    g ((s.release sd a r).side sd') = g (s.side sd') := by
  cases r with
  | trig line arg => exact s.modSide_keeps sd g (fun x => hg x _) sd'
  | log msg payload =>
    simp only [State.release]
    split
    · rw [State.ledger_side]
    · rfl

theorem State.release_other {sd' : SideId} (h : sd' ≠ sd) (r : HeldReq) : (s.release sd a r).side sd' = s.side sd' := by
  cases r with
  | trig line arg => exact s.modSide_other _ h
  | log msg payload =>
    simp only [State.release]
    split
    · rw [State.ledger_side]
    · rfl

theorem State.release_out (r : HeldReq) : (s.release sd a r).out = s.out := by
  cases r with
  | trig line arg => exact s.modSide_out sd _
  | log msg payload =>
    simp only [State.release]
    split <;> rfl

theorem State.releaseAll_keeps {γ : Type} (g : Side → γ) (hg : ∀ x m, g { x with marks := m } = g x) (sd' : SideId) :
    g ((s.releaseAll sd a).side sd') = g (s.side sd') :=
  foldl_keeps (fun t : State => g (t.side sd')) (fun t r => t.release_keeps sd a g hg sd' r) a.held s

/-- A commit puts OUT and RET into its task and clears HELD. -/
theorem State.commit_tasks : ((s.commit sd n a).side sd).tasks = Tbl.put (s.side sd).tasks (taskKey a.stall a.task)
    { s.taskSt sd a.stall a.task with out := a.out, ret := a.ret, held := false } := by
  rw [State.commit_eq, State.coreDone_tasks, State.raise_side, State.raise_side,
    State.releaseAll_keeps _ sd a Side.tasks fun _ _ => rfl, State.commitImages, State.putCore_tasks, State.putTaskSt_tasks]

theorem State.commit_taskSt : (s.commit sd n a).taskSt sd a.stall a.task =
    { s.taskSt sd a.stall a.task with out := a.out, ret := a.ret, held := false } := by
  rw [State.taskSt, State.commit_tasks, Tbl.getD_put_same]

/-- The core of an activation at its commit, before it is free. -/
theorem State.beforeDone_cores (v w : Nat) :
    (((((s.commitImages sd n a).releaseAll sd a).raise (Rg.phaseHw2 sd) Fd.phaseHw2ScanEndMax v).raise
      (Rg.taskUsed sd (taskKey a.stall a.task)) Fd.taskUsedUsedMax w).side sd).cores = ((s.commitImages sd n a).side sd).cores := by
  rw [State.raise_side, State.raise_side, State.releaseAll_keeps _ sd a Side.cores fun _ _ => rfl]

theorem State.commit_coreSt : ((s.commit sd n a).coreSt sd n).cur = none ∧
    ((s.commit sd n a).coreSt sd n).time = (s.coreSt sd n).time + (a.cIn + a.used + 16) := by
  rw [State.commit_eq, State.coreDone_coreSt, State.coreSt_congr (s.beforeDone_cores sd n a _ _), State.commitImages, State.putCore_coreSt]
  exact ⟨rfl, rfl⟩

theorem State.commit_coreSt_other {m : Nat} (h : m ≠ n) : (s.commit sd n a).coreSt sd m = s.coreSt sd m := by
  rw [State.commit_eq, State.coreDone_coreSt_other _ _ _ _ h, State.coreSt_congr (s.beforeDone_cores sd n a _ _), State.commitImages,
    State.putCore_coreSt_other _ _ _ _ h]
  exact State.coreSt_congr (State.putTaskSt_cores _ _ _ _ _ _) m

theorem State.commit_other {sd' : SideId} (h : sd' ≠ sd) : (s.commit sd n a).side sd' = s.side sd' := by
  rw [State.commit_eq, State.coreDone_other _ _ _ _ h, State.raise_side, State.raise_side, State.releaseAll,
    foldl_keeps (State.side · sd') (fun t r => t.release_other sd a h r), State.commitImages, State.putCore_other _ _ _ _ h,
    State.putTaskSt_other _ _ _ _ _ h]

theorem State.commit_out : (s.commit sd n a).out = s.out := by
  rw [State.commit_eq, State.coreDone_out]
  refine (foldl_keeps State.out (fun t r => t.release_out sd a r) a.held (s.commitImages sd n a)).trans ?_
  simp [State.commitImages, State.putCore, State.putTaskSt]

/-- What waits for the Ledger, and the marks, are those that the releases leave. -/
theorem State.commit_ledgerPend : (s.commit sd n a).ledgerPend = ((s.commitImages sd n a).releaseAll sd a).ledgerPend := by
  rw [State.commit_eq, State.coreDone_ledgerPend]; rfl

theorem State.commit_marks : ((s.commit sd n a).side sd).marks = (((s.commitImages sd n a).releaseAll sd a).side sd).marks := by
  rw [State.commit_eq, State.coreDone_marks, State.raise_side, State.raise_side]

@[simp] theorem State.commitImages_ledgerPend : (s.commitImages sd n a).ledgerPend = s.ledgerPend := by
  simp [State.commitImages, State.putCore, State.putTaskSt]

@[simp] theorem State.commitImages_marks : ((s.commitImages sd n a).side sd).marks = (s.side sd).marks := by
  simp [State.commitImages, State.putCore, State.putTaskSt]

@[simp] theorem State.commitImages_leads : (s.commitImages sd n a).leads sd = s.leads sd := by
  refine State.leads_congr ?_ (fun sd' => ?_) (fun sd' => ?_) sd
  · simp [State.commitImages, State.putCore, State.putTaskSt]
  · rw [State.commitImages, State.putCore, State.role_modSide, State.putTaskSt, State.role_modSide] <;> exact fun _ => rfl
  · rw [State.commitImages, State.putCore_duty, State.putTaskSt_duty]

end Commit

/-- HALT that BUD pays for commits (R123, R162). -/
theorem exec_halt {s : State} {c : CoreRef} {a : Act} (h : Runs s c a 1) :
    exec (.halt c) s = .next (s.commit c.side c.core.val { paid a 1 1 with status := .halted }) := by
  obtain ⟨hcur, -, pays⟩ := h
  change Host.Outcome.next (s.onAct c actHalt) = _
  rw [State.onAct_some s c actHalt a hcur, actHalt, Act.issue_paid _ _ _ _ pays]
  rfl

/-- Settles O18: HALT is a commit of the activation that has paid for it. -/
theorem haltCommits : Obligations.HaltCommits := by
  unfold Obligations.HaltCommits
  intro s c a runs
  refine ⟨_, exec_halt runs, ?out, ?ret, ?held, ?cur, ?time, ?tasks, ?cores, ?other, ?output, ?none, ?log, ?trig⟩
  case out => exact congrArg TaskSt.out (s.commit_taskSt c.side c.core.val _)
  case ret => exact congrArg TaskSt.ret (s.commit_taskSt c.side c.core.val _)
  case held => exact congrArg TaskSt.held (s.commit_taskSt c.side c.core.val _)
  case cur => exact (s.commit_coreSt c.side c.core.val _).1
  case time => exact (s.commit_coreSt c.side c.core.val _).2
  case tasks =>
    intro k hk
    rw [State.commit_tasks]
    exact Tbl.find_put_other _ _ hk
  case cores => exact fun m hm => s.commit_coreSt_other c.side c.core.val _ hm
  case other => exact s.commit_other c.side c.core.val _ (SideId.other_ne c.side)
  case output => exact s.commit_out c.side c.core.val _
  case none =>
    intro none
    simp [State.commit_ledgerPend, State.commit_marks, State.releaseAll, paid, none]
  case log =>
    intro msg payload one serves
    have leads := (s.leads_iff c.side).2 serves
    simp [State.commit_ledgerPend, State.releaseAll, paid, one, State.release, leads]
  case trig =>
    intro line arg one
    simp [State.commit_marks, State.releaseAll, paid, one, State.release]

end Sys2Proof.Machine
end

section
/-! PROOFS. An abort (R123, R125, R128): the images stay, the reason shows, the tally counts; and a report of a part, which no record
of the module's area waits for. -/

namespace Sys2Proof.Machine

open Claims

/-! ### Reports of parts leave the module's records as they wait (R325, R464) -/

section Pending

variable (s : State) (sd : SideId)

@[simp] theorem State.wr_ledgerPend (r : Reg) (f : Fld) (v : Nat) : (s.wr r f v).ledgerPend = s.ledgerPend := rfl
@[simp] theorem State.tick1_ledgerPend (r : Reg) (f : Fld) : (s.tick1 r f).ledgerPend = s.ledgerPend := rfl
@[simp] theorem State.hostWrite_ledgerPend (r addr : Nat) (b : Bytes) : (s.hostWrite sd r addr b).ledgerPend = s.ledgerPend := rfl
@[simp] theorem State.movedBytes_ledgerPend (n : Nat) : (s.movedBytes sd n).ledgerPend = s.ledgerPend := rfl

@[simp] theorem State.putRing_ledgerPend (r : Nat) (x : RingSt) : (s.putRing sd r x).ledgerPend = s.ledgerPend :=
  s.modSide_ledgerPend sd _

@[simp] theorem State.netTx_ledgerPend : (s.netTx sd).2.ledgerPend = s.ledgerPend := s.modSide_ledgerPend sd _

@[simp] theorem State.raiseMsix_ledgerPend (v : Nat) : (s.raiseMsix sd v).ledgerPend = s.ledgerPend := by
  rw [State.raiseMsix_eq]
  split
  · rfl
  · split <;> simp

@[simp] theorem State.ringIrq_ledgerPend (r : Nat) : (s.ringIrq sd r).ledgerPend = s.ledgerPend := by
  simp only [State.ringIrq]
  split
  · simp
  · split <;> simp

@[simp] theorem State.completeHead_ledgerPend (r used code : Nat) : (s.completeHead sd r used code).ledgerPend = s.ledgerPend := by
  simp only [State.completeHead]
  split
  · rfl
  · split <;> simp

@[simp] theorem State.skipShort_ledgerPend (r limit n : Nat) : (s.skipShort sd r limit n).ledgerPend = s.ledgerPend := by
  induction n generalizing s with
  | zero => rfl
  | succ n ih =>
    simp only [State.skipShort]
    split
    · split
      · rw [ih, State.completeHead_ledgerPend]
      · rfl
    · rfl

@[simp] theorem State.roomFor_ledgerPend (r n : Nat) : (s.roomFor sd r n).ledgerPend = s.ledgerPend := by
  simp only [State.roomFor]
  split
  · split <;> simp
  · rfl

@[simp] theorem State.ringPut_ledgerPend (r : Nat) (b : Bytes) : (s.ringPut sd r b).1.ledgerPend = s.ledgerPend := by
  have room : ((s.skipShort sd r 8192 (s.ring sd r).descs.length).roomFor sd r b.length).ledgerPend = s.ledgerPend := by simp
  simp only [State.ringPut]
  split
  · split
    · exact room
    · split
      · exact room
      · simp only [State.movedBytes_ledgerPend, State.putRing_ledgerPend, State.hostWrite_ledgerPend]
        exact room
  · rfl

theorem State.sendNote_ledgerPend {p : Principal} {answers : Bool} {packet : Bytes} {t : State}
    (h : s.sendNote sd p answers packet = some t) : t.ledgerPend = s.ledgerPend := by
  simp only [State.sendNote] at h
  split at h
  · split at h
    · cases h; simp
    · cases h
  · split at h
    · split at h
      · cases h; simp
      · cases h
    · cases h

@[simp] theorem State.notifyOne_ledgerPend (origin stall : Nat) (p : Principal) (answers : Bool) (b : Bytes) :
    (s.notifyOne sd origin stall p answers b).ledgerPend = s.ledgerPend := by
  simp only [State.notifyOne]
  split
  · rfl
  · split
    next t ht =>
      split at ht
      · rw [State.tick1_ledgerPend, State.modSide_ledgerPend, s.sendNote_ledgerPend sd ht]
      · cases ht
    next => rfl

@[simp] theorem State.crier_ledgerPend (code area seq stall : Nat) (b : Bytes) :
    (s.crier sd code area seq stall b).ledgerPend = s.ledgerPend := by
  refine foldl_keeps State.ledgerPend (fun t e => ?_) _ s
  split <;> simp

@[simp] theorem State.sideDropped_ledgerPend (code stall : Nat) (rate : Bool) :
    (s.sideDropped sd code stall rate).ledgerPend = s.ledgerPend := by simp [State.sideDropped]

@[simp] theorem State.sideRecord_ledgerPend (cls code stall origin time : Nat) (b : Bytes) :
    (s.sideRecord sd cls code stall origin time b).ledgerPend = s.ledgerPend := by
  simp only [State.sideRecord]
  split
  · simp
  · split <;> split <;> simp [State.sideWrite]

@[simp] theorem State.partEvent_ledgerPend (code part word : Nat) : (s.partEvent sd code part word).ledgerPend = s.ledgerPend := by
  rw [State.partEvent, State.sideReport, State.crier_ledgerPend, State.sideEvent, State.sideRecord_ledgerPend]
  rfl

@[simp] theorem State.logFaultAs_ledgerPend (code part word : Nat) : (s.logFaultAs sd code part word).ledgerPend = s.ledgerPend := by
  rw [State.logFaultAs_eq, State.partEvent_ledgerPend, State.countFault, State.enterFault]
  split <;> split <;> simp

end Pending

/-! ### What an abort counts (R125, R128) -/

section Counted

variable (s : State) (sd : SideId) (stall task : Nat) (r : AbortReason) (leads : Bool)

theorem State.tallyAbort_new (h : taskKey stall task ∉ s.aborted) :
    (s.tallyAbort stall task).tally = Tbl.put s.tally stall (Tbl.getD s.tally stall 0 + 1) := by
  simp [State.tallyAbort, h]

theorem State.tallyAbort_again (h : taskKey stall task ∈ s.aborted) : s.tallyAbort stall task = s := by
  simp [State.tallyAbort, h]

/-- An abort's reason is written and counted by itself. -/
def State.countReason : State :=
  let t := (s.wr (Rg.taskState sd (taskKey stall task)) Fd.taskStateLastAbort (abortCode r)).tick1
    (Rg.taskTally sd (taskKey stall task)) Fd.taskTallyAborts
  match r with
  | .budget => t.tick1 (Rg.scanAborts sd) Fd.scanAbortsBudget
  | .access => t.tick1 (Rg.scanAborts sd) Fd.scanAbortsAccess
  | .window => t.tick1 (Rg.scanDiscards sd) Fd.scanDiscardsWindow
  | .discard => t.tick1 (Rg.scanDiscards sd) Fd.scanDiscardsDiscard

theorem State.countAbort_eq : s.countAbort sd stall task r leads =
    if (r = .budget ∨ r = .access) ∧ leads = true then (s.countReason sd stall task r).tallyAbort stall task
    else s.countReason sd stall task r := by
  cases r <;> rfl

@[simp] theorem State.countReason_tally : (s.countReason sd stall task r).tally = s.tally := by cases r <;> rfl
@[simp] theorem State.countReason_aborted : (s.countReason sd stall task r).aborted = s.aborted := by cases r <;> rfl
@[simp] theorem State.countReason_ledgerPend : (s.countReason sd stall task r).ledgerPend = s.ledgerPend := by cases r <;> rfl
@[simp] theorem State.countReason_out : (s.countReason sd stall task r).out = s.out := by cases r <;> rfl

/-- Counting towards the limit changes nothing that `g` sees, where `g` sees no tally. -/
theorem State.tallyAbort_keeps {γ : Type} (g : State → γ) (hg : ∀ x t a b, g { x with tally := t, aborted := a, abortedSec := b } = g x) :
    g (s.tallyAbort stall task) = g s := by
  simp only [State.tallyAbort]
  split
  · rfl
  · exact hg _ _ _ _

theorem State.countAbort_keeps {γ : Type} (g : State → γ) (hg : ∀ x t a b, g { x with tally := t, aborted := a, abortedSec := b } = g x) :
    g (s.countAbort sd stall task r leads) = g (s.countReason sd stall task r) := by
  rw [State.countAbort_eq]
  split
  · exact State.tallyAbort_keeps _ _ _ g hg
  · rfl

theorem State.countAbort_counts (counts : r = .budget ∨ r = .access) (new : taskKey stall task ∉ s.aborted) :
    (s.countAbort sd stall task r true).tally = Tbl.put s.tally stall (Tbl.getD s.tally stall 0 + 1) := by
  rw [State.countAbort_eq, if_pos ⟨counts, rfl⟩, State.tallyAbort_new, State.countReason_tally]
  rwa [State.countReason_aborted]

theorem State.countAbort_not (h : ¬((r = .budget ∨ r = .access) ∧ leads = true ∧ taskKey stall task ∉ s.aborted)) :
    (s.countAbort sd stall task r leads).tally = s.tally := by
  rw [State.countAbort_eq]
  split
  next counted =>
    have again : taskKey stall task ∈ s.aborted := by
      by_contra new
      exact h ⟨counted.1, counted.2, new⟩
    rw [State.tallyAbort_again, State.countReason_tally]
    rwa [State.countReason_aborted]
  next => exact s.countReason_tally sd stall task r

theorem State.rd_tick1_other {q p : Reg} (f g : Fld) (h : q.key ≠ p.key) : (s.tick1 p g).rd q f = s.rd q f :=
  s.rd_putReg_other _ f h

/-- The reason shows in LAST_ABORT of its task. -/
theorem State.countReason_shows :
    (s.countReason sd stall task r).rd (Rg.taskState sd (taskKey stall task)) Fd.taskStateLastAbort = abortCode r := by
  have tally : (Rg.taskState sd (taskKey stall task)).key ≠ (Rg.taskTally sd (taskKey stall task)).key := by
    simp only [Rg.taskState, Rg.taskTally]; omega
  have aborts : (Rg.taskState sd (taskKey stall task)).key ≠ (Rg.scanAborts sd).key := by
    simp only [Rg.taskState, Rg.scanAborts]; omega
  have discards : (Rg.taskState sd (taskKey stall task)).key ≠ (Rg.scanDiscards sd).key := by
    simp only [Rg.taskState, Rg.scanDiscards]; omega
  have code : abortCode r < 8 := by cases r <;> decide
  have written : ((s.wr (Rg.taskState sd (taskKey stall task)) Fd.taskStateLastAbort (abortCode r)).tick1
      (Rg.taskTally sd (taskKey stall task)) Fd.taskTallyAborts).rd (Rg.taskState sd (taskKey stall task)) Fd.taskStateLastAbort =
      abortCode r := by
    rw [State.rd_tick1_other _ _ _ tally, State.rd_wr_same _ _ _ _ (by decide) (by decide)]
    exact Nat.mod_eq_of_lt code
  cases r
  case budget => exact (State.rd_tick1_other _ _ _ aborts).trans written
  case access => exact (State.rd_tick1_other _ _ _ aborts).trans written
  case window => exact (State.rd_tick1_other _ _ _ discards).trans written
  case discard => exact (State.rd_tick1_other _ _ _ discards).trans written

end Counted

/-! ### A corrupt slice table is a fault (R144) -/

section Fault

variable (s : State) (sd : SideId) (n : Nat) (a : Act)

/-- Where only a corrupt slice table refused an access, the cluster's memory is at fault. -/
def State.faultOf : State := if a.memFault then s.logFaultAs sd lcPartFault (s.clusterMemory sd (n / 8)) 0 else s

theorem State.faultOf_none (h : a.memFault = false) : s.faultOf sd n a = s := by simp [State.faultOf, h]

theorem State.faultOf_keeps {γ : Type} (g : Side → γ) (hu : ∀ x, g x.unreported = g x) (hh : ∀ x h, g { x with health := h } = g x)
    (sd' : SideId) : g ((s.faultOf sd n a).side sd') = g (s.side sd') := by
  unfold State.faultOf
  split
  · exact s.logFaultAs_keeps sd g hu hh _ _ _ sd'
  · rfl

@[simp] theorem State.faultOf_ledgerPend : (s.faultOf sd n a).ledgerPend = s.ledgerPend := by
  unfold State.faultOf
  split <;> simp

theorem State.logFaultAs_tally (code part word : Nat) : (s.logFaultAs sd code part word).tally = s.tally := by
  have reported : ∀ t : State, (t.partEvent sd code part (if partLevel part = 1 then word else 0)).tally = t.tally :=
    fun t => (congrArg State.tally (t.unreported_partEvent sd code part _) :)
  rw [State.logFaultAs_eq, reported, State.countFault, State.enterFault]
  split <;> split <;> simp [State.tick1_eq, State.count_eq, State.wr_eq]

@[simp] theorem State.faultOf_tally : (s.faultOf sd n a).tally = s.tally := by
  unfold State.faultOf
  split
  · exact s.logFaultAs_tally sd _ _ _
  · rfl

theorem State.logFaultAs_rd (code part word : Nat) {r : Reg} (f : Fld) (hl : ∀ i, r.key ≠ (Rg.faultLog sd i).key)
    (hh : r.key ≠ (Rg.faultHead sd).key) (hf : r.key ≠ (Rg.healthFaults sd).key) (hr : reportReg r.key = false) :
    (s.logFaultAs sd code part word).rd r f = s.rd r f := by
  rw [State.rd, s.logFaultAs_regWord sd part word code hf hr, State.enterFault, State.regWord_tick1_other _ _ _ hh,
    State.regWord_wr_other _ _ _ _ hh, State.regWord_putReg_other _ _ (hl _), State.regWord_modSide, State.rd]

/-- A fault of a cluster's memory leaves TASK_STATE. -/
theorem State.faultOf_taskState {k : Nat} (hk : k < 1024) (f : Fld) :
    (s.faultOf sd n a).rd (Rg.taskState sd k) f = s.rd (Rg.taskState sd k) f := by
  unfold State.faultOf
  split
  next =>
    refine s.logFaultAs_rd sd _ _ _ f (fun i => ?_) ?_ ?_ ?_
    · simp only [Rg.taskState, Rg.faultLog]; omega
    · simp only [Rg.taskState, Rg.faultHead]; omega
    · simp only [Rg.taskState, Rg.healthFaults]; omega
    · cases sd <;> simp only [reportReg, Rg.taskState, sideBase, Bool.or_eq_false_iff, beq_eq_false_iff_ne] <;> omega
  next => rfl

end Fault

/-! ### The whole abort -/

section Abort

variable (s : State) (sd : SideId) (n : Nat) (a : Act) (r : AbortReason)

/-- The state of an abort before its core is free. -/
def State.abortRecorded : State :=
  ((s.putTaskSt sd a.stall a.task { s.taskSt sd a.stall a.task with held := true }).countAbort sd a.stall a.task r (s.leads sd)).faultOf
    sd n a

theorem State.abortAct_stages : s.abortAct sd n a r = (s.abortRecorded sd n a r).coreDone sd n (a.cIn + a.used) := s.abortAct_eq sd n a r

/-- What is neither a report, nor the health, nor a task of a side stays until the core is free. -/
theorem State.abortRecorded_keeps {γ : Type} (g : Side → γ) (hu : ∀ x, g x.unreported = g x) (hh : ∀ x h, g { x with health := h } = g x)
    (ht : ∀ x t, g { x with tasks := t } = g x) : g ((s.abortRecorded sd n a r).side sd) = g (s.side sd) := by
  rw [State.abortRecorded, State.faultOf_keeps _ sd n a g hu hh, State.countAbort_side, State.putTaskSt, State.modSide_same, ht]

theorem State.abortAct_coreSt : (s.abortAct sd n a r).coreSt sd n =
    { s.coreSt sd n with cur := none, time := (s.coreSt sd n).time + (a.cIn + a.used) } := by
  rw [State.abortAct_stages, State.coreDone_coreSt, State.coreSt_congr (s.abortRecorded_keeps sd n a r Side.cores (fun _ => rfl)
    (fun _ _ => rfl) fun _ _ => rfl)]

theorem State.abortAct_marks : ((s.abortAct sd n a r).side sd).marks = (s.side sd).marks := by
  rw [State.abortAct_stages, State.coreDone_marks, s.abortRecorded_keeps sd n a r Side.marks (fun _ => rfl) (fun _ _ => rfl) fun _ _ => rfl]

theorem State.abortAct_ledgerPend : (s.abortAct sd n a r).ledgerPend = s.ledgerPend := by
  rw [State.abortAct_stages, State.coreDone_ledgerPend, State.abortRecorded, State.faultOf_ledgerPend,
    State.countAbort_keeps _ _ _ _ _ _ State.ledgerPend fun _ _ _ _ => rfl, State.countReason_ledgerPend]
  exact State.modSide_ledgerPend _ _ _

/-- An abort in a sound slice table lets nothing leave the module. -/
theorem State.abortAct_out (h : a.memFault = false) : (s.abortAct sd n a r).out = s.out := by
  rw [State.abortAct_stages, State.coreDone_out, State.abortRecorded, State.faultOf_none _ _ _ _ h,
    State.countAbort_keeps _ _ _ _ _ _ State.out fun _ _ _ _ => rfl, State.countReason_out]
  exact State.modSide_out _ _ _

theorem State.abortAct_tally : (s.abortAct sd n a r).tally =
    ((s.putTaskSt sd a.stall a.task { s.taskSt sd a.stall a.task with held := true }).countAbort sd a.stall a.task r (s.leads sd)).tally := by
  rw [State.abortAct_stages, State.coreDone_tally, State.abortRecorded, State.faultOf_tally]

/-- LAST_ABORT of the task shows the reason. -/
theorem State.abortAct_shows (hn : n < 80) (hk : taskKey a.stall a.task < 1024) :
    (s.abortAct sd n a r).rd (Rg.taskState sd (taskKey a.stall a.task)) Fd.taskStateLastAbort = abortCode r := by
  have coreEnd : (Rg.taskState sd (taskKey a.stall a.task)).key ≠ (Rg.coreEnd sd n).key := by
    simp only [Rg.taskState, Rg.coreEnd]; omega
  rw [State.abortAct_stages, State.coreDone, State.raise_eq, State.rd_wr_other _ _ _ _ coreEnd, State.rd, State.putCore,
    State.regWord_modSide, ← State.rd, State.abortRecorded, State.faultOf_taskState _ _ _ _ hk,
    State.countAbort_keeps _ _ _ _ _ _ (fun t => t.rd _ _) fun _ _ _ _ => rfl]
  exact State.countReason_shows _ _ _ _ _

end Abort

/-- Settles O19: an abort by its stages: the task is held, the reason counted, the core free. -/
theorem abortDiscards : Obligations.AbortDiscards := by
  unfold Obligations.AbortDiscards
  rintro s sd n a r t hn hstall htask rfl
  have task : (s.abortAct sd n a r).taskSt sd a.stall a.task = { s.taskSt sd a.stall a.task with held := true } := by
    rw [State.abortAct_taskSt, if_pos rfl]
  have core := s.abortAct_coreSt sd n a r
  have aborted : ∀ x : TaskSt, (s.putTaskSt sd a.stall a.task x).aborted = s.aborted := fun x => s.modSide_aborted sd _
  have tally : ∀ x : TaskSt, (s.putTaskSt sd a.stall a.task x).tally = s.tally := fun x => s.modSide_tally sd _
  have counted (counts : r = .budget ∨ r = .access) (serves : Serves s sd) (new : taskKey a.stall a.task ∉ s.aborted) :
      (s.abortAct sd n a r).tally = Tbl.put s.tally a.stall (Tbl.getD s.tally a.stall 0 + 1) := by
    rw [State.abortAct_tally, (s.leads_iff sd).2 serves, State.countAbort_counts _ _ _ _ _ counts (by rwa [aborted]), tally]
  have uncounted (h : ¬((r = .budget ∨ r = .access) ∧ Serves s sd ∧ taskKey a.stall a.task ∉ s.aborted)) :
      (s.abortAct sd n a r).tally = s.tally := by
    rw [State.abortAct_tally, State.countAbort_not _ _ _ _ _ _ (by rwa [s.leads_iff, aborted]), tally]
  refine ⟨by rw [task], by rw [task], by rw [task], by rw [core], ?time, ?shows, s.abortAct_ledgerPend sd n a r,
    s.abortAct_marks sd n a r, s.abortAct_out sd n a r, ?counts, uncounted, ?others⟩
  case time => rw [core]; exact (Nat.add_assoc _ _ _).symm
  case shows => exact s.abortAct_shows sd n a r hn (by simp only [taskKey]; omega)
  case counts =>
    intro counts serves new
    rw [counted counts serves new, Tbl.getD_put_same]
  case others =>
    intro k hk
    by_cases h : (r = .budget ∨ r = .access) ∧ Serves s sd ∧ taskKey a.stall a.task ∉ s.aborted
    · rw [counted h.1 h.2.1 h.2.2, Tbl.find_put_other _ _ hk]
    · rw [uncounted h]

end Sys2Proof.Machine
end

section
/-! PROOFS. The invariant of the scan (R124, R141, R143, R161) and the start of an activation (R117, R120, R140). -/

namespace Sys2Proof.Machine

open Claims

/-! ### A core starts its next activation (R117) -/

section Starts

variable (s : State) (sd : SideId) (n : Nat)

/-- A core that is busy, or that no activation waits for, starts nothing. -/
theorem State.startAct_idle (h : (s.coreSt sd n).cur ≠ none ∨ (s.coreSt sd n).queue = []) : s.startAct sd n = s := by
  simp only [State.startAct]
  split
  next hcur hqueue => rcases h with busy | empty <;> simp_all
  next => rfl

/-- The next released activation of a task is on its core, and what the task has gathered is used up. -/
def State.started (stall task : Nat) (rest : List (Nat × Nat)) (t : Task) : State :=
  (s.putCore sd n { s.coreSt sd n with queue := rest, cur := some (s.newAct sd stall t) }).useGather sd stall task

variable {s sd n}

theorem State.startAct_started {stall task : Nat} {rest : List (Nat × Nat)} {t : Task} (hcur : (s.coreSt sd n).cur = none)
    (works : (s.coreSt sd n).failed = false) (hq : (s.coreSt sd n).queue = (stall, task) :: rest) (ht : s.task stall task = some t) :
    s.startAct sd n = s.started sd n stall task rest t := by
  simp [State.startAct, State.started, hcur, works, hq, ht]

/-- What the start of an activation can do: nothing, drop a release without a task, or start it. -/
theorem State.startAct_cases : s.startAct sd n = s ∨
    (∃ rest, s.startAct sd n = s.putCore sd n { s.coreSt sd n with queue := rest }) ∨
    ∃ stall task rest t, s.startAct sd n = s.started sd n stall task rest t := by
  simp only [State.startAct]
  split
  · split
    · exact .inl rfl
    · split
      · exact .inr (.inl ⟨_, rfl⟩)
      · exact .inr (.inr ⟨_, _, _, _, rfl⟩)
  · exact .inl rfl

end Starts

/-- Settles O17: the activation started is `newAct`, whose fields are those that R120, R124 and R140 give. -/
theorem activationStarts : Obligations.ActivationStarts := by
  unfold Obligations.ActivationStarts
  refine fun s c => ⟨fun idle => congrArg Host.Outcome.next (s.startAct_idle c.side c.core.val idle), ?_⟩
  intro stall task rest t hcur works hq ht
  have core : (s.started c.side c.core.val stall task rest t).coreSt c.side c.core.val =
      { s.coreSt c.side c.core.val with queue := rest, cur := some (s.newAct c.side stall t) } := by
    rw [State.started, State.useGather, State.coreSt_congr (State.putTaskSt_cores _ _ _ _ _ _), State.putCore_coreSt]
  have gathered : ((s.started c.side c.core.val stall task rest t).taskSt c.side stall task).gather = [] ∧
      ((s.started c.side c.core.val stall task rest t).taskSt c.side stall task).fresh = false := by
    rw [State.started, State.useGather, State.putTaskSt_taskSt, if_pos rfl]
    exact ⟨rfl, rfl⟩
  have regs : (s.started c.side c.core.val stall task rest t).regs = s.regs := by
    simp [State.started, State.useGather, State.putTaskSt, State.putCore]
  have other : (s.started c.side c.core.val stall task rest t).side c.side.other = s.side c.side.other := by
    rw [State.started, State.useGather, State.putTaskSt_other _ _ _ _ _ (SideId.other_ne c.side),
      State.putCore_other _ _ _ _ (SideId.other_ne c.side)]
  have zero (r : BitVec 5) : (s.newAct c.side stall t).rg r = 0 := by
    simp [Act.rg, State.newAct, actZero]
  refine ⟨_, s.newAct c.side stall t, congrArg Host.Outcome.next (State.startAct_started hcur works hq ht), by rw [core], by rw [core], regs, other,
    rfl, rfl, rfl, rfl, rfl, rfl, rfl, rfl, zero, rfl, rfl, rfl, gathered⟩

/-! ### What keeps the invariant -/

section Invariant

variable {s t : State}

/-- The invariant speaks of cores and tasks alone. -/
theorem scanOk_congr (hc : ∀ sd, (t.side sd).cores = (s.side sd).cores) (ht : ∀ sd, (t.side sd).tasks = (s.side sd).tasks)
    (h : ScanOk s) : ScanOk t := by
  obtain ⟨acts, images⟩ := h
  refine ⟨fun sd n a hcur => acts sd n a ?_, fun sd stall task => ?_⟩
  · rwa [State.coreSt_congr (hc sd)] at hcur
  · rw [State.taskSt_congr (ht sd)]
    exact images sd stall task

theorem scanOk_putCore (h : ScanOk s) (sd : SideId) (n : Nat) {c : CoreSt} (hc : ∀ a, c.cur = some a → ActOk a) : ScanOk (s.putCore sd n c) := by
  obtain ⟨acts, images⟩ := h
  refine ⟨fun sd' m a hcur => ?_, fun sd' stall task => ?_⟩
  · by_cases side : sd' = sd
    · subst side
      by_cases core : m = n
      · subst core
        rw [State.putCore_coreSt] at hcur
        exact hc a hcur
      · rw [State.putCore_coreSt_other _ _ _ _ core] at hcur
        exact acts sd' m a hcur
    · rw [State.coreSt_congr (congrArg Side.cores (State.putCore_other _ _ _ _ side))] at hcur
      exact acts sd' m a hcur
  · rw [State.taskSt_congr (s.putCore_tasks_side sd n c sd')]
    exact images sd' stall task

theorem scanOk_putTaskSt (h : ScanOk s) (sd : SideId) (stall task : Nat) {x : TaskSt} (hx : memWf x.out = true ∧ memWf x.ret = true) :
    ScanOk (s.putTaskSt sd stall task x) := by
  obtain ⟨acts, images⟩ := h
  refine ⟨fun sd' m a hcur => acts sd' m a ?_, fun sd' stall' task' => ?_⟩
  · rwa [State.coreSt_congr (s.putTaskSt_cores sd stall task x sd')] at hcur
  · by_cases side : sd' = sd
    · subst side
      rw [State.putTaskSt_taskSt]
      split
      · exact hx
      · exact images sd' stall' task'
    · rw [State.taskSt_congr (congrArg Side.tasks (State.putTaskSt_other _ _ _ _ _ side))]
      exact images sd' stall' task'

theorem scanOk_coreDone (h : ScanOk s) (sd : SideId) (n ns : Nat) : ScanOk (s.coreDone sd n ns) :=
  scanOk_congr (fun _ => congrArg Side.cores (State.raise_side _ _ _ _ _)) (fun _ => congrArg Side.tasks (State.raise_side _ _ _ _ _))
    (scanOk_putCore h sd n fun _ hcur => by cases hcur)

theorem scanOk_commit (h : ScanOk s) (sd : SideId) (n : Nat) {a : Act} (ha : a.Kept) : ScanOk (s.commit sd n a) := by
  obtain ⟨⟨-, out, ret, -⟩, -⟩ := ha
  have images : ScanOk (s.commitImages sd n a) := scanOk_putCore (scanOk_putTaskSt h sd _ _ ⟨out, ret⟩) sd n fun b hcur => h.1 sd n b hcur
  rw [State.commit_eq]
  refine scanOk_coreDone (scanOk_congr (fun sd' => ?_) (fun sd' => ?_) images) sd n _
  · rw [State.raise_side, State.raise_side, State.releaseAll_keeps _ sd a Side.cores fun _ _ => rfl]
  · rw [State.raise_side, State.raise_side, State.releaseAll_keeps _ sd a Side.tasks fun _ _ => rfl]

theorem scanOk_abortAct (h : ScanOk s) (sd : SideId) (n : Nat) (a : Act) (r : AbortReason) : ScanOk (s.abortAct sd n a r) := by
  have held : ScanOk (s.putTaskSt sd a.stall a.task { s.taskSt sd a.stall a.task with held := true }) :=
    scanOk_putTaskSt h sd _ _ (h.2 sd a.stall a.task)
  rw [State.abortAct_stages]
  refine scanOk_coreDone (scanOk_congr (fun sd' => ?_) (fun sd' => ?_) held) sd n _
  · rw [State.abortRecorded, State.faultOf_keeps _ sd n a Side.cores (fun _ => rfl) fun _ _ => rfl, State.countAbort_side]
  · rw [State.abortRecorded, State.faultOf_keeps _ sd n a Side.tasks (fun _ => rfl) fun _ _ => rfl, State.countAbort_side]

/-- An activation put back goes on, commits or aborts. -/
theorem scanOk_finish (h : ScanOk s) (sd : SideId) (n : Nat) {a : Act} (ha : a.Kept) : ScanOk (s.finish sd n a) := by
  unfold State.finish
  split
  next running =>
    refine scanOk_putCore h sd n fun b hb => ?_
    cases hb
    exact (actOk_iff a).2 ⟨ha, running⟩
  next => exact scanOk_commit h sd n ha
  next => exact scanOk_abortAct h sd n a _

theorem scanOk_onAct (h : ScanOk s) (c : CoreRef) {f : Act → Act} (hf : ∀ a : Act, a.Kept → (f a).Kept) : ScanOk (s.onAct c f) := by
  unfold State.onAct
  split
  next a hcur =>
    obtain ⟨kept, -⟩ := (actOk_iff a).1 (h.1 _ _ a hcur)
    exact scanOk_finish h _ _ (hf a kept)
  next => exact h

/-- A new activation has its registers 0, its own copies of the committed images, the whole budget (R120, R124, R140). -/
theorem actOk_newAct (h : ScanOk s) (sd : SideId) (stall : Nat) (t : Task) : ActOk (s.newAct sd stall t) := by
  obtain ⟨out, ret⟩ := h.2 sd stall t.task
  exact ⟨⟨memWf_memOf _, out, ret, rfl⟩, Nat.le_refl _, Nat.zero_lt_succ _, Nat.zero_le _, Nat.zero_le _, rfl⟩

theorem scanOk_startAct (h : ScanOk s) (sd : SideId) (n : Nat) : ScanOk (s.startAct sd n) := by
  rcases s.startAct_cases (sd := sd) (n := n) with e | ⟨rest, e⟩ | ⟨stall, task, rest, t, e⟩ <;> rw [e]
  · exact h
  · exact scanOk_putCore h sd n fun a hcur => h.1 sd n a hcur
  · have placed : ScanOk (s.putCore sd n { s.coreSt sd n with queue := rest, cur := some (s.newAct sd stall t) }) := by
      refine scanOk_putCore h sd n fun a hcur => ?_
      cases hcur
      exact actOk_newAct h sd stall t
    exact scanOk_putTaskSt placed sd stall task (placed.2 sd stall task)

/-- A Hyrra row keeps the invariant: what its fields mean keeps it of the activation in progress. -/
theorem scanOk_row (h : ScanOk s) {i : Instr} (hi : (hscEncode i).isSome = true) (ht : exec i s = .next t) : ScanOk t := by
  obtain ⟨c, k, hc⟩ := cycles_of_encode hi actZero
  rw [exec_meaning hc] at ht
  cases hm : hscMeaning i with
  | none => rw [hm] at ht; cases ht
  | some m =>
    rw [hm] at ht
    cases ht
    refine scanOk_onAct h c fun a ha => ?_
    obtain ⟨c', k, hc'⟩ := cycles_of_encode hi a
    exact (meaning_charged a hm hc').2 ha

end Invariant

/-- Settles O23: of the two kinds of commands, a Hyrra row keeps it by `scanOk_row`, a start by `scanOk_startAct`. -/
theorem scanInvariant : Obligations.ScanInvariant := by
  unfold Obligations.ScanInvariant
  intro s t i rest hp hi h ht
  have taken : ScanOk { s with pending := rest } := scanOk_congr (by rintro (_ | _) <;> rfl) (by rintro (_ | _) <;> rfl) h
  have runs : exec i { s with pending := rest } = .next t := by rw [← ht, step, hp]
  rcases hi with row | ⟨c, rfl⟩
  · exact scanOk_row taken row runs
  · cases runs
    exact scanOk_startAct taken c.side c.core.val

end Sys2Proof.Machine
end

section
/-! PROOFS. The force commands, the expiry of a force, and the two commands of the scan that write (R130 to R135). -/

namespace Sys2Proof.Machine

open Claims

/-! ### A force leaves the table (R132, R133) -/

/-- A force that is dropped leaves the table, and its record waits for the Ledger. -/
theorem State.dropForce_some (s : State) (code handle origin : Nat) {f : Force} (hf : Tbl.find s.forces handle = some f) :
    s.dropForce code handle origin = { s with
      forces := Tbl.del s.forces handle
      ledgerPend := s.ledgerPend ++ [⟨3, f.stall, 0, code, origin, recBody (forceBody handle f), false, false⟩] } := by
  simp only [State.dropForce, hf]
  rfl

/-! ### Where each command executes -/

section ForceRuns

variable {s : State} {h : CmdHdr} {p : Bytes}

/-- A force enters the table under a handle, with its record (R132). -/
def State.enterForce (s : State) (code handle : Nat) (f : Force) : State :=
  ({ s with forces := Tbl.put s.forces handle f }).forceEvent code handle f f.origin

/-- FORCE_SET past its checks: the force replaces the one on its target, or takes the lowest free handle (R131, R135). -/
def State.placeForce (s : State) (f : Force) : CmdOut :=
  match s.forceOn f with
  | some k => done (s.enterForce evForceReplaced k f) (beBytes 2 k)
  | none =>
    match s.freeHandle with
    | some k => done (s.enterForce evForceSet k f) (beBytes 2 k)
    | none => refuse s .noResource

theorem run_forceSet_checked (channel : u8 p 0 = 3 → s.isSafeChannel (u32 p 4) = false)
    (feeds : s.feedsSafety (u8 p 1) (u8 p 2) (u32 p 4) = false)
    (loaded : u8 p 1 ≤ 63 → s.stallState (u8 p 1) = stLoaded ∨ s.stallState (u8 p 1) = stRunning)
    (range : s.forceRange (forceOfParams h p s.now) (u32 p 16) = true) :
    specForceSet.run h p s = s.placeForce (forceOfParams h p s.now) := by
  have admitted : ¬((u8 p 0 = 3 ∧ s.isSafeChannel (u32 p 4) = true) ∨ s.feedsSafety (u8 p 1) (u8 p 2) (u32 p 4) = true) := by
    rintro (⟨kind, safe⟩ | safe)
    · rw [channel kind] at safe; cases safe
    · rw [feeds] at safe; cases safe
  have ready : ¬(u8 p 1 ≤ 63 ∧ ¬(s.stallState (u8 p 1) = stLoaded ∨ s.stallState (u8 p 1) = stRunning)) :=
    fun ⟨stall, no⟩ => no (loaded stall)
  have within : ¬(!s.forceRange (forceOfParams h p s.now) (u32 p 16)) = true := by rw [range]; decide
  change cmdForceSet h p s = _
  exact (if_neg admitted).trans ((if_neg ready).trans (if_neg within))

theorem State.placeForce_replaces {f : Force} {k : Nat} (target : s.forceOn f = some k) :
    s.placeForce f = done (s.enterForce evForceReplaced k f) (beBytes 2 k) := by
  simp only [State.placeForce, target]

theorem State.placeForce_sets {f : Force} {k : Nat} (target : s.forceOn f = none) (free : s.freeHandle = some k) :
    s.placeForce f = done (s.enterForce evForceSet k f) (beBytes 2 k) := by
  simp only [State.placeForce, target, free]

/-- A channel of the safety functions is not forced (R134). -/
theorem run_forceSet_locked (kind : u8 p 0 = 3) (safe : s.isSafeChannel (u32 p 4) = true) :
    specForceSet.run h p s = refuse s .safetyLocked := if_pos (.inl ⟨kind, safe⟩)

section ForceClear

variable (single : u16 p 0 ≠ 0xFFFF)

include single

theorem run_forceClear_none (hf : Tbl.find s.forces (u16 p 0) = none) (outside : h.origin ≠ 0#32) :
    specForceClear.run h p s = refuse s .range := by
  change cmdForceClear h p s = _
  simp [cmdForceClear, single, outside, Tbl.has, hf]

variable {f : Force} (hf : Tbl.find s.forces (u16 p 0) = some f)

include hf

theorem run_forceClear_clears (outside : h.origin ≠ 0#32) :
    specForceClear.run h p s = done (s.dropForce evForceCleared (u16 p 0) h.origin.toNat) [] := by
  change cmdForceClear h p s = _
  simp [cmdForceClear, single, outside, Tbl.has, hf]

/-- The expiry that the active side lists clears a force that has reached its own (R133). -/
theorem run_forceClear_expires (own : h.origin = 0) (reached : f.expiry ≤ s.now) :
    specForceClear.run h p s = done (s.dropForce evForceExpired (u16 p 0) 0) [] := by
  change cmdForceClear h p s = _
  simp [cmdForceClear, single, own, Tbl.has, hf, Nat.not_lt.2 reached]

/-- A force replaced meanwhile stands (R133). -/
theorem run_forceClear_early (own : h.origin = 0) (early : s.now < f.expiry) : specForceClear.run h p s = done s [] := by
  change cmdForceClear h p s = _
  simp [cmdForceClear, single, own, hf, early]

end ForceClear

theorem run_forceList_inRange (least : 1 ≤ u16 p 2) (most : u16 p 2 ≤ 64) : specForceList.run h p s =
    done s (listed h (((s.forces.filter fun e => decide (u16 p 0 ≤ e.1)).take (u16 p 2)).map forceItem)) :=
  if_neg (by omega)

theorem run_scanSetForceMax_inRange (range : 1 ≤ u16 p 0 ∧ u16 p 0 ≤ 1440) :
    specScanSetForceMax.run h p s = done (s.wr Rg.scanCfg Fd.scanCfgForceMax (u16 p 0)) [] := if_pos range

theorem run_scanSetForceMax_outside (outside : u16 p 0 = 0 ∨ 1440 < u16 p 0) : specScanSetForceMax.run h p s = refuse s .range :=
  if_neg (by omega)

/-- SCAN_TASK_STATUS answers the status of the tasks of a stall and clears their high water and their tally (R135). -/
theorem run_scanTaskStatus_inRange (stall : u8 p 0 ≤ 63) : specScanTaskStatus.run h p s = done
    ((List.range 16).foldl (fun u t =>
      (u.wr (Rg.taskUsed h.side (taskKey (u8 p 0) t)) Fd.taskUsedUsedMax 0).wr (Rg.taskTally h.side (taskKey (u8 p 0) t)) Fd.taskTallyAborts 0) s)
    ((List.range 16).flatMap fun t => beBytes 4 (s.taskStateWord h.side (u8 p 0) t)
      ++ beBytes 4 (s.regWord (Rg.taskUsed h.side (taskKey (u8 p 0) t))) ++ beBytes 4 (s.regWord (Rg.taskTally h.side (taskKey (u8 p 0) t)))) :=
  if_neg (Nat.not_lt.2 stall)

end ForceRuns

/-- FORCE_EXPIRY clears a force at the bell of its expiry (R133). -/
theorem execForceExpiry_reached {s : State} {handle : BitVec 8} {f : Force} (hf : Tbl.find s.forces handle.toNat = some f)
    (reached : f.expiry ≤ s.now) : execForceExpiry handle s = .next (s.dropForce evForceExpired handle.toNat 0) := by
  simp only [execForceExpiry, hf, if_pos reached]

/-- Settles O40: each row executes its command, and a force that leaves the table leaves with its record. -/
theorem forceCommands : Obligations.ForceCommands := by
  unfold Obligations.ForceCommands
  refine ⟨?replaces, ?sets, ?locked, ?clears, ?unknown, ?expires, ?early, ?lists, ?setsMax, ?outside, ?status, ?expiry⟩
  case replaces =>
    refine fun k => does_of_run (fun _ _ _ => rfl) fun s h p ⟨channel, feeds, loaded, range, target⟩ => ?_
    rw [run_forceSet_checked channel feeds loaded range, State.placeForce_replaces target]
    rfl
  case sets =>
    refine fun k => does_of_run (fun _ _ _ => rfl) fun s h p ⟨channel, feeds, loaded, range, target, free⟩ => ?_
    rw [run_forceSet_checked channel feeds loaded range, State.placeForce_sets target free]
    rfl
  case locked => exact refuses_of_run (fun _ _ _ => rfl) fun s h p ⟨kind, safe⟩ => run_forceSet_locked kind safe
  case clears =>
    refine fun f => does_of_run (fun _ _ _ => rfl) fun s h p ⟨single, hf, outside⟩ => ?_
    rw [run_forceClear_clears single hf outside, s.dropForce_some _ _ _ hf]
    rfl
  case unknown => exact refuses_of_run (fun _ _ _ => rfl) fun s h p ⟨single, hf, outside⟩ => run_forceClear_none single hf outside
  case expires =>
    refine fun f => does_of_run (fun _ _ _ => rfl) fun s h p ⟨single, hf, own, reached⟩ => ?_
    rw [run_forceClear_expires single hf own reached, s.dropForce_some _ _ _ hf]
    rfl
  case early =>
    exact fun f => does_of_run (fun _ _ _ => rfl) fun s h p ⟨single, hf, own, early⟩ => run_forceClear_early single hf own early
  case lists => exact does_of_run (fun _ _ _ => rfl) fun s h p ⟨least, most⟩ => run_forceList_inRange least most
  case setsMax => exact does_of_run (fun _ _ _ => rfl) fun s h p range => run_scanSetForceMax_inRange range
  case outside => exact refuses_of_run (fun _ _ _ => rfl) fun s h p outside => run_scanSetForceMax_outside outside
  case status => exact does_of_run (fun _ _ _ => rfl) fun s h p stall => run_scanTaskStatus_inRange stall
  case expiry =>
    intro s handle f hf reached
    change execForceExpiry handle s = _
    rw [execForceExpiry_reached hf reached, s.dropForce_some _ _ _ hf]

end Sys2Proof.Machine
end

section
/-! PROOFS. The stall commands: grants, starts, stops and resets, reads, and the PASID map (R174 to R193). -/

namespace Sys2Proof.Machine

open Claims

/-! ### Grants and shadows (R176, R416, R422) -/

/-- A grant that conflicts with no other and that the pools hold passes the checks of R176. -/
theorem State.grantChecks_none (s : State) {g : Bytes} (apart : s.grantConflict (u8 g 0) g = false)
    (held : s.poolsCheck (u8 g 0) g = none) : s.grantChecks g = none := by
  simp [State.grantChecks, apart, held]

/-- A record put into the shadow of the scope of a stall clears its VALID and breaks its validation. -/
theorem State.modifyStallShadow_putRec (s : State) (stall ty idx : Nat) (r : Bytes) :
    s.modifyStallShadow stall (fun c => c.putRec ty idx r) = stallShadowed s stall (withRecord ty idx r) := by
  by_cases ofModule : stall = 0
  · simp only [State.modifyStallShadow, stallShadowed, if_pos ofModule]
    rfl
  · simp only [State.modifyStallShadow, stallShadowed, if_neg ofModule]
    rfl

/-! ### Where each stall command executes -/

section StallRuns

variable {s : State} {h : CmdHdr} {p : Bytes}

/-- No stall starts while the TIME_STEP lease is held. -/
theorem run_stallStart_leased (stall : u8 p 0 ≤ 63) (lease : s.leaseHeld lkTimeStep = true) :
    specStallStart.run h p s = refuse s .conflict :=
  (if_neg (Nat.not_lt.2 stall)).trans (if_pos lease)

theorem run_stallStart_unleased (stall : u8 p 0 ≤ 63) (lease : s.leaseHeld lkTimeStep = false) :
    specStallStart.run h p s = if s.stallState (u8 p 0) = stLoaded then done (s.startStall (u8 p 0)) []
      else if s.stallState (u8 p 0) = stRunning then done s [] else refuse s .state :=
  (if_neg (Nat.not_lt.2 stall)).trans (if_neg (by simp [lease]))

/-- Stall 63 runs the safety functions and does not stop. -/
theorem run_stallStop_safety (stall : u8 p 0 = 63) : specStallStop.run h p s = refuse s .safetyLocked :=
  (if_neg (by omega)).trans (if_pos stall)

theorem run_stallStop_inRange (stall : u8 p 0 ≤ 62) : specStallStop.run h p s =
    if s.stallState (u8 p 0) = stRunning ∨ s.stallState (u8 p 0) = stFaulted ∨
        (s.stallState (u8 p 0) = stResetting ∧ u8 p 0 ∈ s.noticeReset) then
      done ((s.dropActs (u8 p 0)).setStallState (u8 p 0) stLoaded) []
    else if s.stallState (u8 p 0) = stLoaded then done s [] else refuse s .state := by
  simp only [← List.contains_iff_mem]
  exact (if_neg (by omega)).trans (if_neg (by omega))

theorem run_stallReset_inRange (stall : u8 p 0 ≤ 63) : specStallReset.run h p s =
    if s.stallState (u8 p 0) = stRunning then done (s.resetStall (u8 p 0)) []
    else if s.stallState (u8 p 0) = stFaulted then
      done ((s.resetStall (u8 p 0)).wr (Rg.stallState (u8 p 0)) Fd.stallStateAutoResets 0) []
    else refuse s .state := if_neg (Nat.not_lt.2 stall)

section Grants

variable (least : 1 ≤ u8 p 0) (most : u8 p 0 ≤ 62)

include least most

section Range

variable (range : grantRange p = true)

include range

theorem grant_admitted : ¬(u8 p 0 = 0 ∨ 62 < u8 p 0 ∨ (!grantRange p) = true) := by
  rw [range, Bool.not_true, Bool.false_eq_true, or_false]
  omega

theorem run_stallCreate_occupied (occupied : s.stallState (u8 p 0) ≠ stEmpty) : specStallCreate.run h p s = refuse s .state :=
  (if_neg (grant_admitted least most range)).trans (if_pos occupied)

variable (apart : s.grantConflict (u8 p 0) p = false) (held : s.poolsCheck (u8 p 0) p = none)

include apart held

theorem run_stallCreate_empty (empty : s.stallState (u8 p 0) = stEmpty) :
    specStallCreate.run h p s = done (s.createStall p) [] := by
  refine (if_neg (grant_admitted least most range)).trans ((if_neg (not_not_intro empty)).trans ?_)
  rw [s.grantChecks_none apart held]

theorem run_stallResize_occupied (occupied : s.stallState (u8 p 0) ≠ stEmpty) :
    specStallResize.run h p s = done (stallShadowed s (u8 p 0) (withRecord 0x20 0 p)) [] := by
  refine (if_neg (grant_admitted least most range)).trans ((if_neg occupied).trans ?_)
  rw [s.grantChecks_none apart held, s.modifyStallShadow_putRec]

end Range

theorem run_stallDelete_inRange : specStallDelete.run h p s =
    if s.stallState (u8 p 0) = stRunning ∨ s.stallState (u8 p 0) = stResetting ∨ s.stallState (u8 p 0) = stEmpty then refuse s .state
    else done (s.deleteStall (u8 p 0) h.origin.toNat) [] := if_neg (by omega)

/-- STALL_DROP_SHADOW puts the active grant back into the shadow (R193). -/
theorem run_stallDropShadow_occupied {g : Bytes} (occupied : s.stallState (u8 p 0) ≠ stEmpty) (active : s.grant (u8 p 0) = some g) :
    specStallDropShadow.run h p s = done (stallShadowed s (u8 p 0) (withRecord 0x20 0 g)) [] := by
  refine (if_neg (by omega)).trans ((if_neg occupied).trans ?_)
  rw [active, ← s.modifyStallShadow_putRec]

end Grants

theorem run_stallRead_present {g : Bytes} (stall : u8 p 0 ≤ 63) (set : u8 p 1 ≤ 1)
    (present : (if u8 p 1 = 0 then s.grant (u8 p 0) else s.shadowGrant (u8 p 0)) = some g) :
    specStallRead.run h p s = done s g := by
  refine (if_neg (by omega)).trans ?_
  rw [present]

theorem run_stallStatus_inRange (stall : u8 p 0 ≤ 63) : specStallStatus.run h p s = done s
    (beBytes 4 (s.stallStateWord (u8 p 0)) ++ beBytes 4 (s.stallGrantWord (u8 p 0)) ++ beBytes 4 (s.stallDemandWord (u8 p 0))) :=
  if_neg (Nat.not_lt.2 stall)

/-- A PASID that the side does not map takes the first free entry (R190). -/
theorem run_stallMapPasid_unmapped {i : Nat} (pasid : u32 p 0 ≤ 0xFFFFF) (stall : u8 p 4 ≤ 62)
    (unmapped : s.pasidEntry h.side (u32 p 0) = none)
    (free : (upto 256).find? (fun i => !s.flag (Rg.pasidMap h.side i) Fd.pasidMapValid) = some i) :
    specStallMapPasid.run h p s = done (s.putReg (Rg.pasidMap h.side i) (2 ^ 31 + u8 p 4 * 2 ^ 20 + u32 p 0)) [] := by
  have valid : ¬(0xFFFFF < u32 p 0 ∨ 62 < u8 p 4) := by omega
  change cmdStallMapPasid h p s = _
  simp only [cmdStallMapPasid, if_neg valid, unmapped, Option.isSome_none, Bool.false_eq_true, if_false, free]

/-- A PASID that no enabled ring uses leaves the map (R190). -/
theorem run_stallUnmapPasid_unused {i : Nat} (mapped : s.pasidEntry h.side (u32 p 0) = some i)
    (unused : ∀ r < 64, ¬(s.flag (Rg.ringCfg h.side r) Fd.ringCfgEnabled = true ∧ s.regWord (Rg.ringPasid h.side r) % 2 ^ 20 = u32 p 0)) :
    specStallUnmapPasid.run h p s = done (s.putReg (Rg.pasidMap h.side i) 0) [] := by
  have idle : (upto 64).any (fun r =>
      s.flag (Rg.ringCfg h.side r) Fd.ringCfgEnabled && s.regWord (Rg.ringPasid h.side r) % 2 ^ 20 == u32 p 0) = false := by
    rw [List.any_eq_false]
    intro r hr
    rw [Bool.and_eq_true, beq_iff_eq]
    exact unused r (List.mem_range.1 hr)
  change cmdStallUnmapPasid h p s = _
  simp only [cmdStallUnmapPasid, mapped, idle, Bool.false_eq_true, if_false]

end StallRuns

/-- Settles O33: each row executes its command, which does what it says in the states of R179 and is refused in the others. -/
theorem stallCommands : Obligations.StallCommands := by
  unfold Obligations.StallCommands
  refine ⟨?starts, ?runs, ?leased, ?stops, ?stopped, ?unstoppable, ?safety, ?resets, ?recovers, ?unresettable, ?creates, ?occupied,
    ?deletes, ?running, ?resizes, ?drops, ?reads, ?status, ?pool, ?maps, ?unmaps⟩
  case starts =>
    refine does_of_run (fun _ _ _ => rfl) fun s h p ⟨stall, lease, loaded⟩ => ?_
    rw [run_stallStart_unleased stall lease, if_pos loaded]
    rfl
  case runs =>
    refine does_of_run (fun _ _ _ => rfl) fun s h p ⟨stall, lease, running⟩ => ?_
    rw [run_stallStart_unleased stall lease, running]
    rfl
  case leased => exact refuses_of_run (fun _ _ _ => rfl) fun s h p ⟨stall, lease⟩ => run_stallStart_leased stall lease
  case stops =>
    refine does_of_run (fun _ _ _ => rfl) fun s h p ⟨stall, state⟩ => ?_
    rw [run_stallStop_inRange stall, if_pos state]
    rfl
  case stopped =>
    refine does_of_run (fun _ _ _ => rfl) fun s h p ⟨stall, loaded⟩ => ?_
    rw [run_stallStop_inRange stall, if_neg (by simp [loaded, stLoaded, stRunning, stFaulted, stResetting]), if_pos loaded]
    rfl
  case unstoppable =>
    refine refuses_of_run (fun _ _ _ => rfl) fun s h p ⟨stall, resetting, unnoticed⟩ => ?_
    rw [run_stallStop_inRange stall, if_neg (by simp [resetting, unnoticed, stRunning, stFaulted, stResetting]), resetting]
    rfl
  case safety => exact refuses_of_run (fun _ _ _ => rfl) fun s h p stall => run_stallStop_safety stall
  case resets =>
    refine does_of_run (fun _ _ _ => rfl) fun s h p ⟨stall, running⟩ => ?_
    rw [run_stallReset_inRange stall, if_pos running]
    rfl
  case recovers =>
    refine does_of_run (fun _ _ _ => rfl) fun s h p ⟨stall, faulted⟩ => ?_
    rw [run_stallReset_inRange stall, faulted]
    rfl
  case unresettable =>
    refine refuses_of_run (fun _ _ _ => rfl) fun s h p ⟨stall, running, faulted⟩ => ?_
    rw [run_stallReset_inRange stall, if_neg running, if_neg faulted]
  case creates =>
    rintro scope rfl
    exact does_of_run (fun _ _ _ => rfl) fun s h p ⟨least, most, range, empty, apart, held⟩ =>
      run_stallCreate_empty least most range apart held empty
  case occupied =>
    exact refuses_of_run (fun _ _ _ => rfl) fun s h p ⟨least, most, range, occupied⟩ =>
      run_stallCreate_occupied least most range occupied
  case deletes =>
    refine does_of_run (fun _ _ _ => rfl) fun s h p ⟨least, most, state⟩ => ?_
    rw [run_stallDelete_inRange least most, if_neg]
    · rfl
    · rcases state with state | state | state <;> rw [state] <;> decide
  case running =>
    refine refuses_of_run (fun _ _ _ => rfl) fun s h p ⟨least, most, running⟩ => ?_
    rw [run_stallDelete_inRange least most, if_pos (.inl running)]
  case resizes =>
    exact does_of_run (fun _ _ _ => rfl) fun s h p ⟨least, most, range, occupied, apart, held⟩ =>
      run_stallResize_occupied least most range apart held occupied
  case drops =>
    exact fun g => does_of_run (fun _ _ _ => rfl) fun s h p ⟨least, most, occupied, active⟩ =>
      run_stallDropShadow_occupied least most occupied active
  case reads =>
    exact fun g => does_of_run (fun _ _ _ => rfl) fun s h p ⟨stall, set, present⟩ => run_stallRead_present stall set present
  case status => exact does_of_run (fun _ _ _ => rfl) fun s h p stall => run_stallStatus_inRange stall
  case pool => exact does_of_run (fun _ _ _ => rfl) fun s h p _ => rfl
  case maps =>
    exact fun i => does_of_run (fun _ _ _ => rfl) fun s h p ⟨pasid, stall, unmapped, free⟩ =>
      run_stallMapPasid_unmapped pasid stall unmapped free
  case unmaps =>
    exact fun i => does_of_run (fun _ _ _ => rfl) fun s h p ⟨mapped, unused⟩ => run_stallUnmapPasid_unused mapped unused

end Sys2Proof.Machine
end

section
/-! PROOFS. GOOSE repeats, received frames and expiry, telegrams and their watchdog (R203 to R209, R353 to R358). -/

namespace Sys2Proof.Machine

/-! ### Received frames pass checks 1 to 3 (R208) -/

/-- A frame that fails check `i` is counted. -/
def State.gooseDiscard (s : State) (sd : SideId) (i : Nat) : State := s.tick1 (Rg.gooseDiscard sd i) Fd.gooseDiscardCount

/-- Whether a frame's redundancy sequence number was accepted before. -/
def State.gooseSeen (s : State) (sd : SideId) (f : GooseFrame) : Bool :=
  match f.redundancy with
  | some n => s.dupSeen sd f.src.toNat n.toNat
  | none => false

/-- What becomes of a frame past check 3: its subscription, checks 5 to 8, the sequence rule. -/
def State.gooseMatched (s : State) (sd : SideId) (f : GooseFrame) (ns : Nat) : State :=
  match s.gooseTarget f with
  | none => if s.gooseSubRecs.any fun e => u48 e.2 4 == f.dst.toNat && u16 e.2 10 == f.appId.toNat then s.gooseDiscard sd 3 else s
  | some (j, r) =>
    match s.gooseCheck sd r f with
    | some i => s.gooseDiscard sd i
    | none =>
      match s.gooseSeq sd j f.stNum.toNat f.sqNum.toNat with
      | .change => s.gooseAccept sd j ns f true
      | .again => s.gooseAccept sd j ns f false
      | .bad => s.gooseDiscard sd 8

section Received

variable {s : State} {sd : SideId} {f : GooseFrame} {ns : Nat}

theorem State.gooseSeen_iff : s.gooseSeen sd f = true ↔ ∃ n, f.redundancy = some n ∧ s.dupSeen sd f.src.toNat n.toNat = true := by
  cases hn : f.redundancy <;> simp [State.gooseSeen, hn]

theorem State.gooseSeen_false_iff : s.gooseSeen sd f = false ↔ ∀ n, f.redundancy = some n → s.dupSeen sd f.src.toNat n.toNat = false := by
  cases hn : f.redundancy <;> simp [State.gooseSeen, hn]

/-- The order of checks 1 to 3. -/
theorem State.gooseReceive_eq : s.gooseReceive sd f ns =
    if !f.etherOk || decide (1522 < f.length) then s.gooseDiscard sd 0
    else if s.gooseSeen sd f then s.gooseDiscard sd 1
    else if !f.wellFormed then s.gooseDiscard sd 2
    else s.gooseMatched sd f ns := rfl

theorem State.gooseReceive_unframed (h : f.etherOk = false ∨ 1522 < f.length) : s.gooseReceive sd f ns = s.gooseDiscard sd 0 := by
  rw [State.gooseReceive_eq, if_pos (by simpa using h)]

variable (ok : f.etherOk = true) (short : f.length ≤ 1522)

include ok short

/-- A frame of Ethernet comes to checks 2 and 3. -/
theorem State.gooseReceive_framed : s.gooseReceive sd f ns =
    if s.gooseSeen sd f then s.gooseDiscard sd 1 else if !f.wellFormed then s.gooseDiscard sd 2 else s.gooseMatched sd f ns := by
  rw [State.gooseReceive_eq, if_neg (by simp [ok, short])]

theorem State.gooseReceive_duplicate (seen : s.gooseSeen sd f = true) : s.gooseReceive sd f ns = s.gooseDiscard sd 1 := by
  rw [State.gooseReceive_framed ok short, if_pos seen]

variable (fresh : s.gooseSeen sd f = false)

include fresh

theorem State.gooseReceive_malformed (h : f.wellFormed = false) : s.gooseReceive sd f ns = s.gooseDiscard sd 2 := by
  rw [State.gooseReceive_framed ok short, if_neg (Bool.eq_false_iff.1 fresh), if_pos (by simp [h])]

theorem State.gooseReceive_wellFormed (h : f.wellFormed = true) : s.gooseReceive sd f ns = s.gooseMatched sd f ns := by
  rw [State.gooseReceive_framed ok short, if_neg (Bool.eq_false_iff.1 fresh), if_neg (by simp [h])]

end Received

/-! ### The subscription of a frame, checks 4 to 9 (R208) -/

section Matched

variable {s : State} {sd : SideId} {f : GooseFrame} {ns j : Nat} {r : Bytes}

/-- Destination and APPID name a subscription, the control block does not. -/
theorem State.gooseMatched_stranger (target : s.gooseTarget f = none)
    (named : ∃ e ∈ s.gooseSubRecs, u48 e.2 4 = f.dst.toNat ∧ u16 e.2 10 = f.appId.toNat) :
    s.gooseMatched sd f ns = s.gooseDiscard sd 3 := by
  simp only [State.gooseMatched, target]
  exact if_pos (by simpa [List.any_eq_true] using named)

theorem State.gooseMatched_discarded (target : s.gooseTarget f = some (j, r)) {i : Nat} (check : s.gooseCheck sd r f = some i) :
    s.gooseMatched sd f ns = s.gooseDiscard sd i := by
  simp only [State.gooseMatched, target, check]

/-- A frame that passes checks 5 to 8 is left to the sequence rule of R209. -/
theorem State.gooseMatched_sequence (target : s.gooseTarget f = some (j, r)) (check : s.gooseCheck sd r f = none) :
    (s.gooseSeq sd j f.stNum.toNat f.sqNum.toNat = .bad → s.gooseMatched sd f ns = s.gooseDiscard sd 8) ∧
    (s.gooseSeq sd j f.stNum.toNat f.sqNum.toNat = .change → s.gooseMatched sd f ns = s.gooseAccept sd j ns f true) ∧
    (s.gooseSeq sd j f.stNum.toNat f.sqNum.toNat = .again → s.gooseMatched sd f ns = s.gooseAccept sd j ns f false) := by
  refine ⟨fun seq => ?_, fun seq => ?_, fun seq => ?_⟩ <;> simp only [State.gooseMatched, target, check, seq]

/-- A frame that passes checks 5 to 8 has the simulation flag, the revision and the number of members of its subscription. -/
theorem State.gooseCheck_passes (h : s.gooseCheck sd r f = none) : f.sim = bit (u16 r 2) 0 ∧ f.confRev.toNat = u32 r 12 ∧
    f.ndsCom = false ∧ f.members.length = u8 r 18 := by
  simp only [State.gooseCheck] at h
  obtain ⟨sim, h⟩ := check_passed h
  obtain ⟨-, h⟩ := check_passed h
  obtain ⟨revision, h⟩ := check_passed h
  obtain ⟨types, -⟩ := check_passed h
  simp only [Bool.or_eq_true, not_or, bne_iff_ne, not_not, Bool.not_eq_true] at sim revision types
  obtain ⟨confRev, ndsCom⟩ := revision
  exact ⟨sim, confRev, ndsCom, by simpa [upto] using congrArg List.length types⟩

end Matched

/-! ### The sequence rule and what an accepted frame leaves (R209) -/

section Accepted

variable {s : State} {sd : SideId} {j : Nat}

/-- Recording a redundancy sequence number keeps what the side has accepted for its subscriptions. -/
@[simp] theorem State.dupRecord_gooseAccOf (src n : Nat) : (s.dupRecord sd src n).gooseAccOf sd j = s.gooseAccOf sd j := by
  simp [State.dupRecord, State.gooseAccOf]

/-- An accepted change shows the frame's numbers, values and time allowed to live, unsealed yet. -/
theorem State.gooseAccept_change (f : GooseFrame) (ns : Nat) : ∃ a, (s.gooseAccept sd j ns f true).gooseAccOf sd j = some a ∧
    a.stNum = f.stNum.toNat ∧ a.sqNum = f.sqNum.toNat ∧ a.values = f.members ∧ a.fresh = true ∧ a.ingress = ns ∧ a.talMs = f.talMs := by
  have put : ∀ x, (s.modSide sd fun y => { y with gooseAcc := Tbl.put y.gooseAcc j x }).gooseAccOf sd j = some x := fun x => by
    simp [State.gooseAccOf]
  simp only [State.gooseAccept]
  cases f.redundancy with
  | none => exact ⟨_, put _, rfl, rfl, rfl, rfl, rfl, rfl⟩
  | some n => exact ⟨_, (State.dupRecord_gooseAccOf _ _).trans (put _), rfl, rfl, rfl, rfl, rfl, rfl⟩

/-- A frame of a subscription that has not expired is a change exactly where its stNum is ahead of the last. -/
theorem State.gooseSeq_change_iff {st sq : Nat} {a : GooseAcc} (ha : s.gooseAccOf sd j = some a)
    (live : ∀ x, s.gooseSub j = some x → x.expired = false) :
    s.gooseSeq sd j st sq = .change ↔
      1 ≤ (st + 4294967296 - a.stNum) % 4294967296 ∧ (st + 4294967296 - a.stNum) % 4294967296 ≤ 2147483647 := by
  have rule : s.gooseSeq sd j st sq =
      if 1 ≤ (st + 4294967296 - a.stNum) % 4294967296 ∧ (st + 4294967296 - a.stNum) % 4294967296 ≤ 2147483647 then .change
      else if (st + 4294967296 - a.stNum) % 4294967296 = 0 ∧ sq ≠ a.sqNum then .again else .bad := by
    cases hx : s.gooseSub j with
    | none => simp [State.gooseSeq, ha, hx]
    | some x => simp [State.gooseSeq, ha, hx, live x hx]
  rw [rule]
  split
  next ahead => exact iff_of_true rfl ahead
  next behind => exact iff_of_false (by split <;> simp) behind

end Accepted

/-! ### Repeats and changes of a control block (R202, R203) -/

section Published

variable {s : State} {sd : SideId} {i : Nat} {x : GoosePubSt}

theorem State.putGoosePub_some : s.putGoosePub sd i (some x) =
    s.modSide sd fun y => { y with goosePubs := Tbl.put y.goosePubs i x } := rfl

theorem State.putGoosePub_find : Tbl.find ((s.putGoosePub sd i (some x)).side sd).goosePubs i = some x := by
  simp [State.putGoosePub_some]

theorem State.putGoosePub_presented : ((s.putGoosePub sd i (some x)).side sd).presented = (s.side sd).presented := by
  simp [State.putGoosePub_some]

theorem State.gooseDue_unpublished (h : Tbl.find (s.side sd).goosePubs i = none) : s.gooseDue sd i = s := by
  simp only [State.gooseDue, h]

/-- A block that was published falls due with the publish tick after this one, and not before. -/
theorem State.gooseDue_published (h : Tbl.find (s.side sd).goosePubs i = some x) : s.gooseDue sd i =
    if x.due ≤ s.now + 1 then s.putGoosePub sd i (some { x with due := s.now + 1 }) else s := by
  simp only [State.gooseDue, h]

variable {stall w : Nat} {r image : Bytes} (presented : Tbl.find (s.side sd).presented (taskKey stall (u8 r 3)) = some image)
  (enabled : gpFlag r 0 = true) (published : Tbl.find (s.side sd).goosePubs i = some x)

include presented enabled published

/-- A block whose values differ from the last frame built sends a change; an unchanged one its repeat, when that is due. -/
theorem State.collectGoose_published :
    s.collectGoose sd w (stall, i, r) =
      if x.enc ≠ (gpMembers r).map (memberCore image) then
        let y : GoosePubSt := ⟨wrapUp x.stNum, 0, (gpMembers r).map (memberCore image), s.timestamp (w - s.sealDelay), 1, w + 2⟩
        (s.putGoosePub sd i (some y)).queueGoose sd stall i r y
      else if x.due ≤ w + 1 then s.gooseRepeatOf sd stall i r x
      else s := by
  simp only [State.collectGoose, presented, enabled, published, Bool.not_true, Bool.false_eq_true, if_false, bne_iff_ne]

theorem State.collectGoose_changed (h : x.enc ≠ (gpMembers r).map (memberCore image)) {y : GoosePubSt}
    (hy : y = ⟨wrapUp x.stNum, 0, (gpMembers r).map (memberCore image), s.timestamp (w - s.sealDelay), 1, w + 2⟩) :
    s.collectGoose sd w (stall, i, r) = (s.putGoosePub sd i (some y)).queueGoose sd stall i r y := by
  rw [State.collectGoose_published presented enabled published, if_pos h, hy]

variable (same : x.enc = (gpMembers r).map (memberCore image))

include same

theorem State.collectGoose_waits (early : w + 1 < x.due) : s.collectGoose sd w (stall, i, r) = s := by
  rw [State.collectGoose_published presented enabled published, if_neg (not_not.2 same), if_neg (Nat.not_le.2 early)]

/-- A repeat raises sqNum and doubles the interval up to the longest of its record. -/
theorem State.collectGoose_repeats (due : x.due ≤ w + 1) {y : GoosePubSt}
    (hy : y = { x with sqNum := wrapUp x.sqNum, interval := min (2 * x.interval) (u16 r 20), due := x.due + min (2 * x.interval) (u16 r 20) }) :
    s.collectGoose sd w (stall, i, r) = (s.putGoosePub sd i (some y)).queueGoose sd stall i r y := by
  rw [State.collectGoose_published presented enabled published, if_neg (not_not.2 same), if_pos due, hy]
  rfl

end Published

/-! ### Expiry (R209) -/

section Expiry

variable {s : State} {j : Nat}

theorem State.gooseExpire_due {e : Nat × Nat × Nat × Nat} (h : s.gooseEntry s.speaker s.now j = some e) (gone : bit e.2.1 0 = true) :
    s.gooseExpire j = ((s.sealGoose s.speaker s.now e).settleGoose .A e).settleGoose .B e := by
  simp only [State.gooseExpire, h, gone, if_true, State.forSides]

theorem State.gooseExpire_none (h : s.gooseEntry s.speaker s.now j = none) : s.gooseExpire j = s := by
  simp only [State.gooseExpire, h]

end Expiry

/-! ### Copies of a telegram (R355) -/

section Telegrams

variable {s : State} {sd lan : SideId} {f : TeleFrame} {t : Nat} {r : Bytes}

theorem State.teleReceive_unsubscribed (h : ∀ e ∈ s.teleRecs 1, teleMatches e.2 f = false) : s.teleReceive sd lan f = s := by
  have unnamed : (s.teleRecs 1).find? (fun e => teleMatches e.2 f) = none := by
    rw [List.find?_eq_none]
    exact fun e he => Bool.eq_false_iff.1 (h e he)
  simp only [State.teleReceive, unnamed]

variable (subscribed : (s.teleRecs 1).find? (fun e => teleMatches e.2 f) = some (t, r))

include subscribed

theorem State.teleReceive_old (h : newerCounter (s.teleLast sd t) (u32 f.payload 4) = false) :
    s.teleReceive sd lan f = s.tick1 (Rg.teleErrs sd t) Fd.teleErrsOld := by
  simp only [State.teleReceive, subscribed, h, Bool.not_false, if_true]

variable (newer : newerCounter (s.teleLast sd t) (u32 f.payload 4) = true)

include newer

/-- The first copy waits for its partner. -/
theorem State.teleReceive_first (unheard : Tbl.find (s.side sd).teleCopies t = none) : s.teleReceive sd lan f =
    s.putCopies sd t [⟨lan, u32 f.payload 4, sub f.payload 0 (16 + 4 * u8 r 16), s.now + 1⟩] := by
  have empty : Tbl.getD (s.side sd).teleCopies t [] = [] := by rw [Tbl.getD, unheard]; rfl
  simp [State.teleReceive, subscribed, newer, empty]

/-- The second copy, from the other LAN and within the window, takes the first away: its data are accepted where both payloads
agree, and counted as a mismatch where they do not. -/
theorem State.teleReceive_second {o : TeleCopy} (one : Tbl.find (s.side sd).teleCopies t = some [o]) (other : o.lan ≠ lan)
    (counter : o.counter = u32 f.payload 4) (window : s.now + 1 < o.arrival + u8 r 18) : s.teleReceive sd lan f =
    if o.payload = sub f.payload 0 (16 + 4 * u8 r 16) then
      (s.putCopies sd t []).modSide sd fun x =>
        { x with teleAcc := Tbl.put x.teleAcc t (u32 f.payload 4, sub f.payload 12 (4 * u8 r 16)) }
    else (s.putCopies sd t []).tick1 (Rg.teleErrs sd t) Fd.teleErrsMismatch := by
  have held : Tbl.getD (s.side sd).teleCopies t [] = [o] := by rw [Tbl.getD, one]; rfl
  simp [State.teleReceive, subscribed, newer, held, other, counter, window]

end Telegrams

/-! ### The watchdog of a telegram (R356) -/

theorem State.teleWatch_live {s : State} {t : Nat} {r : Bytes} (h : (s.teleRecs 1).find? (fun e => e.1 == t) = some (t, r))
    (live : (s.teleSub t).expired = false) : s.teleWatch t =
      if teleExpiry r (s.teleSub t) ≤ s.now then { s with teleSubs := Tbl.put s.teleSubs t { s.teleSub t with expired := true } } else s := by
  simp only [State.teleWatch, h, live, Bool.not_false, Bool.true_and, decide_eq_true_eq]

/-! ### What each row does -/

section PublicationRows

variable {s : State} (sd : SideId)

theorem exec_gooseFrameCheck (f : GooseFrame) (ns : Nat) : exec (.gooseFrameCheck sd f ns) s = .next (s.gooseReceive sd f ns) := rfl

theorem exec_gooseRepeat (i : Fin 512) : exec (.gooseRepeat sd i) s = .next (s.gooseDue sd i.val) := rfl

theorem exec_gooseSubExpiry (j : Fin 2048) : exec (.gooseSubExpiry j) s = .next (s.gooseExpire j.val) := rfl

theorem exec_telegramReceive (lan : SideId) (f : TeleFrame) : exec (.telegramReceive sd lan f) s = .next (s.teleReceive sd lan f) := rfl

theorem exec_telegramWatchdog (t : Fin 64) : exec (.telegramWatchdog t) s = .next (s.teleWatch t.val) := rfl

end PublicationRows

/-- Settles O51: each row by the lemmas of the operation it runs. -/
theorem gooseAndTelegramEvents : Obligations.GooseAndTelegramEvents := by
  unfold Obligations.GooseAndTelegramEvents
  intro s
  refine ⟨?received, fun sd f r => State.gooseCheck_passes, fun sd j f ns => State.gooseAccept_change f ns,
    fun sd j st sq a => State.gooseSeq_change_iff, ?unpublished, ?due, ?repeated, ?collected, by decide, ?expired, ?unexpired,
    ?unsubscribed, ?telegram, ?watchdog⟩
  case received =>
    rintro sd f ns cnt rfl
    simp only [exec_gooseFrameCheck, ← State.gooseSeen_iff, ← State.gooseSeen_false_iff]
    refine ⟨fun unframed => congrArg _ (State.gooseReceive_unframed unframed), fun ok short =>
      ⟨fun seen => congrArg _ (State.gooseReceive_duplicate ok short seen), fun fresh =>
        ⟨fun malformed => congrArg _ (State.gooseReceive_malformed ok short fresh malformed), fun formed => ?_⟩⟩⟩
    rw [State.gooseReceive_wellFormed ok short fresh formed]
    refine ⟨fun target named => congrArg _ (State.gooseMatched_stranger target named), fun j r target =>
      ⟨fun i check => congrArg _ (State.gooseMatched_discarded target check), fun check => ?_⟩⟩
    obtain ⟨bad, change, again⟩ := State.gooseMatched_sequence (ns := ns) target check
    exact ⟨fun seq => congrArg _ (bad seq), fun seq => congrArg _ (change seq), fun seq => congrArg _ (again seq)⟩
  case unpublished =>
    intro sd i h
    rw [exec_gooseRepeat, State.gooseDue_unpublished h]
  case due =>
    intro sd i x h
    rw [exec_gooseRepeat, State.gooseDue_published h]
    exact ⟨fun early => congrArg _ (if_neg (Nat.not_le.2 early)), fun due => congrArg _ (if_pos due)⟩
  case repeated =>
    intro sd i stall r x image y published due presented enabled same hy
    refine ⟨s.putGoosePub sd i.val (some { x with due := s.now + 1 }), ?_, ?_⟩
    · rw [exec_gooseRepeat, State.gooseDue_published published, if_pos due]
    · exact State.collectGoose_repeats (x := { x with due := s.now + 1 }) (by rw [State.putGoosePub_presented, presented]) enabled
        State.putGoosePub_find same (Nat.le_refl _) hy
  case collected =>
    rintro sd stall i r x image enc w presented enabled rfl published
    exact ⟨fun same early => State.collectGoose_waits presented enabled published same early,
      fun y same due hy => State.collectGoose_repeats presented enabled published same due hy,
      fun y changed hy => State.collectGoose_changed presented enabled published changed hy⟩
  case expired =>
    intro j e h gone
    rw [exec_gooseSubExpiry, State.gooseExpire_due h gone]
  case unexpired =>
    intro j h
    rw [exec_gooseSubExpiry, State.gooseExpire_none h]
  case unsubscribed =>
    intro sd lan f h
    rw [exec_telegramReceive, State.teleReceive_unsubscribed h]
  case telegram =>
    intro sd lan f t r subscribed
    rw [exec_telegramReceive]
    refine ⟨fun old => congrArg _ (State.teleReceive_old subscribed old),
      fun newer unheard => congrArg _ (State.teleReceive_first subscribed newer unheard), fun o newer one other counter window => ?_⟩
    rw [State.teleReceive_second subscribed newer one other counter window]
    exact ⟨fun agree => congrArg _ (if_pos agree), fun differ => congrArg _ (if_neg differ)⟩
  case watchdog =>
    intro t r h live
    rw [exec_telegramWatchdog, State.teleWatch_live h live]
    exact ⟨fun due => congrArg _ (if_pos due), fun early => congrArg _ (if_neg (Nat.not_le.2 early))⟩

end Sys2Proof.Machine
end

section
/-! PROOFS. The side and pair commands: hand-overs, joining, leaving, the colour, the rules of the Arbiter (R228 to R248). -/

namespace Sys2Proof.Machine

open Claims

/-- A row is accepted wherever its command leaves the final status for later (R406). -/
theorem accepts_of_run {i : CmdHdr → Bytes → Instr} {c : CmdSpec} {ok : State → CmdHdr → Bytes → Prop}
    {eff : State → CmdHdr → Bytes → State} (hi : ∀ h p s, exec (i h p) s = runCmd c h p s)
    (hr : ∀ s h p, ok s h p → c.run h p s = ⟨eff s h p, .acceptedPending, []⟩) : Accepts i c ok eff := by
  intro s h p takes good
  rw [hi, runCmd, s.submit_takes takes, hr s h p good]

section SideRuns

variable {s : State} {h : CmdHdr} {p : Bytes}

/-! ### SIDE_HANDOVER (R232) -/

/-- With an active side a hand-over wants the other in step, no hand-over waiting, no drill and no lease against it. -/
theorem run_sideHandover_active {a : SideId} (active : s.active = some a) :
    specSideHandover.run h p s =
      if !s.inStep a.other ∨ s.handoverAt.isSome then refuse s .state
      else if s.drill.isSome then refuse s .busyTest
      else if s.leaseConflict lkHandover then refuse s .conflict
      else done ((({ s with handoverAt := some (s.now + 1) } : State).takeLease lkHandover 2 h.origin.toNat).addNotice
        ⟨ntRoleChange, 0, if a = .A then 2 + 3 * 4 else 3 + 2 * 4, s.now + 1, false⟩) [] := by
  change cmdSideHandover h p s = _
  simp only [cmdSideHandover, active]

theorem run_sideHandover_inactive (inactive : s.active = none) : specSideHandover.run h p s = refuse s .state := by
  change cmdSideHandover h p s = _
  simp only [cmdSideHandover, inactive]

/-! ### SIDE_JOIN, SIDE_OUT and the colour (R237, R239, R240) -/

section OneSide

variable (side : u8 p 0 ≤ 1)

include side

theorem run_sideJoin_inRange :
    specSideJoin.run h p s =
      if (s.side (sideArg p 0)).role ≠ .out ∨ !s.joinReady (sideArg p 0) then refuse s .state
      else if !s.guardMet (sideArg p 0) then
        refuse ((s.guardRefuses (sideArg p 0) h.origin.toNat).modResync (sideArg p 0) fun r => { r with hdr := some h }) .state
      else if s.leaseConflict lkRestart then refuse s .conflict
      else ⟨(((s.takeLease lkRestart (sideArg p 0).code h.origin.toNat).modResync (sideArg p 0) fun r => { r with hdr := some h }).wr
        (Rg.resyncStatus (sideArg p 0)) Fd.resyncStatusAttempt 0).startJoin (sideArg p 0), .acceptedPending, []⟩ :=
  if_neg (Nat.not_lt.2 side)

theorem run_sideOut_inRange :
    specSideOut.run h p s =
      if (s.side (sideArg p 0)).role = .active ∨ (s.side (sideArg p 0)).role = .out then refuse s .state
      else if !(s.leases.any fun l => l.kind == lkRestart && l.side == (sideArg p 0).code) && s.leaseConflict lkRestart then refuse s .conflict
      else done (s.goOut (sideArg p 0) rcSideOut) [] :=
  if_neg (Nat.not_lt.2 side)

/-- A side leaves where it holds a restart lease itself, or nobody's lease stands against one (R468). -/
theorem run_sideOut_permitted (notActive : (s.side (sideArg p 0)).role ≠ .active) (notOut : (s.side (sideArg p 0)).role ≠ .out)
    (lease : (∃ l ∈ s.leases, l.kind = lkRestart ∧ l.side = (sideArg p 0).code) ∨ s.leaseConflict lkRestart = false) :
    specSideOut.run h p s = done (s.goOut (sideArg p 0) rcSideOut) [] := by
  rw [run_sideOut_inRange side, if_neg (not_or.2 ⟨notActive, notOut⟩), if_neg]
  rcases lease with ⟨l, held, kind, own⟩ | free
  · have any : (s.leases.any fun l => l.kind == lkRestart && l.side == (sideArg p 0).code) = true :=
      List.any_eq_true.2 ⟨l, held, by simp [kind, own]⟩
    simp [any]
  · simp [free]

theorem run_sideSetColour_inRange : specSideSetColour.run h p s = done (s.wr Rg.sideCfg Fd.sideCfgColourNext (u8 p 0)) [] :=
  if_neg (Nat.not_lt.2 side)

end OneSide

/-! ### PAIR_HANDOVER (R248) -/

theorem run_pairHandover_eq :
    specPairHandover.run h p s =
      if !s.pairInStep then refuse s .state
      else if s.leaseConflict lkHandover then refuse s .conflict
      else done (((s.modPair fun p => { p with handoverAt := some (s.now + 1) }).takeLease lkHandover 2 h.origin.toNat).addNotice
        ⟨ntRoleChange, 0, s.roleArg, s.now + 1, false⟩) [] := rfl

/-! ### ARB_SET_HANDOVER (R228) -/

/-- A channel of a safety function may be named with the rule it has: the model's choice (log entry 106). -/
theorem run_arbSetHandover_permitted
    (rules : ∀ n < 32, bits (u64 p 0) (2 * n + 1) (2 * n) ≠ 3 ∧
      (s.isSafeChannel (n + 1) = true → bits (u64 p 0) (2 * n + 1) (2 * n) = bits (s.regWord Rg.arbHandover) (2 * n + 1) (2 * n))) :
    specArbSetHandover.run h p s = done (s.putReg Rg.arbHandover (u64 p 0)) [] := by
  have defined : ¬((upto 32).any fun n => bits (u64 p 0) (2 * n + 1) (2 * n) == 3) = true := by
    simp only [List.any_eq_true, beq_iff_eq, not_exists, not_and]
    exact fun n hn => (rules n (List.mem_range.1 hn)).1
  have safe : ¬((upto 32).any fun n => s.isSafeChannel (n + 1) &&
      bits (u64 p 0) (2 * n + 1) (2 * n) != bits (s.regWord Rg.arbHandover) (2 * n + 1) (2 * n)) = true := by
    simp only [List.any_eq_true, Bool.and_eq_true, bne_iff_ne, not_exists, not_and, not_not]
    exact fun n hn => (rules n (List.mem_range.1 hn)).2
  exact (if_neg defined).trans (if_neg safe)

end SideRuns

/-- Settles O42: each row by what its command runs to; that an unchanged rule of a safety channel stays settable is the model's
choice (log entry 106). -/
theorem sideCommands : Obligations.SideCommands := by
  unfold Obligations.SideCommands
  refine ⟨?handover, ?inactive, ?joins, ?unjoinable, ?leaves, ?activeStays, fun s sd => State.goOut_role s sd rcSideOut, ?colour,
    ?pairHandover, ?pairApart, ?rules⟩
  case handover =>
    refine fun a => does_of_run (fun _ _ _ => rfl) fun s h p ⟨active, inStep, idle, undrilled, free⟩ => ?_
    rw [run_sideHandover_active active, if_neg (by simp [inStep, idle]), if_neg (by simp [undrilled]), if_neg (by simp [free])]
    rfl
  case inactive => exact refuses_of_run (fun _ _ _ => rfl) fun s h p inactive => run_sideHandover_inactive inactive
  case joins =>
    refine accepts_of_run (fun _ _ _ => rfl) fun s h p ⟨side, out, ready, guard, free⟩ => ?_
    rw [run_sideJoin_inRange side, if_neg (by simp [out, ready]), if_neg (by simp [guard]), if_neg (by simp [free])]
  case unjoinable =>
    refine refuses_of_run (fun _ _ _ => rfl) fun s h p ⟨side, notOut⟩ => ?_
    rw [run_sideJoin_inRange side, if_pos (.inl notOut)]
  case leaves =>
    exact does_of_run (fun _ _ _ => rfl) fun s h p ⟨side, notActive, notOut, lease⟩ => run_sideOut_permitted side notActive notOut lease
  case activeStays =>
    refine refuses_of_run (fun _ _ _ => rfl) fun s h p ⟨side, active⟩ => ?_
    rw [run_sideOut_inRange side, if_pos (.inl active)]
  case colour => exact does_of_run (fun _ _ _ => rfl) fun s h p side => run_sideSetColour_inRange side
  case pairHandover =>
    refine does_of_run (fun _ _ _ => rfl) fun s h p ⟨inStep, free⟩ => ?_
    rw [run_pairHandover_eq, if_neg (by simp [inStep]), if_neg (by simp [free])]
    rfl
  case pairApart =>
    refine refuses_of_run (fun _ _ _ => rfl) fun s h p apart => ?_
    rw [run_pairHandover_eq, if_pos (by simp [apart])]
  case rules => exact does_of_run (fun _ _ _ => rfl) fun s h p rules => run_arbSetHandover_permitted rules

end Sys2Proof.Machine
end

section
/-! PROOFS. Frames that a side receives: wake patterns, the checks of a port, the lookup, admission to the shared buffer (R251 to R261,
R276, R277). -/

namespace Sys2Proof.Machine

/-! ### Wake patterns (R276, R277) -/

section Wake

variable {id b : Bytes}

/-- What is shorter than a pattern holds none. -/
theorem wakeCodes_short (h : b.length < 106) : wakeCodes id b = [] := by
  induction b with
  | nil => rfl
  | cons x b ih =>
    rw [List.length_cons] at h
    have long : ¬106 ≤ ((x :: b).take 106).length := by rw [List.length_take, List.length_cons]; omega
    simp only [wakeCodes, long, and_false, if_false]
    exact ih (by omega)

/-- A pattern begins with 0xFF: zeros before it make none. -/
theorem wakeCodes_zeros (front : Nat) : wakeCodes id (List.replicate front 0 ++ b) = wakeCodes id b := by
  induction front with
  | zero => rfl
  | succ front ih => simpa [List.replicate_succ, wakeCodes] using ih

/-- Six bytes of 0xFF, 16 times the ID and a code are one pattern, with that code. -/
theorem wakeCodes_pattern {code : Bytes} (hid : id.length = 6) (hcode : code.length = 4) :
    wakeCodes id (List.replicate 6 255 ++ (List.replicate 16 id).flatten ++ code) = [beNat code] := by
  have head : (List.replicate 6 (255 : Byte) ++ (List.replicate 16 id).flatten).length = 102 := by simp [hid]
  have whole : (List.replicate 6 (255 : Byte) ++ (List.replicate 16 id).flatten ++ code).length = 106 := by
    rw [List.length_append, head, hcode]
  obtain ⟨rest, hrest⟩ : ∃ rest, List.replicate 6 (255 : Byte) ++ (List.replicate 16 id).flatten ++ code = 255 :: rest := ⟨_, rfl⟩
  have short : wakeCodes id rest = [] := wakeCodes_short (by rw [hrest, List.length_cons] at whole; omega)
  have begins : (255 :: rest).take 102 = List.replicate 6 255 ++ (List.replicate 16 id).flatten := by
    rw [← hrest, List.take_left' head]
  have ends : u32 (255 :: rest) 102 = beNat code := by
    rw [← hrest, u32, sub, List.drop_left' head, List.take_of_length_le hcode.le, hcode, Nat.sub_self, List.replicate_zero, List.append_nil]
  have long : 106 ≤ ((255 :: rest).take 106).length := by rw [← hrest, List.length_take, whole]; omega
  rw [hrest, wakeCodes, if_pos ⟨begins, long⟩, ends, short]

variable {s : State} {sd : SideId} {f : EthFrame}

/-- The codes of the patterns that a frame carries for a side's wake ID. -/
def State.codesHeard (s : State) (sd : SideId) (f : EthFrame) : List Nat := wakeCodes (beBytes 6 (s.regWord (Rg.wakeId sd))) f.head

/-- A frame with a wrong FCS or without a pattern is discarded. -/
theorem State.hearWake_discards (h : f.fcsOk = false ∨ s.codesHeard sd f = []) : s.hearWake sd f = s := by
  rw [State.codesHeard] at h
  rcases h with h | h <;> simp [State.hearWake, findPattern, h]

/-- The side's own code decides wherever it stands in the frame. -/
theorem State.hearWake_own (ok : f.fcsOk = true) (h : s.regWord (Rg.wakeCode sd) ∈ s.codesHeard sd f) :
    s.hearWake sd f = s.wakePattern sd (s.regWord (Rg.wakeId sd)) (s.regWord (Rg.wakeCode sd)) := by
  rw [State.codesHeard] at h
  simp [State.hearWake, findPattern, ok, h]

/-- Without the side's own code the first one counts. -/
theorem State.hearWake_first {code : Nat} {rest : List Nat} (ok : f.fcsOk = true)
    (other : s.regWord (Rg.wakeCode sd) ∉ s.codesHeard sd f) (h : s.codesHeard sd f = code :: rest) :
    s.hearWake sd f = s.wakePattern sd (s.regWord (Rg.wakeId sd)) code := by
  rw [h] at other
  rw [State.codesHeard] at h
  simp [State.hearWake, findPattern, ok, h, other]

end Wake

/-! ### FRAME_RECEIVE (R251 to R256) -/

section Reception

variable {s : State} {sd : SideId} {p : Nat} {f : EthFrame} {ns : Nat}

/-- Whether a port takes a frame with its tag, or without one (R252). -/
def tagAllowed (r : Bytes) (f : EthFrame) : Bool := match f.tci with
  | some _ => prFlag r 3
  | none => prFlag r 2

theorem tagAllowed_of {r : Bytes} (h : (f.tci = none ∧ prFlag r 2 = true) ∨ (f.tci ≠ none ∧ prFlag r 3 = true)) : tagAllowed r f = true := by
  rcases h with ⟨untagged, taken⟩ | ⟨tagged, taken⟩
  · simp only [tagAllowed, untagged, taken]
  · obtain ⟨t, tag⟩ := Option.ne_none_iff_exists'.1 tagged
    simp only [tagAllowed, tag, taken]

/-- What becomes of a sound frame past the checks of its port: the lookup, and the copy to the mirror sessions. -/
def State.looked (s : State) (sd : SideId) (p : Nat) (r : Bytes) (f : EthFrame) (stamp : Nat) : State :=
  let mirrored (t : State) (dropped : Bool) : State := t.mirrorFrame sd p (frameClass r f) false dropped f (stamp / 65536)
  match s.classify sd p r f with
  | .pubMac => mirrored (s.pubMacClash sd p) true
  | .lost => mirrored (s.cnt sd p 4 1) true
  | .drop => mirrored s true
  | .to ports compute =>
    let t := s.switchAll sd r true p f stamp (((List.range 10).filter fun q => bit ports q) ++
      (if compute then [s.computePort sd f (frameClass r f)] else []) ++ (s.xlinkPort sd f (frameClass r f)).toList)
    mirrored t.1 (!t.2)

/-- A port without a record or without link receives nothing. -/
theorem State.takeFrame_dead (h : s.modActive.portRec sd p = none ∨ s.portLinked sd p = false) : s.takeFrame sd p f ns = s := by
  rcases h with h | h
  · simp only [State.takeFrame, State.receiveFrame, h]
  · cases hr : s.modActive.portRec sd p <;> simp [State.takeFrame, State.receiveFrame, hr, h]

@[simp] theorem State.crossTo_modActive : (s.crossTo sd ns).modActive = s.modActive := s.modSide_modActive sd _

@[simp] theorem State.crossTo_pubMac : (s.crossTo sd ns).pubMac = s.pubMac := by
  rw [State.pubMac, State.crossTo_modActive, State.pubMac]

variable {r : Bytes} (record : s.modActive.portRec sd p = some r)

include record

/-- A frame that is no PTP message for the module, or that its port does not take, is not answered. -/
theorem State.takeFrame_unanswered (h : f.pause = true ∨ tagAllowed r f = false ∨ f.etherType ≠ 0x88F7#16) :
    s.takeFrame sd p f ns = s.receiveFrame sd p f ns := by
  rcases h with h | h | h
  · simp [State.takeFrame, record, h]
  · cases tag : f.tci <;> simp only [tagAllowed, tag] at h <;> simp [State.takeFrame, record, tag, h]
  · simp [State.takeFrame, record, h]

variable (link : s.portLinked sd p = true) (fcs : f.fcsOk = true) (least : 64 ≤ f.length) (most : f.length ≤ prMax r)
  {c u : State} {n : Nat} (hc : c = s.crossTo sd ns) (hn : n = c.rxStamp sd (p + 1) ns) (hu : u = (c.cnt sd p 0 1).cnt sd p 1 f.length)

include link fcs least most hc hn hu

/-- A PAUSE frame is counted and goes no further. -/
theorem State.takeFrame_pause (pause : f.pause = true) :
    s.takeFrame sd p f ns = (u.cnt sd p 6 1).mirrorFrame sd p (frameClass r f) false true f (n / 65536) := by
  rw [State.takeFrame_unanswered record (.inl pause)]
  subst hc hn hu
  simp [State.receiveFrame, record, link, fcs, least, most, pause]

variable (plain : f.pause = false) (notRing : p ≠ 0)

include plain notRing

/-- A frame whose tag its port does not take is counted and goes no further. -/
theorem State.takeFrame_tagBarred (barred : tagAllowed r f = false) :
    s.takeFrame sd p f ns = (u.cnt sd p 5 1).mirrorFrame sd p (frameClass r f) false true f (n / 65536) := by
  rw [State.takeFrame_unanswered record (.inr (.inl barred))]
  subst hc hn hu
  cases tag : f.tci <;> simp only [tagAllowed, tag] at barred <;>
    simp [State.receiveFrame, record, link, fcs, least, most, plain, notRing, tag, barred]

/-- A frame that a port without PRP takes, neither a PTP message nor from PUB_MAC, is left to the lookup. -/
theorem State.takeFrame_looked (allowed : tagAllowed r f = true) (noPrp : prFlag r 0 = false) (noPtp : f.etherType ≠ 0x88F7#16)
    (foreign : f.src.toNat ≠ s.pubMac) : s.takeFrame sd p f ns = u.looked sd p r f n := by
  rw [State.takeFrame_unanswered record (.inr (.inr noPtp))]
  subst hc hn hu
  cases tag : f.tci <;> simp only [tagAllowed, tag] at allowed <;>
    simp [State.receiveFrame, record, link, fcs, least, most, plain, notRing, tag, allowed, noPrp, foreign, State.looked] <;> rfl

end Reception

/-! ### The lookup (R253 to R255) -/

section Lookup

variable {s : State} {sd : SideId} {p : Nat} {r : Bytes} {f : EthFrame}

/-- A frame of another device from PUB_MAC is not looked up, unless the module mirrors its partner. -/
theorem State.classify_pubMac (own : f.src.toNat = s.pubMac) (alone : s.pairMode ≠ 1) : s.classify sd p r f = .pubMac :=
  if_pos ⟨own, alone⟩

theorem State.classify_foreign (foreign : f.src.toNat ≠ s.pubMac) : s.classify sd p r f = s.lookup sd p r f :=
  if_neg fun h => foreign h.1

/-- The addresses of link-local protocols go to the module alone (rule 3). -/
theorem State.lookup_linkLocal (h : f.dst.toNat / 16 = 0x0180C200000) : s.lookup sd p r f = .to 0 true := if_pos h

/-- A destination that no rule of R253 knows. -/
theorem State.lookup_unknown (notLocal : f.dst.toNat / 16 ≠ 0x0180C200000) (noPtp : f.etherType ≠ 0x88F7#16)
    (unsubscribed : s.subscribed f = false) (unlisted : s.fdbPorts sd r f = none) (notOwn : f.dst ≠ Config.stationMac sd)
    (notAll : f.dst ≠ 0xFFFFFFFFFFFF#48) : s.lookup sd p r f = .lost := by
  simp [State.lookup, notLocal, noPtp, unsubscribed, unlisted, notOwn, notAll]

end Lookup

/-! ### Admission to the shared buffer (R261) -/

section Buffer

variable {s : State} {sd : SideId} {p cl n : Nat} {x : SwFrame}

theorem State.storeFrame_admitted (h : s.admitsFrame sd p cl x.cells = true) : s.storeFrame sd p cl x = (s.joinQueue sd p cl x, true) :=
  if_pos h

theorem State.storeFrame_refused (h : s.admitsFrame sd p cl x.cells = false) : s.storeFrame sd p cl x = (s.dropFrame sd p cl, false) :=
  if_neg (Bool.eq_false_iff.1 h)

/-- Within its MIN a queue admits every frame. -/
theorem State.admitsFrame_withinMin (h : s.occupancy sd p cl + n ≤ s.queueMin sd p cl) : s.admitsFrame sd p cl n = true := by
  simp [State.admitsFrame, h]

/-- Class 7 has no cells beyond its MIN. -/
theorem State.admitsFrame_express (h : s.queueMin sd p 7 < s.occupancy sd p 7 + n) : s.admitsFrame sd p 7 n = false := by
  simp [State.admitsFrame, h]

end Buffer

end Sys2Proof.Machine
end

section
/-! PROOFS. Frames that leave their queues, and PRP supervision (R199, R264, R266, R270). -/

namespace Sys2Proof.Machine

/-! ### FRAME_TRANSMIT (R264, R266, R274) -/

section Transmission

variable {s : State} {sd : SideId} {p cl ns : Nat} {x : SwFrame} {rest : List SwFrame}

/-- A port that is down, or still sends, starts no frame. -/
theorem State.transmitFrame_idle (h : s.portUp sd p = false ∨ ns < Tbl.getD (s.side sd).sw.busy p 0) : s.transmitFrame sd p ns = s := by
  rcases h with h | h <;> simp [State.transmitFrame, h]

/-- The classes in the order in which a port serves them. -/
def servingOrder : List Nat := [7, 6, 5, 4, 3, 2, 1, 0]

/-- Those served before a class are the higher ones. -/
theorem servingOrder_split : ∀ cl < 8, servingOrder = servingOrder.take (7 - cl) ++ cl :: servingOrder.drop (8 - cl) ∧
    ∀ k ∈ servingOrder.take (7 - cl), cl < k ∧ k < 8 := by decide

/-- The frame that a class may send at an offset in the tick, with what its queue holds behind it. -/
def State.readyFrame (s : State) (sd : SideId) (p off cl : Nat) : Option (Nat × SwFrame × List SwFrame) := match s.swQueue sd p cl with
  | x :: rest => if s.gateAllows sd p cl off (s.lineTime sd p x.f.length) then some (cl, x, rest) else none
  | [] => none

theorem State.transmitFrame_eq : s.transmitFrame sd p ns =
    if !s.portUp sd p || decide (ns < Tbl.getD (s.side sd).sw.busy p 0) then s
    else match servingOrder.findSome? ((s.crossTo sd ns).readyFrame sd p (ns - tickStart (s.crossTo sd ns).now)) with
      | some (cl, x, rest) => (s.crossTo sd ns).sendFrame sd p cl ns x rest
      | none => s.crossTo sd ns := rfl

/-- The first frame of the highest class that waits leaves, where its gate is open. -/
theorem State.transmitFrame_sends {c : State} (up : s.portUp sd p = true) (free : Tbl.getD (s.side sd).sw.busy p 0 ≤ ns) (hcl : cl < 8)
    (hc : c = s.crossTo sd ns) (first : c.swQueue sd p cl = x :: rest)
    (opens : c.gateAllows sd p cl (ns - tickStart s.now) (c.lineTime sd p x.f.length) = true)
    (higher : ∀ k, cl < k → k < 8 → c.swQueue sd p k = []) : s.transmitFrame sd p ns = c.sendFrame sd p cl ns x rest := by
  have now : (s.crossTo sd ns).now = s.now := s.modSide_now sd _
  have served : servingOrder.findSome? (c.readyFrame sd p (ns - tickStart s.now)) = some (cl, x, rest) := by
    obtain ⟨split, before⟩ := servingOrder_split cl hcl
    refine List.findSome?_eq_some_iff.2 ⟨_, cl, _, split, by simp only [State.readyFrame, first, opens, if_true], fun k hk => ?_⟩
    obtain ⟨above, inRange⟩ := before k hk
    simp only [State.readyFrame, higher k above inRange]
  rw [State.transmitFrame_eq, if_neg (by simp [up, free]), now, ← hc, served]

/-- Without a mirror session nothing is copied. -/
theorem State.mirrorFrame_none {egress dropped : Bool} {f : EthFrame} (h : (s.side sd).sw.mirrors = []) :
    s.mirrorFrame sd p cl egress dropped f ns = s :=
  List.foldl_fixed' (fun m => by simp only [State.mirrorOne, h, Tbl.find]) _

/-- A forwarded frame has left its queue: the port is busy for its time on the line, and has counted it. -/
def State.dequeued (s : State) (sd : SideId) (p cl ns : Nat) (x : SwFrame) (rest : List SwFrame) : State :=
  ((((s.putSwQueue sd p cl rest).modSide sd fun y => { y with sw := { y.sw with
    busy := Tbl.put y.sw.busy p (ns + s.lineTime sd p x.f.length) } }).endStay sd).cnt sd p 8 1).cnt sd p 9 x.f.length

@[simp] theorem State.cnt_side (i n : Nat) (sd' : SideId) : (s.cnt sd p i n).side sd' = s.side sd' := s.count_side _ _ _ sd'

/-- Frames that leave start and end no mirror session. -/
theorem State.dequeued_mirrors : ((s.dequeued sd p cl ns x rest).side sd).sw.mirrors = (s.side sd).sw.mirrors := by
  simp [State.dequeued, State.endStay, State.putSwQueue, SwSt.endStays]

variable (unmirrored : (s.side sd).sw.mirrors = []) (noCopy : x.mirror = none) (sound : x.stomped = false)

include unmirrored noCopy sound

/-- A sound frame that is forwarded through a compute path only leaves its queue. -/
theorem State.sendFrame_compute (hp : p = 13 ∨ p = 14) : s.sendFrame sd p cl ns x rest = s.dequeued sd p cl ns x rest := by
  have mirrors := (State.dequeued_mirrors (s := s) (sd := sd) (p := p) (cl := cl) (ns := ns) (x := x) (rest := rest)).trans unmirrored
  rw [State.dequeued] at *
  rcases hp with rfl | rfl <;> simp [State.sendFrame, noCopy, sound, State.mirrorFrame_none mirrors]

/-- Through an external port it leaves the module, with the correction of a transparent clock. -/
theorem State.sendFrame_external (forwarded : x.own = none) (hp : p < 11) {b : State} (hb : b = s.dequeued sd p cl ns x rest) :
    s.sendFrame sd p cl ns x rest = (b.transparent sd p x ns).2.emit (.forward sd (p + 1) x.f false (b.transparent sd p x ns).1) := by
  have mirrors : (b.side sd).sw.mirrors = [] := by rw [hb, State.dequeued_mirrors, unmirrored]
  rw [State.dequeued] at hb
  subst hb
  simp [State.sendFrame, noCopy, sound, forwarded, hp, State.mirrorFrame_none mirrors]

end Transmission

/-! ### PRP supervision (R270) -/

section Supervision

variable {s : State} {sd : SideId}

/-- Whether the supervision frames of a side left less than 9,600 ticks ago. -/
def State.supervisedLately (s : State) (sd : SideId) : Bool := match (s.side sd).sw.supervised with
  | some t => decide (s.now < t + 9600 ∧ t ≤ s.now)
  | none => false

theorem State.supervise_eq : s.supervise sd =
    if s.supervisedLately sd then s
    else
      let t := s.modSide sd fun x => { x with sw := { x.sw with supervised := some s.now } }
      match (s.side sd).role with
      | .active => (bothSides.filter fun lan => s.prpOn lan).foldl (fun v lan =>
          (v.sendSupervision sd lan s.pubMac).sendSupervision sd lan (Config.stationMac sd).toNat) t
      | .standby => if s.prpOn sd then t.sendSupervision sd sd (Config.stationMac sd).toNat else t
      | _ => s := rfl

theorem State.supervise_early {k : Nat} (last : (s.side sd).sw.supervised = some k) (notLater : k ≤ s.now) (early : s.now < k + 9600) :
    s.supervise sd = s := by
  rw [State.supervise_eq, if_pos (by simp [State.supervisedLately, last, notLater, early])]

/-- A side that is Out supervises nothing. -/
theorem State.supervise_out (out : (s.side sd).role = .out) : s.supervise sd = s := by
  simp only [State.supervise_eq, out, ite_self]

theorem State.expireNode_heard {mac t : Nat} (h : Tbl.find (s.side sd).sw.nodes mac = some t) : s.expireNode sd mac =
    if t + 60000000000 ≤ tickStart s.now then s.modSide sd fun x => { x with sw := { x.sw with nodes := Tbl.del x.sw.nodes mac } } else s := by
  simp only [State.expireNode, h]

/-- A packet leaves with its side's station address and trailer number, and the next one takes the next number (R199). -/
theorem State.netTx_numbers :
    (s.netTx sd).1 = ⟨(Config.stationMac sd).toNat, (s.side sd).sw.rct, (s.side sd).role == .active && s.forwards sd.other⟩ ∧
    ((s.netTx sd).2.side sd).sw.rct = ((s.side sd).sw.rct + 1) % 65536 := by
  refine ⟨rfl, ?_⟩
  simp only [State.netTx, State.modSide_same]

variable (due : (s.side sd).sw.supervised = none ∨ ∃ k, (s.side sd).sw.supervised = some k ∧ k + 9600 ≤ s.now) {t : State}
  (ht : t = s.modSide sd fun x => { x with sw := { x.sw with supervised := some s.now } })

include due

theorem State.supervisedLately_due : s.supervisedLately sd = false := by
  rcases due with never | ⟨k, last, passed⟩
  · simp only [State.supervisedLately, never]
  · simp only [State.supervisedLately, last, decide_eq_false_iff_not]
    omega

include ht

/-- The active side's frames go to every LAN in use: those of PUB_MAC and those of its own station. -/
theorem State.supervise_active (active : (s.side sd).role = .active) : s.supervise sd =
    ([SideId.A, SideId.B].filter fun lan => s.prpOn lan).foldl (fun v lan =>
      (v.sendSupervision sd lan s.pubMac).sendSupervision sd lan (Config.stationMac sd).toNat) t := by
  subst ht
  simp only [State.supervise_eq, State.supervisedLately_due due, active, Bool.false_eq_true, if_false, bothSides]

/-- The standby side's go to its own LAN, where that is in use. -/
theorem State.supervise_standby (standby : (s.side sd).role = .standby) : s.supervise sd =
    if s.prpOn sd then t.sendSupervision sd sd (Config.stationMac sd).toNat else t := by
  subst ht
  simp only [State.supervise_eq, State.supervisedLately_due due, standby, Bool.false_eq_true, if_false]

end Supervision

end Sys2Proof.Machine
end

section
/-! PROOFS. Links, the paths and lanes of the cross-link, and the ring attachment (R18, R252, R269, R272, R456). -/

namespace Sys2Proof.Machine

/-! ### What a link's state shows (R252, R269) -/

section Links

variable {s : State} {sd : SideId} {p : Nat} {up lf rf : Bool}

/-- The flags of a register depend on its word alone. -/
theorem State.flag_word {t : State} {r : Reg} (h : t.regWord r = s.regWord r) (f : Fld) : t.flag r f = s.flag r f := by
  simp only [State.flag, State.rd, h]

/-- PORT_STATUS of a port shows its link. -/
def State.showLink (s : State) (sd : SideId) (p : Nat) (up lf rf : Bool) : State :=
  let r := Rg.portStatus sd p
  let fec := match s.modActive.portRec sd p with
    | some c => decide (p < 11) && prFec c != 0
    | none => false
  let speed : Nat × State :=
    if !up then (0, s)
    else if p < 11 then ((match s.modActive.portRec sd p with | some c => prSpeed c | none => 0), s)
    else if p < 13 then (6, s) else if p < 15 then (7, s) else (s.free.1.toNat % 8, s.free.2)
  (((((speed.2.setFlag r Fd.portStatusLink up).setFlag r Fd.portStatusLocalFault lf).setFlag r Fd.portStatusRemoteFault rf).setFlag
    r Fd.portStatusPcsLock up).setFlag r Fd.portStatusFecLock (up && fec)).wr r Fd.portStatusSpeed speed.1

/-- LINK_MAP of a side shows the link of a port. -/
def State.mapLink (s : State) (sd : SideId) (p : Nat) (up : Bool) : State :=
  let map := s.rd (Rg.swStatus sd) Fd.swStatusLinkMap
  s.wr (Rg.swStatus sd) Fd.swStatusLinkMap (if bit map p then (if up then map else map - 2 ^ p) else if up then map + 2 ^ p else map)

/-- XLINK_LANES of a side shows a path of the cross-link. -/
def State.showPath (s : State) (sd : SideId) (p : Nat) (up : Bool) : State :=
  if p = 11 then s.setFlag (Rg.xlinkLanes sd) Fd.xlinkLanesPath12Up up
  else if p = 12 then s.setFlag (Rg.xlinkLanes sd) Fd.xlinkLanesPath13Up up else s

theorem State.setLink_eq : s.setLink sd p up lf rf =
    if s.portLinked sd p && !up then (((s.showLink sd p up lf rf).mapLink sd p up).showPath sd p up).cnt sd p 14 1
    else ((s.showLink sd p up lf rf).mapLink sd p up).showPath sd p up := rfl

theorem State.regWord_showPath {r : Reg} (h : r.key ≠ (Rg.xlinkLanes sd).key) : (s.showPath sd p up).regWord r = s.regWord r := by
  rw [State.showPath]
  split
  · exact s.regWord_wr_other _ _ _ h
  · split
    · exact s.regWord_wr_other _ _ _ h
    · rfl

theorem State.regWord_showLink {r : Reg} (h : r.key ≠ (Rg.portStatus sd p).key) : (s.showLink sd p up lf rf).regWord r = s.regWord r := by
  simp only [State.showLink, State.setFlag_eq, State.regWord_wr_other _ _ _ _ h]
  repeat' split
  all_goals rfl

/-- Beside PORT_STATUS a link's change writes LINK_MAP, XLINK_LANES and a count of its port, and no other register. -/
theorem State.regWord_setLink {r : Reg} (map : r.key ≠ (Rg.swStatus sd).key) (lanes : r.key ≠ (Rg.xlinkLanes sd).key)
    (count : r.key ≠ (Rg.portCnt sd (16 * p + 14)).key) :
    (s.setLink sd p up lf rf).regWord r = (s.showLink sd p up lf rf).regWord r := by
  have shown : (((s.showLink sd p up lf rf).mapLink sd p up).showPath sd p up).regWord r = (s.showLink sd p up lf rf).regWord r := by
    rw [State.regWord_showPath lanes, State.mapLink, State.regWord_wr_other _ _ _ _ map]
  rw [State.setLink_eq]
  split
  · rw [State.cnt, State.count_eq, State.regWord_wr_other _ _ _ _ count, shown]
  · exact shown

theorem portStatus_key_ne_swStatus : (Rg.portStatus sd p).key ≠ (Rg.swStatus sd).key := by
  simp only [Rg.portStatus, Rg.swStatus]; omega

theorem portStatus_key_ne_xlinkLanes : (Rg.portStatus sd p).key ≠ (Rg.xlinkLanes sd).key := by
  simp only [Rg.portStatus, Rg.xlinkLanes]; omega

theorem portStatus_key_ne_portCnt : (Rg.portStatus sd p).key ≠ (Rg.portCnt sd (16 * p + 14)).key := by
  simp only [Rg.portStatus, Rg.portCnt]; omega

/-- A port shows the link and the faults that it has come to. -/
theorem State.setLink_shows : (s.setLink sd p up lf rf).portLinked sd p = up ∧
    (s.setLink sd p up lf rf).flag (Rg.portStatus sd p) Fd.portStatusLocalFault = lf ∧
    (s.setLink sd p up lf rf).flag (Rg.portStatus sd p) Fd.portStatusRemoteFault = rf := by
  have word : ∀ f, (s.setLink sd p up lf rf).flag (Rg.portStatus sd p) f = (s.showLink sd p up lf rf).flag (Rg.portStatus sd p) f :=
    State.flag_word (State.regWord_setLink portStatus_key_ne_swStatus portStatus_key_ne_xlinkLanes portStatus_key_ne_portCnt)
  rw [State.portLinked, word, word, word]
  refine ⟨?_, ?_, ?_⟩ <;> simp (disch := decide) only [State.showLink, State.flag_wr_apart, State.flag_setFlag_apart, State.flag_setFlag_same]

/-- A register that a link's change does not write stays: those of the other side among them. -/
theorem State.regWord_setLink_apart {r : Reg} (status : r.key ≠ (Rg.portStatus sd p).key) (map : r.key ≠ (Rg.swStatus sd).key)
    (lanes : r.key ≠ (Rg.xlinkLanes sd).key) (count : r.key ≠ (Rg.portCnt sd (16 * p + 14)).key) :
    (s.setLink sd p up lf rf).regWord r = s.regWord r := by
  rw [State.regWord_setLink map lanes count, State.regWord_showLink status]

/-- But for a path of the cross-link that is to come up, a port off the die takes the link that it may have. -/
theorem State.portLink_external (external : ¬(p = 13 ∨ p = 14)) (path : up = true → p = 11 ∨ p = 12 → s.portLinked sd p = true) :
    s.portLink sd p up lf rf = s.setLink sd p (up && s.mayLink sd p) lf rf := by
  have settled : ¬(up && (p == 11 || p == 12) && !s.portLinked sd p) = true := by
    simp only [Bool.and_eq_true, Bool.or_eq_true, beq_iff_eq, Bool.not_eq_true']
    exact fun ⟨⟨rises, crosses⟩, down⟩ => Bool.false_ne_true (down.symm.trans (path rises crosses))
  rw [State.portLink, if_neg settled, if_neg external]

/-- A port that loses its link shows that, a compute path too. -/
theorem State.portLink_lost : (s.portLink sd p false lf rf).portLinked sd p = false ∧
    (s.portLink sd p false lf rf).flag (Rg.portStatus sd p) Fd.portStatusLocalFault = lf ∧
    (s.portLink sd p false lf rf).flag (Rg.portStatus sd p) Fd.portStatusRemoteFault = rf := by
  by_cases compute : p = 13 ∨ p = 14
  · obtain ⟨g, fallen⟩ : ∃ g, s.portLink sd p false lf rf = (s.setLink sd p false lf rf).modSide sd g := by
      simp only [State.portLink, if_pos compute, Bool.false_and, Bool.false_eq_true, if_false]
      exact ⟨_, rfl⟩
    rw [fallen, State.portLinked]
    simp only [State.flag_word (State.regWord_modSide _ sd g _)]
    exact State.setLink_shows
  · rw [State.portLink_external compute fun rises => absurd rises Bool.false_ne_true, Bool.false_and]
    exact State.setLink_shows

/-- A path of the cross-link that is down waits for the tick boundary (R269). -/
theorem State.portLink_awaits (path : p = 11 ∨ p = 12) (down : s.portLinked sd p = false) :
    s.portLink sd p true lf rf = s.awaitPath (p == 12) := by
  rw [State.portLink, if_pos (by rcases path with rfl | rfl <;> simp [down])]

/-- A compute path that was down waits for it too. -/
theorem State.portLink_rises (compute : p = 13 ∨ p = 14) (down : (s.side sd).sw.down.contains p = true) :
    s.portLink sd p true lf rf = s.modSide sd fun x => { x with sw := { x.sw with rising := x.sw.rising.filter (· != p) ++ [p] } } := by
  rw [State.portLink, if_neg (by rcases compute with rfl | rfl <;> simp), if_pos compute, if_pos (by simp only [down, Bool.and_true])]

end Links

/-! ### A side fault leaves the ports (R269) -/

section Ports

variable (s : State) {sd : SideId} {p : Nat}

theorem reportReg_portStatus (hp : p < 16) : reportReg (Rg.portStatus sd p).key = false := by
  cases sd <;> simp only [reportReg, Rg.portStatus, sideBase, Bool.or_eq_false_iff, beq_eq_false_iff_ne] <;> omega

theorem State.dropQueued_portStatus : (s.dropQueued sd).regWord (Rg.portStatus sd p) = s.regWord (Rg.portStatus sd p) := by
  have toll : (Rg.portStatus sd p).key ≠ (Rg.tollDrop sd).key := by
    simp only [Rg.portStatus, Rg.tollDrop]; omega
  rw [State.dropQueued, State.regWord_modSide]
  exact foldl_keeps (fun t : State => t.regWord (Rg.portStatus sd p)) (fun t q => t.regWord_wr_other _ _ _ toll) _ s

theorem State.canDrop_portStatus (hp : p < 16) (which : Nat → Bool) :
    (s.canDrop sd which).regWord (Rg.portStatus sd p) = s.regWord (Rg.portStatus sd p) := by
  have mailbox : ∀ i, (Rg.portStatus sd p).key ≠ (Rg.mbStatus sd i).key := by
    intro i; simp only [Rg.portStatus, Rg.mbStatus]; omega
  refine (foldl_keeps (fun t : State => t.regWord (Rg.portStatus sd p)) (fun t (e : Nat × CanTx) => ?_) _ _).trans ?_
  · exact t.regWord_wr_other _ _ _ (mailbox e.1)
  · exact s.regWord_modSide sd _ _

/-- What a side leaves behind when it stops serving are mailboxes and frames never sent. -/
theorem State.stopSide_portStatus (hp : p < 16) : (s.stopSide sd).regWord (Rg.portStatus sd p) = s.regWord (Rg.portStatus sd p) := by
  rw [State.stopSide, State.zeroise, State.regWord_modSide, State.canDrop_portStatus _ hp, State.dropQueued_portStatus, State.regWord_modSide]

/-- A side takes a role without touching its ports. -/
theorem State.setRole_portStatus (hp : p < 16) (r : Role) (cause : Nat) :
    (s.setRole sd r cause).regWord (Rg.portStatus sd p) = s.regWord (Rg.portStatus sd p) := by
  have roles : ∀ sd', (Rg.portStatus sd p).key ≠ (Rg.sideRoles sd').key := by
    intro sd'
    cases sd <;> cases sd' <;> simp only [Rg.portStatus, Rg.sideRoles, sideBase] <;> omega
  rw [State.setRole, State.lastCause,
    State.forSides_keeps (fun t => t.regWord (Rg.portStatus sd p)) fun sd' t => t.regWord_wr_other _ _ _ (roles sd')]
  simp only [State.regWord, State.putRole_regs]

/-- A side that demotes itself leaves its ports as they are. -/
theorem State.demote_portFlag (hp : p < 16) (cause : Nat) (f : Fld) :
    (s.demote sd cause).flag (Rg.portStatus sd p) f = s.flag (Rg.portStatus sd p) f := by
  have counts : (Rg.portStatus sd p).key ≠ (Rg.failoverCounts sd).key := by
    simp only [Rg.portStatus, Rg.failoverCounts]; omega
  have phase : (Rg.portStatus sd p).key ≠ (Rg.resyncStatus sd).key := by
    simp only [Rg.portStatus, Rg.resyncStatus]; omega
  have kept : (s.demoted sd cause).flag (Rg.portStatus sd p) f = s.flag (Rg.portStatus sd p) f := by
    rw [← s.answerJoin_flag sd .state f (reportReg_portStatus hp), State.demoted]
    refine State.flag_word ?_ f
    have lost : ∀ (t : State) (was : Bool), (t.loseCommands sd was).regWord (Rg.portStatus sd p) = t.regWord (Rg.portStatus sd p) :=
      fun t was => by cases was <;> rfl
    rw [lost]
    change (State.wr _ (Rg.resyncStatus sd) Fd.resyncStatusPhase 0).regWord _ = _
    rw [State.regWord_wr_other _ _ _ _ phase, State.modDuty, State.regWord_modSide, State.stopSide_portStatus _ hp,
      State.regWord_tick1_other _ _ _ counts, State.setRole_portStatus _ hp]
  simp only [State.demote]
  split
  · rfl
  · split
    · exact kept
    · exact kept

/-- A fault of its side is logged, and leaves the ports as they are. -/
theorem State.sideFault_portFlag (hp : p < 16) (part : Nat) (f : Fld) :
    (s.sideFault sd part).flag (Rg.portStatus sd p) f = s.flag (Rg.portStatus sd p) f := by
  have log : (Rg.portStatus sd p).key ≠ (Rg.faultLog sd (s.faultSlot sd)).key := by
    simp only [Rg.portStatus, Rg.faultLog]; omega
  have head : (Rg.portStatus sd p).key ≠ (Rg.faultHead sd).key := by
    simp only [Rg.portStatus, Rg.faultHead]; omega
  have faults : (Rg.portStatus sd p).key ≠ (Rg.healthFaults sd).key := by
    simp only [Rg.portStatus, Rg.healthFaults]; omega
  rw [State.sideFault, State.demote_portFlag _ hp, State.unitFailed, State.flag_word (State.regWord_modSide _ _ _ _), State.logFault,
    s.logFaultAs_flag sd part 0 lcPartFault f log head faults (reportReg_portStatus hp)]

end Ports

/-! ### A path of the cross-link comes back (R269) -/

section Paths

variable {s : State} {sd : SideId} {upper : Bool}

/-- The port of a path of the cross-link. -/
def pathPort (upper : Bool) : Nat := if upper then 12 else 11

/-- What a side shows of a path: the link of its port, the path in XLINK_LANES. -/
def State.pathShown (s : State) (sd : SideId) (upper : Bool) : Bool × Bool := (s.portLinked sd (pathPort upper), s.pathUp sd upper)

/-- A path comes back on a side. -/
def State.returnPath (s : State) (sd : SideId) (upper : Bool) : State :=
  (s.setLink sd (pathPort upper) true false false).returnFlows sd (pathPort upper)

theorem State.restorePath_eq : s.restorePath upper =
    if s.xlink.unlocked then s
    else (State.forSides { s with xlink := { s.xlink with lost := s.xlink.lost.filter fun c => !(decide (c < 8) && (decide (4 ≤ c) == upper)) } }
      fun sd t => t.returnPath sd upper).carryBell := rfl

/-- The side on which a path comes back shows it. -/
theorem State.returnPath_shows : (s.returnPath sd upper).pathShown sd upper = (true, true) := by
  have kept : ∀ (t : State) (p : Nat) (r : Reg) (f : Fld), (t.returnFlows sd p).flag r f = t.flag r f :=
    fun t p r f => State.flag_word (t.regWord_modSide sd _ r) f
  refine Prod.ext ((kept _ _ _ _).trans State.setLink_shows.1) ((kept _ _ _ _).trans ?_)
  rw [State.setLink_eq, if_neg (by simp)]
  cases upper <;> exact State.flag_setFlag_same _ _ _ _ rfl (by decide)

/-- The other side's registers keep what they show. -/
theorem State.returnPath_apart {other : SideId} (h : other ≠ sd) : (s.returnPath sd upper).pathShown other upper = s.pathShown other upper := by
  have kept : ∀ {r : Reg}, r.key / 0x80000000 ≠ sideBase sd / 0x80000000 → (s.returnPath sd upper).regWord r = s.regWord r := by
    intro r apart
    rw [State.returnPath, State.returnFlows, State.regWord_modSide, State.regWord_setLink_apart] <;>
      refine fun same => apart (same ▸ ?_) <;>
      cases sd <;> cases upper <;> simp [Rg.portStatus, Rg.swStatus, Rg.xlinkLanes, Rg.portCnt, sideBase, pathPort]
  refine Prod.ext (State.flag_word (kept ?_) _) (State.flag_word (kept ?_) _) <;>
    cases sd <;> cases other <;> cases upper <;> simp [Rg.portStatus, Rg.xlinkLanes, sideBase, pathPort] at h ⊢

/-- The flags of XLINK_LANES beyond its paths say nothing of them. -/
theorem State.pathShown_setFlag (sd' : SideId) {f : Fld} (above : 1 < f.lo) (hf : f.lo ≤ f.hi) (b : Bool) :
    (s.setFlag (Rg.xlinkLanes sd') f b).pathShown sd upper = s.pathShown sd upper := by
  have status : (Rg.portStatus sd (pathPort upper)).key ≠ (Rg.xlinkLanes sd').key := by
    cases sd <;> cases sd' <;> cases upper <;> decide
  refine Prod.ext (s.flag_putReg_other _ _ status) ?_
  by_cases same : sd' = sd
  · subst same
    cases upper
    · exact s.flag_setFlag_apart _ f Fd.xlinkLanesPath12Up b hf (by decide) (by decide) (.inl (by simp only [Fd.xlinkLanesPath12Up]; omega))
    · exact s.flag_setFlag_apart _ f Fd.xlinkLanesPath13Up b hf (by decide) (by decide) (.inl above)
  · refine s.flag_putReg_other _ _ ?_
    cases sd <;> cases sd' <;> simp [Rg.xlinkLanes, sideBase] at same ⊢

/-- Where the bell is carried says nothing of them either. -/
theorem State.carryBell_pathShown : s.carryBell.pathShown sd upper = s.pathShown sd upper := by
  refine State.forSides_keeps (fun t => t.pathShown sd upper) (fun sd' t => ?_) s
  exact (State.pathShown_setFlag sd' (by decide) (by decide) _).trans (State.pathShown_setFlag sd' (by decide) (by decide) _)

/-- A path that comes back is up on both sides. -/
theorem State.restorePath_shows (locked : s.xlink.unlocked = false) : (s.restorePath upper).pathShown sd upper = (true, true) := by
  rw [State.restorePath_eq, if_neg (Bool.eq_false_iff.1 locked), State.carryBell_pathShown, State.forSides]
  cases sd with
  | A => rw [State.returnPath_apart (by decide), State.returnPath_shows]
  | B => exact State.returnPath_shows

end Paths

/-! ### The ring attachment (R272) -/

section Ring

variable {s : State} {sd : SideId}

theorem State.settleHsr_opens (cut : s.ringCut sd = true) (closed : s.flag (Rg.swStatus sd) Fd.swStatusHsrOpen = false) :
    s.settleHsr sd = (s.setFlag (Rg.swStatus sd) Fd.swStatusHsrOpen true).sideReport sd evHsrOpen (zeros 16) := by
  simp only [State.settleHsr, cut, closed, Bool.false_eq_true, if_true, if_false]

/-- A ring that frames can pass shows closed. -/
theorem State.settleHsr_closes (whole : s.ringCut sd = false) : (s.settleHsr sd).flag (Rg.swStatus sd) Fd.swStatusHsrOpen = false := by
  simp only [State.settleHsr, whole, Bool.false_eq_true, if_false]
  split
  · exact State.flag_setFlag_same _ _ _ _ rfl (by decide)
  · exact Bool.eq_false_of_not_eq_true ‹_›

/-- Ring frames pass neither without a path nor through a switch core that does not forward. -/
theorem State.ringCut_of (ring : s.hsrOn = true)
    (h : (s.pathUp sd false = false ∧ s.pathUp sd true = false) ∨ s.forwards sd.other = false) : s.ringCut sd = true := by
  rcases h with ⟨lower, upper⟩ | h
  · simp only [State.ringCut, ring, lower, upper, Bool.or_self, Bool.not_false, Bool.true_or, Bool.and_self]
  · simp only [State.ringCut, ring, h, Bool.not_false, Bool.or_true, Bool.and_self]

end Ring

/-! ### Failing lanes and returning paths wait (R18, R269) -/

section Lanes

variable {s : State}

theorem State.failLane_new {lane : Lane} (h : s.xlink.failing.contains lane = false) :
    s.failLane lane = { s with xlink := { s.xlink with failing := s.xlink.failing ++ [lane] } } := by
  rw [State.failLane, if_neg (Bool.eq_false_iff.1 h)]

theorem State.awaitPath_new {upper : Bool} (h : s.xlink.restoring.contains upper = false) :
    s.awaitPath upper = { s with xlink := { s.xlink with restoring := s.xlink.restoring ++ [upper] } } := by
  rw [State.awaitPath, if_neg (Bool.eq_false_iff.1 h)]

theorem State.awaitPath_waiting {upper : Bool} (h : s.xlink.restoring.contains upper = true) : s.awaitPath upper = s := by
  rw [State.awaitPath, if_pos h]

/-- Errors on an idle spare lane are counted; more than 10 in a second retire it (R456). -/
theorem exec_prbsLaneErrors {sd : SideId} {k : Fin 2} {n : BitVec 16} (idle : s.spareFor k.val = 15) {u : State}
    (hu : u = s.count (Rg.xlinkLanes sd) Fd.xlinkLanesPrbsErrs n.toNat) : exec (.prbsLaneErrors sd k n) s =
    .next (if 10 < n.toNat ∧ (!s.xlink.badSpares.contains k.val) = true then
        ({ u with xlink := { s.xlink with badSpares := s.xlink.badSpares ++ [k.val] } } : State).logFault sd
          (tileAddr sd 0x11 (9 + k.val)) 0
      else u) := by
  subst hu
  exact if_neg (not_not.2 idle)

end Lanes

end Sys2Proof.Machine
end

section
/-! PROOFS. Segmented sends (R275), and what each row of the switch core does. -/

namespace Sys2Proof.Machine

/-! ### Segmented sends (R275) -/

section Segments

/-- With fuel for every byte, the pieces put together are the bytes again. -/
theorem piecesAux_flatten {n : Nat} (hn : 0 < n) {fuel : Nat} {b : Bytes} (enough : b.length < fuel) : (piecesAux fuel n b).flatten = b := by
  induction fuel generalizing b with
  | zero => omega
  | succ fuel ih =>
    cases b with
    | nil => rfl
    | cons x b =>
      have left : ((x :: b).drop n).length < fuel := by rw [List.length_drop]; rw [List.length_cons] at *; omega
      rw [piecesAux, List.flatten_cons, ih left, List.take_append_drop]
      exact nofun

theorem piecesAux_length_le {n fuel : Nat} {b : Bytes} : ∀ x ∈ piecesAux fuel n b, x.length ≤ n := by
  induction fuel generalizing b with
  | zero => exact nofun
  | succ fuel ih =>
    cases b with
    | nil => exact nofun
    | cons y b =>
      rw [piecesAux, List.forall_mem_cons]
      · exact ⟨List.length_take_le _ _, ih⟩
      · exact nofun

variable {s : State} {sd : SideId} {p : Nat} {b : BigSend}

theorem State.segmentSend_refused (h : s.takesSend sd p b = none) : s.segmentSend sd p b = s.emit (.sendRefused sd (p + 1)) := by
  simp only [State.segmentSend, h]

variable {x : SendShape} (takes : s.takesSend sd p b = some x)

include takes

/-- A side sends while no other side is active, or when it replies. -/
theorem State.segmentSend_sends (link : s.portLinked sd p = true) (serves : (s.side sd).role ≠ .out)
    (may : (s.side sd).role = .active ∨ s.active = none ∨ b.reply = true) : s.segmentSend sd p b =
    (s.crossTo sd b.ns).sendSegments sd p b x (pieces b.segSize b.payload).length 0 0 (pieces b.segSize b.payload) := by
  simp only [State.segmentSend, takes]
  refine if_neg ?_
  rcases may with h | h | h <;> simp [link, serves, h]

/-- While the other side is active it sends nothing of its own (R199). -/
theorem State.segmentSend_silent (standby : (s.side sd).role ≠ .active) (led : s.active ≠ none) (own : b.reply = false) :
    s.segmentSend sd p b = s := by
  simp only [State.segmentSend, takes]
  exact if_pos (.inr (.inr ⟨standby, Option.isSome_iff_ne_none.2 led, by simp [own]⟩))

end Segments

/-! ### What each row does -/

section SwitchRows

variable {s : State} {sd : SideId}

theorem exec_frameReceive_powered (p : Fin 11) (f : EthFrame) (ns : Nat) (on : s.switchPowered = true) :
    exec (.frameReceive sd p f ns) s = .next (s.takeFrame sd p.val f ns) := congrArg _ (if_pos on)

/-- Without power no port but the one with the wake detector hears anything (R276). -/
theorem exec_frameReceive_unpowered (p : Fin 11) (f : EthFrame) (ns : Nat) (off : s.switchPowered = false) :
    exec (.frameReceive sd p f ns) s = .next (if p.val = 10 then s.hearWake sd f else s) :=
  congrArg _ (if_neg (Bool.eq_false_iff.1 off))

theorem exec_frameTransmit_powered (p : Fin 16) (ns : Nat) (on : s.switchPowered = true) :
    exec (.frameTransmit sd p ns) s = .next (s.transmitFrame sd p.val ns) := congrArg _ (if_pos on)

theorem exec_frameTransmit_unpowered (p : Fin 16) (ns : Nat) (off : s.switchPowered = false) : exec (.frameTransmit sd p ns) s = .next s :=
  congrArg _ (if_neg (Bool.eq_false_iff.1 off))

theorem exec_prpSupervision : exec (.prpSupervision sd) s = .next (s.supervise sd) := rfl

theorem exec_prpNodeExpiry (mac : BitVec 48) : exec (.prpNodeExpiry sd mac) s = .next (s.expireNode sd mac.toNat) := rfl

theorem exec_xlinkLaneFail (lane : Lane) : exec (.xlinkLaneFail lane) s = .next (s.failLane lane) := rfl

theorem exec_pathRestore (upper : Bool) : exec (.pathRestore upper) s = .next (s.awaitPath upper) := rfl

theorem exec_hsrRingOpen : exec (.hsrRingOpen sd) s = .next (if s.ringCut sd then s.settleHsr sd else s) := rfl

theorem exec_segmentSend (p : Fin 16) (b : BigSend) : exec (.segmentSend sd p b) s = .next (s.segmentSend sd p.val b) := rfl

theorem exec_portLinkChange_up (p : Fin 16) (lf rf : Bool) : exec (.portLinkChange sd p true lf rf) s = .next (s.portLink sd p.val true lf rf) :=
  congrArg _ (if_neg fun h => Bool.false_ne_true h.2)

/-- A compute path that goes down is a fault of its side (R269). -/
theorem exec_portLinkChange_down (p : Fin 16) (lf rf : Bool) : exec (.portLinkChange sd p false lf rf) s =
    .next (if p.val = 13 ∨ p.val = 14 then (s.portLink sd p.val false lf rf).sideFault sd (unitAddr 4 sd 0x10)
      else s.portLink sd p.val false lf rf) :=
  congrArg Host.Outcome.next (if_congr (and_iff_left rfl) rfl rfl)

/-- A port whose link has gone shows it, and the faults that took it. -/
theorem exec_portLinkChange_lost (p : Fin 16) (lf rf : Bool) : ∃ t, exec (.portLinkChange sd p false lf rf) s = .next t ∧
    t.portLinked sd p.val = false ∧ t.flag (Rg.portStatus sd p.val) Fd.portStatusLocalFault = lf ∧
    t.flag (Rg.portStatus sd p.val) Fd.portStatusRemoteFault = rf := by
  have shows := State.portLink_lost (s := s) (sd := sd) (p := p.val) (lf := lf) (rf := rf)
  rw [exec_portLinkChange_down]
  refine ⟨_, rfl, ?_⟩
  split
  · rw [State.portLinked, State.sideFault_portFlag _ p.isLt, State.sideFault_portFlag _ p.isLt, State.sideFault_portFlag _ p.isLt]
    exact shows
  · exact shows

end SwitchRows

/-- Settles O52: each row by the lemmas of the operation it runs. -/
theorem switchEvents : Obligations.SwitchEvents := by
  unfold Obligations.SwitchEvents
  intro s
  refine ⟨?dead, ?unpowered, ?wake, fun id front code hid hcode => ?pattern, ?received, fun sd p r f => State.classify_pubMac,
    ?linkLocal, ?unknown, fun sd p cl x => ⟨State.storeFrame_admitted, State.storeFrame_refused⟩,
    fun sd p cl n => State.admitsFrame_withinMin, fun sd p n => State.admitsFrame_express, ?idle, ?unpoweredPort, ?transmitted, ?leaves,
    ?supervised, ?early, fun sd => State.netTx_numbers, ?out, ?nodes, ?lane, ?path, ?pathWaits, fun unlocked upper => if_pos unlocked,
    ?pathBack, ?ringOpens, ?ringWhole, fun sd => State.ringCut_of, ?computeFault, fun sd p lf rf => exec_portLinkChange_lost p lf rf,
    ?linkUp, ?pathUp, ?computeUp, ?linkBarred, ?errorsFew, ?errorsMany, ?segments, ?sendRefused, ?pieces, ?wakeId, ?wakeCode⟩
  case dead =>
    intro sd p f ns on h
    rw [exec_frameReceive_powered _ _ _ on, State.takeFrame_dead h]
  case unpowered =>
    intro sd p f ns off hp
    rw [exec_frameReceive_unpowered _ _ _ off, if_neg hp]
  case wake =>
    rintro sd f ns codes off rfl
    rw [exec_frameReceive_unpowered _ _ _ off, if_pos (show (10 : Fin 11).val = 10 from rfl)]
    refine ⟨fun h => congrArg _ (State.hearWake_discards h), ?_, fun code rest ok other h => congrArg _ (State.hearWake_first ok other h)⟩
    rintro want ok rfl own
    exact congrArg _ (State.hearWake_own ok own)
  case pattern =>
    rw [List.append_assoc, List.append_assoc, wakeCodes_zeros, ← List.append_assoc, wakeCodes_pattern hid hcode]
  case received =>
    intro sd p f ns r c n u on record link fcs least most hc hn hu
    rw [exec_frameReceive_powered _ _ _ on]
    refine ⟨fun pause => congrArg _ (State.takeFrame_pause record link fcs least most hc hn hu pause), fun plain hp => ⟨?_, ?_, ?_⟩⟩
    · exact fun untagged barred =>
        congrArg _ (State.takeFrame_tagBarred record link fcs least most hc hn hu plain hp (by simp only [tagAllowed, untagged, barred]))
    · exact fun t tagged barred =>
        congrArg _ (State.takeFrame_tagBarred record link fcs least most hc hn hu plain hp (by simp only [tagAllowed, tagged, barred]))
    · intro tag noPrp noPtp foreign
      rw [State.takeFrame_looked record link fcs least most hc hn hu plain hp (tagAllowed_of tag) noPrp noPtp foreign]
      refine ⟨fun lost => ?_, fun drop => ?_, ?_⟩
      · simp only [State.looked, lost]
      · simp only [State.looked, drop]
      · rintro ports compute v found rfl
        simp only [State.looked, found]
  case linkLocal =>
    intro sd p r f foreign h
    rw [State.classify_foreign foreign, State.lookup_linkLocal h]
  case unknown =>
    intro sd p r f foreign notLocal noPtp unsubscribed unlisted notOwn notAll
    rw [State.classify_foreign foreign, State.lookup_unknown notLocal noPtp unsubscribed unlisted notOwn notAll]
  case idle =>
    intro sd p ns h
    cases on : s.switchPowered
    · exact exec_frameTransmit_unpowered p ns on
    · rw [exec_frameTransmit_powered p ns on, State.transmitFrame_idle h]
  case unpoweredPort => exact fun sd p ns => exec_frameTransmit_unpowered p ns
  case transmitted =>
    intro sd p ns cl x rest c on up free hcl hc first opens higher
    rw [exec_frameTransmit_powered p ns on, State.transmitFrame_sends up free hcl hc first opens higher]
  case leaves =>
    rintro sd p cl ns x rest b noCopy sound forwarded unmirrored rfl
    exact ⟨State.sendFrame_compute unmirrored noCopy sound, fun hp => State.sendFrame_external unmirrored noCopy sound forwarded hp rfl⟩
  case supervised =>
    rintro sd t u due ht rfl
    rw [exec_prpSupervision]
    refine ⟨fun active => congrArg _ (State.supervise_active due ht active), fun standby lan => ?_, fun standby lan => ?_⟩
    · rw [State.supervise_standby due ht standby, if_pos lan]
    · rw [State.supervise_standby due ht standby, if_neg (Bool.eq_false_iff.1 lan)]
  case early =>
    intro sd k last notLater early
    rw [exec_prpSupervision, State.supervise_early last notLater early]
  case out =>
    intro sd out
    rw [exec_prpSupervision, State.supervise_out out]
  case nodes =>
    intro sd mac t heard
    rw [exec_prpNodeExpiry, State.expireNode_heard heard]
    exact ⟨fun silent => congrArg _ (if_pos silent), fun early => congrArg _ (if_neg (Nat.not_le.2 early))⟩
  case lane =>
    intro lane h
    rw [exec_xlinkLaneFail, State.failLane_new h]
  case path =>
    intro upper h
    rw [exec_pathRestore, State.awaitPath_new h]
  case pathWaits =>
    intro upper h
    rw [exec_pathRestore, State.awaitPath_waiting h]
  case pathBack => exact fun upper sd locked => Prod.mk.inj (State.restorePath_shows locked)
  case ringOpens =>
    intro sd cut closed
    rw [exec_hsrRingOpen, if_pos cut, State.settleHsr_opens cut closed]
  case ringWhole =>
    intro sd whole
    exact ⟨congrArg _ (if_neg (Bool.eq_false_iff.1 whole)), State.settleHsr_closes whole⟩
  case computeFault =>
    intro sd p lf rf compute
    rw [exec_portLinkChange_down, if_pos compute]
  case linkUp =>
    intro sd p lf rf may apart h13 h14
    refine ⟨_, exec_portLinkChange_up p lf rf, ?_⟩
    have path : p.val = 11 ∨ p.val = 12 → s.portLinked sd p.val = true := by
      intro crosses
      rcases apart with below | smirnel | link
      · omega
      · omega
      · exact link
    rw [State.portLink_external (by omega) fun _ => path, may]
    exact State.setLink_shows.1
  case pathUp =>
    intro sd p lf rf path down
    rw [exec_portLinkChange_up, State.portLink_awaits path down, exec_pathRestore]
  case computeUp =>
    intro sd p lf rf compute down
    rw [exec_portLinkChange_up, State.portLink_rises compute down]
  case linkBarred =>
    intro sd p lf rf barred
    have external : p.val < 11 := by
      by_contra h
      simp [State.mayLink, Nat.not_lt.1 h] at barred
    refine ⟨_, exec_portLinkChange_up p lf rf, ?_⟩
    rw [State.portLink_external (by omega) fun _ path => by omega, barred]
    exact State.setLink_shows.1
  case errorsFew =>
    intro sd k n idle few
    rw [exec_prbsLaneErrors idle rfl, if_neg fun h => Nat.not_lt.2 few h.1]
  case errorsMany =>
    intro sd k n u idle many sound hu
    rw [exec_prbsLaneErrors idle hu, if_pos ⟨many, by rw [sound]; rfl⟩]
  case segments =>
    intro sd p b x takes link serves
    rw [exec_segmentSend]
    exact ⟨fun may => congrArg _ (State.segmentSend_sends takes link serves may),
      fun standby led own => congrArg _ (State.segmentSend_silent takes standby led own)⟩
  case sendRefused =>
    intro sd p b h
    rw [exec_segmentSend, State.segmentSend_refused h]
  case pieces => exact fun n b hn => ⟨piecesAux_flatten hn (Nat.lt_succ_self _), piecesAux_length_le⟩
  case wakeId =>
    refine fun sd id => ⟨_, rfl, ?_⟩
    rw [State.rd_wr_same _ _ _ _ (by decide) (by decide)]
    exact Nat.mod_eq_of_lt id.isLt
  case wakeCode =>
    refine fun sd code => ⟨_, rfl, ?_⟩
    rw [State.rd_wr_same _ _ _ _ (by decide) (by decide)]
    exact Nat.mod_eq_of_lt code.isLt

end Sys2Proof.Machine
end

section
/-! PROOFS. What waits and which outcomes are kept (R403, R406): no report, answer or notification changes them. -/

namespace Sys2Proof.Machine

/-- The commands that wait and the outcomes that are kept. -/
def State.books (s : State) : List WaitCmd × Tbl (List CmdResult) := (s.waiting, s.outcomes)

theorem State.waiting_of_books {s t : State} (h : t.books = s.books) : t.waiting = s.waiting := congrArg Prod.fst h

theorem State.outcomes_of_books {s t : State} (h : t.books = s.books) : t.outcomes = s.outcomes := congrArg Prod.snd h

variable (s : State) (sd : SideId)

@[simp] theorem State.books_emit (o : Output) : (s.emit o).books = s.books := rfl
@[simp] theorem State.books_free : s.free.2.books = s.books := rfl
@[simp] theorem State.books_ledger (r : LPend) : (s.ledger r).books = s.books := rfl
@[simp] theorem State.books_putReg (r : Reg) (v : Nat) : (s.putReg r v).books = s.books := rfl
@[simp] theorem State.books_wr (r : Reg) (f : Fld) (v : Nat) : (s.wr r f v).books = s.books := rfl
@[simp] theorem State.books_setFlag (r : Reg) (f : Fld) (b : Bool) : (s.setFlag r f b).books = s.books := rfl
@[simp] theorem State.books_tick1 (r : Reg) (f : Fld) : (s.tick1 r f).books = s.books := rfl
@[simp] theorem State.books_modSide (f : Side → Side) : (s.modSide sd f).books = s.books := by cases sd <;> rfl
@[simp] theorem State.books_putRing (r : Nat) (x : RingSt) : (s.putRing sd r x).books = s.books := s.books_modSide sd _
@[simp] theorem State.books_hostWrite (r a : Nat) (b : Bytes) : (s.hostWrite sd r a b).books = s.books := rfl
@[simp] theorem State.books_movedBytes (n : Nat) : (s.movedBytes sd n).books = s.books := rfl

/-! ### Rings and interrupts (R380, R383, R385) -/

@[simp] theorem State.books_raiseMsix (v : Nat) : (s.raiseMsix sd v).books = s.books := by
  rw [State.raiseMsix_eq]
  split
  · rfl
  · split <;> simp

@[simp] theorem State.books_ringIrq (r : Nat) : (s.ringIrq sd r).books = s.books := by
  simp only [State.ringIrq]
  split
  · simp
  · split <;> simp

@[simp] theorem State.books_completeHead (r used code : Nat) : (s.completeHead sd r used code).books = s.books := by
  simp only [State.completeHead]
  split
  · rfl
  · split <;> simp

@[simp] theorem State.books_skipShort (r limit n : Nat) : (s.skipShort sd r limit n).books = s.books := by
  induction n generalizing s with
  | zero => rfl
  | succ n ih =>
    simp only [State.skipShort]
    split
    · split
      · rw [ih, State.books_completeHead]
      · rfl
    · rfl

@[simp] theorem State.books_settleRing (r : Nat) : (s.settleRing sd r).books = s.books := by
  simp only [State.settleRing]
  split
  · split
    · simp
    · split <;> simp
  · rfl

@[simp] theorem State.books_drainFlight (r n : Nat) : (s.drainFlight sd r n).books = s.books := by
  induction n generalizing s with
  | zero => rfl
  | succ n ih =>
    simp only [State.drainFlight]
    split
    · rw [ih]; simp
    · rfl

@[simp] theorem State.books_mailboxReply (r n : Nat) (packet : Bytes) : (s.mailboxReply sd r n packet).books = s.books := by
  simp [State.mailboxReply]

@[simp] theorem State.books_roomFor (r n : Nat) : (s.roomFor sd r n).books = s.books := by
  simp only [State.roomFor]
  split
  · split <;> simp
  · rfl

@[simp] theorem State.books_ringPut (r : Nat) (b : Bytes) : (s.ringPut sd r b).1.books = s.books := by
  have room : ((s.skipShort sd r 8192 (s.ring sd r).descs.length).roomFor sd r b.length).books = s.books := by simp
  simp only [State.ringPut]
  split
  · split
    · exact room
    · split
      · exact room
      · simp only [State.books_movedBytes, State.books_putRing, State.books_hostWrite]
        exact room
  · rfl

/-! ### Answers, notifications and records of a side (R199, R315, R390, R408) -/

@[simp] theorem State.books_netTx : (s.netTx sd).2.books = s.books := s.books_modSide sd _

@[simp] theorem State.books_answerWith (h : CmdHdr) (packet : Bytes) : (s.answerWith h packet).books = s.books := by
  simp only [State.answerWith]
  split
  · rfl
  · rfl
  · split <;> simp
  · simp
  · rfl

@[simp] theorem State.books_replyKey (k : Option Bytes) (h : CmdHdr) (op : Nat) (st : Status) (t : Nat) (b : Bytes) :
    (s.replyKey k h op st t b).books = s.books := s.books_answerWith h _

@[simp] theorem State.books_reply (h : CmdHdr) (op : Nat) (st : Status) (t : Nat) (b : Bytes) :
    (s.reply h op st t b).books = s.books := s.books_replyKey _ h op st t b

theorem State.books_sendNote {p : Principal} {answers : Bool} {packet : Bytes} {t : State}
    (h : s.sendNote sd p answers packet = some t) : t.books = s.books := by
  simp only [State.sendNote] at h
  split at h
  · split at h
    · cases h; simp
    · cases h
  · split at h
    · split at h
      · cases h; simp
      · cases h
    · cases h

@[simp] theorem State.books_notifyOne (origin stall : Nat) (p : Principal) (answers : Bool) (b : Bytes) :
    (s.notifyOne sd origin stall p answers b).books = s.books := by
  simp only [State.notifyOne]
  split
  · rfl
  · split
    · rename_i t ht
      have sent : t.books = s.books := by
        split at ht
        · exact s.books_sendNote sd ht
        · cases ht
      rw [State.books_tick1, State.books_modSide, sent]
    · rfl

@[simp] theorem State.books_crier (code area seq stall : Nat) (b : Bytes) : (s.crier sd code area seq stall b).books = s.books := by
  refine foldl_keeps State.books (fun t e => ?_) _ s
  split <;> simp

@[simp] theorem State.books_crierFinal (h : CmdHdr) (st : Status) (b : Bytes) : (s.crierFinal sd h st b).books = s.books := by
  simp only [State.crierFinal]
  split
  · split <;> simp
  · rfl

@[simp] theorem State.books_sideDropped (c stall : Nat) (rate : Bool) : (s.sideDropped sd c stall rate).books = s.books := by
  simp [State.sideDropped]

@[simp] theorem State.books_sideWrite (cls code stall origin time : Nat) (b : Bytes) :
    (s.sideWrite sd cls code stall origin time b).books = s.books := by
  simp [State.sideWrite]

@[simp] theorem State.books_sideEvent (code stall origin : Nat) (b : Bytes) : (s.sideEvent sd code stall origin b).books = s.books := by
  simp only [State.sideEvent, State.sideRecord]
  split
  · simp
  · split <;> split <;> simp

@[simp] theorem State.books_sideReport (code : Nat) (b : Bytes) : (s.sideReport sd code b).books = s.books := by
  simp [State.sideReport]

end Sys2Proof.Machine
end

section
/-! PROOFS. How a command is admitted, answered and settled (R393, R395, R398 to R406). -/

namespace Sys2Proof.Machine

open Claims

/-! ### Rights (R398 to R400) -/

section Rights

variable {s : State} {c : CmdSpec} {h : CmdHdr} {p : Bytes} (notInternal : h.transport ≠ .internal) (notBar0 : h.transport ≠ .bar0)

include notInternal notBar0

theorem State.barred_unknown (unknown : Tbl.find s.principals h.origin.toNat = none) : s.barred c h p = some .badAuth := by
  unfold State.barred
  split
  · contradiction
  · contradiction
  · simp only [unknown]

variable {pr : Principal} (known : Tbl.find s.principals h.origin.toNat = some pr)

include known

/-- A command without a least role is refused with NO_RIGHT in a packet. -/
theorem State.barred_noRole (noRole : c.role p = none) : s.barred c h p = some .noRight := by
  unfold State.barred
  split
  · contradiction
  · contradiction
  · simp only [known, noRole]
    cases roleOf (u8 pr.record 4) <;> rfl

variable {r least : CmdRole} (role : roleOf (u8 pr.record 4) = some r) (leastRole : c.role p = some least)

include role leastRole

/-- Role, scope, stall and subject are checked before the length. -/
theorem State.barred_known : s.barred c h p =
    if meets r least = true ∧ (u8 pr.record 5 = 255 ∨ u8 pr.record 5 = h.stall.toNat) ∧ (c.stall0 = true → h.stall.toNat = 0) ∧
        (h.stall.toNat ≠ 0 → c.owns s p h.stall.toNat = true) then
      if c.lenOk p then none else some .badLength
    else some .noRight := by
  unfold State.barred
  split
  · contradiction
  · contradiction
  · simp only [known, role, leastRole, Bool.not_eq_true', Bool.and_eq_true, bne_iff_ne]
    grind

end Rights

/-- Settles O26: the checks of a packet's principal, in their order. -/
theorem commandRights : Obligations.CommandRights := by
  unfold Obligations.CommandRights
  intro s c h p notInternal notBar0
  refine ⟨State.barred_unknown notInternal notBar0, ?_, fun pr known noRole => State.barred_noRole notInternal notBar0 known noRole⟩
  intro pr r least known role leastRole
  have checks := State.barred_known notInternal notBar0 known role leastRole
  refine ⟨?role, ?scope, ?zero, ?subject, ?length⟩
  case role =>
    intro below
    rw [checks, if_neg fun ⟨meets, _⟩ => by simp [below] at meets]
  case scope =>
    intro notAll notOwn
    rw [checks, if_neg fun ⟨_, scope, _⟩ => scope.elim notAll notOwn]
  case zero =>
    intro zero names
    rw [checks, if_neg fun ⟨_, _, free, _⟩ => names (free zero)]
  case subject =>
    intro names foreign
    rw [checks, if_neg fun ⟨_, _, _, owns⟩ => by simp [owns names] at foreign]
  case length =>
    intro role scope zero subject
    rw [checks, if_pos ⟨role, scope, zero, subject⟩]

/-- Settles O27: the table, which roles meet which, and what has no least role. -/
theorem leastRoles : Obligations.LeastRoles := by
  unfold Obligations.LeastRoles
  refine ⟨?table, ?observer, ?operator, ?engineer, ?manager, ?safety, ?updater, ?unlisted, fun s op p tick => ⟨rfl, rfl⟩⟩
  case table => exact fun p => ⟨rfl, rfl, rfl, rfl, rfl, rfl, rfl, rfl, rfl, rfl, rfl, rfl, rfl, rfl, rfl⟩
  case unlisted => exact fun s c h p pr notInternal notBar0 known noRole => State.barred_noRole notInternal notBar0 known noRole
  all_goals intro r; cases r <;> decide

/-- Settles O59: a step looks at the front of the queue only. -/
theorem stepRunsFront : Obligations.StepRunsFront := by
  unfold Obligations.StepRunsFront
  exact ⟨fun c l s front => by rw [step, front], fun s idle => by rw [step, idle]⟩

/-! ### Waiting for a later bell (R403) -/

section Admission

variable {s : State} {c : CmdSpec} {h : CmdHdr} {p : Bytes} (admitted : s.barred c h p = none)
  (awake : (isOutside h && s.deepTest h.side) = false)

include admitted awake

theorem State.submit_untimely {st : Status} (check : applyTickCheck s.now h.applyTick.toNat = some st) :
    s.submit c h p = (s.lateRefused c p st).turnAway h c.op st [] := by
  simp only [State.submit, State.take, admitted, awake, check, Bool.false_eq_true, if_false]

theorem State.submit_later (check : applyTickCheck s.now h.applyTick.toNat = none) (later : h.applyTick ≠ 0) :
    s.submit c h p = s.hold id c h p := by
  simp only [State.submit, State.take, admitted, awake, check, Bool.false_eq_true, if_false, if_neg later]

theorem State.submit_late (later : h.applyTick.toNat ≠ 0) (past : h.applyTick.toNat ≤ s.now) :
    s.submit c h p = (s.lateRefused c p .late).turnAway h c.op .late [] :=
  State.submit_untimely admitted awake (by simp [applyTickCheck, later, past])

theorem State.submit_far (far : s.now + 414720000 < h.applyTick.toNat) :
    s.submit c h p = (s.lateRefused c p .range).turnAway h c.op .range [] :=
  State.submit_untimely admitted awake (by rw [applyTickCheck, if_neg (by omega), if_neg (by omega), if_pos far])

/-- A command that the bell does not list waits on its side for a later tick where it passes its own checks (R403). -/
theorem State.submit_waits (later : s.now < h.applyTick.toNat) (near : h.applyTick.toNat ≤ s.now + 414720000)
    (unlisted : c.listed p = false) (passes : (c.run h p s).status = .ok) (room : (s.waitingOn h.side).length < 256) :
    s.submit c h p = s.enqueue c h p := by
  have check : applyTickCheck s.now h.applyTick.toNat = none := by
    rw [applyTickCheck, if_neg (by omega), if_neg (by omega), if_neg (by omega)]
  have named : h.applyTick ≠ 0 := fun zero => by simp [zero] at later
  have passed : s.passes id c h p = true := by simp [State.passes, CmdOut.executed, passes, Status.good]
  rw [State.submit_later admitted awake check named]
  simp [State.hold, passed, unlisted, Nat.not_le.2 room]

end Admission

theorem State.lateRefused_keeps (s : State) (c : CmdSpec) (p : Bytes) (st : Status) :
    (s.lateRefused c p st).waiting = s.waiting ∧ (s.lateRefused c p st).modShadow = s.modShadow := by
  unfold State.lateRefused
  split <;> exact ⟨rfl, rfl⟩

theorem State.enqueue_waiting (s : State) (c : CmdSpec) (h : CmdHdr) (p : Bytes) (later : h.applyTick.toNat ≠ 0) :
    (s.enqueue c h p).waiting = s.waiting ++ [{
      hdr := h, op := c.op, params := p, tick := h.applyTick.toNat,
      answered := decide (h.applyTick.toNat ≠ s.now + 1), listed := c.listed p }] := by
  have answered : (h.applyTick.toNat != 0 && h.applyTick.toNat != s.now + 1) = decide (h.applyTick.toNat ≠ s.now + 1) := by
    by_cases next : h.applyTick.toNat = s.now + 1 <;> simp [next, later]
  rw [← answered]
  simp only [State.enqueue]
  split
  · rw [State.waiting_of_books (State.books_reply _ h c.op .acceptedPending 0 [])]; rfl
  · rfl

/-- The record of a refused principal is a report. -/
theorem State.refusedPrincipal_keeps (s : State) (h : CmdHdr) (st : Status) :
    (s.refusedPrincipal h st).unreported = s.unreported ∧ (s.refusedPrincipal h st).books = s.books := by
  unfold State.refusedPrincipal
  split
  · exact ⟨State.unreported_sideEvent _ _ _ _ _ _, State.books_sideEvent _ _ _ _ _ _⟩
  · exact ⟨rfl, rfl⟩

/-- Settles O25: what becomes of a command, by the first check that it fails. -/
theorem commandAdmission : Obligations.CommandAdmission := by
  unfold Obligations.CommandAdmission
  intro s c h p
  refine ⟨s.submit_takes, ?barred, s.submit_deepTest c h p, ?late, ?far, ?waits⟩
  case barred =>
    intro st refused
    obtain ⟨rest, books⟩ := s.refusedPrincipal_keeps h st
    exact ⟨_, s.submit_refused c h p st refused, (congrArg State.modActive rest :), (congrArg State.modShadow rest :),
      (congrArg State.principals rest :), State.waiting_of_books books, (congrArg State.forces rest :)⟩
  case late =>
    intro admitted awake later past
    exact ⟨_, State.submit_late admitted awake later past, s.lateRefused_keeps c p .late⟩
  case far =>
    intro admitted awake far
    exact ⟨_, State.submit_far admitted awake far, s.lateRefused_keeps c p .range⟩
  case waits =>
    intro admitted awake later near unlisted passes room
    rw [State.submit_waits admitted awake later near unlisted passes room, s.enqueue_waiting c h p (Nat.ne_zero_of_lt later), unlisted]

/-! ### A reply is one packet (R393, R394) -/

theorem ShaKind.round_length (f : ShaKind) (i : Nat) {x : List Nat × List Nat} (h : x.1.length = 8) : (f.round i x).1.length = 8 := by
  unfold ShaKind.round
  split
  · rfl
  · exact h

theorem foldl_invariant {α β : Type} (P : β → Prop) {f : β → α → β} (h : ∀ b a, P b → P (f b a)) (l : List α) {b : β} (hb : P b) :
    P (l.foldl f b) := by
  induction l generalizing b with
  | nil => exact hb
  | cons a l ih => exact ih (h b a hb)

/-- A hash is as long as the chaining value of 8 words. -/
theorem ShaKind.hash_length (f : ShaKind) {first : List Nat} (m : Bytes) (h : first.length = 8) :
    (f.hash first m).length = 8 * (f.bits / 8) := by
  have absorbed : ∀ (chain : List Nat) (block : Bytes), chain.length = 8 → (f.absorb chain block).length = 8 := by
    intro chain block eight
    have mixed := foldl_invariant (fun x : List Nat × List Nat => x.1.length = 8) (fun x i => f.round_length i) (upto f.rounds)
      (b := (chain, (pieces (f.bits / 8) block).map beNat)) eight
    simp only [ShaKind.absorb, List.length_zipWith, eight, mixed, Nat.min_self]
  simp only [ShaKind.hash, List.length_flatMap, beBytes_length, List.map_const', List.sum_replicate, smul_eq_mul]
  rw [foldl_invariant (fun x : List Nat => x.length = 8) absorbed _ h]

theorem tagOf_length (key body : Bytes) : (tagOf key body).length = 16 := by
  have hash : (hmacSha256 key body).length = 32 := sha32.hash_length _ rfl
  simp [tagOf, hash]

section SignedPacket

variable {key : Bytes} {stall side origin seq op code apply : Nat} {params packet : Bytes}
  (hp : packet = signedPacket key 1 stall side origin seq op code apply params)

include hp

theorem signedPacket_length : packet.length = 48 + params.length := by
  subst hp
  simp only [signedPacket, packetBody, zeros, List.length_append, beBytes_length, List.length_replicate, tagOf_length]
  omega

theorem signedPacket_head : packet.take 8 = [0x4B, 0x56, 1, 1] ++ beBytes 2 packet.length ++ beBytes 1 stall ++ beBytes 1 side ∧
    (packet.drop 8).take 8 = beBytes 4 origin ++ beBytes 4 seq ∧
    (packet.drop 16).take 12 = beBytes 2 op ++ beBytes 2 code ++ beBytes 8 apply := by
  rw [signedPacket_length hp]
  subst hp
  exact ⟨rfl, rfl, rfl⟩

theorem signedPacket_params : (packet.drop 28).take (packet.length - 44) = zeros 4 ++ params := by
  have whole : packet.drop 28 = (zeros 4 ++ params) ++ tagOf key (packetBody 1 (48 + params.length) stall side origin seq op code apply params) := by
    subst hp; rfl
  have size : packet.length - 44 = (zeros 4 ++ params).length := by
    rw [signedPacket_length hp, List.length_append, zeros, List.length_replicate]; omega
  rw [whole, size, List.take_left]

theorem signedPacket_tag :
    packet.drop (packet.length - 16) = (hmacSha256 key (packet.take (packet.length - 16))).take 16 := by
  have whole : packet = packetBody 1 (48 + params.length) stall side origin seq op code apply params ++
      tagOf key (packetBody 1 (48 + params.length) stall side origin seq op code apply params) := hp
  have size : packet.length - 16 = (packetBody 1 (48 + params.length) stall side origin seq op code apply params).length := by
    rw [whole, List.length_append, tagOf_length, Nat.add_sub_cancel]
  rw [size, whole, List.drop_left, List.take_left]
  rfl

end SignedPacket

/-- Settles O28: the packet is the signed packet of the reply's fields, and its transport carries it. -/
theorem replyPacket : Obligations.ReplyPacket := by
  unfold Obligations.ReplyPacket
  intro s key h op st apply body
  have fitted : (if decide (48 + body.length ≤ replyLimit h) then body else []) = if 48 + body.length ≤ replyLimit h then body else [] := by
    simp
  have coded : (if decide (48 + body.length ≤ replyLimit h) then st.code else Status.badLength.code) =
      if 48 + body.length ≤ replyLimit h then st.code else Status.badLength.code := by simp
  obtain ⟨packet, hp⟩ : ∃ packet, packet = signedPacket key 1 h.stall.toNat h.side.code h.origin.toNat h.seq.toNat op
      (if 48 + body.length ≤ replyLimit h then st.code else Status.badLength.code) apply
      (if 48 + body.length ≤ replyLimit h then body else []) := ⟨_, rfl⟩
  have sent : s.replyKey (some key) h op st apply body = s.answerWith h packet := by
    rw [hp, ← fitted, ← coded]; rfl
  obtain ⟨head, numbers, fields⟩ := signedPacket_head hp
  refine ⟨packet, ?console, ?udp, ?lost, head, numbers, fields, signedPacket_params hp, signedPacket_tag hp⟩
  case console =>
    intro ht
    rw [sent, State.answerWith, ht]
    rfl
  case udp =>
    intro a ht
    rw [sent, State.answerWith, ht]
    rfl
  case lost =>
    intro n ht lost
    rw [sent, State.answerWith, ht]
    simp [lost]

/-! ### What follows an effect (R404, R406, R422, R324) -/

section Settling

variable (s : State) (sd : SideId)

theorem State.unreported_settleRing {r : Nat} (h : r < 64) : (s.settleRing sd r).unreported = s.unreported := by
  simp only [State.settleRing]
  split
  · split
    · exact s.unreported_skipShort sd _ _ h
    · split
      · exact s.unreported_skipShort sd _ _ h
      · rfl
  · rfl

theorem State.unreported_drainFlight {r : Nat} (n : Nat) (h : r < 64) : (s.drainFlight sd r n).unreported = s.unreported := by
  induction n generalizing s with
  | zero => rfl
  | succ n ih =>
    simp only [State.drainFlight]
    split
    · rw [ih, State.unreported_completeHead _ _ _ _ h, State.unreported_movedBytes, State.hostWrite, State.unreported_emit,
        State.unreported_putRing]
    · rfl

theorem State.unreported_answerWith (h : CmdHdr) (packet : Bytes) : (s.answerWith h packet).unreported = s.unreported := by
  simp only [State.answerWith]
  split
  · rfl
  · rfl
  · split
    · rw [State.mailboxReply, State.unreported_settleRing _ _ h.ring.isLt, State.unreported_drainFlight _ _ _ h.ring.isLt,
        State.unreported_putRing, State.unreported_emit]
    · rfl
  · rw [State.unreported_emit, State.unreported_netTx]
  · rfl

theorem State.unreported_replyKey (k : Option Bytes) (h : CmdHdr) (op : Nat) (st : Status) (t : Nat) (b : Bytes) :
    (s.replyKey k h op st t b).unreported = s.unreported := s.unreported_answerWith h _

theorem State.changeRecord_keeps (c : CmdSpec) (h : CmdHdr) (p : Bytes) (st : Status) (queued : Bool) :
    (s.changeRecord c h p st queued).unreported = s.unreported ∧ (s.changeRecord c h p st queued).books = s.books := by
  unfold State.changeRecord
  split
  · exact ⟨rfl, rfl⟩
  · split
    · split
      · exact ⟨rfl, rfl⟩
      · split <;> exact ⟨rfl, rfl⟩
    · split
      · exact ⟨s.unreported_sideEvent _ _ _ _ _, s.books_sideEvent _ _ _ _ _⟩
      · exact ⟨rfl, rfl⟩

/-- The state without what reports change and without the validations in progress. -/
def State.settledRest (s : State) : State := { s.unreported with validations := [] }

/-- Only records, outcomes, answers and their counters tell the two states apart, and the validations in progress. -/
def State.Settles (t u : State) : Prop := u.settledRest = t.settledRest ∧ u.waiting = t.waiting

theorem State.Settles.of_report {s t u : State} (h : s.Settles t) (rest : u.unreported = t.unreported) (books : u.books = t.books) :
    s.Settles u := by
  obtain ⟨settled, waits⟩ := h
  refine ⟨?_, (State.waiting_of_books books).trans waits⟩
  rw [← settled, State.settledRest, rest, State.settledRest]

/-- A write that breaks validations ends them, each with an outcome and a notification (R422). -/
theorem State.abandonValidations_settles : s.Settles s.abandonValidations := by
  refine foldl_invariant (s.Settles ·) (fun t e settles => ?_) s.validations ⟨rfl, rfl⟩
  obtain ⟨rest, waits⟩ := settles
  split
  · have ended : s.Settles (({ t with validations := Tbl.del t.validations e.1 } : State).noteOutcome e.2.hdr .conflict t.now) := ⟨rest, waits⟩
    exact ended.of_report (State.unreported_crierFinal _ _ _ _ _) (State.books_crierFinal _ _ _ _ _)
  · exact ⟨rest, waits⟩

theorem State.abandonValidations_whole (whole : ∀ e ∈ s.validations, e.2.broken = false) : s.abandonValidations = s := by
  have kept : ∀ l : Tbl Validation, (∀ e ∈ l, e.2.broken = false) → ∀ t : State, l.foldl (fun t e => if e.2.broken then
      (({ t with validations := Tbl.del t.validations e.1 }).noteOutcome e.2.hdr .conflict t.now).crierFinal e.2.hdr.side e.2.hdr .conflict []
    else t) t = t := by
    intro l
    induction l with
    | nil => exact fun _ t => rfl
    | cons e l ih =>
      intro whole t
      rw [List.foldl_cons, whole e (List.mem_cons_self ..)]
      exact ih (fun e he => whole e (List.mem_cons_of_mem _ he)) t
  exact kept s.validations whole s

variable {t u : State}

theorem State.settled_settles (c : CmdSpec) (h : CmdHdr) (p : Bytes) (st : Status) (body : Bytes) :
    t.Settles (Claims.settled s c h p t st body) := by
  obtain ⟨rest, books⟩ := t.abandonValidations.changeRecord_keeps c h p st false
  have recorded := t.abandonValidations_settles.of_report rest books
  have noted : t.Settles ((t.abandonValidations.changeRecord c h p st false).noteOutcome h st s.now) := recorded
  exact noted.of_report (State.unreported_replyKey _ _ _ _ _ _ _) (State.books_replyKey _ _ _ _ _ _ _)

/-- A side with what reports change in it taken from another. -/
def Side.reportsOf (x y : Side) : Side :=
  { x with rings := y.rings, sideArea := y.sideArea, sideQueue := y.sideQueue, sideBuckets := y.sideBuckets, msix := y.msix
           sideDrops := y.sideDrops, crierSeq := y.crierSeq, crierSent := y.crierSent, sw := { x.sw with rct := y.sw.rct } }

/-- A state with what reports change, and the validations, taken from another. -/
def State.reportsOf (s t : State) : State :=
  { s with regs := t.regs, sideA := t.sideA, sideB := t.sideB, ledgerPend := t.ledgerPend, outcomes := t.outcomes
           out := t.out, validations := t.validations, freeCount := t.freeCount }

theorem State.Settles.frame (h : t.Settles u) : u = t.reportsOf u := by
  obtain ⟨rest, waits⟩ := h
  calc u = ({ u.settledRest with waiting := u.waiting } : State).reportsOf u := rfl
    _ = ({ t.settledRest with waiting := t.waiting } : State).reportsOf u := by rw [rest, waits]
    _ = t.reportsOf u := rfl

theorem State.Settles.side (h : t.Settles u) (sd : SideId) : u.side sd = (t.side sd).reportsOf (u.side sd) := by
  obtain ⟨rest, -⟩ := h
  have sides : (u.side sd).unreported = (t.side sd).unreported := by
    cases sd
    · exact (congrArg State.sideA rest :)
    · exact (congrArg State.sideB rest :)
  calc u.side sd = (u.side sd).unreported.reportsOf (u.side sd) := rfl
    _ = (t.side sd).unreported.reportsOf (u.side sd) := by rw [sides]
    _ = (t.side sd).reportsOf (u.side sd) := rfl

/-- The outcome of the sequence number is the last that is kept for its principal, of at most 64. -/
theorem State.noteOutcome_shows (h : CmdHdr) (st : Status) (tick : Nat) :
    (Tbl.getD (s.noteOutcome h st tick).outcomes h.origin.toNat []).getLast? = some ⟨h.seq.toNat, st, tick⟩ ∧
      (Tbl.getD (s.noteOutcome h st tick).outcomes h.origin.toNat []).length ≤ 64 := by
  simp only [State.noteOutcome, Tbl.getD_put_same]
  constructor
  · rw [List.getLast?_drop, if_neg (by simp only [List.length_append, List.length_singleton]; omega), List.getLast?_concat]
  · rw [List.length_drop]; omega

theorem State.settled_outcomes (c : CmdSpec) (h : CmdHdr) (p : Bytes) (st : Status) (body : Bytes) :
    (Claims.settled s c h p t st body).outcomes =
      ((t.abandonValidations.changeRecord c h p st false).noteOutcome h st s.now).outcomes :=
  State.outcomes_of_books (State.books_replyKey _ _ _ _ _ _ _)

theorem State.settled_validations (c : CmdSpec) (h : CmdHdr) (p : Bytes) (st : Status) (body : Bytes)
    (whole : ∀ e ∈ t.validations, e.2.broken = false) : (Claims.settled s c h p t st body).validations = t.validations := by
  have answered : (Claims.settled s c h p t st body).validations = (t.abandonValidations.changeRecord c h p st false).validations :=
    (congrArg State.validations (State.unreported_replyKey _ _ _ _ _ _ _) :)
  obtain ⟨rest, -⟩ := t.abandonValidations.changeRecord_keeps c h p st false
  have recorded : (t.abandonValidations.changeRecord c h p st false).validations = t.abandonValidations.validations :=
    (congrArg State.validations rest :)
  rw [answered, recorded, t.abandonValidations_whole whole]

end Settling

/-- Settles O29: each part of what follows an effect is a report, an outcome or the end of a validation. -/
theorem settlingFrame : Obligations.SettlingFrame := by
  unfold Obligations.SettlingFrame
  intro s t c h p st body u hu
  have settles : t.Settles u := hu ▸ s.settled_settles c h p st body
  obtain ⟨last, few⟩ := State.noteOutcome_shows (t.abandonValidations.changeRecord c h p st false) h st s.now
  have outcomes := hu ▸ s.settled_outcomes (t := t) c h p st body
  refine ⟨settles.frame, settles.side, ?_, ?_, ?_⟩
  · exact ⟨_, outcomes ▸ last, rfl, rfl, rfl⟩
  · rw [outcomes]; exact few
  · intro whole
    rw [hu, s.settled_validations c h p st body whole]

/-- STALL_STATE resets to 1 for stalls 0 and 63, which are Created from the start (R178, R502). -/
theorem reset_stallState_zero : State.reset.stallState 0 = stCreated := by decide

/-- Refutes O60: it says that every stall reads state 0 at reset, and stall 0 reads 1, Created, as its register resets. -/
theorem not_resetState : ¬ Obligations.ResetState := by
  unfold Obligations.ResetState
  rintro ⟨_, _, _, _, _, stalls, _⟩
  have created := reset_stallState_zero
  rw [stalls 0] at created
  exact absurd created (by decide)

end Sys2Proof.Machine
end

section
/-! PROOFS. The session commands and the register commands (R396, R406, R408, R412 to R415, R499). -/

namespace Sys2Proof.Machine

open Claims

/-! ### Identity, outcomes and principals (R396, R406, R412, R499) -/

section SessionRuns

variable {s : State} {h : CmdHdr} {p : Bytes}

/-- The identity that a side shows: the module's, and the image that it runs (R412, R430). -/
def State.identity (s : State) (sd : SideId) : Bytes :=
  beBytes 4 (0x96100000 + Config.hwRev.toNat * 256) ++ beBytes 8 Config.serial.toNat
    ++ beBytes 4 (u24 (s.side sd).image 8 * 256) ++ beBytes 4 (65536 + u16 (s.side sd).image 12)

/-- IDENTIFY answers for both sides where the other one is not Out (R393). -/
theorem run_identify_both (other : (s.side h.side.other).role ≠ .out) : specIdentify.run h p s =
    done s (s.identity .A ++ s.identity .B ++ beBytes 1 (s.side h.side).role.code ++ zeros 3) := by
  have serves : ∀ sd, ¬(sd ≠ h.side ∧ (s.side sd).role = .out) := by
    rintro sd ⟨apart, out⟩
    have : sd = h.side.other := by cases sd <;> cases hs : h.side <;> simp_all [SideId.other]
    exact other (this ▸ out)
  have status : bothSides.any (fun sd => sd != h.side && (s.side sd).role == .out) = false := by
    rw [List.any_eq_false]
    intro sd _
    simpa using serves sd
  have shift : ∀ n : Nat, at_ 0x9610 16 + at_ n 8 = 0x96100000 + n * 256 := fun n => by unfold at_; omega
  have module : moduleIdentWord = 0x96100000 + Config.hwRev.toNat * 256 := shift _
  have proto : ∀ sd, s.protoVersionWord sd = 65536 + u16 (s.side sd).image 12 := fun sd => by unfold State.protoVersionWord at_; omega
  change cmdIdentify h p s = _
  simp only [cmdIdentify, if_neg (serves _), status, module, proto, Bool.false_eq_true, if_false]
  rfl

theorem run_cmdOutcome_kept {o : CmdResult} (kept : (Tbl.getD s.outcomes h.origin.toNat []).find? (fun x => x.seq == u32 p 0) = some o) :
    specCmdOutcome.run h p s = done s (beBytes 4 o.seq ++ beBytes 2 o.status.code ++ zeros 2 ++ beBytes 8 (if o.status.good then o.tick else 0)) := by
  change cmdCmdOutcome h p s = _
  simp only [cmdCmdOutcome, kept]

theorem run_cmdOutcome_none (none : (Tbl.getD s.outcomes h.origin.toNat []).find? (fun x => x.seq == u32 p 0) = none) :
    specCmdOutcome.run h p s = refuse s .range := by
  change cmdCmdOutcome h p s = _
  simp only [cmdCmdOutcome, none]

section OriginSet

/-- The principal that a record makes: a record with the same key slot keeps its replay window (R396). -/
def State.principalOf (s : State) (p : Bytes) : Principal := match Tbl.find s.principals (u32 p 0) with
  | some old => if u8 old.record 6 = u8 p 6 then { old with record := p } else ⟨p, 0, 0, 0, 0⟩
  | none => ⟨p, 0, 0, 0, 0⟩

variable {t : Tbl Principal} (ht : t = Tbl.put s.principals (u32 p 0) (s.principalOf p)) (range : s.principalRange p = true)

include ht range

theorem run_originSet_inRange : specOriginSet.run h p s =
    if managed t then (if 256 < t.length then refuse s .noResource else done { s with principals := t } []) else refuse s .conflict := by
  subst ht
  have swap : ∀ (b : Bool) (x y : CmdOut), (if !b then y else x) = if b then x else y := fun b x y => by cases b <;> rfl
  rw [← swap]
  exact if_neg (by rw [range]; decide)

end OriginSet

theorem run_originDelete_known (known : Tbl.has s.principals (u32 p 0) = true) : specOriginDelete.run h p s =
    if managed (Tbl.del s.principals (u32 p 0)) then done { s with principals := Tbl.del s.principals (u32 p 0) } []
    else refuse s .conflict := by
  change cmdOriginDelete h p s = _
  cases hm : managed (Tbl.del s.principals (u32 p 0)) <;> simp [cmdOriginDelete, known, hm]

theorem run_originRead_inRange (least : 1 ≤ u8 p 1) (most : u8 p 1 ≤ 31) : specOriginRead.run h p s =
    done s (listed h ((((Tbl.vals s.principals).map (·.record)).drop (u8 p 0)).take (u8 p 1))) := by
  have inRange : ¬(u8 p 1 = 0 ∨ 31 < u8 p 1) := by omega
  change cmdOriginRead h p s = _
  simp only [cmdOriginRead, if_neg inRange, List.flatMap_id, listed]

/-- The Crier's note of the module itself to a principal that it covers (R408, R409). -/
theorem exec_crierNote_covers {code : BitVec 16} {seq : DWord} {body : Bytes} {pr : Principal} (own : h.transport = .internal)
    (known : Tbl.find s.principals h.origin.toNat = some pr) (covers : crierCovers pr h.stall.toNat = true) :
    exec (.crierNote h code seq body) s = .next (s.notifyOne h.side h.origin.toNat h.stall.toNat pr false
      (noteBody code.toNat (if seq = 0 then 255 else 0) (s.rd (Rg.resetCause h.side) Fd.resetCauseBootCount % 256) seq.toNat 0 0
        (body.take 256))) := by
  change execCrierNote h code seq body s = _
  simp only [execCrierNote, own, known, covers, if_true]

end SessionRuns

/-- Settles O30: each row executes its command, which answers and does what it says wherever its conditions hold. -/
theorem sessionCommands : Obligations.SessionCommands := by
  unfold Obligations.SessionCommands
  refine ⟨?identify, ?echo, ?outcome, ?noOutcome, ?originSet, ?originDelete, ?unmanaged, ?originRead, ?status, ?note⟩
  case identify =>
    rintro id rfl
    exact does_of_run (fun _ _ _ => rfl) fun s h p other => run_identify_both other
  case echo => exact does_of_run (fun _ _ _ => rfl) fun s h p _ => rfl
  case outcome => exact fun o => does_of_run (fun _ _ _ => rfl) fun s h p kept => run_cmdOutcome_kept kept
  case noOutcome => exact refuses_of_run (fun _ _ _ => rfl) fun s h p none => run_cmdOutcome_none none
  case originSet =>
    rintro new rfl
    constructor
    · refine does_of_run (fun _ _ _ => rfl) fun s h p ⟨range, manages, room⟩ => ?_
      refine (run_originSet_inRange rfl range).trans ?_
      exact (if_pos manages).trans (if_neg (Nat.not_lt.2 room))
    · refine refuses_of_run (fun _ _ _ => rfl) fun s h p ⟨range, unmanaged⟩ => ?_
      exact (run_originSet_inRange rfl range).trans (if_neg (Bool.not_eq_true _ ▸ unmanaged))
  case originDelete =>
    refine does_of_run (fun _ _ _ => rfl) fun s h p ⟨known, manages⟩ => ?_
    rw [run_originDelete_known known, if_pos manages]; rfl
  case unmanaged =>
    refine refuses_of_run (fun _ _ _ => rfl) fun s h p ⟨known, unmanaged⟩ => ?_
    rw [run_originDelete_known known, if_neg (Bool.not_eq_true _ ▸ unmanaged)]
  case originRead => exact does_of_run (fun _ _ _ => rfl) fun s h p ⟨least, most⟩ => run_originRead_inRange least most
  case status => exact does_of_run (fun _ _ _ => rfl) fun s h p _ => rfl
  case note => exact fun s h code seq body pr own known covers => exec_crierNote_covers own known covers

/-! ### Registers by command (R413 to R415) -/

section RegisterRuns

variable {s : State} {h : CmdHdr} {p : Bytes}

section Ranges

variable (least : 1 ≤ u8 p 5) (most : u8 p 5 ≤ 126)

include least most

theorem run_regRead_refused {st : Status} (check : s.readCheck h.side (u32 p 0) (u8 p 4) (u8 p 5) = some st) :
    specRegRead.run h p s = refuse s st := by
  have inRange : ¬(u8 p 5 = 0 ∨ 126 < u8 p 5) := by omega
  change cmdRegRead h p s = _
  simp only [cmdRegRead, if_neg inRange, check]

/-- REG_READ reads as many values as its reply holds, and makes a record where a read changes something (R324, R395). -/
theorem run_regRead_checked {n : Nat} {r : State × List Nat} (check : s.readCheck h.side (u32 p 0) (u8 p 4) (u8 p 5) = none)
    (hn : n = min (u8 p 5) ((replyLimit h - 56) / u8 p 4)) (hr : r = s.readMany 0 (u32 p 0) (u8 p 4) n) :
    specRegRead.run h p s = done
      (if ∃ i < n, ∃ a ∈ wordsOf (u32 p 0 + u8 p 4 * i) (u8 p 4), s.readChanges a = true then
        r.1.sideEvent h.side lcSideChange h.stall.toNat h.origin.toNat (changeBody 0x0100 0 h.seq.toNat p) else r.1)
      (beBytes 4 (u32 p 0) ++ beBytes 1 (u8 p 4) ++ beBytes 1 n ++ zeros 2 ++ r.2.flatMap fun v => beBytes (u8 p 4) v) := by
  have inRange : ¬(u8 p 5 = 0 ∨ 126 < u8 p 5) := by omega
  have changes : (((upto n).flatMap fun i => wordsOf (u32 p 0 + u8 p 4 * i) (u8 p 4)).any s.readChanges = true) =
      ∃ i < n, ∃ a ∈ wordsOf (u32 p 0 + u8 p 4 * i) (u8 p 4), s.readChanges a = true := by
    simp [upto, List.any_flatMap, List.any_eq_true]
  subst hn hr
  change cmdRegRead h p s = _
  simp only [cmdRegRead, if_neg inRange, check, changes]

theorem run_regWrite_refused {st : Status}
    (check : s.writeCheck h.side (h.transport != .bar0) (u32 p 0) (u8 p 4) (u8 p 5) = some st) :
    specRegWrite.run h p s = refuse s st := by
  have inRange : ¬(u8 p 5 = 0 ∨ 126 < u8 p 5) := by omega
  change cmdRegWrite h p s = _
  simp only [cmdRegWrite, if_neg inRange, check]

theorem run_regWrite_checked (check : s.writeCheck h.side (h.transport != .bar0) (u32 p 0) (u8 p 4) (u8 p 5) = none) :
    specRegWrite.run h p s = done ((List.range (u8 p 5)).foldl
      (fun t i => t.writeAccess (u32 p 0 + u8 p 4 * i) (u8 p 4) (beNat (sub p (8 + u8 p 4 * i) (u8 p 4))) h.origin.toNat) s) [] := by
  have inRange : ¬(u8 p 5 = 0 ∨ 126 < u8 p 5) := by omega
  change cmdRegWrite h p s = _
  simp only [cmdRegWrite, if_neg inRange, check, upto]

end Ranges

/-- REG_MODIFY writes the masked bits of a word when all of them lie in RW fields (R414). -/
theorem run_regModify_checked {sel : Access → Bool} {q : Place} (rw : ∀ a, sel a = true ↔ a = .rw)
    (shape : shapeCheck (u32 p 0) 4 1 = none) (place : placeOf (u32 p 0) = some q) (reach : s.reachCheck h.side q = none)
    (apart : arbiterBlock (u32 p 0) = false) (writable : hasAccess q.desc isWritable = true)
    (masked : u32 p 4 &&& (q.desc.mask sel / 2 ^ (32 * q.word) % 2 ^ 32) = u32 p 4) :
    specRegModify.run h p s = done (s.writeWord (u32 p 0) (u32 p 8 &&& u32 p 4) (u32 p 4) h.origin.toNat) [] := by
  have selects : (fun c : Access => match c with | .rw => true | _ => false) = sel := by
    funext a
    have := rw a
    cases a <;> cases hs : sel _ <;> simp_all
  change cmdRegModify h p s = _
  simp only [cmdRegModify, shape, place, reach, apart, writable, Bool.not_true, Bool.false_eq_true, if_false]
  exact if_neg (not_not_intro ((congrArg (fun f => u32 p 4 &&& (q.desc.mask f / 2 ^ (32 * q.word) % 2 ^ 32)) selects).trans masked))

end RegisterRuns

/-- Settles O31: each row executes its command after all its checks; the first that fails refuses the whole. -/
theorem registerCommands : Obligations.RegisterCommands := by
  unfold Obligations.RegisterCommands
  refine ⟨?read, ?write, ?modify, ?readRefused, ?writeRefused⟩
  case read =>
    exact does_of_run (fun _ _ _ => rfl) fun s h p ⟨least, most, check⟩ => run_regRead_checked least most check rfl rfl
  case write => exact does_of_run (fun _ _ _ => rfl) fun s h p ⟨least, most, check⟩ => run_regWrite_checked least most check
  case modify =>
    refine fun sel rw => does_of_run (fun _ _ _ => rfl) fun s h p ⟨shape, q, place, reach, apart, writable, masked⟩ => ?_
    exact run_regModify_checked rw shape place reach apart writable masked
  case readRefused =>
    intro s h p st takes least most check
    exact refuses_of_run (ok := fun s h p => 1 ≤ u8 p 5 ∧ u8 p 5 ≤ 126 ∧ s.readCheck h.side (u32 p 0) (u8 p 4) (u8 p 5) = some st)
      (fun _ _ _ => rfl) (fun s h p ⟨least, most, check⟩ => run_regRead_refused least most check) s h p takes ⟨least, most, check⟩
  case writeRefused =>
    intro s h p st takes least most check
    exact refuses_of_run (ok := fun s h p => 1 ≤ u8 p 5 ∧ u8 p 5 ≤ 126 ∧
        s.writeCheck h.side (h.transport != .bar0) (u32 p 0) (u8 p 4) (u8 p 5) = some st)
      (fun _ _ _ => rfl) (fun s h p ⟨least, most, check⟩ => run_regWrite_refused least most check) s h p takes ⟨least, most, check⟩

end Sys2Proof.Machine
end

section
/-! PROOFS. Reads of the units (R333, R362, R376, R441, R455, R471, R498): what each command answers where its conditions hold, and
that it leaves the state as it was. -/

namespace Sys2Proof.Machine

open Claims

section UnitReads

variable {s : State} {h : CmdHdr} {p : Bytes}

/-! ### Field channels, telegrams and the safety table (R333, R362) -/

theorem run_fioReadChannel_active (least : 1 ≤ u8 p 0) (most : u8 p 0 ≤ 32) (active : u8 p 1 = 0) :
    specFioReadChannel.run h p s = done s (s.fioRec (u8 p 0)) :=
  (if_neg (by omega)).trans (if_pos active)

theorem run_fioReadImage_kept {img : Bytes} (kept : s.imageOf (u64 p 0) = some img) : specFioReadImage.run h p s = done s img := by
  change cmdFioReadImage h p s = _
  simp only [cmdFioReadImage, kept]

theorem run_teleStatus_inRange (ok : okRange (u8 p 0) (u8 p 1) 64 63 = true) :
    specTeleStatus.run h p s = done s (listed h ((List.range (u8 p 1)).map fun k => beBytes 8 (s.teleSealedWord (u8 p 0 + k)) ++
      [SideId.A, .B].flatMap fun sd => beBytes 4 (s.regWord (Rg.teleErrs sd (u8 p 0 + k))))) := by
  change cmdTeleStatus h p s = _
  simp only [cmdTeleStatus, ok, Bool.not_true, Bool.false_eq_true, if_false, List.flatMap_id, listed, upto, bothSides]

theorem run_safeReadTable_inRange {t : Bytes} (ht : t = if u8 p 0 = 0 then s.safeActive else s.safeShadow) (set : u8 p 0 ≤ 1)
    (least : 1 ≤ u16 p 5) (most : u16 p 5 ≤ 1000) (held : u32 p 1 + u16 p 5 ≤ t.length) (used : u32 p 1 + u16 p 5 ≤ u32 t 12) :
    specSafeReadTable.run h p s = done s (sub t (u32 p 1) (u16 p 5)) := by
  subst ht
  refine if_neg ?_
  rw [not_or, not_or, not_or]
  exact ⟨by omega, by omega, by omega, Nat.not_lt.2 (Nat.le_min.2 ⟨used, held⟩)⟩

/-! ### CAN and the Ledger (R333, R376) -/

theorem run_canStatus : specCanStatus.run h p s = done s (listed h ([SideId.A, .B].flatMap fun sd =>
    [beBytes 4 (s.regWord (Rg.canStatus sd)), beBytes 4 (s.canRxqWord sd)] ++ (List.range 64).map fun b => beBytes 4 (s.mbStatusWord sd b))) := by
  change cmdCanStatus h p s = _
  simp only [cmdCanStatus, List.flatMap_id, listed, upto, bothSides]

theorem run_ledgerCodes_inRange (least : 1 ≤ u16 p 2) (most : u16 p 2 ≤ 256) (range : u16 p 0 + u16 p 2 ≤ 4096) :
    specLedgerCodes.run h p s = done s (listed h ((List.range (u16 p 2)).map fun k =>
      codeName (u16 p 0 + k) ++ beBytes 1 (b2n (decide (0x0400 ≤ u16 p 0 + k ∧ u16 p 0 + k ≤ 0x07FF)))
        ++ beBytes 2 (s.codeRate (u16 p 0 + k)).1 ++ beBytes 1 (s.codeRate (u16 p 0 + k)).2
        ++ [SideId.A, .B].flatMap fun sd => beBytes 4 (s.regWord (Rg.ledgerCodeDrop sd (u16 p 0 + k))))) := by
  have inRange : ¬(u16 p 2 = 0 ∨ 256 < u16 p 2 ∨ 4096 < u16 p 0 + u16 p 2) := by omega
  change cmdLedgerCodes h p s = _
  simp only [cmdLedgerCodes, if_neg inRange, List.flatMap_id, listed, upto, bothSides]

/-- The records of an area that a READ_RECORDS asks for: from a SEQ up, of a stall, of the sender's stall (R332). -/
def State.recordsAsked (s : State) (h : CmdHdr) (p : Bytes) : List LRec :=
  (s.areaRecords h.side (u8 p 0)).filter fun r => decide (u64 p 2 ≤ r.seq) && (u8 p 1 == 255 || r.stall == u8 p 1)
    && (h.stall == 0 || r.stall == h.stall.toNat)

/-- The SEQ that follows the records of a list. -/
def seqAfter (l : List LRec) (from_ : Nat) : Nat := match l.getLast? with
  | some r => r.seq + 1
  | none => from_

theorem run_readRecords_found {out : List LRec} (ho : out = takeRecords (u16 p 10) (min 8192 (replyLimit h - 57)) (s.recordsAsked h p))
    (area : u8 p 0 ≤ 1) (filter : u8 p 1 ≤ 63 ∨ u8 p 1 = 255) (least : 1 ≤ u16 p 10) (most : u16 p 10 ≤ 255)
    (found : s.recordsAsked h p ≠ []) :
    specReadRecords.run h p s = done s (out.flatMap LRec.bytes ++ beBytes 8 (seqAfter out (u64 p 2))
      ++ beBytes 1 (b2n (decide (1 ≤ u64 p 2) && decide (u64 p 2 < s.nextSeq h.side (u8 p 0)) &&
        !((s.areaRecords h.side (u8 p 0)).any fun r => r.seq == u64 p 2)))) := by
  have inRange : ¬(1 < u8 p 0 ∨ (63 < u8 p 1 ∧ u8 p 1 ≠ 255) ∨ u16 p 10 = 0 ∨ 255 < u16 p 10) := by omega
  subst ho
  change cmdReadRecords h p s = _
  simp only [cmdReadRecords, if_neg inRange]
  split
  · next none => exact absurd none found
  · rfl

/-! ### The switch and time (R255 to R298) -/

theorem run_timePortStatus_inRange (ok : portArgs p = true) : specTimePortStatus.run h p s = done s
    (beBytes 1 (s.portState (sideArg p 0) (u8 p 1)) ++ beBytes 6 (Config.pathDelay (sideArg p 0) (u8 p 1) s.now).toNat
      ++ beBytes 4 (ofSigned 32 (satSigned 32 (Tbl.getD (s.side (sideArg p 0)).time.portTheta (u8 p 1) 0)))
      ++ s.portAsym (sideArg p 0) (u8 p 1) ++ beBytes 4 (s.txtsStatusWord (sideArg p 0) (u8 p 1 - 1))) := by
  change cmdTimePortStatus h p s = _
  simp only [cmdTimePortStatus, ok, Bool.not_true, Bool.false_eq_true, if_false]

/-- The records that a block of the switch core has room for on a side: of ports and of gates, of the address table, of queues. -/
def swBlockSize (kind : Nat) : Nat := match kind with
  | 1 => 8192
  | 3 => 128
  | _ => 16

theorem swBlockSize_eq (kind : Nat) : swBlockSize kind = if kind = 1 then 8192 else if kind = 3 then 128 else 16 := by
  unfold swBlockSize
  split <;> simp_all

/-- The records that a SW_READ_CONFIG asks for. -/
def State.swRecordsAsked (s : State) (p : Bytes) : List Bytes :=
  ((List.range (u16 p 5)).filter fun k => decide (u16 p 3 + k < swBlockSize (u8 p 1))).filterMap fun k =>
    (if u8 p 0 = 0 then s.modActive else s.modShadow).get (0x09 + u8 p 1) (u8 p 2 * swBlockSize (u8 p 1) + u16 p 3 + k)

theorem run_swReadConfig_found (set : u8 p 0 ≤ 1) (kind : u8 p 1 ≤ 3) (side : u8 p 2 ≤ 1) (least : 1 ≤ u16 p 5) (most : u16 p 5 ≤ 60)
    (found : s.swRecordsAsked p ≠ []) : specSwReadConfig.run h p s = done s (listed h (s.swRecordsAsked p)) := by
  have inRange : ¬(1 < u8 p 0 ∨ 3 < u8 p 1 ∨ 1 < u8 p 2 ∨ u16 p 5 = 0 ∨ 60 < u16 p 5) := by omega
  have some : (s.swRecordsAsked p).isEmpty = false := by rwa [Bool.eq_false_iff, ne_eq, List.isEmpty_iff]
  change cmdSwReadConfig h p s = _
  simp only [cmdSwReadConfig, if_neg inRange, List.flatMap_id]
  exact if_neg (Bool.eq_false_iff.1 some)

/-! ### Keys, updates, health, sides and power (R441, R455, R471, R498) -/

theorem run_keyStatus : specKeyStatus.run h p s = done s (listed h ([SideId.A, .B].flatMap fun sd =>
    [beBytes 4 (s.keyStatusWord sd)] ++ ((List.range 4).map fun i => beBytes 4 (s.keySignerWord sd i))
      ++ ((List.range 64).map fun k => beBytes 8 (s.regWord (Rg.keySlot sd k)) ++ beBytes 8 (s.regWord (Rg.keyStalls sd k))))) := by
  change cmdKeyStatus h p s = _
  simp only [cmdKeyStatus, List.flatMap_id, listed, upto, bothSides]

theorem run_keyDeviceCert_inRange (side : u8 p 0 ≤ 1) : specKeyDeviceCert.run h p s = done s
    (Config.devicePublic (deviceSeed (sideArg p 0) ((s.side (sideArg p 0)).roots.native.getD [])) ++ Config.deviceCert (sideArg p 0)) := by
  obtain zero | one : u8 p 0 = 0 ∨ u8 p 0 = 1 := by omega
  · change cmdKeyDeviceCert h p s = _
    simp only [cmdKeyDeviceCert, sideArg, zero, if_true, State.deviceCert]
  · change cmdKeyDeviceCert h p s = _
    simp only [cmdKeyDeviceCert, sideArg, one, one_ne_zero, if_false, State.deviceCert]

theorem run_healthReport_inRange (side : u8 p 0 ≤ 1) (level : u8 p 1 ≤ 7) : specHealthReport.run h p s = done s
    (((if u8 p 1 = 0 then [1, 2, 3, 4, 5, 6, 7] else [u8 p 1]).flatMap fun l =>
      beBytes 2 (s.sparesAt (sideArg p 0) l) ++ beBytes 2 (min 65535 ((s.side (sideArg p 0)).health.found.getD (l - 1) 0)))
      ++ beBytes 4 (s.healthSparesWord (sideArg p 0)) ++ beBytes 4 (s.regWord (Rg.healthFaults (sideArg p 0)))
      ++ beBytes 4 (s.regWord (Rg.healthTest (sideArg p 0)))) :=
  if_neg (by omega)

theorem run_healthFaults_inRange (side : u8 p 0 ≤ 1) (newest : u8 p 1 ≤ 63) (least : 1 ≤ u8 p 2) (most : u8 p 2 ≤ 64) :
    specHealthFaults.run h p s = done s
      (listed h ((List.range (min (u8 p 2) (min 64 (s.rd (Rg.faultHead (sideArg p 0)) Fd.faultHeadTotal)))).map fun k =>
        beBytes 8 (s.regWord (Rg.faultLog (sideArg p 0) ((u8 p 1 + 64 - k) % 64))))) := by
  have inRange : ¬(1 < u8 p 0 ∨ 63 < u8 p 1 ∨ u8 p 2 = 0 ∨ 64 < u8 p 2) := by omega
  change cmdHealthFaults h p s = _
  simp only [cmdHealthFaults, if_neg inRange, List.flatMap_id, listed, upto]

/-- A reply of both sides holds both halves where the other side is not Out (R393). -/
theorem State.bothHalves_serving {n : Nat} {half : SideId → Bytes} (other : (s.side h.side.other).role ≠ .out) :
    s.bothHalves h n half = done s (half .A ++ half .B) := by
  simp [State.bothHalves, other, done]

theorem run_pairStatus_serving (other : (s.side h.side.other).role ≠ .out) : specPairStatus.run h p s =
    done s ([SideId.A, .B].flatMap fun sd => beBytes 4 (s.pairStatusWord sd) ++ beBytes 4 (s.regWord (Rg.witnessSeen sd))) := by
  change cmdPairStatus h p s = _
  rw [cmdPairStatus, State.bothHalves_serving other]
  simp only [List.flatMap_cons, List.flatMap_nil, List.append_nil]

end UnitReads

/-- Settles O38: each row executes its command, which answers what it says wherever its conditions hold, in the same state. -/
theorem readCommandsOfUnits : Obligations.ReadCommandsOfUnits := by
  unfold Obligations.ReadCommandsOfUnits
  refine ⟨?channel, ?fio, ?image, ?tele, ?safe, ?table, ?can, ?ledger, ?codes, ?records, ?port, ?switch, ?keys, ?cert, ?update,
    ?health, ?faults, ?leases, ?sides, ?pair, ?power⟩
  case channel =>
    exact does_of_run (fun _ _ _ => rfl) fun s h p ⟨least, most, active⟩ => run_fioReadChannel_active least most active
  case fio => exact does_of_run (fun _ _ _ => rfl) fun s h p _ => rfl
  case image => exact fun img => does_of_run (fun _ _ _ => rfl) fun s h p kept => run_fioReadImage_kept kept
  case tele => exact does_of_run (fun _ _ _ => rfl) fun s h p ok => run_teleStatus_inRange ok
  case safe => exact does_of_run (fun _ _ _ => rfl) fun s h p _ => rfl
  case table =>
    exact does_of_run (fun _ _ _ => rfl) fun s h p ⟨set, least, most, held, used⟩ => run_safeReadTable_inRange rfl set least most held used
  case can => exact does_of_run (fun _ _ _ => rfl) fun s h p _ => run_canStatus
  case ledger => exact does_of_run (fun _ _ _ => rfl) fun s h p _ => rfl
  case codes =>
    exact does_of_run (fun _ _ _ => rfl) fun s h p ⟨least, most, range⟩ => run_ledgerCodes_inRange least most range
  case records =>
    rintro mine out rfl rfl
    exact does_of_run (fun _ _ _ => rfl) fun s h p ⟨area, filter, least, most, found⟩ =>
      run_readRecords_found rfl area filter least most found
  case port => exact does_of_run (fun _ _ _ => rfl) fun s h p ok => run_timePortStatus_inRange ok
  case switch =>
    rintro size recs rfl rfl
    simp only [← swBlockSize_eq]
    exact does_of_run (fun _ _ _ => rfl) fun s h p ⟨set, kind, side, least, most, found⟩ =>
      run_swReadConfig_found set kind side least most found
  case keys => exact does_of_run (fun _ _ _ => rfl) fun s h p _ => run_keyStatus
  case cert => exact does_of_run (fun _ _ _ => rfl) fun s h p side => run_keyDeviceCert_inRange side
  case update => exact does_of_run (fun _ _ _ => rfl) fun s h p _ => rfl
  case health => exact does_of_run (fun _ _ _ => rfl) fun s h p ⟨side, level⟩ => run_healthReport_inRange side level
  case faults =>
    exact does_of_run (fun _ _ _ => rfl) fun s h p ⟨side, newest, least, most⟩ => run_healthFaults_inRange side newest least most
  case leases => exact does_of_run (fun _ _ _ => rfl) fun s h p _ => rfl
  case sides => exact does_of_run (fun _ _ _ => rfl) fun s h p other => State.bothHalves_serving other
  case pair => exact does_of_run (fun _ _ _ => rfl) fun s h p other => run_pairStatus_serving other
  case power => exact does_of_run (fun _ _ _ => rfl) fun s h p other => State.bothHalves_serving other

end Sys2Proof.Machine
end

section
/-! PROOFS. The SET commands (R416, R417, R422): each puts its record into the shadow that holds its block where the record
is in range, and is refused elsewhere. -/

namespace Sys2Proof.Machine

open Claims

section ShadowWrites

variable {i : CmdHdr → Bytes → Instr} {c : CmdSpec} {ok : Bytes → Bool}

/-- What a SET command of the module scope runs settles its claim. -/
theorem setsRecord_of_run {ty : Nat} {idx : Bytes → Nat} {record : State → Bytes → Bytes}
    (hi : ∀ h p s, exec (i h p) s = runCmd c h p s)
    (hr : ∀ s h p, c.run h p s =
      if ok p = true then done (shadowed s (withRecord ty (idx p) (record s p))) [] else refuse s .range) :
    SetsRecord i c ok ty idx record :=
  ⟨does_of_run hi fun s h p good => (hr s h p).trans (if_pos good),
    refuses_of_run hi fun s h p bad => (hr s h p).trans (if_neg (by simp [bad]))⟩

/-- What a SET command of a stall's block runs settles its claim. -/
theorem setsStallRecord_of_run {ty : Nat} {stall idx : Bytes → Nat} (hi : ∀ h p s, exec (i h p) s = runCmd c h p s)
    (hr : ∀ s h p, c.run h p s =
      if ok p = true then done (s.modifyStallShadow (stall p) fun t => t.putRec ty (idx p) p) [] else refuse s .range) :
    SetsStallRecord i c ok stall ty idx :=
  ⟨does_of_run hi fun s h p good => ((hr s h p).trans (if_pos good)).trans (by rw [State.modifyStallShadow_putRec]; rfl),
    refuses_of_run hi fun s h p bad => (hr s h p).trans (if_neg (by simp [bad]))⟩

/-- A check that refuses where a range test fails, read the other way round. -/
theorem ite_bnot {α : Type} (b : Bool) (x y : α) : (if (!b) = true then x else y) = if b = true then y else x := by
  cases b <;> rfl

end ShadowWrites

section ShadowRuns

variable {s : State} {h : CmdHdr} {p : Bytes}

/-! ### Streams and GOOSE -/

theorem run_gooseSubSet_apart (ok : gooseSubRange p = true)
    (apart : ∀ e ∈ s.modShadow.block 0x08, e.1 = u16 p 0 ∨ sub e.2 4 8 ≠ sub p 4 8 ∨ sub e.2 24 64 ≠ sub p 24 64) :
    specGooseSubSet.run h p s = done (shadowed s (withRecord 0x08 (u16 p 0) p)) [] := by
  have none : ¬(s.modShadow.block 0x08).any (fun e => e.1 != u16 p 0 && sub e.2 4 8 == sub p 4 8 && sub e.2 24 64 == sub p 24 64) = true := by
    rw [List.any_eq_true]
    rintro ⟨e, he, same⟩
    rw [Bool.and_eq_true, Bool.and_eq_true, bne_iff_ne, beq_iff_eq, beq_iff_eq] at same
    obtain ⟨⟨other, source⟩, ref⟩ := same
    exact (apart e he).elim other fun either => either.elim (· source) (· ref)
  exact (ite_bnot _ _ _).trans ((if_pos ok).trans (if_neg none))

/-- The record of an SV_SUBSCRIBE: its owner is the sender's stall (R83). -/
def subRecord (h : CmdHdr) (p : Bytes) : Bytes := patch p 169 [h.stall]

theorem run_svSubscribe_free (ok : subRangeOk (subRecord h p) = true)
    (own : ∀ o, s.modShadow.get 0x04 (subSlot (subRecord h p)) = some o → subKey o = subKey (subRecord h p))
    (apart : subsConflict (svSubs (s.modShadow.putRec 0x04 (subSlot (subRecord h p)) (subRecord h p))) = false)
    (total : eqTotal (s.modShadow.putRec 0x04 (subSlot (subRecord h p)) (subRecord h p)) ≤ 8192)
    (budget : h.stall = 0 ∨ eqUnder (s.modShadow.putRec 0x04 (subSlot (subRecord h p)) (subRecord h p)) h.stall.toNat
      ≤ s.streamEqBudget h.stall.toNat) :
    specSvSubscribe.run h p s = done (shadowed s (withRecord 0x04 (subSlot (subRecord h p)) (subRecord h p))) [] := by
  have within : ¬(h.stall.toNat ≠ 0 ∧ s.streamEqBudget h.stall.toNat <
      eqUnder (s.modShadow.putRec 0x04 (subSlot (subRecord h p)) (subRecord h p)) h.stall.toNat) := by
    rintro ⟨tenant, exceeded⟩
    rcases budget with zero | enough
    · exact tenant (by rw [zero]; rfl)
    · omega
  unfold subRecord at *
  change cmdSvSubscribe h p s = _
  simp only [cmdSvSubscribe, ok, Bool.not_true, Bool.false_eq_true, if_false, apart, Bool.or_false, if_neg (Nat.not_lt.2 total), if_neg within]
  split
  · next o ho => simp only [own o ho, bne_self_eq_false, Bool.false_eq_true, if_false]; rfl
  · rfl

theorem run_svSubscribe_taken {o : Bytes} (ok : subRangeOk (subRecord h p) = true)
    (ho : s.modShadow.get 0x04 (subSlot (subRecord h p)) = some o) (other : subKey o ≠ subKey (subRecord h p)) :
    specSvSubscribe.run h p s = refuse s .conflict := by
  unfold subRecord at *
  change cmdSvSubscribe h p s = _
  simp only [cmdSvSubscribe, ok, Bool.not_true, Bool.false_eq_true, if_false, ho, bne_iff_ne.2 other, Bool.true_or, if_true]

theorem run_svUnsubscribe_subscribed (slot : u16 p 0 ≤ 1023) (held : (s.modShadow.get 0x04 (u16 p 0)).isSome = true) :
    specSvUnsubscribe.run h p s = done (shadowed s fun t => Tbl.del t (0x04 * 4294967296 + u16 p 0)) [] :=
  (if_neg (by omega)).trans (if_neg (by rw [Option.isNone_iff_eq_none]; exact Option.isSome_iff_ne_none.1 held))

/-! ### Conditioning -/

theorem run_condSetChain_shadow (set : u8 p 0 = 1) (ok : chainRangeOk (p.drop 1) = true) : specCondSetChain.run h p s =
    done (shadowed s (withRecord 0x05 (u16 (p.drop 1) 0) (p.drop 1))) [] := by
  change cmdCondSetChain h p s = _
  simp only [cmdCondSetChain, writeCond, set, ok]
  rfl

theorem run_condSetChain_running (set : u8 p 0 = 0) (ok : chainRangeOk (p.drop 1) = true)
    (running : s.chainStopped (u16 (p.drop 1) 0) = false) : specCondSetChain.run h p s = refuse s .chainRunning := by
  change cmdCondSetChain h p s = _
  simp only [cmdCondSetChain, writeCond, set, ok, running]
  rfl

theorem run_condSetGroup_shadow (set : u8 p 0 = 1) (ok : groupRangeOk (p.drop 1) = true) : specCondSetGroup.run h p s =
    done (shadowed s (withRecord 0x07 (u16 (p.drop 1) 0) (p.drop 1))) [] := by
  change cmdCondSetGroup h p s = _
  simp only [cmdCondSetGroup, writeCond, set, ok]
  rfl

theorem run_condSetTaps_shadow {t : Scope} (set : u8 p 0 = 1) (head : tapHeadOk (sub p 1 8) = true) (most : u16 p 11 ≤ 248)
    (range : u16 p 9 + u16 p 11 ≤ u16 (sub p 1 8) 2) (ht : s.modShadow.withTaps (sub p 1 8) (u16 p 9) (p.drop 13) = some t) :
    specCondSetTaps.run h p s = done (s.modifyModShadow fun _ => t) [] := by
  have inRange : ¬(1 < u8 p 0 ∨ (!tapHeadOk (sub p 1 8)) = true ∨ 248 < u16 p 11 ∨ u16 (sub p 1 8) 2 < u16 p 9 + u16 p 11) := by
    simp only [head, Bool.not_true, Bool.false_eq_true, false_or]
    omega
  have shadow : s.setScope (u8 p 0) = s.modShadow := by rw [set]; rfl
  have inactive : ¬u8 p 0 = 0 := by omega
  change cmdCondSetTaps h p s = _
  simp only [cmdCondSetTaps, if_neg inRange, shadow, ht, if_neg inactive]

end ShadowRuns

/-- Settles O35: each SET command runs to its record in the shadow where its checks pass, and to its refusal elsewhere. -/
theorem shadowRecords : Obligations.ShadowRecords := by
  unfold Obligations.ShadowRecords
  refine ⟨?gooseSub, ?goosePub, ?svpub, ?mac, ?line, ?capture, ?wavefront, ?dram, ?snapshot, ?nominal, ?chain, ?running, ?group, ?taps,
    ?subscribe, ?taken, ?unsubscribe⟩
  case gooseSub => exact does_of_run (fun _ _ _ => rfl) fun s h p ⟨ok, apart⟩ => run_gooseSubSet_apart ok apart
  case goosePub => exact setsStallRecord_of_run (fun _ _ _ => rfl) fun s h p => ite_bnot _ _ _
  case svpub => exact setsStallRecord_of_run (fun _ _ _ => rfl) fun s h p => ite_bnot _ _ _
  case mac => exact setsRecord_of_run (fun _ _ _ => rfl) fun s h p => (ite_bnot _ _ _).symm
  case line => exact setsStallRecord_of_run (fun _ _ _ => rfl) fun s h p => rfl
  case capture => exact setsStallRecord_of_run (fun _ _ _ => rfl) fun s h p => rfl
  case wavefront => exact setsRecord_of_run (fun _ _ _ => rfl) fun s h p => rfl
  case dram => exact setsRecord_of_run (fun _ _ _ => rfl) fun s h p => rfl
  case snapshot => exact setsStallRecord_of_run (fun _ _ _ => rfl) fun s h p => rfl
  case nominal =>
    refine setsRecord_of_run (fun _ _ _ => rfl) fun s h p => ?_
    simp only [Bool.or_eq_true, beq_iff_eq]
    rfl
  case chain => exact does_of_run (fun _ _ _ => rfl) fun s h p ⟨set, ok⟩ => run_condSetChain_shadow set ok
  case running => exact refuses_of_run (fun _ _ _ => rfl) fun s h p ⟨set, ok, running⟩ => run_condSetChain_running set ok running
  case group => exact does_of_run (fun _ _ _ => rfl) fun s h p ⟨set, ok⟩ => run_condSetGroup_shadow set ok
  case taps =>
    exact fun t => does_of_run (fun _ _ _ => rfl) fun s h p ⟨set, head, most, range, ht⟩ => run_condSetTaps_shadow set head most range ht
  case subscribe =>
    rintro t rfl
    exact does_of_run (fun _ _ _ => rfl) fun s h p ⟨ok, own, apart, total, budget⟩ => run_svSubscribe_free ok own apart total budget
  case taken => exact refuses_of_run (fun _ _ _ => rfl) fun s h p ⟨ok, o, ho, other⟩ => run_svSubscribe_taken ok ho other
  case unsubscribe => exact does_of_run (fun _ _ _ => rfl) fun s h p ⟨slot, held⟩ => run_svUnsubscribe_subscribed slot held

end Sys2Proof.Machine
end

section
/-! PROOFS. The SET commands of the switch, time, CAN, the Ledger, field channels and the pair (R416, R417, R422). -/

namespace Sys2Proof.Machine

open Claims

section UnitShadowRuns

variable {s : State} {h : CmdHdr} {p : Bytes}

theorem run_swSetPort_inRange (ok : portRange p = true) (mirror : prFlag p 1 = true → u8 p 1 = 1) : specSwSetPort.run h p s =
    done (shadowed s (withRecord 0x09 (swPortIdx (u8 p 0) (u8 p 1)) p)) [] :=
  (ite_bnot _ _ _).trans ((if_pos ok).trans (if_neg fun ⟨set, other⟩ => other (mirror set)))

/-- Entries that all pass a check leave none that fails it. -/
theorem all_upto {n : Nat} {f : Nat → Bool} (all : ∀ k < n, f k = true) : (upto n).all f = true :=
  List.all_eq_true.2 fun k hk => all k (List.mem_range.1 hk)

theorem run_swSetFdb_inRange (least : 1 ≤ u16 p 2) (most : u16 p 2 ≤ 60) (range : u16 p 0 + u16 p 2 ≤ 8192)
    (all : ∀ k < u16 p 2, fdbRange (sub p (4 + 16 * k) 16) = true) : specSwSetFdb.run h p s =
    done (s.modifyModShadow fun c => (List.range (u16 p 2)).foldl
      (fun d k => d.putRec 0x0A (swFdbIdx (u8 (sub p (4 + 16 * k) 16) 10) (u16 p 0 + k)) (sub p (4 + 16 * k) 16)) c) [] := by
  have inRange : ¬(u16 p 2 = 0 ∨ 60 < u16 p 2 ∨ 8192 < u16 p 0 + u16 p 2 ∨
      (!(upto (u16 p 2)).all fun k => fdbRange (sub p (4 + 16 * k) 16)) = true) := by
    rw [all_upto all, Bool.not_true]
    simp only [Bool.false_eq_true, or_false]
    omega
  exact if_neg inRange

theorem run_ledgerSetRate_inRange (least : 1 ≤ u16 p 2) (most : u16 p 2 ≤ 248) (range : u16 p 0 + u16 p 2 ≤ 4096)
    (length : p.length = 4 + 4 * u16 p 2)
    (all : ∀ k < u16 p 2, u16 (sub p (4 + 4 * k) 4) 0 ≤ 4800 ∧ u8 (sub p (4 + 4 * k) 4) 2 ≠ 0 ∧ u8 (sub p (4 + 4 * k) 4) 3 = 0) :
    specLedgerSetRate.run h p s = done (s.modifyModShadow fun c => (List.range (u16 p 2)).foldl
      (fun d k => d.putRec 0x10 (u16 p 0 + k) (sub p (4 + 4 * k) 4)) c) [] := by
  have none : ¬((upto (u16 p 2)).any fun k => decide (4800 < u16 (sub p (4 + 4 * k) 4) 0) || u8 (sub p (4 + 4 * k) 4) 2 == 0
      || u8 (sub p (4 + 4 * k) 4) 3 != 0) = true := by
    rw [List.any_eq_true]
    rintro ⟨k, hk, wrong⟩
    obtain ⟨rate, burst, zero⟩ := all k (List.mem_range.1 hk)
    simp only [Nat.not_lt.2 rate, decide_false, Bool.false_or, Bool.or_eq_true, beq_iff_eq, burst, bne_iff_ne, zero, ne_eq,
      not_true_eq_false, or_self] at wrong
  refine if_neg ?_
  rw [not_or, not_or, not_or, not_or]
  exact ⟨by omega, by omega, by omega, not_not_intro length, none⟩

theorem run_fioSetChannel_free (ok : fioRange p = true) (free : s.isSafeChannel (u8 p 0) = false) : specFioSetChannel.run h p s =
    done (shadowed s (withRecord 0x0D (u8 p 0) p)) [] :=
  (ite_bnot _ _ _).trans ((if_pos ok).trans (if_neg (Bool.eq_false_iff.1 free)))

theorem run_fioSetChannel_safety (ok : fioRange p = true) (safe : s.isSafeChannel (u8 p 0) = true) :
    specFioSetChannel.run h p s = refuse s .conflict :=
  (ite_bnot _ _ _).trans ((if_pos ok).trans (if_pos safe))

theorem run_pairSet_inRange (preferred : u8 p 0 ≤ 2) (mode : u8 p 1 ≤ 1) (most : u8 p 2 ≤ 15) (several : u8 p 2 = 0 ∨ 3 ≤ u8 p 2)
    (entries : ∀ e ∈ pairEntries p, bits e 14 10 = 0 ∧ (bit e 15 = true ∨ (s.modShadow.get 0x04 (e % 1024)).isSome = true)) :
    specPairSet.run h p s = done (shadowed s (withRecord 0x12 0 (s.modShadow.pubRec.take 6 ++ p))) [] := by
  have reserved : (pairEntries p).any (fun e => bits e 14 10 != 0) = false :=
    List.any_eq_false.2 fun e he => by simp [(entries e he).1]
  have unknown : (pairEntries p).any (fun e => !bit e 15 && (s.modShadow.get 0x04 (e % 1024)).isNone) = false := by
    refine List.any_eq_false.2 fun e he => ?_
    rcases (entries e he).2 with own | subscribed
    · simp [own]
    · simp [Option.isSome_iff_ne_none.1 subscribed]
  have inRange : ¬(2 < u8 p 0 ∨ 1 < u8 p 1 ∨ 15 < u8 p 2 ∨ (1 ≤ u8 p 2 ∧ u8 p 2 ≤ 2) ∨
      (pairEntries p).any (fun e => bits e 14 10 != 0) = true) := by
    simp only [reserved, Bool.false_eq_true, or_false]
    omega
  exact (if_neg inRange).trans (if_neg (Bool.eq_false_iff.1 unknown))

end UnitShadowRuns

/-- Settles O36: each SET command runs to its record in the shadow where its checks pass, and to its refusal elsewhere. -/
theorem shadowRecordsOfUnits : Obligations.ShadowRecordsOfUnits := by
  unfold Obligations.ShadowRecordsOfUnits
  refine ⟨?port, ?fdb, ?gates, ?queue, ?params, ?timePort, ?timing, ?filter, ?buffer, ?rate, ?channel, ?safety, ?pair⟩
  case port => exact does_of_run (fun _ _ _ => rfl) fun s h p ⟨ok, mirror⟩ => run_swSetPort_inRange ok mirror
  case fdb => exact does_of_run (fun _ _ _ => rfl) fun s h p ⟨least, most, range, all⟩ => run_swSetFdb_inRange least most range all
  case gates => exact setsRecord_of_run (fun _ _ _ => rfl) fun s h p => ite_bnot _ _ _
  case queue => exact setsRecord_of_run (fun _ _ _ => rfl) fun s h p => ite_bnot _ _ _
  case params => exact setsRecord_of_run (fun _ _ _ => rfl) fun s h p => rfl
  case timePort => exact setsRecord_of_run (fun _ _ _ => rfl) fun s h p => rfl
  case timing => exact setsRecord_of_run (fun _ _ _ => rfl) fun s h p => rfl
  case filter => exact setsRecord_of_run (fun _ _ _ => rfl) fun s h p => rfl
  case buffer => exact setsRecord_of_run (fun _ _ _ => rfl) fun s h p => rfl
  case rate =>
    exact does_of_run (fun _ _ _ => rfl) fun s h p ⟨least, most, range, length, all⟩ =>
      run_ledgerSetRate_inRange least most range length all
  case channel => exact does_of_run (fun _ _ _ => rfl) fun s h p ⟨ok, free⟩ => run_fioSetChannel_free ok free
  case safety => exact refuses_of_run (fun _ _ _ => rfl) fun s h p ⟨ok, safe⟩ => run_fioSetChannel_safety ok safe
  case pair =>
    rintro es rfl
    exact does_of_run (fun _ _ _ => rfl) fun s h p ⟨preferred, mode, most, several, entries⟩ =>
      run_pairSet_inRange preferred mode most several entries

end Sys2Proof.Machine
end

section
/-! PROOFS. The configuration commands (R416 to R427, R441): status, load, copy, read, validation and castling of a scope. -/

namespace Sys2Proof.Machine

open Claims

section ConfigRuns

variable {s : State} {h : CmdHdr} {p : Bytes}

theorem run_cfgCopy_scope (scope : scopeArgs p 0 = true) :
    specCfgCopy.run h p s = done (s.loadShadow (u8 p 1) (s.stallScope (u8 p 1)).recs) [] :=
  (ite_bnot _ _ _).trans (if_pos scope)

theorem run_cfgCopy_noScope (scope : scopeArgs p 0 = false) : specCfgCopy.run h p s = refuse s .range :=
  (ite_bnot _ _ _).trans (if_neg (Bool.eq_false_iff.1 scope))

theorem run_cfgValidate_scope (scope : scopeArgs p 0 = true) : specCfgValidate.run h p s =
    ⟨{ s.endValidation (u8 p 1) with
        validations := Tbl.put (s.endValidation (u8 p 1)).validations (u8 p 1) ⟨h, s.now, false⟩ }, .acceptedPending, []⟩ :=
  (ite_bnot _ _ _).trans (if_pos scope)

theorem run_castle_inRange (scope : scopeArgs p 0 = true) (flags : u8 p 2 ≤ 1) (zero : u8 p 3 = 0) : specCastle.run h p s =
    (s.castleCheck h (u8 p 1) (bit (u8 p 2) 0) (sub p 4 32)).elim (done (s.castleScope (u8 p 1) h.origin.toNat) []) (refuse s) := by
  have inRange : ¬((!scopeArgs p 0) = true ∨ 1 < u8 p 2 ∨ u8 p 3 ≠ 0) := by
    simp only [scope, Bool.not_true, Bool.false_eq_true, false_or]
    omega
  refine (if_neg inRange).trans ?_
  cases s.castleCheck h (u8 p 1) (bit (u8 p 2) 0) (sub p 4 32) <;> rfl

/-- The image that a CFG_READ reads: of the active copy of a scope or of its shadow (R419). -/
def State.cfgImage (s : State) (p : Bytes) : Bytes :=
  (if u8 p 0 = 0 then s.stallScope (u8 p 2) else s.stallShadowScope (u8 p 2)).image s.cfgFmt (u8 p 2)

theorem run_cfgRead_inRange (set : u8 p 0 ≤ 1) (scope : scopeArgs p 1 = true) (zero : u8 p 3 = 0) (least : 1 ≤ u16 p 8)
    (most : u16 p 8 ≤ 1000) (held : u32 p 4 + u16 p 8 ≤ (s.cfgImage p).length) :
    specCfgRead.run h p s = done s (sub (s.cfgImage p) (u32 p 4) (u16 p 8)) := by
  have inRange : ¬(1 < u8 p 0 ∨ (!scopeArgs p 1) = true ∨ u8 p 3 ≠ 0 ∨ u16 p 8 = 0 ∨ 1000 < u16 p 8) := by
    simp only [scope, Bool.not_true, Bool.false_eq_true, false_or]
    omega
  exact (if_neg inRange).trans (if_neg (Nat.not_lt.2 held))

theorem run_cfgLoadRing_fresh (fresh : ∀ l ∈ s.ringLoads, l.hdr = h → l.held = false) (ring : s.fromHostOf0 h.side (u8 p 0) = true)
    (zero : u24 p 1 = 0) (least : 64 ≤ u32 p 4) (most : u32 p 4 ≤ 7340032) : specCfgLoadRing.run h p s =
    ⟨{ s with ringLoads := s.ringLoads ++ [⟨h, false, u8 p 0, 0, u32 p 4, []⟩] }, .acceptedPending, []⟩ := by
  have none : s.ringLoads.find? (fun l => l.hdr == h && l.held) = none := by
    refine List.find?_eq_none.2 fun l hl both => ?_
    rw [Bool.and_eq_true, beq_iff_eq] at both
    exact Bool.eq_false_iff.1 (fresh l hl both.1) both.2
  have inRange : ¬(u24 p 1 ≠ 0 ∨ u32 p 4 < 64 ∨ 7340032 < u32 p 4) := by omega
  change cmdCfgLoadRing h p s = _
  simp only [cmdCfgLoadRing, none, ring, Bool.not_true, Bool.false_eq_true, if_false, if_neg inRange]

/-! ### Blocks in chunks (R418, R419) -/

/-- A shadow changed to what a function makes of it, whether the function reads it itself or is given what it reads. -/
theorem State.modifyStallShadow_of_scope (s : State) (stall : Nat) (f : Scope → Scope) :
    (s.modifyStallShadow stall fun _ => f (s.stallShadowScope stall)) = s.modifyStallShadow stall f := by
  unfold State.modifyStallShadow State.modifyModShadow State.stallShadowScope
  split <;> rfl

/-- What has come of a block before a chunk: nothing before its first (R418). -/
def State.blockBefore (s : State) (p : Bytes) : Bytes :=
  if u32 p 4 = 0 then [] else Tbl.getD (s.stallShadowScope (u8 p 1)).loading (u8 p 2) []

theorem run_cfgLoadBlock_part (scope : scopeArgs p 0 = true) (ty : (scopeTypes (u8 p 1)).contains (u8 p 2) = true) (zero : u8 p 3 = 0)
    (most : u32 p 8 ≤ 7340032) (next : (s.blockBefore p).length = u32 p 4) (short : (s.blockBefore p ++ p.drop 12).length < u32 p 8) :
    specCfgLoadBlock.run h p s = done (s.modifyStallShadow (u8 p 1) fun c =>
      { (if u32 p 4 = 0 then c.clearBlock (u8 p 2) else c) with
        loading := Tbl.put (if u32 p 4 = 0 then c.clearBlock (u8 p 2) else c).loading (u8 p 2) (s.blockBefore p ++ p.drop 12),
        valid := false, digest := [] }) [] := by
  have inRange : ¬((!scopeArgs p 0) = true ∨ (!(scopeTypes (u8 p 1)).contains (u8 p 2)) = true ∨ u8 p 3 ≠ 0 ∨
      u32 p 8 < u32 p 4 + (p.drop 12).length ∨ 7340032 < u32 p 8) := by
    rw [List.length_append] at short
    simp only [scope, ty, Bool.not_true, Bool.false_eq_true, false_or]
    omega
  rw [← State.modifyStallShadow_of_scope]
  unfold State.blockBefore at *
  change cmdCfgLoadBlock h p s = _
  simp only [cmdCfgLoadBlock, if_neg inRange, next, ne_eq, not_true_eq_false, if_false, if_pos short]

end ConfigRuns

/-- Settles O32: each configuration command does what its rule says where its checks pass, and a refused one names the check. -/
theorem configCommands : Obligations.ConfigCommands := by
  unfold Obligations.ConfigCommands
  refine ⟨?status, ?copy, ?noScope, ?validate, ?castle, ?castleRefused, ?read, ?ring, ?block⟩
  case status =>
    rintro item rfl
    exact does_of_run (fun _ _ _ => rfl) fun s h p _ => rfl
  case copy => exact does_of_run (fun _ _ _ => rfl) fun s h p scope => run_cfgCopy_scope scope
  case noScope => exact refuses_of_run (fun _ _ _ => rfl) fun s h p scope => run_cfgCopy_noScope scope
  case validate => exact accepts_of_run (fun _ _ _ => rfl) fun s h p scope => run_cfgValidate_scope scope
  case castle =>
    refine does_of_run (fun _ _ _ => rfl) fun s h p ⟨scope, flags, zero, passes⟩ => ?_
    rw [run_castle_inRange scope flags zero, passes]
    rfl
  case castleRefused =>
    refine fun st => refuses_of_run (fun _ _ _ => rfl) fun s h p ⟨scope, flags, zero, fails⟩ => ?_
    rw [run_castle_inRange scope flags zero, fails]
    rfl
  case read =>
    rintro img rfl
    exact does_of_run (fun _ _ _ => rfl) fun s h p ⟨set, scope, zero, least, most, held⟩ =>
      run_cfgRead_inRange set scope zero least most held
  case ring =>
    exact accepts_of_run (fun _ _ _ => rfl) fun s h p ⟨fresh, ring, zero, least, most⟩ => run_cfgLoadRing_fresh fresh ring zero least most
  case block =>
    rintro before rfl
    exact does_of_run (fun _ _ _ => rfl) fun s h p ⟨scope, ty, zero, most, next, short⟩ =>
      run_cfgLoadBlock_part scope ty zero most next short

end Sys2Proof.Machine
end

section
/-! PROOFS. The safety commands (R351 to R362): challenge and proof, lock and password, the table and its castling, resets. -/

namespace Sys2Proof.Machine

open Claims

/-! ### The tables and the unlocks, and what leaves them alone (R351, R357) -/

/-- The safety tables, active and shadow, and who has unlocked the functions. -/
def State.safetySets (s : State) : Bytes × Bytes × Tbl Nat := (s.safeActive, s.safeShadow, s.unlocks)

section SafetySets

variable (s : State) (sd : SideId)

@[simp] theorem State.safetySets_emit (o : Output) : (s.emit o).safetySets = s.safetySets := rfl
@[simp] theorem State.safetySets_ledger (r : LPend) : (s.ledger r).safetySets = s.safetySets := rfl
@[simp] theorem State.safetySets_wr (r : Reg) (f : Fld) (v : Nat) : (s.wr r f v).safetySets = s.safetySets := rfl
@[simp] theorem State.safetySets_tick1 (r : Reg) (f : Fld) : (s.tick1 r f).safetySets = s.safetySets := rfl
@[simp] theorem State.safetySets_putInst (i : Nat) (x : ArbInst) : (s.putInst i x).safetySets = s.safetySets := rfl
@[simp] theorem State.safetySets_swapSlots (st : Nat) : (s.swapSlots st).safetySets = s.safetySets := rfl
@[simp] theorem State.safetySets_clearTally (st : Nat) : (s.clearTally st).safetySets = s.safetySets := rfl
@[simp] theorem State.safetySets_setStallState (st v : Nat) : (s.setStallState st v).safetySets = s.safetySets := rfl
@[simp] theorem State.safetySets_noticeRecord (n : Notice) : (s.noticeRecord n).safetySets = s.safetySets := rfl
@[simp] theorem State.safetySets_modSide (f : Side → Side) : (s.modSide sd f).safetySets = s.safetySets := by cases sd <;> rfl

@[simp] theorem State.safetySets_putTaskSt (st t : Nat) (x : TaskSt) : (s.putTaskSt sd st t x).safetySets = s.safetySets :=
  s.safetySets_modSide sd _

/-- What is done side by side leaves the tables alone where each side's part does. -/
theorem State.safetySets_forSides {f : SideId → State → State} (h : ∀ sd t, (f sd t).safetySets = t.safetySets) :
    (s.forSides f).safetySets = s.safetySets := (h .B _).trans (h .A s)

@[simp] theorem State.safetySets_dropActs (st : Nat) : (s.dropActs st).safetySets = s.safetySets :=
  s.safetySets_forSides fun sd t => t.safetySets_modSide sd _

@[simp] theorem State.safetySets_keptFrom (old : State) : (s.keptFrom old).safetySets = s.safetySets :=
  s.safetySets_forSides fun sd t => t.safetySets_modSide sd _

@[simp] theorem State.safetySets_buildSlices (st : Nat) : (s.buildSlices st).safetySets = s.safetySets :=
  s.safetySets_forSides fun sd t => t.safetySets_modSide sd _

@[simp] theorem State.safetySets_initTasks (st : Nat) : (s.initTasks st).safetySets = s.safetySets := by
  unfold State.initTasks
  split
  · rfl
  · exact foldl_keeps State.safetySets (fun t k => by simp) _ s

@[simp] theorem State.safetySets_resetStall (st : Nat) : (s.resetStall st).safetySets = s.safetySets := by
  simp [State.resetStall]

@[simp] theorem State.safetySets_dropForce (code handle origin : Nat) : (s.dropForce code handle origin).safetySets = s.safetySets := by
  unfold State.dropForce
  split <;> rfl

@[simp] theorem State.safetySets_dropForcesOf (st origin : Nat) : (s.dropForcesOf st origin).safetySets = s.safetySets :=
  foldl_keeps State.safetySets (fun t k => t.safetySets_dropForce _ k origin) _ s

@[simp] theorem State.safetySets_castledProgram (st : Nat) (old : Option Bytes) (origin : Nat) :
    (s.castledProgram st old origin).safetySets = s.safetySets := by
  simp only [State.castledProgram]
  split
  · rfl
  · split
    · split <;> simp
    · split
      · simp
      · split
        · simp
        · split <;> simp

/-! ### The Arbiter's instances and the subscriptions of telegrams and publications (R344 to R346) -/

@[simp] theorem State.safetySets_driveCh (n : Nat) : (s.driveCh n).safetySets = s.safetySets := by
  simp only [State.driveCh]
  split
  · rfl
  · split <;> rfl

@[simp] theorem State.safetySets_instSettled (e : Nat × Bytes) : (s.instSettled e).safetySets = s.safetySets :=
  s.instSettled_keeps State.safetySets (fun _ _ _ => rfl) e

@[simp] theorem State.safetySets_settleFrom (shown : Nat) : (s.settleFrom shown).safetySets = s.safetySets := by
  have settled : s.settled.safetySets = s.safetySets :=
    (foldl_keeps State.safetySets (fun t n => t.safetySets_driveCh n) _ _).trans
      (foldl_keeps State.safetySets (fun t e => t.safetySets_instSettled e) _ s)
  rw [State.settleFrom_eq]
  split <;> exact settled

@[simp] theorem State.safetySets_startInsts (old : Bytes) (boot : Bool) : (s.startInsts old boot).safetySets = s.safetySets := by
  refine (State.safetySets_settleFrom _ _).trans (foldl_keeps State.safetySets (fun t e => ?_) _ _)
  dsimp only
  split
  · split <;> rfl
  · split <;> rfl

@[simp] theorem State.safetySets_castledTelegrams (old : Bytes) : (s.castledTelegrams old).safetySets = s.safetySets := by
  refine foldl_keeps State.safetySets (fun t k => ?_) _ s
  dsimp only
  split
  · rfl
  · exact State.safetySets_forSides _ fun sd u => u.safetySets_modSide sd _

@[simp] theorem State.safetySets_castledPublications (old new : Scope) : (s.castledPublications old new).safetySets = s.safetySets := by
  refine (foldl_keeps State.safetySets (fun t k => ?asdus) _ _).trans
    ((foldl_keeps State.safetySets (fun t k => ?pubs) _ _).trans (foldl_keeps State.safetySets (fun t k => ?subs) _ s))
  all_goals exact State.safetySets_forSides _ fun sd u => u.safetySets_modSide sd _

/-- A safety castling exchanges the tables and ends every unlock (R361). -/
theorem State.safetySets_safeCastle (origin : Nat) : (s.safeCastle origin).safetySets = (s.safeShadow, s.safeActive, []) := by
  simp only [State.safeCastle, State.safetySets_noticeRecord, State.safetySets_tick1, State.safetySets_swapSlots,
    State.safetySets_keptFrom, State.safetySets_castledPublications, State.safetySets_castledTelegrams, State.safetySets_startInsts,
    State.safetySets_buildSlices, State.safetySets_castledProgram]
  rfl

end SafetySets

/-! ### What each command runs to -/

section SafetyRuns

variable {s : State} {h : CmdHdr} {p : Bytes}

theorem run_safeUnlock_proven {salt v nonce : Bytes} {expiry : Nat} (open_ : s.lockedOut = false) (pw : s.safePw = some (salt, v))
    (hn : Tbl.find s.nonces h.origin.toNat = some (nonce, expiry)) (early : s.now < expiry)
    (proof : safeProof v nonce h.origin.toNat = p) : specSafeUnlock.run h p s =
    done { s with nonces := Tbl.del s.nonces h.origin.toNat, unlocks := Tbl.put s.unlocks h.origin.toNat (s.now + 4320000) } [] := by
  change cmdSafeUnlock h p s = _
  simp [cmdSafeUnlock, open_, pw, hn, early, proof]

theorem run_safeUnlock_lockedOut (out : s.lockedOut = true) : specSafeUnlock.run h p s = refuse s .safetyPassword := if_pos out

theorem run_safeSetPassword_allowed (allowed : (s.safePw = none ∧ h.transport = .console) ∨ (s.safePw ≠ none ∧ s.unlocked h.origin.toNat = true)) :
    specSafeSetPassword.run h p s = done { s with safePw := some (p.take 16, p.drop 16) } [] := by
  change cmdSafeSetPassword h p s = _
  rcases allowed with ⟨first, console⟩ | ⟨changed, unlocked⟩
  · simp only [cmdSafeSetPassword, first, console, if_true]
  · obtain ⟨pw, hpw⟩ := Option.ne_none_iff_exists'.1 changed
    simp only [cmdSafeSetPassword, hpw, unlocked, if_true]

theorem run_safeSetPassword_remote (first : s.safePw = none) (remote : h.transport ≠ .console) :
    specSafeSetPassword.run h p s = refuse s .noRight := by
  change cmdSafeSetPassword h p s = _
  simp only [cmdSafeSetPassword, first, remote, if_false]

theorem run_safeLoad_locked (locked : s.unlocked h.origin.toNat = false) : specSafeLoad.run h p s = refuse s .safetyPassword :=
  (ite_bnot _ _ _).trans (if_neg (Bool.eq_false_iff.1 locked))

theorem run_safeLoad_later (unlocked : s.unlocked h.origin.toNat = true) (total : u32 p 0 + (p.drop 8).length ≤ u32 p 4)
    (later : u32 p 0 ≠ 0) (held : u32 p 0 + (p.drop 8).length ≤ s.safeShadow.length) : specSafeLoad.run h p s =
    done { s with safeShadow := patch s.safeShadow (u32 p 0) (p.drop 8),
                  validations := Tbl.upd s.validations 63 fun v => { v with broken := true } } [] := by
  change cmdSafeLoad h p s = _
  simp only [cmdSafeLoad, unlocked, Bool.not_true, Bool.false_eq_true, if_false, if_neg (Nat.not_lt.2 total), if_neg later,
    if_neg (Nat.not_lt.2 held), State.breakValidation]

theorem run_safeCastle_check : specSafeCastle.run h p s = (s.safeCastleCheck h (u32 p 0)).elim
    (done ((s.safeCastle h.origin.toNat).ledger ⟨0, 63, 0, lcChange, h.origin.toNat,
      recBody (changeBody 0x0D05 0 h.seq.toNat (beBytes 4 (tableCrc s.safeActive) ++ beBytes 4 (tableCrc s.safeShadow))), true, false⟩) [])
    (refuse s) := by
  change cmdSafeCastle h p s = _
  unfold cmdSafeCastle
  cases s.safeCastleCheck h (u32 p 0) <;> rfl

/-! ### Resets (R346) -/

/-- The latched instances that a SAFE_RESET names. -/
def State.namedInsts (s : State) (p : Bytes) : List (Nat × Bytes) := s.instRecs.filter fun e => bit (u32 p 0) e.1 && (s.inst e.1).latched

/-- What a SAFE_RESET leaves of the Arbiter. -/
def State.namedReset (s : State) (p : Bytes) : State := ((s.namedInsts p).foldl (fun t e => t.resetInst e.1 e.2) s).arbSettle

theorem run_safeReset_ready (ready : ∀ e ∈ s.namedInsts p, s.resetReady e.1 e.2 = true) :
    specSafeReset.run h p s = done (s.namedReset p) [] := by
  have none : (s.namedInsts p).filter (fun e => !s.resetReady e.1 e.2) = [] :=
    List.filter_eq_nil_iff.2 fun e he => by simp [ready e he]
  change cmdSafeReset h p s = _
  unfold State.namedInsts at none
  simp only [cmdSafeReset, none]
  cases hl : s.instRecs.filter fun e => bit (u32 p 0) e.1 && (s.inst e.1).latched <;> simp [State.namedReset, State.namedInsts, hl]

theorem run_safeReset_some (some : ∃ e ∈ s.namedInsts p, s.resetReady e.1 e.2 = true)
    (fails : ∃ e ∈ s.namedInsts p, s.resetReady e.1 e.2 = false) :
    specSafeReset.run h p s = done ((s.namedReset p).ledger
      ⟨0, h.stall.toNat, 0, lcRefusedAtBell, h.origin.toNat, recBody (commandChange 0x0D06 .state h p), true, false⟩) [] := by
  have left : ((s.namedInsts p).filter (fun e => !s.resetReady e.1 e.2)).isEmpty = false := by
    obtain ⟨e, he, unready⟩ := fails
    rw [List.isEmpty_eq_false_iff]
    exact List.ne_nil_of_mem (List.mem_filter.2 ⟨he, by simp [unready]⟩)
  have fewer : (((s.namedInsts p).filter (fun e => !s.resetReady e.1 e.2)).length == (s.namedInsts p).length) = false := by
    obtain ⟨e, he, ready⟩ := some
    rw [beq_eq_false_iff_ne, ne_eq, List.length_filter_eq_length_iff]
    exact fun all => by simpa [ready] using all e he
  unfold State.namedInsts at left fewer
  change cmdSafeReset h p s = _
  simp only [cmdSafeReset, left, fewer, Bool.and_false, Bool.false_eq_true, if_false]
  rfl

theorem run_safeReset_none (named : s.namedInsts p ≠ []) (unready : ∀ e ∈ s.namedInsts p, s.resetReady e.1 e.2 = false) :
    specSafeReset.run h p s = refuse s .state := by
  have all : (s.namedInsts p).filter (fun e => !s.resetReady e.1 e.2) = s.namedInsts p :=
    List.filter_eq_self.2 fun e he => by simp [unready e he]
  have some : (s.namedInsts p).isEmpty = false := List.isEmpty_eq_false_iff.2 named
  unfold State.namedInsts at all some
  change cmdSafeReset h p s = _
  simp only [cmdSafeReset, all, some, beq_self_eq_true, Bool.not_false, Bool.and_self, if_true]

end SafetyRuns

/-- Settles O41: each safety command does what its rule says where its conditions hold; a castling exchanges the tables. -/
theorem safetyCommands : Obligations.SafetyCommands := by
  unfold Obligations.SafetyCommands
  refine ⟨?challenge, ?unlock, ?out, ?lock, ?password, ?remote, ?loadLocked, ?load, ?castle, ?castleRefused, ?reset, ?fault, ?swap⟩
  case challenge =>
    rintro nonce rfl
    exact does_of_run (fun _ _ _ => rfl) fun s h p _ => rfl
  case unlock =>
    exact fun salt v nonce expiry => does_of_run (fun _ _ _ => rfl) fun s h p ⟨open_, pw, hn, early, proof⟩ =>
      run_safeUnlock_proven open_ pw hn early proof
  case out => exact refuses_of_run (fun _ _ _ => rfl) fun s h p out => run_safeUnlock_lockedOut out
  case lock => exact does_of_run (fun _ _ _ => rfl) fun s h p _ => rfl
  case password => exact does_of_run (fun _ _ _ => rfl) fun s h p allowed => run_safeSetPassword_allowed allowed
  case remote => exact refuses_of_run (fun _ _ _ => rfl) fun s h p ⟨first, remote⟩ => run_safeSetPassword_remote first remote
  case loadLocked => exact refuses_of_run (fun _ _ _ => rfl) fun s h p locked => run_safeLoad_locked locked
  case load =>
    exact does_of_run (fun _ _ _ => rfl) fun s h p ⟨unlocked, total, later, held⟩ => run_safeLoad_later unlocked total later held
  case castle => exact does_of_run (fun _ _ _ => rfl) fun s h p passes => by rw [run_safeCastle_check, passes]; rfl
  case castleRefused => exact fun st => refuses_of_run (fun _ _ _ => rfl) fun s h p fails => by rw [run_safeCastle_check, fails]; rfl
  case reset =>
    rintro named rfl
    exact ⟨does_of_run (fun _ _ _ => rfl) fun s h p ready => run_safeReset_ready ready,
      does_of_run (fun _ _ _ => rfl) fun s h p ⟨ready, fails⟩ => run_safeReset_some ready fails,
      refuses_of_run (fun _ _ _ => rfl) fun s h p ⟨named, unready⟩ => run_safeReset_none named unready⟩
  case fault => exact does_of_run (fun _ _ _ => rfl) fun s h p _ => rfl
  case swap =>
    intro s origin
    have exchanged := s.safetySets_safeCastle origin
    simp only [State.safetySets, Prod.mk.injEq] at exchanged
    exact exchanged

end Sys2Proof.Machine
end

section
/-! PROOFS. Time and switch commands that are no record of a shadow (R255 to R298). -/

namespace Sys2Proof.Machine

open Claims

section TimeSwitchRuns

variable {s : State} {h : CmdHdr} {p : Bytes}

/-! ### Time (R289 to R298) -/

theorem run_timeSet_check : specTimeSet.run h p s = (s.timeSetRefusal (u64 p 0) (u32 p 8)).elim
    (done (((s.wr Rg.timeSetSec Fd.timeSetSecSec (u64 p 0)).wr Rg.timeSetNs Fd.timeSetNsNs (u32 p 8)).stageTime
      (u64 p 0) (u32 p 8) h.origin.toNat) []) (refuse s) := by
  change cmdTimeSet h p s = _
  unfold cmdTimeSet
  cases s.timeSetRefusal (u64 p 0) (u32 p 8) <;> rfl

theorem run_timeCancelSet_staged (staged : s.staged ≠ none) : specTimeCancelSet.run h p s = done s.cancelTime [] :=
  if_neg (by rwa [Option.isNone_iff_eq_none])

theorem run_timeCancelSet_idle (idle : s.staged = none) : specTimeCancelSet.run h p s = refuse s .state :=
  if_pos (Option.isNone_iff_eq_none.2 idle)

/-- The time stamps that a TIME_READ_TXTS answers with: the oldest of the port that the reply holds (R298). -/
def State.txtsRead (s : State) (h : CmdHdr) (p : Bytes) : List Bytes := fitItems h 0 ((s.txts (sideArg p 0) (u8 p 1 - 1)).take (u8 p 2))

theorem run_timeReadTxts_inRange (ok : portArgs p = true) (least : 1 ≤ u8 p 2) (most : u8 p 2 ≤ 16) : specTimeReadTxts.run h p s =
    done (s.putTxts (sideArg p 0) (u8 p 1 - 1) ((s.txts (sideArg p 0) (u8 p 1 - 1)).drop (s.txtsRead h p).length))
      (s.txtsRead h p).flatten := by
  have inRange : ¬((!portArgs p) = true ∨ u8 p 2 = 0 ∨ 16 < u8 p 2) := by
    simp only [ok, Bool.not_true, Bool.false_eq_true, false_or]
    omega
  change cmdTimeReadTxts h p s = _
  simp only [cmdTimeReadTxts, if_neg inRange, List.flatMap_id, State.txtsRead]

/-! ### Mirrors and ports (R274, R276, R277, R279) -/

theorem run_swMirrorSet_inRange (mirror : u8 p 0 ≤ 3) (sources : 1 ≤ u8 p 1) (dirs : u8 p 1 ≤ 3) (dest : u8 p 3 ≤ 1) (stall : u8 p 4 ≤ 63)
    (ring : u8 p 5 ≤ 63) (least : 2 ≤ u32 p 8) (most : u32 p 8 ≤ 65536) (serves : u8 p 3 = 1 → s.ringServes h.side (u8 p 4) (u8 p 5) = true) :
    specSwMirrorSet.run h p s = done ((s.putReg (Rg.mirrorState h.side (u8 p 0))
        (2 ^ 31 + u8 p 3 * 2 ^ 30 + u8 p 4 * 2 ^ 24 + u8 p 5 * 2 ^ 18 + u8 p 1 * 2 ^ 16)).modSide h.side fun x => { x with sw := { x.sw with
      mirrors := Tbl.put x.sw.mirrors (u8 p 0) p, mirrorCount := x.sw.mirrorCount.filter fun e => e.1 / 16 != u8 p 0 } }) [] := by
  have allowed : ¬(u8 p 3 = 1 && !s.ringServes h.side (u8 p 4) (u8 p 5)) = true := by
    rw [Bool.and_eq_true, decide_eq_true_eq, Bool.not_eq_true']
    exact fun ⟨toRing, not⟩ => Bool.false_ne_true (not.symm.trans (serves toRing))
  exact (if_neg (by omega)).trans (if_neg allowed)

theorem run_swMirrorClear_one (mirror : u8 p 0 ≤ 3) : specSwMirrorClear.run h p s = done (s.clearMirror h.side (u8 p 0)) [] :=
  (if_neg (by omega)).trans (if_neg (by omega))

theorem run_swPortAdmin_up (least : 1 ≤ u8 p 0) (most : u8 p 0 ≤ 11) (up : u8 p 1 = 1) : specSwPortAdmin.run h p s =
    done (s.setFlag (Rg.portStatus h.side (u8 p 0 - 1)) Fd.portStatusAdminDown false) [] := by
  have inRange : ¬(u8 p 0 = 0 ∨ 11 < u8 p 0 ∨ 1 < 1) := by omega
  change cmdSwPortAdmin h p s = _
  simp only [cmdSwPortAdmin, up, if_neg inRange]
  rfl

theorem run_swPortAdmin_down (least : 1 ≤ u8 p 0) (most : u8 p 0 ≤ 11) (down : u8 p 1 = 0) : specSwPortAdmin.run h p s =
    done ((s.setFlag (Rg.portStatus h.side (u8 p 0 - 1)) Fd.portStatusAdminDown true).setLink h.side (u8 p 0 - 1) false false false) [] := by
  have inRange : ¬(u8 p 0 = 0 ∨ 11 < u8 p 0 ∨ 1 < 0) := by omega
  change cmdSwPortAdmin h p s = _
  simp only [cmdSwPortAdmin, down, if_neg inRange]
  rfl

/-! ### The status of a port (R274) -/

/-- The counters of a port as a reply holds them. -/
def State.portCounters (s : State) (sd : SideId) (n : Nat) : Bytes :=
  (List.range 16).flatMap fun i => beBytes 8 (s.regWord (Rg.portCnt sd (16 * n + i)))

theorem run_swPortStatus_ungated (least : 7 ≤ u8 p 0) (most : u8 p 0 ≤ 16) (kept : u8 p 1 = 0) : specSwPortStatus.run h p s =
    done s (beBytes 4 (s.regWord (Rg.portStatus h.side (u8 p 0 - 1))) ++ s.portCounters h.side (u8 p 0 - 1)) := by
  have inRange : ¬(u8 p 0 = 0 ∨ 16 < u8 p 0 ∨ 1 < 0) := by omega
  have ungated : ¬u8 p 0 - 1 < 6 := by omega
  change cmdSwPortStatus h p s = _
  simp only [cmdSwPortStatus, kept, if_neg inRange, decide_eq_false ungated, Bool.false_eq_true, if_false, if_true, List.append_nil,
    State.portCounters, upto]

theorem run_swPortStatus_clears (least : 7 ≤ u8 p 0) (most : u8 p 0 ≤ 16) (clears : u8 p 1 = 1) : specSwPortStatus.run h p s =
    done ((List.range 16).foldl (fun t i => t.putReg (Rg.portCnt h.side (16 * (u8 p 0 - 1) + i)) 0) s)
      (beBytes 4 (s.regWord (Rg.portStatus h.side (u8 p 0 - 1))) ++ s.portCounters h.side (u8 p 0 - 1)) := by
  have inRange : ¬(u8 p 0 = 0 ∨ 16 < u8 p 0 ∨ 1 < 1) := by omega
  have ungated : ¬u8 p 0 - 1 < 6 := by omega
  change cmdSwPortStatus h p s = _
  simp only [cmdSwPortStatus, clears, if_neg inRange, decide_eq_false ungated, Bool.false_eq_true, if_false, one_ne_zero, List.append_nil,
    State.portCounters, upto]

theorem run_swPortStatus_gated (least : 1 ≤ u8 p 0) (most : u8 p 0 ≤ 6) (kept : u8 p 1 = 0) : specSwPortStatus.run h p s =
    done s.free.2 (beBytes 4 (s.regWord (Rg.portStatus h.side (u8 p 0 - 1)))
      ++ beBytes 4 (s.gateStatusWord h.side (u8 p 0 - 1) (s.free.1.toNat % tickLength s.now)) ++ s.portCounters h.side (u8 p 0 - 1)) := by
  have inRange : ¬(u8 p 0 = 0 ∨ 16 < u8 p 0 ∨ 1 < 0) := by omega
  have gated : u8 p 0 - 1 < 6 := by omega
  change cmdSwPortStatus h p s = _
  simp only [cmdSwPortStatus, kept, if_neg inRange, decide_eq_true gated, if_true, State.portCounters, upto]

end TimeSwitchRuns

/-- Settles O43: each command does what its rule says where its conditions hold. -/
theorem timeAndSwitchCommands : Obligations.TimeAndSwitchCommands := by
  unfold Obligations.TimeAndSwitchCommands
  refine ⟨?utc, ?set, ?setRefused, ?cancel, ?idle, ?read, ?stamps, ?mirror, ?clear, ?up, ?down, ?wake, ?status, ?clears, ?gated⟩
  case utc => exact does_of_run (fun _ _ _ => rfl) fun s h p _ => rfl
  case set => exact does_of_run (fun _ _ _ => rfl) fun s h p passes => by rw [run_timeSet_check, passes]; rfl
  case setRefused => exact fun st => refuses_of_run (fun _ _ _ => rfl) fun s h p fails => by rw [run_timeSet_check, fails]; rfl
  case cancel => exact does_of_run (fun _ _ _ => rfl) fun s h p staged => run_timeCancelSet_staged staged
  case idle => exact refuses_of_run (fun _ _ _ => rfl) fun s h p idle => run_timeCancelSet_idle idle
  case read => exact does_of_run (fun _ _ _ => rfl) fun s h p _ => rfl
  case stamps =>
    rintro out rfl
    exact does_of_run (fun _ _ _ => rfl) fun s h p ⟨ok, least, most⟩ => run_timeReadTxts_inRange ok least most
  case mirror =>
    exact does_of_run (fun _ _ _ => rfl) fun s h p ⟨mirror, sources, dirs, dest, stall, ring, least, most, serves⟩ =>
      run_swMirrorSet_inRange mirror sources dirs dest stall ring least most serves
  case clear => exact does_of_run (fun _ _ _ => rfl) fun s h p mirror => run_swMirrorClear_one mirror
  case up => exact does_of_run (fun _ _ _ => rfl) fun s h p ⟨least, most, up⟩ => run_swPortAdmin_up least most up
  case down => exact does_of_run (fun _ _ _ => rfl) fun s h p ⟨least, most, down⟩ => run_swPortAdmin_down least most down
  case wake => exact does_of_run (fun _ _ _ => rfl) fun s h p _ => rfl
  case status => exact does_of_run (fun _ _ _ => rfl) fun s h p ⟨least, most, kept⟩ => run_swPortStatus_ungated least most kept
  case clears => exact does_of_run (fun _ _ _ => rfl) fun s h p ⟨least, most, clears⟩ => run_swPortStatus_clears least most clears
  case gated =>
    rintro out rfl
    exact does_of_run (fun _ _ _ => rfl) fun s h p ⟨least, most, kept⟩ => run_swPortStatus_gated least most kept

end Sys2Proof.Machine
end

section
/-! PROOFS. Host rings, keys, updates, health and power: their commands (R381 to R389, R432 to R439, R449 to R454, R465, R466,
R478, R498). -/

namespace Sys2Proof.Machine

open Claims

section MaintenanceRuns

variable {s : State} {h : CmdHdr} {p : Bytes}

/-! ### Rings (R381, R389) -/

theorem run_hlRingSet_disabled (ok : ringRecRange p = true) (disabled : s.flag (Rg.ringCfg h.side (u8 p 0)) Fd.ringCfgEnabled = false)
    (may : u8 p 3 = 1 → s.ringMayEnable h.side p = true) : specHlRingSet.run h p s = done (s.ringDefine h.side p) [] := by
  have allowed : ¬(u8 p 3 = 1 && !s.ringMayEnable h.side p) = true := by
    rw [Bool.and_eq_true, decide_eq_true_eq, Bool.not_eq_true']
    exact fun ⟨enables, not⟩ => Bool.false_ne_true (not.symm.trans (may enables))
  exact (ite_bnot _ _ _).trans ((if_pos ok).trans ((if_neg (Bool.eq_false_iff.1 disabled)).trans (if_neg allowed)))

theorem run_hlRingSet_changed (ok : ringRecRange p = true) (enabled : s.flag (Rg.ringCfg h.side (u8 p 0)) Fd.ringCfgEnabled = true)
    (changed : s.ringSame h.side p = false) : specHlRingSet.run h p s = refuse s .state :=
  (ite_bnot _ _ _).trans ((if_pos ok).trans ((if_pos enabled).trans ((ite_bnot _ _ _).trans (if_neg (Bool.eq_false_iff.1 changed)))))

theorem run_hlRingReset_one (ring : u8 p 0 ≤ 63) : specHlRingReset.run h p s =
    done ((s.resetRing h.side (u8 p 0)).setFlag (Rg.ringCfg h.side (u8 p 0)) Fd.ringCfgResetDone true) [] :=
  (if_neg (by omega)).trans (if_neg (by omega))

/-! ### Keys (R449 to R454) -/

/-- A side takes an imported key into its slot where its own check passes (R449). -/
def State.importSlot (p : Bytes) (sd : SideId) (s : State) : State := match s.importCheck sd p with
  | .ok k => s.writeSlot sd p k
  | .error _ => s

theorem run_keyImport_checked {key : Bytes} (hk : s.importCheck s.speaker p = .ok key) : specKeyImport.run h p s =
    done (s.forSides (State.importSlot p)) [] := by
  change cmdKeyImport h p s = _
  unfold cmdKeyImport
  rw [hk]
  rfl

theorem run_keyImport_refused {st : Status} (hk : s.importCheck s.speaker p = .error st) : specKeyImport.run h p s = refuse s st := by
  change cmdKeyImport h p s = _
  unfold cmdKeyImport
  rw [hk]

theorem run_keyErase_free (slot : u8 p 0 ≤ 63) (valid : s.slotFlag s.speaker (u8 p 0) Fd.keySlotValid = true)
    (optional : s.requiredSlot (u8 p 0) = false) (wraps : s.unwrapSlots s.speaker ≠ [u8 p 0]) (unnamed : s.slotNamed (u8 p 0) = false) :
    specKeyErase.run h p s = done (s.forSides fun d t => t.clearSlot d (u8 p 0)) [] := by
  have inRange : ¬(63 < u8 p 0 ∨ (!s.slotFlag s.speaker (u8 p 0) Fd.keySlotValid) = true) := by
    simp only [valid, Bool.not_true, Bool.false_eq_true, or_false]
    omega
  have unused : (s.requiredSlot (u8 p 0) || s.unwrapSlots s.speaker == [u8 p 0] || s.slotNamed (u8 p 0)) = false := by
    simp only [optional, unnamed, beq_eq_false_iff_ne.2 wraps, Bool.or_self]
  exact (if_neg inRange).trans (if_neg (Bool.eq_false_iff.1 unused))

/-- A cleared slot holds no key (R453). -/
theorem State.clearSlot_keyless (s : State) (sd : SideId) (k : Nat) : Tbl.has ((s.clearSlot sd k).side sd).keys k = false := by
  rw [State.clearSlot, State.modSide_same, Tbl.has, Tbl.find_del_same]
  rfl

theorem run_keyRevokeSigner_unused (least : u8 p 0 ≤ 3) (present : Config.signerPresent s.speaker (u8 p 0) = true)
    (unused : ∀ d, imageKeyId (s.side d).image ≠ u8 p 0 ∧ imageKeyId (s.side d).stored ≠ u8 p 0)
    (left : ∃ j < 4, j ≠ u8 p 0 ∧ Config.signerPresent s.speaker j = true ∧ s.revoked s.speaker j = false) :
    specKeyRevokeSigner.run h p s = done (s.forSides fun d t => t.setFlag (Rg.keySigner d (u8 p 0)) Fd.keySignerRevoked true) [] := by
  have inRange : ¬(3 < u8 p 0 ∨ (!Config.signerPresent s.speaker (u8 p 0)) = true) := by
    simp only [present, Bool.not_true, Bool.false_eq_true, or_false]
    omega
  have signs : bothSides.any (fun d => imageKeyId (s.side d).image == u8 p 0 || imageKeyId (s.side d).stored == u8 p 0) = false :=
    List.any_eq_false.2 fun d _ => by simp [unused d]
  have last : (upto 4).all (fun j => j == u8 p 0 || !Config.signerPresent s.speaker j || s.revoked s.speaker j) = false := by
    obtain ⟨j, hj, other, held, good⟩ := left
    exact List.all_eq_false.2 ⟨j, List.mem_range.2 hj, by simp [other, held, good]⟩
  exact (if_neg inRange).trans ((if_neg (Bool.eq_false_iff.1 signs)).trans (if_neg (Bool.eq_false_iff.1 last)))

/-! ### Updates (R432 to R439) -/

theorem run_updBegin_free (side : u8 p 0 ≤ 1) (least : 224 ≤ u32 p 1) (most : u32 p 1 ≤ 33554432) (idle : s.updating = false)
    (proven : s.nor (sideArg p 0).other = norProven) (serves : s.computes (sideArg p 0).other = true)
    (lease : s.leaseConflict lkUpdate = false) : specUpdBegin.run h p s =
    done (((({ s with update := { UpdSt.reset with phase := upStoring, first := sideArg p 0, length := u32 p 1 } } : State).setNor
      (sideArg p 0) norWriting).setKib (sideArg p 0) 0).takeLease lkUpdate (sideArg p 0).code h.origin.toNat) [] := by
  have inRange : ¬(1 < u8 p 0 ∨ u32 p 1 < 224 ∨ 33554432 < u32 p 1) := by omega
  have ready : ¬(s.nor (sideArg p 0).other ≠ norProven ∨ (!s.computes (sideArg p 0).other) = true) := by
    rw [proven, serves]
    decide
  exact (if_neg inRange).trans ((if_neg (Bool.eq_false_iff.1 idle)).trans
    ((if_neg ready).trans (if_neg (Bool.eq_false_iff.1 lease))))

theorem run_updWrite_whole (storing : s.storing = true) (fits : u32 p 0 + (p.drop 8).length ≤ s.update.length)
    (crc : crc32c (p.drop 8) = u32 p 4) : specUpdWrite.run h p s = done (s.writeBlock (u32 p 0) (p.drop 8)) [] :=
  (ite_bnot _ _ _).trans ((if_pos storing).trans ((if_neg (Nat.not_lt.2 fits)).trans (if_neg (not_not_intro crc))))

theorem run_updWriteRing_inRange (ring : s.fromHostOf0 h.side (u8 p 0) = true) (storing : s.storing = true) (zero : u24 p 1 = 0)
    (some : u32 p 8 ≠ 0) (fits : u32 p 4 + u32 p 8 ≤ s.update.length) : specUpdWriteRing.run h p s =
    ⟨{ s with ringLoads := s.ringLoads ++ [⟨h, true, u8 p 0, u32 p 4, u32 p 8, []⟩] }, .acceptedPending, []⟩ :=
  (ite_bnot _ _ _).trans ((if_pos ring).trans ((ite_bnot _ _ _).trans ((if_pos storing).trans (if_neg (by omega)))))

/-- Leases keep their kind when an update of the module alone is scheduled and none is held for the pair. -/
theorem leases_of_moduleUpdate {l : List Lease} (alone : ∀ x ∈ l, x.kind ≠ lkPairUpdate) :
    (l.map fun (x : Lease) => if x.kind = lkUpdate ∨ x.kind = lkPairUpdate then { x with kind := lkUpdate } else x) = l := by
  refine (List.map_congr_left fun x hx => ?_).trans (List.map_id l)
  split
  · next update => rw [← update.resolve_right (alone x hx)]; rfl
  · rfl

theorem run_updSchedule_stored (least : 30 ≤ u16 p 8) (most : u16 p 8 ≤ 600) (flags : u8 p 12 ≤ 1) (range : u64 p 0 < 2 ^ 48)
    (phase : s.update.phase = upStoring ∨ s.update.phase = upScheduled) (stored : s.nor s.update.first = norStored) :
    specUpdSchedule.run h p s = if u64 p 0 ≤ s.now / 4800 + 1 then refuse s .late else
      done ({ s with
        update := { s.update with phase := upScheduled, atSecond := u64 p 0, window := u16 p 8, delay := u16 p 10,
                                  outage := u8 p 12 == 1, authorised := false, pair := false }
        leases := s.leases.map fun (x : Lease) =>
          if x.kind = lkUpdate ∨ x.kind = lkPairUpdate then { x with kind := lkUpdate } else x } : State).forwardSeal [] := by
  have inRange : ¬(u16 p 8 < 30 ∨ 600 < u16 p 8 ∨ 3 < u8 p 12 ∨ 2 ^ 48 ≤ u64 p 0) := by omega
  have ready : ¬((s.update.phase ≠ upStoring ∧ s.update.phase ≠ upScheduled) ∨ s.nor s.update.first ≠ norStored) := by
    rw [not_or, not_and_or, not_not, not_not, not_not]
    exact ⟨phase, stored⟩
  obtain ⟨alone, outage⟩ : bit (u8 p 12) 1 = false ∧ bit (u8 p 12) 0 = (u8 p 12 == 1) := by
    obtain zero | one : u8 p 12 = 0 ∨ u8 p 12 = 1 := by omega
    · rw [zero]; decide
    · rw [one]; decide
  change cmdUpdSchedule h p s = _
  simp only [cmdUpdSchedule, if_neg inRange, if_neg ready, alone, outage, Bool.false_and, Bool.false_eq_true, if_false]
  rfl

/-! ### Health and power (R465, R466, R478, R498) -/

theorem run_healthDeepTest_inStep (side : u8 p 0 ≤ 1) (inStep : s.inStep (sideArg p 0) = true) (lease : s.leaseConflict lkDeepTest = false) :
    specHealthDeepTest.run h p s = ⟨((((s.takeLease lkDeepTest (sideArg p 0).code h.origin.toNat).goOut (sideArg p 0) rcSideOut).setFlag
        (Rg.healthTest (sideArg p 0)) Fd.healthTestDeepTest true).modDuty (sideArg p 0) fun d =>
          { d with tested := false, resync := { d.resync with hdr := some h } }).partEvent (sideArg p 0) lcDeepTest
            (unitAddr 6 (sideArg p 0) 0x1F) 0, .acceptedPending, []⟩ :=
  (if_neg (Nat.not_lt.2 side)).trans ((ite_bnot _ _ _).trans ((if_pos inStep).trans (if_neg (Bool.eq_false_iff.1 lease))))

/-- The side of a part that is not of the cross-link or the module (R458). -/
def partSide (p : Bytes) : SideId := if partDomain (u32 p 0) = 1 then .B else .A

theorem run_healthTestUnit_still (known : partKnown (u32 p 0) = true)
    (still : s.flag (Rg.healthTest (partSide p)) Fd.healthTestRotationOn = false) : specHealthTestUnit.run h p s =
    done s.free.2 (beBytes 1 (b2n ((List.range 64).any fun i => s.regWord (Rg.faultLog (partSide p) i) / 2 ^ 32 == u32 p 0)) ++ zeros 7 ++
      beBytes 8 (s.now - s.free.1.toNat)) := by
  change cmdHealthTestUnit h p s = _
  unfold partSide at *
  simp only [cmdHealthTestUnit, known, still, Bool.not_true, Bool.false_eq_true, if_false, Bool.and_false, Bool.false_and, upto]

theorem run_powerRestart_module (whole : u8 p 0 = 0) : specPowerRestart.run h p s =
    if s.restartBarred = true then refuse s .conflict else done (s.enterStop (.boot 3)) [] := by
  change cmdPowerRestart h p s = _
  simp only [cmdPowerRestart, whole]

theorem run_serviceGo_closed (closed : s.gateOpen = false) (active : s.active ≠ none) :
    specServiceGo.run h p s = done (s.openGate true s.bootMs) [] := by
  refine if_neg ?_
  rw [Bool.or_eq_true, Option.isNone_iff_eq_none, not_or]
  exact ⟨Bool.eq_false_iff.1 closed, active⟩

theorem run_serviceGo_open (isOpen : s.gateOpen = true) : specServiceGo.run h p s = refuse s .state :=
  if_pos (by rw [isOpen, Bool.true_or])

end MaintenanceRuns

/-- Settles O44: each command does what its rule says where its conditions hold, and a cleared slot holds no key. -/
theorem maintenanceCommands : Obligations.MaintenanceCommands := by
  unfold Obligations.MaintenanceCommands
  refine ⟨?ring, ?changed, ?ringReset, ?imports, ?importRefused, ?erase, ?cleared, ?revoke, ?begin, ?write, ?writeRing, ?schedule, ?late,
    ?authorise, ?cancel, ?deepTest, ?unit, ?restart, ?barred, ?park, ?go, ?opened⟩
  case ring => exact does_of_run (fun _ _ _ => rfl) fun s h p ⟨ok, disabled, may⟩ => run_hlRingSet_disabled ok disabled may
  case changed => exact refuses_of_run (fun _ _ _ => rfl) fun s h p ⟨ok, enabled, changed⟩ => run_hlRingSet_changed ok enabled changed
  case ringReset => exact does_of_run (fun _ _ _ => rfl) fun s h p ring => run_hlRingReset_one ring
  case imports => exact fun key => does_of_run (fun _ _ _ => rfl) fun s h p hk => run_keyImport_checked hk
  case importRefused => exact fun st => refuses_of_run (fun _ _ _ => rfl) fun s h p hk => run_keyImport_refused hk
  case erase =>
    exact does_of_run (fun _ _ _ => rfl) fun s h p ⟨slot, valid, optional, wraps, unnamed⟩ =>
      run_keyErase_free slot valid optional wraps unnamed
  case cleared => exact State.clearSlot_keyless
  case revoke =>
    exact does_of_run (fun _ _ _ => rfl) fun s h p ⟨least, present, unused, left⟩ => run_keyRevokeSigner_unused least present unused left
  case begin =>
    exact does_of_run (fun _ _ _ => rfl) fun s h p ⟨side, least, most, idle, proven, serves, lease⟩ =>
      run_updBegin_free side least most idle proven serves lease
  case write => exact does_of_run (fun _ _ _ => rfl) fun s h p ⟨storing, fits, crc⟩ => run_updWrite_whole storing fits crc
  case writeRing =>
    exact accepts_of_run (fun _ _ _ => rfl) fun s h p ⟨ring, storing, zero, length, fits⟩ =>
      run_updWriteRing_inRange ring storing zero length fits
  case schedule =>
    refine does_of_run (fun _ _ _ => rfl) fun s h p ⟨least, most, flags, range, phase, stored, early, alone⟩ => ?_
    rw [run_updSchedule_stored least most flags range phase stored, if_neg (Nat.not_le.2 early), leases_of_moduleUpdate alone]
    rfl
  case late =>
    exact refuses_of_run (fun _ _ _ => rfl) fun s h p ⟨least, most, flags, range, phase, stored, late⟩ =>
      (run_updSchedule_stored least most flags range phase stored).trans (if_pos late)
  case authorise => exact does_of_run (fun _ _ _ => rfl) fun s h p scheduled => if_pos scheduled
  case cancel => exact does_of_run (fun _ _ _ => rfl) fun s h p phase => if_pos phase
  case deepTest =>
    exact accepts_of_run (fun _ _ _ => rfl) fun s h p ⟨side, inStep, lease⟩ => run_healthDeepTest_inStep side inStep lease
  case unit =>
    rintro sd rfl
    exact does_of_run (fun _ _ _ => rfl) fun s h p ⟨known, still⟩ => run_healthTestUnit_still known still
  case restart =>
    exact does_of_run (fun _ _ _ => rfl) fun s h p ⟨whole, free⟩ => (run_powerRestart_module whole).trans (if_neg (Bool.eq_false_iff.1 free))
  case barred => exact refuses_of_run (fun _ _ _ => rfl) fun s h p ⟨whole, barred⟩ => (run_powerRestart_module whole).trans (if_pos barred)
  case park => exact does_of_run (fun _ _ _ => rfl) fun s h p free => if_neg (Bool.eq_false_iff.1 free)
  case go => exact does_of_run (fun _ _ _ => rfl) fun s h p ⟨closed, active⟩ => run_serviceGo_closed closed active
  case opened => exact refuses_of_run (fun _ _ _ => rfl) fun s h p isOpen => run_serviceGo_open isOpen

end Sys2Proof.Machine
end

section
/-! PROOFS. Packets of the ports and the console, and commands at their bell (R390 to R392, R399, R400, R404, R407). -/

namespace Sys2Proof.Machine

open Claims

/-- Two updates of a side are one. -/
theorem State.modSide_modSide (s : State) (sd : SideId) (f g : Side → Side) :
    (s.modSide sd f).modSide sd g = s.modSide sd fun x => g (f x) := by
  cases sd <;> rfl

section Packets

variable {s : State} {sd : SideId} {h : CmdHdr} {b : Bytes}

/-! ### Datagrams (R390, R391) -/

theorem State.commandPacket_deaf (t : Transport) (p : Nat) (frag : Bool) (deaf : s.hears = false) : s.commandPacket sd t p frag b = s := by
  simp only [State.commandPacket, deaf, Bool.not_false, if_true]

theorem State.commandPacket_udp {a : UdpAddr} (p : Nat) (frag : Bool) (hears : s.hears = true) (station : s.forStation sd a = true) :
    s.commandPacket sd (.udp a) p frag b = if p < 8 ∨ 10 < p ∨ frag = true ∨ u16 b 4 ≠ b.length then
      s.discardPacket (pkHdr sd (.udp a) 0 b) else s.queuePacket (pkHdr sd (.udp a) 0 b) b := by
  simp only [State.commandPacket, hears, station, Bool.not_true, Bool.false_eq_true, if_false]
  rfl

theorem State.commandPacket_elsewhere {a : UdpAddr} (p : Nat) (frag : Bool) (other : s.forStation sd a = false) :
    s.commandPacket sd (.udp a) p frag b = s := by
  simp only [State.commandPacket, other, Bool.not_false, if_true, ite_self]

theorem State.commandPacket_noPacket {t : Transport} (p : Nat) (frag : Bool) (noUdp : ∀ a, t ≠ .udp a) (noConsole : t ≠ .console) :
    s.commandPacket sd t p frag b = s := by
  cases t with
  | udp a => exact absurd rfl (noUdp a)
  | console => exact absurd rfl noConsole
  | mailbox n => exact ite_self s
  | bar0 => exact ite_self s
  | internal => exact ite_self s

theorem State.forStation_noStation {a : UdpAddr} (none : s.station sd = none) :
    s.forStation sd a = (a.dstPort.toNat == s.cmdPort sd) := by
  simp [State.forStation, none]

/-! ### The queue of a side (R407) -/

theorem State.discardPacket_noMailbox (h : CmdHdr) (noMailbox : ∀ n, h.transport ≠ .mailbox n) :
    s.discardPacket h = s.tick1 (Rg.cmdDrop h.side) Fd.cmdDropDiscarded := by
  simp only [State.discardPacket, State.dropFlight]

theorem State.queuePacket_full (full : 1024 ≤ (s.side h.side).rxQueue.length) :
    s.queuePacket h b = (s.tick1 (Rg.cmdDrop h.side) Fd.cmdDropQueueFull).dropFlight h := if_pos full

/-- Without a share of the tick left, nothing is taken (R407). -/
theorem State.takePacket_noBudget (none : s.cmdBudget = 0) : s.takePacket sd = s := by
  simp [State.takePacket, none]

theorem State.takePacket_first {e : CmdHdr × Bytes} {rest : List (CmdHdr × Bytes)} {n : Nat}
    (queue : (s.side sd).rxQueue = e :: rest) (budget : s.cmdBudget = n + 1) :
    s.takePacket sd = (({ s with cmdBudget := n } : State).modSide sd fun x => { x with rxQueue := rest }).checkPacket e.1 e.2 := by
  simp [State.takePacket, queue, budget]

theorem State.queuePacket_waits (room : (s.side h.side).rxQueue.length < 1024) (spent : s.cmdBudget = 0) :
    s.queuePacket h b = s.modSide h.side fun x => { x with rxQueue := x.rxQueue ++ [(h, b)] } := by
  rw [State.queuePacket, if_neg (Nat.not_le.2 room), State.takePacket_noBudget (by simpa using spent)]

/-- A packet that meets an empty queue and a share of the tick is judged at once (R407). -/
theorem State.queuePacket_checks {n : Nat} (empty : (s.side h.side).rxQueue = []) (budget : s.cmdBudget = n + 1) :
    s.queuePacket h b = ({ s with cmdBudget := n } : State).checkPacket h b := by
  have room : ¬1024 ≤ (s.side h.side).rxQueue.length := by simp [empty]
  have emptied : ({ s with cmdBudget := n } : State).modSide h.side (fun x => { x with rxQueue := [] }) = { s with cmdBudget := n } :=
    State.modSide_fixed _ (by rw [← empty]; rfl)
  have taken : ({ s.modSide h.side (fun x => { x with rxQueue := x.rxQueue ++ [(h, b)] }) with cmdBudget := n } : State).modSide h.side
      (fun x => { x with rxQueue := [] }) = ({ s with cmdBudget := n } : State).modSide h.side fun x => { x with rxQueue := [] } := by
    cases h.side <;> rfl
  rw [State.queuePacket, if_neg room, State.takePacket_first (e := (h, b)) (rest := []) (by simp [empty]) (by simpa using budget), taken,
    emptied]

/-! ### The checks of a packet, in order (R400) -/

theorem State.checkPacket_malformed (bad : u16 b 0 ≠ 0x4B56 ∨ u16 b 4 < 48 ∨ u8 b 3 ≠ 0 ∨ b.length < 32) :
    s.checkPacket h b = s.discardPacket h := if_pos bad

section WellFormed

variable (magic : u16 b 0 = 0x4B56) (least : 48 ≤ u16 b 4) (zero : u8 b 3 = 0)

include magic least zero

theorem State.checkPacket_wrongLength (whole : 32 ≤ b.length) (wrong : 1056 < u16 b 4 ∨ u16 b 4 ≠ b.length) :
    s.checkPacket h b = s.unsigned h (pkOp b) .badLength := by
  have wellFormed : ¬(u16 b 0 ≠ 0x4B56 ∨ pkLength b < 48 ∨ u8 b 3 ≠ 0 ∨ b.length < 32) := by
    unfold pkLength
    omega
  exact (if_neg wellFormed).trans (if_pos (wrong.imp_right Or.inl))

variable (length : u16 b 4 = b.length) (most : b.length ≤ 1056) (anyReply : u16 b 28 = 0)

include length most anyReply

theorem State.checkPacket_framed : s.checkPacket h b =
    if u8 b 2 ≠ 1 then s.unsigned h (pkOp b) .badVersion
    else (s.authentic h b).elim ((s.refusedPrincipal h .badAuth).unsigned h (pkOp b) .badAuth) (s.judgePacket h b) := by
  have wellFormed : ¬(u16 b 0 ≠ 0x4B56 ∨ pkLength b < 48 ∨ u8 b 3 ≠ 0 ∨ b.length < 32) := by
    unfold pkLength
    omega
  have rightLength : ¬(1056 < pkLength b ∨ pkLength b ≠ b.length ∨ (u16 b 28 ≠ 0 ∧ (u16 b 28 < 48 ∨ 9216 < u16 b 28))) := by
    unfold pkLength
    omega
  refine (if_neg wellFormed).trans ((if_neg rightLength).trans ?_)
  cases s.authentic h b <;> rfl

end WellFormed

/-! ### The console (R392) -/

theorem State.commandPacket_console (p : Nat) (frag : Bool) (hears : s.hears = true) : s.commandPacket sd .console p frag b =
    (s.modSide sd fun x => { x with console := x.console ++ b }).readConsole sd (b.length + 1) := by
  simp only [State.commandPacket, hears, Bool.not_true, Bool.false_eq_true, if_false]

/-- Bytes that complete no packet wait for more. -/
theorem State.readConsole_partial {c : Bytes} (n : Nat) (hc : c = fromMagic (s.side sd).console) (short : c.length < max 6 (u16 c 4)) :
    s.readConsole sd (n + 1) = s.modSide sd fun x => { x with console := c } := by
  subst hc
  exact if_pos short

theorem State.readConsole_packet (n : Nat) (hb : fromMagic (s.side sd).console = b) (least : 6 ≤ u16 b 4) (length : b.length = u16 b 4) :
    s.readConsole sd (n + 1) =
      ((s.modSide sd fun x => { x with console := [] }).queuePacket (pkHdr sd .console 0 b) b).readConsole sd n := by
  have len : max 6 (pkLength b) = b.length := by unfold pkLength; omega
  have queued : ∀ c : Bytes, (s.modSide sd fun x => { x with console := c }).modSide sd (fun x => { x with console := [] }) =
      s.modSide sd fun x => { x with console := [] } := fun c => s.modSide_modSide sd _ _
  simp only [State.readConsole, hb, len, lt_irrefl, if_false, List.drop_length, List.take_length, queued]

/-! ### Commands at their bell (R404) -/

theorem State.applyDue_none (none : ∀ c ∈ s.waiting, c.hdr.side = sd → c.tick ≠ s.now ∨ c.tick = 0) : s.applyDue sd = s := by
  have idle : ∀ c ∈ s.waiting, (c.hdr.side == sd && c.tick == s.now && c.tick != 0 && (!c.listed || s.active.isSome)) = false := by
    intro c hc
    by_cases side : c.hdr.side = sd
    · rcases none c hc side with later | unset
      · simp [later]
      · simp [unset]
    · simp [side]
  have kept : (s.waiting.filter fun c =>
      !(c.hdr.side == sd && c.tick == s.now && c.tick != 0 && (!c.listed || s.active.isSome))) = s.waiting :=
    List.filter_eq_self.2 fun c hc => by rw [idle c hc]; rfl
  simp only [State.applyDue, List.filter_eq_nil_iff.2 fun c hc => Bool.eq_false_iff.1 (idle c hc), kept, List.foldl_nil]

theorem State.applyDue_single {c : WaitCmd} {k : CmdSpec} (only : s.waiting = [c]) (side : c.hdr.side = sd) (now : c.tick = s.now)
    (set : c.tick ≠ 0) (unlisted : c.listed = false) (known : cmdOf c.op = some k) :
    s.applyDue sd = ({ s with waiting := [] } : State).executeQueued k c := by
  have due : (c.hdr.side == sd && c.tick == s.now && c.tick != 0 && (!c.listed || s.active.isSome)) = true := by
    simp [side, ← now, set, unlisted]
  simp only [State.applyDue, only, List.filter_cons, due, if_true, Bool.not_true, Bool.false_eq_true, if_false, List.filter_nil,
    List.foldl_cons, List.foldl_nil, State.runWaiting, known]

end Packets

/-- Settles O56: each row of packets and of commands at their bell does what its rule says where its condition holds. -/
theorem packetEvents : Obligations.PacketEvents := by
  unfold Obligations.PacketEvents
  intro s
  refine ⟨?deaf, ?discarded, ?queued, ?elsewhere, ?station, ?full, ?waits, ?checks, ?discard, ?short, ?packet, ?none, ?idle, ?due, ?noGap, ?gap⟩
  case deaf => exact fun sd t p frag b deaf => congrArg _ (State.commandPacket_deaf t p.val frag deaf)
  case discarded =>
    exact fun sd a p frag b hears station wrong =>
      congrArg _ ((State.commandPacket_udp p.val frag hears station).trans (if_pos wrong))
  case queued =>
    intro sd a p b hears station least most length
    have right : ¬(p.val < 8 ∨ 10 < p.val ∨ false = true ∨ u16 b 4 ≠ b.length) := by
      simp only [Bool.false_eq_true, false_or]
      omega
    exact congrArg _ ((State.commandPacket_udp p.val false hears station).trans (if_neg right))
  case elsewhere => exact fun sd a p frag b other => congrArg _ (State.commandPacket_elsewhere p.val frag other)
  case station => exact fun sd a none => State.forStation_noStation none
  case full => exact fun h b full => State.queuePacket_full full
  case waits => exact fun h b _ room spent => State.queuePacket_waits room spent
  case checks =>
    rintro h b n empty budget u rfl
    rw [State.queuePacket_checks empty budget]
    refine ⟨State.checkPacket_malformed, fun magic least zero whole =>
      ⟨State.checkPacket_wrongLength magic least zero whole, fun length most anyReply => ?_⟩⟩
    rw [State.checkPacket_framed magic least zero length most anyReply]
    refine ⟨fun version => if_pos version, fun version unknown => ?_, fun p version known => ?_⟩
    · rw [if_neg (not_not_intro version), unknown]; rfl
    · rw [if_neg (not_not_intro version), known]; rfl
  case discard => exact fun h noMailbox => State.discardPacket_noMailbox h noMailbox
  case short =>
    intro sd p frag b c hears hc short
    refine congrArg _ ((State.commandPacket_console p.val frag hears).trans ?_)
    rw [State.readConsole_partial _ (c := c) (by rw [State.modSide_same, hc]) short, State.modSide_modSide]
  case packet =>
    intro sd p frag b hears empty magic least length
    refine congrArg _ ((State.commandPacket_console p.val frag hears).trans ?_)
    rw [State.readConsole_packet _ (b := b) (by simp [empty, magic]) least length, State.modSide_modSide]
  case none => exact fun sd p frag b t noUdp noConsole => congrArg _ (State.commandPacket_noPacket p.val frag noUdp noConsole)
  case idle => exact fun sd none => congrArg _ (State.applyDue_none none)
  case due => exact fun sd c k only side now set unlisted known => congrArg _ (State.applyDue_single only side now set unlisted known)
  case noGap => exact fun sd empty => congrArg _ (if_pos (List.isEmpty_iff.2 empty))
  case gap => exact fun sd some => congrArg _ (if_neg (by rwa [List.isEmpty_iff]))

end Sys2Proof.Machine
end

section
/-! PROOFS. Network time (R280 to R298): the servo, masters and holdover, a staged time, time stamps, messages of master ports. -/

namespace Sys2Proof.Machine

open Claims

/-! ### Instants and ticks (R30) -/

theorem tickStart_add (q k : Nat) (h : k < 4800) : tickStart (q * 4800 + k) = q * 1000000000 + k * 625000 / 3 := by
  have whole : (q * 4800 + k) / 4800 = q := by omega
  have rest : (q * 4800 + k) % 4800 = k := by omega
  rw [tickStart, whole, rest]

/-- The T0 of the tick that an instant of TAI falls in, and of the next: the instant lies between them. -/
theorem tickStart_tickOfNs (t : Nat) : tickStart (tickOfNs t) ≤ t ∧ t ≤ tickStart (tickOfNs t + 1) := by
  obtain ⟨q, n, hn, rfl⟩ : ∃ q n, n < 1000000000 ∧ t = q * 1000000000 + n := ⟨t / 1000000000, t % 1000000000, by omega, by omega⟩
  obtain ⟨k, hk⟩ : ∃ k, k = (n * 3 + 2) / 625000 := ⟨_, rfl⟩
  have tick : tickOfNs (q * 1000000000 + n) = q * 4800 + k := by
    have whole : (q * 1000000000 + n) / 1000000000 = q := by omega
    have rest : (q * 1000000000 + n) % 1000000000 = n := by omega
    simp only [tickOfNs, whole, rest, hk]
  have small : k < 4800 := by omega
  rw [tick, tickStart_add q k small]
  refine ⟨by omega, ?_⟩
  by_cases last : k + 1 < 4800
  · rw [Nat.add_assoc, tickStart_add q _ last]
    omega
  · have next : q * 4800 + k + 1 = (q + 1) * 4800 + 0 := by omega
    rw [next, tickStart_add _ 0 (by decide)]
    omega
theorem tickStart_strictMono {v w : Nat} (h : v < w) : tickStart v < tickStart w := by
  unfold tickStart
  omega

theorem le_tickStart_firstTick (t : Nat) : t ≤ tickStart (firstTick t) := by
  obtain ⟨_, before⟩ := tickStart_tickOfNs t
  simp only [firstTick]
  split <;> omega

/-- The first tick from an instant on is the least one whose T0 is not before it. -/
theorem firstTickFrom_least (t : Nat) : t ≤ tickStart (firstTickFrom t) ∧ ∀ w, t ≤ tickStart w → firstTickFrom t ≤ w := by
  obtain ⟨after, before⟩ := tickStart_tickOfNs t
  simp only [firstTickFrom]
  split
  · refine ⟨by omega, fun w hw => Nat.succ_le_of_lt (lt_of_not_ge fun late => ?_)⟩
    rcases Nat.lt_or_eq_of_le late with less | same
    · have := tickStart_strictMono less; omega
    · subst same; omega
  · refine ⟨by omega, fun w hw => le_of_not_gt fun late => ?_⟩
    have := tickStart_strictMono late
    omega

/-! ### What a sample of the slave port's offset leaves (R298) -/

section Servo

variable {s : State} {sd : SideId} {theta : Int}

/-- The servo with the instant of its last sample. -/
def State.sampled (s : State) (sd : SideId) : ServoSt := { s.servo sd with syncAt := s.now }

/-- A sample at the slave port is noted there and nowhere else. -/
theorem State.notePortTheta_keeps (s : State) (theta : Int) : (s.notePortTheta theta).active = s.active ∧
    (s.notePortTheta theta).modActive = s.modActive ∧ (s.notePortTheta theta).anyRunning = s.anyRunning ∧
    ∀ sd, (s.notePortTheta theta).servo sd = s.servo sd ∧ (s.notePortTheta theta).sampled sd = s.sampled sd := by
  unfold State.notePortTheta
  split
  · next p _ => rcases p with ⟨_ | _, _⟩ <;> exact ⟨rfl, rfl, rfl, fun sd => by cases sd <;> exact ⟨rfl, rfl⟩⟩
  · exact ⟨rfl, rfl, rfl, fun _ => ⟨rfl, rfl⟩⟩

section Active

variable (act : s.active = some sd)

include act

theorem State.servoUpdate_outlier {ptp : Bool} (locked : (s.servo sd).mode = 2) (far : u32 s.modActive.ptpRec 20 < theta.natAbs)
    (few : (s.servo sd).out < 3) : s.servoUpdate theta ptp =
      (s.putServo sd { s.sampled sd with out := (s.sampled sd).out + 1 }).tick1 (Rg.timeStatus sd) Fd.timeStatusOutliers := by
  simp [State.servoUpdate, act, locked, far, few, State.sampled]

theorem State.servoUpdate_outliers {ptp : Bool} (locked : (s.servo sd).mode = 2) (run : s.anyRunning = true)
    (far : u32 s.modActive.ptpRec 20 < theta.natAbs) (many : 3 ≤ (s.servo sd).out) : s.servoUpdate theta ptp =
      (s.putServo sd { (s.sampled sd).update (u32 s.modActive.ptpRec 8) (u32 s.modActive.ptpRec 12) true theta with
        mode := 1, ok := 0, bad := 0, out := 0, is := [] }).showServo sd := by
  simp [State.servoUpdate, act, locked, far, Nat.not_lt.2 many, run, State.sampled]

/-- An update that is used and leaves the mode to be judged. -/
theorem State.servoUpdate_used {ptp : Bool} (started : (s.servo sd).mode ≠ 0) (held : (s.servo sd).mode ≠ 3)
    (near : (s.servo sd).mode = 2 → theta.natAbs ≤ u32 s.modActive.ptpRec 20) (steps : ptp = false ∨ s.anyRunning = true) :
    s.servoUpdate theta ptp = (s.putServo sd ((s.sampled sd).update (u32 s.modActive.ptpRec 8) (u32 s.modActive.ptpRec 12)
      s.anyRunning theta).judge).showServo sd := by
  have inside : ((s.servo sd).mode == 2 && decide (u32 s.modActive.ptpRec 20 < theta.natAbs)) = false := by
    by_cases locked : (s.servo sd).mode = 2
    · simp [Nat.not_lt.2 (near locked)]
    · simp [locked]
  have noStep : (ptp && decide (u32 s.modActive.ptpRec 16 < theta.natAbs) && !s.anyRunning) = false := by
    rcases steps with pps | run
    · simp [pps]
    · simp [run]
  simp [State.servoUpdate, act, started, held, inside, noStep, State.sampled]

end Active

/-! ### Masters (R281, R288) -/

theorem State.announce_noActive (m : Announce) (none : s.active = none) : s.announce m = s := by
  simp [State.announce, none]

/-- What showing the servo leaves. -/
theorem State.showServo_master (s : State) (sd : SideId) : (s.showServo sd).gm = s.gm ∧ (s.showServo sd).slavePort = s.slavePort :=
  ⟨rfl, rfl⟩

theorem State.putServo_master (s : State) (sd : SideId) (x : ServoSt) :
    (s.putServo sd x).gm = s.gm ∧ (s.putServo sd x).slavePort = s.slavePort := by
  cases sd <;> exact ⟨rfl, rfl⟩

/-- Where no port hears a master, none is selected. -/
theorem State.dropMaster_keeps (s : State) : s.dropMaster.active = s.active ∧ s.dropMaster.now = s.now ∧
    s.dropMaster.modActive = s.modActive ∧ s.dropMaster.masters = s.masters := by
  unfold State.dropMaster
  split
  · split <;> exact ⟨rfl, rfl, rfl, rfl⟩
  · exact ⟨rfl, rfl, rfl, rfl⟩

/-- The only master heard is selected, unless the module is to be grandmaster. -/
theorem State.selectMaster_only {m : Announce} {k : Nat} (act : s.active = some sd) (only : s.liveMasters = [(k, m)])
    (slave : s.gmCapable = false) : s.selectMaster.gm = some m.gmIdentity ∧ s.selectMaster.slavePort = some (m.side, m.port.val + 1) := by
  have best : bestMaster s.liveMasters = some (k, m) := by rw [only]; rfl
  have may : s.neverSlave = false := by rw [State.neverSlave, slave]; rfl
  simp only [State.selectMaster, act, best, may, slave, Bool.false_and, Bool.or_self, Bool.false_eq_true, if_false]
  exact ⟨(State.showServo_master _ _).1.trans (State.putServo_master _ _ _).1,
    (State.showServo_master _ _).2.trans (State.putServo_master _ _ _).2⟩

theorem State.announce_first {m : Announce} {r : Bytes} (act : s.active = some sd)
    (hr : s.modActive.timePort m.side (m.port.val + 1) = some r) (clock : u8 r 2 = 1) (path : m.side = sd ∨ s.xlinkUp m.side.other = true)
    (domain : m.domain.toNat = s.ptpDomain) (other : m.sender.toNat / 65536 ≠ s.clockIdentity) (first : s.masters = [])
    (slave : s.gmCapable = false) :
    (s.announce m).gm = some m.gmIdentity ∧ (s.announce m).slavePort = some (m.side, m.port.val + 1) := by
  obtain ⟨sameActive, sameNow, sameConfig, sameMasters⟩ := s.dropMaster_keeps
  have hears : s.engineHears m.side = true := by
    rcases path with own | up
    · simp [State.engineHears, act, own]
    · simp [State.engineHears, up]
  have role : s.timeRole m.side (m.port.val + 1) = 1 := by simp [State.timeRole, hr, clock]
  have kept : s.announce m = ({ s.dropMaster with
      masters := Tbl.put s.dropMaster.masters (timePortIdx m.side (m.port.val + 1)) (m, s.now) } : State).selectMaster := by
    simp [State.announce, act, hears, role, domain, other]
  rw [kept, sameMasters, first]
  refine State.selectMaster_only (k := timePortIdx m.side (m.port.val + 1)) (sameActive.trans act) ?_ ?_
  · simp [State.liveMasters, Tbl.put, sameConfig, sameNow, hr, clock]
  · simpa [State.gmCapable, sameConfig] using slave

/-- A lower priority1 wins between two grandmasters, and only it (R281). -/
theorem announceBeats_of_priority {m n : Announce} (other : m.gmIdentity ≠ n.gmIdentity) (less : m.priority1.toNat < n.priority1.toNat) :
    announceBeats m n = true ∧ announceBeats n m = false := by
  have above : ¬n.priority1.toNat < m.priority1.toNat := by omega
  have apart : n.priority1.toNat ≠ m.priority1.toNat := by omega
  constructor
  · simp [announceBeats, other, announceRank, lexLess, less]
  · simp [announceBeats, other.symm, announceRank, lexLess, above, apart]

/-! ### Holdover (R288, R293) -/

theorem clampI_bounds {lo hi : Int} (v : Int) (h : lo ≤ hi) : lo ≤ clampI v lo hi ∧ clampI v lo hi ≤ hi := by
  unfold clampI
  omega

theorem State.servo_showServo (s : State) (sd d : SideId) : (s.showServo d).servo sd = s.servo sd := by
  simp [State.showServo, State.servo]

theorem State.servo_putServo (s : State) (sd : SideId) (x : ServoSt) : (s.putServo sd x).servo sd = x := by
  simp [State.putServo, State.servo]

theorem State.holdoverEntry_due (act : s.active = some sd) (locked : (s.servo sd).mode = 2) (due : s.holdoverNow (s.servo sd) = true) :
    (s.holdoverEntry.servo sd).mode = 3 ∧ (s.holdoverEntry.servo sd).holdAt = s.now ∧
      -2147483 ≤ (s.holdoverEntry.servo sd).y ∧ (s.holdoverEntry.servo sd).y ≤ 2147483 := by
  simp only [State.holdoverEntry, act, locked, due, and_self, if_true, State.servo_showServo, State.servo_putServo, true_and]
  exact clampI_bounds _ (by decide)

theorem State.holdoverEntry_idle (act : s.active = some sd) (idle : ¬((s.servo sd).mode = 2 ∧ s.holdoverNow (s.servo sd) = true)) :
    s.holdoverEntry = s := by
  simp only [State.holdoverEntry, act, if_neg idle]

theorem State.holdLong_eq (act : s.active = some sd) (held : (s.servo sd).mode = 3)
    (unset : s.flag (Rg.timeStatus sd) Fd.timeStatusHoldLong = false) : s.holdLong = if (s.servo sd).holdAt + 34560000 ≤ s.now then
      (s.setFlag (Rg.timeStatus sd) Fd.timeStatusHoldLong true).sideReport sd evHoldLong (zeros 16) else s := by
  simp [State.holdLong, act, held, unset]

/-! ### A staged time (R289, R290) -/

theorem exec_timeStepApply_idle (idle : s.stepDue = none) : exec .timeStepApply s = .next s := by
  change Host.Outcome.next (if s.stepDue.isSome = true then _ else s) = _
  rw [idle]
  rfl

theorem State.stepDue_running (run : s.anyRunning = true) : s.stepDue = none := if_pos run

theorem State.stepDue_early (early : ∀ x, s.staged = some x → s.now + 1 < x.boundary) : s.stepDue = none := by
  have none : s.boundaryDue = none := by
    rw [State.boundaryDue, Option.filter_eq_none_iff]
    exact fun x hx => by simp [early x hx]
  simp [State.stepDue, none]

theorem State.boundaryDue_reached {x : Staged} (hx : s.staged = some x) (due : x.boundary ≤ s.now + 1) : s.boundaryDue = some x := by
  simp [State.boundaryDue, hx, due]

theorem State.applyStep_running {x : Staged} (hx : s.staged = some x) (due : x.boundary ≤ s.now + 1) (run : s.anyRunning = true) :
    s.applyStep = s.cancelTime := by
  simp [State.applyStep, State.stepDue_running run, State.boundaryDue_reached hx due]

theorem State.renumber_regs (t : State) (r : Renumbering) : (t.renumber r).regs = t.regs := rfl

theorem State.renumber_staged (t : State) (r : Renumbering) : (t.renumber r).staged = t.staged := rfl

theorem State.renumber_now (t : State) (r : Renumbering) : (t.renumber r).now = r.new := rfl

section Step

variable {x : Staged} (hx : s.staged = some x) (due : x.boundary ≤ s.now + 1) (still : s.anyRunning = false)

include hx due still

theorem State.stepDue_reached : s.stepDue = some x := by
  rw [State.stepDue, still, State.boundaryDue_reached hx due]
  rfl

theorem State.applyStep_shows : s.applyStep.staged = none ∧ s.applyStep.sealedUpto = none ∧ s.applyStep.leaseHeld lkTimeStep = false ∧
    s.applyStep.flag Rg.timeSetCtrl Fd.timeSetCtrlPending = false ∧ s.applyStep.now = x.before := by
  have step : s.applyStep = (s.cancelTime.moduleEvent evTimeStep 0 (recBody
      (beBytes 8 (x.boundary / 4800) ++ beBytes 4 0 ++ beBytes 8 x.sec ++ beBytes 4 x.ns))).renumber ⟨s.now, x.before⟩ := by
    simp only [State.applyStep, State.stepDue_reached hx due still]
  have pending : s.cancelTime.flag Rg.timeSetCtrl Fd.timeSetCtrlPending = false :=
    State.flag_setFlag_same _ Rg.timeSetCtrl Fd.timeSetCtrlPending false rfl (by decide)
  rw [step]
  refine ⟨State.renumber_staged _ _, rfl, ?_, (State.flag_congr (State.renumber_regs _ _) _ _).trans pending, State.renumber_now _ _⟩
  refine List.any_eq_false.2 fun l hl => ?_
  obtain ⟨k, hk, rfl⟩ := List.mem_map.1 hl
  have left : (k.kind != lkTimeStep) = true := (List.mem_filter.1 hk).2
  simpa using left

end Step

theorem State.timeGo_refused (refused : 999999999 < s.rd Rg.timeSetNs Fd.timeSetNsNs ∨ s.anyRunning = true) (origin : Nat) :
    s.timeGo origin = s.setFlag Rg.timeSetCtrl Fd.timeSetCtrlRefused true := by
  have some : ∃ st, s.timeSetRefusal (s.rd Rg.timeSetSec Fd.timeSetSecSec) (s.rd Rg.timeSetNs Fd.timeSetNsNs) = some st := by
    unfold State.timeSetRefusal
    split
    · exact ⟨_, rfl⟩
    · next inRange => exact ⟨_, if_pos (refused.resolve_left fun high => inRange (Or.inl high))⟩
  obtain ⟨st, hst⟩ := some
  simp only [State.timeGo, hst]

theorem State.timeGo_staged (ns : s.rd Rg.timeSetNs Fd.timeSetNsNs ≤ 999999999) (sec : s.rd Rg.timeSetSec Fd.timeSetSecSec < 2 ^ 48)
    (still : s.anyRunning = false) (lease : s.leaseHeld lkTimeStep = true) (origin : Nat) : s.timeGo origin =
      ({ s with staged := some ⟨s.rd Rg.timeSetSec Fd.timeSetSecSec, s.rd Rg.timeSetNs Fd.timeSetNsNs, (s.now / 4800 + 1) * 4800⟩ } :
        State).setFlag Rg.timeSetCtrl Fd.timeSetCtrlPending true := by
  have taken : s.timeSetRefusal (s.rd Rg.timeSetSec Fd.timeSetSecSec) (s.rd Rg.timeSetNs Fd.timeSetNsNs) = none := by
    rw [State.timeSetRefusal, if_neg (not_or.2 ⟨Nat.not_lt.2 ns, Nat.not_le.2 sec⟩), still, lease]
    rfl
  simp only [State.timeGo, taken, State.stageTime, lease, if_true]

theorem exec_timeSetCancel : exec (.timeSetCancel sd) s =
    .next ((if s.staged.isNone = true then s else s.cancelTime).ctrlChange sd 4) := rfl

/-! ### Messages of master ports (R286) -/

theorem State.ptpSend_noRecord {port kind : Nat} (none : s.modActive.timePort sd port = none) : s.ptpSend sd port kind = s := by
  simp [State.ptpSend, none]

theorem State.ptpSend_unlinked {port kind : Nat} (down : s.portLinked sd (port - 1) = false) : s.ptpSend sd port kind = s := by
  have silent : s.ptpSends sd port kind = false := by simp [State.ptpSends, down]
  unfold State.ptpSend
  split
  · rfl
  · rw [silent]; rfl

theorem State.ptpSend_master {port kind : Nat} {r : Bytes} (hr : s.modActive.timePort sd port = some r) (serves : (s.side sd).role ≠ .out)
    (up : s.portLinked sd (port - 1) = true) (path : s.active = some sd ∨ s.xlinkUp sd.other = true) (master : s.portState sd port = 6)
    (noDelay : kind ≠ 2) : s.ptpSend sd port kind =
      (s.modSide sd fun x => { x with time := { x.time with
        ptpSeq := Tbl.put x.time.ptpSeq (port * 4 + kind) ((Tbl.getD (s.side sd).time.ptpSeq (port * 4 + kind) 0 + 1) % 65536) } }).queuePtp sd port
          (s.intervalMessage kind (Tbl.getD (s.side sd).time.ptpSeq (port * 4 + kind) 0) (u8 r 3 == 1)) := by
  have hears : s.engineHears sd = true := by
    rcases path with own | linked
    · simp [State.engineHears, own]
    · simp [State.engineHears, linked]
  have sends : s.ptpSends sd port kind = true := by simp [State.ptpSends, up, serves, hears, master]
  simp only [State.ptpSend, hr, sends, Bool.not_true, Bool.false_eq_true, if_false]

end Servo

/-- Settles O53: each row of network time does what its rule says where its condition holds. -/
theorem timeEvents : Obligations.TimeEvents := by
  unfold Obligations.TimeEvents
  intro s
  refine ⟨?otherSource, ?noPps, ?servo, ?pps, ?unheard, ?witness, ?announce, ?holdover, ?unlocked, ?synced, ?long, ?beats, ?noStep, ?early, ?running,
    ?step, ?abandon, ?first, ?read, ?stamp, ?set, ?noRecord, ?unlinked, ?send, ?message⟩
  case otherSource => exact fun theta other => congrArg _ (if_neg other)
  case noPps => exact fun theta other => congrArg _ (if_neg other)
  case servo =>
    rintro theta sd x source act rfl mode run t ht
    obtain rfl : t = s.notePortTheta theta := ht
    obtain ⟨active, config, runs, servos⟩ := s.notePortTheta_keeps theta
    obtain ⟨servo, sampled⟩ := servos sd
    have update : exec (.servoUpdate theta) s = .next ((s.notePortTheta theta).servoUpdate theta true) := congrArg _ (if_pos source)
    rw [← config, update]
    refine ⟨fun far few => ?_, fun y far many hy => ?_, fun y near hy => ?_⟩
    · rw [State.servoUpdate_outlier (active.trans act) (by rw [servo]; exact mode) far (by rw [servo]; exact few), sampled]
      rfl
    · rw [hy, State.servoUpdate_outliers (active.trans act) (by rw [servo]; exact mode) (runs.trans run) far (by rw [servo]; exact many),
        sampled]
      rfl
    · have locked : ((s.notePortTheta theta).servo sd).mode = 2 := by rw [servo]; exact mode
      rw [hy, State.servoUpdate_used (active.trans act) (by omega) (by omega) (fun _ => near) (Or.inr (runs.trans run)), sampled,
        runs.trans run]
      rfl
  case pps =>
    rintro theta sd x y source act rfl mode rfl
    have acquiring : (s.servo sd).mode = 1 := mode
    have update : exec (.ppsInputEdge theta) s = .next (s.servoUpdate theta false) := congrArg _ (if_pos source)
    rw [update, State.servoUpdate_used act (by omega) (by omega) (fun locked => by omega) (Or.inl rfl)]
    rfl
  case unheard =>
    intro m none other
    change Host.Outcome.next _ = _
    rw [if_neg other, State.announce_noActive m none]
  case witness =>
    intro m none same
    change Host.Outcome.next _ = _
    rw [if_pos same, State.announce_noActive m none]
  case announce =>
    intro m sd r act hr clock path domain other first slave
    obtain ⟨gm, port⟩ := State.announce_first act hr clock path domain other first slave
    refine ⟨_, rfl, ?_⟩
    split <;> exact ⟨gm, port⟩
  case holdover => exact fun sd act locked due => ⟨_, rfl, State.holdoverEntry_due act locked (by simpa [State.holdoverNow] using due)⟩
  case unlocked => exact fun sd act other => congrArg _ (State.holdoverEntry_idle act fun both => other both.1)
  case synced =>
    exact fun source sd act early => congrArg _ (State.holdoverEntry_idle act fun both => by
      simp [State.holdoverNow, source, Nat.not_le.2 early] at both)
  case long =>
    exact fun sd act held unset => ⟨fun due => congrArg _ ((State.holdLong_eq act held unset).trans (if_pos due)),
      fun early => congrArg _ ((State.holdLong_eq act held unset).trans (if_neg (Nat.not_le.2 early)))⟩
  case beats => exact fun m n other less => announceBeats_of_priority other less
  case noStep => exact fun none => exec_timeStepApply_idle (State.stepDue_early fun x hx => by simp [none] at hx)
  case early =>
    exact fun x hx early => exec_timeStepApply_idle (State.stepDue_early fun y hy => Option.some.inj (hx.symm.trans hy) ▸ early)
  case running => exact fun x hx run => exec_timeStepApply_idle (State.stepDue_running run)
  case step =>
    refine fun x hx due still => ⟨?_, State.applyStep_shows hx due still⟩
    change Host.Outcome.next (if s.stepDue.isSome = true then _ else s) = _
    rw [State.stepDue_reached hx due still]
    rfl
  case abandon => exact fun x hx due run => State.applyStep_running hx due run
  case first => exact fun x => le_tickStart_firstTick _
  case read => exact fun sd sec ns frac => ⟨rfl, rfl⟩
  case stamp => exact fun sd p => rfl
  case set =>
    rintro sd change rfl
    refine ⟨?_, fun none => ?_, fun some => ?_⟩
    · rintro sec ns rfl rfl
      refine ⟨fun refused => ?_, fun inRange sec still lease => ?_⟩
      · change Host.Outcome.next ((s.timeGo (0xFFFFFF00 + sd.code)).ledger _) = _
        rw [State.timeGo_refused refused]
        rfl
      · change Host.Outcome.next ((s.timeGo (0xFFFFFF00 + sd.code)).ledger _) = _
        rw [State.timeGo_staged inRange sec still lease]
        rfl
    · rw [exec_timeSetCancel, if_pos (Option.isNone_iff_eq_none.2 none)]
      rfl
    · rw [exec_timeSetCancel, if_neg (by rwa [Option.isNone_iff_eq_none])]
      rfl
  case noRecord => exact fun sd p k none => congrArg _ (State.ptpSend_noRecord none)
  case unlinked => exact fun sd p k down => congrArg _ (State.ptpSend_unlinked (port := p.val + 1) down)
  case send =>
    rintro sd p k r q hr serves up path master noDelay rfl
    exact congrArg _ (State.ptpSend_master (port := p.val + 1) hr serves up path master fun same => noDelay (Fin.ext same))
  case message => exact fun q b => ⟨rfl, rfl, rfl, rfl, rfl⟩

end Sys2Proof.Machine
end

section
/-! PROOFS. Wavefront edges and capture overflow (R302, R303, R309); CAN frames, bus-off, arbitration (R363 to R376). -/

namespace Sys2Proof.Machine

open Claims

/-! ### Wavefront edges (R302, R303) -/

section Edges

variable {s : State} {sd : SideId} {i t64 : Nat} {rise : Bool}

theorem State.wfEdge_noRecord (none : s.modActive.get 0x0E i = none) : s.wfEdge sd i rise t64 = s := by
  simp only [State.wfEdge, none]

/-- The queue of an input after an edge that merges into its last record (R303). -/
def edgesMerged (q : List WfEdge) : List WfEdge := match q.getLast? with
  | some e => q.dropLast ++ [{ e with merged := min (e.merged + 1) 255 }]
  | none => q

theorem edgesMerged_append (q : List WfEdge) (e : WfEdge) : edgesMerged (q ++ [e]) = q ++ [{ e with merged := min (e.merged + 1) 255 }] := by
  simp [edgesMerged]

theorem State.wfEdge_close {r : Bytes} {l : Nat} (hr : s.modActive.get 0x0E i = some r) (hl : Tbl.find (s.side sd).wfLast i = some l)
    (after : l ≤ t64) (near : (t64 - l) * 10 < 768) : s.wfEdge sd i rise t64 =
      (s.modSide sd fun y => { y with wavefront := Tbl.put y.wavefront i (edgesMerged (Tbl.getD (s.side sd).wavefront i [])) }).tick1
        (Rg.wfStatus sd (i - 1)) Fd.wfStatusMerged := by
  simp only [State.wfEdge, hr, hl, after, near, and_self, decide_true, if_true]
  rfl

section Apart

variable {r : Bytes} (hr : s.modActive.get 0x0E i = some r)
  (apart : ∀ l, Tbl.find (s.side sd).wfLast i = some l → t64 < l ∨ 768 ≤ (t64 - l) * 10)

include hr apart

theorem State.wfEdge_ignored (unused : bit (u8 r 1) (if rise then 0 else 1) = false) : s.wfEdge sd i rise t64 = s := by
  cases hl : Tbl.find (s.side sd).wfLast i with
  | none => simp only [State.wfEdge, hr, hl, unused, Bool.false_eq_true, if_false]
  | some l =>
    have far : ¬(l ≤ t64 ∧ (t64 - l) * 10 < 768) := by have := apart l hl; omega
    simp only [State.wfEdge, hr, hl, unused, far, decide_false, Bool.false_eq_true, if_false]

theorem State.wfEdge_queued (used : bit (u8 r 1) (if rise then 0 else 1) = true)
    (room : (Tbl.getD (s.side sd).wavefront i []).length < 1024) (noLine : s.linesOf 3 i = []) : s.wfEdge sd i rise t64 =
      (s.modSide sd fun y => { y with wfLast := Tbl.put y.wfLast i t64 }).modSide sd fun y =>
        { y with wavefront := Tbl.put y.wavefront i (Tbl.getD (s.side sd).wavefront i [] ++ [⟨((t64 : Int) - wfDelay64 r).toNat, rise, 0⟩]) } := by
  have lines : ∀ f g : Side → Side, ((s.modSide sd f).modSide sd g).linesOf 3 i = [] := by
    intro f g
    rw [← noLine]
    cases sd <;> rfl
  cases hl : Tbl.find (s.side sd).wfLast i with
  | none => simp only [State.wfEdge, hr, hl, used, Bool.false_eq_true, if_false, if_true, if_neg (Nat.not_le.2 room), lines, List.filter_nil,
      List.foldl_nil]
  | some l =>
    have far : ¬(l ≤ t64 ∧ (t64 - l) * 10 < 768) := by have := apart l hl; omega
    simp only [State.wfEdge, hr, hl, used, far, decide_false, Bool.false_eq_true, if_false, if_true, if_neg (Nat.not_le.2 room), lines,
      List.filter_nil, List.foldl_nil]

end Apart

/-! ### Overflow of a destination (R309) -/

theorem State.captOverflow_running {reason c first : Nat} {r : Bytes} (run : s.captState sd c = csRunning) :
    (s.captOverflow sd reason c first r).captState sd c = csOverflowed := by
  rw [State.captOverflow, if_pos run]
  exact State.rd_wr_same _ _ _ _ (by decide) (by decide)

theorem State.destLate_iff {n : Nat} : s.destLate sd n = true ↔ ∃ w ∈ s.captWaiting sd n, w.overflow = false ∧ w.work + 4 < s.now := by
  simp [State.destLate]

end Edges

/-! ### Frames and their records (R366, R370) -/

section Can

variable {s : State} {sd : SideId}

theorem canRecord_length (f : CanFrame) (k age ns : Nat) (o : Bool) : (canRecord f k age ns o).length = 80 := by
  simp [canRecord, length_fit, zeros]

theorem State.canReceive_offBus (f : CanFrame) (ns : Nat) (off : s.canOnBus sd = false) : s.canReceive sd f ns = s := by
  simp only [State.canReceive, off, Bool.not_false, if_true]

section OnBus

variable {f : CanFrame} {ns : Nat} {u : State} (on : s.canOnBus sd = true)
  (hu : u = s.canErrors sd (s.rd (Rg.canStatus sd) Fd.canStatusTec) (s.rd (Rg.canStatus sd) Fd.canStatusRec - 1))

include on hu

theorem State.canReceive_unmatched (none : u.modActive.canMatch (ctrlOf sd) f = none) :
    s.canReceive sd f ns = (u.canStore sd f 0 ns).tick1 (Rg.canRxq sd) Fd.canRxqNoMatch := by
  subst hu
  simp only [State.canReceive, on, Bool.not_true, Bool.false_eq_true, if_false, none]

theorem State.canReceive_matched {k : Nat} {r : Bytes} (hm : u.modActive.canMatch (ctrlOf sd) f = some (k, r)) {q : Nat} {v : State}
    (hq : q = b2n (bit (u8 r 2) 2)) (hv : v = u.canStore sd f k ns) : s.canReceive sd f ns =
      (if (Tbl.getD (v.can sd).queues q []).length < canQueueMax q then
        v.putCan sd { v.can sd with queues := Tbl.put (v.can sd).queues q (Tbl.getD (v.can sd).queues q [] ++ [canRecord f k 0 ns false]) }
      else v.setFlag (Rg.canRxq sd) (if q = 0 then Fd.canRxqQ0Ovf else Fd.canRxqQ1Ovf) true).canHold ⟨ctrlOf sd, ns, f⟩ := by
  subst hu hq hv
  simp only [State.canReceive, on, Bool.not_true, Bool.false_eq_true, if_false, hm]

end OnBus

theorem State.rxqPop_some {q : Nat} {r : Bytes} {l : List Bytes} (hq : Tbl.getD (s.can sd).queues q [] = r :: l) : s.rxqPop sd q =
    s.putCan sd { s.can sd with queues := Tbl.put (s.can sd).queues q l, heads := Tbl.put (s.can sd).heads q r } := by
  simp only [State.rxqPop, hq]

theorem State.rxqPop_none {q : Nat} (hq : Tbl.getD (s.can sd).queues q [] = []) : s.rxqPop sd q =
    s.putCan sd { s.can sd with heads := Tbl.put (s.can sd).heads q (zeros 80) } := by
  simp only [State.rxqPop, hq]

/-! ### States of a controller (R363, R364) -/

theorem State.canErrors_active (s : State) (sd : SideId) : (s.canErrors sd 0 0).canState sd = 0 :=
  State.rd_wr_same _ _ _ _ (by decide) (by decide)

/-- Arbitration chooses a buffer for the bus and changes no register. -/
theorem State.canArbitrate_regs (s : State) (sd : SideId) : (s.canArbitrate sd).regs = s.regs := by
  unfold State.canArbitrate
  dsimp only
  split
  · rfl
  · split
    · exact s.modSide_regs sd _
    · rfl

theorem State.canRecovered_shows (off : s.canState sd = 2) : (s.canRecovered sd).canState sd = 0 ∧
    (s.canRecovered sd).flag (Rg.canStatus sd) Fd.canStatusBusOffSeen = true := by
  rw [State.canRecovered, if_pos off]
  constructor
  · rw [State.canState, State.rd_congr (State.canArbitrate_regs _ sd),
      State.rd_setFlag_apart _ _ Fd.canStatusBusOffSeen _ _ (by decide) (by decide) (by decide) (by decide)]
    exact s.canErrors_active sd
  · rw [State.flag_congr (State.canArbitrate_regs _ sd)]
    exact State.flag_setFlag_same _ _ _ _ rfl (by decide)

theorem State.canRejoin_timed {r : Nat} (off : s.canState sd = 3) (serves : (s.side sd).role ≠ .out)
    (hr : s.modActive.canTiming (ctrlOf sd) = some r) : s.canRejoin sd = (s.canErrors sd 0 0).canArbitrate sd := by
  simp [State.canRejoin, off, serves, hr]

theorem State.canRejoin_elsewhere (other : s.canState sd ≠ 3) : s.canRejoin sd = s := by
  simp [State.canRejoin, other]

/-! ### Bus-off abandons what pends (R364) -/

theorem State.canBusOff_offBus (off : s.canOnBus sd = false) : s.canBusOff sd = s := by
  simp only [State.canBusOff, off, Bool.not_false, if_true]

/-- One pending frame is abandoned. -/
def State.abandonOne (sd : SideId) (s : State) (e : Nat × CanTx) : State :=
  (s.canAbandoned sd e.1).setFlag (Rg.mbStatus sd e.1) Fd.mbStatusPending false

theorem State.canBusOff_eq (on : s.canOnBus sd = true) : s.canBusOff sd =
    let t := ((s.can sd).pend ++ (s.can sd).next).foldl (State.abandonOne sd) (s.wr (Rg.canStatus sd) Fd.canStatusState 2)
    t.putCan sd { t.can sd with pend := [], next := [], bus := none } := by
  have same : (s.wr (Rg.canStatus sd) Fd.canStatusState 2).can sd = s.can sd := by rw [State.can, State.wr_side, State.can]
  simp only [State.canBusOff, on, Bool.not_true, Bool.false_eq_true, if_false, same]
  rfl

/-- A buffer's register told that its frame is abandoned. -/
def State.saysAbandoned (s : State) (sd : SideId) (b : Nat) : Prop :=
  s.flag (Rg.mbStatus sd b) Fd.mbStatusAbandoned = true ∧ s.flag (Rg.mbStatus sd b) Fd.mbStatusPending = false

theorem State.abandonOne_says (s : State) (sd : SideId) (e : Nat × CanTx) : (s.abandonOne sd e).saysAbandoned sd e.1 := by
  refine ⟨?_, State.flag_setFlag_same _ _ _ _ rfl (by decide)⟩
  have counted : (s.canAbandoned sd e.1).flag (Rg.mbStatus sd e.1) Fd.mbStatusAbandoned =
      (s.setFlag (Rg.mbStatus sd e.1) Fd.mbStatusAbandoned true).flag (Rg.mbStatus sd e.1) Fd.mbStatusAbandoned :=
    State.flag_wr_apart _ _ Fd.mbStatusAbandons _ _ (by decide) (by decide) (by decide) (by decide)
  exact (State.flag_setFlag_apart _ _ Fd.mbStatusPending _ _ (by decide) (by decide) (by decide) (by decide)).trans
    (counted.trans (State.flag_setFlag_same _ _ _ _ rfl (by decide)))

/-- Registers of other buffers stay as another frame is abandoned. -/
theorem State.abandonOne_keeps (s : State) (sd : SideId) (e : Nat × CanTx) {b : Nat} (told : s.saysAbandoned sd b) :
    (s.abandonOne sd e).saysAbandoned sd b := by
  by_cases same : (Rg.mbStatus sd b).key = (Rg.mbStatus sd e.1).key
  · have buffer : b = e.1 := by
      simp only [Rg.mbStatus] at same
      omega
    rw [buffer]
    exact s.abandonOne_says sd e
  · obtain ⟨abandoned, pending⟩ := told
    have reg : (s.abandonOne sd e).regWord (Rg.mbStatus sd b) = s.regWord (Rg.mbStatus sd b) := by
      rw [State.abandonOne, State.setFlag, State.regWord_wr_other _ _ _ _ same, State.canAbandoned, State.regWord_tick1_other _ _ _ same,
        State.setFlag, State.regWord_wr_other _ _ _ _ same]
    rw [State.saysAbandoned, State.flag, State.rd, reg, State.flag, State.rd, reg]
    exact ⟨abandoned, pending⟩

theorem State.abandonAll_says (l : List (Nat × CanTx)) (s : State) (sd : SideId) :
    ∀ e ∈ l, (l.foldl (State.abandonOne sd) s).saysAbandoned sd e.1 := by
  induction l generalizing s with
  | nil => simp
  | cons x l ih =>
    intro e he
    rcases List.mem_cons.1 he with rfl | later
    · exact foldl_invariant (fun t : State => t.saysAbandoned sd e.1) (fun t y told => t.abandonOne_keeps sd y told) l
        (s.abandonOne_says sd e)
    · exact ih _ e later

theorem State.canBusOff_shows (on : s.canOnBus sd = true) : ((s.canBusOff sd).can sd).pend = [] ∧ ((s.canBusOff sd).can sd).bus = none ∧
    ∀ e ∈ (s.can sd).pend ++ (s.can sd).next, (s.canBusOff sd).saysAbandoned sd e.1 := by
  rw [State.canBusOff_eq on]
  refine ⟨?_, ?_, fun e he => ?_⟩
  · simp [State.can, State.putCan]
  · simp [State.can, State.putCan]
  · obtain ⟨abandoned, pending⟩ := State.abandonAll_says _ (s.wr (Rg.canStatus sd) Fd.canStatusState 2) sd e he
    exact ⟨(State.flag_congr (State.modSide_regs _ sd _) _ _).trans abandoned, (State.flag_congr (State.modSide_regs _ sd _) _ _).trans pending⟩

theorem State.canBusOff_idle (on : s.canOnBus sd = true) (noPend : (s.can sd).pend = []) (noNext : (s.can sd).next = []) :
    s.canBusOff sd = (s.wr (Rg.canStatus sd) Fd.canStatusState 2).putCan sd { s.can sd with pend := [], next := [], bus := none } := by
  have same : (s.wr (Rg.canStatus sd) Fd.canStatusState 2).can sd = s.can sd := by rw [State.can, State.wr_side, State.can]
  rw [State.canBusOff_eq on, noPend, noNext, List.append_nil, List.foldl_nil]
  simp only [same]

/-! ### Arbitration (R373, R374) -/

theorem State.canLoss_idle (e : Bool) (idle : (s.can sd).bus = none) : s.canLoss sd e = s := by
  simp only [State.canLoss, idle]

theorem State.canDone_idle (idle : (s.can sd).bus = none) : s.canDone sd = s := by
  simp only [State.canDone, idle]

section Pending

variable {b : Nat} {x : CanTx} (bus : (s.can sd).bus = some b) (hx : Tbl.find (s.can sd).pend b = some x)

include bus hx

theorem State.canLoss_last (last : x.left = 0) : s.canLoss sd false = ((s.canAbandoned sd b).canAfter sd b).canArbitrate sd := by
  simp only [State.canLoss, bus, hx, last, Bool.false_and, Bool.false_eq_true, if_false, if_true]

theorem State.canLoss_retries (left : 0 < x.left) : s.canLoss sd false =
    ((s.putCan sd { s.can sd with bus := none, pend := Tbl.put (s.can sd).pend b { x with left := x.left - 1 } }).tick1
      (Rg.mbStatus sd b) Fd.mbStatusTally).canArbitrate sd := by
  simp only [State.canLoss, bus, hx, if_neg left.ne', Bool.false_and, Bool.false_eq_true, if_false]

theorem State.canDone_sent : s.canDone sd = (((s.canErrors sd (s.rd (Rg.canStatus sd) Fd.canStatusTec - 1)
    (s.rd (Rg.canStatus sd) Fd.canStatusRec)).emit (.can sd x.frame)).canAfter sd b).canArbitrate sd := by
  simp only [State.canDone, bus, hx]

end Pending

/-- Frames in the order of arbitration: by identifier, then by buffer. -/
theorem txBefore_iff (a b : Nat × CanTx) : txBefore a b = true ↔
    canIdent a.2.frame < canIdent b.2.frame ∨ (canIdent a.2.frame = canIdent b.2.frame ∧ a.1 < b.1) := by
  simp [txBefore]

/-- The winner is a pending frame, and none goes before it. -/
theorem txWinner_first {l : List (Nat × CanTx)} {e : Nat × CanTx} (h : txWinner l = some e) : e ∈ l ∧ ∀ x ∈ l, ¬txBefore x e = true := by
  induction l generalizing e with
  | nil => simp [txWinner] at h
  | cons y l ih =>
    have self : ¬txBefore y y = true := by rw [txBefore_iff]; omega
    cases hw : txWinner l with
    | none =>
      obtain rfl : l = [] := by
        cases l with
        | nil => rfl
        | cons z l =>
          simp only [txWinner] at hw
          split at hw <;> cases hw
      obtain rfl : y = e := by simpa [txWinner] using h
      simpa using self
    | some w =>
      obtain ⟨mem, first⟩ := ih hw
      simp only [txWinner, hw, Option.some.injEq] at h
      split at h
      · next before =>
        subst h
        refine ⟨List.mem_cons_of_mem _ mem, fun x hx => ?_⟩
        rcases List.mem_cons.1 hx with rfl | later
        · rw [txBefore_iff] at before ⊢
          omega
        · exact first x later
      · next notBefore =>
        subst h
        refine ⟨List.mem_cons_self, fun x hx => ?_⟩
        rcases List.mem_cons.1 hx with rfl | later
        · exact self
        · have := first x later
          rw [txBefore_iff] at this notBefore ⊢
          omega

end Can

/-- Settles O54: each row of wavefront inputs, captures and CAN does what its rule says where its condition holds. -/
theorem acqAndCanEvents : Obligations.AcqAndCanEvents := by
  unfold Obligations.AcqAndCanEvents
  intro s
  refine ⟨?noInput, ?merges, ?apart, ?late, ?overflows, ?stopped, ?offBus, ?receive, ?record, ?busOffOff, ?busOffIdle, ?busOff, ?recovery,
    ?recovered, ?notOff, ?rejoin, ?joined, ?errors, ?lossIdle, ?pending, ?doneIdle, ?winner, ?pop, ?popEmpty⟩
  case noInput => exact fun sd i rise t64 none => congrArg _ (State.wfEdge_noRecord none)
  case merges =>
    rintro sd i rise t64 r l q hr hl after near rfl
    have edge : exec (.wavefrontEdge sd i rise t64) s = .next (s.wfEdge sd (i.val + 1) rise t64) := rfl
    rw [edge, State.wfEdge_close hr hl after near]
    refine ⟨fun empty => ?_, ?_⟩
    · rw [empty]; rfl
    · rintro p e z hq rfl
      rw [hq, edgesMerged_append]
      rfl
  case apart =>
    exact fun sd i rise t64 r hr apart => ⟨fun unused => congrArg _ (State.wfEdge_ignored hr apart unused),
      fun used room noLine => congrArg _ (State.wfEdge_queued hr apart used room noLine)⟩
  case late =>
    rintro sd dram d n rfl
    exact ⟨fun late => congrArg _ (if_pos (State.destLate_iff.2 late)),
      fun none => congrArg _ (if_neg fun late => by
        obtain ⟨w, hw, fits, old⟩ := State.destLate_iff.1 late
        rcases none w hw with lost | early
        · exact Bool.false_ne_true (fits.symm.trans lost)
        · omega)⟩
  case overflows => exact fun sd reason c first r run => State.captOverflow_running run
  case stopped => exact fun sd reason c first r other => if_neg other
  case offBus => exact fun sd f ns off => congrArg _ (State.canReceive_offBus f _ off)
  case receive =>
    rintro sd f ns u on hu
    refine ⟨fun none => congrArg _ (State.canReceive_unmatched on hu none), fun k r q v hm hq hv => ?_⟩
    have receives : exec (.canFrameReceive sd f ns) s = .next (s.canReceive sd f (ns.toNat % 1000000000)) := rfl
    rw [receives, State.canReceive_matched on hu hm hq hv]
    refine ⟨fun room => ?_, fun full => ?_⟩
    · rw [if_pos (by exact room)]
    · rw [if_neg (by exact Nat.not_lt.2 full)]
  case record => exact canRecord_length
  case busOffOff => exact fun sd off => congrArg _ (State.canBusOff_offBus off)
  case busOffIdle => exact fun sd on noPend noNext => congrArg _ (State.canBusOff_idle on noPend noNext)
  case busOff => exact fun sd on => ⟨_, rfl, State.canBusOff_shows on⟩
  case recovery => exact fun sd off => congrArg _ (if_pos off)
  case recovered => exact fun sd off => ⟨_, rfl, State.canRecovered_shows off⟩
  case notOff => exact fun sd other => congrArg _ (if_neg other)
  case rejoin => exact fun sd r off serves hr => congrArg _ (State.canRejoin_timed off serves hr)
  case joined => exact fun sd other => congrArg _ (State.canRejoin_elsewhere other)
  case errors => exact fun sd => s.canErrors_active sd
  case lossIdle => exact fun sd e idle => congrArg _ (State.canLoss_idle e idle)
  case pending =>
    exact fun sd b x bus hx => ⟨fun last => congrArg _ (State.canLoss_last bus hx last),
      fun left => congrArg _ (State.canLoss_retries bus hx left), congrArg _ (State.canDone_sent bus hx)⟩
  case doneIdle => exact fun sd idle => congrArg _ (State.canDone_idle idle)
  case winner => exact fun l e he => ⟨(txWinner_first he).1, fun x hx before _ => (txWinner_first he).2 x hx before⟩
  case pop => exact fun sd q r l hq => congrArg _ (State.rxqPop_some hq)
  case popEmpty => exact fun sd q hq => congrArg _ (State.rxqPop_none hq)

end Sys2Proof.Machine
end

section
/-! PROOFS. What the faults of parts and the boots leave (R9, R10, R460 to R462, R477, R481): power, forces, the installed
scopes, the password and its unlocks, the keys, and, while both sides are Out, the roles and the commands that wait. -/

namespace Sys2Proof.Machine

/-- What lasts through the fault of a part. Where `seats` stands, it holds the roles and the commands that wait. -/
structure Lasting where
  power : PowSt
  forces : Tbl Force
  modActive : Scope
  stallActive : Tbl Scope
  safeActive : Bytes
  safePw : Option (Bytes × Bytes)
  unlocks : Tbl Nat
  now : Nat
  window : Nat
  keysA : Tbl Bytes
  keysB : Tbl Bytes
  seats : Option (Role × Role × List WaitCmd)

def State.lasting (seats : Bool) (s : State) : Lasting :=
  ⟨s.power, s.forces, s.modActive, s.stallActive, s.safeActive, s.safePw, s.unlocks, s.now, s.update.window, s.sideA.keys, s.sideB.keys,
    if seats then some (s.sideA.role, s.sideB.role, s.waiting) else none⟩

section
variable {b : Bool} {s : State} {l : Lasting} (h : s.lasting b = l)
include h

theorem State.power_of_lasting : s.power = l.power := congrArg Lasting.power h
theorem State.forces_of_lasting : s.forces = l.forces := congrArg Lasting.forces h
theorem State.modActive_of_lasting : s.modActive = l.modActive := congrArg Lasting.modActive h
theorem State.stallActive_of_lasting : s.stallActive = l.stallActive := congrArg Lasting.stallActive h
theorem State.safeActive_of_lasting : s.safeActive = l.safeActive := congrArg Lasting.safeActive h
theorem State.safePw_of_lasting : s.safePw = l.safePw := congrArg Lasting.safePw h
theorem State.unlocks_of_lasting : s.unlocks = l.unlocks := congrArg Lasting.unlocks h
theorem State.now_of_lasting : s.now = l.now := congrArg Lasting.now h
theorem State.window_of_lasting : s.update.window = l.window := congrArg Lasting.window h
theorem State.keysA_of_lasting : s.sideA.keys = l.keysA := congrArg Lasting.keysA h
theorem State.keysB_of_lasting : s.sideB.keys = l.keysB := congrArg Lasting.keysB h

end

theorem State.seats_of_lasting {t : State} {l : Lasting} {x y : Role} {w : List WaitCmd} (h : t.lasting true = l) (hl : l.seats = some (x, y, w)) :
    (t.side .A).role = x ∧ (t.side .B).role = y ∧ t.waiting = w := by
  subst h
  simpa [State.lasting, State.side] using hl

/-- With the seats, each side keeps its role. -/
theorem State.roles_of_lasting {s t : State} (h : t.lasting true = s.lasting true) (sd : SideId) : (t.side sd).role = (s.side sd).role := by
  obtain ⟨roleA, roleB, -⟩ := State.seats_of_lasting h rfl
  cases sd
  · exact roleA
  · exact roleB

/-- Both sides are Out, and no command waits. -/
theorem State.out_of_lasting {t : State} {l : Lasting} (h : t.lasting true = l) (hl : l.seats = some (.out, .out, [])) :
    (∀ sd, (t.side sd).role = .out) ∧ t.waiting = [] := by
  obtain ⟨roleA, roleB, waiting⟩ := State.seats_of_lasting h hl
  refine ⟨fun sd => ?_, waiting⟩
  cases sd
  · exact roleA
  · exact roleB

/-- Where the seats are looked at, both sides are Out. -/
def Lasting.still (l : Lasting) : Prop := ∀ p, l.seats = some p → p.1 = .out ∧ p.2.1 = .out

theorem State.still_of_out {s : State} (h : ∀ sd, (s.side sd).role = .out) (seats : Bool) : (s.lasting seats).still := by
  intro p hp
  cases seats with
  | false => exact absurd hp (by simp [State.lasting])
  | true =>
    obtain rfl : (s.sideA.role, s.sideB.role, s.waiting) = p := by simpa [State.lasting] using hp
    exact ⟨h .A, h .B⟩

theorem State.still_unseated (s : State) : (s.lasting false).still := fun _ h => nomatch h

section
variable (b : Bool) (s : State) (sd : SideId)

/-- What a state takes from the same parts of another is the same. -/
theorem State.lasting_of_report {s t : State} (b : Bool) (hr : t.unreported = s.unreported) (hb : t.books = s.books) :
    t.lasting b = s.lasting b := by
  have sideA := (congrArg State.sideA hr :)
  have sideB := (congrArg State.sideB hr :)
  have keysA : t.sideA.keys = s.sideA.keys := (congrArg Side.keys sideA :)
  have keysB : t.sideB.keys = s.sideB.keys := (congrArg Side.keys sideB :)
  have roleA : t.sideA.role = s.sideA.role := (congrArg Side.role sideA :)
  have roleB : t.sideB.role = s.sideB.role := (congrArg Side.role sideB :)
  have power : t.power = s.power := (congrArg State.power hr :)
  have forces : t.forces = s.forces := (congrArg State.forces hr :)
  have modActive : t.modActive = s.modActive := (congrArg State.modActive hr :)
  have stallActive : t.stallActive = s.stallActive := (congrArg State.stallActive hr :)
  have safeActive : t.safeActive = s.safeActive := (congrArg State.safeActive hr :)
  have safePw : t.safePw = s.safePw := (congrArg State.safePw hr :)
  have unlocks : t.unlocks = s.unlocks := (congrArg State.unlocks hr :)
  have now : t.now = s.now := (congrArg State.now hr :)
  have update : t.update = s.update := (congrArg State.update hr :)
  rw [State.lasting, State.lasting, keysA, keysB, roleA, roleB, power, forces, modActive, stallActive, safeActive, safePw, unlocks, now,
    update, State.waiting_of_books hb]

/-! ### Registers, sides and reports -/

@[simp] theorem State.lasting_emit (o : Output) : (s.emit o).lasting b = s.lasting b := rfl
@[simp] theorem State.lasting_putReg (r : Reg) (v : Nat) : (s.putReg r v).lasting b = s.lasting b := rfl
@[simp] theorem State.lasting_wr (r : Reg) (f : Fld) (v : Nat) : (s.wr r f v).lasting b = s.lasting b := rfl
@[simp] theorem State.lasting_setFlag (r : Reg) (f : Fld) (v : Bool) : (s.setFlag r f v).lasting b = s.lasting b := rfl
@[simp] theorem State.lasting_count (r : Reg) (f : Fld) (n : Nat) : (s.count r f n).lasting b = s.lasting b := rfl
@[simp] theorem State.lasting_tick1 (r : Reg) (f : Fld) : (s.tick1 r f).lasting b = s.lasting b := rfl
@[simp] theorem State.lasting_raise (r : Reg) (f : Fld) (v : Nat) : (s.raise r f v).lasting b = s.lasting b := rfl
@[simp] theorem State.lasting_endLease (k : Nat) : (s.endLease k).lasting b = s.lasting b := rfl
@[simp] theorem State.lasting_endLeaseOf (k n : Nat) : (s.endLeaseOf k n).lasting b = s.lasting b := rfl
@[simp] theorem State.lasting_noteOutcome (h : CmdHdr) (st : Status) (k : Nat) : (s.noteOutcome h st k).lasting b = s.lasting b := rfl
@[simp] theorem State.lasting_failLane (l : Lane) : (s.failLane l).lasting b = s.lasting b := rfl

theorem State.lasting_modSide {f : Side → Side} (hr : ∀ x, (f x).role = x.role) (hk : ∀ x, (f x).keys = x.keys) :
    (s.modSide sd f).lasting b = s.lasting b := by
  cases sd <;> simp [State.lasting, State.modSide, hr, hk]

@[simp] theorem State.lasting_modDuty (f : DutySt → DutySt) : (s.modDuty sd f).lasting b = s.lasting b :=
  s.lasting_modSide b sd (fun _ => rfl) fun _ => rfl
@[simp] theorem State.lasting_modResync (f : ResyncSt → ResyncSt) : (s.modResync sd f).lasting b = s.lasting b := s.lasting_modDuty b sd _
@[simp] theorem State.lasting_modHealth (f : HealthSt → HealthSt) : (s.modHealth sd f).lasting b = s.lasting b :=
  s.lasting_modSide b sd (fun _ => rfl) fun _ => rfl
@[simp] theorem State.lasting_unitFailed (u : Nat) : (s.unitFailed sd u).lasting b = s.lasting b :=
  s.lasting_modSide b sd (fun _ => rfl) fun _ => rfl
@[simp] theorem State.lasting_putTaskSt (stall task : Nat) (x : TaskSt) : (s.putTaskSt sd stall task x).lasting b = s.lasting b :=
  s.lasting_modSide b sd (fun _ => rfl) fun _ => rfl
@[simp] theorem State.lasting_putCore (n : Nat) (c : CoreSt) : (s.putCore sd n c).lasting b = s.lasting b :=
  s.lasting_modSide b sd (fun _ => rfl) fun _ => rfl
@[simp] theorem State.lasting_keepCopy : (s.keepCopy sd).lasting b = s.lasting b := s.lasting_modSide b sd (fun _ => rfl) fun _ => rfl
@[simp] theorem State.lasting_zeroise : (s.zeroise sd).lasting b = s.lasting b := s.lasting_modSide b sd (fun _ => rfl) fun _ => rfl
@[simp] theorem State.lasting_freeSpare : (s.freeSpare sd).lasting b = s.lasting b := s.lasting_modSide b sd (fun _ => rfl) fun _ => rfl

@[simp] theorem State.lasting_raiseMsix (v : Nat) : (s.raiseMsix sd v).lasting b = s.lasting b :=
  State.lasting_of_report b (by simp) (by simp)
@[simp] theorem State.lasting_sideReport (code : Nat) (body : Bytes) : (s.sideReport sd code body).lasting b = s.lasting b :=
  State.lasting_of_report b (by simp) (by simp)
@[simp] theorem State.lasting_partEvent (code part word : Nat) : (s.partEvent sd code part word).lasting b = s.lasting b :=
  s.lasting_sideReport b sd _ _
@[simp] theorem State.lasting_sideEvent (code stall origin : Nat) (body : Bytes) :
    (s.sideEvent sd code stall origin body).lasting b = s.lasting b :=
  State.lasting_of_report b (by simp) (by simp)
@[simp] theorem State.lasting_crier (code area seq stall : Nat) (body : Bytes) : (s.crier sd code area seq stall body).lasting b = s.lasting b :=
  State.lasting_of_report b (by simp) (by simp)
@[simp] theorem State.lasting_crierFinal (h : CmdHdr) (st : Status) (body : Bytes) : (s.crierFinal sd h st body).lasting b = s.lasting b :=
  State.lasting_of_report b (by simp) (by simp)
@[simp] theorem State.lasting_final (h : CmdHdr) (st : Status) (body : Bytes) : (s.final h st body).lasting b = s.lasting b := by
  rw [State.final, State.lasting_crierFinal, State.lasting_noteOutcome]

@[simp] theorem State.lasting_addNotice (n : Notice) : (s.addNotice n).lasting b = s.lasting b := by
  simp only [State.addNotice]
  split <;> rfl

/-! ### Activations that a failing core loses (R125, R127) -/

@[simp] theorem State.lasting_tallyAbort (stall task : Nat) : (s.tallyAbort stall task).lasting b = s.lasting b := by
  simp only [State.tallyAbort]
  split <;> rfl

@[simp] theorem State.lasting_coreDone (n ns : Nat) : (s.coreDone sd n ns).lasting b = s.lasting b := by
  simp [State.coreDone]

@[simp] theorem State.lasting_logFaultAs (code part word : Nat) : (s.logFaultAs sd code part word).lasting b = s.lasting b := by
  have entered : ∀ l, (s.modSide sd fun x => { x with health := { x.health with found := l } }).lasting b = s.lasting b := fun l =>
    s.lasting_modSide b sd (fun _ => rfl) fun _ => rfl
  rw [State.logFaultAs_eq, State.lasting_partEvent, State.countFault, State.enterFault]
  split <;> split <;> simp [entered]

@[simp] theorem State.lasting_logFault (part word : Nat) : (s.logFault sd part word).lasting b = s.lasting b :=
  s.lasting_logFaultAs b sd _ _ _

@[simp] theorem State.lasting_countAbort (stall task : Nat) (r : AbortReason) (leads : Bool) :
    (s.countAbort sd stall task r leads).lasting b = s.lasting b := by
  simp only [State.countAbort]
  split
  · rw [State.lasting_tallyAbort]; cases r <;> rfl
  · cases r <;> rfl

@[simp] theorem State.lasting_abortAct (n : Nat) (a : Act) (r : AbortReason) : (s.abortAct sd n a r).lasting b = s.lasting b := by
  rw [State.abortAct_eq]
  dsimp only
  rw [State.lasting_coreDone]
  split <;> simp

@[simp] theorem State.lasting_useGather (stall task : Nat) : (s.useGather sd stall task).lasting b = s.lasting b :=
  s.lasting_putTaskSt b sd _ _ _

@[simp] theorem State.lasting_discardAct (n : Nat) (e : Nat × Nat) : (s.discardAct sd n e).lasting b = s.lasting b := by
  rw [State.discardAct, State.lasting_abortAct, State.lasting_useGather]

@[simp] theorem State.lasting_discardCore (n : Nat) (r : AbortReason) : (s.discardCore sd n r).lasting b = s.lasting b := by
  have queued : ∀ (l : List (Nat × Nat)) (t : State), (l.foldl (fun t e => t.discardAct sd n e) t).lasting b = t.lasting b := fun l t =>
    foldl_keeps (State.lasting b) (fun t e => t.lasting_discardAct b sd n e) l t
  simp only [State.discardCore, State.lasting_putCore]
  rw [queued]
  split
  · exact s.lasting_abortAct b sd n _ r
  · rfl

@[simp] theorem State.lasting_takeBackAct (e : Nat × Nat × TaskSt) : (s.takeBackAct sd e).lasting b = s.lasting b := by
  have marked : ∀ (t : State) (f : List Mark → List Mark),
      (t.modSide sd fun x => { x with marks := f x.marks }).lasting b = t.lasting b := fun t f =>
    t.lasting_modSide b sd (fun _ => rfl) fun _ => rfl
  simp only [State.takeBackAct]
  split
  · exact (marked _ _).trans (by simp)
  · exact (marked _ _).trans (by simp)

@[simp] theorem State.lasting_takeBack (n : Nat) : (s.takeBack sd n).lasting b = s.lasting b := by
  simp only [State.takeBack, State.lasting_putCore]
  exact foldl_keeps (State.lasting b) (fun t e => t.lasting_takeBackAct b sd e) _ s

@[simp] theorem State.lasting_nameStalls (l : List Nat) : (s.nameStalls sd l).lasting b = s.lasting b := s.lasting_modDuty b sd _

@[simp] theorem State.lasting_discardCluster (l : Nat) : (s.discardCluster sd l).lasting b = s.lasting b :=
  foldl_keeps (State.lasting b) (fun t c => by rw [State.lasting_nameStalls, State.lasting_takeBack, State.lasting_discardCore]) _ s

/-! ### A side that fails (R10, R216 to R218) -/

@[simp] theorem State.lasting_answerJoin (st : Status) : (s.answerJoin sd st).lasting b = s.lasting b := by
  simp only [State.answerJoin]
  split
  · simp
  · rfl

@[simp] theorem State.lasting_lastCause (cause : Nat) : (s.lastCause cause).lasting b = s.lasting b := rfl

@[simp] theorem State.lasting_stopSide : (s.stopSide sd).lasting b = s.lasting b := by
  have silent : (s.modSide sd fun x => { x with outData := none }).lasting b = s.lasting b :=
    s.lasting_modSide b sd (fun _ => rfl) fun _ => rfl
  have dropped : ∀ t : State, (t.dropQueued sd).lasting b = t.lasting b := by
    intro t
    rw [State.dropQueued, State.lasting_modSide]
    · exact foldl_keeps (State.lasting b) (fun u f => by rw [State.lasting_count]) _ t
    · exact fun _ => rfl
    · exact fun _ => rfl
  have bus : ∀ (t : State) which, (t.canDrop sd which).lasting b = t.lasting b := by
    intro t which
    rw [State.canDrop, foldl_keeps (State.lasting b) fun u e => by rw [State.lasting_setFlag]]
    exact t.lasting_modSide b sd (fun _ => rfl) fun _ => rfl
  rw [State.stopSide, State.lasting_zeroise, bus, dropped, silent]

/-- Without the seats a role of no account. -/
theorem State.unseated_role (r : Role) : (s.modSide sd fun x => { x with role := r }).lasting false = s.lasting false := by
  cases sd <;> rfl

theorem State.unseated_putRole {r : Role} (h : r ≠ .active) : (s.putRole sd r).lasting false = s.lasting false := by
  have copied : (if s.computes sd then s.keepCopy sd else s).lasting false = s.lasting false := by
    split
    · exact s.lasting_keepCopy false sd
    · rfl
  have stored : (s.storeFor sd r).lasting false = s.lasting false := by
    cases r with
    | active => exact absurd rfl h
    | standby => rfl
    | joining => exact copied
    | out => exact copied
  simp only [State.putRole]
  split
  · rw [State.unseated_role, stored]
  · rw [State.lasting_raiseMsix, State.unseated_role, stored]

theorem State.unseated_setRole (cause : Nat) : (s.setRole sd .out cause).lasting false = s.lasting false := by
  rw [State.setRole, State.lasting_lastCause, State.unseated_putRole _ _ (by decide)]

theorem State.unseated_loseCommands (was : Bool) : (s.loseCommands sd was).lasting false = s.lasting false := by
  cases was <;> rfl

theorem State.unseated_demoted (cause : Nat) : (s.demoted sd cause).lasting false = s.lasting false := by
  rw [State.demoted, State.unseated_loseCommands, State.lasting_endLeaseOf, State.lasting_wr, State.lasting_modDuty, State.lasting_stopSide,
    State.lasting_tick1, State.unseated_setRole, State.lasting_answerJoin]

theorem State.unseated_demote (cause : Nat) : (s.demote sd cause).lasting false = s.lasting false := by
  by_cases h : (s.side sd).role = .out
  · rw [State.demote, if_pos h]
  · simp only [State.demote, if_neg h]
    split
    · exact (State.lasting_emit _ _ _).trans (s.unseated_demoted sd cause)
    · exact s.unseated_demoted sd cause

theorem State.unseated_goOut (cause : Nat) : (s.goOut sd cause).lasting false = s.lasting false := by
  by_cases h : (s.side sd).role = .out
  · rw [State.goOut, if_pos h]
  · simp only [State.goOut, if_neg h]
    rw [State.unseated_loseCommands, State.lasting_endLeaseOf, State.lasting_wr, State.lasting_modDuty, State.lasting_stopSide,
      State.unseated_setRole, State.lasting_answerJoin]

variable {b} {s}

/-- A side that is Out stays as it is. -/
theorem State.demote_out (h : (s.side sd).role = .out) (cause : Nat) : s.demote sd cause = s := if_pos h

theorem State.out_of_still (h : (s.lasting true).still) (sd : SideId) : (s.side sd).role = .out := by
  obtain ⟨roleA, roleB⟩ := h _ rfl
  cases sd
  · exact roleA
  · exact roleB

@[simp] theorem State.lasting_demote (h : (s.lasting b).still) (cause : Nat) : (s.demote sd cause).lasting b = s.lasting b := by
  cases b with
  | false => exact s.unseated_demote sd cause
  | true => rw [s.demote_out sd (State.out_of_still h sd)]

/-! ### Spares (R459, R460) -/

variable (b) (s)

@[simp] theorem State.lasting_countSpareCores : (s.countSpareCores sd).lasting b = s.lasting b := rfl

@[simp] theorem State.lasting_giveUp (l : List Nat) : (s.giveUp sd l).lasting b = s.lasting b := by
  simp only [State.giveUp]
  split
  · split
    · exact (State.lasting_addNotice b _ _).trans (State.lasting_modHealth b _ sd _)
    · exact foldl_keeps (State.lasting b) (fun t st => t.lasting_addNotice b _) l s
  · exact s.lasting_modHealth b sd _
  · rfl

@[simp] theorem State.lasting_migrate : (s.migrate sd).lasting b = s.lasting b := by
  simp only [State.migrate]
  split
  · split
    · simp
    · simp
  · rfl

@[simp] theorem State.lasting_migrateAll : (s.migrateAll sd).lasting b = s.lasting b :=
  foldl_keeps (State.lasting b) (fun t _ => t.lasting_migrate b sd) _ s

variable {b} {s} (still : (s.lasting b).still)
include still

@[simp] theorem State.lasting_sideFault (part : Nat) : (s.sideFault sd part).lasting b = s.lasting b := by
  simp [State.sideFault, still]

@[simp] theorem State.lasting_clusterFails (l : Nat) (bad : Bool) : (s.clusterFails sd l bad).lasting b = s.lasting b := by
  simp only [State.clusterFails]
  split <;> simp [still]

@[simp] theorem State.lasting_coreFails (n : Nat) (r : AbortReason) : (s.coreFails sd n r).lasting b = s.lasting b := by
  simp only [State.coreFails]
  split <;> simp [still]

@[simp] theorem State.lasting_spareFails (phys : Nat) : (s.spareFails sd phys).lasting b = s.lasting b := by
  simp only [State.spareFails]
  split <;> simp [still]

@[simp] theorem State.lasting_spareCoreFails (phys core : Nat) : (s.spareCoreFails sd phys core).lasting b = s.lasting b := by
  simp only [State.spareCoreFails]
  split <;> simp [still]

@[simp] theorem State.lasting_clusterPart (part : Nat) : (s.clusterPart sd part).lasting b = s.lasting b := by
  simp only [State.clusterPart]
  split
  · split
    · rfl
    · split
      · exact State.lasting_spareFails sd still _
      · exact State.lasting_spareCoreFails sd still _ _
  · split
    · exact State.lasting_clusterFails sd still _ _
    · split
      · rw [State.lasting_countSpareCores, State.lasting_setFlag, State.lasting_logFault]
      · split
        · rfl
        · exact State.lasting_coreFails sd still _ _

@[simp] theorem State.lasting_retireSector (part : Nat) : (s.retireSector sd part).lasting b = s.lasting b := by
  simp only [State.retireSector]
  split <;> simp [still]

omit still in
theorem State.lasting_testRecorded (p : Bool) (g : Nat) :
    ((if p then s.partEvent sd lcTestFail (tileAddr sd 0x02 g) 0 else s : State).logFault sd (tileAddr sd 0x02 g) 0).lasting b = s.lasting b := by
  rw [State.lasting_logFault]
  split
  · rw [State.lasting_partEvent]
  · rfl

@[simp] theorem State.lasting_laneGroupFails (g : Nat) : (s.laneGroupFails sd g).lasting b = s.lasting b := by
  simp only [State.laneGroupFails]
  split
  · split
    · rw [State.lasting_setFlag, State.lasting_setFlag, State.lasting_logFault, State.lasting_partEvent]
    · rw [State.lasting_partEvent, State.lasting_setFlag, State.lasting_setFlag, State.lasting_logFault]
  · rw [State.lasting_sideFault, State.lasting_testRecorded]
    rw [State.lasting_testRecorded]
    exact still

@[simp] theorem State.lasting_mgmtCoreFails (core : Nat) : (s.mgmtCoreFails sd core).lasting b = s.lasting b := by
  have silent : ∀ t : State, (t.modSide sd fun x => { x with console := [] }).lasting b = t.lasting b := fun t =>
    t.lasting_modSide b sd (fun _ => rfl) fun _ => rfl
  simp only [State.mgmtCoreFails]
  split
  · rw [State.lasting_setFlag, State.lasting_logFault]
  · split
    · rw [State.lasting_partEvent, State.lasting_setFlag, silent, State.lasting_logFault]
    · rw [State.lasting_sideFault, silent, State.lasting_logFault]
      rw [silent, State.lasting_logFault]
      exact still

/-- The part of a side retires, and what lasts stands. -/
theorem State.lasting_retirePart (part : Nat) : (s.retirePart sd part).1.lasting b = s.lasting b := by
  simp only [State.retirePart]
  split
  · exact State.lasting_clusterPart sd still _
  · split
    · rw [State.lasting_retireSector, State.lasting_logFault]
      rw [State.lasting_logFault]
      exact still
    · split
      · cases serdesLane (partTile part) with
        | none => rfl
        | some l => exact (State.lasting_failLane _ _ _).trans (State.lasting_logFault _ _ _ _ _)
      · split
        · exact State.lasting_laneGroupFails sd still _
        · split
          · exact State.lasting_mgmtCoreFails sd still _
          · exact State.lasting_logFault _ _ _ _ _

/-! ### A boot applies the repair log (R462) -/

@[simp] theorem State.lasting_applyRepair : (s.applyRepair sd).lasting b = s.lasting b := by
  simp only [State.applyRepair, State.lasting_migrateAll]
  refine foldl_invariant (fun t : State => t.lasting b = s.lasting b) ?_ _ (State.lasting_wr _ _ _ _ _)
  intro t e ht
  have retired : ((t.logFault sd e.1 0).retirePart sd e.1).1.lasting b = s.lasting b := by
    rw [State.lasting_retirePart, State.lasting_logFault, ht]
    rw [State.lasting_logFault, ht]
    exact still
  split
  · exact retired
  · rw [State.lasting_modHealth, retired]

end

section
variable (b : Bool) (s : State) (sd : SideId)

@[simp] theorem State.lasting_bootRecord (cause : Nat) : (s.bootRecord sd cause).lasting b = s.lasting b := by
  simp [State.bootRecord]

/-! ### One side boots (R387, R481) -/

@[simp] theorem State.lasting_putRing (r : Nat) (x : RingSt) : (s.putRing sd r x).lasting b = s.lasting b :=
  State.lasting_of_report b (by simp) (by simp)

@[simp] theorem State.lasting_ringClear (r : Nat) : (s.ringClear sd r).lasting b = s.lasting b := by
  rw [State.ringClear, State.lasting_putRing, State.lasting_putReg, State.lasting_setFlag, State.lasting_wr, State.lasting_setFlag,
    State.lasting_setFlag]

@[simp] theorem State.lasting_captNoDest (c ring : Nat) (r : Bytes) : (s.captNoDest sd c ring r).lasting b = s.lasting b := by
  have stopped : ∀ x, ((s.putCapt sd c x).setCaptState sd c csNoDest).lasting b = s.lasting b := fun x =>
    (State.lasting_wr _ _ _ _ _).trans (s.lasting_modSide b sd (fun _ => rfl) fun _ => rfl)
  simp only [State.captNoDest]
  split
  · rw [State.lasting_sideReport, stopped]
  · rfl

@[simp] theorem State.lasting_resetRing (r : Nat) : (s.resetRing sd r).lasting b = s.lasting b := by
  rw [State.resetRing, State.loseRing, State.mirrorLoseRing]
  rw [foldl_keeps (State.lasting b) fun t m => by split <;> rfl]
  rw [State.captLoseRing, State.lasting_modSide, foldl_keeps (State.lasting b) fun t e => t.lasting_captNoDest b sd _ _ _,
    State.lasting_ringClear]
  · exact fun _ => rfl
  · exact fun _ => rfl

@[simp] theorem State.lasting_linkDown : (s.linkDown sd).lasting b = s.lasting b := by
  have reset : ∀ (l : List Nat) (t : State), (l.foldl (fun t r => (t.resetRing sd r).ringResetDone sd r) t).lasting b = t.lasting b :=
    fun l t => foldl_keeps (State.lasting b) (fun t r => (State.lasting_setFlag _ _ _ _ _).trans (t.lasting_resetRing b sd r)) l t
  simp only [State.linkDown]
  rw [State.lasting_setFlag, State.lasting_wr, State.lasting_wr, State.lasting_setFlag, State.lasting_modSide, reset]
  · exact fun _ => rfl
  · exact fun _ => rfl

@[simp] theorem State.lasting_setNor (n : Nat) : (s.setNor sd n).lasting b = s.lasting b := rfl

@[simp] theorem State.lasting_restoreNor : (s.restoreNor sd).lasting b = s.lasting b :=
  (State.lasting_setNor _ _ _ _).trans (s.lasting_modSide b sd (fun _ => rfl) fun _ => rfl)

/-- A side that boots leaves what both sides keep, but for the roles and the commands that wait. -/
theorem State.unseated_bootSide (cause : Nat) (image : Bytes) : (s.bootSide sd cause image).lasting false = s.lasting false := by
  have left : (if (s.side sd).role = .active then s.demote sd rcSelf else s.goOut sd rcSideOut).lasting false = s.lasting false := by
    split
    · exact s.unseated_demote sd _
    · exact s.unseated_goOut sd _
  have silent : ∀ t : State, (t.modSide sd fun x => { x with sideQueue := 0 }).lasting false = t.lasting false := fun t =>
    t.lasting_modSide false sd (fun _ => rfl) fun _ => rfl
  have booted : ∀ t : State, (t.modSide sd fun x => x.booted image s.now).lasting false = t.lasting false := by
    intro t; cases sd <;> rfl
  have cleared : ∀ (t : State) (l : Tbl (BitVec 64)) (x : XlinkSt), ({ t with regs := l, xlink := x } : State).lasting false = t.lasting false :=
    fun _ _ _ => rfl
  simp only [State.bootSide]
  rw [State.lasting_applyRepair _ (State.still_unseated _), State.lasting_bootRecord, State.lasting_setFlag, State.lasting_wr, booted, cleared,
    silent, State.lasting_linkDown, left]

end

end Sys2Proof.Machine
end

section
/-! PROOFS. Validations that end, images from Porter rings, the gambit of an update (R419, R421, R422, R431 to R439). -/

namespace Sys2Proof.Machine
open Claims

/-! ### A validation ends (R422) -/

section Validations

variable (s : State) (stall : Nat)

/-- What a command answered late reports changes no shadow scope. -/
theorem State.final_shadow (h : CmdHdr) (st : Status) (body : Bytes) : (s.final h st body).stallShadowScope stall = s.stallShadowScope stall := by
  have rest : (s.final h st body).unreported = s.unreported := by
    rw [State.final, State.unreported_crierFinal, State.unreported_noteOutcome]
  exact (congrArg (State.stallShadowScope · stall) rest :)

/-- A scope takes the place of a shadow. -/
def State.putShadow (c : Scope) : State :=
  if stall = 0 then { s with modShadow := c } else { s with stallShadow := Tbl.put s.stallShadow stall c }

theorem State.putShadow_shadow (c : Scope) : (s.putShadow stall c).stallShadowScope stall = c := by
  by_cases h : stall = 0
  · simp [State.putShadow, State.stallShadowScope, h]
  · simp [State.putShadow, State.stallShadowScope, h]

/-- The shadow scope as a passed validation leaves it. -/
def State.validated : Scope :=
  { s.stallShadowScope stall with valid := true, digest := (s.stallShadowScope stall).imageDigest s.cfgFmt stall }

variable {s stall} {v : Validation} (h : Tbl.find s.validations stall = some v)
include h

theorem State.endValidation_broken (broken : v.broken = true) : s.endValidation stall =
    ({ s with validations := Tbl.del s.validations stall } : State).final v.hdr .conflict [] := by
  simp only [State.endValidation, h, broken, if_true]

theorem State.endValidation_fails {f : VFail} (whole : v.broken = false) (fails : s.validate stall = some f) : s.endValidation stall =
    (((({ s with validations := Tbl.del s.validations stall } : State).showDemand stall s.modShadow).putReg Rg.cfgFail
      (f.status.code * 2 ^ 48 + f.ty * 2 ^ 40 + f.stall * 2 ^ 32 + f.offset)).final v.hdr f.status
        (beBytes 1 f.ty ++ beBytes 1 f.stall ++ beBytes 4 f.offset)) := by
  simp only [State.endValidation, h, whole, fails, at_, Bool.false_eq_true, if_false]

theorem State.endValidation_passes (whole : v.broken = false) (passes : s.validate stall = none) : s.endValidation stall =
    ((({ s with validations := Tbl.del s.validations stall } : State).showDemand stall s.modShadow).putShadow stall (s.validated stall)).final
      v.hdr .ok [] := by
  simp only [State.endValidation, h, whole, passes, Bool.false_eq_true, if_false]
  rfl

theorem State.endValidation_valid (whole : v.broken = false) (passes : s.validate stall = none) :
    (s.endValidation stall).stallShadowScope stall = s.validated stall := by
  rw [State.endValidation_passes h whole passes, State.final_shadow, State.putShadow_shadow]

end Validations

theorem State.endValidation_none {s : State} {stall : Nat} (h : Tbl.find s.validations stall = none) : s.endValidation stall = s := by
  simp only [State.endValidation, h]

theorem exec_validationDone (s : State) (stall : Fin 64) : exec (.validationDone stall) s = .next (s.endValidation stall.val) := rfl

/-! ### Images from rings (R419, R421) -/

section Images

variable (s : State)

theorem State.abandonValidations_shadow (stall : Nat) : s.abandonValidations.stallShadowScope stall = s.stallShadowScope stall := by
  refine foldl_keeps (State.stallShadowScope · stall) (fun t e => ?_) _ s
  split
  · exact State.final_shadow ({ t with validations := Tbl.del t.validations e.1 } : State) stall e.2.hdr .conflict []
  · rfl

theorem State.loadShadow_shadow (stall : Nat) (recs : Tbl Bytes) :
    ((s.loadShadow stall recs).stallShadowScope stall).recs = recs ∧ ((s.loadShadow stall recs).stallShadowScope stall).valid = false := by
  by_cases h : stall = 0
  · subst h; exact ⟨rfl, rfl⟩
  · simp [State.loadShadow, State.modifyStallShadow, State.stallShadowScope, State.breakValidation, h]

theorem State.placeImage_shadow {l : RingLoad} {stall : Nat} {recs : Tbl Bytes} (h : readSetImage s.cfgFmt l.got = some (stall, recs)) :
    ((s.placeImage l).s.stallShadowScope stall).recs = recs ∧ ((s.placeImage l).s.stallShadowScope stall).valid = false := by
  obtain ⟨held, novalid⟩ :=
    ({ s with ringLoads := dropFirst (fun x => x == l) s.ringLoads } : State).loadShadow_shadow stall recs
  have placed : (s.placeImage l).s.stallShadowScope stall =
      (({ s with ringLoads := dropFirst (fun x => x == l) s.ringLoads } : State).loadShadow stall recs).stallShadowScope stall := by
    simp only [State.placeImage, h]
    exact (State.abandonValidations_shadow _ stall :)
  rw [placed]
  exact ⟨held, novalid⟩

/-- What an image held by a load starts. -/
theorem exec_cfgRingImageHeld_one {image : Bytes} {l : RingLoad} (loads : s.ringLoads = [l]) (config : l.update = false)
    (fresh : l.held = false) (whole : l.length = image.length) (reaches : s.copyReaches = true) :
    exec (.cfgRingImageHeld image) s = .next (({ s with ringLoads := [] } : State).imageHeld l image) := by
  have found : (s.ringLoads.find? fun l => !l.update && !l.held && l.length == image.length && s.copyReaches) = some l := by
    simp [loads, config, fresh, whole, reaches]
  have taken : dropFirst (fun x => x == l) s.ringLoads = [] := by simp [loads, dropFirst]
  change execCfgRingImageHeld image s = _
  simp only [execCfgRingImageHeld, found, taken]

theorem exec_cfgRingImageHeld_none {image : Bytes}
    (none_ : ∀ l ∈ s.ringLoads, l.update = true ∨ l.held = true ∨ l.length ≠ image.length ∨ s.copyReaches = false) :
    exec (.cfgRingImageHeld image) s = .next s := by
  have found : (s.ringLoads.find? fun l => !l.update && !l.held && l.length == image.length && s.copyReaches) = none := by
    refine List.find?_eq_none.2 fun l hl => ?_
    rcases none_ l hl with h | h | h | h <;> simp [h]
  change execCfgRingImageHeld image s = _
  simp only [execCfgRingImageHeld, found]

theorem State.imageHeld_refused {fmt : Nat} (same : s.cfgFmt = fmt) {l : RingLoad} {image : Bytes} (bad : readSetImage fmt image = none) :
    s.imageHeld l image = s.final l.hdr (imageRefusal fmt image) [] := by
  subst same
  simp only [State.imageHeld, bad]

theorem State.imageHeld_waits {l : RingLoad} {image : Bytes} {x : Nat × Tbl Bytes} (good : readSetImage s.cfgFmt image = some x) :
    s.imageHeld l image = { s with
      ringLoads := s.ringLoads ++ [{ l with got := image }]
      waiting := s.waiting ++ [{ hdr := l.hdr, op := 0x0202, params := beBytes 1 l.ring ++ zeros 3 ++ beBytes 4 l.length, tick := 0
                                 answered := true, listed := true }] } := by
  simp only [State.imageHeld, good]

/-- A header that is too short, too long or without the magic is none (R419). -/
theorem setHeadOk_false {fmt : Nat} {image : Bytes} (h : image.length < 64 ∨ 7340032 < image.length ∨ u16 image 0 ≠ 0x4B43) :
    setHeadOk fmt image = false := by
  rw [Bool.eq_false_iff]
  intro ok
  simp only [setHeadOk, Bool.and_eq_true, beq_iff_eq, decide_eq_true_eq] at ok
  obtain ⟨⟨⟨⟨⟨⟨⟨magic, -⟩, -⟩, -, -, least, most, -⟩, -⟩, -⟩, -⟩, -⟩ := ok
  rcases h with short | long | other
  · omega
  · omega
  · exact other magic

theorem readSetImage_headless {fmt : Nat} {image : Bytes} (h : setHeadOk fmt image = false) :
    readSetImage fmt image = none ∧ imageRefusal fmt image = .range := by
  simp [readSetImage, imageRefusal, h]

theorem blockRefusal_conflict (b : Bytes) : blockRefusal b = .conflict ↔
    u8 b 0 = 0x04 ∧ hasDup (recIdxs 0x04 (min (u32 b 8) 1024) none (sub b 16 (u32 b 4 - 16))) = true := by
  by_cases h : u8 b 0 = 0x04 ∧ hasDup (recIdxs 0x04 (min (u32 b 8) 1024) none (sub b 16 (u32 b 4 - 16))) = true
  · simp only [blockRefusal, h, and_self, if_true]
  · simp only [blockRefusal, h, if_false, iff_false]
    decide

end Images

/-! ### NOR states and gambits (R431, R433, R435) -/

section Gambits

variable (s : State) (sd : SideId)

/-- NOR_STATE holds a state of the list (R431). -/
theorem State.nor_setNor {n : Nat} (h : n < 8) : (s.setNor sd n).nor sd = n := by
  have kept : (s.setNor sd n).nor sd = n % 2 ^ (Fd.norStateState.hi - Fd.norStateState.lo + 1) :=
    s.rd_wr_same (Rg.norState sd) Fd.norStateState n (by decide) (by decide)
  have wide : 2 ^ (Fd.norStateState.hi - Fd.norStateState.lo + 1) = 8 := by decide
  rw [kept, wide, Nat.mod_eq_of_lt h]

theorem norState_key_other {a b : SideId} (h : a ≠ b) : (Rg.norState a).key ≠ (Rg.norState b).key := by
  cases a <;> cases b
  · exact absurd rfl h
  · decide
  · decide
  · exact absurd rfl h

/-- The state of one side's NOR stands when the other's changes. -/
theorem State.nor_setNor_other {a b : SideId} (n : Nat) (h : a ≠ b) : (s.setNor b n).nor a = s.nor a :=
  s.rd_wr_other _ _ n (norState_key_other h)

theorem State.nor_congr {s t : State} (h : t.regs = s.regs) : t.nor sd = s.nor sd := State.rd_congr h _ _

theorem State.modUpdate_regs (f : UpdSt → UpdSt) : (s.modUpdate f).regs = s.regs := rfl

theorem State.restoreNor_shows : ((s.restoreNor sd).side sd).stored = (s.side sd.other).stored ∧ (s.restoreNor sd).nor sd = norRestoring := by
  refine ⟨?_, State.nor_setNor _ sd (by decide)⟩
  rw [State.restoreNor, State.setNor, State.wr_side, State.modSide_same]

theorem State.startGambit_shows (phase : Nat) : (s.startGambit sd phase).nor sd = norGambit ∧ (s.startGambit sd phase).update.phase = phase ∧
    (s.startGambit sd phase).update.windowEnd = some (s.now + s.update.window * 4800) ∧ (s.startGambit sd phase).update.trial = 0 := by
  refine ⟨?_, rfl, rfl, rfl⟩
  rw [State.startGambit, State.nor_congr sd (State.modUpdate_regs _ _)]
  exact State.nor_setNor _ sd (by decide)

end Gambits

section Rows

variable {s : State} {sd : SideId}

/-- Whether a side can donate (R433): the cross-link is up, and the image of the other side is PROVEN. -/
theorem State.canDonate_iff : s.canDonate sd = true ↔ s.xlinkUp sd = true ∧ s.nor sd.other = norProven := by
  simp [State.canDonate]

theorem exec_peerRestore_serving (h : (s.side sd).role ≠ .out) : exec (.peerRestore sd) s = .next s :=
  congrArg Host.Outcome.next (if_pos h)

theorem exec_peerRestore_noDonor (out : (s.side sd).role = .out) (h : s.canDonate sd = false) :
    exec (.peerRestore sd) s = .next (s.setNor sd norBad) := by
  change execPeerRestore sd s = _
  simp only [execPeerRestore, out, h, ne_eq, not_true_eq_false, if_false, Bool.not_false, if_true]

theorem exec_peerRestore_restores (out : (s.side sd).role = .out) (h : s.canDonate sd = true) (first : s.update.phase ≠ upFirst)
    (second : s.update.phase ≠ upSecond) :
    exec (.peerRestore sd) s = .next ((s.restoreNor sd).bootSide sd 7 (s.side sd.other).stored) := by
  change execPeerRestore sd s = _
  simp only [execPeerRestore, out, h, first, second, ne_eq, not_true_eq_false, if_false, Bool.not_true, Bool.false_eq_true, false_and]

theorem exec_updateActivation_early (h : s.update.phase ≠ upScheduled ∨ s.now < s.update.atSecond * 4800) :
    exec .updateActivation s = .next s := by
  have early : s.activationDue = false := by
    rcases h with other | before
    · simp [State.activationDue, other]
    · simp [State.activationDue, before]
  change execUpdateActivation s = _
  simp only [execUpdateActivation, early, Bool.false_eq_true, if_false]

theorem exec_updateActivation_due (scheduled : s.update.phase = upScheduled) (h : s.update.atSecond * 4800 ≤ s.now) :
    exec .updateActivation s = .next s.activate := by
  have due : s.activationDue = true := by simp [State.activationDue, scheduled, h]
  change execUpdateActivation s = _
  simp only [execUpdateActivation, due, if_true]

variable {x y : SideId} (hx : x = s.update.first) (hy : y = s.update.second)
include hx hy

theorem State.activate_abandons (h : (s.side y).role = .out ∨ (s.side y).role = .joining) :
    s.activate = (s.restoreNor x).endUpdate upFailed := by
  subst hx hy
  have idle : (s.side s.update.second).role ≠ .active ∧ (s.side s.update.second).role ≠ .standby := by
    rcases h with h | h <;> simp [h]
  simp only [State.activate, if_pos idle, State.abandonUpdate]

section Serving

variable (serves : (s.side y).role = .active ∨ (s.side y).role = .standby) (outage : s.update.outage = false) (pair : s.update.pair = false)
include serves outage pair

theorem State.activate_gambit (fits : compatible (s.side x).stored (s.side y).image s.cfgFmt = true) :
    s.activate = (((s.dueHandover.startGambit x upFirst).spareCopies x (s.side x).stored).bootSide x 6 (s.side x).stored).modResync x
      fun r => { r with trial := true } := by
  subst hx hy
  have serving : ¬((s.side s.update.second).role ≠ .active ∧ (s.side s.update.second).role ≠ .standby) := by
    rintro ⟨na, ns⟩
    exact serves.elim na ns
  simp only [State.activate, if_neg serving, outage, pair, fits, Bool.false_and, Bool.false_eq_true, if_false, Bool.not_false,
    Bool.true_and, if_true]

theorem State.activate_incompatible (fits : compatible (s.side x).stored (s.side y).image s.cfgFmt = false) :
    s.activate = ((s.dueHandover.restoreNor x).bootSide x 7 (s.side y).image).endUpdate upIncompatible := by
  subst hx hy
  have serving : ¬((s.side s.update.second).role ≠ .active ∧ (s.side s.update.second).role ≠ .standby) := by
    rintro ⟨na, ns⟩
    exact serves.elim na ns
  simp only [State.activate, if_neg serving, outage, pair, fits, Bool.false_and, Bool.false_eq_true, if_false, Bool.not_false,
    Bool.true_and]

end Serving

omit hy in
theorem State.windowOver_falls {e : Nat} (w : s.update.windowEnd = some e) (h : e ≤ s.now) (phase : s.update.phase = upFirst)
    (outage : s.update.outage = false) : s.windowOver =
      (((s.restoreNor x).endUpdate upFailed).bootSide x 7 (s.side s.update.second).image).modResync x fun r => { r with trial := false } := by
  subst hx
  simp only [State.windowOver, w, phase, if_neg (Nat.not_lt.2 h), if_true, State.fallBack, outage, Bool.false_and, Bool.false_eq_true, if_false]

end Rows

/-! ### The gambit's end (R435, R438) -/

section Confirmation

variable {s : State}

theorem State.dueHandover_none (h : s.handoverAt = none) : s.dueHandover = s := by simp only [State.dueHandover, h]

theorem State.gambitReady_early (h : s.update.trial < 48000) : s.gambitReady = false := by
  simp [State.gambitReady, Nat.not_le.2 h]

theorem State.confirm_early (h : s.update.trial < 48000) : s.confirm = s := by
  simp only [State.confirm, State.gambitReady_early h, Bool.not_false, if_true]

section Ready

variable {e : Nat} (counted : 48000 ≤ s.update.trial) (window : s.update.windowEnd = some e) (inTime : s.now ≤ e)
include counted window inTime

theorem State.confirm_first (phase : s.update.phase = upFirst) (tested : (s.duty s.update.first).tested = true) : s.confirm = s.confirmFirst := by
  have ready : s.gambitReady = true := by
    simp [State.gambitReady, phase, tested, counted, window, inTime]
  simp only [State.confirm, ready, Bool.not_true, Bool.false_eq_true, if_false, phase, if_true]

theorem State.confirm_second (phase : s.update.phase = upSecond) (tested : (s.duty s.update.second).tested = true) :
    s.confirm = s.confirmSecond := by
  have other : ¬upSecond = upFirst := by decide
  have ready : s.gambitReady = true := by
    simp [State.gambitReady, phase, other, tested, counted, window, inTime]
  simp only [State.confirm, ready, Bool.not_true, Bool.false_eq_true, if_false, phase, other, if_true]

end Ready

theorem State.addNotice_regs (n : Notice) : (s.addNotice n).regs = s.regs := by
  simp only [State.addNotice]
  split <;> rfl

theorem State.addNotice_update (n : Notice) : (s.addNotice n).update = s.update := by
  simp only [State.addNotice]
  split <;> rfl

/-- The first side's image is PROVEN, and copying begins. -/
theorem State.confirmFirst_shows : s.confirmFirst.update.phase = upCopy ∧ s.confirmFirst.nor s.update.first = norProven := by
  have differ : s.update.first ≠ s.update.first.other := by cases s.update.first <;> decide
  have proven : ((((s.setNor s.update.first norProven).modUpdate fun u =>
      { u with phase := upCopy, windowEnd := none, trial := 0, copied := none }).modResync s.update.first
        fun r => { r with trial := false }).setNor s.update.first.other norWriting).nor s.update.first = norProven := by
    rw [State.nor_setNor_other _ _ differ, State.nor_congr _ (State.modResync_regs ..), State.nor_congr _ (State.modUpdate_regs _ _)]
    exact State.nor_setNor _ _ (by decide)
  have copying : ((((s.setNor s.update.first norProven).modUpdate fun u =>
      { u with phase := upCopy, windowEnd := none, trial := 0, copied := none }).modResync s.update.first
        fun r => { r with trial := false }).setNor s.update.first.other norWriting).update.phase = upCopy := by
    cases s.update.first <;> rfl
  simp only [State.confirmFirst]
  split
  · exact ⟨copying, proven⟩
  · exact ⟨(congrArg UpdSt.phase (State.addNotice_update _)).trans copying, (State.nor_congr _ (State.addNotice_regs _)).trans proven⟩

theorem State.windowOver_none (h : s.update.windowEnd = none) : s.windowOver = s := by simp only [State.windowOver, h]

theorem State.windowOver_early {e : Nat} (w : s.update.windowEnd = some e) (h : s.now < e) : s.windowOver = s := by
  simp only [State.windowOver, w, if_pos h]

theorem State.windowOver_second {e : Nat} (w : s.update.windowEnd = some e) (h : e ≤ s.now) (phase : s.update.phase = upSecond) :
    s.windowOver = s.secondFails := by
  have other : ¬upSecond = upFirst := by decide
  simp only [State.windowOver, w, if_neg (Nat.not_lt.2 h), phase, other, if_false, if_true]

theorem State.secondFails_again (h : s.update.failedOnce = true) :
    s.secondFails = (s.goOut s.update.second rcSideOut).endUpdate upFailed := by
  simp only [State.secondFails, h, if_true]

/-- The first failure of the second side restores it and opens its window anew. -/
theorem State.secondFails_once (h : s.update.failedOnce = false) : s.secondFails.update.failedOnce = true ∧
    s.secondFails.update.windowEnd = some (s.now + s.update.window * 4800) := by
  have booted : ((s.restoreNor s.update.second).bootSide s.update.second 7 (s.side s.update.second.other).stored).update.window =
      s.update.window := by
    have lasting := (s.restoreNor s.update.second).unseated_bootSide s.update.second 7 (s.side s.update.second.other).stored
    rw [State.lasting_restoreNor] at lasting
    exact State.window_of_lasting lasting
  simp only [State.secondFails, h, Bool.false_eq_true, if_false]
  refine ⟨rfl, ?_⟩
  rw [← booted]
  rfl

/-! ### The second side (R438) -/

theorem exec_secondSideCopyDone_copied {y : SideId} (hy : y = s.update.second) (phase : s.update.phase = upCopy)
    (h : s.update.copied = none) : exec .secondSideCopyDone s = .next
      ((((s.modSide y fun z => { z with stored := (s.side y.other).image }).setNor y norStored).setKib y
        (u32 (s.side y.other).image 4)).modUpdate fun u => { u with copied := some s.now }) := by
  subst hy
  change execSecondSideCopyDone s = _
  simp only [execSecondSideCopyDone, phase, h, Option.isNone_none, and_self, if_true]

theorem norState_key_ne_updProgress (a b : SideId) : (Rg.norState a).key ≠ (Rg.updProgress b).key := by
  cases a <;> cases b <;> decide

theorem State.copyDone_shows (y : SideId) (b : Bytes) (n t : Nat) :
    let c := ((((s.modSide y fun z => { z with stored := b }).setNor y norStored).setKib y n).modUpdate fun u => { u with copied := some t })
    (c.side y).stored = b ∧ c.update.copied = some t ∧ c.nor y = norStored := by
  refine ⟨?_, rfl, ?_⟩
  · change ((((s.modSide y fun z => { z with stored := b }).setNor y norStored).setKib y n).side y).stored = b
    rw [State.setKib, State.setNor, State.wr_side, State.wr_side, State.modSide_same]
  · rw [State.nor_congr _ (State.modUpdate_regs _ _)]
    exact (State.rd_wr_other _ _ _ _ (norState_key_ne_updProgress y y)).trans (State.nor_setNor _ y (by decide))

theorem exec_secondSide_other (h : s.update.phase ≠ upCopy) :
    exec .secondSideCopyDone s = .next s ∧ exec .secondSideReboot s = .next s := by
  constructor
  · change execSecondSideCopyDone s = _
    simp only [execSecondSideCopyDone, h, false_and, if_false]
  · change Host.Outcome.next s.secondReboot = _
    simp only [State.secondReboot, h, false_and, if_false]
    split <;> rfl

theorem State.secondReboot_due {c : Nat} (phase : s.update.phase = upCopy) (copied : s.update.copied = some c)
    (h : secondRebootAt c s.update.delay ≤ s.now) : s.secondReboot =
      ((s.startGambit s.update.second upSecond).spareCopies s.update.second (s.side s.update.second).stored).bootSide s.update.second 6
        (s.side s.update.second).stored := by
  simp only [State.secondReboot, copied, phase, h, and_self, if_true]

theorem State.secondReboot_early {c : Nat} (copied : s.update.copied = some c) (h : s.now < secondRebootAt c s.update.delay) :
    s.secondReboot = s := by
  simp only [State.secondReboot, copied, Nat.not_le.2 h, and_false, if_false]

/-- The second side boots at the first second boundary past its delay. -/
theorem secondRebootAt_bounds (c d : Nat) :
    secondRebootAt c d % 4800 = 0 ∧ c + d * 4800 ≤ secondRebootAt c d ∧ secondRebootAt c d < c + d * 4800 + 4800 := by
  unfold secondRebootAt ceilDiv
  omega

end Confirmation

/-- Settles O57: each row of validations, of images and of an update does what its rule says where its condition holds. -/
theorem configAndUpdateEvents : Obligations.ConfigAndUpdateEvents := by
  unfold Obligations.ConfigAndUpdateEvents
  intro s
  refine ⟨?noValidation, ?validation, ⟨fun c => rfl, fun stall c h => if_neg h⟩, ?noLoad, ?noReach, ?held, ?headless, blockRefusal_conflict,
    fun sd h => exec_peerRestore_serving h, ?noDonor, ?restores, fun sd => s.restoreNor_shows sd, ?restored, exec_updateActivation_early,
    ?activation, State.dueHandover_none, s.startGambit_shows, ?early, ?first, ?second, ?noWindow, ?inWindow, ?fallsBack, ?secondFails,
    ?copied, exec_secondSide_other, ?reboot, secondRebootAt_bounds⟩
  case noValidation => exact fun stall h => congrArg Host.Outcome.next (State.endValidation_none h)
  case validation =>
    rintro stall v u h rfl
    refine ⟨fun broken => ?_, fun f whole fails => ?_, fun whole passes => ⟨s.endValidation stall.val, rfl, ?_⟩⟩
    · rw [exec_validationDone, State.endValidation_broken h broken]
    · rw [exec_validationDone, State.endValidation_fails h whole fails]
    · simp only [State.endValidation_valid h whole passes, State.validated, and_self]
  case noLoad =>
    intro image h
    exact exec_cfgRingImageHeld_none s fun l hl => (h l hl).imp_right fun h => h.imp_right Or.inl
  case noReach => exact fun image h => exec_cfgRingImageHeld_none s fun l hl => .inr (.inr (.inr h))
  case held =>
    intro image l loads config fresh whole reaches
    rw [exec_cfgRingImageHeld_one s loads config fresh whole reaches]
    refine ⟨fun bad => congrArg Host.Outcome.next (State.imageHeld_refused _ rfl bad), fun stall t good => ⟨?_, ?_⟩⟩
    · exact congrArg Host.Outcome.next (State.imageHeld_waits _ good)
    · exact s.placeImage_shadow (l := { l with got := image }) good
  case headless => exact fun fmt image h => readSetImage_headless (setHeadOk_false h)
  case noDonor =>
    intro sd out h
    refine exec_peerRestore_noDonor out (Bool.eq_false_iff.2 fun donor => ?_)
    obtain ⟨up, proven⟩ := State.canDonate_iff.1 donor
    rcases h with down | other
    · exact absurd up (Bool.eq_false_iff.1 down)
    · exact other proven
  case restores => exact fun sd out up proven => exec_peerRestore_restores out (State.canDonate_iff.2 ⟨up, proven⟩)
  case restored =>
    exact fun sd => ⟨fun h => congrArg Host.Outcome.next (if_pos h), fun h => congrArg Host.Outcome.next (if_neg h)⟩
  case activation =>
    intro x y scheduled due hx hy
    rw [exec_updateActivation_due scheduled due]
    refine ⟨fun h => congrArg Host.Outcome.next (State.activate_abandons hx hy h), ?_⟩
    rintro v rfl serves outage pair
    exact ⟨fun fits => congrArg Host.Outcome.next (State.activate_gambit hx hy serves outage pair fits),
      fun fits => congrArg Host.Outcome.next (State.activate_incompatible hx hy serves outage pair fits)⟩
  case early => exact fun h => congrArg Host.Outcome.next (State.confirm_early h)
  case first =>
    intro e phase tested counted window inTime
    exact ⟨_, congrArg Host.Outcome.next (State.confirm_first counted window inTime phase tested), State.confirmFirst_shows⟩
  case second =>
    exact fun e phase tested counted window inTime =>
      congrArg Host.Outcome.next (State.confirm_second counted window inTime phase tested)
  case noWindow => exact fun h => congrArg Host.Outcome.next (State.windowOver_none h)
  case inWindow => exact fun e w h => congrArg Host.Outcome.next (State.windowOver_early w h)
  case fallsBack => exact fun e x w h hx phase outage => congrArg Host.Outcome.next (State.windowOver_falls hx w h phase outage)
  case secondFails =>
    rintro e y w h rfl phase
    refine ⟨fun failed => congrArg Host.Outcome.next ((State.windowOver_second w h phase).trans (State.secondFails_again failed)),
      fun once => ⟨_, congrArg Host.Outcome.next (State.windowOver_second w h phase), State.secondFails_once once⟩⟩
  case copied =>
    exact fun y hy phase h => ⟨_, exec_secondSideCopyDone_copied hy phase h, State.copyDone_shows y _ _ _⟩
  case reboot =>
    rintro c y phase copied rfl
    exact ⟨fun h => congrArg Host.Outcome.next (State.secondReboot_due phase copied h),
      fun h => congrArg Host.Outcome.next (State.secondReboot_early copied h)⟩

end Sys2Proof.Machine
end

section
/-! PROOFS. What lasts through records, endings of updates and boots of the module (R325, R431, R477, R481). -/

namespace Sys2Proof.Machine

section
variable (b : Bool) (s : State) (sd : SideId)

theorem State.lasting_forSides {f : SideId → State → State} (h : ∀ sd t, (f sd t).lasting b = t.lasting b) :
    (s.forSides f).lasting b = s.lasting b := State.forSides_keeps (State.lasting b) h s

@[simp] theorem State.lasting_powerFlag (f : Fld) (v : Bool) : (s.powerFlag f v).lasting b = s.lasting b := rfl
@[simp] theorem State.lasting_setStallState (stall v : Nat) : (s.setStallState stall v).lasting b = s.lasting b := rfl
@[simp] theorem State.lasting_ledger (r : LPend) : (s.ledger r).lasting b = s.lasting b := rfl

/-- What lasts, in another power state. -/
def Lasting.inMode (l : Lasting) (m : PowerMode) : Lasting := { l with power := { l.power with mode := m } }

theorem State.lasting_setMode (m : PowerMode) : (s.setMode m).lasting b = (s.lasting b).inMode m := rfl

/-! ### Admission of records (R325) -/

@[simp] theorem State.lasting_writeRoot : (s.writeRoot sd).lasting b = s.lasting b := by
  rw [State.writeRoot]
  split
  · exact s.lasting_modSide b sd (fun _ => rfl) fun _ => rfl
  · rfl

@[simp] theorem State.lasting_writeRecord (cls stall code origin owner : Nat) (body : Bytes) :
    (s.writeRecord cls stall code origin owner body).lasting b = s.lasting b := by
  rw [State.writeRecord]
  refine (State.lasting_forSides b _ fun _ _ => rfl).trans ?_
  split <;> rfl

@[simp] theorem State.lasting_countDrop (code stall : Nat) (d : LDrop) : (s.countDrop code stall d).lasting b = s.lasting b := by
  rw [State.countDrop]
  exact State.lasting_forSides b _ fun _ _ => by cases d <;> rfl

@[simp] theorem State.lasting_checkRecord (r : LPend) : (s.checkRecord r).lasting b = s.lasting b := by
  simp only [State.checkRecord]
  split
  · exact s.lasting_writeRecord b _ _ _ _ _ _
  · split
    · exact s.lasting_countDrop b _ _ _
    · split
      · exact s.lasting_countDrop b _ _ _
      · split
        · exact State.lasting_countDrop b _ _ _ _
        · exact State.lasting_writeRecord b _ _ _ _ _ _ _

@[simp] theorem State.lasting_admitRecord (r : LPend) : (s.admitRecord r).lasting b = s.lasting b := by
  simp only [State.admitRecord]
  split
  · rw [State.lasting_crier, State.lasting_checkRecord]
  · exact s.lasting_checkRecord b r

@[simp] theorem State.lasting_admitAll : s.admitAll.lasting b = s.lasting b := by
  rw [State.admitAll, State.admitFloods, foldl_keeps (State.lasting b) fun _ _ => State.lasting_writeRecord _ _ _ _ _ _ _ _]
  exact foldl_keeps (State.lasting b) (fun t r => t.lasting_admitRecord b r) _ _

/-- What lasts, in the orderly stop. -/
def Lasting.stopping (l : Lasting) (after : StopEnd) : Lasting :=
  { l with power := { l.power with stopAt := none, after := after, mode := .stopping } }

/-- An orderly stop is entered: the power's mode and end change, and nothing else that lasts (R483). -/
theorem State.lasting_enterStop (after : StopEnd) : (s.enterStop after).lasting b = (s.lasting b).stopping after := by
  have roots : ∀ sd t, (if s.computes sd then t.writeRoot sd else t : State).lasting b = t.lasting b := by
    intro sd t
    split
    · exact t.lasting_writeRoot b sd
    · rfl
  have reports : ∀ sd (t : State), ((t.tick1 (Rg.powerEvents sd) Fd.powerEventsStops).sideReport sd evOrderlyStop
      (beBytes 8 s.now ++ zeros 8)).lasting b = t.lasting b := fun sd t => State.lasting_sideReport b _ sd _ _
  rw [State.enterStop, State.lasting_admitAll, State.lasting_forSides b _ roots, State.lasting_forSides b _ reports,
    State.lasting_setMode]
  rfl

/-! ### The Arbiter (R229, R344) -/

theorem State.lasting_driveCh (n : Nat) : (s.driveCh n).lasting b = s.lasting b := by
  simp only [State.driveCh]
  split
  · rfl
  · split <;> rfl

@[simp] theorem State.lasting_arbSettle : s.arbSettle.lasting b = s.lasting b := by
  have settled : s.settled.lasting b = s.lasting b :=
    (foldl_keeps (State.lasting b) (fun t n => t.lasting_driveCh b n) _ _).trans
      (foldl_keeps (State.lasting b) (fun t _ => t.instSettled_keeps (State.lasting b) (fun _ _ _ => rfl) _) _ s)
  rw [State.arbSettle, State.settleFrom_eq]
  split <;> exact settled

@[simp] theorem State.lasting_startInsts (old : Bytes) (boot : Bool) : (s.startInsts old boot).lasting b = s.lasting b := by
  refine (State.lasting_arbSettle b _).trans (foldl_keeps (State.lasting b) (fun t e => ?_) _ _)
  dsimp only
  split
  · split <;> rfl
  · split <;> rfl

/-! ### Updates (R431, R435) -/

theorem State.lasting_modUpdate {f : UpdSt → UpdSt} (h : ∀ u, (f u).window = u.window) : (s.modUpdate f).lasting b = s.lasting b := by
  simp [State.lasting, State.modUpdate, h]

@[simp] theorem State.lasting_dropForward (done : Bool) : (s.dropForward done).lasting b = s.lasting b := by
  have slots : ∀ sd (l : List Nat) (t : State), (l.foldl (fun (u : State) k =>
      if u.slotFlag sd k Fd.keySlotForward then u.setFlag (Rg.keySlot sd k) Fd.keySlotForward false else u) t).lasting b = t.lasting b :=
    fun sd l t => foldl_keeps (State.lasting b) (fun u k => by split <;> rfl) l t
  rw [State.dropForward, State.lasting_forSides]
  intro sd t
  rw [slots]
  refine t.lasting_modSide b sd (fun x => ?_) fun x => ?_
  · split <;> rfl
  · split <;> rfl

@[simp] theorem State.lasting_endUpdate (phase : Nat) : (s.endUpdate phase).lasting b = s.lasting b := by
  have loads : ∀ (l : List RingLoad) (t : State), (l.foldl (fun (t : State) l => t.final l.hdr .state []) t).lasting b = t.lasting b :=
    fun l t => foldl_keeps (State.lasting b) (fun u x => u.lasting_final b _ _ _) l t
  have cleared : ∀ (t : State) (l : List RingLoad), ({ t with ringLoads := l } : State).lasting b = t.lasting b := fun _ _ => rfl
  simp only [State.endUpdate, State.lasting_endLease]
  rw [loads, cleared, State.lasting_forSides b _ fun sd t => t.lasting_freeSpare b sd, State.lasting_dropForward]
  exact s.lasting_modUpdate b fun _ => rfl

@[simp] theorem State.lasting_startGambit (phase : Nat) : (s.startGambit sd phase).lasting b = s.lasting b :=
  (State.lasting_modUpdate b _ fun _ => rfl).trans (s.lasting_setNor b sd _)

/-! ### The module boots (R477, R481) -/

@[simp] theorem State.lasting_bootUpdate : s.bootUpdate.lasting b = s.lasting b := by
  have fromPeer : ∀ (t : State) (x : SideId) (y : Bytes), (t.modSide x fun z => { z with image := y }).lasting b = t.lasting b := fun t x y =>
    t.lasting_modSide b x (fun _ => rfl) fun _ => rfl
  simp only [State.bootUpdate]
  split
  · rw [State.lasting_endUpdate, fromPeer, State.lasting_restoreNor]
  · split
    · split
      · exact fromPeer s _ _
      · split
        · rw [State.lasting_modResync, State.lasting_startGambit]
        · rw [State.lasting_endUpdate, fromPeer, State.lasting_restoreNor]
    · rfl

theorem State.lasting_raiseWindow (n o : Nat) (p : Principal) : (s.raiseWindow sd n o p).lasting b = s.lasting b := by
  simp only [State.raiseWindow]
  split
  · rw [State.lasting_crier, State.lasting_sideEvent]; rfl
  · rfl

@[simp] theorem State.lasting_bootWindows : (s.bootWindows sd).lasting b = s.lasting b :=
  foldl_keeps (State.lasting b) (fun t _ => t.lasting_raiseWindow b sd _ _ _) _ _

/-- The two sides record their boot and apply their repair logs. -/
theorem State.lasting_bootRepair {s : State} (h : (s.lasting b).still) (cause : Nat) :
    (s.forSides fun sd t => (t.bootRecord sd cause).applyRepair sd).lasting b = s.lasting b := by
  have one : ∀ (t : State) sd, t.lasting b = s.lasting b → ((t.bootRecord sd cause).applyRepair sd).lasting b = s.lasting b := by
    intro t sd ht
    rw [State.lasting_applyRepair, State.lasting_bootRecord, ht]
    rw [State.lasting_bootRecord, ht]
    exact h
  have both := one _ .B (one s .A rfl)
  rw [State.forSides]
  exact both

/-- What no store keeps is gone. -/
def State.bootBase (s : State) (arbiter : Bool) : State :=
  { State.reset with
    pending := s.pending, out := s.out, freeCount := s.freeCount, now := s.now, regs := s.moduleRegs arbiter
    white := if s.flag Rg.sideCfg Fd.sideCfgColourNext then SideId.B else SideId.A
    sideA := (s.sideA.ownCopy s.cfgStore).booted s.sideA.stored s.now, sideB := (s.sideB.ownCopy s.cfgStore).booted s.sideB.stored s.now
    oddScopes := s.oddScopes
    principals := s.principals, modActive := s.modActive, modShadow := s.modShadow.kept
    stallActive := s.stallActive, stallShadow := s.stallShadow.map fun (e : Nat × Scope) => (e.1, e.2.kept)
    safeActive := s.safeActive, safeShadow := s.safeShadow, safePw := s.safePw, update := s.update
    leases := s.leases.filter fun (l : Lease) => l.kind == lkUpdate || l.kind == lkPairUpdate
    power := { PowSt.reset with runMap := s.runStates, clockA := s.power.clockA, clockB := s.power.clockB }
    regions := s.regions, freed := s.freed, ledgerFresh := s.ledgerFresh, arb := if arbiter then ArbSt.reset else s.arb }

/-- The boot from what the stores keep. -/
def State.bootFrom (s : State) (cause : Nat) (arbiter : Bool) : State :=
  let s2 := s.stallActive.foldl (fun (t : State) e => t.setStallState e.1 stCreated) s
  let s4 := ((if arbiter then s2.startInsts [] true else s2).setMode .booting).powerFlag Fd.powerStatusAuxOn true
  let s5 := s4.forSides fun sd t => (t.bootRecord sd cause).applyRepair sd
  (s5.bootWindows s5.speaker).bootUpdate

theorem State.bootModule_stages (cause : Nat) (arbiter : Bool) : s.bootModule cause arbiter = (s.bootBase arbiter).bootFrom cause arbiter := rfl

/-- A boot leaves what the stores keep, in the state Booting. -/
theorem State.lasting_bootFrom {s : State} (h : ∀ sd, (s.side sd).role = .out) (cause : Nat) (arbiter : Bool) :
    (s.bootFrom cause arbiter).lasting true = (s.lasting true).inMode .booting := by
  have created : (s.stallActive.foldl (fun (t : State) e => t.setStallState e.1 stCreated) s).lasting true = s.lasting true :=
    foldl_keeps (State.lasting true) (fun _ _ => State.lasting_setStallState true _ _ _) _ s
  have started : (if arbiter then (s.stallActive.foldl (fun (t : State) e => t.setStallState e.1 stCreated) s).startInsts [] true
      else s.stallActive.foldl (fun (t : State) e => t.setStallState e.1 stCreated) s).lasting true = s.lasting true := by
    split
    · rw [State.lasting_startInsts, created]
    · exact created
  simp only [State.bootFrom]
  rw [State.lasting_bootUpdate, State.lasting_bootWindows, State.lasting_bootRepair]
  · rw [State.lasting_powerFlag, State.lasting_setMode, started]
  · rw [State.lasting_powerFlag, State.lasting_setMode, started]
    exact State.still_of_out h true

theorem State.lasting_bootModule (cause : Nat) (arbiter : Bool) : (s.bootModule cause arbiter).lasting true =
    { power := { PowSt.reset with runMap := s.runStates, clockA := s.power.clockA, clockB := s.power.clockB, mode := .booting }
      forces := [], modActive := s.modActive, stallActive := s.stallActive, safeActive := s.safeActive, safePw := s.safePw, unlocks := []
      now := s.now, window := s.update.window, keysA := s.sideA.keys, keysB := s.sideB.keys, seats := some (.out, .out, []) } := by
  have out : ∀ sd, ((s.bootBase arbiter).side sd).role = .out := fun sd => by cases sd <;> rfl
  rw [State.bootModule_stages, State.lasting_bootFrom out]
  rfl

end

end Sys2Proof.Machine
end

section
/-! PROOFS. Power-up, places, the gate, resets and waking (R276, R277, R472 to R481). -/

namespace Sys2Proof.Machine
open Claims

/-! ### Flags of POWER_STATUS (R473) -/

section Flags

variable (s : State)

theorem powerStatus_key_other {a b : SideId} (h : a ≠ b) : (Rg.powerStatus a).key ≠ (Rg.powerStatus b).key := by
  cases a <;> cases b
  · exact absurd rfl h
  · decide
  · decide
  · exact absurd rfl h

theorem powerStatus_unreported (sd : SideId) : reportReg (Rg.powerStatus sd).key = false := by
  cases sd <;> decide

theorem State.flag_powerStatus_other {a b : SideId} (f g : Fld) (v : Bool) (h : a ≠ b) :
    (s.setFlag (Rg.powerStatus b) g v).flag (Rg.powerStatus a) f = s.flag (Rg.powerStatus a) f := by
  rw [State.flag, State.setFlag, State.rd_wr_other _ _ _ _ (powerStatus_key_other h), State.flag]

/-- A flag set on both sides is read back on each. -/
theorem State.flag_powerFlag_same {f : Fld} (v : Bool) (hf : f.hi = f.lo) (hh : f.hi < 64) (sd : SideId) :
    (s.powerFlag f v).flag (Rg.powerStatus sd) f = v := by
  rw [State.powerFlag, State.forSides]
  cases sd with
  | A =>
    rw [State.flag_powerStatus_other _ _ _ _ (by decide)]
    exact s.flag_setFlag_same _ _ _ hf hh
  | B => exact State.flag_setFlag_same _ _ _ _ hf hh

/-- It leaves the other flags. -/
theorem State.flag_powerFlag_apart {f g : Fld} (v : Bool) (hg : g.hi = g.lo) (hf : f.hi = f.lo) (hh : f.hi < 64) (h : f.lo ≠ g.lo)
    (sd : SideId) : (s.powerFlag g v).flag (Rg.powerStatus sd) f = s.flag (Rg.powerStatus sd) f := by
  have apart : f.hi < g.lo ∨ g.hi < f.lo := by omega
  rw [State.powerFlag, State.forSides]
  cases sd with
  | A =>
    rw [State.flag_powerStatus_other _ _ _ _ (by decide)]
    exact s.flag_setFlag_apart _ _ _ _ hg.ge hf.ge hh apart
  | B =>
    refine (State.flag_setFlag_apart _ _ _ _ _ hg.ge hf.ge hh apart).trans ?_
    exact s.flag_powerStatus_other _ _ _ (by decide)

@[simp] theorem State.powerFlag_side (f : Fld) (v : Bool) (sd : SideId) : (s.powerFlag f v).side sd = s.side sd := by
  cases sd <;> rfl

@[simp] theorem State.powerFlag_power (f : Fld) (v : Bool) : (s.powerFlag f v).power = s.power := rfl

end Flags

/-! ### What a boot of the module leaves (R477, R481) -/

section Boots

variable (s : State) (cause : Nat) (arb : Bool)

theorem State.bootModule_power : (s.bootModule cause arb).power =
    { PowSt.reset with runMap := s.runStates, clockA := s.power.clockA, clockB := s.power.clockB, mode := .booting } :=
  State.power_of_lasting (s.lasting_bootModule cause arb)

theorem State.bootModule_seats : (∀ sd, ((s.bootModule cause arb).side sd).role = .out) ∧ (s.bootModule cause arb).waiting = [] :=
  State.out_of_lasting (s.lasting_bootModule cause arb) rfl

theorem State.bootModule_keys (sd : SideId) : ((s.bootModule cause arb).side sd).keys = (s.side sd).keys := by
  have keysA := State.keysA_of_lasting (s.lasting_bootModule cause arb)
  have keysB := State.keysB_of_lasting (s.lasting_bootModule cause arb)
  generalize s.bootModule cause arb = t at keysA keysB
  cases sd
  · exact keysA
  · exact keysB

end Boots

/-! ### Power is good (R472, R479) -/

section PowerGood

variable (s : State)

/-- The state that power finds, with the times the sides start from. -/
def State.atClocks (a b : Nat) : State :=
  { s.modPower fun p => { p with clockA := a, clockB := b } with
    now := tickOfNs (if (if s.flag Rg.sideCfg Fd.sideCfgColourNext then SideId.B else SideId.A) = .A then a else b) }

/-- The sides' clocks apart, the real-time clocks and the hold-up capacitor as they are found. -/
def State.foundPower (ok : Bool) (lostA lostB : Bool) (white : SideId) (behind : Int) : State :=
  let s1 := (s.modDuty white.other fun d => { d with t0Off := behind }).modDuty white fun d => { d with t0Off := 0 }
  let s2 := (s1.setFlag (Rg.powerStatus .A) Fd.powerStatusRtcLost lostA).setFlag (Rg.powerStatus .B) Fd.powerStatusRtcLost lostB
  let s3 := (s2.powerFlag Fd.powerStatusHoldupOk ok).powerFlag Fd.powerStatusHoldupLow (!ok)
  if ok then s3 else s3.forSides fun sd t => t.sideReport sd evHoldupLow (zeros 16)

theorem exec_powerGood {ok : Bool} {a b : Option (BitVec 48 × Word)} (h : s.power.mode = .off ∨ s.power.mode = .booting) :
    ∃ white behind, exec (.powerGood ok a b) s = .next
      (((s.atClocks (rtcTime a s.power.clockA) (rtcTime b s.power.clockB)).bootModule 0 true).foundPower ok a.isNone b.isNone white behind) :=
  ⟨_, _, if_pos h⟩

@[simp] theorem State.lasting_foundPower (ok lostA lostB : Bool) (white : SideId) (behind : Int) :
    (s.foundPower ok lostA lostB white behind).lasting true = s.lasting true := by
  simp only [State.foundPower]
  split
  · rw [State.lasting_powerFlag, State.lasting_powerFlag, State.lasting_setFlag, State.lasting_setFlag, State.lasting_modDuty,
      State.lasting_modDuty]
  · rw [State.lasting_forSides true _ fun sd t => t.lasting_sideReport true sd _ _, State.lasting_powerFlag, State.lasting_powerFlag,
      State.lasting_setFlag, State.lasting_setFlag, State.lasting_modDuty, State.lasting_modDuty]

theorem State.foundPower_holdup (ok lostA lostB : Bool) (white : SideId) (behind : Int) (sd : SideId) :
    (s.foundPower ok lostA lostB white behind).flag (Rg.powerStatus sd) Fd.powerStatusHoldupOk = ok ∧
      (s.foundPower ok lostA lostB white behind).flag (Rg.powerStatus sd) Fd.powerStatusHoldupLow = !ok := by
  have shown : ∀ t : State, ((t.powerFlag Fd.powerStatusHoldupOk ok).powerFlag Fd.powerStatusHoldupLow (!ok)).flag (Rg.powerStatus sd)
        Fd.powerStatusHoldupOk = ok ∧
      ((t.powerFlag Fd.powerStatusHoldupOk ok).powerFlag Fd.powerStatusHoldupLow (!ok)).flag (Rg.powerStatus sd) Fd.powerStatusHoldupLow = !ok := by
    intro t
    refine ⟨?_, State.flag_powerFlag_same _ _ (by decide) (by decide) sd⟩
    rw [State.flag_powerFlag_apart _ _ (by decide) (by decide) (by decide) (by decide)]
    exact t.flag_powerFlag_same _ (by decide) (by decide) sd
  have reported : ∀ (t : State) (f : Fld), (t.forSides fun sd t => t.sideReport sd evHoldupLow (zeros 16)).flag (Rg.powerStatus sd) f =
      t.flag (Rg.powerStatus sd) f := fun t f =>
    State.forSides_keeps (fun u : State => u.flag (Rg.powerStatus sd) f)
      (fun sd' u => State.flag_rest (State.unreported_sideReport u sd' _ _) f (powerStatus_unreported sd)) t
  simp only [State.foundPower]
  split
  · exact shown _
  · rw [reported, reported]
    exact shown _

end PowerGood

/-! ### The loader hands over (R430, R433, R442, R443) -/

section Loader

variable {s : State} {sd : SideId}

theorem exec_loaderVerify_good (h : s.loadable sd = true) (r : LoaderReport) : exec (.loaderVerify sd true r) s =
    .next ((s.wr (Rg.startTimes sd) Fd.startTimesLoaderMs r.ms.toNat).handOver sd r.rootOk r.pufOk r.trusted) := by
  change execLoaderVerify sd true r s = _
  simp only [execLoaderVerify, h, Bool.and_self, if_true]

theorem exec_loaderVerify_bad {ok : Bool} (h : ok = false ∨ s.loadable sd = false) (r : LoaderReport) : exec (.loaderVerify sd ok r) s =
    .next (if s.canDonate sd then s.wr (Rg.startTimes sd) Fd.startTimesLoaderMs r.ms.toNat
      else (s.wr (Rg.startTimes sd) Fd.startTimesLoaderMs r.ms.toNat).setNor sd norBad) := by
  have bad : (ok && s.loadable sd) = false := by
    rcases h with h | h <;> simp [h]
  change execLoaderVerify sd ok r s = _
  simp only [execLoaderVerify, bad, Bool.false_eq_true, if_false]

/-- The root of the PUF changes no role and no native root. -/
theorem State.pufRoot_side (good : Bool) : ((s.pufRoot sd good).side sd).role = (s.side sd).role ∧
    ((s.pufRoot sd good).side sd).roots.native = (s.side sd).roots.native := by
  simp only [State.pufRoot, State.wr_side, State.modSide_same]
  split
  · exact ⟨rfl, rfl⟩
  · rw [State.freeBytes_side]
    exact ⟨rfl, rfl⟩

theorem State.freeBytes_regs (n : Nat) : (State.freeBytes n s).2.regs = s.regs := by
  induction n with
  | zero => rfl
  | succ n ih => exact ih

theorem State.pufRoot_root (good : Bool) : (s.pufRoot sd good).rd (Rg.keyStatus sd) Fd.keyStatusRoot = s.rd (Rg.keyStatus sd) Fd.keyStatusRoot := by
  simp only [State.pufRoot]
  rw [State.rd_wr_apart _ _ _ _ _ (by decide) (by decide) (by decide) (by decide), State.rd_congr (State.modSide_regs _ _ _)]
  split
  · rfl
  · exact State.rd_congr (State.freeBytes_regs 8) _ _

theorem State.sideFault_out (part : Nat) : ((s.sideFault sd part).side sd).role = .out := by
  rw [State.sideFault]
  by_cases h : (((s.logFault sd part 0).unitFailed sd (partUnit part)).side sd).role = .out
  · rw [State.demote_out sd h]
    exact h
  · exact (State.demote_shows _ sd rcSelf h).1

/-- Without a native root the side is unfit and Out. -/
theorem State.handOver_rootless (h : (s.side sd).roots.native = none) (puf link : Bool) :
    ((s.handOver sd false puf link).side sd).health.unfit = true ∧ ((s.handOver sd false puf link).side sd).role = .out := by
  have native : s.nativeRoot sd false = s.wr (Rg.keyStatus sd) Fd.keyStatusRoot 2 := by simp only [State.nativeRoot, h]
  have rootless : (((s.nativeRoot sd false).pufRoot sd puf).side sd).roots.native.isNone = true := by
    rw [(State.pufRoot_side puf).2, native, State.wr_side, h]
    rfl
  simp only [State.handOver, rootless, if_true, State.modHealth, State.modSide_same, true_and]
  exact State.sideFault_out _

/-- With one the role stands, and KEY_STATUS shows the root. -/
theorem State.handOver_rooted (h : (s.side sd).roots.native ≠ none) (root puf link : Bool) :
    ((s.handOver sd root puf link).side sd).role = (s.side sd).role ∧
      (s.handOver sd root puf link).rd (Rg.keyStatus sd) Fd.keyStatusRoot = 1 := by
  obtain ⟨k, hk⟩ := Option.ne_none_iff_exists'.1 h
  have native : s.nativeRoot sd root = s.wr (Rg.keyStatus sd) Fd.keyStatusRoot 1 := by simp only [State.nativeRoot, hk]
  have rooted : (((s.nativeRoot sd root).pufRoot sd puf).side sd).roots.native.isNone = false := by
    rw [(State.pufRoot_side puf).2, native, State.wr_side, hk]
    rfl
  have role : (((s.nativeRoot sd root).pufRoot sd puf).side sd).role = (s.side sd).role := by
    rw [(State.pufRoot_side puf).1, native, State.wr_side]
  have shown : ((s.nativeRoot sd root).pufRoot sd puf).rd (Rg.keyStatus sd) Fd.keyStatusRoot = 1 := by
    rw [State.pufRoot_root, native]
    exact s.rd_wr_same (Rg.keyStatus sd) Fd.keyStatusRoot 1 (by decide) (by decide)
  have trained : ∀ t : State, ((t.trainLink link).side sd).role = (t.side sd).role ∧ (t.trainLink link).regs = t.regs := fun t =>
    ⟨by cases sd <;> rfl, rfl⟩
  simp only [State.handOver, rooted, Bool.false_eq_true, if_false]
  split
  · obtain ⟨same, regs⟩ := trained ((s.nativeRoot sd root).pufRoot sd puf)
    exact ⟨same.trans role, (State.rd_congr regs _ _).trans shown⟩
  · exact ⟨role, shown⟩

end Loader

/-! ### Places (R476) -/

section Places

variable (s : State) (sd : SideId)

theorem State.lasting_pairStart (b : Bool) : s.pairStart.lasting b = s.lasting b := by
  have paired : ∀ (t : State) n, (t.setPairRole n).lasting b = t.lasting b := fun _ _ => rfl
  have leased : ∀ (t : State) k n o, (t.takeLease k n o).lasting b = t.lasting b := fun _ _ _ _ => rfl
  have joined : ∀ (t : State) f, (t.modJoin f).lasting b = t.lasting b := fun _ _ => rfl
  have pair : ∀ t : State, t.pairJoin.lasting b = t.lasting b := by
    intro t
    simp only [State.pairJoin]
    split
    · exact paired t 3
    · split
      · rw [joined, paired]
        split
        · rfl
        · exact leased t _ _ _
      · split
        · rw [State.lasting_lastCause, joined, paired]
        · rw [State.moduleReport, State.lasting_ledger, State.lasting_lastCause, joined, paired]
  simp only [State.pairStart]
  split
  · exact paired s _
  · split
    · exact paired s _
    · split
      · exact paired s _
      · split
        · rw [pair, paired]
        · exact paired s _

/-- A side that joins by itself changes no other side's role and none of what lasts. -/
theorem State.autoJoin_keeps : (s.autoJoin sd).lasting false = s.lasting false ∧
    ∀ sd', sd' ≠ sd → ((s.autoJoin sd).side sd').role = (s.side sd').role := by
  have started : ∀ t : State, (t.startJoin sd).lasting false = t.lasting false ∧
      ∀ sd', sd' ≠ sd → ((t.startJoin sd).side sd').role = (t.side sd').role := by
    intro t
    constructor
    · rw [State.startJoin, State.lasting_wr, State.setPhase, State.lasting_wr, State.lasting_modDuty, State.unseated_putRole _ _ (by decide)]
    · intro sd' h
      rw [State.startJoin, State.wr_side, State.setPhase, State.wr_side, State.modDuty, State.role_modSide, State.putRole_role_other _ _ _ h]
      exact fun _ => rfl
  have resync : ∀ (t : State) f, (t.modResync sd f).lasting false = t.lasting false ∧
      ∀ sd', sd' ≠ sd → ((t.modResync sd f).side sd').role = (t.side sd').role := fun t f =>
    ⟨State.lasting_modResync false t sd f, fun sd' h => congrArg Side.role (State.modSide_other t _ h)⟩
  have caused : ∀ (t : State) c sd', ((t.lastCause c).side sd').role = (t.side sd').role := fun t c sd' => by cases sd' <;> rfl
  have leased : ∀ (t : State) k n o sd', ((t.takeLease k n o).side sd').role = (t.side sd').role := fun t k n o sd' => by cases sd' <;> rfl
  simp only [State.autoJoin]
  split
  · exact ⟨rfl, fun _ _ => rfl⟩
  · split
    · obtain ⟨lasting, role⟩ := resync (s.lastCause rcTimeGuard) fun r => { r with guarded := guardFrom r.guarded s.now, waits := false }
      exact ⟨lasting.trans (s.lasting_lastCause false _), fun sd' h => (show _ = _ by cases sd' <;> rfl).trans ((role sd' h).trans (caused s _ sd'))⟩
    · split
      · exact started s
      · split
        · exact resync s _
        · obtain ⟨lasting, role⟩ := started (s.takeLease lkRestart sd.code 0)
          exact ⟨lasting, fun sd' h => (role sd' h).trans (leased s _ _ _ sd')⟩

theorem State.startupJoin_keeps : (s.startupJoin sd).lasting false = s.lasting false ∧
    ∀ sd', sd' ≠ sd → ((s.startupJoin sd).side sd').role = (s.side sd').role := by
  simp only [State.startupJoin]
  split
  · exact ⟨rfl, fun _ _ => rfl⟩
  · obtain ⟨lasting, role⟩ := (s.modResync sd fun r => { r with waits := true }).autoJoin_keeps sd
    refine ⟨lasting.trans (State.lasting_modResync false s sd _), fun sd' h => (role sd' h).trans ?_⟩
    exact congrArg Side.role (State.modSide_other s _ h)

/-- The side that enters service is Active. -/
theorem State.enterService_shows : ((s.enterService sd).side sd).role = .active ∧ (s.enterService sd).power.mode = .service := by
  have other : sd ≠ sd.other := by cases sd <;> decide
  have moded : ∀ (t : State) m, ((t.setMode m).side sd).role = (t.side sd).role := fun t m => by cases sd <;> rfl
  have paired : ∀ t : State, (t.pairStart.side sd).role = (t.side sd).role := fun t =>
    State.roles_of_lasting (t.lasting_pairStart true) sd
  constructor
  · simp only [State.enterService]
    rw [paired, moded, State.modSide_other _ _ other, State.role_modSide, State.putRole_role]
    exact fun _ => rfl
  · simp only [State.enterService]
    exact congrArg PowSt.mode (State.power_of_lasting (State.lasting_pairStart _ false))

variable {s} {sd}

theorem State.takePlace_late (tested : (s.duty sd).tested = true) (out : (s.side sd).role = .out) (h : (s.side sd.other).role ≠ .active) :
    s.takePlace sd true = (s.enterService sd).startupJoin sd.other := by
  simp only [State.takePlace, tested, out, h, Bool.not_true, bne_self_eq_false, Bool.or_false, Bool.false_eq_true, if_false, Bool.or_true,
    Bool.true_or, if_true]

/-- A side that takes its place late is Active, and the module is in service. -/
theorem State.takePlace_serves (tested : (s.duty sd).tested = true) (out : (s.side sd).role = .out) (h : (s.side sd.other).role ≠ .active) :
    ((s.takePlace sd true).side sd).role = .active ∧ (s.takePlace sd true).power.mode = .service := by
  have other : sd ≠ sd.other := by cases sd <;> decide
  obtain ⟨role, mode⟩ := s.enterService_shows sd
  obtain ⟨lasting, kept⟩ := (s.enterService sd).startupJoin_keeps sd.other
  rw [State.takePlace_late tested out h]
  exact ⟨(kept sd other).trans role, (congrArg PowSt.mode (State.power_of_lasting lasting)).trans mode⟩

end Places

/-! ### The gate (R478) -/

section Gate

variable {s : State}

theorem State.modPower_regs (s : State) (f : PowSt → PowSt) : (s.modPower f).regs = s.regs := rfl

theorem State.openGate_flag (s : State) (m : Bool) (ms : Nat) (sd : SideId) :
    (s.openGate m ms).flag (Rg.powerStatus sd) Fd.powerStatusGateOpen = true := by
  have timed : ∀ (t : State) n, (t.forSides fun a u => u.putReg (Rg.gateTime a) n).flag (Rg.powerStatus sd) Fd.powerStatusGateOpen =
      t.flag (Rg.powerStatus sd) Fd.powerStatusGateOpen := fun t n =>
    State.forSides_keeps (fun u : State => u.flag (Rg.powerStatus sd) Fd.powerStatusGateOpen)
      (fun a u => u.flag_putReg_other n _ (by cases a <;> cases sd <;> decide)) t
  rw [State.openGate, State.flag_congr (State.modPower_regs _ _), timed,
    State.flag_powerFlag_apart _ _ (by decide) (by decide) (by decide) (by decide)]
  exact s.flag_powerFlag_same _ (by decide) (by decide) sd

theorem State.openGate_open (m : Bool) (ms : Nat) : (s.openGate m ms).gateOpen = true := s.openGate_flag m ms _

theorem exec_gateWait_waits (closed : s.gateOpen = false) (fresh : s.power.gateWaited = false)
    (h : s.power.mode = .service ∨ s.power.mode = .booting) : exec .gateWait s = .next
      ((s.sideReport s.speaker evGateWait (zeros 16)).modPower fun p => { p with gateWaited := true }) := by
  have powered : (s.power.mode != .service && s.power.mode != .booting) = false := by
    rcases h with h | h <;> rw [h] <;> decide
  change execGateWait s = _
  simp only [execGateWait, closed, fresh, powered, Bool.or_self, Bool.false_eq_true, if_false]

end Gate

/-! ### Resets and waking (R276, R277, R481) -/

section Resets

variable {s : State}

theorem exec_resetReq_service (mode : s.power.mode = .service) (h : s.power.stopAt = none) : exec .resetReq s = .next
    { s with power := { s.power with stopAt := some (s.now + 1), after := .boot 1 } } := by
  change execResetReq s = _
  simp only [execResetReq, mode, State.chooseStop, h, State.modPower]

theorem exec_resetReq_parked (mode : s.power.mode = .parked) : exec .resetReq s = .next (s.bootModule 8 true) := by
  change execResetReq s = _
  simp only [execResetReq, mode]

theorem exec_resetReqLong_powered (mode : s.power.mode ≠ .off) : exec .resetReqLong s = .next (s.loseQueues.bootModule 2 true) :=
  congrArg Host.Outcome.next (if_neg mode)

theorem exec_wakePattern (sd : SideId) (id : BitVec 48) (code : Word) :
    exec (.wakePattern sd id code) s = .next (s.wakePattern sd id.toNat code.toNat) := rfl

section Patterns

variable {sd : SideId} {id code : Nat} (parked : s.power.mode = .parked) (hears : s.deaf sd = false)
include parked hears

theorem State.wakePattern_wakes (right : s.regWord (Rg.wakeCode sd) = code) (set : code ≠ 0) (mine : s.regWord (Rg.wakeId sd) = id) :
    s.wakePattern sd id code = (s.setFlag (Rg.wakeStatus sd) Fd.wakeStatusWokeHere true).bootModule 8 true := by
  simp only [State.wakePattern, parked, hears, right, set, mine, ne_eq, not_true_eq_false, Bool.false_eq_true, or_self, if_false, if_true]

theorem State.wakePattern_counts (wrong : s.regWord (Rg.wakeCode sd) ≠ code) (set : s.regWord (Rg.wakeCode sd) ≠ 0)
    (mine : s.regWord (Rg.wakeId sd) = id) : s.wakePattern sd id code = s.tick1 (Rg.wakeStatus sd) Fd.wakeStatusBadCodes := by
  simp only [State.wakePattern, parked, hears, wrong.symm, set, mine, ne_eq, not_true_eq_false, Bool.false_eq_true, or_self, if_false]

end Patterns

end Resets

/-! ### The self-test (R475) -/

section SelfTest

variable {s : State} {sd : SideId}

theorem exec_selftestComplete_good (fit : (s.side sd).health.unfit = false) (h : s.onForward sd = false ∨ s.slotsSound sd = true)
    (ms : BitVec 16) : exec (.selftestComplete sd true ms []) s = .next
      (((((s.wr (Rg.startTimes sd) Fd.startTimesSelftestMs ms.toNat).migrateAll sd).modDuty sd fun d => { d with tested := true }).loadCache
        sd).takePlace sd (decide (3000 ≤ ms.toNat))) := by
  have sound : (!s.onForward sd || s.slotsSound sd) = true := by
    rcases h with h | h <;> simp [h]
  change execSelftestComplete sd true ms [] s = _
  simp only [execSelftestComplete, List.foldl_nil, fit, sound, Bool.not_false, Bool.and_self, if_true]

theorem exec_selftestComplete_bad (ms : BitVec 16) : exec (.selftestComplete sd false ms []) s = .next
    (((s.wr (Rg.startTimes sd) Fd.startTimesSelftestMs ms.toNat).migrateAll sd).modDuty sd fun d => { d with tested := false }) := by
  change execSelftestComplete sd false ms [] s = _
  simp only [execSelftestComplete, List.foldl_nil, Bool.false_and, Bool.false_eq_true, if_false]

end SelfTest

/-- Settles O45: each row of power-up does what its rule says; what lasts through a boot carries the first row. -/
theorem powerUp : Obligations.PowerUp := by
  unfold Obligations.PowerUp
  intro s
  refine ⟨?good, fun sd r h => exec_loaderVerify_good h r, fun sd puf link h => State.handOver_rootless h puf link,
    fun sd root puf link h => State.handOver_rooted h root puf link, ?donor, ?noDonor,
    fun sd ms fit h => exec_selftestComplete_good fit h ms, fun sd ms => exec_selftestComplete_bad ms, ?late,
    fun sd tested out h => State.takePlace_serves tested out h, ?opens, fun m ms => State.openGate_open m ms,
    fun closed fresh h => exec_gateWait_waits closed fresh h, fun mode h => exec_resetReq_service mode h, ?parked,
    exec_resetReqLong_powered, ?wakes, ?counts, ?lockout, rfl, rfl, ?aux⟩
  case good =>
    intro ok a b h
    obtain ⟨white, behind, update⟩ := exec_powerGood s (ok := ok) (a := a) (b := b) h
    have lasting := State.lasting_foundPower ((s.atClocks (rtcTime a s.power.clockA) (rtcTime b s.power.clockB)).bootModule 0 true) ok
      a.isNone b.isNone white behind
    rw [State.lasting_bootModule] at lasting
    obtain ⟨out, waiting⟩ := State.out_of_lasting lasting rfl
    have power := State.power_of_lasting lasting
    exact ⟨_, update, congrArg PowSt.mode power, out .A, out .B, State.forces_of_lasting lasting, waiting,
      State.modActive_of_lasting lasting, State.safeActive_of_lasting lasting, State.stallActive_of_lasting lasting,
      congrArg PowSt.clockA power, congrArg PowSt.clockB power, fun sd => State.foundPower_holdup _ ok _ _ _ _ sd⟩
  case donor =>
    intro sd ok r h donor
    rw [exec_loaderVerify_bad h, if_pos donor]
  case noDonor =>
    intro sd ok r h donor
    rw [exec_loaderVerify_bad h, if_neg (Bool.eq_false_iff.1 donor)]
    rfl
  case late =>
    intro h
    change execStartRoleTimeout s = _
    simp only [execStartRoleTimeout, h, Option.isSome_none, Bool.false_eq_true, if_false]
  case opens =>
    intro ms m closed reason
    change execServiceGateOpen ms s = _
    simp only [execServiceGateOpen, closed, reason, Bool.false_eq_true, if_false]
  case parked => exact fun mode => ⟨exec_resetReq_parked mode, congrArg Host.Outcome.next (if_pos mode)⟩
  case wakes =>
    intro sd id code parked hears right set mine
    rw [exec_wakePattern, State.wakePattern_wakes parked hears right set mine]
  case counts =>
    intro sd id code parked hears wrong set mine
    rw [exec_wakePattern, State.wakePattern_counts parked hears wrong set mine]
  case lockout => exact fun parked h => congrArg Host.Outcome.next (if_pos ⟨parked, h⟩)
  case aux => exact fun mode => congrArg Host.Outcome.next (if_neg mode)

end Sys2Proof.Machine
end

section
/-! PROOFS. Warning, dip, the orderly stop, the return of the input and the loss of power (R474, R482 to R486, R490, R491, R495). -/

namespace Sys2Proof.Machine
open Claims

/-! ### A warning (R482) -/

section Warnings

variable {s : State}

theorem State.chooseStop_first {t : Nat} {after : StopEnd} (h : s.power.stopAt = none) :
    s.chooseStop t after = s.modPower fun p => { p with stopAt := some t, after := after } := by
  simp only [State.chooseStop, h]

/-- A warning in service chooses the stop tick. -/
theorem exec_pfWarnAssert_chooses {ns : Nat} (mode : s.power.mode = .service) (active : s.active ≠ none) (free : s.power.stopAt = none)
    (holds : s.flag (Rg.powerStatus s.speaker) Fd.powerStatusHoldupOk = true) (ahead : s.now < firstTickFrom (ns + 10000000)) :
    exec (.pfWarnAssert ns) s = .next ((s.powerFlag Fd.powerStatusPfWarn true).modPower fun p =>
      { p with stopAt := some (firstTickFrom (ns + 10000000)), after := .off }) := by
  have serving : s.active.isSome = true := Option.isSome_iff_ne_none.2 active
  have tick : max (firstTickFrom (ns + 10000000)) (s.now + 1) = firstTickFrom (ns + 10000000) := by omega
  have chosen : (s.powerFlag Fd.powerStatusPfWarn true).chooseStop (firstTickFrom (ns + 10000000)) .off =
      (s.powerFlag Fd.powerStatusPfWarn true).modPower fun p => { p with stopAt := some (firstTickFrom (ns + 10000000)), after := .off } :=
    State.chooseStop_first ((congrArg PowSt.stopAt (s.powerFlag_power _ _)).trans free)
  change execPfWarnAssert ns s = _
  simp only [execPfWarnAssert, mode, serving, holds, if_true, tick, chosen, decide_true, Bool.and_self]

end Warnings

/-! ### A dip (R482) -/

section Dips

variable (s : State)

/-- A dip counts on a side, and its record is made. -/
def State.countDip (tick : Nat) (sd : SideId) : State :=
  (s.tick1 (Rg.powerEvents sd) Fd.powerEventsDips).sideReport sd evPowerDip (beBytes 8 tick ++ zeros 8)

theorem powerEvents_unreported (sd : SideId) : reportReg (Rg.powerEvents sd).key = false := by
  cases sd <;> decide

theorem powerEvents_key_other {a b : SideId} (h : a ≠ b) : (Rg.powerEvents a).key ≠ (Rg.powerEvents b).key := by
  cases a <;> cases b
  · exact absurd rfl h
  · decide
  · decide
  · exact absurd rfl h

theorem powerEvents_key_ne_powerStatus (a b : SideId) : (Rg.powerEvents a).key ≠ (Rg.powerStatus b).key := by
  cases a <;> cases b <;> decide

/-- DIPS is a counter of 16 bits. -/
theorem State.countDip_dips (tick : Nat) (sd : SideId) : (s.countDip tick sd).rd (Rg.powerEvents sd) Fd.powerEventsDips =
    min 65535 (s.rd (Rg.powerEvents sd) Fd.powerEventsDips + 1) := by
  have wide : 2 ^ (Fd.powerEventsDips.hi - Fd.powerEventsDips.lo + 1) = 65536 := by decide
  rw [State.countDip, State.rd_rest (State.unreported_sideReport _ sd _ _) _ (powerEvents_unreported sd), State.tick1, State.count,
    State.rd_wr_same _ _ _ _ (by decide) (by decide), wide]
  omega

theorem State.countDip_dips_other (tick : Nat) {a b : SideId} (h : a ≠ b) : (s.countDip tick b).rd (Rg.powerEvents a) Fd.powerEventsDips =
    s.rd (Rg.powerEvents a) Fd.powerEventsDips := by
  rw [State.countDip, State.rd_rest (State.unreported_sideReport _ b _ _) _ (powerEvents_unreported a),
    State.rd_tick1_other _ _ _ (powerEvents_key_other h)]

theorem State.countDip_flag (tick : Nat) (a b : SideId) (f : Fld) :
    (s.countDip tick b).flag (Rg.powerStatus a) f = s.flag (Rg.powerStatus a) f := by
  rw [State.countDip, State.flag_rest (State.unreported_sideReport _ b _ _) _ (powerStatus_unreported a), State.flag,
    State.rd_tick1_other _ _ _ (powerEvents_key_ne_powerStatus b a).symm, State.flag]

theorem State.lasting_countDip (b : Bool) (tick : Nat) (sd : SideId) : (s.countDip tick sd).lasting b = s.lasting b := by
  rw [State.countDip, State.lasting_sideReport, State.lasting_tick1]

/-- Each side counts the dip once. -/
theorem State.countDips_dips (tick : Nat) (sd : SideId) : (s.forSides fun sd t => t.countDip tick sd).rd (Rg.powerEvents sd) Fd.powerEventsDips =
    min 65535 (s.rd (Rg.powerEvents sd) Fd.powerEventsDips + 1) := by
  rw [State.forSides]
  cases sd with
  | A => rw [State.countDip_dips_other _ _ (by decide), State.countDip_dips]
  | B => rw [State.countDip_dips, State.countDip_dips_other _ _ (by decide)]

theorem State.countDips_flag (tick : Nat) (sd : SideId) (f : Fld) :
    (s.forSides fun sd t => t.countDip tick sd).flag (Rg.powerStatus sd) f = s.flag (Rg.powerStatus sd) f :=
  State.forSides_keeps (fun t : State => t.flag (Rg.powerStatus sd) f) (fun a t => t.countDip_flag tick sd a f) s

theorem State.rd_powerFlag (f g : Fld) (v : Bool) (sd : SideId) :
    (s.powerFlag g v).rd (Rg.powerEvents sd) f = s.rd (Rg.powerEvents sd) f :=
  State.forSides_keeps (fun t : State => t.rd (Rg.powerEvents sd) f)
    (fun a t => t.rd_wr_other _ _ _ (powerEvents_key_ne_powerStatus sd a)) s

variable {s}

theorem exec_powerDip_service (mode : s.power.mode = .service) (warned : s.flag (Rg.powerStatus s.speaker) Fd.powerStatusPfWarn = true)
    (after : s.power.after = .off) : exec .powerDip s = .next
      (((s.powerFlag Fd.powerStatusPfWarn false).modPower fun p => { p with stopAt := none }).forSides fun sd t => t.countDip s.now sd) := by
  have serving : ¬PowerMode.service = PowerMode.booting := by decide
  change execPowerDip s = _
  simp only [execPowerDip, mode, serving, warned, after, if_false, if_true, decide_true, Bool.and_self]
  rfl

/-- What a dip in service leaves. -/
theorem State.dipped_shows (tick : Nat) :
    let t := ((s.powerFlag Fd.powerStatusPfWarn false).modPower fun p => { p with stopAt := none }).forSides fun sd t => t.countDip tick sd
    t.power.stopAt = none ∧ ∀ sd, t.flag (Rg.powerStatus sd) Fd.powerStatusPfWarn = false ∧
      t.rd (Rg.powerEvents sd) Fd.powerEventsDips = min 65535 (s.rd (Rg.powerEvents sd) Fd.powerEventsDips + 1) := by
  refine ⟨?_, fun sd => ⟨?_, ?_⟩⟩
  · exact congrArg PowSt.stopAt (State.power_of_lasting (State.lasting_forSides false _ fun sd t => t.lasting_countDip false tick sd))
  · rw [State.countDips_flag, State.flag_congr (State.modPower_regs _ _)]
    exact s.flag_powerFlag_same _ (by decide) (by decide) sd
  · rw [State.countDips_dips, State.rd_congr (State.modPower_regs _ _), State.rd_powerFlag]

end Dips

/-! ### The stop tick (R483) -/

section Halt

variable {s : State}

/-- A command listed after the stop tick is refused with STATE. -/
def State.haltRefuses (s : State) (tick : Nat) (w : WaitCmd) : State :=
  (s.ledger ⟨0, w.hdr.stall.toNat, 0, lcRefusedAtBell, w.hdr.origin.toNat,
    recBody (changeBody w.op Status.state.code w.hdr.seq.toNat w.params), true, false⟩).noteOutcome w.hdr .state tick

theorem State.lasting_haltRefuses (s : State) (tick : Nat) (w : WaitCmd) : (s.haltRefuses tick w).lasting true = s.lasting true := rfl

theorem State.powerHaltAt_stages (tick : Nat) : s.powerHaltAt tick =
    ((s.waiting.filter fun w => decide (w.tick ≤ tick)).foldl (fun (t : State) w => t.haltRefuses tick w)
      { s with waiting := s.waiting.filter fun w => decide (tick < w.tick) }).enterStop s.power.after := rfl

theorem State.enterStop_shows {t : State} (h : t.lasting true = s.lasting true) (after : StopEnd) :
    (t.enterStop after).power.mode = .stopping ∧ (t.enterStop after).power.stopAt = none ∧ (t.enterStop after).waiting = s.waiting ∧
      (t.enterStop after).power.after = after := by
  have stopped := State.lasting_enterStop true t after
  rw [h] at stopped
  have power := State.power_of_lasting stopped
  obtain ⟨-, -, waiting⟩ := State.seats_of_lasting stopped rfl
  exact ⟨congrArg PowSt.mode power, congrArg PowSt.stopAt power, waiting, congrArg PowSt.after power⟩

/-- At the stop tick the module stops; the commands of later ticks still wait. -/
theorem State.powerHaltAt_shows (tick : Nat) : (s.powerHaltAt tick).power.mode = .stopping ∧ (s.powerHaltAt tick).power.stopAt = none ∧
    (s.powerHaltAt tick).waiting = s.waiting.filter (fun c => decide (tick < c.tick)) ∧ (s.powerHaltAt tick).power.after = s.power.after := by
  rw [State.powerHaltAt_stages]
  have refused : ∀ (l : List WaitCmd) (t : State), (l.foldl (fun (t : State) w => t.haltRefuses tick w) t).lasting true = t.lasting true :=
    fun l t => foldl_keeps (State.lasting true) (fun t w => t.lasting_haltRefuses tick w) l t
  have kept := State.enterStop_shows (refused (s.waiting.filter fun w => decide (w.tick ≤ tick))
    { s with waiting := s.waiting.filter fun w => decide (tick < w.tick) }) s.power.after
  exact kept

end Halt

/-! ### The end of the stop (R229, R276, R484) -/

/-- What a side without power has nothing of: its role, its cached and stored keys, its staging queue. -/
structure Embers where
  role : Role
  cache : Tbl (Bytes × Bytes)
  till : Bytes
  queued : Nat

def Side.embers (x : Side) : Embers := ⟨x.role, x.cache, x.till, x.sideQueue⟩

/-- The staging queue of the module, what each side holds, and whether the Arbiter lacks an image. -/
def State.embers (s : State) : List Nat × Embers × Embers × Bool := (s.ledgerQueue, s.sideA.embers, s.sideB.embers, s.arb.noImage)

section Embers

variable (s : State) (sd : SideId)

@[simp] theorem State.embers_putReg (r : Reg) (v : Nat) : (s.putReg r v).embers = s.embers := rfl
@[simp] theorem State.embers_wr (r : Reg) (f : Fld) (v : Nat) : (s.wr r f v).embers = s.embers := rfl
@[simp] theorem State.embers_setFlag (r : Reg) (f : Fld) (v : Bool) : (s.setFlag r f v).embers = s.embers := rfl
@[simp] theorem State.embers_powerFlag (f : Fld) (v : Bool) : (s.powerFlag f v).embers = s.embers := rfl
@[simp] theorem State.embers_modPower (f : PowSt → PowSt) : (s.modPower f).embers = s.embers := rfl
@[simp] theorem State.embers_setMode (m : PowerMode) : (s.setMode m).embers = s.embers := rfl

theorem State.embers_modSide {f : Side → Side} (h : ∀ x, (f x).embers = x.embers) : (s.modSide sd f).embers = s.embers := by
  cases sd <;> simp [State.embers, State.modSide, h]

@[simp] theorem State.embers_ringClear (r : Nat) : (s.ringClear sd r).embers = s.embers := by
  rw [State.ringClear, State.putRing, State.embers_modSide, State.embers_putReg, State.embers_setFlag, State.embers_wr, State.embers_setFlag,
    State.embers_setFlag]
  exact fun _ => rfl

@[simp] theorem State.embers_endpointOff : (s.endpointOff sd).embers = s.embers := by
  have cleared : ∀ (l : List Nat) (t : State), (l.foldl (fun (t : State) r => t.ringClear sd r) t).embers = t.embers := fun l t =>
    foldl_keeps State.embers (fun t r => t.embers_ringClear sd r) l t
  simp only [State.endpointOff]
  rw [State.embers_setFlag, State.embers_wr, State.embers_wr, State.embers_setFlag, cleared]

@[simp] theorem State.embers_switchOff : (s.switchOff sd).embers = s.embers := by
  rw [State.switchOff, State.embers_wr]
  exact foldl_keeps State.embers (fun t p => t.embers_setFlag (Rg.portStatus sd p) Fd.portStatusLink false) _ s

theorem State.embers_driveCh (n : Nat) : (s.driveCh n).embers = s.embers := by
  simp only [State.driveCh]
  split
  · rfl
  · split <;> rfl

@[simp] theorem State.embers_arbSettle : s.arbSettle.embers = s.embers := by
  have settled : s.settled.embers = s.embers :=
    (foldl_keeps State.embers (fun t n => t.embers_driveCh n) _ _).trans
      (foldl_keeps State.embers (fun t _ => t.instSettled_keeps State.embers (fun _ _ _ => rfl) _) _ s)
  rw [State.arbSettle, State.settleFrom_eq]
  split <;> exact settled

/-- A side whose power goes. -/
def State.darken (s : State) (sd : SideId) : State :=
  (((s.zeroise sd).modSide sd fun x => { x with role := .out, peerRole := .out, outData := none, pubQueue := [], sw := SwSt.reset }).switchOff
    sd).endpointOff sd

theorem State.darken_embers : (s.darken sd).embers = (s.modSide sd fun x => { x with role := .out, cache := [], till := [] }).embers := by
  rw [State.darken, State.embers_endpointOff, State.embers_switchOff]
  cases sd <;> rfl

/-- The embers of two states that agree stay alike where one side changes. -/
theorem State.embers_modSide_congr {s t : State} (h : t.embers = s.embers) {f : Side → Side} (hf : ∀ x y : Side, x.embers = y.embers →
    (f x).embers = (f y).embers) (sd : SideId) : (t.modSide sd f).embers = (s.modSide sd f).embers := by
  simp only [State.embers, Prod.mk.injEq] at h
  obtain ⟨queue, sideA, sideB, image⟩ := h
  cases sd <;> simp [State.embers, State.modSide, queue, sideA, sideB, image, hf _ _ sideA, hf _ _ sideB]

theorem State.imageLoss_embers : s.imageLoss.embers = (s.ledgerQueue, s.sideA.embers, s.sideB.embers, true) := by
  rw [State.imageLoss, State.embers_arbSettle]
  rfl

/-- Without power both sides are Out and empty, and the Arbiter has no image. -/
theorem State.unpower_off : (s.unpower .off).power.mode = .off ∧
    (s.unpower .off).embers = (s.ledgerQueue, ⟨.out, [], [], s.sideA.sideQueue⟩, ⟨.out, [], [], s.sideB.sideQueue⟩, true) := by
  have dark : (s.forSides fun sd t => t.darken sd).embers =
      (s.ledgerQueue, ⟨.out, [], [], s.sideA.sideQueue⟩, ⟨.out, [], [], s.sideB.sideQueue⟩, s.arb.noImage) := by
    rw [State.forSides, State.darken_embers, State.embers_modSide_congr (s.darken_embers .A)]
    · rfl
    · intro x y h
      exact congrArg (fun e : Embers => (⟨.out, [], [], e.queued⟩ : Embers)) h
  have off : s.unpower .off = (((s.forSides fun sd t => t.darken sd).imageLoss.modPower fun p =>
      { p with runMap := s.runStates, stopAt := none, inputBack := false, fresh := true }).setMode .off).powerFlag Fd.powerStatusAuxOn false := rfl
  simp only [State.embers, Prod.mk.injEq] at dark
  obtain ⟨queue, sideA, sideB, -⟩ := dark
  rw [off]
  refine ⟨rfl, ?_⟩
  rw [State.embers_powerFlag, State.embers_setMode, State.embers_modPower, State.imageLoss_embers, queue, sideA, sideB]

end Embers

section StopEnds

/-- What a module holds whose two sides hold the same. -/
theorem State.of_embers {t : State} {q : List Nat} {e : Embers} {n : Bool} (h : t.embers = (q, e, e, n)) :
    t.ledgerQueue = q ∧ (∀ sd, (t.side sd).embers = e) ∧ t.arb.noImage = n := by
  simp only [State.embers, Prod.mk.injEq] at h
  obtain ⟨queue, sideA, sideB, image⟩ := h
  refine ⟨queue, fun sd => ?_, image⟩
  cases sd
  · exact sideA
  · exact sideB

theorem State.unpower_dark {s : State} (queue : s.ledgerQueue = []) (sideA : s.sideA.sideQueue = 0) (sideB : s.sideB.sideQueue = 0) :
    (s.unpower .off).power.mode = .off ∧ (s.unpower .off).ledgerQueue = [] ∧
      (∀ sd, ((s.unpower .off).side sd).embers = ⟨.out, [], [], 0⟩) ∧ (s.unpower .off).arb.noImage = true := by
  obtain ⟨mode, embers⟩ := s.unpower_off
  rw [queue, sideA, sideB] at embers
  exact ⟨mode, State.of_embers embers⟩

theorem State.embers_shows {x : Side} (h : x.embers = ⟨.out, [], [], 0⟩) : x.role = .out ∧ x.cache = [] ∧ x.till = [] ∧ x.sideQueue = 0 :=
  ⟨congrArg Embers.role h, congrArg Embers.cache h, congrArg Embers.till h, congrArg Embers.queued h⟩

variable (s : State)

/-- After the flush nothing is staged. -/
theorem State.flushQueues_staged : s.flushQueues.ledgerQueue = [] ∧ s.flushQueues.sideA.sideQueue = 0 ∧ s.flushQueues.sideB.sideQueue = 0 :=
  ⟨rfl, rfl, rfl⟩

/-- What the stop stores: the replay windows and the clocks, its keys zeroised. -/
def State.stored (s : State) : State := s.storeWindows.storeClocks.forSides fun sd t => t.zeroise sd

theorem State.stored_staged : s.stored.ledgerQueue = s.ledgerQueue ∧ s.stored.sideA.sideQueue = s.sideA.sideQueue ∧
    s.stored.sideB.sideQueue = s.sideB.sideQueue := ⟨rfl, rfl, rfl⟩

theorem exec_orderlyStopEnd_off (mode : s.power.mode = .stopping) :
    exec (.orderlyStopEnd false) s = .next (s.flushQueues.stored.unpower .off) :=
  congrArg Host.Outcome.next (if_pos mode)

variable {s}

theorem exec_orderlyStopEnd_back (mode : s.power.mode = .stopping) (back : s.power.inputBack = true) :
    exec (.orderlyStopEnd true) s = .next (s.flushQueues.stored.bootModule 9 false) := by
  have ended : s.endStop true = s.flushQueues.stored.bootModule 9 false := by
    simp only [State.endStop, back, Bool.not_true, Bool.false_eq_true, if_false, if_true]
    rfl
  exact (congrArg Host.Outcome.next (if_pos mode)).trans (congrArg Host.Outcome.next ended)

end StopEnds

/-- Settles O46: each row of power loss does what its rule says; what lasts and the embers carry the stop and its end. -/
theorem powerDown : Obligations.PowerDown := by
  unfold Obligations.PowerDown
  intro s
  refine ⟨?warning, firstTickFrom_least, ?dip, fun mode => congrArg Host.Outcome.next (if_pos mode), ?halt, ?ends, ?back, ?returns, ?parked,
    fun h => congrArg Host.Outcome.next (if_pos h), fun sd temp h => congrArg Host.Outcome.next (if_pos h),
    fun sd temp h => congrArg Host.Outcome.next (if_neg (not_lt.2 h)), ?boots⟩
  case warning =>
    intro ns mode active free holds ahead
    rw [exec_pfWarnAssert_chooses mode active free holds ahead]
    rfl
  case dip => exact fun mode warned after => ⟨_, exec_powerDip_service mode warned after, s.dipped_shows s.now⟩
  case halt =>
    intro w mode active stop
    exact ⟨_, congrArg Host.Outcome.next (if_pos ⟨mode, Option.isSome_iff_ne_none.2 active, stop⟩), s.powerHaltAt_shows w.toNat⟩
  case ends =>
    intro mode
    obtain ⟨queue, sideA, sideB⟩ := s.flushQueues_staged
    obtain ⟨storedQueue, storedA, storedB⟩ := s.flushQueues.stored_staged
    obtain ⟨off, empty, dark, image⟩ := State.unpower_dark (storedQueue.trans queue) (storedA.trans sideA) (storedB.trans sideB)
    exact ⟨_, exec_orderlyStopEnd_off s mode, off, empty, fun sd => State.embers_shows (dark sd), image⟩
  case back =>
    exact fun mode back => ⟨_, exec_orderlyStopEnd_back mode back, congrArg PowSt.mode (State.bootModule_power _ 9 false)⟩
  case returns => exact fun mode => congrArg Host.Outcome.next (if_pos mode)
  case parked =>
    intro mode
    obtain ⟨queue, sideA, sideB⟩ := s.flushQueues_staged
    obtain ⟨off, -, dark, -⟩ := State.unpower_dark queue sideA sideB
    exact ⟨_, congrArg Host.Outcome.next (if_pos (.inl mode)), off, fun sd => (State.embers_shows (dark sd)).1⟩
  case boots =>
    intro cause arb
    have lasting := s.lasting_bootModule cause arb
    obtain ⟨out, waiting⟩ := s.bootModule_seats cause arb
    exact ⟨congrArg PowSt.mode (s.bootModule_power cause arb), State.now_of_lasting lasting, State.forces_of_lasting lasting, waiting,
      State.unlocks_of_lasting lasting, State.modActive_of_lasting lasting, State.safePw_of_lasting lasting,
      fun sd => ⟨out sd, s.bootModule_keys cause arb sd⟩⟩

end Sys2Proof.Machine
end
